-- ==== Sys2Proof/Word.lean ====
section
/-!
DEFINITION. The word types of the Hyaris H8 (R7: byte, word, doubleword) and nothing else.
Byte order, bit fields and number formats are in `Sys2Proof/Machine/Num.lean`.
-/
namespace Sys2Proof

/-- A byte (R7). -/
abbrev Byte := BitVec 8
/-- A word of 32 bits (R7). -/
abbrev Word := BitVec 32
/-- A doubleword of 64 bits (R7). -/
abbrev DWord := BitVec 64
/-- Bytes in ascending address order. -/
abbrev Bytes := List Byte

end Sys2Proof
end

