-- ==== Sys2Proof/Machine/Num.lean ====
section
/-!
DEFINITION. Number formats, conversions and rounding (02_arithmetic R44 to R57, R79 to R82),
bit fields and byte order (R6, R7).
-/
namespace Sys2Proof.Machine

/-! ## Byte order and bit fields -/

/-- Bits `[lo + n - 1 : lo]` of a number (R6). -/
def bitField (v lo n : Nat) : Nat := (v >>> lo) % 2 ^ n

/-- The `n` little-endian bytes of `v` (R7). -/
def leBytes : Nat → Nat → Bytes
  | 0, _ => []
  | n + 1, v => BitVec.ofNat 8 v :: leBytes n (v / 256)

/-- The number that little-endian bytes spell (R7). -/
def leNat : Bytes → Nat
  | [] => 0
  | b :: bs => b.toNat + 256 * leNat bs

/-- The `n`-byte little-endian number at byte `off` of a structure; bytes past its end read 0. -/
def fieldAt (bs : Bytes) (off n : Nat) : Nat := leNat ((bs.drop off).take n)

/-- Every byte of `bs` from `off` to `off + n - 1` is zero (a reserved field, R14). -/
def zeroAt (bs : Bytes) (off n : Nat) : Bool := ((bs.drop off).take n).all (· == 0)

/-- Two's-complement value of an `n`-bit field. -/
def signed (n v : Nat) : Int := if v % 2 ^ n < 2 ^ (n - 1) then (v % 2 ^ n : Nat) else (v % 2 ^ n : Nat) - (2 ^ n : Nat)

/-- The `n`-bit two's-complement field that holds `i`. -/
def unsigned (n : Nat) (i : Int) : Nat := (i % (2 ^ n : Nat)).toNat

/-- Bytes padded with zeros, or cut, to a length. -/
def padTo (n : Nat) (bs : Bytes) : Bytes := bs.take n ++ List.replicate (n - bs.length) 0

/-- Split a byte list into pieces of `n`; `fuel` bounds the number of pieces. -/
def chunksFuel {α : Type} (n : Nat) : Nat → List α → List (List α)
  | 0, _ => []
  | fuel + 1, l => if l.isEmpty then [] else l.take n :: chunksFuel n fuel (l.drop n)

/-- Pieces of `n` elements, the last one maybe shorter. -/
def chunks {α : Type} (n : Nat) (l : List α) : List (List α) := chunksFuel n l.length l

/-- A saturating maximum over a list. -/
def maxNat (l : List Nat) : Nat := l.foldl Nat.max 0

/-! ## Exact values -/

/-- An exact value: not a number, an infinity, or `(-1)^neg * m * 2^e`. -/
inductive Val where
  | nan
  | inf (neg : Bool)
  | fin (neg : Bool) (m : Nat) (e : Int)
  deriving DecidableEq, Repr

/-- Plus zero. -/
def Val.zero : Val := .fin false 0 0
/-- An integer as an exact value. -/
def Val.ofInt (i : Int) : Val := .fin (decide (i < 0)) i.natAbs 0
/-- An integer times a power of two; zero is plus zero. -/
def Val.ofScaled (i : Int) (e : Int) : Val := .fin (decide (i < 0)) i.natAbs e
/-- A NaN. -/
def Val.isNan : Val → Bool | .nan => true | _ => false
/-- A finite value. -/
def Val.isFin : Val → Bool | .fin _ _ _ => true | _ => false
/-- A zero of either sign. -/
def Val.isZero : Val → Bool | .fin _ m _ => m == 0 | _ => false
/-- The sign bit of a value that is not a NaN. -/
def Val.sign : Val → Bool | .nan => false | .inf n => n | .fin n _ _ => n
/-- The value with its sign changed. -/
def Val.neg : Val → Val | .nan => .nan | .inf n => .inf (!n) | .fin n m e => .fin (!n) m e
/-- The magnitude of a value. -/
def Val.abs : Val → Val | .nan => .nan | .inf _ => .inf false | .fin _ m e => .fin false m e
/-- The value times `2^k`. -/
def Val.scale (k : Int) : Val → Val | .fin n m e => .fin n m (e + k) | v => v
/-- An MX element under the scale of its block, which scale 0xFF makes a NaN (R54). -/
def Val.inBlock (scale : Nat) (v : Val) : Val := if scale == 0xFF then .nan else v.scale ((scale : Int) - 127)
/-- The integer `±m * 2^(e - base)` when `base ≤ e`. -/
def Val.toUnits (base : Int) : Val → Int
  | .fin n m e => (if n then -1 else 1) * ((m * 2 ^ (e - base).toNat : Nat) : Int)
  | _ => 0
/-- The exponent of a finite value, 0 otherwise. -/
def Val.exp : Val → Int | .fin _ _ e => e | _ => 0
/-- `floor(log2 |v|)` of a finite value that is not zero. -/
def Val.log2 : Val → Int | .fin _ m e => (Nat.log2 m : Int) + e | _ => 0

/-- The exact product; an infinity times a zero is a NaN (R63). -/
def Val.mul : Val → Val → Val
  | .nan, _ => .nan
  | _, .nan => .nan
  | .inf a, .inf b => .inf (a != b)
  | .inf a, .fin b m _ => if m == 0 then .nan else .inf (a != b)
  | .fin a m _, .inf b => if m == 0 then .nan else .inf (a != b)
  | .fin a m e, .fin b n f => .fin (a != b) (m * n) (e + f)

/-- The exact sum (IEEE 754 under round to nearest: a zero sum of terms that are not both minus zero is plus zero). -/
def Val.add : Val → Val → Val
  | .nan, _ => .nan
  | _, .nan => .nan
  | .inf a, .inf b => if a == b then .inf a else .nan
  | .inf a, _ => .inf a
  | _, .inf b => .inf b
  | .fin a m e, .fin b n f =>
    let base := min e f
    let s := (Val.fin a m e).toUnits base + (Val.fin b n f).toUnits base
    if s == 0 then .fin (a && b) 0 0 else Val.ofScaled s base

/-- Compare two finite or infinite values: `some lt/eq/gt`, or none when one is a NaN. -/
def Val.cmp : Val → Val → Option Ordering
  | .nan, _ => none
  | _, .nan => none
  | .inf a, .inf b => some (if a == b then .eq else if a then .lt else .gt)
  | .inf a, _ => some (if a then .lt else .gt)
  | _, .inf b => some (if b then .gt else .lt)
  | .fin a m e, .fin b n f =>
    let base := min e f
    some (compare ((Val.fin a m e).toUnits base) ((Val.fin b n f).toUnits base))

/-- `a < b`, false for a NaN. -/
def Val.lt (a b : Val) : Bool := a.cmp b == some .lt
/-- `a = b` as numbers, false for a NaN. -/
def Val.eq (a b : Val) : Bool := a.cmp b == some .eq
/-- `a ≤ b`, false for a NaN. -/
def Val.le (a b : Val) : Bool := a.lt b || a.eq b

/-- A quotient with at least 64 significant bits and a sticky bit: rounding it to any format of R45 rounds the exact
quotient. Zero by zero and infinity by infinity are NaN; a finite value by zero is an infinity (IEEE 754). -/
def Val.div : Val → Val → Val
  | .nan, _ => .nan
  | _, .nan => .nan
  | .inf _, .inf _ => .nan
  | .inf a, .fin b _ _ => .inf (a != b)
  | .fin a _ _, .inf b => .fin (a != b) 0 0
  | .fin a m e, .fin b n f =>
    if n == 0 then (if m == 0 then .nan else .inf (a != b))
    else if m == 0 then .fin (a != b) 0 0
    else
      let k := 64 + Nat.log2 n
      let q := (m * 2 ^ k) / n
      let r := (m * 2 ^ k) % n
      .fin (a != b) (2 * q + (if r == 0 then 0 else 1)) (e - f - k - 1)

/-- The bits of an integer square root from bit `b - 1` down, above the part `r` already found. -/
def isqrtBits (n : Nat) : Nat → Nat → Nat
  | 0, r => r
  | b + 1, r => isqrtBits n b (if (r + 2 ^ b) * (r + 2 ^ b) ≤ n then r + 2 ^ b else r)

/-- The integer part of a square root. -/
def isqrt (n : Nat) : Nat := isqrtBits n (Nat.log2 n / 2 + 1) 0

/-- A square root with at least 32 significant bits more than a sticky bit. A negative value has the root NaN; minus
zero has the root minus zero (IEEE 754). -/
def Val.sqrt : Val → Val
  | .nan => .nan
  | .inf n => if n then .nan else .inf false
  | .fin n m e =>
    if m == 0 then .fin n 0 0
    else if n then .nan
    else
      let odd : Nat := if e % 2 == 0 then 0 else 1
      let m2 := m * 2 ^ (128 + odd)
      let e2 := e - 128 - odd
      let r := isqrt m2
      .fin false (2 * r + (if r * r == m2 then 0 else 1)) (e2 / 2 - 1)

/-! ## Formats -/

/-- The format codes of R44. -/
inductive Fmt where
  | fp32 | bf16 | fp16 | e4m3 | e5m2 | mxE4m3 | mxE5m2 | mxE2m3 | mxE3m2 | mxE2m1 | la
  deriving DecidableEq, Repr

/-- The format a 4-bit code names; 0xB to 0xF are reserved (R44). -/
def Fmt.ofCode : Nat → Option Fmt
  | 0 => some .fp32 | 1 => some .bf16 | 2 => some .fp16 | 3 => some .e4m3 | 4 => some .e5m2 | 5 => some .mxE4m3
  | 6 => some .mxE5m2 | 7 => some .mxE2m3 | 8 => some .mxE3m2 | 9 => some .mxE2m1 | 10 => some .la | _ => none

/-- The code of a format (R44). -/
def Fmt.code : Fmt → Nat
  | .fp32 => 0 | .bf16 => 1 | .fp16 => 2 | .e4m3 => 3 | .e5m2 => 4 | .mxE4m3 => 5 | .mxE5m2 => 6 | .mxE2m3 => 7
  | .mxE3m2 => 8 | .mxE2m1 => 9 | .la => 10

/-- A format of MX blocks (R53). -/
def Fmt.isMx : Fmt → Bool
  | .mxE4m3 | .mxE5m2 | .mxE2m3 | .mxE3m2 | .mxE2m1 => true
  | _ => false

/-- The scalar layout of a format's elements (R45). Magnitude codes above `maxMag` are the infinity or NaN. -/
structure Layout where
  width  : Nat
  frac   : Nat
  bias   : Nat
  maxMag : Nat
  infMag : Option Nat
  nan    : Nat
  deriving DecidableEq, Repr

/-- R45 and R47: widths, fraction widths, biases, largest finite magnitudes, infinities and canonical NaNs. -/
def Fmt.layout : Fmt → Layout
  | .fp32 => ⟨32, 23, 127, 0x7F7FFFFF, some 0x7F800000, 0x7FC00000⟩
  | .bf16 => ⟨16, 7, 127, 0x7F7F, some 0x7F80, 0x7FC0⟩
  | .fp16 => ⟨16, 10, 15, 0x7BFF, some 0x7C00, 0x7E00⟩
  | .e4m3 => ⟨8, 3, 7, 0x7E, none, 0x7F⟩
  | .e5m2 => ⟨8, 2, 15, 0x7B, some 0x7C, 0x7E⟩
  | .mxE4m3 => ⟨8, 3, 7, 0x7E, none, 0x7F⟩
  | .mxE5m2 => ⟨8, 2, 15, 0x7B, some 0x7C, 0x7E⟩
  | .mxE2m3 => ⟨6, 3, 1, 0x1F, none, 0⟩
  | .mxE3m2 => ⟨6, 2, 3, 0x1F, none, 0⟩
  | .mxE2m1 => ⟨4, 1, 1, 0x7, none, 0⟩
  | .la => ⟨64, 23, 127, 0x7F7FFFFF, some 0x7F800000, 0x7FC00000⟩

/-- Element width in bits (R44). -/
def Fmt.width (f : Fmt) : Nat := f.layout.width

/-- The exponent of a layout's smallest subnormal (R45). -/
def Layout.emin (l : Layout) : Int := 1 - (l.bias : Int) - (l.frac : Int)

/-- The value of an element code (R45, R46: subnormals are read exactly). -/
def Layout.decode (l : Layout) (code : Nat) : Val :=
  let neg := code / 2 ^ (l.width - 1) % 2 == 1
  let mag := code % 2 ^ (l.width - 1)
  if mag > l.maxMag then
    if l.infMag == some mag then .inf neg else .nan
  else
    let ef := mag / 2 ^ l.frac
    let f := mag % 2 ^ l.frac
    if ef == 0 then .fin neg f l.emin else .fin neg (2 ^ l.frac + f) (l.emin + ef - 1)

/-- The two rounding modes of R49. -/
inductive Rnd where
  | rne | rtz
  deriving DecidableEq, Repr

/-- `m * 2^e` rounded to a multiple of `2^q`, as that multiple. -/
def roundAt (rnd : Rnd) (m : Nat) (e q : Int) : Nat :=
  if q ≤ e then m * 2 ^ (e - q).toNat
  else
    let k := (q - e).toNat
    let n := m / 2 ^ k
    let r := m % 2 ^ k
    match rnd with
    | .rtz => n
    | .rne => if 2 * r > 2 ^ k || (2 * r == 2 ^ k && n % 2 == 1) then n + 1 else n

/-- The magnitude code of `m * 2^e` rounded once to a layout, with no bound on the exponent (R48). -/
def Layout.roundMag (l : Layout) (rnd : Rnd) (m : Nat) (e : Int) : Nat :=
  if m == 0 then 0
  else
    let q := max ((Nat.log2 m : Int) + e - l.frac) l.emin
    ((q - l.emin).toNat) * 2 ^ l.frac + roundAt rnd m e q

/-- The sign bit of a layout. -/
def Layout.signBit (l : Layout) (neg : Bool) : Nat := if neg then 2 ^ (l.width - 1) else 0

/-- What a conversion gives: the code, and whether a finite source saturated or overflowed (R50, R151). -/
structure Conv where
  code : Nat
  ovf : Bool
  deriving DecidableEq, Repr

/-- Convert an exact value to a scalar format under RND and SAT (R48 to R51). -/
def convert (f : Fmt) (rnd : Rnd) (sat : Bool) (v : Val) : Conv :=
  let l := f.layout
  match v with
  | .nan => ⟨l.nan, false⟩
  | .inf neg => match l.infMag with
    | some i => ⟨l.signBit neg + i, false⟩
    | none => ⟨l.nan, false⟩
  | .fin neg m e =>
    let c := l.roundMag rnd m e
    if c ≤ l.maxMag then ⟨l.signBit neg + c, false⟩
    else if sat || rnd == .rtz || (f.isMx) then ⟨l.signBit neg + l.maxMag, true⟩
    else match l.infMag with
      | some i => ⟨l.signBit neg + i, true⟩
      | none => ⟨l.nan, true⟩

/-- The code a conversion gives. -/
def toFmt (f : Fmt) (rnd : Rnd) (sat : Bool) (v : Val) : Nat := (convert f rnd sat v).code

/-- FP32 under RNE with overflow to infinity: the result of every IEEE operation of the part (R131). -/
def toF32 (v : Val) : Word := BitVec.ofNat 32 (toFmt .fp32 .rne false v)
/-- The value of an FP32 pattern. -/
def ofF32 (w : Word) : Val := Fmt.fp32.layout.decode w.toNat
/-- The value of a BF16 pattern. -/
def ofBf16 (h : BitVec 16) : Val := Fmt.bf16.layout.decode h.toNat
/-- BF16 under RNE. -/
def toBf16 (v : Val) : BitVec 16 := BitVec.ofNat 16 (toFmt .bf16 .rne false v)
/-- The canonical NaN of FP32 (R47). -/
def nanF32 : Word := 0x7FC00000

/-- The conversion control field CVT (R49): none when it holds a reserved value. -/
def cvtOf (c : Nat) : Option (Rnd × Bool) :=
  let rnd := c % 4
  if c ≥ 8 then none
  else if rnd == 0 then some (.rne, bitField c 2 1 == 1)
  else if rnd == 1 then some (.rtz, bitField c 2 1 == 1)
  else none

/-! ## MX blocks -/

/-- The exponent of the largest power of two of an MX element format (R56). -/
def Fmt.emax : Fmt → Int
  | .mxE4m3 => 8 | .mxE5m2 => 15 | .mxE2m3 => 2 | .mxE3m2 => 4 | .mxE2m1 => 2 | _ => 0

/-- An MX block: its scale byte and its element codes (R53). -/
structure MxBlock where
  scale : Nat
  elems : List Nat
  deriving DecidableEq, Repr

/-- The larger of two finite magnitudes. -/
def magMax (a b : Val) : Val := if a.abs.lt b.abs then b.abs else a.abs

/-- Convert a block of values to an MX format (R56, R57). -/
def mxPack (f : Fmt) (vs : List Val) : MxBlock :=
  if vs.all Val.isFin then
    let amax := vs.foldl magMax Val.zero
    if amax.isZero then ⟨0, vs.map fun _ => 0⟩
    else
      let x := max (-127) (min 127 (amax.log2 - f.emax))
      ⟨(x + 127).toNat, vs.map fun v => toFmt f .rne true (v.scale (-x))⟩
  else ⟨0xFF, vs.map fun _ => 0⟩

/-- The values of a block (R53, R54). -/
def mxUnpack (f : Fmt) (b : MxBlock) : List Val :=
  b.elems.map fun c => (f.layout.decode c).inBlock b.scale

/-- Codes of `w` bits packed into a little-endian bit string (R55). -/
def packBits (w : Nat) : List Nat → Nat
  | [] => 0
  | c :: cs => c % 2 ^ w + 2 ^ w * packBits w cs

/-- `n` codes of `w` bits taken from a little-endian bit string (R55). -/
def unpackBits (w : Nat) : Nat → Nat → List Nat
  | 0, _ => []
  | n + 1, v => v % 2 ^ w :: unpackBits w n (v / 2 ^ w)

/-! ## Stochastic rounding and the compensated split -/

/-- Stochastic rounding of an FP32 pattern to BF16 with 16 random bits (R52). -/
def stochasticRound (t : Word) (r : BitVec 16) : BitVec 16 :=
  let s := bitField t.toNat 31 1
  let mag := t.toNat % 2 ^ 31
  match ofF32 t with
  | .nan => 0x7FC0
  | .inf neg => if neg then 0xFF80 else 0x7F80
  | .fin _ _ _ =>
    let sum := mag + r.toNat
    if sum / 2 ^ 16 ≥ 0x7F80 then BitVec.ofNat 16 (s * 2 ^ 15 + 0x7F7F)
    else BitVec.ofNat 16 (s * 2 ^ 15 + sum / 2 ^ 16)

/-- The high half of a master: the BF16 value nearest to it, a tie going to the greater of the two (R79). -/
def splitHigh (t : Word) : BitVec 16 :=
  let s := bitField t.toNat 31 1
  let hi := t.toNat / 2 ^ 16 % 2 ^ 15
  let lo := t.toNat % 2 ^ 16
  let up := if s == 0 then decide (lo ≥ 0x8000) else decide (lo > 0x8000)
  BitVec.ofNat 16 (s * 2 ^ 15 + hi + (if up then 1 else 0))

/-- The exponent of the low half's unit, given the high half and whether the low half is not zero with the other sign
(R80). -/
def splitUnit (h : BitVec 16) (opposite : Bool) : Int :=
  let ef := bitField h.toNat 7 8
  let e : Int := if ef == 0 then -126 else (ef : Int) - 127
  e - 23 - (if decide (ef ≥ 2) && bitField h.toNat 0 7 == 0 && opposite then 1 else 0)

/-- The low half of a master whose high half is `h` (R80). -/
def splitLow (t : Word) (h : BitVec 16) : BitVec 16 :=
  let d := (ofF32 t).add (ofBf16 h).neg
  if d.isZero then 0
  else
    let u := splitUnit h (d.sign != (ofBf16 h).sign)
    -- the difference is an integer multiple of its unit (R80)
    let i : Int := (if d.sign then -1 else 1) * (match d with
      | .fin _ m e => if u ≤ e then ((m * 2 ^ (e - u).toNat : Nat) : Int) else ((m / 2 ^ (u - e).toNat : Nat) : Int)
      | _ => 0)
    BitVec.ofInt 16 i

/-- The master that two halves hold (R80). -/
def splitRecover (h : BitVec 16) (l : BitVec 16) : Val :=
  let i := l.toInt
  if i == 0 then ofBf16 h
  else (ofBf16 h).add (Val.ofScaled i (splitUnit h (decide (i < 0) != (ofBf16 h).sign)))

end Sys2Proof.Machine
end

