-- ==== Sys2Proof/Machine/La.lean ====
section
/-!
DEFINITION. The LA192 accumulator, anchors, guard overflow and the LA transport format (02_arithmetic R59 to R77).
-/
namespace Sys2Proof.Machine

/-- An accumulator: the exact integer sum (the 192 bits with the excess count, R62), the three sticky flags of R63 and
the addend-overflow bit of R61. -/
structure La where
  sum  : Int
  nan  : Bool
  pinf : Bool
  ninf : Bool
  aovf : Bool
  deriving DecidableEq, Repr

/-- The cleared accumulator. -/
def La.zero : La := ⟨0, false, false, false, false⟩

/-- Some flag of R63 is set. -/
def La.flagged (a : La) : Bool := a.nan || a.pinf || a.ninf

/-- Truncate an exact value toward zero at weight `2^(A - 160)` and add it (R61, R63). -/
def La.addVal (A : Int) (a : La) (v : Val) : La :=
  match v with
  | .nan => { a with nan := true }
  | .inf neg => if neg then { a with ninf := true } else { a with pinf := true }
  | .fin neg m e =>
    let k := e - (A - 160)
    let t := if 0 ≤ k then m * 2 ^ k.toNat else m / 2 ^ (-k).toNat
    let ovf := decide (t ≥ 2 ^ 183)
    let t' : Nat := if ovf then 2 ^ 183 - 1 else t
    { a with sum := a.sum + (if neg then -(t' : Int) else (t' : Int)), aovf := a.aovf || ovf }

/-- Add a partial sum held at the same anchor (R68, R75, R76). -/
def La.merge (a b : La) : La :=
  ⟨a.sum + b.sum, a.nan || b.nan, a.pinf || b.pinf, a.ninf || b.ninf, a.aovf || b.aovf⟩

/-- A sum of exact values at anchor `A`. -/
def La.ofVals (A : Int) (vs : List Val) : La := vs.foldl (La.addVal A) La.zero

/-- Guard overflow of an output element (R65). -/
def La.overflows (a : La) : Bool :=
  !a.flagged && (a.aovf || decide (a.sum < -(2 ^ 183)) || decide (a.sum ≥ 2 ^ 183))

/-- An FP32 result with the conditions that the monitors count (R63, R64, R67). -/
structure LaOut where
  word      : Word
  fp32Sat   : Bool
  nonfinite : Bool
  anchorSat : Bool
  deriving DecidableEq, Repr

/-- The output of an accumulator that does not overflow (R63, R64). -/
def La.finish (A : Int) (a : La) : LaOut :=
  if a.nan || (a.pinf && a.ninf) then ⟨nanF32, false, true, false⟩
  else if a.pinf then ⟨0x7F800000, false, true, false⟩
  else if a.ninf then ⟨0xFF800000, false, true, false⟩
  else
    let c := convert .fp32 .rne true (Val.ofScaled a.sum (A - 160))
    ⟨BitVec.ofNat 32 c.code, c.ovf, false, false⟩

/-- The saturated output of an element that still overflows at the last anchor tried (R67). -/
def La.saturate (A : Int) (a : La) : LaOut :=
  let v : Int := if a.sum < 0 then -(2 ^ 183) else 2 ^ 183 - 1
  let c := convert .fp32 .rne true (Val.ofScaled v (A - 160))
  ⟨BitVec.ofNat 32 c.code, c.ovf, false, true⟩

/-- The anchors of the passes: `A`, `A + 32` and `A + 64`, those above 511 skipped (R65, R136). -/
def passAnchors (A : Int) : List Int := [A, A + 32, A + 64].filter fun a => decide (a ≤ 511)

/-- Choose among the passes of one element the lowest anchor at which it does not overflow, or saturate at the last
(R66, R67). The number is the pass chosen. -/
def La.choose : List (Int × La) → Nat → Nat × LaOut
  | [], n => (n, ⟨0, false, false, false⟩)
  | [(A, a)], n => (n, if a.overflows then a.saturate A else a.finish A)
  | (A, a) :: rest, n => if a.overflows then La.choose rest (n + 1) else (n, a.finish A)

/-! ## Anchors (R60, R70) -/

/-- Clamp to the range of an anchor. -/
def clampAnchor (i : Int) : Int := max (-512) (min 511 i)

/-- The anchor word names a reserved mode or bit (R60). -/
def anchorReserved (w : Nat) : Bool := decide (bitField w 10 2 ≥ 2) || bitField w 15 1 == 1

/-- The anchor word is of mode AUTO (R60). -/
def anchorAuto (w : Nat) : Bool := bitField w 10 2 == 1

/-- The anchor that an anchor word gives, with the amax of the previous step where AUTO uses one (R70). `amax` is an
FP32 magnitude, 0 where there is none. -/
def anchorOf (w : Nat) (amax : Word) : Int :=
  if anchorAuto w && amax != 0 then
    clampAnchor ((ofF32 amax).log2 + 1 + (bitField w 12 3 : Nat))
  else signed 10 w

/-! ## LA transport (R73 to R77) -/

/-- The number of trailing zero bits of a number that is not zero. -/
def trailingZeros (n : Nat) : Nat := Nat.log2 (n ^^^ (n - 1))

/-- The transport words of one element (R73 to R76). -/
def La.encode (a : La) : List DWord :=
  if a.flagged then
    [BitVec.ofNat 64 (0b11 * 2 ^ 62 + (if a.nan then 4 else 0) + (if a.pinf then 2 else 0) + (if a.ninf then 1 else 0))]
  else if !a.aovf && a.sum == 0 then [0]
  else
    let s := trailingZeros a.sum.natAbs
    let m := a.sum / (2 ^ s : Nat)
    if !a.aovf && decide (s ≤ 191) && decide (-(2 ^ 53) ≤ m) && decide (m ≤ 2 ^ 53 - 1) then
      [BitVec.ofNat 64 (0b01 * 2 ^ 62 + s * 2 ^ 54 + unsigned 54 m)]
    else
      let lo := unsigned 192 a.sum
      let ex := (a.sum - signed 192 lo) / (2 ^ 192 : Nat)
      let exc := max (-(2 ^ 23)) (min (2 ^ 23 - 1) ex)
      let av := a.aovf || decide (exc ≠ ex)
      [BitVec.ofNat 64 (0b10 * 2 ^ 62 + unsigned 24 exc * 2 ^ 16 + (if av then 1 else 0)),
       BitVec.ofNat 64 lo, BitVec.ofNat 64 (lo / 2 ^ 64), BitVec.ofNat 64 (lo / 2 ^ 128)]

/-- One element read from transport words, with the words left; none for a reserved value (R77). -/
def La.decode : List DWord → Option (La × List DWord)
  | [] => none
  | w :: ws =>
    let n := w.toNat
    let tag := bitField n 62 2
    if tag == 0 then (if n == 0 then some (La.zero, ws) else none)
    else if tag == 1 then
      let s := bitField n 54 8
      let m := signed 54 n
      if s ≤ 191 ∧ m % 2 = 1 then some ({ La.zero with sum := m * (2 ^ s : Nat) }, ws) else none
    else if tag == 3 then
      if n % 2 ^ 62 < 8 then
        some ({ La.zero with nan := bitField n 2 1 == 1, pinf := bitField n 1 1 == 1, ninf := bitField n 0 1 == 1 }, ws)
      else none
    else
      match ws with
      | a :: b :: c :: rest =>
        if bitField n 40 22 == 0 && bitField n 1 15 == 0 then
          let v := signed 192 (a.toNat + 2 ^ 64 * b.toNat + 2 ^ 128 * c.toNat)
          some ({ La.zero with sum := v + signed 24 (bitField n 16 24) * (2 ^ 192 : Nat),
                               aovf := bitField n 0 1 == 1 }, rest)
        else none
      | _ => none

/-- A whole stream of `n` elements. -/
def La.decodeMany : Nat → List DWord → Option (List La × List DWord)
  | 0, ws => some ([], ws)
  | n + 1, ws => match La.decode ws with
    | none => none
    | some (a, rest) => match La.decodeMany n rest with
      | none => none
      | some (as, r) => some (a :: as, r)

/-- The bytes of transport words (R7). -/
def wordBytes (ws : List DWord) : Bytes := ws.flatMap fun w => leBytes 8 w.toNat

/-- The transport words that bytes spell. -/
def bytesWords (bs : Bytes) : List DWord := (chunks 8 bs).map fun c => BitVec.ofNat 64 (leNat c)

/-- An image element enters as one addend of weight `2^(from - 160)`, truncated at another anchor (R111), and capped as any addend is
(R61, log entry 154, DESIGN CHOICE). -/
def La.reanchor (fromA toA : Int) (a : La) : La :=
  let r := La.zero.addVal toA (Val.ofScaled a.sum (fromA - 160))
  { r with nan := a.nan, pinf := a.pinf, ninf := a.ninf, aovf := r.aovf || a.aovf }

end Sys2Proof.Machine
end

