-- ==== Sys2Proof/Machine/Fn.lean ====
section
/-!
DEFINITION. The transcendental library (04_vector_scalar R140 to R142), the activations and their derivatives
(R143, R144, 03_matrix_cores R113) and the Coin generator (R145).

Every function of the library is computed by fixed-point arithmetic whose error is far below the slack allowed for it;
a result is taken when both ends of the enclosure round to one FP32 value, else the precision is doubled. The exact
cases are handled apart, so an enclosure never straddles a rounding boundary at every precision.
-/
namespace Sys2Proof.Machine

/-! ## Fixed point: an integer `x` stands for `x / 2^P` -/

/-- The product of two fixed-point numbers. -/
def fixMul (P : Nat) (a b : Int) : Int := a * b / (2 ^ P : Nat)
/-- The quotient of two fixed-point numbers. -/
def fixDiv (P : Nat) (a b : Int) : Int := a * (2 ^ P : Nat) / b
/-- The square root of a fixed-point number. -/
def fixSqrt (P : Nat) (a : Int) : Int := (isqrt (a.toNat * 2 ^ P) : Nat)
/-- One. -/
def fixOne (P : Nat) : Int := (2 ^ P : Nat)
/-- An exact value in fixed point, rounded down. -/
def fixOf (P : Nat) : Val → Int
  | .fin n m e =>
    let k := e + P
    let v : Int := if 0 ≤ k then ((m * 2 ^ k.toNat : Nat) : Int) else ((m / 2 ^ (-k).toNat : Nat) : Int)
    if n then -v else v
  | _ => 0

/-- The terms `t / (2k+1)` of the series of atanh, `t` multiplied by `z2` at each term. -/
def atanhSum (P : Nat) (z2 : Int) : Nat → Nat → Int → Int → Int
  | 0, _, _, acc => acc
  | n + 1, k, t, acc => if t == 0 then acc else atanhSum P z2 n (k + 2) (fixMul P t z2) (acc + t / (k : Int))

/-- `atanh z` for `|z| ≤ 1/3`. -/
def fixAtanh (P : Nat) (z : Int) : Int := atanhSum P (fixMul P z z) P 1 z 0

/-- `ln 2`. -/
def fixLn2 (P : Nat) : Int := 2 * fixAtanh P (fixOne P / 3)

/-- The alternating series of atan of `1/n`. -/
def atanSum (n2 : Int) : Nat → Nat → Bool → Int → Int → Int
  | 0, _, _, _, acc => acc
  | f + 1, k, pos, t, acc =>
    if t == 0 then acc else atanSum n2 f (k + 2) (!pos) (t / n2) (if pos then acc + t / (k : Int) else acc - t / (k : Int))

/-- `atan (1/n)`. -/
def fixAtanInv (P n : Nat) : Int := atanSum ((n * n : Nat) : Int) P 1 true (fixOne P / (n : Int)) 0

/-- `pi`, by Machin's formula. -/
def fixPi (P : Nat) : Int := 16 * fixAtanInv P 5 - 4 * fixAtanInv P 239

/-- The exponential series. -/
def expSum (P : Nat) (r : Int) : Nat → Nat → Int → Int → Int
  | 0, _, _, acc => acc
  | n + 1, k, t, acc => if t == 0 then acc else expSum P r n (k + 1) (fixMul P t r / (k : Int)) (acc + t)

/-- `e^x = m * 2^k`, with `m` in fixed point near 1 to 2. -/
def fixExp (P : Nat) (x : Int) : Int × Int :=
  let l := fixLn2 P
  let k := x / l
  (expSum P (x - k * l) P 1 (fixOne P) 0, k)

/-- `e^x` in fixed point, for results that are not large. -/
def fixExpFlat (P : Nat) (x : Int) : Int :=
  let (m, k) := fixExp P x
  if 0 ≤ k then m * (2 ^ k.toNat : Nat) else m / (2 ^ (-k).toNat : Nat)

/-- `ln` of `m * 2^e`, `m` positive. -/
def fixLog (P : Nat) (m : Nat) (e : Int) : Int :=
  let b := Nat.log2 m
  let f : Int := ((m * 2 ^ P / 2 ^ b : Nat) : Int)
  (e + b) * fixLn2 P + 2 * fixAtanh P (fixDiv P (f - fixOne P) (f + fixOne P))

/-- `ln (1 + y)` for `y` from 0 to 1. -/
def fixLog1 (P : Nat) (y : Int) : Int := 2 * fixAtanh P (fixDiv P y (2 * fixOne P + y))

/-- The alternating series of sine (from `k = 1`) or cosine (from `k = 0`). -/
def sinSum (P : Nat) (r2 : Int) : Nat → Nat → Int → Int → Int
  | 0, _, _, acc => acc
  | n + 1, k, t, acc =>
    if t == 0 then acc else sinSum P r2 n (k + 2) (-(fixMul P t r2 / (((k + 1) * (k + 2) : Nat) : Int))) (acc + t)

/-- Sine (`q = 0`) or cosine (`q = 1`) of an exact value, reduced by quarter turns with the digits of pi its size needs. -/
def fixSin (P : Nat) (q : Int) (v : Val) : Int :=
  let P2 := P + v.log2.toNat + 32
  let x := fixOf P2 v
  let h := fixPi P2 / 2
  let n := x / h
  let r := (x - n * h) / (2 ^ (P2 - P) : Nat)
  let r2 := fixMul P r r
  let j := (n + q) % 4
  let s := if j % 2 == 0 then sinSum P r2 P 1 r 0 else sinSum P r2 P 0 (fixOne P) 0
  if j ≥ 2 then -s else s

/-- The series `x^(2n+1) / (2n+1)!!`. -/
def erfSum (P : Nat) (x2 : Int) : Nat → Nat → Int → Int → Int
  | 0, _, _, acc => acc
  | n + 1, k, t, acc => if t == 0 then acc else erfSum P x2 n (k + 2) (fixMul P t x2 / ((k + 2 : Nat) : Int)) (acc + t)

/-- `e^(-y)` for `y ≥ 0`. -/
def fixExpNeg (P : Nat) (y : Int) : Int := fixExpFlat P (-y)

/-- `erf (p / sqrt 2)` for a fixed-point `p` of magnitude below 32. -/
def fixErfHalf (P : Nat) (p : Int) : Int :=
  let Q := P + 800
  let x := p * (2 ^ 800 : Nat)
  let s := erfSum Q (fixMul Q x x) (4 * Q) 1 x 0
  let c := fixSqrt Q (fixDiv Q (2 * fixOne Q) (fixPi Q))
  fixMul Q (fixMul Q c (fixExpNeg Q (fixMul Q x x / 2))) s / (2 ^ 800 : Nat)

/-- The standard normal density. -/
def fixPhiDensity (P : Nat) (p : Int) : Int :=
  fixMul P (fixExpNeg P (fixMul P p p / 2)) (fixDiv P (fixOne P) (fixSqrt P (2 * fixPi P)))

/-- `1 / (1 + e^(-x))`. -/
def fixSigmoid (P : Nat) (x : Int) : Int :=
  if 0 ≤ x then fixDiv P (fixOne P) (fixOne P + fixExpNeg P x)
  else let e := fixExpNeg P (-x); fixDiv P e (fixOne P + e)

/-! ## Rounding an enclosure -/

/-- Round `(v ± s) * 2^e`: the FP32 pattern when both ends agree. An enclosure of nothing but values that underflow
gives a zero with the sign `tinyNeg`. -/
def roundFix (v s e : Int) (tinyNeg : Bool) : Option Word :=
  let a := toF32 (Val.ofScaled (v - s) e)
  let b := toF32 (Val.ofScaled (v + s) e)
  if a == b then some a
  else if a.toNat % 2 ^ 31 == 0 && b.toNat % 2 ^ 31 == 0 then some (if tinyNeg then 0x80000000 else 0)
  else none

/-- Try a computation at increasing precision; the last one is taken as it stands. The slack is `2^64` units. -/
def atPrecision (tinyNeg : Bool) (f : Nat → Int × Int) : Word :=
  let go := fun (P : Nat) => let (v, e) := f P; roundFix v (2 ^ 64) e tinyNeg
  match go 320 with
  | some w => w
  | none => match go 640 with
    | some w => w
    | none => match go 1280 with
      | some w => w
      | none => let (v, e) := f 1280; toF32 (Val.ofScaled v e)

/-- A fixed-point number of precision `P` with its exponent. -/
def flat (f : Nat → Int) (P : Nat) : Int × Int := (f P, -(P : Int))

/-- A mantissa and a power of two, as an enclosure centre. -/
def scaled (f : Nat → Int × Int) (P : Nat) : Int × Int := let (m, k) := f P; (m, k - (P : Int))

/-! ## The library -/

/-- The functions of R141. -/
inductive Fn where
  | exp | exp2 | log | log2 | log1p | expm1 | rsqrt | rcp | sin | cos | tanh | sigmoid | erf | softplus | phi
  deriving DecidableEq, Repr

/-- The FN codes of R141; 0x0F to 0x1F are reserved. -/
def Fn.ofCode : Nat → Option Fn
  | 0 => some .exp | 1 => some .exp2 | 2 => some .log | 3 => some .log2 | 4 => some .log1p | 5 => some .expm1
  | 6 => some .rsqrt | 7 => some .rcp | 8 => some .sin | 9 => some .cos | 10 => some .tanh | 11 => some .sigmoid
  | 12 => some .erf | 13 => some .softplus | 14 => some .phi | _ => none

/-- Plus infinity of FP32. -/
def pinfF32 : Word := 0x7F800000
/-- Minus infinity of FP32. -/
def ninfF32 : Word := 0xFF800000
/-- One in FP32. -/
def oneF32 : Word := 0x3F800000

/-- The value is an integer. -/
def Val.isInteger : Val → Bool
  | .fin _ m e => decide (0 ≤ e) || m % 2 ^ (-e).toNat == 0
  | _ => false

/-- `1/sqrt(m * 2^e)` as a value with a sticky bit, `m` positive. -/
def rsqrtVal (m : Nat) (e : Int) : Val :=
  let odd : Nat := if e % 2 == 0 then 0 else 1
  let m2 := m * 2 ^ odd
  let e2 := (e - odd) / 2
  let K := 100 + Nat.log2 m2
  let r := isqrt (2 ^ (2 * K) / m2)
  .fin false (2 * r + (if r * r * m2 == 2 ^ (2 * K) then 0 else 1)) (-e2 - K - 1)

/-- A function of the library at a finite argument that is not zero (R140). -/
def fnFinite (f : Fn) (x : Val) (neg : Bool) (m : Nat) (e : Int) : Word :=
  let big := decide (x.log2 ≥ 8)
  match f with
  | .exp =>
    if big then (if neg then 0 else pinfF32)
    else atPrecision false (scaled fun P => fixExp P (fixOf P x))
  | .exp2 =>
    if big then (if neg then 0 else pinfF32)
    else if x.isInteger then toF32 (.fin false 1 (fixOf 0 x))
    else atPrecision false (scaled fun P => fixExp P (fixMul P (fixOf P x) (fixLn2 P)))
  | .log => if neg then nanF32 else if x.eq (Val.ofInt 1) then 0 else atPrecision false (flat fun P => fixLog P m e)
  | .log2 =>
    if neg then nanF32
    else if m == 2 ^ Nat.log2 m then toF32 (Val.ofInt x.log2)
    else atPrecision false (flat fun P => fixDiv P (fixLog P m e) (fixLn2 P))
  | .log1p =>
    let y := x.add (Val.ofInt 1)
    if y.isZero then ninfF32
    else if y.sign then nanF32
    else match y with
      | .fin _ m1 e1 => atPrecision neg (flat fun P => fixLog P m1 e1)
      | _ => nanF32
  | .expm1 =>
    if big then (if neg then 0xBF800000 else pinfF32)
    else atPrecision neg (flat fun P => fixExpFlat P (fixOf P x) - fixOne P)
  | .rsqrt => if neg then nanF32 else toF32 (rsqrtVal m e)
  | .rcp => toF32 ((Val.ofInt 1).div x)
  | .sin => atPrecision neg (flat fun P => fixSin P 0 x)
  | .cos => atPrecision false (flat fun P => fixSin P 1 x)
  | .tanh =>
    if big then (if neg then 0xBF800000 else oneF32)
    else atPrecision neg (flat fun P => 2 * fixSigmoid P (2 * fixOf P x) - fixOne P)
  | .sigmoid =>
    if big then (if neg then 0 else oneF32)
    else atPrecision false (flat fun P => fixSigmoid P (fixOf P x))
  | .erf =>
    if decide (x.log2 ≥ 3) then (if neg then 0xBF800000 else oneF32)
    else atPrecision neg (flat fun P => fixErfHalf P (fixMul P (fixOf P x) (fixSqrt P (2 * fixOne P))))
  | .softplus =>
    if big then (if neg then 0 else toF32 x)
    else atPrecision false (flat fun P =>
      let v := fixOf P x
      if neg then fixLog1 P (fixExpNeg P (-v)) else v + fixLog1 P (fixExpNeg P v))
  | .phi =>
    if decide (x.log2 ≥ 5) then (if neg then 0 else oneF32)
    else atPrecision false (flat fun P => (fixOne P + fixErfHalf P (fixOf P x)) / 2)

/-- The library (R140 to R142): the FP32 value nearest the exact result, with the special inputs of R142. -/
def libFn (f : Fn) (w : Word) : Word :=
  match ofF32 w with
  | .nan => nanF32
  | .inf neg => match f with
    | .exp | .exp2 | .sigmoid | .phi | .softplus =>
      if neg then 0 else (match f with | .sigmoid | .phi => oneF32 | _ => pinfF32)
    | .log | .log2 | .log1p => if neg then nanF32 else pinfF32
    | .expm1 => if neg then 0xBF800000 else pinfF32
    | .rsqrt => if neg then nanF32 else 0
    | .rcp => if neg then 0x80000000 else 0
    | .sin | .cos => nanF32
    | .tanh | .erf => if neg then 0xBF800000 else oneF32
  | .fin neg m e =>
    if m == 0 then
      match f with
      | .exp | .exp2 | .cos => oneF32
      | .log | .log2 => ninfF32
      | .rsqrt | .rcp => if neg then ninfF32 else pinfF32
      | .log1p | .expm1 | .sin | .tanh | .erf => w
      | .sigmoid | .phi => 0x3F000000
      | .softplus => 0x3F317218
    else fnFinite f (.fin neg m e) neg m e

/-! ## FP32 operations (R131) -/

/-- An IEEE operation on two FP32 patterns, rounded once. -/
def f32Op (op : Val → Val → Val) (a b : Word) : Word := toF32 (op (ofF32 a) (ofF32 b))
/-- FP32 addition. -/
def f32Add (a b : Word) : Word := f32Op Val.add a b
/-- FP32 subtraction. -/
def f32Sub (a b : Word) : Word := f32Op (fun x y => x.add y.neg) a b
/-- FP32 multiplication. -/
def f32Mul (a b : Word) : Word := f32Op Val.mul a b
/-- FP32 division. -/
def f32Div (a b : Word) : Word := f32Op Val.div a b

/-- `a * b + c`, with one rounding. An infinite or NaN product follows IEEE 754. -/
def Val.fma (a b c : Val) : Val := (a.mul b).add c

/-- The order of R131: minus zero lies below plus zero. -/
def Val.below (a b : Val) : Bool := a.lt b || (a.isZero && b.isZero && a.sign && !b.sign)
/-- VMAX of R131. -/
def Val.max (a b : Val) : Val := if a.isNan || b.isNan then .nan else if a.below b then b else a
/-- VMIN of R131. -/
def Val.min (a b : Val) : Val := if a.isNan || b.isNan then .nan else if b.below a then b else a

/-! ## Activations -/

/-- The activation codes of R113; 0xA to 0xF are reserved. -/
inductive Act where
  | none | relu | relu2 | geluErf | geluTanh | silu | sigmoid | tanh | scale | leaky
  deriving DecidableEq, Repr

/-- The codes of R113. -/
def Act.ofCode : Nat → Option Act
  | 0 => some .none | 1 => some .relu | 2 => some .relu2 | 3 => some .geluErf | 4 => some .geluTanh | 5 => some .silu
  | 6 => some .sigmoid | 7 => some .tanh | 8 => some .scale | 9 => some .leaky | _ => Option.none

/-- `sqrt (2/pi) * (p + 0.044715 p^3)` (R143). -/
def fixGeluArg (P : Nat) (p : Int) : Int :=
  let c := fixSqrt P (fixDiv P (2 * fixOne P) (fixPi P))
  fixMul P c (p + fixMul P (fixMul P p (fixMul P p p)) (44715 * fixOne P / 1000000))

/-- The gate of GELU_TANH (R143), correctly rounded: `0.5 (1 + tanh u) = sigmoid (2 u)`. -/
def geluTanhGate (w : Word) : Word :=
  let x := ofF32 w
  if x.isZero then 0x3F000000
  else if decide (x.log2 ≥ 5) then (if x.sign then 0 else oneF32)
  else atPrecision false (flat fun P => fixSigmoid P (2 * fixGeluArg P (fixOf P x)))

/-- A gated code `p * gate(p)`, rounded once (R143). -/
def gated (gate : Word → Word) (w : Word) : Word :=
  match ofF32 w with
  | .nan => nanF32
  | .inf neg => if neg then 0x80000000 else pinfF32
  | .fin _ _ _ => f32Mul w (gate w)

/-- An activation code applied to `p` with ACT_PARAM (R113, R143). -/
def actFn (a : Act) (param w : Word) : Word :=
  let v := ofF32 w
  if v.isNan then nanF32
  else match a with
    | .none => w
    | .relu => if Val.zero.lt v then w else 0
    | .relu2 => if Val.zero.lt v then f32Mul w w else 0
    | .geluErf => gated (libFn .phi) w
    | .geluTanh => gated geluTanhGate w
    | .silu => gated (libFn .sigmoid) w
    | .sigmoid => libFn .sigmoid w
    | .tanh => libFn .tanh w
    | .scale => f32Mul w param
    | .leaky => if Val.zero.le v then w else f32Mul w param

/-- The derivative of an activation, correctly rounded (R144). -/
def actDeriv (a : Act) (param w : Word) : Word :=
  let v := ofF32 w
  let atInf (hi lo : Word) : Word := if v.sign then lo else hi
  match v with
  | .nan => nanF32
  | .inf neg => match a with
    | .none => oneF32
    | .relu | .geluErf | .geluTanh | .silu => atInf oneF32 0
    | .relu2 => atInf pinfF32 0
    | .sigmoid | .tanh => 0
    | .scale => param
    | .leaky => if neg then param else oneF32
  | .fin neg m _ =>
    let pos := !neg && m != 0
    match a with
    | .none => oneF32
    | .relu => if pos then oneF32 else 0
    | .relu2 => if pos then f32Mul 0x40000000 w else 0
    | .scale => param
    | .leaky => if m == 0 || !neg then oneF32 else param
    | .geluErf =>
      if m == 0 then 0x3F000000
      else if decide (v.log2 ≥ 5) then atInf oneF32 0x80000000
      else atPrecision true (flat fun P =>
        let p := fixOf P v
        (fixOne P + fixErfHalf P p) / 2 + fixMul P p (fixPhiDensity P p))
    | .geluTanh =>
      if m == 0 then 0x3F000000
      else if decide (v.log2 ≥ 5) then atInf oneF32 0x80000000
      else atPrecision true (flat fun P =>
        let p := fixOf P v
        let t := 2 * fixSigmoid P (2 * fixGeluArg P p) - fixOne P
        let c := fixSqrt P (fixDiv P (2 * fixOne P) (fixPi P))
        let k := fixMul P c (fixOne P + fixMul P (fixMul P p p) (134145 * fixOne P / 1000000))
        (fixOne P + t) / 2 + fixMul P (fixMul P p (fixOne P - fixMul P t t)) k / 2)
    | .silu =>
      if decide (v.log2 ≥ 8) then atInf oneF32 0x80000000
      else if m == 0 then 0x3F000000
      else atPrecision true (flat fun P =>
        let p := fixOf P v
        let s := fixSigmoid P p
        fixMul P s (fixOne P + fixMul P p (fixOne P - s)))
    | .sigmoid =>
      if decide (v.log2 ≥ 8) then 0
      else if m == 0 then 0x3E800000
      else atPrecision false (flat fun P =>
        -- symmetric in p: the side with the small value keeps its digits
        let s := fixSigmoid P (-(fixOf P v.abs))
        fixMul P s (fixOne P - s))
    | .tanh =>
      if decide (v.log2 ≥ 8) then 0
      else if m == 0 then oneF32
      else atPrecision false (flat fun P =>
        let s := fixSigmoid P (-(2 * fixOf P v.abs))
        4 * fixMul P s (fixOne P - s))

/-- VDACT of one lane: `g * f'(p)`, rounded once (R144). -/
def dactFn (a : Act) (param p g : Word) : Word :=
  if (ofF32 p).isNan then nanF32 else f32Mul g (actDeriv a param p)

/-! ## The Coin generator (R145) -/

/-- The mixing function of R145. -/
def coinMix (x : DWord) : DWord :=
  let a := (x ^^^ (x >>> 32)) * 0x8F3D5B27E1C946A3
  let b := (a ^^^ (a >>> 29)) * 0xB7E419D26A85F30D
  b ^^^ (b >>> 32)

/-- The generator of R145: two keys and a counter. -/
def coin (k0 k1 c : DWord) : DWord :=
  coinMix (coinMix (coinMix (k0 + c * 0x8F3D5B27E1C946A3) ^^^ k1) + c)

/-- Bits `[63:32]` of a draw (R146). -/
def coinHigh (k0 k1 c : DWord) : Word := (coin k0 k1 c >>> 32).setWidth 32

end Sys2Proof.Machine
end

