-- ==== Sys2Proof/Syntax.lean ====
section
/-!
DEFINITION. The commands, events and instructions of the Hyaris H8: one constructor of `Instr` per row of
spec/opcode_table.json, with the operands the row's rule names. A mailbox command carries the command as the front end
took it; an event carries what the world decides about it.
-/
namespace Sys2Proof

open Sys2Proof.Machine (Fn Act La)

/-! ## Operand types -/

/-- A mailbox command as the front end took it (R480): the account of its function, its slot, its SEQNO and ABI, whether
FLAGS.NOTIFY is set, and the 48-byte payload window as one little-endian number. The header's reserved fields and its
ACCOUNT field are checked when the front end takes it (COMMAND_TAKE). -/
structure Cmd where
  fn      : BitVec 10
  slot    : BitVec 6
  seqno   : Word
  abi     : BitVec 8
  notify  : Bool
  payload : BitVec 384
  deriving DecidableEq, Repr

/-- A hardware thread of a core's scalar unit: CDn.MCc is core 16n + c (R500). -/
structure Hart where
  core   : BitVec 7
  thread : BitVec 4
  deriving DecidableEq, Repr

/-- A work package, named by its account and handle (R153). -/
structure PkgId where
  acct   : BitVec 10
  handle : Word
  deriving DecidableEq, Repr

/-- A descriptor of a work package by its index (R154). -/
structure DescId where
  pkg : PkgId
  idx : BitVec 14
  deriving DecidableEq, Repr

/-- The formats of the packed vector classes (R127). -/
inductive VFmt where
  | fp32 | bf16 | fp16
  deriving DecidableEq, Repr

/-- The members of OP 0x24, those of OP 0x00 on 32-bit lanes (R129). -/
inductive IntOp where
  | add | sub | and | or | xor | sll | srl | sra | slt | sltu | min | max | mul
  deriving DecidableEq, Repr

/-- The shift kinds of SHI (R129). -/
inductive ShiftOp where
  | sll | srl | sra
  deriving DecidableEq, Repr

/-- The branch conditions of BR (R130). -/
inductive Cond where
  | always | eqz | nez | ltz | gez
  deriving DecidableEq, Repr

/-- The lane compares of VCMP (R129). -/
inductive CmpOp where
  | eq | lt | le | ne | unord
  deriving DecidableEq, Repr

/-- The conversions of FCVT (R129). -/
inductive FcvtOp where
  | s64ToF32 | f32ToS64 | f32ToBf16 | bf16ToF32
  deriving DecidableEq, Repr

/-- The second source of a vector element-wise instruction: a vector, or a scalar register broadcast (R129). -/
inductive VSrc where
  | vec (b : BitVec 5)
  | scalar (b : BitVec 5)
  deriving DecidableEq, Repr

/-- The scalar formats of VCVT, codes 0x0 to 0x4 (R129). -/
inductive SFmt where
  | fp32 | bf16 | fp16 | e4m3 | e5m2
  deriving DecidableEq, Repr

/-- The MX formats of VMX, codes 0x5 to 0x9 (R129). -/
inductive MFmt where
  | e4m3 | e5m2 | e2m3 | e3m2 | e2m1
  deriving DecidableEq, Repr

/-- One request for credits (R358 to R361): the die, the pool, the quarter of an HBM request, the class, whether it is KV
movement, the account and how many accesses are pending. -/
structure CreditReq where
  die   : BitVec 3
  vault : Bool
  quarter : BitVec 2
  cls   : BitVec 3
  kv    : Bool
  acct  : BitVec 10
  count : Nat
  deriving DecidableEq, Repr

/-- The three shadows of a reduction accumulator (R136). -/
abbrev Shadows := List La

/-- Cleared shadows. -/
def Shadows.zero : Shadows := [La.zero, La.zero, La.zero]

/-- The scopes of Ledger reductions (R237, R239). -/
inductive Scope where
  | block | tensor | step
  deriving DecidableEq, Repr

/-- A partial or combined reduction of wider than BLOCK scope (R239): its scope, the layer whose pass gave it, the group and
tensor that it belongs to (0 where the scope is wider), its program slot and instruction, the shadows of the sum, and the
largest magnitude for RMAX. Of scope BLOCK it is another owner's maximum of an anchor record: the layer, group and
instruction of the record, its inner product in the tensor field, and the maximum (R238). -/
structure Wide where
  scope  : Scope
  layer  : Nat
  group  : Nat
  tensor : Nat
  slot   : Nat
  instr  : Nat
  sum    : Shadows
  mx     : Word
  deriving DecidableEq, Repr

/-- A `Wide` as another owner sends it (R239, R424): the part number that sends it, the anchor word that tags the sum and the anchor
that it was formed at (R72), and the transport words of its shadows, none of them decoded (R77). -/
structure WideMsg where
  part   : BitVec 13
  scope  : Scope
  layer  : Nat
  group  : Nat
  tensor : Nat
  slot   : Nat
  instr  : Nat
  tag    : Word
  anchor : BitVec 16
  words  : List DWord
  mx     : Word
  deriving DecidableEq, Repr

/-- The kinds of job barrier (R425). -/
inductive BarrierKind where
  | load | entry | flip | learn
  deriving DecidableEq, Repr

/-- A part's report at a job barrier (R425, R441): READY or FAIL with the status and tensor of the failure, and for a
FLIP its WANT and BUSY bits, whether the want comes from a crossing or a request, and whether it comes from a crossing. -/
structure Report where
  job    : Word
  kind   : BarrierKind
  inst   : Word
  part   : BitVec 13
  ready  : Bool
  status : BitVec 8
  tensor : Word
  want   : Bool
  busy   : Bool
  urgent : Bool
  crossing : Bool
  deriving DecidableEq, Repr

/-- A decision, as the coordinator sends it or a part answers one that asks for it (R425, R426, R441), with the part number of its
sender. -/
structure Decision where
  src    : BitVec 13
  job    : Word
  kind   : BarrierKind
  inst   : Word
  pass   : Bool
  status : BitVec 8
  part   : BitVec 16
  tensor : Word
  drain  : Bool
  urgent : Bool
  crossing : Bool
  deriving DecidableEq, Repr

/-- How a secure copy ends (R445). -/
inductive CopyEnd where
  | committed | noResource | dataError
  deriving DecidableEq, Repr

/-- The consumer operation that a flit belongs to (R352): a work package, the wave that a model runs, a segment of a model's load or
turn, or a block of its Ledger step. -/
inductive LinkUse where
  | package (id : PkgId) | wave (slot : BitVec 6) | segment (slot : BitVec 6) | block (slot : BitVec 6)
  deriving DecidableEq, Repr

/-- What has happened and what Neriv measures since the last RISK_UPDATE (R246, R351, R352, R387, R391, R429, R434): corrected
codewords by die, the SRAM words and the codewords of HBM and the Vault that have become unreadable, by storage key, parity
failures of Ledger SRAM by Ledger die, second ones at their row marked, checkpoints that have become unreadable, by account, model
and SEQNO, die-to-die links on which a flit has failed parity four times, with the operation that it belonged to, codewords that
ports' forward error correction has corrected and flits that host ports have replayed, the smallest thermal margin in hundredths of
a degree, and the minutes until the first rising laser reaches its maximum bias. -/
structure RiskIn where
  ecc       : List (BitVec 3 × Nat)
  struck    : List Nat
  ledgers   : List (BitVec 2 × Bool)
  ckpts     : List (BitVec 10 × BitVec 16 × Word)
  links     : List (BitVec 3 × BitVec 3 × LinkUse)
  fec       : List (BitVec 7 × Nat)
  replays   : List (BitVec 2 × Nat)
  margin    : Int
  laser     : Option Nat
  deriving DecidableEq, Repr

/-- The body of a fabric message that no other row describes: a partner's deposit (R436), by model, die and the copy's
record and contents; a flit on its way to an address, with the channel and the level it arrives on (R406); the acknowledgement of a
decision, and a request for one (R425, R426); the end of a rerun that this part has asked for, with whether the sender holds a producer
(R185, R424); that the sender begins or ends to read the deposit of a model that this part holds for it (R441, R442); or any other. -/
inductive FabBody where
  | deposit (model : BitVec 16) (die : BitVec 3) (data : Bytes)
  | transit (dst : BitVec 13) (vc : BitVec 2) (level : BitVec 3) (data : Bytes)
  | ackDecision (kind : BarrierKind) (inst : Word)
  | askDecision (kind : BarrierKind) (inst : Word)
  | reran (rkey : Word) (pass : BitVec 2) (held : Bool)
  | depositRead (model : BitVec 16) (on : Bool)
  | other
  deriving DecidableEq, Repr

/-- What a protection override guards (R525), by sensor (R587): four on a compute die, one on a Ledger die and on an HBM stack, one on
each of a Ledger die's four LPDDR5X devices, the input current, and a laser's, with the wavelength that the loop lowers or turns off
(R390). -/
inductive Sensor where
  | die (i : BitVec 3) (n : BitVec 2) | ledger (i : BitVec 2) | hbm (i : BitVec 4) | lpddr (i n : BitVec 2) | current
  | laser (port : BitVec 7) (lambda : BitVec 4) (off : Bool)
  deriving DecidableEq, Repr

/-! ## Commands -/

/-- One constructor per row of spec/opcode_table.json. -/
inductive Instr where
  /-- CMD_DB (R482): a 4-byte write to CMD_DB -/
  | cmdDb (fn : BitVec 10) (value : Word)
  /-- COMMAND_TAKE (R483): the front end of a host port takes its next command -/
  | commandTake (port : BitVec 2)
  /-- FIRMWARE_ACCEPT (R483): Neriv accepts its next command -/
  | firmwareAccept
  /-- NTF_TAIL (R495): a 4-byte write to NTF_TAIL -/
  | ntfTail (fn : BitVec 10) (value : Word)
  /-- REGISTER_WRITE (R11): a write of bytes at a BAR0 offset -/
  | registerWrite (fn : BitVec 10) (off : BitVec 20) (data : Bytes)
  /-- MTIME_LO_READ (R573). -/
  | mtimeLoRead (fn : BitVec 10)
  /-- CNT_VAL_LOW_READ (R580): scope 0 to 8 -/
  | cntValLowRead (fn : BitVec 10) (scope : BitVec 4) (index : BitVec 5)
  /-- APERTURE_READ (R574): a BAR2 read of up to 4,096 bytes -/
  | apertureRead (fn : BitVec 10) (off : BitVec 36) (len : Nat)
  /-- APERTURE_WRITE (R574): a BAR2 write -/
  | apertureWrite (fn : BitVec 10) (off : BitVec 36) (data : Bytes)
  /-- MSIX_UNMASK (R578). -/
  | msixUnmask (fn : BitVec 10) (vector : BitVec 6)
  /-- NEGOTIATE (R491). -/
  | negotiate (c : Cmd)
  /-- IDENTIFY (R494). -/
  | identify (c : Cmd)
  /-- UNIT_QUERY (R503). -/
  | unitQuery (c : Cmd)
  /-- UNIT_RECONCILE (R505). -/
  | unitReconcile (c : Cmd)
  /-- NOTIFY_MASK (R498). -/
  | notifyMask (c : Cmd)
  /-- ACCT_CREATE (R463). -/
  | acctCreate (c : Cmd)
  /-- ACCT_MODIFY (R463). -/
  | acctModify (c : Cmd)
  /-- ACCT_DISABLE (R470). -/
  | acctDisable (c : Cmd)
  /-- ACCT_ENABLE (R460). -/
  | acctEnable (c : Cmd)
  /-- ACCT_DESTROY (R477). -/
  | acctDestroy (c : Cmd)
  /-- ACCT_QUERY (R460). -/
  | acctQuery (c : Cmd)
  /-- ACCT_MEM_GRANT (R465). -/
  | acctMemGrant (c : Cmd)
  /-- ACCT_MEM_REVOKE (R466). -/
  | acctMemRevoke (c : Cmd)
  /-- PART_SET (R461). -/
  | partSet (c : Cmd)
  /-- RIGHT_SET (R599). -/
  | rightSet (c : Cmd)
  /-- ACCT_FLAGS_SET (R464). -/
  | acctFlagsSet (c : Cmd)
  /-- MEM_MAP_QUERY (R365). -/
  | memMapQuery (c : Cmd)
  /-- MEM_CREDIT_SET (R366). -/
  | memCreditSet (c : Cmd)
  /-- MEM_CREDIT_QUERY (R365). -/
  | memCreditQuery (c : Cmd)
  /-- MEM_ERR_QUERY (R367). -/
  | memErrQuery (c : Cmd)
  /-- KV_MODEL_SET (R287). -/
  | kvModelSet (c : Cmd)
  /-- KV_POOL_SET (R288). -/
  | kvPoolSet (c : Cmd)
  /-- KV_VAULT_SET (R288). -/
  | kvVaultSet (c : Cmd)
  /-- KV_DOMAIN_CREATE (R296). -/
  | kvDomainCreate (c : Cmd)
  /-- KV_DOMAIN_GRANT (R296). -/
  | kvDomainGrant (c : Cmd)
  /-- KV_DOMAIN_JOIN (R296). -/
  | kvDomainJoin (c : Cmd)
  /-- KV_DOMAIN_LEAVE (R296). -/
  | kvDomainLeave (c : Cmd)
  /-- KV_FLUSH (R303). -/
  | kvFlush (c : Cmd)
  /-- KV_POOL_QUERY (R286). -/
  | kvPoolQuery (c : Cmd)
  /-- WP_SUBMIT (R168). -/
  | wpSubmit (c : Cmd)
  /-- WP_CANCEL (R180). -/
  | wpCancel (c : Cmd)
  /-- WP_QUERY (R177). -/
  | wpQuery (c : Cmd)
  /-- SEM_READ (R153). -/
  | semRead (c : Cmd)
  /-- SEM_SET (R153). -/
  | semSet (c : Cmd)
  /-- SEM_SIGNAL (R164). -/
  | semSignal (c : Cmd)
  /-- WT_CREATE (R315). -/
  | wtCreate (c : Cmd)
  /-- WT_LOAD (R323). -/
  | wtLoad (c : Cmd)
  /-- WT_TURN (R331). -/
  | wtTurn (c : Cmd)
  /-- WT_LEARN (R340). -/
  | wtLearn (c : Cmd)
  /-- WT_REBUILD (R339). -/
  | wtRebuild (c : Cmd)
  /-- WT_QUERY (R321). -/
  | wtQuery (c : Cmd)
  /-- WT_ANCHOR_SET (R335). -/
  | wtAnchorSet (c : Cmd)
  /-- WT_GEN_DROP (R338). -/
  | wtGenDrop (c : Cmd)
  /-- WT_UNLOAD (R341). -/
  | wtUnload (c : Cmd)
  /-- SEQ_ADMIT (R262). -/
  | seqAdmit (c : Cmd)
  /-- SEQ_CANCEL (R282). -/
  | seqCancel (c : Cmd)
  /-- SEQ_QUERY (R257). -/
  | seqQuery (c : Cmd)
  /-- SEQ_PAUSE (R280). -/
  | seqPause (c : Cmd)
  /-- SEQ_RESUME (R259). -/
  | seqResume (c : Cmd)
  /-- SEQ_PARK (R306). -/
  | seqPark (c : Cmd)
  /-- SEQ_RELEASE (R259). -/
  | seqRelease (c : Cmd)
  /-- SEQ_DRAFT (R277). -/
  | seqDraft (c : Cmd)
  /-- SEQ_MODEL_SET (R263). -/
  | seqModelSet (c : Cmd)
  /-- SEQ_PREFILL_SET (R269). -/
  | seqPrefillSet (c : Cmd)
  /-- SEQ_DECODE_SET (R252). -/
  | seqDecodeSet (c : Cmd)
  /-- UPD_PROG_LOAD (R243). -/
  | updProgLoad (c : Cmd)
  /-- UPD_PROG_FREE (R243). -/
  | updProgFree (c : Cmd)
  /-- UPD_GROUP_SET (R220). -/
  | updGroupSet (c : Cmd)
  /-- UPD_GROUP_READ (R218). -/
  | updGroupRead (c : Cmd)
  /-- UPD_MODEL_SET (R219). -/
  | updModelSet (c : Cmd)
  /-- UPD_BEGIN (R223). -/
  | updBegin (c : Cmd)
  /-- UPD_COMMIT (R231). -/
  | updCommit (c : Cmd)
  /-- UPD_ABORT (R232). -/
  | updAbort (c : Cmd)
  /-- UPD_STATUS (R218). -/
  | updStatus (c : Cmd)
  /-- UPD_MON_READ (R245). -/
  | updMonRead (c : Cmd)
  /-- UPD_GROUP_FREE (R220). -/
  | updGroupFree (c : Cmd)
  /-- FT_RISK_QUERY (R432). -/
  | ftRiskQuery (c : Cmd)
  /-- FT_THRESH_SET (R431). -/
  | ftThreshSet (c : Cmd)
  /-- FT_PLAN_SET (R440). -/
  | ftPlanSet (c : Cmd)
  /-- FT_DEPOSIT_SET (R437). -/
  | ftDepositSet (c : Cmd)
  /-- FT_SECURE (R446). -/
  | ftSecure (c : Cmd)
  /-- FT_CKPT_LIST (R432). -/
  | ftCkptList (c : Cmd)
  /-- FT_CKPT_DROP (R434). -/
  | ftCkptDrop (c : Cmd)
  /-- FT_EXPORT (R432). -/
  | ftExport (c : Cmd)
  /-- FT_RESTORE (R448). -/
  | ftRestore (c : Cmd)
  /-- FT_STATUS (R432). -/
  | ftStatus (c : Cmd)
  /-- PWR_STATE_SET (R514). -/
  | pwrStateSet (c : Cmd)
  /-- PWR_QUERY (R521). -/
  | pwrQuery (c : Cmd)
  /-- PWR_BOUNDS_SET (R520). -/
  | pwrBoundsSet (c : Cmd)
  /-- PWR_RESET (R527). -/
  | pwrReset (c : Cmd)
  /-- FW_WRITE (R537). -/
  | fwWrite (c : Cmd)
  /-- FW_ACTIVATE (R543). -/
  | fwActivate (c : Cmd)
  /-- FW_QUERY (R546). -/
  | fwQuery (c : Cmd)
  /-- FW_FLOOR_RAISE (R540). -/
  | fwFloorRaise (c : Cmd)
  /-- FW_LOCK (R541). -/
  | fwLock (c : Cmd)
  /-- LC_NONCE (R549). -/
  | lcNonce (c : Cmd)
  /-- LC_CHANGE (R550). -/
  | lcChange (c : Cmd)
  /-- TALLY_READ (R475). -/
  | tallyRead (c : Cmd)
  /-- TALLY_READ_ALL (R475). -/
  | tallyReadAll (c : Cmd)
  /-- CNT_SET (R559). -/
  | cntSet (c : Cmd)
  /-- CNT_SNAP (R560). -/
  | cntSnap (c : Cmd)
  /-- CNT_SAMPLE (R561). -/
  | cntSample (c : Cmd)
  /-- CNT_CATALOG (R556). -/
  | cntCatalog (c : Cmd)
  /-- NUM_READ (R563). -/
  | numRead (c : Cmd)
  /-- NUM_AMAX_READ (R566). -/
  | numAmaxRead (c : Cmd)
  /-- NUM_AMAX_SET (R566). -/
  | numAmaxSet (c : Cmd)
  /-- NUM_AMAX_ROLL (R565). -/
  | numAmaxRoll (c : Cmd)
  /-- PORT_QUERY (R391). -/
  | portQuery (c : Cmd)
  /-- PORT_BOUNDS_SET (R391). -/
  | portBoundsSet (c : Cmd)
  /-- PORT_ENABLE (R391). -/
  | portEnable (c : Cmd)
  /-- BEACON_STATUS (R395). -/
  | beaconStatus (c : Cmd)
  /-- BEACON_SEND (R396). -/
  | beaconSend (c : Cmd)
  /-- FAB_ORIGIN (R400). -/
  | fabOrigin (c : Cmd)
  /-- FAB_ADDR_QUERY (R409). -/
  | fabAddrQuery (c : Cmd)
  /-- FAB_ROUTE_SET (R406). -/
  | fabRouteSet (c : Cmd)
  /-- FAB_ROUTE_QUERY (R409). -/
  | fabRouteQuery (c : Cmd)
  /-- FAB_JOB_JOIN (R410). -/
  | fabJobJoin (c : Cmd)
  /-- FAB_JOB_LEAVE (R410). -/
  | fabJobLeave (c : Cmd)
  /-- FAB_GROUP_SET (R413). -/
  | fabGroupSet (c : Cmd)
  /-- FAB_DROP_SET (R414). -/
  | fabDropSet (c : Cmd)
  /-- FAB_JOB_QUERY (R410). -/
  | fabJobQuery (c : Cmd)
  /-- PACKAGE_START (R171). -/
  | packageStart (p : PkgId)
  /-- DESCRIPTOR_START (R160). -/
  | descriptorStart (d : DescId)
  /-- TILE (R112): the accumulation of one pass of the next descriptor of the operation -/
  | tile (d : DescId)
  /-- TILE_PASS_END (R116). -/
  | tilePassEnd (d : DescId)
  /-- VECTOR_PROGRAM (R123). -/
  | vectorProgram (d : DescId)
  /-- XFER (R161): the next 64 KiB segment -/
  | xfer (d : DescId)
  /-- SYNC (R162). -/
  | sync (d : DescId)
  /-- PREFETCH (R163): the next 64 KiB segment -/
  | prefetch (d : DescId)
  /-- LFEED (R225): the next segment of rows -/
  | lfeed (d : DescId)
  /-- PUT (R417). -/
  | put (d : DescId)
  /-- ALLREDUCE (R419): this member contributes -/
  | allreduce (d : DescId)
  /-- REDUCE (R419): this member contributes -/
  | reduce (d : DescId)
  /-- BROADCAST (R416): this member contributes -/
  | broadcast (d : DescId)
  /-- ALLGATHER (R416): this member contributes -/
  | allgather (d : DescId)
  /-- BARRIER (R421): this member contributes -/
  | barrier (d : DescId)
  /-- ROUND_COMPLETE (R418): what the other members sent, by member number: bytes, FP32 elements or transport words -/
  | roundComplete (d : DescId) (others : List (Nat × Bytes))
  /-- DESCRIPTOR_COMPLETE (R165). -/
  | descriptorComplete (d : DescId)
  /-- RUN_LIMIT_EXPIRY (R173). -/
  | runLimitExpiry (p : PkgId)
  /-- VECTOR_TIME_LIMIT (R173). -/
  | vectorTimeLimit (core : BitVec 7)
  /-- BUDGET_EXHAUSTED (R126). -/
  | budgetExhausted (h : Hart)
  /-- FORCED_STOP (R178). -/
  | forcedStop (p : PkgId)
  /-- ADD (R129). -/
  | add (h : Hart) (d a b : BitVec 5)
  /-- SUB (R129). -/
  | sub (h : Hart) (d a b : BitVec 5)
  /-- AND (R129). -/
  | and (h : Hart) (d a b : BitVec 5)
  /-- OR (R129). -/
  | or (h : Hart) (d a b : BitVec 5)
  /-- XOR (R129). -/
  | xor (h : Hart) (d a b : BitVec 5)
  /-- SLL (R129). -/
  | sll (h : Hart) (d a b : BitVec 5)
  /-- SRL (R129). -/
  | srl (h : Hart) (d a b : BitVec 5)
  /-- SRA (R129). -/
  | sra (h : Hart) (d a b : BitVec 5)
  /-- SLT (R129). -/
  | slt (h : Hart) (d a b : BitVec 5)
  /-- SLTU (R129). -/
  | sltu (h : Hart) (d a b : BitVec 5)
  /-- MIN (R129). -/
  | min (h : Hart) (d a b : BitVec 5)
  /-- MAX (R129). -/
  | max (h : Hart) (d a b : BitVec 5)
  /-- MUL (R129). -/
  | mul (h : Hart) (d a b : BitVec 5)
  /-- ADDI (R129). -/
  | addi (h : Hart) (d a : BitVec 5) (imm : BitVec 16)
  /-- ANDI (R129). -/
  | andi (h : Hart) (d a : BitVec 5) (imm : BitVec 16)
  /-- ORI (R129). -/
  | ori (h : Hart) (d a : BitVec 5) (imm : BitVec 16)
  /-- XORI (R129). -/
  | xori (h : Hart) (d a : BitVec 5) (imm : BitVec 16)
  /-- SHI (R129). -/
  | shi (h : Hart) (d a : BitVec 5) (kind : ShiftOp) (amt : BitVec 6)
  /-- LUI (R129). -/
  | lui (h : Hart) (d : BitVec 5) (imm : BitVec 16)
  /-- SLTI (R129). -/
  | slti (h : Hart) (d a : BitVec 5) (imm : BitVec 16)
  /-- FADD (R131). -/
  | fadd (h : Hart) (d a b : BitVec 5)
  /-- FSUB (R131). -/
  | fsub (h : Hart) (d a b : BitVec 5)
  /-- FMUL (R131). -/
  | fmul (h : Hart) (d a b : BitVec 5)
  /-- FDIV (R131). -/
  | fdiv (h : Hart) (d a b : BitVec 5)
  /-- FSQRT (R131). -/
  | fsqrt (h : Hart) (d a : BitVec 5)
  /-- FMIN (R131). -/
  | fmin (h : Hart) (d a b : BitVec 5)
  /-- FMAX (R131). -/
  | fmax (h : Hart) (d a b : BitVec 5)
  /-- FFMA (R129). -/
  | ffma (h : Hart) (d a b : BitVec 5)
  /-- FEQ (R129). -/
  | feq (h : Hart) (d a b : BitVec 5)
  /-- FLT (R129). -/
  | flt (h : Hart) (d a b : BitVec 5)
  /-- FLE (R129). -/
  | fle (h : Hart) (d a b : BitVec 5)
  /-- FUNORD (R129). -/
  | funord (h : Hart) (d a b : BitVec 5)
  /-- FCVT (R129). -/
  | fcvt (h : Hart) (d a : BitVec 5) (op : FcvtOp)
  /-- BR (R130). -/
  | br (h : Hart) (cond : Cond) (a : BitVec 5) (off : BitVec 16)
  /-- HALT (R129). -/
  | halt (h : Hart)
  /-- SEMWAIT (R130): imm is the semaphore entry plus one -/
  | semwait (h : Hart) (imm : BitVec 8) (a : BitVec 5)
  /-- SEMSIGNAL (R130): imm is the semaphore entry plus one -/
  | semsignal (h : Hart) (imm : BitVec 8)
  /-- XPOST (R175). -/
  | xpost (h : Hart) (d a : BitVec 5) (w : BitVec 3)
  /-- LD (R130). -/
  | ld (h : Hart) (d a : BitVec 5) (w : BitVec 3) (size : BitVec 2) (sx : Bool) (disp : BitVec 10)
  /-- ST (R130). -/
  | st (h : Hart) (d a : BitVec 5) (w : BitVec 3) (size : BitVec 2) (disp : BitVec 10)
  /-- VADD (R131). -/
  | vadd (h : Hart) (fmt : VFmt) (d a : BitVec 5) (b : VSrc) (pm : BitVec 3)
  /-- VSUB (R131). -/
  | vsub (h : Hart) (fmt : VFmt) (d a : BitVec 5) (b : VSrc) (pm : BitVec 3)
  /-- VMUL (R131). -/
  | vmul (h : Hart) (fmt : VFmt) (d a : BitVec 5) (b : VSrc) (pm : BitVec 3)
  /-- VFMA (R131). -/
  | vfma (h : Hart) (fmt : VFmt) (d a : BitVec 5) (b : VSrc) (pm : BitVec 3)
  /-- VMIN (R131). -/
  | vmin (h : Hart) (fmt : VFmt) (d a : BitVec 5) (b : VSrc) (pm : BitVec 3)
  /-- VMAX (R131). -/
  | vmax (h : Hart) (fmt : VFmt) (d a : BitVec 5) (b : VSrc) (pm : BitVec 3)
  /-- VDIV (R131). -/
  | vdiv (h : Hart) (fmt : VFmt) (d a : BitVec 5) (b : VSrc) (pm : BitVec 3)
  /-- VSQRT (R131). -/
  | vsqrt (h : Hart) (fmt : VFmt) (d a : BitVec 5) (pm : BitVec 3)
  /-- VCMP (R129). -/
  | vcmp (h : Hart) (op : CmpOp) (d : BitVec 3) (a b : BitVec 5) (pm : BitVec 3)
  /-- PAND (R129). -/
  | pand (h : Hart) (d a b : BitVec 3) (pm : BitVec 3)
  /-- POR (R129). -/
  | por (h : Hart) (d a b : BitVec 3) (pm : BitVec 3)
  /-- PXOR (R129). -/
  | pxor (h : Hart) (d a b : BitVec 3) (pm : BitVec 3)
  /-- PANDN (R129). -/
  | pandn (h : Hart) (d a b : BitVec 3) (pm : BitVec 3)
  /-- PNOT (R129). -/
  | pnot (h : Hart) (d a : BitVec 3) (pm : BitVec 3)
  /-- VSEL (R129). -/
  | vsel (h : Hart) (d a b : BitVec 5) (pm : BitVec 3)
  /-- VINT_OP (R129). -/
  | vintOp (h : Hart) (op : IntOp) (d a b : BitVec 5) (pm : BitVec 3)
  /-- VIOTA (R129). -/
  | viota (h : Hart) (d : BitVec 5) (pm : BitVec 3)
  /-- VCVT (R129): cvt is the conversion control of R49 -/
  | vcvt (h : Hart) (d a : BitVec 5) (src dst : SFmt) (cvt : BitVec 4) (pm : BitVec 3)
  /-- VMX_PACK (R56). -/
  | vmxPack (h : Hart) (d a : BitVec 5) (fmt : MFmt) (pm : BitVec 3)
  /-- VMX_UNPACK (R129). -/
  | vmxUnpack (h : Hart) (d a : BitVec 5) (fmt : MFmt) (pm : BitVec 3)
  /-- VFN (R141). -/
  | vfn (h : Hart) (d a : BitVec 5) (f : Fn) (pm : BitVec 3)
  /-- VACT (R143). -/
  | vact (h : Hart) (d a b : BitVec 5) (act : Act) (pm : BitVec 3)
  /-- VDACT (R144). -/
  | vdact (h : Hart) (d a b : BitVec 5) (act : Act) (pm : BitVec 3)
  /-- APSET (R144). -/
  | apset (h : Hart) (a : BitVec 5)
  /-- VPERM (R129). -/
  | vperm (h : Hart) (d a b : BitVec 5) (pm : BitVec 3)
  /-- VBCAST (R129). -/
  | vbcast (h : Hart) (d a : BitVec 5) (pm : BitVec 3)
  /-- VROT (R129). -/
  | vrot (h : Hart) (d a b : BitVec 5) (pm : BitVec 3)
  /-- VLANE (R129). -/
  | vlane (h : Hart) (d a b : BitVec 5) (pm : BitVec 3)
  /-- VRCLR (R135). -/
  | vrclr (h : Hart) (d : BitVec 3)
  /-- VRSUM (R135). -/
  | vrsum (h : Hart) (d : BitVec 3) (a : BitVec 5) (pm : BitVec 3)
  /-- VRDOT (R135). -/
  | vrdot (h : Hart) (d : BitVec 3) (a b : BitVec 5) (pm : BitVec 3)
  /-- VRFIN (R137). -/
  | vrfin (h : Hart) (d : BitVec 5) (a : BitVec 3) (b : BitVec 5)
  /-- VRMAX (R139): merge: Xd joins the reduction (R139 allows both; no field selects it) -/
  | vrmax (h : Hart) (d a : BitVec 5) (pm : BitVec 3) (merge : Bool)
  /-- VRMIN (R139): merge: Xd joins the reduction (R139 allows both; no field selects it) -/
  | vrmin (h : Hart) (d a : BitVec 5) (pm : BitVec 3) (merge : Bool)
  /-- VRARG (R139). -/
  | vrarg (h : Hart) (d a b : BitVec 5) (pm : BitVec 3)
  /-- VRPUT (R138). -/
  | vrput (h : Hart) (d : BitVec 3) (a : BitVec 5) (w : BitVec 3)
  /-- VRGET (R138). -/
  | vrget (h : Hart) (d : BitVec 3) (a : BitVec 5) (w : BitVec 3)
  /-- VLD (R129). -/
  | vld (h : Hart) (fmt : VFmt) (d a : BitVec 5) (w : BitVec 3) (pm : BitVec 3)
  /-- VST (R129). -/
  | vst (h : Hart) (fmt : VFmt) (d a : BitVec 5) (w : BitVec 3) (pm : BitVec 3)
  /-- VGATHER (R129). -/
  | vgather (h : Hart) (d a b : BitVec 5) (w : BitVec 3) (pm : BitVec 3)
  /-- VSCATTER (R129). -/
  | vscatter (h : Hart) (d a b : BitVec 5) (w : BitVec 3) (pm : BitVec 3)
  /-- VSAMPLE (R148). -/
  | vsample (h : Hart) (a : BitVec 5) (w : BitVec 3)
  /-- VRAND (R129). -/
  | vrand (h : Hart) (d a b : BitVec 5) (pm : BitVec 3)
  /-- LDG_MOV (R237). -/
  | ldgMov (ld : BitVec 2) (d a : BitVec 8)
  /-- LDG_ADD (R237). -/
  | ldgAdd (ld : BitVec 2) (d a b : BitVec 8)
  /-- LDG_SUB (R237). -/
  | ldgSub (ld : BitVec 2) (d a b : BitVec 8)
  /-- LDG_MUL (R237). -/
  | ldgMul (ld : BitVec 2) (d a b : BitVec 8)
  /-- LDG_FMA (R237). -/
  | ldgFma (ld : BitVec 2) (d a b c : BitVec 8)
  /-- LDG_DIV (R237). -/
  | ldgDiv (ld : BitVec 2) (d a b : BitVec 8)
  /-- LDG_SQRT (R237). -/
  | ldgSqrt (ld : BitVec 2) (d a : BitVec 8)
  /-- LDG_MIN (R237). -/
  | ldgMin (ld : BitVec 2) (d a b : BitVec 8)
  /-- LDG_MAX (R237). -/
  | ldgMax (ld : BitVec 2) (d a b : BitVec 8)
  /-- LDG_FN (R237). -/
  | ldgFn (ld : BitVec 2) (d a : BitVec 8) (f : Fn)
  /-- SIGN (R237). -/
  | sign (ld : BitVec 2) (d a : BitVec 8)
  /-- SEL (R237). -/
  | sel (ld : BitVec 2) (d a b c : BitVec 8)
  /-- ABS (R237). -/
  | abs (ld : BitVec 2) (d a : BitVec 8)
  /-- RSUM (R239). -/
  | rsum (ld : BitVec 2) (d a : BitVec 8) (scope : Scope) (imm : BitVec 16)
  /-- RDOT (R239). -/
  | rdot (ld : BitVec 2) (d a b : BitVec 8) (scope : Scope) (imm : BitVec 16)
  /-- RMAX (R237). -/
  | rmax (ld : BitVec 2) (d a : BitVec 8) (scope : Scope)
  /-- GRAM (R237). -/
  | gram (ld : BitVec 2) (d a : BitVec 8) (tp : Bool) (imm : BitVec 16)
  /-- QEMA (R237). -/
  | qema (ld : BitVec 2) (d a b c : BitVec 8)
  /-- MML (R237). -/
  | mml (ld : BitVec 2) (d a c : BitVec 8) (tp : Bool) (imm : BitVec 16)
  /-- MMR (R237). -/
  | mmr (ld : BitVec 2) (d a c : BitVec 8) (tp : Bool) (imm : BitVec 16)
  /-- CIR (R237). -/
  | cir (ld : BitVec 2) (d a b : BitVec 8)
  /-- NSNORM (R237). -/
  | nsnorm (ld : BitVec 2) (d a : BitVec 8) (imm : BitVec 16)
  /-- NSSTEP (R237). -/
  | nsstep (ld : BitVec 2) (d a b : BitVec 8) (imm : BitVec 16)
  /-- LAYER_PASS1 (R239). -/
  | layerPass1 (slot : BitVec 6) (ld : BitVec 2) (layer : BitVec 16)
  /-- LEDGER_COMBINE (R424): what the other owners sent: reductions, and groups with a failed block, by part -/
  | ledgerCombine (slot : BitVec 6) (layer : BitVec 16) (others : List WideMsg) (failed : List (BitVec 13 × BitVec 12))
  /-- LAYER_PASS2 (R239). -/
  | layerPass2 (slot : BitVec 6) (ld : BitVec 2) (layer : BitVec 16)
  /-- MIRROR_TRANSFER (R234): data: what arrived from an owner on another part, with its number; none: the owner is on this part -/
  | mirrorTransfer (slot : BitVec 6) (shard : Nat) (data : Option (BitVec 13 × Bytes))
  /-- FEED_LIMIT_EXPIRY (R232). -/
  | feedLimitExpiry (slot : BitVec 6)
  /-- ADMIT_GRANT (R267). -/
  | admitGrant (slot : BitVec 6)
  /-- IMPORT_DONE (R300). -/
  | importDone (seq : BitVec 14) (ok : Bool)
  /-- PREFILL_LAUNCH (R270). -/
  | prefillLaunch (seq : BitVec 14)
  /-- FIRST_TOKEN_COMMIT (R270). -/
  | firstTokenCommit (seq : BitVec 14)
  /-- FRAME_START (R271). -/
  | frameStart (slot : BitVec 6)
  /-- WAVE_START (R271). -/
  | waveStart (slot : BitVec 6)
  /-- WAVE_COMMIT (R273): sequences whose KV failed its integrity check after retries -/
  | waveCommit (slot : BitVec 6) (bad : List (BitVec 14))
  /-- FRAME_END (R274). -/
  | frameEnd (slot : BitVec 6)
  /-- ADMIT_WAIT_EXPIRY (R268). -/
  | admitWaitExpiry (seq : BitVec 14)
  /-- LIFETIME_EXPIRY (R268). -/
  | lifetimeExpiry (seq : BitVec 14)
  /-- PAUSE_LIMIT_EXPIRY (R280). -/
  | pauseLimitExpiry (seq : BitVec 14)
  /-- PARK_TTL_EXPIRY (R308). -/
  | parkTtlExpiry (seq : BitVec 14)
  /-- ENTRY_AUTO_RELEASE (R259). -/
  | entryAutoRelease (seq : BitVec 14)
  /-- PARK_DONE (R306). -/
  | parkDone (seq : BitVec 14) (ok : Bool)
  /-- RESTORE_DONE (R309). -/
  | restoreDone (seq : BitVec 14) (ok : Bool)
  /-- DEMOTION (R305). -/
  | demotion (slot : BitVec 6) (member : BitVec 5)
  /-- MOVING_OP_START (R39). -/
  | movingOpStart (part : BitVec 3)
  /-- LOAD_SEGMENT (R326). -/
  | loadSegment (slot : BitVec 6) (ok : Bool)
  /-- LOAD_LIMIT_EXPIRY (R326). -/
  | loadLimitExpiry (slot : BitVec 6)
  /-- RESHARD_SEGMENT (R329): data: rows that arrived from a holder on another part -/
  | reshardSegment (slot : BitVec 6) (data : Option Bytes) (ok : Bool)
  /-- MINT_LAYER (R328). -/
  | mintLayer (slot : BitVec 6)
  /-- TURN_LIMIT_EXPIRY (R330). -/
  | turnLimitExpiry (slot : BitVec 6)
  /-- INPLACE_DRAIN_END (R333). -/
  | inplaceDrainEnd (slot : BitVec 6)
  /-- OLD_EPOCH_FREE (R332). -/
  | oldEpochFree (slot : BitVec 6)
  /-- BARRIER_REPORT (R425). -/
  | barrierReport (r : Report)
  /-- BARRIER_DECISION (R425). -/
  | barrierDecision (r : Decision)
  /-- AMAX_ROLL (R565): others: the largest magnitudes of other parts, by part number -/
  | amaxRoll (slot : BitVec 6) (tid : Word) (others : List (BitVec 13 × Word))
  /-- DRAIN_COMMIT (R436). -/
  | drainCommit (slot : BitVec 6) (result : CopyEnd)
  /-- LATER_LAYER_COPY (R442). -/
  | laterLayerCopy (slot : BitVec 6) (result : CopyEnd)
  /-- DRAIN_LIMIT_EXPIRY (R444). -/
  | drainLimitExpiry (slot : BitVec 6)
  /-- RISK_UPDATE (R429). -/
  | riskUpdate (r : RiskIn)
  /-- UNIT_LOST (R449). -/
  | unitLost (kind index : BitVec 8)
  /-- JOB_FAULT (R450). -/
  | jobFault (src : BitVec 13) (job : Word)
  /-- PART_LOST_TIMEOUT (R450). -/
  | partLostTimeout (job : Word) (part : BitVec 13)
  /-- DEPOSIT_LOST (R437). -/
  | depositLost (src : BitVec 13) (job : Word) (model : BitVec 16) (die : BitVec 3)
  /-- JOIN_MESSAGE (R410). -/
  | joinMessage (job : Word) (part : BitVec 13) (digest : DWord) (table : List (BitVec 13))
  /-- RERUN_REQUEST (R424). -/
  | rerunRequest (src : BitVec 13) (job : Word) (rkey : Word) (pass : BitVec 2)
  /-- FABRIC_MESSAGE (R411). -/
  | fabricMessage (src : BitVec 13) (job : Word) (body : FabBody)
  /-- PUT_LANDED (R414). -/
  | putLanded (src : BitVec 13) (job : Word) (drop : BitVec 6) (off : Nat) (data : Bytes)
  /-- FLIT_CRC_FAIL (R387). -/
  | flitCrcFail (port : BitVec 6)
  /-- PORT_RETRAIN (R387). -/
  | portRetrain (port : BitVec 6)
  /-- PORT_TRAINED (R388): the wavelengths that trained, and what the partner sent -/
  | portTrained (port : BitVec 6) (good : BitVec 8) (peer : Option (BitVec 13)) (peerPort : BitVec 6) (tx rx : BitVec 16)
  /-- PORT_DOWN (R408). -/
  | portDown (port : BitVec 6)
  /-- SEEKING_RETRY (R388). -/
  | seekingRetry (port : BitVec 6)
  /-- ROUTE_WAIT_TIMEOUT (R408). -/
  | routeWaitTimeout (dst : BitVec 13)
  /-- LASER_PROTECT (R390). -/
  | laserProtect (port : BitVec 7) (lambda : BitVec 4) (off : Bool)
  /-- LASER_FAULT (R376). -/
  | laserFault (port : BitVec 7) (lambda : BitVec 4)
  /-- HOST_LINK_DOWN (R383). -/
  | hostLinkDown (port : BitVec 2)
  /-- HOST_LINK_UP (R385). -/
  | hostLinkUp (port : BitVec 2) (rate : BitVec 3) (width : BitVec 2) (flit sris : Bool)
  /-- HOST_OUTAGE_TIMEOUT (R383). -/
  | hostOutageTimeout (port : BitVec 2)
  /-- FUNCTION_LEVEL_RESET (R382). -/
  | functionLevelReset (fn : BitVec 10)
  /-- HOT_RESET (R382). -/
  | hotReset (port : BitVec 2)
  /-- LINK_DISABLE (R382). -/
  | linkDisable (port : BitVec 2)
  /-- VF_DISABLE (R456): the port keeps virtual functions 1 to num -/
  | vfDisable (port : BitVec 2) (num : BitVec 8)
  /-- FUNCTION_STOP_DONE (R471). -/
  | functionStopDone (acct : BitVec 10)
  /-- BEACON_ENUM (R400): the frame as received, 64 bytes -/
  | beaconEnum (frame : BitVec 512)
  /-- ENUM_TIMEOUT (R400). -/
  | enumTimeout
  /-- BEACON_HEALTH (R395): the frame as received, 64 bytes -/
  | beaconHealth (frame : BitVec 512)
  /-- BEACON_WAKE (R396): the frame as received, 64 bytes -/
  | beaconWake (frame : BitVec 512)
  /-- BEACON_SLEEP (R396): the frame as received, 64 bytes -/
  | beaconSleep (frame : BitVec 512)
  /-- HEALTH_SEND (R394). -/
  | healthSend
  /-- BEACON_ENTRY_AGE (R395). -/
  | beaconEntryAge (addr : BitVec 13)
  /-- BEACON_BREAK (R395). -/
  | beaconBreak
  /-- WAKE_ON_LIGHT (R397). -/
  | wakeOnLight (port : BitVec 2)
  /-- WAKE (R515). -/
  | wake
  /-- POWER_ENTRY_DONE (R514). -/
  | powerEntryDone
  /-- GOVERNOR_EVAL (R523): busy fractions of the last 100 µs by die, in millionths, and the measured input -/
  | governorEval (arrays vectors : List Nat) (inputW : Nat)
  /-- DIVIDER_STEP (R509). -/
  | dividerStep (die : BitVec 3)
  /-- THERMAL_OVERRIDE (R525). -/
  | thermalOverride (what : Sensor)
  /-- CURRENT_OVERRIDE (R525). -/
  | currentOverride
  /-- OVERRIDE_CLEAR (R525). -/
  | overrideClear (what : Sensor)
  /-- SUPPLY_DROOP (R585): a package rail, or the 54 V input -/
  | supplyDroop (rail : Bool)
  /-- THERMAL_TRIP (R588). -/
  | thermalTrip
  /-- POWER_INPUT_ENTER (R526). -/
  | powerInputEnter
  /-- POWER_INPUT_LOSS (R526). -/
  | powerInputLoss
  /-- MAILBOX_READY (R531). -/
  | mailboxReady
  /-- FIRMWARE_READY (R544). -/
  | firmwareReady (ok : Bool)
  /-- OPTICS_GROUP_RELIT (R374). -/
  | opticsGroupRelit
  /-- MAILBOX_RESUMED (R487). -/
  | mailboxResumed
  /-- UNIT_FENCE (R501): what the unit now presents on the data path -/
  | unitFence (kind index data tag : BitVec 8)
  /-- RECONCILIATION (R504). -/
  | reconciliation (kind index : BitVec 8) (passed : Bool) (data tag : BitVec 8)
  /-- CREDIT_PERIOD (R361). -/
  | creditPeriod (reqs : List CreditReq)
  /-- TALLY_COPY (R476). -/
  | tallyCopy
  /-- SAMPLE_LATCH (R561). -/
  | sampleLatch (scope : BitVec 4)
  /-- VF_ENABLE (R456). -/
  | vfEnable (port : BitVec 2) (num : BitVec 8)
  /-- LEARN_LIMIT_EXPIRY (R340). -/
  | learnLimitExpiry (slot : BitVec 6)
  /-- CKPT_RESTORE_DONE (R448): data: an image that arrived from PEER -/
  | ckptRestoreDone (slot : BitVec 6) (data : Option Bytes) (ok : Bool)
  /-- POWER_EXIT_DONE (R512). -/
  | powerExitDone
  /-- BEACON_LIGHT_RESTORED (R395). -/
  | beaconLightRestored
  /-- BEACON_FRAME_DROPPED (R393). -/
  | beaconFrameDropped
  /-- HOST_LINK_TRAIN_FAIL (R379). -/
  | hostLinkTrainFail (port : BitVec 2)
  deriving DecidableEq, Repr

end Sys2Proof
end

