-- ==== Sys2Proof/WellFormed.lean ====
section
/-!
DEFINITION. Well-formed commands: operands in the ranges that the row's rule gives. `step` does not check this; a
meaning given an operand out of range does what its definition says.
-/
namespace Sys2Proof

/-- A Ledger element register (R236). -/
def ldgElem (r : BitVec 8) : Bool := decide (r.toNat ≤ 0x10)
/-- A Ledger scalar register (R236). -/
def ldgScalar (r : BitVec 8) : Bool := decide (0x20 ≤ r.toNat) && decide (r.toNat ≤ 0x3F)
/-- A Ledger matrix register (R236). -/
def ldgMat (r : BitVec 8) : Bool := decide (0x40 ≤ r.toNat) && decide (r.toNat ≤ 0x43)
/-- A Ledger register that an element or scalar instruction may write (R236, R243). -/
def ldgDest (d : BitVec 8) : Bool :=
  (ldgElem d && d != 0x0A && d != 0x0B) || (ldgScalar d && decide (0x32 ≤ d.toNat))
/-- A source that the destination's kind allows (R236). -/
def ldgSrc (d a : BitVec 8) : Bool := ldgScalar a || (ldgElem d && ldgElem a)
/-- A unit of R500. -/
def unitExists (kind index : BitVec 8) : Bool :=
  decide (index.toNat < [0, 8, 128, 32, 4, 16, 64].getD kind.toNat 0)

/-- The operands are in range. -/
def Instr.wf : Instr → Bool
  | .cmdDb _ _ => true
  | .commandTake _ => true
  | .firmwareAccept => true
  | .ntfTail _ _ => true
  | .registerWrite _ off data => decide (off.toNat + data.length ≤ 2 ^ 20) && !data.isEmpty
  | .mtimeLoRead _ => true
  | .cntValLowRead _ scope _ => decide (scope.toNat ≤ 8)
  | .apertureRead _ _ len => decide (0 < len) && decide (len ≤ 4096)
  | .apertureWrite _ _ data => !data.isEmpty && decide (data.length ≤ 4096)
  | .msixUnmask _ _ => true
  | .negotiate _ => true
  | .identify _ => true
  | .unitQuery _ => true
  | .unitReconcile _ => true
  | .notifyMask _ => true
  | .acctCreate _ => true
  | .acctModify _ => true
  | .acctDisable _ => true
  | .acctEnable _ => true
  | .acctDestroy _ => true
  | .acctQuery _ => true
  | .acctMemGrant _ => true
  | .acctMemRevoke _ => true
  | .partSet _ => true
  | .rightSet _ => true
  | .acctFlagsSet _ => true
  | .memMapQuery _ => true
  | .memCreditSet _ => true
  | .memCreditQuery _ => true
  | .memErrQuery _ => true
  | .kvModelSet _ => true
  | .kvPoolSet _ => true
  | .kvVaultSet _ => true
  | .kvDomainCreate _ => true
  | .kvDomainGrant _ => true
  | .kvDomainJoin _ => true
  | .kvDomainLeave _ => true
  | .kvFlush _ => true
  | .kvPoolQuery _ => true
  | .wpSubmit _ => true
  | .wpCancel _ => true
  | .wpQuery _ => true
  | .semRead _ => true
  | .semSet _ => true
  | .semSignal _ => true
  | .wtCreate _ => true
  | .wtLoad _ => true
  | .wtTurn _ => true
  | .wtLearn _ => true
  | .wtRebuild _ => true
  | .wtQuery _ => true
  | .wtAnchorSet _ => true
  | .wtGenDrop _ => true
  | .wtUnload _ => true
  | .seqAdmit _ => true
  | .seqCancel _ => true
  | .seqQuery _ => true
  | .seqPause _ => true
  | .seqResume _ => true
  | .seqPark _ => true
  | .seqRelease _ => true
  | .seqDraft _ => true
  | .seqModelSet _ => true
  | .seqPrefillSet _ => true
  | .seqDecodeSet _ => true
  | .updProgLoad _ => true
  | .updProgFree _ => true
  | .updGroupSet _ => true
  | .updGroupRead _ => true
  | .updModelSet _ => true
  | .updBegin _ => true
  | .updCommit _ => true
  | .updAbort _ => true
  | .updStatus _ => true
  | .updMonRead _ => true
  | .updGroupFree _ => true
  | .ftRiskQuery _ => true
  | .ftThreshSet _ => true
  | .ftPlanSet _ => true
  | .ftDepositSet _ => true
  | .ftSecure _ => true
  | .ftCkptList _ => true
  | .ftCkptDrop _ => true
  | .ftExport _ => true
  | .ftRestore _ => true
  | .ftStatus _ => true
  | .pwrStateSet _ => true
  | .pwrQuery _ => true
  | .pwrBoundsSet _ => true
  | .pwrReset _ => true
  | .fwWrite _ => true
  | .fwActivate _ => true
  | .fwQuery _ => true
  | .fwFloorRaise _ => true
  | .fwLock _ => true
  | .lcNonce _ => true
  | .lcChange _ => true
  | .tallyRead _ => true
  | .tallyReadAll _ => true
  | .cntSet _ => true
  | .cntSnap _ => true
  | .cntSample _ => true
  | .cntCatalog _ => true
  | .numRead _ => true
  | .numAmaxRead _ => true
  | .numAmaxSet _ => true
  | .numAmaxRoll _ => true
  | .portQuery _ => true
  | .portBoundsSet _ => true
  | .portEnable _ => true
  | .beaconStatus _ => true
  | .beaconSend _ => true
  | .fabOrigin _ => true
  | .fabAddrQuery _ => true
  | .fabRouteSet _ => true
  | .fabRouteQuery _ => true
  | .fabJobJoin _ => true
  | .fabJobLeave _ => true
  | .fabGroupSet _ => true
  | .fabDropSet _ => true
  | .fabJobQuery _ => true
  | .packageStart _ => true
  | .descriptorStart _ => true
  | .tile _ => true
  | .tilePassEnd _ => true
  | .vectorProgram _ => true
  | .xfer _ => true
  | .sync _ => true
  | .prefetch _ => true
  | .lfeed _ => true
  | .put _ => true
  | .allreduce _ => true
  | .reduce _ => true
  | .broadcast _ => true
  | .allgather _ => true
  | .barrier _ => true
  | .roundComplete _ others => (others.map (·.1)).Nodup
  | .descriptorComplete _ => true
  | .runLimitExpiry _ => true
  | .vectorTimeLimit _ => true
  | .budgetExhausted _ => true
  | .forcedStop _ => true
  | .add _ _ _ _ => true
  | .sub _ _ _ _ => true
  | .and _ _ _ _ => true
  | .or _ _ _ _ => true
  | .xor _ _ _ _ => true
  | .sll _ _ _ _ => true
  | .srl _ _ _ _ => true
  | .sra _ _ _ _ => true
  | .slt _ _ _ _ => true
  | .sltu _ _ _ _ => true
  | .min _ _ _ _ => true
  | .max _ _ _ _ => true
  | .mul _ _ _ _ => true
  | .addi _ _ _ _ => true
  | .andi _ _ _ _ => true
  | .ori _ _ _ _ => true
  | .xori _ _ _ _ => true
  | .shi _ _ _ _ _ => true
  | .lui _ _ _ => true
  | .slti _ _ _ _ => true
  | .fadd _ _ _ _ => true
  | .fsub _ _ _ _ => true
  | .fmul _ _ _ _ => true
  | .fdiv _ _ _ _ => true
  | .fsqrt _ _ _ => true
  | .fmin _ _ _ _ => true
  | .fmax _ _ _ _ => true
  | .ffma _ _ _ _ => true
  | .feq _ _ _ _ => true
  | .flt _ _ _ _ => true
  | .fle _ _ _ _ => true
  | .funord _ _ _ _ => true
  | .fcvt _ _ _ _ => true
  | .br _ _ _ _ => true
  | .halt _ => true
  | .semwait _ imm _ => imm != 0
  | .semsignal _ imm => imm != 0
  | .xpost _ _ _ _ => true
  | .ld _ _ _ _ _ _ _ => true
  | .st _ _ _ _ _ _ => true
  | .vadd _ _ _ _ _ _ => true
  | .vsub _ _ _ _ _ _ => true
  | .vmul _ _ _ _ _ _ => true
  | .vfma _ _ _ _ _ _ => true
  | .vmin _ _ _ _ _ _ => true
  | .vmax _ _ _ _ _ _ => true
  | .vdiv _ _ _ _ _ _ => true
  | .vsqrt _ _ _ _ _ => true
  | .vcmp _ _ _ _ _ _ => true
  | .pand _ _ _ _ _ => true
  | .por _ _ _ _ _ => true
  | .pxor _ _ _ _ _ => true
  | .pandn _ _ _ _ _ => true
  | .pnot _ _ _ _ => true
  | .vsel _ _ _ _ _ => true
  | .vintOp _ _ _ _ _ _ => true
  | .viota _ _ _ => true
  | .vcvt _ _ _ _ _ cvt _ => (Machine.cvtOf cvt.toNat).isSome
  | .vmxPack _ d _ _ _ => d != 31
  | .vmxUnpack _ _ a _ _ => a != 31
  | .vfn _ _ _ _ _ => true
  | .vact _ _ _ _ _ _ => true
  | .vdact _ _ _ _ _ _ => true
  | .apset _ _ => true
  | .vperm _ _ _ _ _ => true
  | .vbcast _ _ _ _ => true
  | .vrot _ _ _ _ _ => true
  | .vlane _ _ _ _ _ => true
  | .vrclr _ _ => true
  | .vrsum _ _ _ _ => true
  | .vrdot _ _ _ _ _ => true
  | .vrfin _ _ _ _ => true
  | .vrmax _ _ _ _ _ => true
  | .vrmin _ _ _ _ _ => true
  | .vrarg _ _ _ _ _ => true
  | .vrput _ _ _ _ => true
  | .vrget _ _ _ _ => true
  | .vld _ _ _ _ _ _ => true
  | .vst _ _ _ _ _ _ => true
  | .vgather _ _ _ _ _ _ => true
  | .vscatter _ _ _ _ _ _ => true
  | .vsample _ _ _ => true
  | .vrand _ _ _ _ _ => true
  | .ldgMov _ d a => ldgDest d && ldgSrc d a
  | .ldgAdd _ d a b => ldgDest d && ldgSrc d a && ldgSrc d b
  | .ldgSub _ d a b => ldgDest d && ldgSrc d a && ldgSrc d b
  | .ldgMul _ d a b => ldgDest d && ldgSrc d a && ldgSrc d b
  | .ldgFma _ d a b c => ldgDest d && ldgSrc d a && ldgSrc d b && ldgSrc d c
  | .ldgDiv _ d a b => ldgDest d && ldgSrc d a && ldgSrc d b
  | .ldgSqrt _ d a => ldgDest d && ldgSrc d a
  | .ldgMin _ d a b => ldgDest d && ldgSrc d a && ldgSrc d b
  | .ldgMax _ d a b => ldgDest d && ldgSrc d a && ldgSrc d b
  | .ldgFn _ d a _ => ldgDest d && ldgSrc d a
  | .sign _ d a => ldgDest d && ldgSrc d a
  | .sel _ d a b c => ldgDest d && ldgSrc d a && ldgSrc d b && ldgSrc d c
  | .abs _ d a => ldgDest d && ldgSrc d a
  | .rsum _ d a _ imm => ldgDest d && ldgScalar d && ldgElem a && decide (imm.toNat < 2 ^ 13)
  | .rdot _ d a b _ imm => ldgDest d && ldgScalar d && ldgElem a && ldgElem b && decide (imm.toNat < 2 ^ 13)
  | .rmax _ d a _ => ldgDest d && ldgScalar d && ldgElem a
  | .gram _ d a _ imm => ldgMat d && ldgElem a && decide (imm.toNat < 2 ^ 13)
  | .qema _ d a b c => ldgMat d && ldgMat a && ldgScalar b && ldgScalar c
  | .mml _ d a c _ imm => ldgDest d && ldgElem d && ldgMat a && ldgElem c && decide (imm.toNat < 2 ^ 13)
  | .mmr _ d a c _ imm => ldgDest d && ldgElem d && ldgMat a && ldgElem c && decide (imm.toNat < 2 ^ 13)
  | .cir _ d a b => ldgMat d && ldgMat a && ldgScalar b
  | .nsnorm _ d a imm => ldgDest d && ldgElem d && ldgElem a && decide (imm.toNat < 2 ^ 13)
  | .nsstep _ d a b imm => ldgDest d && ldgElem d && ldgElem a && ldgScalar b && decide (b.toNat ≤ 0x3D) && decide (imm.toNat < 2 ^ 13)
  | .layerPass1 _ _ _ => true
  | .ledgerCombine _ _ _ _ => true
  | .layerPass2 _ _ _ => true
  | .mirrorTransfer _ _ _ => true
  | .feedLimitExpiry _ => true
  | .admitGrant _ => true
  | .importDone _ _ => true
  | .prefillLaunch _ => true
  | .firstTokenCommit _ => true
  | .frameStart _ => true
  | .waveStart _ => true
  | .waveCommit _ _ => true
  | .frameEnd _ => true
  | .admitWaitExpiry _ => true
  | .lifetimeExpiry _ => true
  | .pauseLimitExpiry _ => true
  | .parkTtlExpiry _ => true
  | .entryAutoRelease _ => true
  | .parkDone _ _ => true
  | .restoreDone _ _ => true
  | .demotion _ _ => true
  | .movingOpStart _ => true
  | .loadSegment _ _ => true
  | .loadLimitExpiry _ => true
  | .reshardSegment _ _ _ => true
  | .mintLayer _ => true
  | .turnLimitExpiry _ => true
  | .inplaceDrainEnd _ => true
  | .oldEpochFree _ => true
  | .barrierReport _ => true
  | .barrierDecision _ => true
  | .amaxRoll _ _ _ => true
  | .drainCommit _ _ => true
  | .laterLayerCopy _ _ => true
  | .drainLimitExpiry _ => true
  | .riskUpdate _ => true
  | .unitLost kind index => unitExists kind index
  | .jobFault _ _ => true
  | .partLostTimeout _ _ => true
  | .depositLost _ _ _ _ => true
  | .joinMessage _ _ _ _ => true
  | .rerunRequest _ _ _ _ => true
  | .fabricMessage _ _ _ => true
  | .putLanded _ _ _ _ _ => true
  | .flitCrcFail _ => true
  | .portRetrain _ => true
  | .portTrained _ _ _ _ _ _ => true
  | .portDown _ => true
  | .seekingRetry _ => true
  | .routeWaitTimeout _ => true
  | .laserProtect port _ _ => decide (port.toNat < 68)
  | .laserFault port _ => decide (port.toNat < 68)
  | .hostLinkDown _ => true
  | .hostLinkUp _ rate width _ _ => decide (1 ≤ rate.toNat) && decide (rate.toNat ≤ 4) && width != 0
  | .hostOutageTimeout _ => true
  | .functionLevelReset _ => true
  | .hotReset _ => true
  | .linkDisable _ => true
  | .vfDisable _ _ => true
  | .functionStopDone _ => true
  | .beaconEnum _ => true
  | .enumTimeout => true
  | .beaconHealth _ => true
  | .beaconWake _ => true
  | .beaconSleep _ => true
  | .healthSend => true
  | .beaconEntryAge _ => true
  | .beaconBreak => true
  | .wakeOnLight _ => true
  | .wake => true
  | .powerEntryDone => true
  | .governorEval arrays vectors _ => arrays.length == 8 && vectors.length == 8 && arrays.all (fun x => decide (x ≤ 1000000)) && vectors.all fun x => decide (x ≤ 1000000)
  | .dividerStep _ => true
  | .thermalOverride _ => true
  | .currentOverride => true
  | .overrideClear _ => true
  | .supplyDroop _ => true
  | .thermalTrip => true
  | .powerInputEnter => true
  | .powerInputLoss => true
  | .mailboxReady => true
  | .firmwareReady _ => true
  | .opticsGroupRelit => true
  | .mailboxResumed => true
  | .unitFence kind index data _ => unitExists kind index && decide (data.toNat ≤ 2)
  | .reconciliation kind index _ data _ => unitExists kind index && decide (data.toNat ≤ 2)
  | .creditPeriod _ => true
  | .tallyCopy => true
  | .sampleLatch scope => decide (scope.toNat ≤ 8)
  | .vfEnable _ _ => true
  | .learnLimitExpiry _ => true
  | .ckptRestoreDone _ _ _ => true
  | .powerExitDone => true
  | .beaconLightRestored => true
  | .beaconFrameDropped => true
  | .hostLinkTrainFail _ => true

end Sys2Proof
end

