-- ==== Sys2Proof/Config.lean ====
section
/-!
DEFINITION. What the manual leaves open: values with no body, so that no proof can lean on one.
-/
namespace Sys2Proof.Config

/-- A free value: what the manual leaves unspecified, applied to the counter `freeCtr` of the state (log entry 3, DESIGN CHOICE). -/
opaque freeValue : Nat → DWord
/-- The module serial number (R494). -/
opaque serial : DWord
/-- The Keeper's version word, fixed in its ROM (R534). -/
opaque keeperVersion : Word
/-- The energy coefficients of R494, E_CYC then E_OTHER: eighteen FP32 values. -/
opaque energyCoeff : Nat → Word
/-- SHA-384 of a byte string (R535, R549). -/
opaque sha384 : Bytes → Bytes
/-- Whether an ECDSA P-384 signature verifies: the public key, the signed bytes, the signature (R535, R549). -/
opaque sigVerifies : Bytes → Bytes → Bytes → Bool
/-- The vendor's public key, whose hash is fused (R535). -/
opaque vendorKey : Bytes
/-- The one-way digest of a job key (R410). -/
opaque jkeyDigest : DWord → DWord
/-- The key of a sharing domain, by its creation count (R297). -/
opaque domainKey : Nat → DWord
/-- The nonce that the n-th LC_NONCE returns (R549). -/
opaque nonce : Nat → DWord
/-- A die's HBM, or its Vault share, has a repair resource left after so many repairs (R355). -/
opaque repairLeft : Nat → Bool → Nat → Bool
/-- Where the tree of an FP32 all-reduce parts members: the group's size, the first member of a run, and the run's length
(R420). -/
opaque reduceSplit : Nat → Nat → Nat → Nat
/-- An element of a generation copy that another part holds, as a code: job, model, epoch, tensor, row and column (R249). -/
opaque remoteElem : Word → Nat → Nat → Nat → Nat → Nat → Nat
/-- The scale of a block of an MX copy that another part holds, by the block's number along the stored row (R249). -/
opaque remoteScale : Word → Nat → Nat → Nat → Nat → Nat → Nat
/-- The flits that an input buffer of a link holds, less one: link, virtual channel and hop level (R368). -/
opaque nocDepth : Nat → Nat → Nat → Nat
/-- The catalogue entry of a counter source that R554 does not list: UNIT, SFLAGS, MAXRATE and NAME as 14 bytes (R556). -/
opaque catalogEntry : Nat → Bytes

end Sys2Proof.Config
end

