-- ==== Sys2Proof/Machine/State.lean ====
section
/-!
DEFINITION. The state of the module as plain data, the reasons a step can stop, and the state after reset.
Every type here is a record of what a numbered rule of spec/ names; INVENTORY.md lists each field with its rule and its
reset value.
-/
namespace Sys2Proof.Machine

/-! ## Outcomes -/

/-- Why a step faults. -/
inductive Fault where
  /-- Raised by no meaning: the loader and the address checks refuse every internal address that R343 reserves, so an engine
  never reaches one. Safe: a step that raised it would stop where the part has no byte to read. -/
  | unmapped (addr : Nat)
  deriving DecidableEq, Repr

/-- Why a step is refused. -/
inductive Refusal where
  /-- Raised by the dispatch for a row that has no meaning yet. Safe: the model stops. -/
  | notModelled (mnemonic : String)
  deriving DecidableEq, Repr

/-- The outcome of a command. -/
abbrev Result (σ : Type) := Host.Outcome σ Fault Refusal

/-- The status codes of R17. -/
inductive Status where
  | ok | busy | badArg | noResource | denied | version | timeout | aborted | refusedState | dataError | notFound
  | alreadyDone | functionDisabled | late | cancelled | admitDefer
  deriving DecidableEq, Repr

/-- A sparse table: pairs of a number and a value, numbers strictly rising. -/
abbrev Tbl (α : Type) := List (Nat × α)

/-- Bytes of the part by storage key: strictly rising keys, no byte of value zero listed (an unlisted key reads zero). -/
abbrev Memory := List Host.Cell

/-- The canonical form of memory. -/
abbrev Memory.wf (m : Memory) : Prop := m.Pairwise (fun x y => x.1 < y.1) ∧ ∀ c ∈ m, c.2 ≠ 0

/-! ## The mailbox of a function (16, 20) -/

/-- A response slot (R481). RSTATE 0 is EMPTY, 1 TAKEN, 2 DONE. -/
structure Resp where
  opcode  : Nat
  abi     : BitVec 8
  status  : Status
  seqno   : Word
  rstate  : Nat
  rlen    : Nat
  tDone   : DWord
  payload : Bytes
  deriving DecidableEq, Repr

/-- An empty response slot (R481). -/
def Resp.empty : Resp := ⟨0, 0, .ok, 0, 0, 0, 0, []⟩

/-- A notification that has not reached the ring (R496, R487). -/
structure Ntf where
  kind   : Nat
  status : Status
  time   : DWord
  args   : Bytes
  deriving DecidableEq, Repr

/-- A command that was taken and has not completed, with its opcode (R481). -/
structure Taken where
  cmd    : Cmd
  opcode : Nat
  deriving DecidableEq, Repr

/-- An entry of the MSI-X table (R578). -/
structure MsixEntry where
  addr   : DWord
  data   : Word
  masked : Bool
  deriving DecidableEq, Repr

/-- The mailbox, aperture and interrupt registers of one function (R479, R570). -/
structure Func where
  cmdSlots  : Tbl Bytes
  resp      : Tbl Resp
  doorbells : List Nat
  fwQueue   : List Taken
  taken     : List Taken
  ready     : Bool
  paused    : Bool
  cmdErr    : Bool
  ntfOvf    : Bool
  abi       : BitVec 8
  done      : DWord
  head      : Word
  tail      : Word
  lost      : Word
  /-- notifications lost since the last OVERFLOW entry (R499) -/
  lostSince : Word
  cmdVec    : BitVec 6
  ntfVec    : BitVec 6
  ntfHold   : BitVec 8
  /-- module time of the last NTF_VEC message (R479), none before the first -/
  ntfLast   : Option DWord
  /-- an NTF_VEC message waits for NTF_HOLD to run out -/
  ntfOwed   : Bool
  lastSeq   : Option Word
  ring      : Tbl Bytes
  heldNtf   : List Ntf
  /-- completions held while PAUSED: slot and response (R487) -/
  heldResp  : List (Cmd × Resp)
  mask      : Word
  deriving DecidableEq, Repr

/-- The mailbox after a reset that covers it (R479). -/
def Func.reset : Func :=
  { cmdSlots := [], resp := [], doorbells := [], fwQueue := [], taken := [], ready := false, paused := false,
    cmdErr := false, ntfOvf := false, abi := 0, done := 0, head := 0, tail := 0, lost := 0, lostSince := 0,
    cmdVec := 0, ntfVec := 1, ntfHold := 0, ntfLast := none, ntfOwed := false, lastSeq := none, ring := [],
    heldNtf := [], heldResp := [], mask := 0 }

/-- The aperture, MSI-X and latch registers of one function (R570, R573, R578, R580). -/
structure Aper where
  base      : BitVec 52
  en        : Bool
  size      : BitVec 4
  outside   : Bool
  asleep    : Bool
  stopped   : Bool
  discards  : BitVec 16
  msix      : Tbl MsixEntry
  msixPend  : DWord
  mtimeLatch : Option DWord
  cntLatch  : Option DWord
  deriving DecidableEq, Repr

/-- The aperture registers after a reset that covers them; every MSI-X vector masked (log entry 10, PRESUMED). -/
def Aper.reset : Aper :=
  { base := 0, en := false, size := 0, outside := false, asleep := false, stopped := false, discards := 0, msix := [],
    msixPend := 0, mtimeLatch := none, cntLatch := none }

/-! ## Accounts (15) -/

/-- The account states of R456. -/
inductive AcctState where
  | none | enabled | stopping | disabled
  deriving DecidableEq, Repr

/-- The disable causes of R456, in table order. -/
structure Causes where
  admin     : Bool
  absent    : Bool
  reset     : Bool
  destroy   : Bool
  lifecycle : Bool
  deriving DecidableEq, Repr

/-- No cause in force. -/
def Causes.clear : Causes := ⟨false, false, false, false, false⟩

/-- The quota block of R462. -/
structure Quota where
  partition : Nat
  classB    : Bool
  weight    : Nat
  pslots    : Nat
  sems      : Nat
  psems     : Nat
  descs     : Nat
  prefixes  : Nat
  seqs      : Nat
  groups    : Nat
  domains   : Nat
  models    : Nat
  pkgs      : Nat
  deriving DecidableEq, Repr

/-- The empty quota block. -/
def Quota.zero : Quota := ⟨0, false, 0, 0, 0, 0, 0, 0, 0, 0, 0, 0, 0⟩
/-- The default quota block of R456. -/
def Quota.default : Quota := { Quota.zero with classB := true, weight := 1 }

/-- An amax entry (R565): CUR and PREV as FP32 magnitudes and the epoch of CUR. -/
structure Amax where
  cur   : Word
  prev  : Word
  epoch : DWord
  deriving DecidableEq, Repr

/-- An account (R455 to R477), with its meters and numerics monitors. -/
structure Account where
  state    : AcctState
  causes   : Causes
  quota    : Quota
  epochPin : Bool
  strictFreeze : Bool
  remoteSleep  : Bool
  /-- the risk threshold and its arming (R431) -/
  thresh   : Nat
  armed    : Bool
  belowSince : Option DWord
  sems     : Tbl Word
  /-- the eleven Tally meters in the order of R473, and the module time of the last copy -/
  tally    : List DWord
  copied   : DWord
  copy     : List DWord
  /-- the thirteen numerics meters in the order of R563 from TILE_REPLAYS -/
  num      : List DWord
  amax     : Tbl Amax
  nextPkg  : Word
  nextSeq  : Word
  /-- packages of the account that have completed (R177) -/
  completed : Nat
  /-- energy in units of 2^-149 nJ (R474), and frames held × ns in HBM and in the Vault (R473) -/
  energy   : Nat
  hbmPageNs : Nat
  vaultPageNs : Nat
  deriving DecidableEq, Repr

/-- An account that has never been created. (Log entry 9, DESIGN CHOICE.) -/
def Account.fresh : Account :=
  { state := .none, causes := .clear, quota := .zero, epochPin := false, strictFreeze := false, remoteSleep := false,
    thresh := 0, armed := true, belowSince := none, sems := [], tally := List.replicate 11 0, copied := 0,
    copy := List.replicate 11 0, num := List.replicate 13 0, amax := [], nextPkg := 1, nextSeq := 1, completed := 0,
    energy := 0, hbmPageNs := 0, vaultPageNs := 0 }

/-- One granted unit of memory (R465): pool 0 HBM, 1 Vault, 2 shared die SRAM, 3 Strongbox. -/
structure Grant where
  pool : Nat
  die  : Nat
  unit : Nat
  acct : Nat
  deriving DecidableEq, Repr

/-- What a command that has been accepted and not completed waits for. -/
inductive WaitKey where
  /-- the stop procedure of an account (R471), and whether the account is destroyed -/
  | acctStop (acct : Nat)
  /-- a reconciliation of a unit (R505) -/
  | unit (kind index : Nat)
  /-- the end of a moving operation (R39), by its identity -/
  | move (id : Nat)
  /-- the commit of a model's Ledger step (R231) -/
  | commit (slot : Nat)
  /-- the opening of a held Ledger step (R246) -/
  | held (slot : Nat)
  /-- the end of a package (R180) -/
  | package (acct : Nat) (handle : Word)
  /-- a sequence reaching a final state (R282) -/
  | seq (index : Nat)
  /-- a sequence leaving its place: a pause, a park (R280, R306) -/
  | seqPause (index : Nat)
  /-- the end of a secure copy (R446) -/
  | secure (slot : Nat)
  /-- a power-state change (R514) -/
  | power
  /-- a reset of a partition (R529) -/
  | partition (n : Nat)
  /-- a firmware activation (R543) -/
  | activate
  /-- a life-cycle change (R550) -/
  | lifecycle
  /-- an enumeration round (R400) -/
  | enum
  /-- an old generation copy being freed (R338, R341) -/
  | drop (slot : Nat)
  deriving DecidableEq, Repr

/-- A command that waits, with what it waits for. -/
structure Waiting where
  cmd    : Cmd
  opcode : Nat
  key    : WaitKey
  deriving DecidableEq, Repr

/-- A fabric message: the address that stamps it, its destination, the job that it is stamped with, the virtual channel and hop
level on which it leaves, its kind and contents (R406, R411). -/
structure FabMsg where
  src   : Nat
  dst   : Nat
  job   : Word
  vc    : Nat
  level : Nat
  kind  : Nat
  data  : Bytes
  deriving DecidableEq, Repr

/-- What leaves the part: an MSI-X message, data returned to a host read, a Beacon frame, a fabric message. -/
inductive Out where
  | msix (fn vec : Nat)
  | read (fn : Nat) (data : Bytes)
  | beacon (frame : Bytes)
  | fabric (m : FabMsg)
  deriving DecidableEq, Repr

/-! ## Memory, credits, counters (11, 19) -/

/-- The credit floors and caps of one die's pool, by class (R359), the settings that take effect at the next period
(R366), the periods since each class last received a credit on each quarter (R361), and the next account and class of
each round robin. -/
structure Credits where
  floors : List Nat
  caps   : List Nat
  staged : Option (List Nat × List Nat)
  /-- per quarter, per class: periods since the class last received a credit there, up to seven (R361) -/
  idle   : List (List Nat)
  /-- per quarter: the class that the lending round robin serves next -/
  turn   : List Nat
  /-- per quarter and class: deficits of the accounts (R362) -/
  deficit : Tbl (Tbl Nat)
  /-- per quarter and class: the account that is served next -/
  next    : Tbl Nat
  deriving DecidableEq, Repr

/-- The default credits of an HBM pool (R359). -/
def Credits.hbm : Credits :=
  { floors := [50, 30, 10, 5, 3, 2], caps := List.replicate 6 100, staged := none,
    idle := List.replicate 4 (List.replicate 6 0), turn := List.replicate 4 0, deficit := [], next := [] }
/-- The default credits of a Vault pool (R359). -/
def Credits.vault : Credits :=
  { floors := [40, 40, 20], caps := List.replicate 3 100, staged := none, idle := [List.replicate 3 0], turn := [0],
    deficit := [], next := [] }

/-- One event counter (R557): CNT_CTL without OVF, OVF, VALUE, and whether CNT_SET changed it since the last record. -/
structure Counter where
  src     : BitVec 12
  en      : Bool
  afilt   : Bool
  account : BitVec 10
  unit    : BitVec 4
  ufilt   : Bool
  ovf     : Bool
  value   : BitVec 48
  changed : Bool
  /-- the account of its filter has been destroyed since it was set (R567) -/
  dead    : Bool
  deriving DecidableEq, Repr

/-- A counter after reset (R557). -/
def Counter.reset : Counter := ⟨0, false, false, 0, 0, false, false, 0, false, false⟩

/-- A periodic sampler of a scope (R561). -/
structure Sampler where
  acct   : Nat
  clear  : Bool
  period : Nat
  base   : Nat
  nrec   : Nat
  next   : Nat
  /-- the sampler started under the right of the module, not of a partition -/
  byModule : Bool
  deriving DecidableEq, Repr

/-- The memory error state of a die (R349, R351 to R355, R367). Rows are named by (core or 16 for die SRAM, bank, row). -/
structure DieMem where
  /-- spare rows used, by core (0 to 15) or die SRAM (16), and bank -/
  sparesUsed : Tbl Nat
  /-- rows retired to spares, in the order in which they were (R352) -/
  retired    : List (Nat × Nat × Nat)
  coreOut    : List Nat
  dieOut     : Bool
  hbmRepairs : Word
  vaultRepairs : Word
  /-- SRAM words whose parity fails, by storage key of the word (R353) -/
  corrupt    : List Nat
  /-- codewords of HBM and the Vault that their ECC cannot correct and that no read has met yet, by storage key (R355) -/
  failing    : List Nat
  /-- poisoned codewords, by storage key of the codeword (R355) -/
  poisoned   : List Nat
  /-- units that the next reset that wipes them withdraws from their accounts (R355) -/
  withdrawn  : List Grant
  deriving DecidableEq, Repr

/-- A die's memory after reset. -/
def DieMem.reset : DieMem :=
  { sparesUsed := [], retired := [], coreOut := [], dieOut := false, hbmRepairs := 0, vaultRepairs := 0, corrupt := [],
    failing := [], poisoned := [], withdrawn := [] }

/-- A unit's two views (R500): MGMT and DATA values, the two partition tags (0xFF none), fences since COLD, and whether the
reconciliation that Neriv starts on its own is still to run (R504). -/
structure UnitRec where
  mgmt   : Nat
  data   : Nat
  mTag   : Nat
  dTag   : Nat
  fences : Nat
  auto   : Bool
  deriving DecidableEq, Repr

/-- A unit after a COLD reset. -/
def UnitRec.reset : UnitRec := ⟨0, 0, 0xFF, 0xFF, 0, false⟩

/-! ## Matrix Cores (03, 04) -/

/-- The two phases of a core and a package (R37). -/
inductive Phase where
  | learning | generation
  deriving DecidableEq, Repr

/-- A thread's state: running, waiting for a PROGRAM semaphore entry to reach a target, halted, or stopped with its
BUDGET spent (R126, R130). -/
inductive ThreadState where
  | idle | running | waiting (entry : Nat) (target : Word) | halted | spent
  deriving DecidableEq, Repr

/-- A hardware thread of the scalar unit (R121). -/
structure Thread where
  x      : List DWord
  apr    : Word
  pc     : Nat
  issued : Nat
  state  : ThreadState
  deriving DecidableEq, Repr

/-- A thread that no program has launched. -/
def Thread.reset : Thread := ⟨List.replicate 32 0, 0, 0, 0, .idle⟩

/-- An anchor slot of a vector program (R123): the anchor word, TENSOR_ID, and the anchor in force (R70). -/
structure AnchorSlot where
  word   : Nat
  tensor : Nat
  anchor : Int
  deriving DecidableEq, Repr

/-- A vector program on a core (R123, R151): its descriptor, the offset of its first word in core SRAM, PLEN, BUDGET,
windows (base and length in bytes), anchor slots, the result word so far, and the XFER images it has posted and that have
not completed (R175). -/
structure VProg where
  desc   : DescId
  code   : Nat
  plen   : Nat
  budget : Nat
  wins   : List (Nat × Nat)
  anch   : List AnchorSlot
  result : Word
  posted : List Bytes
  deriving DecidableEq, Repr

/-- Requests to run producers again that a consumer has sent to other parts (R185, R424). -/
structure Asked where
  /-- those not yet answered: job, part and RKEY -/
  open_ : List (Word × Nat × Word)
  /-- RKEYs under which some part holds a producer -/
  found : List Word
  deriving DecidableEq, Repr

/-- No request. -/
def Asked.none : Asked := ⟨[], []⟩

/-- An open chain or a tile in progress on a core's arrays (R87, R107, R116): its first descriptor, the descriptors
accumulated so far, the pass number and anchor, the accumulators in row order, and the results that earlier passes fixed. -/
structure TileRun where
  /-- the first descriptor of the chain, or the SINGLE descriptor -/
  first  : DescId
  descs  : List Nat
  /-- the anchor of pass 0 -/
  base   : Int
  pass   : Nat
  acc    : List La
  /-- results chosen at earlier passes, one per element (R66) -/
  fixed  : List (Option (Word × Bool × Bool))
  /-- the run waits for the producers of its replay group, its arrays released (R117, R119) -/
  awaiting : Bool
  /-- the requests to other parts that this pass waits for (R185) -/
  asked    : Asked
  /-- which accumulator the run holds on each array: ACC1 where true (R87) -/
  acc1     : List Bool
  deriving DecidableEq, Repr

/-- A Matrix Core. -/
structure Core where
  phase  : Option Phase
  v      : List (List Word)
  pm     : List (List Bool)
  lacc   : List Shadows
  threads : List Thread
  /-- the vector issue queue: the threads whose instructions wait in it (R121, R122) -/
  queue  : List Nat
  /-- the thread that the round robin of the scalar unit comes to next (R122) -/
  turn   : Nat
  prog   : Option VProg
  tiles  : List TileRun
  /-- per array: the accumulator that its next tile takes is ACC1 (R87) -/
  accNext : List Bool
  deriving DecidableEq, Repr

/-- A core after a reset that covers it: every register of R121 cleared, PM0 reading all ones. -/
def Core.reset : Core :=
  { phase := none, v := List.replicate 32 (List.replicate 4096 0),
    pm := List.replicate 8 (List.replicate 4096 false), lacc := List.replicate 8 Shadows.zero,
    threads := List.replicate 16 Thread.reset, queue := [], turn := 0, prog := none, tiles := [],
    accNext := List.replicate 4 false }

/-! ## Work packages (05) -/

/-- A region of a package (R155): the internal address of its first byte, its length in bytes, SPACE, ROLE, UNIT and
AUX. -/
structure Region where
  base  : Nat
  len   : Nat
  space : Nat
  role  : Nat
  core  : Nat
  aux   : Nat
  deriving DecidableEq, Repr

/-- A semaphore entry of a package (R157) with the value of a PACKAGE or PROGRAM semaphore. -/
structure SemEntry where
  index : Nat
  rank  : Nat
  kind  : Nat
  owner : Nat
  value : Word
  deriving DecidableEq, Repr

/-- A link entry (R158). -/
structure LinkEntry where
  rkey     : Word
  rgroup   : Nat
  consumer : Bool
  deriving DecidableEq, Repr

/-- Where a descriptor stands. -/
inductive DescState where
  | queued | started | done
  deriving DecidableEq, Repr

/-- A descriptor of an accepted package: its bytes (R159), its state, its result word, when it started, whether its wait
on an account semaphore was satisfied, and by semaphore entry the account signals that it has issued and those of this
pass (R183). -/
structure Desc where
  raw      : Bytes
  state    : DescState
  status   : Status
  result   : Word
  tStart   : DWord
  elapsed  : Word
  waited   : Bool
  signals  : Tbl Nat
  passed   : Tbl Nat
  /-- segments of a transfer copied so far, or elements of a collective rounds done -/
  progress : Nat
  deriving DecidableEq, Repr

/-- The states of WP_QUERY (R177). -/
inductive PkgState where
  | loaded | phaseWait | running | replaying | stopping | held | done
  deriving DecidableEq, Repr

/-- A work package (R153 to R187). -/
structure Pkg where
  id       : PkgId
  /-- order of acceptance (R172) -/
  order    : Nat
  phase    : Phase
  runLimit : Nat
  compl    : Nat
  model    : Nat
  tag      : DWord
  regions  : List Region
  /-- the implicit regions of a prefill launch (R294) -/
  implicit : List Region
  sems     : List SemEntry
  links    : List LinkEntry
  descs    : List Desc
  dies     : List Nat
  state    : PkgState
  status   : Status
  replays  : Nat
  outFlags : Nat
  epoch    : DWord
  tStart   : DWord
  tEnd     : DWord
  /-- the prologue has run and its RW shadows hold (R171) -/
  shadowed : Bool
  linkExpired : Bool
  /-- the record as written at the end (R176) -/
  record   : Bytes
  /-- the account's count of completed packages when this one completed (R177) -/
  endOrder : Nat
  /-- how many packages had been accepted when this one ended: those accepted later belong to another use of its links (R185) -/
  endMark : Nat
  /-- a prefill launch: the bytes that its prologue writes over the first TEMP region, where its parameter block lies, and
  that block as the package left it (R269, R270) -/
  block    : Bytes
  sampleAt : Nat
  sampled  : Bytes
  deriving DecidableEq, Repr

/-! ## Ports, links and the Beacon ring (12) -/

/-- The port states of PORT_QUERY (R391). -/
inductive PortState where
  | dark | seeking | up | degraded | safety
  deriving DecidableEq, Repr

/-- A fabric port (0 to 63), a host port (64 to 67) or the Beacon (68) (R376, R390, R391). -/
structure Port where
  state    : PortState
  lamA     : BitVec 8
  lamB     : BitVec 8
  tx       : BitVec 16
  rx       : BitVec 16
  lo       : BitVec 16
  hi       : BitVec 16
  /-- the causes that hold the port dark, in the order in which they came (R376) -/
  causes   : List Nat
  override : Bool
  /-- wavelengths of pair a and pair b that a protection has turned off, and the state that SAFETY stands for (R390) -/
  offA     : BitVec 8
  offB     : BitVec 8
  before   : PortState
  peer     : Option Nat
  peerPort : Nat
  retrains : Word
  replays  : DWord
  fec      : DWord
  darkNs   : DWord
  /-- module times of the replays seen (R387: more than 16 within 1 ms retrain the port) -/
  recent   : List DWord
  deriving DecidableEq, Repr

/-- CAUSE: the first cause that came and still holds; 0 when the port is lit (R376). (Log entry 75, DESIGN CHOICE.) -/
def Port.cause (x : Port) : Nat := x.causes.headD 0

/-- A port before start-up relights it: dark with CAUSE 0x05, bounds -2.00 and +2.00 dBm (R376, R390). -/
def Port.reset : Port :=
  { state := .dark, lamA := 0, lamB := 0, tx := 0, rx := 0, lo := 0xFF38, hi := 0x00C8, causes := [5], override := false,
    offA := 0, offB := 0, before := .dark, peer := none, peerPort := 0xFF, retrains := 0, replays := 0, fec := 0, darkNs := 0, recent := [] }

/-- A host link (R383, R385). -/
structure HostLink where
  up       : Bool
  rate     : Nat
  width    : Nat
  flit     : Bool
  sris     : Bool
  retrains : BitVec 8
  /-- an outage: since when, and whether its 50 ms have run out (R383) -/
  outage   : Option (DWord × Bool)
  /-- virtual functions enabled (R456) -/
  numVfs   : Nat
  deriving DecidableEq, Repr

/-- A link after reset. -/
def HostLink.reset : HostLink := ⟨false, 0, 0, false, false, 0, none, 0⟩

/-- An entry of the Beacon status table (R395); an entry absent or not known reads UNKNOWN. -/
structure BeaconEntry where
  pstate : Nat
  mstate : Nat
  risk   : Nat
  ovr    : Nat
  lit    : Nat
  expect : Nat
  heard  : DWord
  known  : Bool
  deriving DecidableEq, Repr

/-- The module states of HEALTH frames (R394). -/
inductive MState where
  | run | resetting | maintenance | fault
  deriving DecidableEq, Repr

/-- The Beacon transceiver's state (R393 to R397, R400 to R403). -/
structure Beacon where
  table   : Tbl BeaconEntry
  seq     : Word
  sent    : List (Word × DWord)
  broken  : Bool
  dropped : Nat
  sleepIgnored : Nat
  mstate  : MState
  /-- the time until dark groups relight that HEALTH frames carry (R394) -/
  expect  : Nat
  deriving DecidableEq, Repr

/-! ## The fabric and the Clearing (13) -/

/-- A route table entry: PORT0 to PORT3 as they stand, 0xFF naming none, and HOPS (R404). -/
structure Route where
  slots : List Nat
  hops  : Nat
  deriving DecidableEq, Repr

/-- An entry that names no port. -/
def Route.none : Route := ⟨List.replicate 4 0xFF, 0⟩

/-- The candidate ports of an entry. -/
def Route.ports (r : Route) : List Nat := r.slots.filter (· != 0xFF)

/-- A message that waits for a route (R408): the die that sends it, none for one of Neriv's or in transit, and since when. -/
structure Waiter where
  die   : Option Nat
  msg   : FabMsg
  since : DWord
  deriving DecidableEq, Repr

/-- A drop region (R414). -/
structure Drop where
  die  : Nat
  sem  : Nat
  len  : Nat
  base : Nat
  deriving DecidableEq, Repr

/-- A member of a collective group (R413). -/
structure Member where
  part : Nat
  die  : Nat
  deriving DecidableEq, Repr

/-- A job slot of an account (R410): the part table's fabric addresses, the joined parts, groups and drops. -/
structure JobSlot where
  job    : Word
  part   : Nat
  table  : List Nat
  jkey   : DWord
  joined : List Nat
  groups : Tbl (List Member)
  drops  : Tbl Drop
  deriving DecidableEq, Repr

/-- A round of a collective on one member of this part (R418): its identity, the descriptor that contributes, its anchor of
pass 0, the pass, what the member contributed at each pass, and the result kept until the package completes: the RESULT
word and the output. -/
structure Round where
  job    : Word
  group  : Nat
  cid    : Word
  round  : Word
  die    : Nat
  desc   : DescId
  base   : Int
  pass   : Nat
  /-- results fixed at earlier passes, one per element (R66, R419) -/
  fixed  : List (Option (Word × Bool × Bool))
  sent   : List Bytes
  result : Option Bytes
  /-- an element has travelled as LONG in some pass (R423) -/
  long   : Bool
  /-- dies of this part's members that have completed the round and whose packages have ended -/
  taken  : List Nat
  /-- the requests to other parts that the next pass waits for (R185) -/
  asked  : Asked
  deriving DecidableEq, Repr

/-- A job barrier on this part (R425, R426). -/
structure Barrier where
  job      : Word
  kind     : BarrierKind
  inst : Word
  /-- READY reports that this part as coordinator has received -/
  ready    : List Nat
  decision : Option Decision
  /-- parts that have acknowledged the decision of this part as coordinator (R425) -/
  acks     : List Nat
  /-- this part has reported -/
  reported : Option Bool
  /-- some report carried WANT, BUSY, or a want of a crossing or request (R441) -/
  want     : Bool
  busy     : Bool
  urgent   : Bool
  /-- some want is that of a crossing (R445) -/
  crossing : Bool
  deriving DecidableEq, Repr

/-- A rerun request of another part that waits for this part's producer rounds to complete (R185): its sender, job, RKEY and pass. -/
structure Owed where
  src  : Nat
  job  : Word
  rkey : Word
  pass : Nat
  deriving DecidableEq, Repr

/-- The module's fabric state (R398 to R414). -/
structure Fabric where
  addr      : Option Nat
  round     : Word
  lastRound : Word
  enumSent  : Option DWord
  full      : Bool
  duplicate : Bool
  routes    : Tbl Route
  /-- candidate ports removed because they are down (R408): address, and places and ports -/
  removed   : Tbl (List (Nat × Nat))
  /-- messages that wait for a route (R408), oldest first -/
  waits     : List Waiter
  /-- rerun requests that have still to be answered (R185) -/
  owed      : List Owed
  slots     : Tbl JobSlot
  rounds    : List Round
  barriers  : List Barrier
  discarded : Nat
  routeLoops : Nat
  /-- joins heard: job, part, digest of the key, part table (R410) -/
  joins     : List (Word × Nat × DWord × List Nat)
  deriving DecidableEq, Repr

/-- The fabric after a COLD reset (R398, R404). -/
def Fabric.reset : Fabric :=
  { addr := none, round := 0, lastRound := 0, enumSent := none, full := false, duplicate := false, routes := [],
    removed := [], waits := [], owed := [], slots := [], rounds := [], barriers := [], discarded := 0, routeLoops := 0,
    joins := [] }

/-! ## Power, clocks and reset (17) -/

/-- The software bounds of the governor (R520). -/
structure Bounds where
  envelope : Nat
  divFast  : Nat
  divSlow  : Nat
  wake     : BitVec 4
  prio     : List Nat
  deriving DecidableEq, Repr

/-- The bounds after a COLD reset (R520). -/
def Bounds.cold : Bounds := ⟨6000, 4, 8, 0xF, List.replicate 8 4⟩

/-- The reset kinds that cover the module (R526). -/
inductive ResetKind where
  | cold | warm
  deriving DecidableEq, Repr

/-- The protections in force (R525), and the module times at which each condition was entered. -/
structure Override where
  /-- sensors of compute dies that hold their die at divider 8, by die and number (R587) -/
  dies     : List (Nat × Nat)
  /-- of those, the ones that reached their limit again there: the die starts no new descriptor, wave or chunk -/
  halted   : List (Nat × Nat)
  ledgers  : List Nat
  hbm      : List Nat
  /-- LPDDR5X devices, by Ledger die and number -/
  lpddr    : List (Nat × Nat)
  current  : Bool
  lasers   : List Nat
  /-- protections whose condition has cleared while dies have still to return within the bounds: the cause and those dies -/
  leaving  : List (Nat × List Nat)
  deriving DecidableEq, Repr

/-- Nothing in force. -/
def Override.none : Override := ⟨[], [], [], [], [], false, [], []⟩

/-- Power states, dividers and the governor (R507 to R525). -/
structure Power where
  pstate   : Nat
  target   : Option Nat
  /-- an exit to P0 is running -/
  exiting  : Bool
  wakeLatch : Bool
  div      : List Nat
  /-- faster dividers decided and waiting for the die's supply (R509) -/
  rising   : Tbl Nat
  /-- the dividers that the governor has chosen for dies that a protection holds at 8 (R532) -/
  chosen   : Tbl Nat
  bounds   : Bounds
  staged   : Option Bounds
  /-- INPUT_W of the evaluations of the last 10 ms, latest first -/
  inputs   : List Nat
  /-- busy fractions of the arrays and vector units of each die, in millionths (R522) -/
  arrBusy  : List Nat
  vecBusy  : List Nat
  /-- since when one more step of each die would stay within 97 % (R523) -/
  headroom : Tbl DWord
  override : Override
  ovrNs    : DWord
  ovrSince : Option DWord
  tripped  : Bool
  inputPresent : Bool
  droops   : List DWord
  /-- when the input or a rail was last seen to droop (R585) -/
  droopAt  : Option DWord
  /-- the reset that start-up is completing, none once mailbox-ready (R530) -/
  resetting : Option ResetKind
  /-- partitions whose reset is running (R529) -/
  partReset : List Nat
  mailboxReady : Bool
  deriving DecidableEq, Repr

/-- The power state during the start-up that follows a COLD reset. (Log entry 7, DESIGN CHOICE.) -/
def Power.cold : Power :=
  { pstate := 0, target := none, exiting := false, wakeLatch := false, div := List.replicate 8 4, rising := [],
    chosen := [], bounds := Bounds.cold, staged := none, inputs := [], droopAt := none, arrBusy := List.replicate 8 0, vecBusy := List.replicate 8 0,
    headroom := [], override := .none, ovrNs := 0, ovrSince := none, tripped := false, inputPresent := true,
    droops := [], resetting := some .cold, partReset := [], mailboxReady := false }

/-! ## Firmware and life cycle (18) -/

/-- A firmware image (R533 to R535): its header and body, version word and security version. -/
structure Image where
  header  : Bytes
  body    : Bytes
  version : Word
  svn     : Nat
  deriving DecidableEq, Repr

/-- The running image and the stored copies of one type: in section 0 of the Strongbox, and their mirrors in section 2 (R533). -/
structure FwType where
  run   : Image
  cur   : Option Image
  prev  : Option Image
  cur2  : Option Image
  prev2 : Option Image
  deriving DecidableEq, Repr

/-- A running image and stored copies that are in both mirrors (R538). -/
def FwType.keep (run : Image) (cur prev : Option Image) : FwType := ⟨run, cur, prev, cur, prev⟩

/-- No image. -/
def Image.none : Image := ⟨[], [], 0, 0⟩

/-- The life-cycle states (R547). -/
inductive LifeCycle where
  | manufactured | provisioned | owned | decommissioned
  deriving DecidableEq, Repr

/-- An activation in progress (R543): types still to be activated in order (1 LEDGER, 2 OPTICS, 0 NERIV), types done,
optics groups still to go (0 to 7 FG, 8 and 9 HG), the image that ran before the type in progress. -/
structure Activation where
  left   : List Nat
  done   : List Nat
  groups : List Nat
  groupsDone : List Nat
  old    : Image
  deriving DecidableEq, Repr

/-- Firmware and life-cycle state (R533 to R551). -/
structure Firmware where
  types     : List FwType
  floor     : Nat
  lock      : Bool
  claims    : Nat
  ownerKey  : Bytes
  lifecycle : LifeCycle
  startFuse : Bool
  doneFuse  : Bool
  recovery  : Bool
  nonce     : Option DWord
  activation : Option Activation
  changing  : Bool
  deriving DecidableEq, Repr

/-! ## The state of the module -/

/-- The mailboxes and commands in flight (16). -/
structure Mail where
  funcs    : List Func
  apers    : List Aper
  /-- functions whose HP_LINK DOWN_SEEN is set (R385) -/
  downSeen : List Nat
  waiting  : List Waiting
  /-- commands taken in a low power state and held until P0 (R515) -/
  heldWake : List Taken
  /-- the function that each front end serves next, and the one that Neriv serves next (R483) -/
  turns    : List Nat
  fwTurn   : Nat
  deriving DecidableEq, Repr

/-- Accounts, partitions, rights and grants (15). -/
structure Tenancy where
  accts    : List Account
  grants   : List Grant
  parts    : List (List Nat)
  modRight : Option Nat
  partRights : List (Option Nat)
  /-- accounts in the stop procedure (R471) -/
  stops    : List Nat
  gaps     : BitVec 16
  deriving DecidableEq, Repr

/-- The network-on-chip and the links between dies (R352, R368 to R370): the flits in the input buffers of links, by link, virtual
channel and hop level, and the retrain events of each link. A link is numbered 16 × the die that sends + the die that receives, 8 + k being the Ledger die k. -/
structure Noc where
  held     : Tbl Nat
  retrains : Tbl Nat
  deriving DecidableEq, Repr

/-- Empty buffers. -/
def Noc.reset : Noc := { held := [], retrains := [] }

/-- Units of the module: memories' health, credits, counters, ports, power, firmware, ring and fabric. -/
structure Chip where
  dieMem   : List DieMem
  hbmCred  : List Credits
  vaultCred : List Credits
  units    : Tbl UnitRec
  counters : List (List Counter)
  samplers : Tbl Sampler
  /-- samples of each scope that were not written since its last record (R560, R561) -/
  missed   : Tbl Nat
  /-- remainders of the sources that count in 2^k (R555), by scope and source -/
  srcRem   : Tbl Nat
  links    : List HostLink
  ports    : List Port
  power    : Power
  fw       : Firmware
  beacon   : Beacon
  fabric   : Fabric
  noc      : Noc
  deriving DecidableEq, Repr

/-! ## Models (10) -/

/-- A tensor of a model's map (R313). -/
structure Tensor where
  layer   : Nat
  group   : Nat
  calFmt  : Nat
  genFmt  : Nat
  gblk    : Bool
  frozen  : Bool
  nogen   : Bool
  srcBf16 : Bool
  img     : Nat
  base    : Nat
  rows    : Nat
  cols    : Nat
  srcOff  : Nat
  srcStride : Nat
  deriving DecidableEq, Repr

/-- A training or generation shard entry (R314). `role` is 0 OWNER, 1 MIRROR, 2 TWIN for training; `se` is the Stream
Engine for generation. -/
structure Shard where
  tensor : Nat
  part   : Nat
  die    : Nat
  role   : Nat
  se     : Nat
  row0   : Nat
  row1   : Nat
  col0   : Nat
  col1   : Nat
  deriving DecidableEq, Repr

/-- An arena entry (R312): bases in bytes, lengths in 64-byte units. -/
structure Arena where
  hbase : Nat
  hlen  : Nat
  vbase : Nat
  vlen  : Nat
  deriving DecidableEq, Repr

/-- What WT_CREATE keeps of a model (R312 to R316): the map, this part's number, the LAYOUT digest (R435) and the mode of
its turns (R331). -/
structure ModelMap where
  acct    : Nat
  num     : Nat
  layers  : Nat
  vocab   : Nat
  job     : Word
  part    : Nat
  parts   : List Nat
  tensors : List Tensor
  shards  : List Shard
  gshards : List Shard
  arenas  : List Arena
  layout  : DWord
  swap    : Bool
  deriving DecidableEq, Repr

/-- A model's weights (R321, R332 to R335). Epoch 0 is NOT_READY; `oldEpoch` 0 is none held. -/
structure Weights where
  ready      : Bool
  staged     : Bool
  gencopy    : Bool
  activeB    : Bool
  slot1      : Bool
  epoch      : Nat
  oldEpoch   : Nat
  turns      : Nat
  lastUs     : Nat
  lastExcess : Nat
  failed     : Nat
  refetches  : Nat
  /-- generation anchor words of the current copy, by tensor, and of the copy of the old epoch -/
  anchors    : List Nat
  oldAnchors : List Nat
  stagedAnch : Tbl Nat
  /-- the wave barrier of R333 is closed -/
  waveShut   : Bool
  /-- new generation-phase packages are held at their prologue (step 1 of R333) -/
  holdPkgs   : Bool
  deriving DecidableEq, Repr

/-- Weights after WT_CREATE (R315). -/
def Weights.create (anchors : List Nat) : Weights :=
  { ready := false, staged := false, gencopy := false, activeB := false, slot1 := false, epoch := 0, oldEpoch := 0,
    turns := 0, lastUs := 0, lastExcess := 0, failed := 0, refetches := 0, anchors := anchors, oldAnchors := [],
    stagedAnch := [], waveShut := false, holdPkgs := false }

/-! ## The Ledger (07) -/

/-- The update states of R218. -/
inductive UState where
  | idle | open | held | torn
  deriving DecidableEq, Repr

/-- A monitor record under way (R245): the three sums with their anchors, flags and counts. -/
structure MonRec where
  flags    : Nat
  elements : Nat
  anchors  : List Int
  sums     : List Shadows
  skips    : Nat
  sats     : Nat
  damped   : Nat
  discards : Nat
  deriving DecidableEq, Repr

/-- An open step on the Ledger (R223 to R241). -/
structure LedStep where
  step    : Word
  gepoch  : Nat
  isSealed : Bool
  deny    : Bool
  limit   : Nat
  /-- the stage: by training shard, by unit of 32 elements in row order, the decoded G (R225, R228) -/
  stage   : Tbl (Tbl (List Word))
  /-- (Ledger, layer) pairs whose pass 1, or pass 2, has run -/
  pass1   : List (Nat × Nat)
  pass2   : List (Nat × Nat)
  begun2  : Bool
  partials : List Wide
  combined : List Wide
  /-- layers whose combined values have arrived, and whether STEP-scope values have -/
  combLayers : List Nat
  combStep : Bool
  /-- the try that a block passed with, by shard and block (R240); 4 is a failed block -/
  damp    : Tbl Nat
  /-- (layer, group) pairs with a failed block on this part, and in the job -/
  failedOwn : List (Nat × Nat)
  failed  : List (Nat × Nat)
  /-- largest result of each reduction record of the step (R238) -/
  amax    : Tbl Word
  mon     : Tbl MonRec
  /-- UPD_COMMIT has arrived -/
  commit  : Bool
  /-- mirror shards of this part whose transfer has landed -/
  mirrors : List Nat
  skips   : Nat
  fallbacks : Nat
  discards : Nat
  deriving DecidableEq, Repr

/-- A model's Ledger state (R218, R219, R238, R245). -/
structure LedModel where
  ustate    : UState
  calibrate : Bool
  seed      : DWord
  nextStep  : Word
  step      : Option LedStep
  /-- the command held under HELD (R223) -/
  heldCmd   : Option Cmd
  /-- reduction anchor records: the amax of the previous step -/
  records   : Tbl Word
  /-- monitor records of the last four committed steps, newest last -/
  mon       : List (Word × List Bytes)
  deriving DecidableEq, Repr

/-- A model's Ledger state before its first load. -/
def LedModel.create : LedModel :=
  { ustate := .idle, calibrate := true, seed := 0, nextStep := 0, step := none, heldCmd := none, records := [], mon := [] }

/-- An FP32 matrix register, row by row (R236). -/
structure Mtx where
  rows : Nat
  cols : Nat
  data : List Word
  deriving DecidableEq, Repr

/-- An instruction of an update program (R235). -/
structure LdgIns where
  op  : Nat
  d   : Nat
  a   : Nat
  b   : Nat
  c   : Nat
  md  : Nat
  imm : Nat
  deriving DecidableEq, Repr

/-- The registers of the block in progress on a Ledger die (R236), with what the block's reductions use: the pass, the
instruction number, combined values of wider scope by instruction, the partial sums of pass 1, the amax of the previous
step and of this step by record (4 × instruction + inner product), θ, and the conditions found. -/
structure LedRegs where
  rows   : Nat
  cols   : Nat
  el     : List (List Word)
  sc     : List Word
  q      : List Mtx
  pc     : Nat
  pass1  : Bool
  comb   : Tbl Word
  parts  : Tbl (Shadows × Word)
  prev   : Tbl Word
  amax   : Tbl Word
  theta  : Word
  singular : Bool
  anchorSat : Bool
  /-- elements of the block's sums so far that saturated at their anchor, that saturated in FP32, and that flags made non-finite -/
  met    : Nat × Nat × Nat
  free   : Nat
  deriving DecidableEq, Repr

/-- The registers of a block of `n` elements before anything is loaded. -/
def LedRegs.blank (rows cols : Nat) : LedRegs :=
  { rows := rows, cols := cols, el := List.replicate 17 (List.replicate (rows * cols) 0), sc := List.replicate 32 0,
    q := List.replicate 4 ⟨0, 0, []⟩, pc := 0, pass1 := false, comb := [], parts := [], prev := [], amax := [],
    theta := 0, singular := false, anchorSat := false, met := (0, 0, 0), free := 0 }

/-- A program slot (R243): its account and instructions. -/
structure ProgSlot where
  acct : Nat
  prog : List LdgIns
  deriving DecidableEq, Repr

/-- A group of the schedule table (R220, R221): its account and its 128-byte entry. -/
structure Group where
  acct : Nat
  raw  : Bytes
  deriving DecidableEq, Repr

/-! ## Generation (08, 09) -/

/-- A pool of frames (R288). -/
structure Pool where
  base   : Nat
  frames : Nat
  deriving DecidableEq, Repr

/-- KV settings of a model (R287) and its pools by member (0 to 31, 4 × die + Stream Engine) and die (R288). -/
structure KvSet where
  ptok     : Nat
  kvRow    : Nat
  kvFmt    : Nat
  publish  : Nat
  shareTag : DWord
  cacheHi  : Nat
  vcacheHi : Nat
  moveRate : Nat
  pools    : Tbl Pool
  vaults   : Tbl Pool
  deriving DecidableEq, Repr

/-- KV settings after a load (R287). -/
def KvSet.create : KvSet :=
  { ptok := 32, kvRow := 0, kvFmt := 1, publish := 0, shareTag := 0, cacheHi := 25, vcacheHi := 50, moveRate := 20,
    pools := [], vaults := [] }

/-- A wave of a frame (R271): its sequences with the drafts taken at its start, and the epoch it binds. -/
structure Wave where
  seqs  : List (Nat × List (Nat × Word))
  epoch : Nat
  deriving DecidableEq, Repr

/-- Generation state of a model (R251, R263, R269, R271, R272). -/
structure GenSet where
  period   : Nat
  wave     : Nat
  maxCtx   : Nat
  lateLimit : Nat
  pauseLimit : Nat
  ring     : Nat
  ringSize : Nat
  utilCap  : Nat
  /-- settings that take effect at the next frame (R263): FIELD and VALUE -/
  staged   : List (Nat × Nat)
  plan     : Option Bytes
  template : Option Pkg
  chunk    : Nat
  /-- the grid runs: start of the current frame and its length in ms -/
  grid     : Option (Nat × Nat)
  /-- waves of the frame not yet started, and the wave that runs -/
  waves    : List Wave
  running  : Option Wave
  deriving DecidableEq, Repr

/-- Generation settings after a load (R263), by class. -/
def GenSet.create (classB : Bool) : GenSet :=
  { period := if classB then 100 else 20, wave := 32, maxCtx := 131072, lateLimit := 0, pauseLimit := 60000, ring := 0,
    ringSize := 0, utilCap := 90, staged := [], plan := none, template := none, chunk := 0, grid := none, waves := [],
    running := none }

/-- The states of R258. -/
inductive SeqState where
  | admitted | prefill | decode | paused | parked | done | cancelled | expired | faulted
  deriving DecidableEq, Repr

/-- Where a page lies: the window slot of the model whose pool or Vault range holds it, whether that is the Vault, the
member or die, and the frame. -/
structure FrameLoc where
  slot  : Nat
  vault : Bool
  unit  : Nat
  frame : Nat
  deriving DecidableEq, Repr

/-- A page of a sequence (R284, R289): its frame, whether it is held by reference, whether the sequence may publish it
(R300), and the tags of its slots (0 FREE, 1 TENTATIVE, 2 COMMITTED). -/
structure Page where
  loc    : FrameLoc
  shared : Bool
  own    : Bool
  tags   : List Nat
  deriving DecidableEq, Repr

/-- A page that a lookup matched outside the home quarter and has not imported (R300): its number, the entry and the frame, and
the page's bytes where the frame has been taken since, for the lookup's reference keeps them (R310). -/
structure Import where
  page  : Nat
  entry : Nat
  loc   : FrameLoc
  kept  : Option Bytes
  deriving DecidableEq, Repr

/-- An entry of the Sequence Table (R257 to R261). -/
structure Seq where
  handle   : Word
  state    : SeqState
  endCause : Nat
  acct     : Nat
  slot     : Nat
  priority : Nat
  classB   : Bool
  home     : Nat
  pos      : Nat
  gen      : Nat
  promptLen : Nat
  maxTokens : Nat
  epoch    : Nat
  ordinal  : DWord
  late     : Nat
  lateRun  : Nat
  reserved : Nat
  /-- RESERVED: the pages reserved at the admission that was granted last (R257, R309) -/
  granted  : Nat
  prefixHit : Nat
  tAdmit   : DWord
  tLast    : DWord
  tag      : DWord
  endSeq   : Word
  specAcc  : Nat
  specRej  : Nat
  ringStall : Nat
  restarts : Nat
  /-- the admit block (R261) -/
  spec     : Nat
  admitWait : Nat
  seed     : DWord
  stream   : Nat
  temp     : Word
  topP     : Word
  topK     : Nat
  stops    : List Nat
  draftMax : Nat
  domain   : Nat
  parkTtl  : Nat
  lifetime : Nat
  /-- prompt and committed tokens -/
  tokens   : List Nat
  drafts   : List (Nat × Word)
  pages    : List Page
  /-- index entries matched and not yet imported (R300) -/
  imports  : List Import
  /-- the membership of a shared domain that the sequence was admitted under: the domain's instance and the number of the account's
  joining (R296) -/
  joined   : Option (Nat × Nat)
  /-- pages from the first on that publication has passed (R302) -/
  published : Nat
  /-- the epoch of the lookup (R301), and whether the first chunk has bound its epoch (R295) -/
  lookup   : Nat
  bound    : Bool
  /-- the admission order, and since when the request waits (R267) -/
  order    : Nat
  since    : DWord
  /-- prefill: the next position, and the chunk that runs -/
  chunkPos : Nat
  chunk    : Option (PkgId × Nat × Nat)
  pinned   : Option Nat
  /-- SEQ_PAUSE waits for the running wave; a park or a restore copies pages; SEQ_CANCEL waits for a chunk -/
  pausing  : Bool
  parking  : Bool
  restoring : Bool
  cancelBy : Option Word
  ttl      : Nat
  /-- LIFETIME has elapsed while a step is in flight (R268) -/
  expired  : Bool
  deriving DecidableEq, Repr

/-- A sharing domain (R296): its instance, the account whose quota it counts in, members, grants (granting member, grantee), how
often accounts have joined, and the number of each member's joining. -/
structure Domain where
  inst    : Nat
  creator : Nat
  members : List Nat
  grants  : List (Nat × Nat)
  joins   : Nat
  stamps  : Tbl Nat
  deriving DecidableEq, Repr

/-- A Prefix Index entry (R299): the domain number (0 private), the instance whose key hashed it, the publishing account,
the model's window slot and epoch, the chained hash, the parent entry (none for the root), the tokens, the frame, and
when it was last matched. -/
structure IdxEntry where
  id     : Nat
  dom    : Nat
  inst   : Nat
  acct   : Nat
  slot   : Nat
  epoch  : Nat
  hash   : DWord
  parent : Option Nat
  tokens : List Nat
  loc    : FrameLoc
  last   : Nat
  deriving DecidableEq, Repr

/-- The Sequence Table, domains and Prefix Index of the module. -/
structure GenState where
  seqs     : Tbl Seq
  ordinal  : DWord
  order    : Nat
  domains  : Tbl Domain
  /-- creation counter of domain keys (R297), and the instance of each account's private domain -/
  domCtr   : Nat
  privInst : Tbl Nat
  index    : List IdxEntry
  idxCtr   : Nat
  clock    : Nat
  /-- sequences whose park has been caused, in the order of the causes (R306) -/
  parks    : List Nat
  deriving DecidableEq, Repr

/-- Nothing admitted. -/
def GenState.reset : GenState :=
  { seqs := [], ordinal := 0, order := 0, domains := [], domCtr := 0, privInst := [], index := [], idxCtr := 1, clock := 0,
    parks := [] }

/-! ## Secure copies (14) -/

/-- The defence of one model on this part (R439 to R446). -/
structure FtModel where
  plan       : Option Bytes
  /-- wants pending: a crossing, an FT_SECURE -/
  crossing   : Bool
  request    : Bool
  /-- flips since the last layer-1 copy, and layer-1 copies since the later layers -/
  flips      : Nat
  copies     : Nat
  deferred   : Bool
  /-- newest committed STEP by layer -/
  newest     : List Word
  /-- later layers' copies: the layer (2 or 3) and the SEQNO that it copies, the one in progress first -/
  later      : List (Nat × Word)
  deriving DecidableEq, Repr

/-- No plan. -/
def FtModel.create : FtModel :=
  { plan := none, crossing := false, request := false, flips := 0, copies := 0, deferred := false,
    newest := [0, 0, 0], later := [] }

/-- A committed checkpoint or export (R434 to R436): its account and model, its commit record, its contents, whether
it is BAD, and whether its pages hold what the NAND's code cannot correct and no read has met yet. -/
structure Ckpt where
  acct   : Nat
  model  : Nat
  record : Bytes
  image  : Bytes
  bad    : Bool
  failing : Bool
  deriving DecidableEq, Repr

/-- A deposit region held for another part (R437). -/
structure Deposit where
  acct  : Nat
  model : Nat
  src   : Nat
  die   : Nat
  vbase : Nat
  len   : Nat
  busy  : Bool
  /-- the depositing part's later copy reads it (R441) -/
  read  : Bool
  deriving DecidableEq, Repr

/-- The newest deposit of a model of an account that a partner holds: its record, as the partner acknowledged it, and its contents, as the
partner's region returns them to a later layer's copy (R432, R442). -/
structure Sent where
  acct   : Nat
  model  : Nat
  record : Bytes
  image  : Bytes
  deriving DecidableEq, Repr

/-- Risk, checkpoints and deposits of the module. -/
structure FtState where
  /-- C, T, O, L, D and RISK (R429, R430) -/
  risk     : List Nat
  ckpts    : List Ckpt
  deposits : List Deposit
  sent     : List Sent
  /-- SEQNO of the last copy, by 65,536 × account + model -/
  seqnos   : Tbl Word
  /-- accounts and models that have lost a part: parts raised as PART_LOST, by account (R450) -/
  partLost : List (Nat × Word × Nat)
  /-- codewords corrected in the last 10 s, with the module times at which they were counted (R351, R429) -/
  corrected : List (DWord × Nat)
  /-- module times of the SRAM parity detections of the last 10 s, of the retrains of the last 60 s, and of the row
  retirements and repairs of the last 600 s (R429) -/
  detected : List DWord
  retrains : List DWord
  retired  : List DWord
  /-- when a laser last darkened its port under CAUSE 0x06 (R429) -/
  laserDark : Option DWord
  deriving DecidableEq, Repr

/-! ## Moving operations (01, 10, 14) -/

/-- The kinds of moving operation, with the codes of WT_QUERY's OP (R321). -/
inductive MoveKind where
  | load | turn | learn | rebuild | drain | restore
  deriving DecidableEq, Repr

/-- Where a moving operation stands: waiting for what its first step waits for, at its entry barrier, moving, or
reported READY at its last barrier. -/
inductive MoveStage where
  | blocked | entry | moving | barrier
  deriving DecidableEq, Repr

/-- A secure copy in progress or a restore (R442, R447): the layer's KIND code, the record and contents noted at the
snapshot, whether it serves a crossing or a request, the source, STEP, PEER and host address. -/
structure CopyJob where
  kind   : Nat
  record : Bytes
  image  : Bytes
  crossing : Bool
  request : Bool
  /-- layers that the drain has read -/
  read   : List Nat
  source : Nat
  step   : Word
  peer   : Nat
  addr   : Nat
  deriving DecidableEq, Repr

/-- A moving operation (R39): the model's window slot, an identity for the command that waits, its limit in ms, the
segment cursor (shard and segment), refetches of the segment and in total, layers landed and minted, whether an in-place
write has happened, whether it rebuilds after a failed INPLACE turn, the target slot, module times of time zero and of
the end of the drain, the time under override at time zero, the failure (status, part, tensor), the image bases, a new
generation map, the barrier instances used, and the secure copy. -/
structure MoveOp where
  slot    : Nat
  id      : Nat
  kind    : MoveKind
  limit   : Nat
  stage   : MoveStage
  shard   : Nat
  seg     : Nat
  /-- refetches of the segment that a load fetches (R326) -/
  tries   : Nat
  /-- refetches of a reshard's segments, by number (R330, R342) -/
  refetch : Tbl Nat
  /-- holders that could not read a reshard's segment, by number: the next one supplies it (R371) -/
  passed  : Tbl Nat
  /-- segments whose landed rows have failed: they are fetched again first (R342) -/
  redo    : List Nat
  refetched : Nat
  landed  : List Nat
  minted  : List Nat
  wrote   : Bool
  again   : Bool
  toSlot1 : Bool
  t0      : Option DWord
  drained : Option DWord
  ovr0    : DWord
  fail    : Option (Status × Nat × Nat)
  /-- the turn's own failure while a rebuild repairs the copy (R337) -/
  after   : Option (Status × Nat)
  imgs    : List Nat
  newMap  : Option (List Shard × List Nat)
  inst    : Word
  copy    : Option CopyJob
  /-- the mailbox SEQNO of the command that asked for it, none for a rebuild of the part's own (R39) -/
  seqno   : Option Word
  /-- the model's storage as a load found it, for a load that leaves no change (R18) -/
  undo    : Memory
  deriving DecidableEq, Repr

/-- A partition's moving operations (R39). -/
structure PartMoves where
  running : Option MoveOp
  queue   : List MoveOp
  deriving DecidableEq, Repr

/-- A model in a window slot (R315). -/
structure Model where
  map  : ModelMap
  w    : Weights
  led  : LedModel
  kv   : KvSet
  gen  : GenSet
  ft   : FtModel
  /-- the amax table (R564), and the entries that the last flip left to roll (R565) -/
  amax   : Tbl Amax
  unrolled : List Nat
  deriving DecidableEq, Repr

/-- The Ledger dies: program slots, the schedule table, the block registers of each die, and Q3 of each block by model
slot, shard and block (R236). -/
structure LedgerState where
  slots  : Tbl ProgSlot
  groups : Tbl Group
  regs   : List LedRegs
  q3     : Tbl Mtx
  deriving DecidableEq, Repr

/-- The whole state: the queue of commands, what has left the part, the counter of free values, module time, memory, and
the groups above. -/
structure State where
  pending : List Instr
  out     : List Out
  freeCtr : Nat
  mtime   : DWord
  mem     : Memory
  mail    : Mail
  ten     : Tenancy
  chip    : Chip
  cores   : List Core
  pkgs    : List Pkg
  /-- packages accepted since reset (R172) -/
  pkgOrder : Nat
  /-- the account that the round robin of each engine serves next, by engine (R172) -/
  svcTurn : Tbl Nat
  /-- accesses that have asked for a credit and not been granted one, in order of arrival (R358, R360, R362) -/
  demand  : List CreditReq
  /-- models by window slot, 0 to 63 (R321) -/
  models  : Tbl Model
  moves   : List PartMoves
  moveCtr : Nat
  led     : LedgerState
  gens    : GenState
  ft      : FtState
  deriving DecidableEq, Repr

/-! ## Reset -/

/-- The accounts after a COLD reset in OWNED (R456). -/
def acctsCold : List Account :=
  (List.range 1024).map fun a =>
    if a % 256 == 0 then { Account.fresh with state := .enabled, quota := Quota.default }
    else { Account.fresh with causes := { Causes.clear with absent := true } }

/-- A firmware type as delivered (log entry 6, DESIGN CHOICE). -/
def FwType.delivered : FwType :=
  let i : Image := ⟨[], [], 0x01000000, 0⟩
  FwType.keep i (some i) none

/-- Firmware and fuses as delivered to an owner (log entry 6, DESIGN CHOICE). -/
def Firmware.delivered : Firmware :=
  { types := List.replicate 3 FwType.delivered, floor := 0, lock := false, claims := 15,
    ownerKey := List.replicate 96 0, lifecycle := .owned, startFuse := false, doneFuse := false, recovery := false,
    nonce := none, activation := none, changing := false }

/-- The mailboxes after a reset that covers them. -/
def Mail.reset : Mail :=
  { funcs := List.replicate 1024 Func.reset, apers := List.replicate 1024 Aper.reset, downSeen := [], waiting := [],
    heldWake := [], turns := List.replicate 4 0, fwTurn := 0 }

/-- Accounts, partitions and rights after a COLD reset (R456, R458): no partition has dies, no right is held yet. -/
def Tenancy.cold : Tenancy :=
  { accts := acctsCold, grants := [], parts := List.replicate 8 [], modRight := none,
    partRights := List.replicate 8 none, stops := [], gaps := 0 }

/-- The Beacon transceiver after a COLD reset. -/
def Beacon.reset : Beacon :=
  { table := [], seq := 0, sent := [], broken := false, dropped := 0, sleepIgnored := 0, mstate := .resetting,
    expect := 0xFFFF }

/-- The units of the module after a COLD reset. -/
def Chip.cold : Chip :=
  { dieMem := List.replicate 8 DieMem.reset, hbmCred := List.replicate 8 Credits.hbm,
    vaultCred := List.replicate 8 Credits.vault, units := [],
    counters := List.replicate 9 (List.replicate 32 Counter.reset), samplers := [], missed := [], srcRem := [],
    links := List.replicate 4 HostLink.reset, ports := List.replicate 69 Port.reset, power := Power.cold,
    fw := Firmware.delivered, beacon := Beacon.reset, fabric := Fabric.reset, noc := Noc.reset }

/-- The Ledger dies after reset. -/
def LedgerState.reset : LedgerState :=
  { slots := [], groups := [], regs := List.replicate 4 (LedRegs.blank 0 0), q3 := [] }

/-- No risk, no copy. -/
def FtState.reset : FtState :=
  { risk := List.replicate 6 0, ckpts := [], deposits := [], sent := [], seqnos := [], partLost := [], corrected := [], detected := [], retrains := [],
    retired := [], laserDark := none }

/-- The module right after a COLD reset, during the start-up that MAILBOX_READY ends (log entry 5, DESIGN CHOICE). -/
def State.reset : State :=
  { pending := [], out := [], freeCtr := 0, mtime := 0, mem := [], mail := Mail.reset, ten := Tenancy.cold,
    chip := Chip.cold, cores := List.replicate 128 Core.reset, pkgs := [], pkgOrder := 0, svcTurn := [], demand := [],
    models := [], moves := List.replicate 8 ⟨none, []⟩, moveCtr := 0, led := LedgerState.reset,
    gens := GenState.reset, ft := FtState.reset }

end Sys2Proof.Machine
end

