-- ==== Sys2Proof/Machine/Ops.lean ====
section
/-!
DEFINITION. The named operations over memory, tables, functions and accounts that every meaning is written with:
reads and writes of internal addresses (11 R343 to R347), notifications (16 R495 to R499), the completion of a command
(R481), and the common course of a mailbox command (R485, R490, R516, R547, R598).
-/
namespace Sys2Proof.Machine

/-! ## Tables -/

/-- The value at a key. -/
def tget {α : Type} (t : Tbl α) (k : Nat) : Option α := t.lookup k
/-- The value at a key, or a default. -/
def tgetD {α : Type} (t : Tbl α) (k : Nat) (d : α) : α := (t.lookup k).getD d
/-- Remove a key. -/
def terase {α : Type} (t : Tbl α) (k : Nat) : Tbl α := t.filter fun p => p.1 != k
/-- Set the value at a key. -/
def tset {α : Type} (t : Tbl α) (k : Nat) (v : α) : Tbl α :=
  t.filter (fun p => decide (p.1 < k)) ++ (k, v) :: t.filter fun p => decide (k < p.1)
/-- Change an element of a list. -/
def lmod {α : Type} (l : List α) (i : Nat) (f : α → α) : List α := l.modify i f

/-! ## Free values -/

/-- The next free value, and the state that has used it (log entry 3, DESIGN CHOICE). -/
def State.free (s : State) : DWord × State := (Config.freeValue s.freeCtr, { s with freeCtr := s.freeCtr + 1 })

/-! ## Memory by storage key -/

/-- The byte at a key. (Log entry 4, DESIGN CHOICE.) -/
def Memory.get (m : Memory) (k : Nat) : Byte := (m.lookup k).getD 0

/-- The cells of bytes from a key, zero bytes left out. -/
def cellsOf : Nat → Bytes → Memory
  | _, [] => []
  | k, b :: bs => if b == 0 then cellsOf (k + 1) bs else (k, b) :: cellsOf (k + 1) bs

/-- Write consecutive bytes from a key. -/
def Memory.put (m : Memory) (k : Nat) (bs : Bytes) : Memory :=
  m.filter (fun c => decide (c.1 < k)) ++ cellsOf k bs ++ m.filter fun c => decide (k + bs.length ≤ c.1)

/-- Zero a range of keys. -/
def Memory.clear (m : Memory) (k n : Nat) : Memory := m.filter fun c => decide (c.1 < k) || decide (k + n ≤ c.1)

/-- `n` bytes from a key. -/
def Memory.bytes (m : Memory) (k n : Nat) : Bytes :=
  let w := m.filter fun c => decide (k ≤ c.1) && decide (c.1 < k + n)
  (List.range n).map fun i => Memory.get w (k + i)

/-! ## The address map (R343, R345) -/

/-- The spaces of R343. -/
inductive Loc where
  | hbm (die off : Nat)
  | vault (die off : Nat)
  | dieSram (die off : Nat)
  | coreSram (core off : Nat)
  | window (slot : Nat) (gen : Bool) (off : Nat)
  | host (port off : Nat)
  deriving DecidableEq, Repr

/-- The base of the striped HBM view, the quarter view, the Vault, die SRAM and core SRAM (R343). -/
def quarterBase : Nat := 0x10000000000
/-- The base of the Vault shares. -/
def vaultBase : Nat := 0x20000000000
/-- The base of shared die SRAM. -/
def dieSramBase : Nat := 0x30000000000
/-- The base of core SRAM. -/
def coreSramBase : Nat := 0x30800000000
/-- The base of the weight windows. -/
def windowBase : Nat := 0x800000000000
/-- The base of host memory. -/
def hostBase : Nat := 0x1000000000000

/-- The striped offset within a die of a quarter-view offset (R345). -/
def stripedOf (quarter off : Nat) : Nat :=
  let band := off / 2 ^ 24
  let g := off / 512 % 2 ^ 15
  let chan := 16 * quarter + g % 16
  band * 2 ^ 26 + ((g / 16) * 64 + chan) * 512 + off % 512

/-- Where an internal address lies; none for every reserved address (R343). -/
def locOf (a : Nat) : Option Loc :=
  if a < quarterBase then
    if a % 2 ^ 37 < 96 * 2 ^ 30 then some (.hbm (a / 2 ^ 37) (a % 2 ^ 37)) else none
  else if a < vaultBase then
    let o := a - quarterBase
    if o % 2 ^ 35 < 24 * 2 ^ 30 then some (.hbm (o / 2 ^ 37) (stripedOf (o / 2 ^ 35 % 4) (o % 2 ^ 35))) else none
  else if a < dieSramBase then some (.vault ((a - vaultBase) / 2 ^ 37) ((a - vaultBase) % 2 ^ 37))
  else if a < coreSramBase then
    let o := a - dieSramBase
    if o < 2 ^ 31 && o % 2 ^ 28 < 2 ^ 27 then some (.dieSram (o / 2 ^ 28) (o % 2 ^ 28)) else none
  else if a < coreSramBase + 2 ^ 31 then
    let o := a - coreSramBase
    if o % 2 ^ 24 < 2 ^ 23 then some (.coreSram (o / 2 ^ 24) (o % 2 ^ 24)) else none
  else if windowBase ≤ a ∧ a < hostBase then
    let o := a - windowBase
    some (.window (o / 2 ^ 41) (o / 2 ^ 40 % 2 == 1) (o % 2 ^ 40))
  else if hostBase ≤ a ∧ a < 5 * 2 ^ 48 then some (.host ((a - hostBase) / 2 ^ 48) (a % 2 ^ 48))
  else none

/-- The die that holds a byte of on-part memory (R343). -/
def Loc.die : Loc → Option Nat
  | .hbm d _ | .vault d _ | .dieSram d _ => some d
  | .coreSram c _ => some (c / 16)
  | .window _ _ _ | .host _ _ => none

/-- The die that holds an internal address. -/
def dieOf (a : Nat) : Option Nat := match locOf a with
  | some l => l.die
  | none => none

/-- The storage key of an internal address: the striped address of an HBM byte, whichever view names it (R345), and the
address itself elsewhere. -/
def keyOf (a : Nat) : Nat :=
  if quarterBase ≤ a ∧ a < vaultBase then
    let o := a - quarterBase
    o / 2 ^ 37 * 2 ^ 37 + stripedOf (o / 2 ^ 35 % 4) (o % 2 ^ 35)
  else a

/-- The internal address of a byte of core SRAM. -/
def coreAddr (core off : Nat) : Nat := coreSramBase + core * 2 ^ 24 + off

/-- The storage keys above the 52-bit map that hold a model's part-laid arena (R348): the high-half buffers A and B, the
copy slots 0 and 1, the landing area, and the Vault low halves and states, of each window slot. -/
def modelKey (slot area off : Nat) : Nat := 2 ^ 60 + (slot * 16 + area) * 2 ^ 44 + off

/-- The byte of an internal address. -/
def State.byteAt (s : State) (a : Nat) : Byte := Memory.get s.mem (keyOf a)

/-- A range of internal addresses cut into runs whose storage keys are consecutive: runs of 8 KiB in the quarter view
(R345), the whole range elsewhere. -/
def pieces (a n : Nat) : List (Nat × Nat) :=
  if quarterBase ≤ a ∧ a < vaultBase then
    (List.range ((a + n + 8191) / 8192 - a / 8192)).map fun i =>
      let p := if i == 0 then a else (a / 8192 + i) * 8192
      (keyOf p, min ((p / 8192 + 1) * 8192) (a + n) - p)
  else [(a, n)]

/-- `n` bytes of memory from an internal address. -/
def Memory.load (m : Memory) (a n : Nat) : Bytes := (pieces a n).flatMap fun p => Memory.bytes m p.1 p.2

/-- `n` bytes read from an internal address. -/
def State.read (s : State) (a n : Nat) : Bytes := s.mem.load a n

/-- Write bytes over runs of storage keys. -/
def Memory.putRuns (m : Memory) : List (Nat × Nat) → Bytes → Memory
  | [], _ => m
  | p :: ps, bs => Memory.putRuns (m.put p.1 (bs.take p.2)) ps (bs.drop p.2)

/-- Memory with bytes written at an internal address. -/
def Memory.store (m : Memory) (a : Nat) (bs : Bytes) : Memory := m.putRuns (pieces a bs.length) bs

/-- Memory with a range zeroed. -/
def Memory.wipe (m : Memory) (a n : Nat) : Memory := (pieces a n).foldl (fun m p => m.clear p.1 p.2) m

/-- Two ranges of internal addresses share a byte, in whichever views they are named (R345). -/
def rangesMeet (a n b m : Nat) : Bool :=
  (pieces a n).any fun p => (pieces b m).any fun q => decide (p.1 < q.1 + q.2) && decide (q.1 < p.1 + p.2)

/-- The bytes of channel quarter `q` below a striped offset within a die (R345). -/
def quarterUpTo (q x : Nat) : Nat := x / 32768 * 8192 + min 8192 (x % 32768 - 8192 * q)

/-- A range of internal addresses reaches the aligned line of `w` bytes that holds a storage key, in whichever view it is
named (R345). -/
def touches (w a n k : Nat) : Bool :=
  let line := k / w * w
  if quarterBase ≤ a ∧ a < vaultBase then
    let o := a - quarterBase
    let q := o / 2 ^ 35 % 4
    let y := quarterUpTo q (line % 2 ^ 37)
    decide (k < quarterBase) && k / 2 ^ 37 == o / 2 ^ 37 && k % 32768 / 8192 == q && decide (y < o % 2 ^ 35 + n) &&
    decide (o % 2 ^ 35 < y + w)
  else decide (a < line + w) && decide (line < a + n)

/-- Codewords of HBM and the Vault are the 64-byte lines of storage keys (log entry 139, DESIGN CHOICE). -/
def touchesCode (a n k : Nat) : Bool := decide (0 < n) && touches 64 a n k

/-- A die's memory health after a write: the codewords that the write reaches read again, and the SRAM words that it covers
hold what was written (R353, R355). -/
def DieMem.mend (a n : Nat) (m : DieMem) : DieMem :=
  let stays := fun (k : Nat) => !touchesCode a n k
  { m with poisoned := m.poisoned.filter stays, failing := m.failing.filter stays,
           corrupt := m.corrupt.filter fun k => !(decide (a ≤ k) && decide (k + 4 ≤ a + n)) }

/-- A write mends what it reaches. -/
def Chip.mend (c : Chip) (a n : Nat) : Chip :=
  match dieOf a with
  | some d => { c with dieMem := lmod c.dieMem d (DieMem.mend a n) }
  | none => c

/-- Write bytes at an internal address. -/
def State.write (s : State) (a : Nat) (bs : Bytes) : State :=
  { s with mem := s.mem.store a bs, chip := s.chip.mend a bs.length }

/-- `n` free bytes from a count. -/
def freeBytes (ctr n : Nat) : Bytes := (List.range n).map fun i => (Config.freeValue (ctr + i)).setWidth 8

/-- A range of memory takes unspecified values. -/
def State.scramble (s : State) (a n : Nat) : State :=
  { s.write a (freeBytes s.freeCtr n) with freeCtr := s.freeCtr + n }

/-- A little-endian number read from an internal address. -/
def State.readNat (s : State) (a n : Nat) : Nat := leNat (s.read a n)

/-! ## Functions and accounts -/

/-- The mailbox of a function. -/
def State.func (s : State) (fn : Nat) : Func := s.mail.funcs.getD fn Func.reset
/-- The aperture registers of a function. -/
def State.aper (s : State) (fn : Nat) : Aper := s.mail.apers.getD fn Aper.reset
/-- An account. -/
def State.acct (s : State) (a : Nat) : Account := s.ten.accts.getD a Account.fresh
/-- Change a function's mailbox. -/
def State.onFunc (s : State) (fn : Nat) (f : Func → Func) : State :=
  { s with mail := { s.mail with funcs := lmod s.mail.funcs fn f } }
/-- Change a function's aperture registers. -/
def State.onAper (s : State) (fn : Nat) (f : Aper → Aper) : State :=
  { s with mail := { s.mail with apers := lmod s.mail.apers fn f } }
/-- Change an account. -/
def State.onAcct (s : State) (a : Nat) (f : Account → Account) : State :=
  { s with ten := { s.ten with accts := lmod s.ten.accts a f } }
/-- Change the power state. -/
def State.onPower (s : State) (f : Power → Power) : State := { s with chip := { s.chip with power := f s.chip.power } }
/-- Change firmware state. -/
def State.onFw (s : State) (f : Firmware → Firmware) : State := { s with chip := { s.chip with fw := f s.chip.fw } }
/-- Change the Beacon state. -/
def State.onBeacon (s : State) (f : Beacon → Beacon) : State :=
  { s with chip := { s.chip with beacon := f s.chip.beacon } }
/-- Change the fabric state. -/
def State.onFabric (s : State) (f : Fabric → Fabric) : State :=
  { s with chip := { s.chip with fabric := f s.chip.fabric } }
/-- A port. -/
def State.port (s : State) (p : Nat) : Port := s.chip.ports.getD p Port.reset
/-- Change a port. -/
def State.onPort (s : State) (p : Nat) (f : Port → Port) : State :=
  { s with chip := { s.chip with ports := lmod s.chip.ports p f } }
/-- A host link. -/
def State.link (s : State) (p : Nat) : HostLink := s.chip.links.getD p HostLink.reset
/-- Change a host link. -/
def State.onLink (s : State) (p : Nat) (f : HostLink → HostLink) : State :=
  { s with chip := { s.chip with links := lmod s.chip.links p f } }
/-- A Matrix Core. -/
def State.core (s : State) (i : Nat) : Core := s.cores.getD i Core.reset
/-- Change a Matrix Core. -/
def State.onCore (s : State) (i : Nat) (f : Core → Core) : State := { s with cores := lmod s.cores i f }
/-- A die's memory health. -/
def State.dieMem (s : State) (d : Nat) : DieMem := s.chip.dieMem.getD d DieMem.reset
/-- Change a die's memory health. -/
def State.onDieMem (s : State) (d : Nat) (f : DieMem → DieMem) : State :=
  { s with chip := { s.chip with dieMem := lmod s.chip.dieMem d f } }
/-- Something leaves the part. (Log entry 27, DESIGN CHOICE.) -/
def State.emit (s : State) (o : Out) : State := { s with out := s.out ++ [o] }

/-- The host port of a function (R455). -/
def portOf (fn : Nat) : Nat := fn / 256
/-- A function exists: the physical function, or a virtual function that is enabled (R456). -/
def State.fnExists (s : State) (fn : Nat) : Bool := fn % 256 == 0 || decide (fn % 256 ≤ (s.link (portOf fn)).numVfs)
/-- The dies of a partition. -/
def State.partDies (s : State) (p : Nat) : List Nat := s.ten.parts.getD p []
/-- The dies of an account's partition, in ascending order (R155). -/
def State.acctDies (s : State) (a : Nat) : List Nat := s.partDies (s.acct a).quota.partition
/-- The partition that names a die (R461). -/
def State.dieOwner (s : State) (d : Nat) : Option Nat := (List.range 8).find? fun p => (s.partDies p).contains d
/-- The account holds the right of the module (R458). -/
def State.hasModRight (s : State) (a : Nat) : Bool := s.ten.modRight == some a
/-- The account may use the right of a partition: it holds it, or holds the module's right while none does (R458). -/
def State.hasPartRight (s : State) (a p : Nat) : Bool :=
  match s.ten.partRights.getD p none with
  | some b => a == b
  | none => s.hasModRight a
/-- The PARTITION reset of an account's partition is running (R529). -/
def State.acctResetting (s : State) (a : Nat) : Bool := s.chip.power.partReset.contains (s.acct a).quota.partition
/-- The enabled accounts of a partition. -/
def State.enabledOf (s : State) (p : Nat) : List Nat :=
  (List.range 1024).filter fun a => (s.acct a).state == .enabled && (s.acct a).quota.partition == p
/-- Every enabled account. -/
def State.enabledAll (s : State) : List Nat := (List.range 1024).filter fun a => (s.acct a).state == .enabled

/-! ## Units of memory (R347, R465) -/

/-- The granted unit that holds a byte: pool, die and unit number; none for memory that no account can hold. -/
def unitOf (a : Nat) : Option (Nat × Nat × Nat) :=
  match locOf a with
  | some (.hbm d o) =>
    -- band 1,535 belongs to the part (R346)
    if o / 2 ^ 26 ≥ 1535 then none else some (0, d, 4 * (o / 2 ^ 26) + (o / 512) % 64 / 16)
  | some (.vault d o) => some (1, d, o / 2 ^ 24)
  | some (.dieSram d o) => some (2, d, o / 2 ^ 20)
  | _ => none

/-- The account that holds a unit. -/
def State.unitOwner (s : State) (pool die unit : Nat) : Option Nat :=
  (s.ten.grants.find? fun g => g.pool == pool && g.die == die && g.unit == unit).map (·.acct)

/-- The units that a range of internal addresses needs: every slice of every band that a striped range touches, and the
units it touches elsewhere (R347). -/
def unitsOf (a n : Nat) : List (Option (Nat × Nat × Nat)) :=
  if a < quarterBase then
    (List.range ((a + n - 1) / 2 ^ 26 - a / 2 ^ 26 + 1)).flatMap fun i =>
      (List.range 4).map fun q => unitOf ((a / 2 ^ 26 + i) * 2 ^ 26 + q * 2 ^ 13)
  else
    let g := if a < dieSramBase then 2 ^ 24 else 2 ^ 20
    (List.range ((a + n - 1) / g - a / g + 1)).map fun i => unitOf ((a / g + i) * g)

/-- The two ends of a range lie in the map, in one space of it (R343). -/
def rangeMapped (a n : Nat) : Bool :=
  match locOf a, locOf (a + n - 1) with
  | some (.hbm d _), some (.hbm d' _) => d == d' && (decide (a < quarterBase) || a / 2 ^ 35 == (a + n - 1) / 2 ^ 35)
  | some (.vault d _), some (.vault d' _) => d == d'
  | some (.dieSram d _), some (.dieSram d' _) => d == d'
  | some (.coreSram c _), some (.coreSram c' _) => c == c'
  | some (.window w g _), some (.window w' g' _) => w == w' && g == g'
  | some (.host p _), some (.host p' _) => p == p'
  | _, _ => false

/-- The range lies wholly in the account's host space (R344). -/
def inHostSpace (acct a n : Nat) : Bool :=
  match locOf a, locOf (a + n - 1) with
  | some (.host p _), some (.host p' _) => p == portOf acct && p' == portOf acct
  | _, _ => false

/-- The model in a window slot. -/
def State.model (s : State) (slot : Nat) : Option Model := tget s.models slot
/-- Change the model of a window slot. -/
def State.onModel (s : State) (slot : Nat) (f : Model → Model) : State :=
  { s with models := s.models.map fun p => if p.1 == slot then (p.1, f p.2) else p }
/-- The window slot of a model that an account has created. -/
def State.slotOf (s : State) (acct num : Nat) : Option Nat :=
  (s.models.find? fun p => p.2.map.acct == acct && p.2.map.num == num).map (·.1)

/-- The arenas of a model (R317): an HBM arena or a Vault arena of length 0 is none. -/
def Model.arenaRanges (m : Model) : List (Nat × Nat) :=
  (m.map.arenas.flatMap fun a => [(a.hbase, 64 * a.hlen), (a.vbase, 64 * a.vlen)]).filter fun r => r.2 != 0

/-- Ranges that are in no account's memory: arenas and deposit regions (R317, R437, R467). -/
def State.partHeld (s : State) : List (Nat × Nat) :=
  s.models.flatMap (fun p => p.2.arenaRanges) ++ s.ft.deposits.map fun d => (d.vbase, d.len)

/-- The range lies wholly in the account's granted HBM, Vault and die SRAM units, outside arenas and deposit regions
(R467, R598). -/
def State.inGrants (s : State) (acct a n : Nat) : Bool :=
  decide (0 < n) && rangeMapped a n &&
  (unitsOf a n).all (fun u => match u with
    | some (p, d, u) => s.unitOwner p d u == some acct
    | none => false) &&
  !(s.partHeld.any fun r => decide (0 < r.2) && rangesMeet a n r.1 r.2)

/-- The range lies wholly in the caller's account memory (R598). -/
def State.inAccount (s : State) (acct a n : Nat) : Bool :=
  decide (0 < n) && decide (a + n ≤ 2 ^ 52) && (inHostSpace acct a n || s.inGrants acct a n)

/-! ## Units (R500 to R502) -/

/-- The record of a unit. -/
def State.unit (s : State) (kind index : Nat) : UnitRec := tgetD s.chip.units (256 * kind + index) UnitRec.reset
/-- Change the record of a unit. -/
def State.onUnit (s : State) (kind index : Nat) (f : UnitRec → UnitRec) : State :=
  { s with chip := { s.chip with units := tset s.chip.units (256 * kind + index) (f (s.unit kind index)) } }
/-- A unit is in service: neither fenced, reconciling nor out of service. -/
def State.unitServes (s : State) (kind index : Nat) : Bool := (s.unit kind index).mgmt == 0

/-- A port that carries traffic: UP or DEGRADED, and not fenced (R404, R405, R502). -/
def portCarries (s : State) (p : Nat) : Bool :=
  ((s.port p).state == .up || (s.port p).state == .degraded) && s.unitServes 6 p

/-- A die reaches a fabric address: some candidate port of the route sits on it and carries, for a fabric port carries traffic only
for its own die (R24, R404, R408). (Log entry 131, DESIGN CHOICE.) -/
def State.dieReaches (s : State) (die dst : Nat) : Bool :=
  match tget s.chip.fabric.routes dst with
  | some r => r.ports.any fun p => p / 8 == die && portCarries s p
  | none => false

/-- No candidate port of a destination carries traffic (R404, R408). -/
def noRoute (s : State) (addr : Nat) : Bool := (tgetD s.chip.fabric.routes addr Route.none).ports.all fun p => !portCarries s p

/-- The virtual channel of a message on the fabric, in the order of R368: XFR for the data of transfers, CTL for the rest (R406). -/
def fabricVc (kind : Nat) : Nat := if kind ∈ [2, 3, 11, 12, 13, 14] then 2 else 3

/-- A message finds a candidate port: one of its die's, where a die sends it (R24), and any of the module's otherwise. -/
def Waiter.open (w : Waiter) (s : State) : Bool := match w.die with
  | some d => s.dieReaches d w.msg.dst
  | none => !noRoute s w.msg.dst

/-- A message leaves over a candidate port, or waits for a route (R405, R408). -/
def launch (w : Waiter) (s : State) : State :=
  if w.open s then s.emit (.fabric w.msg) else s.onFabric fun f => { f with waits := f.waits ++ [w] }

/-- Messages whose routes have come back leave (R408). -/
def flushWaits (s : State) : State := s.chip.fabric.waits.foldl (fun s w => launch w s) (s.onFabric fun f => { f with waits := [] })

/-- The part sends a message to an address, stamped with its own address and a job; its first hop is on level 0 (R406, R411).
(Log entry 168, DESIGN CHOICE.) -/
def sendTo (die : Option Nat) (dst : Nat) (job : Word) (kind : Nat) (data : Bytes) (s : State) : State :=
  launch ⟨die, ⟨s.chip.fabric.addr.getD 0, dst, job, fabricVc kind, 0, kind, data⟩, s.mtime⟩ s

/-- The memories of a unit that is fenced fail requests (R502): die memory, an HBM stack by its half of the die's
channels (R345), the Vault of a Ledger die, and the SRAM of a core. -/
def State.unitFails (s : State) (a : Nat) : Bool :=
  match locOf a with
  | some (.hbm d o) => !s.unitServes 1 d || !s.unitServes 5 (2 * d + o / 512 % 64 / 32)
  | some (.vault d _) => !s.unitServes 4 (d / 2)
  | some (.dieSram d _) => !s.unitServes 1 d
  | some (.coreSram c _) => !s.unitServes 1 (c / 16) || !s.unitServes 2 c
  | _ => false

/-- Accesses through a host port that is not UP fail once its outage has run out, and from a reset on until it has been UP
(R383). (Log entry 72, DEDUCED.) -/
def State.hostDead (s : State) (a : Nat) : Bool :=
  match locOf a with
  | some (.host p _) => !(s.link p).up && (match (s.link p).outage with
    | some (_, gone) => gone
    | none => true)
  | _ => false

/-- An access through a host port that has left UP waits until its outage has run out (R383): its row has no effect and comes again
(log entry 109, DESIGN CHOICE). -/
def State.hostWaits (s : State) (a : Nat) : Bool :=
  match locOf a with
  | some (.host p _) => !(s.link p).up && (match (s.link p).outage with
    | some (_, gone) => !gone
    | none => false)
  | _ => false


/-- A range reaches memory of a fenced unit. -/
def State.rangeFails (s : State) (a n : Nat) : Bool :=
  (List.range ((min n 32768 + 511) / 512)).any fun i => s.unitFails (a + 512 * i) || s.unitFails (a + n - 1)

/-- A range holds a corrupt word of SRAM, or a codeword that the memory's ECC cannot correct (R353, R355). -/
def State.damagedIn (s : State) (a n : Nat) : Bool :=
  match dieOf a with
  | some d =>
    let m := s.dieMem d
    (m.poisoned.any fun k => touchesCode a n k) || (m.failing.any fun k => touchesCode a n k) ||
    m.corrupt.any fun k => decide (0 < n) && touches 4 a n k
  | none => false

/-- A unit of memory is withdrawn from its account at the next reset that wipes it (R355). -/
def DieMem.withdraw (g : Grant) (m : DieMem) : DieMem :=
  { m with withdrawn := if m.withdrawn.contains g then m.withdrawn else m.withdrawn ++ [g] }

/-- A read that the ECC of HBM or the Vault cannot correct, at its second try: the row is repaired while the die has a repair
resource left, and otherwise the units of its codewords are marked for withdrawal; the codewords are poisoned (R355, log
entry 139, DESIGN CHOICE). -/
def State.discover (s : State) (a n : Nat) : State :=
  match dieOf a with
  | none => s
  | some d =>
    let m := s.dieMem d
    let hit := m.failing.filter fun k => touchesCode a n k
    let vault := decide (vaultBase ≤ a)
    let count := if vault then m.vaultRepairs else m.hbmRepairs
    let marked := fun (m : DieMem) => { m with failing := m.failing.filter (fun k => !touchesCode a n k), poisoned := m.poisoned ++ hit }
    if hit.isEmpty then s
    else if Config.repairLeft d vault count.toNat then
      { s.onDieMem d (fun m => if vault then { marked m with vaultRepairs := count + 1 } else { marked m with hbmRepairs := count + 1 }) with
        ft := { s.ft with retired := s.ft.retired ++ [s.mtime] } }
    else
      let taken := hit.filterMap fun k => match unitOf k with
        | some (p, e, u) => (s.unitOwner p e u).map fun acct => (⟨p, e, u, acct⟩ : Grant)
        | none => none
      s.onDieMem d fun m => taken.foldl (fun m g => m.withdraw g) (marked m)

/-- A read of a structure fails its integrity check after the retries (R352, R355, R383, R502). -/
def State.readFails (s : State) (a n : Nat) : Bool := s.hostDead a || s.damagedIn a n || s.rangeFails a n

/-- A read goes through: it neither waits for a host link nor fails. -/
def State.reads (s : State) (a n : Nat) : Bool := !s.hostWaits a && !s.readFails a n

/-- A write goes through: it neither waits for a host link, nor fails at a dead link or a fenced unit (R383, R502). -/
def State.writes (s : State) (a n : Nat) : Bool := !s.hostWaits a && !s.hostDead a && !s.rangeFails a n

/-! ## Codes and views that several units show -/

/-- The code of an account's state (R460). -/
def AcctState.code : AcctState → Nat
  | .none => 0 | .enabled => 1 | .stopping => 2 | .disabled => 3

/-- A protection of a cause has gone, and dies have still to return within the bounds. -/
def Override.leaves (o : Override) (cause : Nat) : Bool := o.leaving.any fun x => x.1 == cause

/-- OVERRIDE: thermal, current and laser protections in force (R394, R525). -/
def Override.bits (o : Override) : Nat :=
  (if o.dies.isEmpty && o.ledgers.isEmpty && o.hbm.isEmpty && o.lpddr.isEmpty && !o.leaves 1 then 0 else 1) +
  (if o.current || o.leaves 2 then 2 else 0) + (if o.lasers.isEmpty then 0 else 4)

/-- A die is held at ÷8 by a protection (R525, R532). -/
def Override.holds (o : Override) (d : Nat) : Bool := o.current || o.dies.any fun x => x.1 == d

/-- A die starts no new descriptor, wave or chunk (R525). -/
def Override.halts (o : Override) (d : Nat) : Bool := o.halted.any fun x => x.1 == d

/-- Every domain but ALWAYS_ON is off: the 54 V input is away, or the module has tripped (R526, R588). -/
def State.off (s : State) : Bool := !s.chip.power.inputPresent || s.chip.power.tripped
/-- A row of a domain that is off has no effect (R526, R588). -/
def State.whenOn (s t : State) : State := if s.off then s else t
/-- Nothing reaches BAR0 or BAR2 in P3, nor with the domains off (R581, R588). -/
def State.barDark (s : State) : Bool := s.off || s.chip.power.pstate == 3

/-- The module is moving: some partition runs a moving operation (R39). -/
def State.moving (s : State) : Bool := s.moves.any fun m => m.running.isSome

/-! ## Status codes -/

/-- The codes of R17. -/
def Status.code : Status → Nat
  | .ok => 0 | .busy => 1 | .badArg => 2 | .noResource => 3 | .denied => 4 | .version => 5 | .timeout => 6
  | .aborted => 7 | .refusedState => 8 | .dataError => 9 | .notFound => 10 | .alreadyDone => 11
  | .functionDisabled => 12 | .late => 13 | .cancelled => 14 | .admitDefer => 15

/-! ## Messages and notifications -/

/-- Raise an MSI-X vector of a function: send the message, or set its pending bit while it is masked (R578). -/
def raiseVec (fn vec : Nat) (s : State) : State :=
  let e := tgetD (s.aper fn).msix vec ⟨0, 0, true⟩
  if e.masked then s.onAper fn fun a => { a with msixPend := a.msixPend ||| (1 <<< vec) }
  else s.emit (.msix fn vec)

/-- Raise NTF_VEC, at most one message per NTF_HOLD microseconds (R479). -/
def raiseNtf (fn : Nat) (s : State) : State :=
  let f := s.func fn
  let open_ := match f.ntfLast with
    | none => true
    | some t => decide (t.toNat + f.ntfHold.toNat * 1000 ≤ s.mtime.toNat)
  if f.ntfHold == 0 || open_ then
    raiseVec fn f.ntfVec.toNat (s.onFunc fn fun f => { f with ntfLast := some s.mtime, ntfOwed := false })
  else s.onFunc fn fun f => { f with ntfOwed := true }

/-- NTF_TAIL as the part treats it: a value that is not within 1,024 behind NTF_HEAD counts as NTF_HEAD (R495). The register
itself keeps what was last written (R11). -/
def Func.tailAt (f : Func) : Word := if decide ((f.head - f.tail).toNat ≤ 1024) then f.tail else f.head

/-- The ring of a function is full (R495). -/
def Func.ringFull (f : Func) : Bool := f.head - f.tailAt == 1024

/-- The bytes of a ring entry (R496). -/
def ntfBytes (n : Ntf) (index : Word) : Bytes :=
  padTo 32 (leBytes 2 n.kind ++ leBytes 1 n.status.code ++ [0] ++ leBytes 4 index.toNat ++ leBytes 8 n.time.toNat ++ n.args)

/-- Write an entry at the head of the ring and advance NTF_HEAD (R495). -/
def Func.push (f : Func) (n : Ntf) : Func :=
  { f with ring := tset f.ring (f.head.toNat % 1024) (ntfBytes n f.head), head := f.head + 1 }

/-- A notification is lost (R499). -/
def Func.lose (f : Func) : Func :=
  { f with lost := if f.lost == 0xFFFFFFFF then f.lost else f.lost + 1, lostSince := f.lostSince + 1, ntfOvf := true }

/-- The lowest ABI version whose functions receive a kind (R497). -/
def ntfVersion (kind : Nat) : Nat :=
  if kind ∈ [3, 9, 14] then 2 else if kind ∈ [5, 6, 7, 8] then 3 else 1

/-- A notification reaches a function: it is suppressed by the mask or the version, held during a pause, written to the
ring, or lost (R495 to R499, R487). -/
def post (fn kind : Nat) (st : Status) (args : Bytes) (s : State) : State :=
  let f := s.func fn
  let n : Ntf := ⟨kind, st, s.mtime, args⟩
  if decide (f.abi.toNat < ntfVersion kind) || (decide (kind ≤ 15) && f.mask.getLsbD kind) then s
  else if f.paused then
    if f.heldNtf.length < (1024 - (f.head - f.tailAt).toNat) + 1024 then
      s.onFunc fn fun f => { f with heldNtf := f.heldNtf ++ [n] }
    else raiseNtf fn (s.onFunc fn Func.lose)
  else if f.ringFull || f.lostSince != 0 || !f.heldNtf.isEmpty then raiseNtf fn (s.onFunc fn Func.lose)
  else raiseNtf fn (s.onFunc fn fun f => f.push n)

/-- A notification to several functions, in order. -/
def postAll (fns : List Nat) (kind : Nat) (st : Status) (args : Bytes) (s : State) : State :=
  fns.foldl (fun s fn => post fn kind st args s) s

/-- Space has appeared: the OVERFLOW entry with the count lost comes first (R499). (Log entry 132, DEDUCED.) -/
def flushOverflow (fn : Nat) (s : State) : State :=
  let f := s.func fn
  if f.lostSince != 0 && !f.ringFull && !f.paused then
    raiseNtf fn (s.onFunc fn fun f =>
      { f.push ⟨0x10, .ok, s.mtime, leBytes 4 f.lostSince.toNat⟩ with lostSince := 0 })
  else s

/-- The oldest notification kept from a pause is written, where the ring has room (R487). -/
def flushOne (fn : Nat) (s : State) : State :=
  match (s.func fn).heldNtf with
  | n :: _ =>
    if (s.func fn).ringFull then s
    else raiseNtf fn (s.onFunc fn fun f => { f.push n with heldNtf := f.heldNtf.drop 1 })
  | [] => s

/-- The notifications kept from a pause are written in order as far as the ring has room; the rest stays kept (R487). -/
def flushHeld (fn : Nat) (s : State) : State :=
  if (s.func fn).paused then s else (s.func fn).heldNtf.foldl (fun s _ => flushOne fn s) s

/-- The functions told of a unit of a partition: its enabled accounts and the holder of the module's right (R497). -/
def State.unitAudience (s : State) (part : Option Nat) : List Nat :=
  let inPart := match part with
    | some p => s.enabledOf p
    | none => []
  inPart ++ (match s.ten.modRight with
    | some a => if inPart.contains a then [] else [a]
    | none => [])

/-! ## Meters and counters (15, 19) -/

/-- The coefficient index of R494 of a Tally meter: cycle meters by the die's divider step, the others in the order of
E_OTHER; none for ENERGY_MJ and LATE. -/
def energyIndex (meter : Nat) (div : Nat) : Option Nat :=
  let step := if div == 4 then 0 else if div == 5 then 1 else if div == 6 then 2 else 3
  match meter with
  | 0 => some step
  | 1 => some (4 + step)
  | 2 => some (8 + step)
  | 3 => some 12
  | 4 => some 13
  | 5 => some 16
  | 6 => some 17
  | 7 => some 14
  | 8 => some 15
  | _ => none

/-- A coefficient in units of 2^-149 nJ. -/
def energyUnits (i : Nat) : Nat :=
  match ofF32 (Config.energyCoeff i) with
  | .fin false m e => if e + 149 < 0 then 0 else m * 2 ^ (e + 149).toNat
  | _ => 0

/-- Add to a Tally meter of an account, at a die whose divider counts for the energy of cycles (R473, R474). -/
def State.meter (s : State) (acct i n die : Nat) : State :=
  let d := s.chip.power.div.getD die 4
  s.onAcct acct fun a =>
    { a with tally := lmod a.tally i (· + BitVec.ofNat 64 n),
             energy := a.energy + (match energyIndex i d with
               | some k => n * energyUnits k
               | none => 0) }

/-- Add to a numerics meter of an account: index 0 is TILE_REPLAYS (R563). -/
def State.num (s : State) (acct i n : Nat) : State :=
  s.onAcct acct fun a => { a with num := lmod a.num i (· + BitVec.ofNat 64 n) }

/-- The unit exponent of the sources that R554 lists with a unit other than 1. -/
def srcShift (src : Nat) : Nat := if src == 0x001 || src == 0x002 then 15 else if src == 0x302 then 4 else 0

/-- A counter goes on by `n`, modulo 2⁴⁸, and OVF says that it wrapped (R552, R557). -/
def Counter.count (c : Counter) (n : Nat) : Counter :=
  let v := c.value.toNat + n
  { c with value := BitVec.ofNat 48 v, ovf := c.ovf || decide (2 ^ 48 ≤ v) }

/-- One counter sees `n` units of a source (R552, R557, R558, R567). (Log entry 87, DEDUCED.) -/
def Counter.see (c : Counter) (src : Nat) (acct unit : Option Nat) (n : Nat) : Counter :=
  if c.en && !c.dead && c.src.toNat == src && (!c.afilt || acct == some c.account.toNat) && (!c.ufilt || unit == some c.unit.toNat) then
    c.count n
  else c

/-- `n` events of a source on a die, attributed to an account and a unit where they have one, reach the die's counters
and the module's; remainders of sources that count in 2^k are kept (R552, R555). `die` 8 is no die. -/
def State.bump (s : State) (src die : Nat) (acct unit : Option Nat) (n : Nat) : State :=
  let key := src * 16 + die
  let t := tgetD s.chip.srcRem key 0 + n
  let k := 2 ^ srcShift src
  let seen := fun (cs : List Counter) => cs.map fun c => c.see src acct unit (t / k)
  let cs := lmod s.chip.counters 8 seen
  { s with chip := { s.chip with
      counters := if die < 8 then lmod cs die seen else cs,
      srcRem := if srcShift src == 0 then s.chip.srcRem else tset s.chip.srcRem key (t % k) } }

/-- The sources that R554 lists, with their names. -/
def namedSources : List (Nat × String) :=
  [(0x000, "ARR_BUSY"), (0x001, "ARR_PROD"), (0x002, "ARR_GATED"), (0x003, "ARR_TILE_REPLAY"), (0x101, "VRFIN_SHADOW"),
   (0x201, "SE_STEP_DROP"), (0x300, "HBM_CRED"), (0x302, "BANK_WAIT"), (0x400, "PARITY"), (0x401, "ROW_RETIRE"),
   (0x402, "ECC_CORR"), (0x404, "STRUCT_FAIL"), (0x500, "ANCHOR_SAT"), (0x501, "FP32_SAT"), (0x502, "MX_NAN"),
   (0x504, "LA_LONG"), (0x700, "SEG_REFETCH"), (0x800, "LEDGER_SKIP"), (0x902, "ROUTE_LOOP"), (0x903, "MSG_DISCARD"),
   (0xB02, "BEACON_DROP"), (0xB03, "SLEEP_IGNORED")]

/-- Change the counters of a scope. -/
def State.onCounters (s : State) (scope : Nat) (f : List Counter → List Counter) : State :=
  { s with chip := { s.chip with counters := lmod s.chip.counters scope f } }

/-- The counters of a scope. -/
def State.countersOf (s : State) (scope : Nat) : List Counter := s.chip.counters.getD scope (List.replicate 32 Counter.reset)

/-- A source whose events nothing in the model shows: the waits of BANK_WAIT, which are time, and every source that R554 leaves to
CNT_CATALOG and does not list. -/
def unseenSource (src : Nat) : Bool := src == 0x302 || (tget namedSources src).isNone

/-- What a counter of a source that the model does not see has counted since it was last looked at is the free value number n (R554, R555;
log entry 8, DESIGN CHOICE). -/
def Counter.goOn (c : Counter) (n : Nat) : Counter × Nat :=
  if c.en && !c.dead && unseenSource c.src.toNat then (c.count (Config.freeValue n).toNat, n + 1) else (c, n)

/-- The counters of a scope go on by what they have counted unseen, before they are read, latched or set (R554, R555; log
entry 8, DESIGN CHOICE). -/
def countUnseen (scope : Nat) (s : State) : State :=
  let r := (s.countersOf scope).foldl (fun r c => (r.1 ++ [(c.goOn r.2).1], (c.goOn r.2).2)) (([] : List Counter), s.freeCtr)
  { s.onCounters scope fun _ => r.1 with freeCtr := r.2 }

/-! ## Commands -/

/-- A field of the payload window: `n` bytes at byte `off` (R480). -/
def cmdU (c : Cmd) (off n : Nat) : Nat := bitField c.payload.toNat (8 * off) (8 * n)
/-- The bytes of the payload window from `n` are zero (R480). -/
def cmdTail (c : Cmd) (n : Nat) : Bool := c.payload.toNat / 2 ^ (8 * n) == 0
/-- `n` bytes of the payload window from `off` are zero. -/
def cmdZ (c : Cmd) (off n : Nat) : Bool := cmdU c off n == 0
/-- The account of a command. -/
def cmdA (c : Cmd) : Nat := c.fn.toNat

end Sys2Proof.Machine
end

