-- ==== Sys2Proof/Machine/Layout.lean ====
section
/-!
DEFINITION. Where the parts of a loaded model lie in its arenas, and how its weight windows read them (10 R318 to R321).
-/
namespace Sys2Proof.Machine

/-- The row stride in 64-byte units of a stored row of `n` bytes: the smallest that holds it and is not a multiple of 16
(R319). -/
def rowStride (n : Nat) : Nat :=
  let u := (n + 63) / 64
  if u % 16 == 0 then u + 1 else u

/-- A tensor of a map. -/
def ModelMap.tensor (m : ModelMap) (t : Nat) : Tensor :=
  m.tensors.getD t ⟨0, 0, 0, 1, false, false, false, false, 0, 0, 1, 32, 0, 0⟩
/-- The rows that a shard holds. -/
def Shard.rows (x : Shard) : Nat := x.row1 + 1 - x.row0
/-- The columns that a shard holds. -/
def Shard.cols (x : Shard) : Nat := x.col1 + 1 - x.col0
/-- The rectangles of two shards are equal. -/
def Shard.sameRect (x y : Shard) : Bool :=
  x.tensor == y.tensor && x.row0 == y.row0 && x.row1 == y.row1 && x.col0 == y.col0 && x.col1 == y.col1

/-! ## Training buffers -/

/-- The row stride of a training shard, in bytes. -/
def trainStride (x : Shard) : Nat := 64 * rowStride (2 * x.cols)
/-- The bytes of a training shard. -/
def trainSize (x : Shard) : Nat := x.rows * trainStride x

/-- Shard `j` lies before shard `i` of its die: by layer, then by map order (R319). -/
def shardBefore (m : ModelMap) (x y : Shard) (i j : Nat) : Bool :=
  y.part == x.part && y.die == x.die &&
  (decide ((m.tensor y.tensor).layer < (m.tensor x.tensor).layer) ||
    ((m.tensor y.tensor).layer == (m.tensor x.tensor).layer && decide (j < i)))

/-- The window offset of training shard `i` on its die, in bytes. -/
def trainOff (m : ModelMap) (i : Nat) : Nat :=
  match m.shards[i]? with
  | none => 0
  | some x => ((m.shards.zipIdx.filter fun p => shardBefore m x p.1 i p.2).map fun p => trainSize p.1).sum

/-! ## Generation copies -/

/-- The format of a tensor's generation copy. -/
def Tensor.gfmt (t : Tensor) : Fmt := (Fmt.ofCode t.genFmt).getD .bf16
/-- The stored rows and columns of a copy shard: transposed under GBLK 1 (R319). -/
def genShape (t : Tensor) (x : Shard) : Nat × Nat := if t.gblk then (x.cols, x.rows) else (x.rows, x.cols)
/-- The element row stride of a copy shard, in bytes. -/
def genStride (t : Tensor) (x : Shard) : Nat := 64 * rowStride (((genShape t x).2 * t.gfmt.width + 7) / 8)
/-- The scale row stride of a copy shard, in bytes; 0 for a format without scales. -/
def genSStride (t : Tensor) (x : Shard) : Nat :=
  if t.gfmt.isMx then 64 * rowStride ((genShape t x).2 / 32) else 0
/-- The bytes of a copy shard: the element plane, then the scale plane (log entry 20, DEDUCED). A NOGEN tensor has none (R313).
(Log entry 82, DEDUCED.) -/
def genSize (t : Tensor) (x : Shard) : Nat := if t.nogen then 0 else (genShape t x).1 * (genStride t x + genSStride t x)

/-- The window offset of generation shard `i` on its die, in bytes. -/
def genOff (m : ModelMap) (i : Nat) : Nat :=
  match m.gshards[i]? with
  | none => 0
  | some x => ((m.gshards.zipIdx.filter fun p => shardBefore m x p.1 i p.2).map fun p =>
      genSize (m.tensor p.1.tensor) p.1).sum
/-- The window offset of the scale plane of generation shard `i`. -/
def genSOff (m : ModelMap) (i : Nat) : Nat :=
  match m.gshards[i]? with
  | none => 0
  | some x => genOff m i + (genShape (m.tensor x.tensor) x).1 * genStride (m.tensor x.tensor) x

/-- The start and length of a layer's shards on a die of this part, in the training buffers or in the copy (R163). -/
def layerExtent (m : ModelMap) (gen : Bool) (die layer : Nat) : Nat × Nat :=
  let shards := if gen then m.gshards else m.shards
  let mine := shards.zipIdx.filter fun p =>
    p.1.part == m.part && p.1.die == die && (m.tensor p.1.tensor).layer == layer
  let size := fun (x : Shard) => if gen then genSize (m.tensor x.tensor) x else trainSize x
  match mine with
  | [] => (0, 0)
  | p :: _ => (if gen then genOff m p.2 else trainOff m p.2, (mine.map fun p => size p.1).sum)

/-! ## Storage keys (R318, R348) -/

/-- The key of a byte of a training buffer: buffer B or A, at a window offset of a die. -/
def trainKey (slot : Nat) (bufB : Bool) (die off : Nat) : Nat := modelKey slot (if bufB then 1 else 0) (die * 2 ^ 37 + off)
/-- The key of a byte of a copy slot. -/
def genKey (slot : Nat) (slot1 : Bool) (die off : Nat) : Nat := modelKey slot (if slot1 then 3 else 2) (die * 2 ^ 37 + off)
/-- The key of a byte of the Vault region of a training shard: low halves at twice the element's index. -/
def vaultKey (slot die off : Nat) : Nat := modelKey slot 5 (die * 2 ^ 37 + off)
/-- The key of a byte of state slot `k`: four bytes for each element, at twice its high half's offset. -/
def stateKey (slot k die off : Nat) : Nat := modelKey slot (6 + k) (die * 2 ^ 39 + 2 * off)
/-- The key of a byte of the landing area. -/
def landKey (slot die off : Nat) : Nat := modelKey slot 4 (die * 2 ^ 40 + off)
/-- The partition die of a model's storage key. -/
def keyDie (k : Nat) : Nat :=
  let area := (k - 2 ^ 60) / 2 ^ 44 % 16
  let o := (k - 2 ^ 60) % 2 ^ 44
  if area == 4 then o / 2 ^ 40 else if 6 ≤ area then o / 2 ^ 39 else o / 2 ^ 37

/-- The key that a window offset names for a package bound to an epoch: the buffer or slot that holds that epoch (R320). -/
def windowKey (slot : Nat) (gen : Bool) (w : Weights) (epoch off : Nat) : Nat :=
  let current := epoch == w.epoch
  let second := if gen then (if current then w.slot1 else !w.slot1) else (if current then w.activeB else !w.activeB)
  modelKey slot (if gen then (if second then 3 else 2) else (if second then 1 else 0)) off

/-- Bytes read by a package bound to an epoch: weight windows read the buffer or slot of that epoch (R320). -/
def State.readFor (s : State) (epoch a n : Nat) : Bytes :=
  match locOf a with
  | some (.window slot gen off) => match s.model slot with
    | some m => Memory.bytes s.mem (windowKey slot gen m.w epoch off) n
    | none => List.replicate n 0
  | _ => s.read a n

end Sys2Proof.Machine
end

