-- ==== Sys2Proof/Machine/Groups.lean ====
section
/-!
DEFINITION. Parameter groups and what they make a model hold: the entries of the schedule table, the sizes that a load must
place, and where a shard's halves and state lie (07 R217 to R222, 10 R318).
-/
namespace Sys2Proof.Machine

/-! ## Group entries (R221) -/

/-- A field of a group entry. -/
def Group.u (g : Group) (off n : Nat) : Nat := fieldAt g.raw off n
/-- MODEL. -/
def Group.model (g : Group) : Nat := g.u 0 2
/-- The masters are single BF16 values. -/
def Group.sr16 (g : Group) : Bool := (g.u 2 1).testBit 0
/-- FROZEN. -/
def Group.frozen (g : Group) : Bool := (g.u 2 1).testBit 1
/-- QSAVE: Q3 is kept per block. -/
def Group.qsave (g : Group) : Bool := (g.u 2 1).testBit 2
/-- The program slot. -/
def Group.slot (g : Group) : Nat := g.u 3 1 % 16
/-- The fallback slot. -/
def Group.fallback (g : Group) : Nat := g.u 3 1 / 16
/-- STATEFMT of a state slot: 0 none, 1 FP32, 2 BF16 under RNE, 3 BF16 under SR. -/
def Group.stateFmt (g : Group) (k : Nat) : Nat := g.u 4 1 / 4 ^ k % 4
/-- No block shape is given. -/
def Group.noBlock (g : Group) : Bool := g.u 6 2 == 0
/-- BR. -/
def Group.br (g : Group) : Nat := 32 * (g.u 6 2 % 64)
/-- BC. -/
def Group.bc (g : Group) : Nat := 32 * (g.u 6 2 / 64 % 64 + 1)
/-- THETA. -/
def Group.theta (g : Group) : Word := BitVec.ofNat 32 (g.u 8 4)
/-- EPS0. -/
def Group.eps0 (g : Group) : Word := BitVec.ofNat 32 (g.u 0xC 4)

/-- The group of a tensor, where its account holds it for this model. -/
def State.groupOf (s : State) (m : ModelMap) (t : Tensor) : Option Group :=
  match tget s.led.groups t.group with
  | some g => if g.acct == m.acct && g.model == m.num then some g else none
  | none => none

/-! ## Roles -/

/-- A training shard of this part. -/
def ModelMap.mine (m : ModelMap) (x : Shard) : Bool := x.part == m.part
/-- A shard whose elements this part's Ledgers update: OWNER or TWIN of a trainable tensor. -/
def ModelMap.owned (m : ModelMap) (x : Shard) : Bool := m.mine x && x.role != 1 && !(m.tensor x.tensor).frozen
/-- The numbered shards that this part's Ledgers update. -/
def ModelMap.ownedShards (m : ModelMap) : List (Shard × Nat) := m.shards.zipIdx.filter fun x => m.owned x.1
/-- The elements of a shard. -/
def Shard.elems (x : Shard) : Nat := x.rows * x.cols
/-- The physical die of a partition's die. -/
def State.dieOfPart (s : State) (m : ModelMap) (d : Nat) : Nat := (s.acctDies m.acct).getD d 8

/-! ## Blocks (R235) -/

/-- The blocks of a shard under a group, in row order: first row, rows, first column, columns, within the shard. -/
def Group.blocks (g : Group) (x : Shard) : List (Nat × Nat × Nat × Nat) :=
  if g.noBlock then
    (List.range x.rows).flatMap fun r =>
      (List.range ((x.cols + 65535) / 65536)).map fun i => (r, 1, 65536 * i, min 65536 (x.cols - 65536 * i))
  else
    (List.range (x.rows / max 1 g.br)).flatMap fun i =>
      (List.range (x.cols / max 1 g.bc)).map fun j => (g.br * i, g.br, g.bc * j, g.bc)

/-! ## Sizes (R217, R318) -/

/-- Vault bytes of an element of an owned shard, in thirty-seconds. -/
def vaultUnits (g : Group) (t : Tensor) : Nat :=
  let slot := fun (k : Nat) => [0, 128, 64, 64].getD (g.stateFmt k) 0
  let stage := if t.rows == 1 then 128 else if t.calFmt == 1 || t.calFmt == 2 then 64 else 33
  (if g.sr16 then 0 else 64) + (((List.range 4).map slot).sum) + stage

/-- Vault bytes that a die of this part holds of a model. (Log entry 137, DEDUCED.) -/
def vaultNeed (s : State) (m : ModelMap) (d : Nat) : Nat :=
  ((m.ownedShards.filter fun x => x.1.die == d).map fun x =>
    match s.groupOf m (m.tensor x.1.tensor) with
    | some g => (x.1.elems * vaultUnits g (m.tensor x.1.tensor) + 31) / 32 +
        (if g.qsave then (g.blocks x.1).length * 4 * g.br * g.br else 0)
    | none => 0).sum

/-- Elements of a layer's generation shards on a die of this part. -/
def layerElems (m : ModelMap) (d l : Nat) : Nat :=
  ((m.gshards.filter fun x => m.mine x && x.die == d && (m.tensor x.tensor).layer == l && !(m.tensor x.tensor).nogen).map
    Shard.elems).sum

/-- The landing area of a die: twice the largest layer, in BF16. -/
def landingSize (m : ModelMap) (d : Nat) : Nat := 4 * maxNat (((m.tensors.map (·.layer)).dedup).map fun l => layerElems m d l)

/-- The bytes of a model's copy slots that a Stream Engine, or every engine, of a die holds. -/
def copyNeed (m : ModelMap) (d : Nat) (se : Option Nat) : Nat :=
  let slots := fun (t : Tensor) => if t.frozen || !m.swap then 1 else 2
  ((m.gshards.filter fun x => m.mine x && x.die == d && se.all fun q => x.se == q).map fun x =>
    slots (m.tensor x.tensor) * genSize (m.tensor x.tensor) x).sum

/-- HBM bytes that a die of this part holds of a model. -/
def hbmNeed (m : ModelMap) (d : Nat) : Nat :=
  let bufs := fun (x : Shard) => if (m.tensor x.tensor).frozen then 1 else 2
  ((m.shards.filter fun x => m.mine x && x.die == d).map fun x => bufs x * trainSize x).sum + copyNeed m d none + landingSize m d

/-- The bytes of a striped range that lie in a channel quarter (R345). -/
def quarterBytes (q a n : Nat) : Nat :=
  let upTo := fun (x : Nat) => x / 32768 * 8192 + min 8192 (x % 32768 - 8192 * q)
  upTo (a + n) - upTo a

/-- The bytes of an arena that lie in a quarter of its die (R348). -/
def arenaQuarter (a : Arena) (q : Nat) : Nat :=
  if a.hbase < quarterBase then quarterBytes q a.hbase (64 * a.hlen)
  else if (a.hbase - quarterBase) / 2 ^ 35 % 4 == q then 64 * a.hlen else 0

/-- The die of an HBM arena, and the offset in a quarter of its first byte there. -/
def Arena.start (a : Arena) (q : Nat) : Nat × Nat :=
  if a.hbase < quarterBase then (a.hbase / 2 ^ 37, quarterUpTo q (a.hbase % 2 ^ 37))
  else ((a.hbase - quarterBase) / 2 ^ 37, (a.hbase - quarterBase) % 2 ^ 35)

/-- Where the rest of an arena begins in a quarter, from its first byte there: at the first band slice that holds no copy row (R348). -/
def quarterRest (m : ModelMap) (die q : Nat) : Nat :=
  let (st, n) := ((m.arenas.getD die ⟨0, 0, 0, 0⟩).start q |>.2, copyNeed m die (some q))
  if n == 0 then 0 else (st + n + 2 ^ 24 - 1) / 2 ^ 24 * 2 ^ 24 - st

/-- The bytes of an arena in a quarter that lie in slices without copy rows. -/
def restRoom (m : ModelMap) (die q : Nat) : Nat := arenaQuarter (m.arenas.getD die ⟨0, 0, 0, 0⟩) q - quarterRest m die q

/-- Every region of a model fits its arenas: copy rows the slices of their quarter, and the rest the other slices (R318, R348, log
entry 140, DESIGN CHOICE). -/
def arenasFit (s : State) (m : ModelMap) : Bool :=
  (List.range 8).all fun d =>
    let a := m.arenas.getD d ⟨0, 0, 0, 0⟩
    decide (hbmNeed m d ≤ 64 * a.hlen) && decide (vaultNeed s m d ≤ 64 * a.vlen) &&
    decide (hbmNeed m d ≤ copyNeed m d none + ((List.range 4).map (restRoom m d)).sum) &&
    (List.range 4).all fun q => decide (copyNeed m d (some q) ≤ arenaQuarter a q)

/-! ## Elements in memory -/

/-- The window offset of an element of training shard `i`: row and column within the shard. -/
def elemOff (m : ModelMap) (i r c : Nat) : Nat := match m.shards[i]? with
  | some x => trainOff m i + r * trainStride x + 2 * c
  | none => 0

/-- A row of high halves, from a buffer. -/
def highRow (s : State) (slot : Nat) (m : ModelMap) (bufB : Bool) (i r c n : Nat) : Bytes := match m.shards[i]? with
  | some x => Memory.bytes s.mem (trainKey slot bufB x.die (elemOff m i r c)) (2 * n)
  | none => []

/-- A row of low halves. -/
def lowRow (s : State) (slot : Nat) (m : ModelMap) (i r c n : Nat) : Bytes := match m.shards[i]? with
  | some x => Memory.bytes s.mem (vaultKey slot x.die (elemOff m i r c)) (2 * n)
  | none => []

/-- A row of a state slot: four bytes for each element. -/
def stateRow (s : State) (slot k : Nat) (m : ModelMap) (i r c n : Nat) : Bytes := match m.shards[i]? with
  | some x => Memory.bytes s.mem (stateKey slot k x.die (elemOff m i r c)) (4 * n)
  | none => []

/-- A key lies in a Vault region of a model: low halves and state (R217, R324). -/
def inVaultRegion (slot k : Nat) : Bool :=
  decide (2 ^ 60 ≤ k) && (k - 2 ^ 60) / 2 ^ 48 == slot && decide (5 ≤ (k - 2 ^ 60) / 2 ^ 44 % 16)

/-- The 32-bit words of a row. -/
def wordsOf (bs : Bytes) : List Word := (chunks 4 bs).map fun b => BitVec.ofNat 32 (leNat b)
/-- The 16-bit words of a row. -/
def halvesOf (bs : Bytes) : List (BitVec 16) := (chunks 2 bs).map fun b => BitVec.ofNat 16 (leNat b)
/-- The bytes of 16-bit words. -/
def bytesOfHalves (hs : List (BitVec 16)) : Bytes := hs.flatMap fun h => leBytes 2 h.toNat
/-- The bytes of 32-bit words. -/
def bytesOfWords (ws : List Word) : Bytes := ws.flatMap fun w => leBytes 4 w.toNat

end Sys2Proof.Machine
end

