-- ==== Sys2Proof/Machine/Health.lean ====
section
/-!
DEFINITION. Where the bytes that a reader meets lie, and what it meets there: the arenas behind the weight windows (10 R318,
11 R348), damage and dead links (11 R352 to R355), and the credits that an access asks for (11 R358 to R360).
-/
namespace Sys2Proof.Machine

/-! ## Arenas (R318, R348; log entry 140, DESIGN CHOICE) -/

/-- The internal addresses of `n` bytes from an offset of a die's channel quarter. -/
def quarterAt (die q off n : Nat) : Nat × Nat := (quarterBase + die * 2 ^ 37 + q * 2 ^ 35 + off, n)

/-- The overlap of `[off, off + n)` with `[b, b + m)`, as an offset from `b` and a length. -/
def overlap (off n b m : Nat) : Option (Nat × Nat) :=
  let lo := max off b
  let hi := min (off + n) (b + m)
  if lo < hi then some (lo - b, hi - lo) else none

/-- The shards of a list that lie before shard `i` of the same die, by layer and map order. -/
def shardsBefore (m : ModelMap) (xs : List (Shard × Nat)) (x : Shard × Nat) : List (Shard × Nat) :=
  xs.filter fun y => shardBefore m x.1 y.1 x.2 y.2

/-- Generation shards of this part that a Stream Engine of a die holds. -/
def ModelMap.engineShards (m : ModelMap) (die se : Nat) : List (Shard × Nat) :=
  m.gshards.zipIdx.filter fun x => m.mine x.1 && x.1.die == die && x.1.se == se

/-- Bytes of copy shards; those of frozen tensors are left out where a second slot shares them. -/
def copyBytes (m : ModelMap) (second : Bool) (xs : List (Shard × Nat)) : Nat :=
  (xs.map fun x => if second && (m.tensor x.1.tensor).frozen then 0 else genSize (m.tensor x.1.tensor) x.1).sum

/-- Where bytes of a copy slot lie: the rows of a Stream Engine's shards, slot 0 and then slot 1, from the start of the arena in
the engine's quarter. -/
def copySpots (m : ModelMap) (slot1 : Bool) (die off n : Nat) : List (Nat × Nat) :=
  let a := m.arenas.getD die ⟨0, 0, 0, 0⟩
  (m.gshards.zipIdx.filter fun x => m.mine x.1 && x.1.die == die).filterMap fun x =>
    let t := m.tensor x.1.tensor
    let all := m.engineShards die x.1.se
    let second := slot1 && !t.frozen
    let rank := (if second then copyBytes m false all else 0) + copyBytes m second (shardsBefore m all x)
    (overlap off n (genOff m x.2) (genSize t x.1)).map fun o =>
      quarterAt (a.start x.1.se).1 x.1.se ((a.start x.1.se).2 + rank + o.1) o.2

/-- Where bytes of the rest of an arena lie: quarter after quarter. -/
def restSpots (m : ModelMap) (die off n : Nat) : List (Nat × Nat) :=
  let a := m.arenas.getD die ⟨0, 0, 0, 0⟩
  (List.range 4).filterMap fun q =>
    (overlap off n (((List.range q).map (restRoom m die)).sum) (restRoom m die q)).map fun o =>
      quarterAt (a.start q).1 q ((a.start q).2 + quarterRest m die q + o.1) o.2

/-- Training shards of this part on a die. -/
def ModelMap.dieShards (m : ModelMap) (die : Nat) : List (Shard × Nat) :=
  m.shards.zipIdx.filter fun x => m.mine x.1 && x.1.die == die

/-- Bytes of training shards; those of frozen tensors, which have one buffer, are left out of buffer B. -/
def trainBytes (m : ModelMap) (bufB : Bool) (xs : List (Shard × Nat)) : Nat :=
  (xs.map fun x => if bufB && (m.tensor x.1.tensor).frozen then 0 else trainSize x.1).sum

/-- Where bytes of a training buffer lie: buffer A, and then buffer B, at the start of the rest of the arena. -/
def trainSpots (m : ModelMap) (bufB : Bool) (die off n : Nat) : List (Nat × Nat) :=
  let all := m.dieShards die
  all.flatMap fun x =>
    let second := bufB && !(m.tensor x.1.tensor).frozen
    let rank := (if second then trainBytes m false all else 0) + trainBytes m second (shardsBefore m all x)
    match overlap off n (trainOff m x.2) (trainSize x.1) with
    | some o => restSpots m die (rank + o.1) o.2
    | none => []

/-- Where bytes of a Vault arena lie: offsets are taken modulo its length. -/
def vaultSpots (m : ModelMap) (die off n : Nat) : List (Nat × Nat) :=
  let a := m.arenas.getD die ⟨0, 0, 0, 0⟩
  let len := 64 * a.vlen
  if len == 0 then [] else [(a.vbase + off % len, min n (len - off % len))]

/-- Where bytes of a model's storage lie, by storage key. -/
def ModelMap.spots (m : ModelMap) (k n : Nat) : List (Nat × Nat) :=
  let area := (k - 2 ^ 60) / 2 ^ 44 % 16
  let o := (k - 2 ^ 60) % 2 ^ 44
  let die := keyDie k
  match area with
  | 0 => trainSpots m false die (o % 2 ^ 37) n
  | 1 => trainSpots m true die (o % 2 ^ 37) n
  | 2 => copySpots m false die (o % 2 ^ 37) n
  | 3 => copySpots m true die (o % 2 ^ 37) n
  | 4 => restSpots m die (trainBytes m false (m.dieShards die) + trainBytes m true (m.dieShards die) + o % 2 ^ 40) n
  | 5 => vaultSpots m die (o % 2 ^ 37) n
  | k => vaultSpots m die (trainBytes m false (m.dieShards die) * (2 * k - 11) + o % 2 ^ 39) n

/-- Where the bytes of a range of storage keys lie, as ranges of internal addresses. -/
def State.keySpots (s : State) (k n : Nat) : List (Nat × Nat) :=
  if k < 2 ^ 60 then [(k, n)]
  else match s.model ((k - 2 ^ 60) / 2 ^ 48) with
    | some m => m.map.spots k n
    | none => []

/-- Where the bytes that a package bound to an epoch reads lie (R320). -/
def State.spotsFor (s : State) (epoch a n : Nat) : List (Nat × Nat) :=
  match locOf a with
  | some (.window slot gen off) => match s.model slot with
    | some m => m.map.spots (windowKey slot gen m.w epoch off) n
    | none => []
  | _ => [(a, n)]

/-! ## What a reader meets (R352 to R355, R383, R502) -/

/-- What a reader meets in the ranges it reads: nothing; a host link that is away; a dead link or a fenced unit; a corrupt word
of SRAM, by its key; or a codeword that the memory's ECC cannot correct. -/
inductive Meet where
  | clear | waits | dead | parity (key : Nat) | ecc
  deriving DecidableEq, Repr

/-- The first corrupt word in ranges. -/
def State.corruptIn (s : State) (rs : List (Nat × Nat)) : Option Nat :=
  (s.chip.dieMem.flatMap (·.corrupt)).find? fun k => rs.any fun r => decide (0 < r.2) && touches 4 r.1 r.2 k

/-- Some codeword in ranges is poisoned or failing. -/
def State.unreadable (s : State) (rs : List (Nat × Nat)) : Bool :=
  s.chip.dieMem.any fun m => (m.poisoned ++ m.failing).any fun k => rs.any fun r => touchesCode r.1 r.2 k

/-- What a reader of ranges meets. -/
def State.meets (s : State) (rs : List (Nat × Nat)) : Meet :=
  if rs.any fun r => s.hostWaits r.1 then .waits
  else if rs.any fun r => s.hostDead r.1 || s.rangeFails r.1 r.2 then .dead
  else match s.corruptIn rs with
    | some k => .parity k
    | none => if s.unreadable rs then .ecc else .clear

/-- The codewords that failed are repaired and poisoned (R355). -/
def State.discoverAll (s : State) (rs : List (Nat × Nat)) : State := rs.foldl (fun s r => s.discover r.1 r.2) s


/-- Memory of a model is written, and what the write reaches is mended (R353, R355). -/
def State.putKey (s : State) (k : Nat) (bs : Bytes) : State :=
  let rs := s.keySpots k bs.length
  let healthy := s.chip.dieMem.all fun m => m.poisoned.isEmpty && m.failing.isEmpty && m.corrupt.isEmpty
  let s := { s with mem := s.mem.put k bs }
  if healthy then s else { s with chip := rs.foldl (fun c r => c.mend r.1 r.2) s.chip }

/-- Write a row of high halves. -/
def putHigh (slot : Nat) (m : ModelMap) (bufB : Bool) (i r c : Nat) (bs : Bytes) (s : State) : State := match m.shards[i]? with
  | some x => s.putKey (trainKey slot bufB x.die (elemOff m i r c)) bs
  | none => s

/-- Write a row of low halves. -/
def putLow (slot : Nat) (m : ModelMap) (i r c : Nat) (bs : Bytes) (s : State) : State := match m.shards[i]? with
  | some x => s.putKey (vaultKey slot x.die (elemOff m i r c)) bs
  | none => s

/-- Write a row of a state slot. -/
def putState (slot k : Nat) (m : ModelMap) (i r c : Nat) (bs : Bytes) (s : State) : State := match m.shards[i]? with
  | some x => s.putKey (stateKey slot k x.die (elemOff m i r c)) bs
  | none => s

/-! ## Credits that accesses ask for (R358 to R360) -/

/-- A kind of traffic: its class in HBM and in the Vault, and whether it is KV movement (R359, R360). -/
structure Traffic where
  hbm   : Nat
  vault : Nat
  kv    : Bool
  deriving DecidableEq, Repr

/-- A Stream Engine reads weights and KV, and writes KV. -/
def Traffic.stream : Traffic := ⟨0, 0, false⟩
/-- Imports, parks, restores and demotions. -/
def Traffic.kvMove : Traffic := ⟨0, 1, true⟩
/-- Tiles, vector programs, transfers, prefetches and prologues. -/
def Traffic.compute : Traffic := ⟨1, 0, false⟩
/-- The Reshard Engine, the Mint and rebuilds. -/
def Traffic.turn : Traffic := ⟨2, 0, false⟩
/-- Feeds and update passes. -/
def Traffic.ledger : Traffic := ⟨3, 0, false⟩
/-- Checkpoint drains and deposit reads. -/
def Traffic.drain : Traffic := ⟨3, 2, false⟩
/-- Host-port transfers, aperture accesses and loads. -/
def Traffic.host : Traffic := ⟨4, 0, false⟩
/-- The wipe of a stop procedure (R471). -/
def Traffic.wipe : Traffic := ⟨1, 2, false⟩
/-- Restores from a checkpoint or a host image. -/
def Traffic.restore : Traffic := ⟨4, 2, false⟩
/-- Collectives, mirror writes and transfers that the fabric carries. -/
def Traffic.fabric : Traffic := ⟨5, 0, false⟩
/-- Deposits for other parts. -/
def Traffic.deposit : Traffic := ⟨5, 2, false⟩

/-- The 512-byte granules of quarter `q` below granule `g` of a die's striped view. -/
def granulesUpTo (q g : Nat) : Nat := g / 64 * 16 + min 16 (g % 64 - 16 * q)

/-- The credits that an access to a range asks for: one for each granule of 512 bytes of HBM or 256 bytes of the Vault that it
reaches; band 1,535 and other memory ask for none (R346, R358). -/
def creditsFor (t : Traffic) (acct a n : Nat) : List CreditReq :=
  let req := fun (die : Nat) (vault : Bool) (q count : Nat) =>
    (⟨BitVec.ofNat 3 die, vault, BitVec.ofNat 2 q, BitVec.ofNat 3 (if vault then t.vault else t.hbm), t.kv,
      BitVec.ofNat 10 acct, count⟩ : CreditReq)
  if n == 0 then []
  else match locOf a with
    | some (.hbm d o) =>
      if decide (1535 ≤ o / 2 ^ 26) then []
      else if a < quarterBase then
        (List.range 4).filterMap fun q =>
          let c := granulesUpTo q ((o + n - 1) / 512 + 1) - granulesUpTo q (o / 512)
          if c == 0 then none else some (req d false q c)
      else
        let y := (a - quarterBase) % 2 ^ 35
        [req d false ((a - quarterBase) / 2 ^ 35 % 4) ((y + n - 1) / 512 + 1 - y / 512)]
    | some (.vault d o) => [req d true 0 ((o + n - 1) / 256 + 1 - o / 256)]
    | _ => []

/-- Two requests that a Teller serves as one: of one account, class and quarter or share. -/
def sameReq (x y : CreditReq) : Bool :=
  x.die == y.die && x.vault == y.vault && x.quarter == y.quarter && x.cls == y.cls && x.kv == y.kv && x.acct == y.acct

/-- A request joins those that are pending: KV movements keep their own place in the queue (R360). -/
def joinDemand (ds : List CreditReq) (r : CreditReq) : List CreditReq :=
  if !r.kv && ds.any (sameReq r) then ds.map fun d => if sameReq r d then { d with count := d.count + r.count } else d
  else ds ++ [r]

/-- Accesses to ranges ask for their credits (R358). (Log entry 141, DESIGN CHOICE.) -/
def State.charge (t : Traffic) (acct : Nat) (rs : List (Nat × Nat)) (s : State) : State :=
  { s with demand := (rs.flatMap fun r => creditsFor t acct r.1 r.2).foldl joinDemand s.demand }

/-- Where an SRAM byte lies (R97, R349): the die, its core or 16 for die SRAM, the bank, the row of the bank, and the bank's
spare rows. The 64-byte unit `u` of `B` banks lies in bank `u mod B`, whose row `i` holds its units 16i to 16i + 15. -/
def sramRow (a : Nat) : Option (Nat × Nat × Nat × Nat × Nat) :=
  match locOf a with
  | some (.coreSram c o) => some (c / 16, c % 16, o / 64 % 32, o / 64 / 32 / 16, 4)
  | some (.dieSram d o) => some (d, 16, o / 64 % 64, o / 64 / 64 / 16, 8)
  | _ => none

/-- A second parity error at the row of an SRAM word within an operation: the row is copied to a spare; with no spare left the
unit goes out of service and SPARE_EXHAUSTED is raised. Answers whether a spare was there (R352, R354). -/
def retireRow (acct : Nat) (k : Nat) (s : State) : Bool × State :=
  match sramRow k with
  | none => (true, s)
  | some (d, u, b, row, spares) =>
    let s := s.bump 0x400 d (some acct) (some u) 2
    let s := { s with ft := { s.ft with detected := s.ft.detected ++ [s.mtime, s.mtime] } }
    let used := tgetD (s.dieMem d).sparesUsed (64 * u + b) 0
    if decide (used < spares) then
      let s := (s.bump 0x401 d (some acct) (some u) 1).onDieMem d fun m =>
        { m with sparesUsed := tset m.sparesUsed (64 * u + b) (used + 1), retired := m.retired ++ [(u, b, row)] }
      (true, { s with ft := { s.ft with retired := s.ft.retired ++ [s.mtime] } })
    else
      let s := s.onDieMem d fun m =>
        if u == 16 then { m with dieOut := true }
        else { m with coreOut := if m.coreOut.contains u then m.coreOut else m.coreOut ++ [u] }
      (false, postAll (s.unitAudience (s.dieOwner d)) 0xB .ok (leBytes 1 d ++ leBytes 1 (if u == 16 then 0xFF else u)) s)

/-- An engine of the part reads ranges of an account's structures: whether the read succeeds after the retries, and the state
after what it met. A second parity failure retires the row, and the operation, a wave for instance, starts again from there (R283, R352,
R355, R358). -/
def State.engineRead (t : Traffic) (acct : Nat) (rs : List (Nat × Nat)) (s : State) : Bool × State :=
  match s.meets rs with
  | .clear | .waits => (true, s.charge t acct rs)
  | .parity k =>
    let r := retireRow acct k s
    (r.1, r.2.charge t acct rs)
  | _ => (false, s.discoverAll rs)

end Sys2Proof.Machine
end

