-- ==== Sys2Proof/Machine/Mailbox.lean ====
section
/-!
DEFINITION. The common course of a mailbox command (16): taking it, the checks of R485, its completion, and the commands
and registers of the mailbox itself.
-/
namespace Sys2Proof.Machine

/-! ## Completion (R481) -/

/-- What a command's own rules answer: a completion with its response payload, a wait for an event, an end without a
response, or a hold: the command stays taken while an access of it waits for a host link (R383). -/
inductive Res where
  | done (st : Status) (payload : Bytes) (s : State)
  | wait (key : WaitKey) (s : State)
  | gone (s : State)
  | hold

/-- Statuses after which nothing has changed but counters (R18). -/
def Status.keeps : Status → Bool
  | .busy | .badArg | .noResource | .denied | .version | .refusedState | .notFound | .alreadyDone => true
  | _ => false

/-- The final response slot of a command (R481). -/
def respOf (c : Cmd) (op : Nat) (st : Status) (payload : Bytes) (t : DWord) : Resp :=
  ⟨op, c.abi, st, c.seqno, 2, payload.length, t, payload⟩

/-- Write a response, set its DONE bit and raise CMD_VEC (R481). -/
def writeResp (c : Cmd) (r : Resp) (s : State) : State :=
  let fn := cmdA c
  let s := s.onFunc fn fun f =>
    { f with resp := tset f.resp c.slot.toNat r, done := f.done ||| (1 <<< c.slot.toNat) }
  raiseVec fn (s.func fn).cmdVec.toNat s

/-- CMD_DONE is posted where FLAGS.NOTIFY asked for it (R481). -/
def tellDone (c : Cmd) (r : Resp) (s : State) : State :=
  if c.notify then
    post (cmdA c) 1 r.status (leBytes 4 c.seqno.toNat ++ leBytes 2 r.opcode ++ leBytes 1 c.slot.toNat) s
  else s

/-- A command completes; while its function is paused the response is held, and its CMD_DONE keeps its place among the
notifications that are (R481, R487, R495). -/
def complete (c : Cmd) (op : Nat) (st : Status) (payload : Bytes) (s : State) : State :=
  let r := respOf c op st payload s.mtime
  tellDone c r (if (s.func (cmdA c)).paused then s.onFunc (cmdA c) fun f => { f with heldResp := f.heldResp ++ [(c, r)] }
  else writeResp c r s)

/-- Every command that waits for something completes (R39, R231, R471). -/
def finishWait (key : WaitKey) (st : Status) (payload : Bytes) (s : State) : State :=
  let ws := s.mail.waiting.filter fun w => w.key == key
  let s := { s with mail := { s.mail with waiting := s.mail.waiting.filter fun w => w.key != key } }
  ws.foldl (fun s w => complete w.cmd w.opcode st payload s) s

/-- The payload of a command that the checks before its own rules refuse: under the two statuses of check 0x01 WP_SUBMIT reports
that check, with no index (R153, R168). -/
def gatePayload (op : Nat) (st : Status) : Bytes :=
  if op == 0x301 && (st == .denied || st == .functionDisabled) then leBytes 4 0 ++ leBytes 4 0xFFFFFF01 else []

/-- Every command of a function that is taken and has not completed completes with a status (R471). -/
def finishAll (fn : Nat) (st : Status) (s : State) : State :=
  let mine := fun (c : Cmd) => cmdA c == fn
  let f := s.func fn
  let ws := (s.mail.waiting.filter fun w => mine w.cmd).map (fun w => (w.cmd, w.opcode)) ++
    (f.taken ++ f.fwQueue ++ s.mail.heldWake.filter fun t => mine t.cmd).map fun t => (t.cmd, t.opcode)
  let s := { s with mail := { s.mail with waiting := s.mail.waiting.filter fun w => !(mine w.cmd),
                                          heldWake := s.mail.heldWake.filter fun t => !(mine t.cmd) } }
  let s := s.onFunc fn fun f => { f with taken := [], fwQueue := [] }
  ws.foldl (fun s w => complete w.1 w.2 st (gatePayload w.2 st) s) s

/-! ## The checks of R485 -/

/-- The opcodes of the commands that exist (R490, R518, R536, R559). -/
def opExists (op : Nat) : Bool :=
  let i := fun (lo hi : Nat) => decide (lo ≤ op) && decide (op ≤ hi)
  i 0x101 0x105 || i 0x120 0x12A || i 0x201 0x204 || i 0x210 0x218 || i 0x301 0x306 || i 0x401 0x409 || i 0x501 0x50B ||
  i 0x601 0x60B || i 0x701 0x70A || i 0x801 0x804 || i 0x901 0x907 || i 0xA01 0xA02 || i 0xA10 0xA13 || i 0xA18 0xA1B ||
  i 0xB01 0xB05 || i 0xB10 0xB18

/-- The opcode is served in a version (R490). -/
def servedIn (op v : Nat) : Bool :=
  let i := fun (lo hi : Nat) => decide (lo ≤ op) && decide (op ≤ hi)
  opExists op && (if op == 0x12A || i 0x701 0x70A then v == 3
    else if i 0x210 0x218 || i 0x501 0x50B || i 0xB10 0xB18 then decide (2 ≤ v) else true)

/-- The opcode is served in a life-cycle state (R547); ACCT_QUERY of an account by itself is served in every state (R456). -/
def servedInLife (op : Nat) : LifeCycle → Bool
  | .owned => true
  | .manufactured | .provisioned =>
    op / 256 == 8 || op / 256 == 9 || op == 0x101 || op == 0x102 || op == 0x103 || op == 0x125 || op == 0xB01
  | .decommissioned => op == 0x101 || op == 0x102 || op == 0x125 || op == 0x903 || op == 0x802

/-- The commands served in recovery (R539). -/
def servedInRecovery (op : Nat) : Bool := op == 0x101 || op == 0x102 || op == 0x903 || op == 0x901 || op == 0x804

/-- The checks that follow the header checks: the account's state, the version, the opcode, and what an account that is
NONE may use (R485, R456). -/
def stateGate (fn : Nat) (abi : BitVec 8) (op : Nat) (s : State) : Option Status :=
  let a := s.acct fn
  let f := s.func fn
  let life := s.chip.fw.lifecycle
  if a.state == .stopping || a.state == .disabled then some .functionDisabled
  else if op == 0x101 then (if decide (1 ≤ abi.toNat) && decide (abi.toNat ≤ 3) then none else some .version)
  else if f.abi == 0 || abi != f.abi then some .version
  else if !opExists op then some .badArg
  else if !servedIn op f.abi.toNat then some .version
  else if a.state == .none && !(op == 0x102 || op == 0x125 ||
      (life != .owned && fn % 256 == 0 && servedInLife op life)) then some .denied
  else none

/-- What Neriv checks of any command before the command's own rules: the life-cycle state and recovery (R547, R539). -/
def lifeGate (op : Nat) (s : State) : Option Status :=
  if !servedInLife op s.chip.fw.lifecycle then some .denied
  else if s.chip.fw.recovery && !servedInRecovery op then some .refusedState
  else none

/-- The quiet commands of R516, which a low power state serves without waking. -/
def quiet (op : Nat) (c : Cmd) : Bool :=
  op == 0x101 || op == 0x102 || op == 0x103 || op == 0x105 || op == 0x125 || op == 0x802 || op == 0x803 ||
  (op == 0x801 && cmdU c 0 1 != 0) || op == 0xA01 || op == 0xA02 || op == 0xB01 || op == 0xB04 || op == 0xB05

/-- A wake event: an exit to P0 starts, or is latched while an entry runs (R515). -/
def wakeUp (s : State) : State :=
  let p := s.chip.power
  if p.target.isSome && !p.exiting then s.onPower fun p => { p with wakeLatch := true }
  else if p.pstate != 0 then s.onPower fun p => { p with exiting := true, target := some 0 }
  else s

/-- A command leaves the lists of commands taken. -/
def dropTaken (c : Cmd) (s : State) : State :=
  let keep := fun (t : Taken) => t.cmd != c
  let s := s.onFunc (cmdA c) fun f => { f with taken := f.taken.filter keep, fwQueue := f.fwQueue.filter keep }
  { s with mail := { s.mail with heldWake := s.mail.heldWake.filter keep } }

/-- The opcode goes the direct path; every other goes the firmware path (R483). -/
def direct (op : Nat) : Bool := op / 256 == 3 || op / 256 == 5

/-- An earlier command of the same function and path has been taken and has not taken effect, so this one's row has no effect and
comes again (R486, log entry 165, DESIGN CHOICE); and no command runs with the domains off (R588). -/
def outOfTurn (op : Nat) (c : Cmd) (s : State) : Bool :=
  let f := s.func (cmdA c)
  let line := (s.mail.heldWake.filter fun t => t.cmd.fn == c.fn) ++ f.taken ++ f.fwQueue
  let path := line.filter fun t => direct t.opcode == direct op
  s.off || !(path.takeWhile fun t => t.cmd != c).isEmpty

/-- The module is in a low power state or on its way into or out of one (R514, R515). -/
def Power.low (p : Power) : Bool := p.pstate != 0 || p.target.isSome

/-- The course of a mailbox command as its engine takes it: its turn, the gates, a wake from a low power state, the command's own
rules, and its completion (R18, R485, R486, R515). (Log entry 2, DESIGN CHOICE.) -/
def runCmd (op : Nat) (c : Cmd) (s : State) (body : State → Res) : Result State :=
  let whole := s
  let waking := s.chip.power.low && !quiet op c
  let s := dropTaken c s
  if outOfTurn op c whole then .next whole
  else match stateGate (cmdA c) c.abi op s, lifeGate op s with
  | some st, _ | none, some st => .next (complete c op st (gatePayload op st) (if waking then wakeUp s else s))
  | none, none =>
    if waking then
      .next (wakeUp { s with mail := { s.mail with heldWake := s.mail.heldWake ++ [⟨c, op⟩] } })
    else
      match body s with
      | .done st payload s' => .next (complete c op st payload (if st.keeps then s else s'))
      | .wait key s' => .next { s' with mail := { s'.mail with waiting := s'.mail.waiting ++ [⟨c, op, key⟩] } }
      | .gone s' => .next s'
      | .hold => .next whole

/-- A completion with a status alone. -/
def fail (st : Status) (s : State) : Res := .done st [] s

/-- A command reads a range of its caller's: the read may wait for a host link, or fail, and a failing codeword is then
repaired and poisoned (R355, R383, R502). -/
def readHeld (a n : Nat) (s : State) (failed : State → Res) (k : Res) : Res :=
  if s.hostWaits a then .hold else if s.readFails a n then failed (s.discover a n) else k

/-- What a command's answer leaves besides. -/
def Res.after (f : State → State) : Res → Res
  | .done st payload s => .done st payload (f s)
  | .wait key s => .wait key (f s)
  | .gone s => .gone (f s)
  | .hold => .hold

/-- Ranges that the part reads for a command ask for their credits, as host-port transfers do (R358, R359, log entry 141, DESIGN
CHOICE). -/
def State.took (acct : Nat) (rs : List (Nat × Nat)) (s : State) : State := s.charge .host acct rs

/-- Bytes are written to a command's destination, with their credits (R358, R359). -/
def State.give (acct a : Nat) (bs : Bytes) (s : State) : State := (s.charge .host acct [(a, bs.length)]).write a bs

/-- The part reads a structure: its range must be the caller's (R598), and the read may fail (R355, R383). -/
def readFor (c : Cmd) (a n : Nat) (s : State) (k : Bytes → Res) : Res :=
  if !s.inAccount (cmdA c) a n then fail .denied s
  else readHeld a n s (fail .dataError) ((k (s.read a n)).after (State.took (cmdA c) [(a, n)]))

/-- The part writes a destination of the caller's (R598); the write may wait for a host link, or fail (R383, R502). -/
def writeFor (c : Cmd) (a n : Nat) (s : State) (k : (Bytes → State) → Res) : Res :=
  if !s.inAccount (cmdA c) a n then fail .denied s
  else if s.hostWaits a then .hold
  else if s.hostDead a || s.rangeFails a n then fail .dataError s
  else k fun bs => s.give (cmdA c) a bs

/-- An address field: bits [51:0], with [63:52] reserved. -/
def addrOk (a : Nat) : Bool := decide (a < 2 ^ 52)

/-! ## Taking commands (R482 to R484) -/

/-- The command that a slot's bytes spell. -/
def cmdOf (fn slot : Nat) (bs : Bytes) : Cmd :=
  { fn := fn, slot := slot, seqno := BitVec.ofNat 32 (fieldAt bs 4 4), abi := BitVec.ofNat 8 (fieldAt bs 2 1),
    notify := fieldAt bs 3 1 % 2 == 1, payload := BitVec.ofNat 384 (leNat (bs.drop 16)) }

/-- The bytes of a function's command slot. -/
def Func.slotBytes (f : Func) (slot : Nat) : Bytes := padTo 64 (tgetD f.cmdSlots slot [])

/-- The doorbell of a command that is not quiet wakes a module in a low power state (R515). -/
def wakeFor (fn slot : Nat) (s : State) : State :=
  let bs := (s.func fn).slotBytes slot
  if s.chip.power.low && !quiet (fieldAt bs 0 2) (cmdOf fn slot bs) then wakeUp s else s

/-- A write to CMD_DB: the slot is queued, or the doorbell ignored (R482, R515). -/
def ringDoorbell (fn : Nat) (value : Word) (s : State) : State :=
  let i := value.toNat % 64
  let f := s.func fn
  if f.doorbells.contains i || (tgetD f.resp i Resp.empty).rstate == 1 then s.onFunc fn fun f => { f with cmdErr := true }
  else wakeFor fn i (s.onFunc fn fun f => { f with doorbells := f.doorbells ++ [i] })

/-- A write to NTF_TAIL: entries are consumed, an owed OVERFLOW entry is posted, and what a pause left over is written (R487, R495,
R499). -/
def moveTail (fn : Nat) (value : Word) (s : State) : State :=
  flushHeld fn (flushOverflow fn (s.onFunc fn fun f => { f with tail := value }))

/-- CMD_DB (R482, R581). -/
def execCmdDb (fn : BitVec 10) (value : Word) (s : State) : Result State :=
  .next (if s.barDark then s else ringDoorbell fn.toNat value s)

/-- The header checks, which a command that fails them completes without becoming the last SEQNO (R484, R485). -/
def headerGate (bs : Bytes) (last : Option Word) : Option Status :=
  if fieldAt bs 10 6 != 0 || decide (2 ≤ fieldAt bs 3 1) then some .badArg
  else match last with
    | some t => if signed 32 (BitVec.ofNat 32 (fieldAt bs 4 4) - t).toNat ≤ 0 then some .badArg else none
    | none => none

/-- The function that a rotating turn serves next: the first ready one at or after the turn. -/
def nextTurn (turn n : Nat) (ready : Nat → Bool) : Option Nat :=
  ((List.range n).map fun i => (turn + i) % n).find? ready

/-- COMMAND_TAKE: the front end takes the oldest doorbell of the function whose turn it is, checks its header and its
account, and passes it on its path (R483 to R485). After a FUNCTION reset the mailbox is not ready, and what is posted is
refused while the account is STOPPING or DISABLED (R506). -/
def execCommandTake (port : BitVec 2) (s : State) : Result State :=
  let p := port.toNat
  match nextTurn (s.mail.turns.getD p 0) 256 fun i =>
      let f := s.func (256 * p + i)
      let refused := (s.acct (256 * p + i)).state == .stopping || (s.acct (256 * p + i)).state == .disabled
      !f.doorbells.isEmpty && !f.paused && (f.ready || (refused && s.chip.power.mailboxReady)) with
  | none => .next s
  | some i =>
    let fn := 256 * p + i
    let f := s.func fn
    let slot := f.doorbells.headD 0
    let bs := f.slotBytes slot
    let c := cmdOf fn slot bs
    let op := fieldAt bs 0 2
    let s := wakeFor fn slot { s with mail := { s.mail with turns := lmod s.mail.turns p fun _ => (i + 1) % 256 } }
    let s := s.onFunc fn fun f =>
      { f with doorbells := f.doorbells.drop 1, resp := tset f.resp slot ⟨op, c.abi, .ok, c.seqno, 1, 0, 0, []⟩ }
    match headerGate bs f.lastSeq with
    | some st => .next (complete c op st [] s)
    | none =>
      let s := s.onFunc fn fun f => { f with lastSeq := some c.seqno }
      if fieldAt bs 8 2 != fn then .next (complete c op .denied [] s)
      else match stateGate fn c.abi op s with
        | some st => .next (complete c op st (gatePayload op st) s)
        | none =>
          let t : Taken := ⟨c, op⟩
          .next (s.onFunc fn fun f =>
            if direct op then { f with taken := f.taken ++ [t] }
            else { f with fwQueue := f.fwQueue ++ [t] })

/-- FIRMWARE_ACCEPT: Neriv accepts the head of the firmware queue of the function whose turn it is (R483). -/
def execFirmwareAccept (s : State) : Result State :=
  match nextTurn s.mail.fwTurn 1024 fun fn => !(s.func fn).fwQueue.isEmpty && !(s.func fn).paused with
  | none => .next s
  | some fn =>
    let s := { s with mail := { s.mail with fwTurn := (fn + 1) % 1024 } }
    .next (s.onFunc fn fun f => { f with fwQueue := f.fwQueue.drop 1, taken := f.taken ++ f.fwQueue.take 1 })


/-- NTF_TAIL (R495, R581). -/
def execNtfTail (fn : BitVec 10) (value : Word) (s : State) : Result State :=
  .next (if s.barDark then s else moveTail fn.toNat value s)

/-! ## Management commands (R488) -/

/-- Another command of the function is queued or TAKEN (R491). -/
def otherOutstanding (c : Cmd) (s : State) : Bool :=
  let f := s.func (cmdA c)
  !f.doorbells.isEmpty || !f.fwQueue.isEmpty || (f.taken.any fun t => t.cmd != c) || !f.heldResp.isEmpty ||
  (s.mail.waiting.any fun w => w.cmd.fn == c.fn) || (s.mail.heldWake.any fun t => t.cmd.fn == c.fn && t.cmd != c)

/-- NEGOTIATE (R491). -/
def execNegotiate (c : Cmd) (s : State) : Result State :=
  runCmd 0x101 c s fun s =>
    let lo := cmdU c 0 1
    let hi := cmdU c 1 1
    let v := min hi 3
    if !cmdTail c 2 || lo == 0 || hi == 0 || decide (hi < lo) then fail .badArg s
    else if decide (v < lo) then fail .version s
    else if otherOutstanding c s then fail .busy s
    else
      let fn := cmdA c
      .done .ok (leBytes 1 v ++ [0x0E] ++ leBytes 2 fn ++ leBytes 1 (portOf fn) ++ leBytes 1 (fn % 256) ++ [64, 0])
        (s.onFunc fn fun f => { f with abi := BitVec.ofNat 8 v })

/-- The life-cycle code (R494). -/
def LifeCycle.code : LifeCycle → Nat
  | .manufactured => 0 | .provisioned => 1 | .owned => 2 | .decommissioned => 3

/-- A fabric address with its VALID bit, as IDENTIFY and FAB_ADDR_QUERY return it (R494, R409). -/
def addrWord (a : Option Nat) : Nat := match a with
  | some x => x + 2 ^ 15
  | none => 0

/-- The firmware type record (0 NERIV, 1 LEDGER, 2 OPTICS). -/
def State.fwType (s : State) (t : Nat) : FwType := s.chip.fw.types.getD t FwType.delivered

/-- The identity record (R494). -/
def identity (s : State) (fn : Nat) : Bytes :=
  padTo 8 ("SZH8-A6".toList.map fun ch => BitVec.ofNat 8 ch.toNat) ++ [0xB0] ++
  leBytes 1 s.chip.fw.lifecycle.code ++ leBytes 2 (addrWord s.chip.fabric.addr) ++ leBytes 1 (portOf fn) ++
  leBytes 1 (fn % 256) ++ leBytes 2 fn ++ leBytes 8 Config.serial.toNat ++
  leBytes 4 Config.keeperVersion.toNat ++ (List.range 3).flatMap (fun t => leBytes 4 (s.fwType t).run.version.toNat) ++
  leBytes 2 (s.fwType 0).run.svn ++ leBytes 2 s.chip.fw.floor ++ [0x0E, 0, 0, 0] ++
  (List.range 18).flatMap (fun i => leBytes 4 (Config.energyCoeff i).toNat) ++ List.replicate 8 0

/-- IDENTIFY (R494). -/
def execIdentify (c : Cmd) (s : State) : Result State :=
  runCmd 0x102 c s fun s =>
    if !cmdTail c 0 then fail .badArg s else .done .ok (identity s (cmdA c)) s

/-- NOTIFY_MASK (R498). -/
def execNotifyMask (c : Cmd) (s : State) : Result State :=
  runCmd 0x105 c s fun s =>
    let m := cmdU c 0 4
    if !cmdTail c 4 || m % 2 == 1 || decide (2 ^ 16 ≤ m) then fail .badArg s
    else .done .ok (leBytes 4 m) (s.onFunc (cmdA c) fun f => { f with mask := BitVec.ofNat 32 m })

/-- MAILBOX_RESUMED: the pause ends, MAILBOX_RESUMED is posted on every function with a version, and held responses and
notifications are written, those beyond the ring's room as room appears (R487). The length of the pause is time, and free. -/
def execMailboxResumed (s : State) : Result State :=
  let (ms, s) := s.free
  let fns := (List.range 1024).filter fun fn => (s.func fn).paused
  .next (fns.foldl (fun s fn =>
    let f := s.func fn
    let s := flushOverflow fn (s.onFunc fn fun f => { f with paused := false, heldNtf := [], heldResp := [] })
    let s := if f.abi == 0 then s else post fn 0x11 .ok (leBytes 4 (ms.toNat % 401)) s
    let s := f.heldResp.foldl (fun s r => writeResp r.1 r.2 s) s
    flushHeld fn (s.onFunc fn fun g => { g with heldNtf := f.heldNtf })) s)

end Sys2Proof.Machine
end

