-- ==== Sys2Proof/Machine/Kv.lean ====
section
/-!
DEFINITION. KV pages, their frames and pools, sharing domains, the Prefix Index and the Vault tier (09).
-/
namespace Sys2Proof.Machine

/-! ## Members and frames (R249, R285, R288) -/

/-- The members of a model's decode group on this part, 4 × die + Stream Engine, ascending. (Log entry 54, DEDUCED.) -/
def ModelMap.members (m : ModelMap) : List Nat :=
  (List.range 32).filter fun k => m.gshards.any fun x => x.part == m.part && x.die == k / 4 && x.se == k % 4
/-- The number of members of the group, on every part. -/
def ModelMap.groupSize (m : ModelMap) : Nat := (m.gshards.map fun x => (x.part, x.die, x.se)).dedup.length

/-- The bytes of a frame. -/
def Model.frameBytes (m : Model) : Nat := m.kv.ptok * 2 * m.map.layers * m.kv.kvRow
/-- A decode group stands: KV_ROW is set and every member of this part has a pool (R288). -/
def Model.grouped (m : Model) : Bool :=
  m.kv.kvRow != 0 && !m.map.gshards.isEmpty && m.map.members.all fun k => match tget m.kv.pools k with
    | some p => p.frames != 0
    | none => false

/-- The base address of a frame. -/
def Model.frameAddr (m : Model) (vault : Bool) (u frame : Nat) : Nat :=
  let p := tgetD (if vault then m.kv.vaults else m.kv.pools) u ⟨0, 0⟩
  p.base + frame * m.frameBytes
/-- The address of a page. -/
def State.pageAddr (s : State) (l : FrameLoc) : Nat := match s.model l.slot with
  | some m => m.frameAddr l.vault l.unit l.frame
  | none => 0

/-- A state is final (R258). -/
def SeqState.final : SeqState → Bool
  | .done | .cancelled | .expired | .faulted => true
  | _ => false

/-- The sequences of the table. -/
def State.seqs (s : State) : List (Nat × Seq) := s.gens.seqs
/-- A sequence by its place in the table. -/
def State.seq (s : State) (i : Nat) : Option Seq := tget s.gens.seqs i
/-- Change a sequence. -/
def State.onSeq (s : State) (i : Nat) (f : Seq → Seq) : State :=
  { s with gens := { s.gens with seqs := s.gens.seqs.map fun x => if x.1 == i then (i, f x.2) else x } }
/-- Change the generation tables. -/
def State.onGens (s : State) (f : GenState → GenState) : State := { s with gens := f s.gens }
/-- The sequences of a model. -/
def State.seqsOf (s : State) (slot : Nat) : List (Nat × Seq) := s.gens.seqs.filter fun x => x.2.slot == slot

/-- A page of a sequence still stands where a lookup matched it. -/
def Seq.awaits (q : Seq) (j : Nat) : Bool := q.imports.any fun i => i.page == j
/-- The pages of a sequence that lie in frames it holds. -/
def Seq.held (q : Seq) : List Page := (q.pages.zipIdx.filter fun p => !q.awaits p.2).map (·.1)
/-- A frame holds a page of a sequence. -/
def State.frameHeld (s : State) (l : FrameLoc) : Bool := s.gens.seqs.any fun x => x.2.held.any fun p => p.loc == l
/-- A frame holds an Index entry's page. -/
def State.frameIndexed (s : State) (l : FrameLoc) : Bool := s.gens.index.any fun e => e.loc == l
/-- An import will read the frame: the lookup's reference keeps it (R310). -/
def State.frameWanted (s : State) (l : FrameLoc) : Bool :=
  s.gens.seqs.any fun x => x.2.imports.any fun i => i.loc == l && i.kept.isNone

/-- The frames of a pool or Vault range. -/
def framesOf (s : State) (slot : Nat) (vault : Bool) (u : Nat) : List FrameLoc :=
  match s.model slot with
  | none => []
  | some m => (List.range (tgetD (if vault then m.kv.vaults else m.kv.pools) u ⟨0, 0⟩).frames).map fun f => ⟨slot, vault, u, f⟩
/-- The free frames among them (R303). -/
def freeFrames (s : State) (slot : Nat) (vault : Bool) (u : Nat) : List FrameLoc :=
  (framesOf s slot vault u).filter fun l => !s.frameHeld l && !s.frameIndexed l && !s.frameWanted l
/-- The cached frames: held only by entries (R286). -/
def cachedFrames (s : State) (slot : Nat) (vault : Bool) (u : Nat) : List FrameLoc :=
  (framesOf s slot vault u).filter fun l => !s.frameHeld l && s.frameIndexed l

/-- The least recently matched of some entries. -/
def leastRecent (es : List IdxEntry) : Option IdxEntry :=
  es.foldl (fun b e => match b with
    | none => some e
    | some x => if decide (e.last < x.last) then some e else some x) none

/-- The least recently matched entry among those whose frame is one of the given. -/
def oldestEntry (s : State) (ls : List FrameLoc) : Option IdxEntry :=
  leastRecent (s.gens.index.filter fun e => ls.contains e.loc)

/-- Remove entries from the Index. -/
def dropEntries (p : IdxEntry → Bool) (s : State) : State :=
  s.onGens fun g => { g with index := g.index.filter fun e => !p e }

/-- The bytes of a frame. -/
def State.frameBytes (s : State) (l : FrameLoc) : Bytes := match s.model l.slot with
  | some m => s.read (s.pageAddr l) m.frameBytes
  | none => []

/-- A cached frame is taken: its entries go, and the references of lookups keep the page's bytes (R295, R310). -/
def takeFrame (l : FrameLoc) (s : State) : State :=
  let keep := fun (i : Import) => if i.loc == l && i.kept.isNone then { i with kept := some (s.frameBytes l) } else i
  dropEntries (fun e => e.loc == l) (s.onGens fun g =>
    { g with seqs := g.seqs.map fun x => (x.1, { x.2 with imports := x.2.imports.map keep }) })

/-- The frame that a draw takes where none is free: that of the least recently matched cached page, one that no lookup's reference
keeps before one that does (R295, R306). -/
def cachedVictim (s : State) (slot : Nat) (vault : Bool) (u : Nat) : Option FrameLoc :=
  let cached := cachedFrames s slot vault u
  match oldestEntry s (cached.filter fun l => !s.frameWanted l), oldestEntry s cached with
  | some e, _ | none, some e => some e.loc
  | none, none => (framesOf s slot vault u).find? fun l => !s.frameHeld l

/-- Draw a frame: a free one, whichever, or that of the least recently matched cached page, whose entry goes (R295,
R306). Which free frame is taken is free (log entry 28, DESIGN CHOICE). -/
def drawFrame (slot : Nat) (vault : Bool) (u : Nat) (s : State) : Option (FrameLoc × State) :=
  match freeFrames s slot vault u with
  | l :: ls =>
    let (v, s) := s.free
    some ((l :: ls).getD (v.toNat % (ls.length + 1)) l, s)
  | [] => (cachedVictim s slot vault u).map fun l => (l, takeFrame l s)

/-- The bytes of a KV page are read for a copy: whether the read succeeds after the retries, the bytes, and the state (R300,
R306). -/
def readPage (acct : Nat) (l : FrameLoc) (s : State) : Bool × Bytes × State :=
  let b := s.frameBytes l
  let (ok, s) := s.engineRead .kvMove acct [(s.pageAddr l, b.length)]
  (ok, b, s)

/-- The bytes of a KV page are written to a frame, as a KV movement (R360). -/
def writePage (acct : Nat) (l : FrameLoc) (b : Bytes) (s : State) : State :=
  (s.charge .kvMove acct [(s.pageAddr l, b.length)]).write (s.pageAddr l) b

/-! ## Domains and hashes (R296 to R298) -/

/-- The instance of an account's private domain, created when first used (R297). (Log entry 58, DEDUCED.) -/
def privateInst (acct : Nat) (s : State) : Nat × State :=
  match tget s.gens.privInst acct with
  | some i => (i, s)
  | none => (s.gens.domCtr, s.onGens fun g => { g with domCtr := g.domCtr + 1, privInst := tset g.privInst acct g.domCtr })

/-- The instance of a domain that a sequence publishes in and matches from: its private domain, or a shared domain that
its account has joined. -/
def domainInst (acct dom : Nat) (s : State) : Option Nat × State :=
  if dom == 0 then
    let (i, s) := privateInst acct s
    (some i, s)
  else match tget s.gens.domains dom with
    | none => (none, s)
    | some d => (if d.members.contains acct then some d.inst else none, s)

/-- The number that names a model in a hash. -/
def modelId (dkey : DWord) (shared : Bool) (model epoch : Nat) (tag : DWord) : DWord :=
  if shared then tag else coin dkey (BitVec.ofNat 64 model) (BitVec.ofNat 64 epoch)
/-- The hash before page 0. -/
def chainStart (dkey mid : DWord) (kv : KvSet) (layers : Nat) : DWord :=
  coin dkey mid (BitVec.ofNat 64 (kv.ptok ||| (kv.kvFmt <<< 8) ||| (kv.kvRow <<< 16) ||| (layers <<< 40)))
/-- The hash of a page. -/
def pageHash (dkey prev : DWord) (toks : List Nat) : DWord := toks.foldl (fun x t => coin dkey x (BitVec.ofNat 64 t)) prev

/-- The chained hashes of the first pages of a token list. -/
def pageHashes (m : Model) (dom inst epoch n : Nat) (toks : List Nat) : List DWord :=
  let key := Config.domainKey inst
  let h := chainStart key (modelId key (dom != 0) m.map.num epoch m.kv.shareTag) m.kv m.map.layers
  ((List.range n).foldl (fun (r : List DWord × DWord) j =>
    let x := pageHash key r.2 ((toks.drop (j * m.kv.ptok)).take m.kv.ptok)
    (r.1 ++ [x], x)) ([], h)).1

/-- The model may publish and match in a domain (R297). -/
def Model.shares (m : Model) (dom : Nat) : Bool := dom == 0 || m.kv.shareTag != 0

/-! ## The Prefix Index (R299 to R303) -/

/-- The entry that a page matches: its domain, hash, parent and tokens agree (R299). -/
def findEntry (s : State) (dom inst : Nat) (hash : DWord) (parent : Option Nat) (toks : List Nat) : Option IdxEntry :=
  s.gens.index.find? fun e => e.dom == dom && e.inst == inst && e.hash == hash && e.parent == parent && e.tokens == toks

/-- Walk the pages of a prompt and answer the entries matched, in order (R301). -/
def walkIndex (s : State) (dom inst : Nat) (ptok : Nat) : List DWord → List Nat → Option Nat → List IdxEntry
  | [], _, _ => []
  | h :: hs, toks, parent => match findEntry s dom inst h parent (toks.take ptok) with
    | none => []
    | some e => e :: walkIndex s dom inst ptok hs (toks.drop ptok) (some e.id)

/-- An entry is matched now. -/
def touchEntries (ids : List Nat) (s : State) : State :=
  s.onGens fun g => { g with clock := g.clock + 1, index := g.index.map fun e => if ids.contains e.id then { e with last := g.clock } else e }

/-- Publish one page of a sequence: skipped where an entry has the hash and parent, and at the account's quota replacing
its entry that was matched least recently (R302, R303). -/
def publishPage (acct slot dom inst epoch quota : Nat) (hash : DWord) (parent : Option Nat) (toks : List Nat) (loc : FrameLoc)
    (s : State) : State :=
  let mine := s.gens.index.filter fun e => e.acct == acct
  let out := if decide (mine.length < quota) then none else (leastRecent mine).map (·.id)
  if quota == 0 || s.gens.index.any fun e => e.dom == dom && e.inst == inst && e.hash == hash && e.parent == parent then s
  else s.onGens fun g =>
    { g with idxCtr := g.idxCtr + 1, clock := g.clock + 1,
             index := (g.index.filter fun e => some e.id != out) ++
               [⟨g.idxCtr, dom, inst, acct, slot, epoch, hash, parent, toks, loc, g.clock⟩] }

/-- The instance of the domain that a sequence publishes in: its account's private domain, or the shared domain under the
membership it was admitted with, as long as that stands (R296). -/
def publishInst (q : Seq) (s : State) : Option Nat × State :=
  if q.domain == 0 then domainInst q.acct 0 s
  else match tget s.gens.domains q.domain, q.joined with
    | some d, some (inst, stamp) =>
      (if d.members.contains q.acct && d.inst == inst && tget d.stamps q.acct == some stamp then some inst else none, s)
    | _, _ => (none, s)

/-- The membership of a domain that an account has now. -/
def membership (acct dom : Nat) (s : State) : Option (Nat × Nat) := match tget s.gens.domains dom with
  | some d => if d.members.contains acct then some (d.inst, tgetD d.stamps acct 0) else none
  | none => none

/-- Publish the pages of a sequence that have become full, page by page: its own pages whose slots are all COMMITTED, prompt
pages under PUBLISH 0 or 1 and others under PUBLISH 1, each below the entry of the page before it (R302). A page that publication
has passed is not looked at again (log entry 155, DEDUCED). -/
def publishSeq (i : Nat) (s : State) : State :=
  match s.seq i with
  | none => s
  | some q => match s.model q.slot with
    | none => s
    | some m =>
      let n := (q.pages.takeWhile fun p => p.tags.all fun t => t == 2).length
      let (inst, s) := publishInst q s
      let s := s.onSeq i fun q => { q with published := n }
      match inst with
      | none => s
      | some inst =>
        if m.kv.publish == 2 || !m.shares q.domain || !q.imports.isEmpty || decide (n ≤ q.published) then s
        else
          let hs := pageHashes m q.domain inst m.w.epoch n q.tokens
          let quota := (s.acct q.acct).quota.prefixes
          -- each page with the entry of the page before it, none once the chain of entries breaks
          ((List.range n).foldl (fun (r : State × Option (Option Nat)) j => match r.2 with
            | none => r
            | some parent =>
              let toks := (q.tokens.drop (j * m.kv.ptok)).take m.kv.ptok
              let h := hs.getD j 0
              let ok := match q.pages[j]? with
                | some p => decide (q.published ≤ j) && p.own && !p.shared && (p.tags.all fun t => t == 2) &&
                  (m.kv.publish == 1 || decide ((j + 1) * m.kv.ptok ≤ q.promptLen))
                | none => false
              let s := match q.pages[j]? with
                | some p => if ok then publishPage q.acct q.slot q.domain inst m.w.epoch quota h parent toks p.loc r.1 else r.1
                | none => r.1
              (s, (findEntry s q.domain inst h parent toks).map fun e => some e.id)) (s, some none)).1

/-! ## Leaving domains (R296, R472) -/

/-- A domain after an account has left it; none where it was the last member. -/
def Domain.leave (d : Domain) (a : Nat) : Option Domain :=
  let ms := d.members.filter (· != a)
  if ms.isEmpty then none else some { d with members := ms, grants := d.grants.filter fun g => g.1 != a, stamps := terase d.stamps a }

/-- An account leaves a domain: its membership, its grants and its entries there go, and the domain with its last member. -/
def leaveDomain (dom a : Nat) (s : State) : State :=
  s.onGens fun g =>
    { g with domains := g.domains.filterMap (fun x => if x.1 == dom then (x.2.leave a).map fun d => (dom, d) else some x),
             index := g.index.filter fun e => !(e.dom == dom && e.acct == a) }

/-! ## Commands (R286 to R288, R296) -/

/-- The window slot of the model that a command names in its account. -/
def cmdSlot (c : Cmd) (num : Nat) (s : State) : Option Nat := s.slotOf (cmdA c) num

/-- Some entry of the model is not FREE. -/
def State.modelBusy (s : State) (slot : Nat) : Bool := !(s.seqsOf slot).isEmpty
/-- A page of a model exists, in a sequence or in the Index. -/
def State.modelPages (s : State) (slot : Nat) : Bool :=
  (s.gens.seqs.any fun x => x.2.pages.any fun p => p.loc.slot == slot) || s.gens.index.any fun e => e.loc.slot == slot

/-- The value of a KV_MODEL_SET field is in range (R287). -/
def kvValueOk (field v : Nat) : Bool :=
  match field with
  | 1 => [16, 32, 64].contains v
  | 2 => decide (64 ≤ v) && decide (v ≤ 65536) && v % 64 == 0
  | 3 => [1, 2, 5].contains v
  | 4 => decide (v ≤ 2)
  | 5 => true
  | 6 | 7 => decide (v ≤ 100)
  | 8 => decide (1 ≤ v) && decide (v ≤ 200)
  | _ => false

/-- Set a field of the KV settings. -/
def KvSet.put (k : KvSet) (field v : Nat) : KvSet :=
  match field with
  | 1 => { k with ptok := v }
  | 2 => { k with kvRow := v }
  | 3 => { k with kvFmt := v }
  | 4 => { k with publish := v }
  | 5 => { k with shareTag := BitVec.ofNat 64 v }
  | 6 => { k with cacheHi := v }
  | 7 => { k with vcacheHi := v }
  | _ => { k with moveRate := v }

/-- KV_MODEL_SET (R287). -/
def execKvModelSet (c : Cmd) (s : State) : Result State :=
  runCmd 0x210 c s fun s =>
    let field := cmdU c 2 1
    let v := cmdU c 8 8
    if !cmdTail c 16 || !cmdZ c 3 5 || !kvValueOk field v then fail .badArg s
    else match cmdSlot c (cmdU c 0 2) s with
      | none => fail .notFound s
      | some k =>
        if decide (field ≤ 3) && (s.modelBusy k || s.modelPages k) then fail .refusedState s
        else fail .ok (s.onModel k fun m => { m with kv := m.kv.put field v })

/-- The range lies in one channel quarter of a die: named in the quarter view there, or a striped run of the quarter's
channels (R288, R345). -/
def inQuarter (die quarter a n : Nat) : Bool :=
  if a < quarterBase then
    a / 2 ^ 37 == die && a / 512 % 64 / 16 == quarter && decide (a % 8192 + n ≤ 8192)
  else decide (quarterBase + die * 2 ^ 37 + quarter * 2 ^ 35 ≤ a) &&
    decide (a + n ≤ quarterBase + die * 2 ^ 37 + quarter * 2 ^ 35 + 24 * 2 ^ 30)

/-- The physical die of a partition's die index. -/
def State.physDie (s : State) (acct i : Nat) : Nat := (s.acctDies acct).getD i 0

/-- The course of KV_POOL_SET and KV_VAULT_SET (R288). (Log entry 55, DEDUCED.) -/
def setPool (c : Cmd) (vault : Bool) (okField : Bool) (u : Nat) (inPlace : Nat → Nat → Bool) (s : State) : Res :=
  let frames := cmdU c 4 4
  let base := cmdU c 8 8
  if !cmdTail c 16 || !cmdZ c 3 1 || !okField || !addrOk base || base % 64 != 0 then fail .badArg s
  else match cmdSlot c (cmdU c 0 2) s with
    | none => fail .notFound s
    | some k => match s.model k with
      | none => fail .notFound s
      | some m =>
        let n := frames * m.frameBytes
        let used := (framesOf s k vault u).any fun l => s.frameHeld l || s.frameIndexed l || s.frameWanted l
        if m.kv.kvRow == 0 || !(vault || m.map.members.contains u) then fail .badArg s
        else if frames != 0 && !(s.inGrants (cmdA c) base n && inPlace base n) then fail .denied s
        else if s.modelBusy k || used then fail .refusedState s
        else
          let put := fun (t : Tbl Pool) => if frames == 0 then terase t u else tset t u ⟨base, frames⟩
          fail .ok (s.onModel k fun m =>
            { m with kv := if vault then { m.kv with vaults := put m.kv.vaults } else { m.kv with pools := put m.kv.pools } })

/-- KV_POOL_SET: MEMBER names a die of the partition and a Stream Engine (R288). -/
def execKvPoolSet (c : Cmd) (s : State) : Result State :=
  runCmd 0x211 c s fun s =>
    let b := cmdU c 2 1
    let die := b % 8
    let se := b / 8 % 4
    let ok := decide (b < 32) && decide (die < (s.acctDies (cmdA c)).length)
    setPool c false ok (4 * die + se) (inQuarter (s.physDie (cmdA c) die) se) s

/-- KV_VAULT_SET (R288). -/
def execKvVaultSet (c : Cmd) (s : State) : Result State :=
  runCmd 0x212 c s fun s =>
    let die := cmdU c 2 1
    let phys := s.physDie (cmdA c) die
    setPool c true (decide (die < (s.acctDies (cmdA c)).length)) die
      (fun a n => match locOf a, locOf (a + n - 1) with
        | some (.vault d _), some (.vault d' _) => d == phys && d' == phys
        | _, _ => false) s

/-- KV_DOMAIN_CREATE: the lowest free number (log entry 28, DESIGN CHOICE). -/
def execKvDomainCreate (c : Cmd) (s : State) : Result State :=
  runCmd 0x213 c s fun s =>
    let a := cmdA c
    let mine := (s.gens.domains.filter fun x => x.2.creator == a).length
    if !cmdTail c 0 then fail .badArg s
    else match ((List.range 1023).map (· + 1)).find? fun n => (tget s.gens.domains n).isNone with
      | none => fail .noResource s
      | some n =>
        if decide ((s.acct a).quota.domains ≤ mine) then fail .noResource s
        else
          .done .ok (leBytes 2 n) (s.onGens fun g =>
            { g with domCtr := g.domCtr + 1, domains := tset g.domains n ⟨g.domCtr, a, [a], [], 1, [(a, 0)]⟩ })

/-- KV_DOMAIN_GRANT (R296). -/
def execKvDomainGrant (c : Cmd) (s : State) : Result State :=
  runCmd 0x214 c s fun s =>
    let a := cmdA c
    let n := cmdU c 0 2
    let to_ := cmdU c 2 2
    if !cmdTail c 4 || n == 0 || decide (1023 < n) || decide (1023 < to_) then fail .badArg s
    else match tget s.gens.domains n with
      | none => fail .notFound s
      | some d =>
        if !d.members.contains a then fail .denied s
        else
          let gs := if d.grants.contains (a, to_) then d.grants else d.grants ++ [(a, to_)]
          fail .ok (s.onGens fun g => { g with domains := tset g.domains n { d with grants := gs } })

/-- KV_DOMAIN_JOIN: the caller's grants end as it joins (R296). -/
def execKvDomainJoin (c : Cmd) (s : State) : Result State :=
  runCmd 0x215 c s fun s =>
    let a := cmdA c
    let n := cmdU c 0 2
    if !cmdTail c 2 || n == 0 || decide (1023 < n) then fail .badArg s
    else match tget s.gens.domains n with
      | none => fail .notFound s
      | some d =>
        if !(d.grants.any fun g => g.2 == a) then fail .denied s
        else
          let grants := d.grants.filter fun g => g.2 != a
          let d := if d.members.contains a then { d with grants := grants }
            else { d with members := d.members ++ [a], grants := grants, joins := d.joins + 1, stamps := tset d.stamps a d.joins }
          fail .ok (s.onGens fun g => { g with domains := tset g.domains n d })

/-- KV_DOMAIN_LEAVE (R296). -/
def execKvDomainLeave (c : Cmd) (s : State) : Result State :=
  runCmd 0x216 c s fun s =>
    let a := cmdA c
    let n := cmdU c 0 2
    if !cmdTail c 2 || n == 0 || decide (1023 < n) then fail .badArg s
    else match tget s.gens.domains n with
      | none => fail .notFound s
      | some d => if !d.members.contains a then fail .denied s else fail .ok (leaveDomain n a s)

/-- KV_FLUSH: the caller's entries for the model are removed (R286, R303). -/
def execKvFlush (c : Cmd) (s : State) : Result State :=
  runCmd 0x217 c s fun s =>
    if !cmdTail c 2 then fail .badArg s
    else match cmdSlot c (cmdU c 0 2) s with
      | none => fail .notFound s
      | some k =>
        let mine := fun (e : IdxEntry) => e.acct == cmdA c && e.slot == k
        .done .ok (leBytes 4 (s.gens.index.filter mine).length) (dropEntries mine s)

/-- KV_POOL_QUERY: frames over all members and dies (R286). (Log entry 56, DEDUCED.) -/
def execKvPoolQuery (c : Cmd) (s : State) : Result State :=
  runCmd 0x218 c s fun s =>
    if !cmdTail c 2 then fail .badArg s
    else match cmdSlot c (cmdU c 0 2) s with
      | none => fail .notFound s
      | some k =>
        let count := fun (vault : Bool) (f : FrameLoc → Bool) =>
          ((List.range 32).flatMap fun u => framesOf s k vault u).countP f
        let idle := fun (l : FrameLoc) => !s.frameHeld l && !s.frameIndexed l && !s.frameWanted l
        let cached := fun (l : FrameLoc) => !s.frameHeld l && s.frameIndexed l
        let live := (s.seqsOf k).filter fun x => !x.2.state.final
        .done .ok ([count false idle, (live.map fun x => x.2.reserved).sum, count false s.frameHeld, count false cached,
          count true idle, count true s.frameHeld, count true cached].flatMap (leBytes 4)) s

/-! ## Placement (R305) -/

/-- DEMOTION: the least recently matched cached page of a member over CACHE_HI is copied to the Vault of its die while the
cached Vault frames stay within VCACHE_HI, and freed otherwise. (Log entry 68, DEDUCED.) -/
def execDemotion (slot : BitVec 6) (member : BitVec 5) (s : State) : Result State :=
  let k := slot.toNat
  let u := member.toNat
  match s.model k with
  | none => .next s
  | some m =>
    let cached := cachedFrames s k false u
    if decide (cached.length * 100 ≤ m.kv.cacheHi * (framesOf s k false u).length) then .next s
    else match oldestEntry s (cached.filter fun l => !s.frameWanted l) with
      | none => .next s
      | some e =>
        let vc := (cachedFrames s k true (u / 4)).length
        let room := decide ((vc + 1) * 100 ≤ m.kv.vcacheHi * (framesOf s k true (u / 4)).length)
        match (if room then freeFrames s k true (u / 4) else []) with
        | [] => .next (dropEntries (fun x => x.id == e.id) s)
        | l :: ls =>
          let (v, s) := s.free
          let to_ := (l :: ls).getD (v.toNat % (ls.length + 1)) l
          let (ok, b, s) := readPage e.acct e.loc s
          if !ok then .next (dropEntries (fun x => x.id == e.id) s)
          else
            let move := fun (x : IdxEntry) => if x.id == e.id then { x with loc := to_ } else x
            .next ((writePage e.acct to_ b s).onGens fun g => { g with index := g.index.map move })

end Sys2Proof.Machine
end

