-- ==== Sys2Proof/Machine/Clock.lean ====
section
/-!
DEFINITION. What passes with time alone: a cycle of the reference clock (17 R508), which the step takes when no command
waits (log entry 12, DESIGN CHOICE).
-/
namespace Sys2Proof.Machine

/-- The HBM frames and the Vault frames that hold pages of an account's sequences or are reserved for them: each frame once, whoever
refers to its page, and what reservations have still to draw (R295). -/
def pageFrames (s : State) (acct : Nat) : Nat × Nat :=
  let live := (s.gens.seqs.map (·.2)).filter fun q => q.acct == acct && !q.state.final
  let frames := fun (vault : Bool) => ((live.flatMap fun q => (q.held.filter fun p => p.loc.vault == vault).map (·.loc)).dedup).length
  let owed := fun (q : Seq) => q.reserved - (q.pages.filter fun p => !p.shared && !p.loc.vault).length
  (frames false + (live.map owed).sum, frames true)

/-- Page-milliseconds of a nanosecond interval (R473). -/
def pageTime (ns : Nat) (s : State) : State :=
  if s.gens.seqs.isEmpty then s
  else ((s.gens.seqs.map (·.2.acct)).dedup).foldl (fun s a =>
    let (h, v) := pageFrames s a
    s.onAcct a fun x => { x with hbmPageNs := x.hbmPageNs + h * ns, vaultPageNs := x.vaultPageNs + v * ns }) s

/-- NTF_VEC messages that NTF_HOLD kept back and whose time has come (R479). -/
def owedVecs (s : State) : State :=
  ((List.range 1024).filter fun fn => (s.func fn).ntfOwed).foldl (fun s fn => raiseNtf fn s) s

/-- A reference cycle: module time advances by 10 ns (R508). (Log entry 121, DEDUCED.) -/
def tick (s : State) : State := owedVecs (pageTime 10 { s with mtime := s.mtime + 10 })

end Sys2Proof.Machine
end

