-- ==== Sys2Proof/Machine/Work.lean ====
section
/-!
DEFINITION. Accepted work packages (05): their queues, semaphores, records, prologue, replay and ends. The meanings of the
package rows are in `Packages.lean`; the loader is in `Loader.lean`.
-/
namespace Sys2Proof.Machine

/-! ## Looking up packages and descriptors -/

/-- A package by its account and handle. -/
def State.pkg (s : State) (p : PkgId) : Option Pkg := s.pkgs.find? fun x => x.id == p
/-- Change a package. -/
def State.onPkg (s : State) (p : PkgId) (f : Pkg → Pkg) : State :=
  { s with pkgs := s.pkgs.map fun x => if x.id == p then f x else x }
/-- Change a descriptor. -/
def State.onDesc (s : State) (d : DescId) (f : Desc → Desc) : State :=
  s.onPkg d.pkg fun p => { p with descs := lmod p.descs d.idx.toNat f }
/-- A descriptor and its package. -/
def State.desc (s : State) (d : DescId) : Option (Pkg × Desc) :=
  match s.pkg d.pkg with
  | none => none
  | some p => match p.descs[d.idx.toNat]? with
    | none => none
    | some x => some (p, x)

/-- A field of a descriptor. -/
def Desc.u (d : Desc) (off n : Nat) : Nat := fieldAt d.raw off n
/-- KIND (R159). -/
def Desc.kind (d : Desc) : Nat := d.u 0 1
/-- FENCE (R159). -/
def Desc.fence (d : Desc) : Bool := d.u 1 1 % 2 == 1
/-- The UNIT word, which names the queue (R159, R160). -/
def Desc.unit (d : Desc) : Nat := d.u 2 2
/-- WAIT, a semaphore entry plus one. -/
def Desc.wait (d : Desc) : Nat := d.u 4 1
/-- SIGNAL, a semaphore entry plus one. -/
def Desc.signal (d : Desc) : Nat := d.u 5 1
/-- WAIT_VALUE. -/
def Desc.target (d : Desc) : Word := BitVec.ofNat 32 (d.u 8 4)
/-- The position of a tile descriptor in its chain (R103). -/
def Desc.pos (d : Desc) : Nat := if d.kind == 1 then d.u 0x32 2 % 4 else 0

/-- The physical die of a descriptor: dies are numbered within the partition (R155). -/
def Pkg.die (p : Pkg) (d : Desc) : Nat := p.dies.getD (d.unit % 8) 0
/-- The physical core of a descriptor. -/
def Pkg.core (p : Pkg) (d : Desc) : Nat := 16 * p.die d + d.unit / 8 % 16
/-- The arrays of a tile descriptor (R101). -/
def Desc.arrays (d : Desc) : Nat := bitField (d.u 0x10 4) 16 4

/-- The chain that a tile descriptor belongs to, as indices in order: itself for SINGLE, and from FIRST to LAST on its
arrays in its queue otherwise (R107). -/
def Pkg.chain (p : Pkg) (i : Nat) : List Nat :=
  match p.descs[i]? with
  | none => []
  | some d =>
    if d.pos == 0 then [i]
    else
      let q := (p.descs.zipIdx.filter fun x => x.1.unit == d.unit && x.1.kind == 1 && x.1.arrays == d.arrays).map fun x => (x.2, x.1.pos)
      let first := ((q.filter fun x => decide (x.1 ≤ i) && x.2 == 1).getLastD (i, 1)).1
      let tail := q.filter fun x => decide (first ≤ x.1)
      let n := (tail.findIdx fun x => x.2 == 3) + 1
      (tail.take n).map (·.1)

/-- A package holds its resources: it has not ended (R170). -/
def Pkg.resident (p : Pkg) : Bool := p.state != .done
/-- A package runs its queues (R171, R182). -/
def Pkg.running (p : Pkg) : Bool := p.state == .running || p.state == .replaying
/-- A descriptor names a core: a tile, a vector program, or a SYNC on a queue of a core's engine (R159, R171). -/
def Desc.namesCore (d : Desc) : Bool := d.kind == 1 || d.kind == 2 || (d.kind == 4 && decide (bitField d.unit 7 3 ≤ 1))
/-- The cores that a package's descriptors name (R171). -/
def Pkg.cores (p : Pkg) : List Nat := ((p.descs.filter Desc.namesCore).map p.core).dedup

/-! ## Semaphores (R164) -/

/-- The value of a package's semaphore, named by its entry plus one. -/
def semValue (s : State) (p : Pkg) (e : Nat) : Word :=
  match p.sems[e - 1]? with
  | none => 0
  | some x => if x.kind == 1 then tgetD (s.acct p.id.acct.toNat).sems x.index 0 else x.value

/-- A wait is satisfied: `(s32)(value - target) ≥ 0` (R164). -/
def semReached (value target : Word) : Bool := (value - target).msb == false

/-- Signal an account semaphore (R164). -/
def signalAcct (a i : Nat) (s : State) : State :=
  s.onAcct a fun x => { x with sems := tset x.sems i (tgetD x.sems i 0 + 1) }

/-- The semaphore entry is an account semaphore. -/
def Pkg.isAcctSem (p : Pkg) (e : Nat) : Bool :=
  match p.sems[e - 1]? with
  | some x => x.kind == 1
  | none => false

/-- Signal a package's semaphore, named by its entry plus one; 0 names none. -/
def signalSem (id : PkgId) (e : Nat) (s : State) : State :=
  match s.pkg id with
  | none => s
  | some p =>
    if e == 0 then s
    else match p.sems[e - 1]? with
      | none => s
      | some x =>
        if x.kind == 1 then signalAcct id.acct.toNat x.index s
        else s.onPkg id fun p => { p with sems := lmod p.sems (e - 1) fun x => { x with value := x.value + 1 } }

/-- A descriptor issues a signal: one to an account semaphore that an earlier pass already issued is not issued again: as many
as were issued are suppressed (R183). -/
def issueSignal (d : DescId) (e : Nat) (s : State) : State :=
  match s.desc d with
  | none => s
  | some (p, x) =>
    if p.state == .stopping then s
    else if p.isAcctSem e then
      let n := tgetD x.passed e 0 + 1
      let s := s.onDesc d fun x => { x with passed := tset x.passed e n }
      if decide (n ≤ tgetD x.signals e 0) then s
      else signalSem d.pkg e (s.onDesc d fun x => { x with signals := tset x.signals e n })
    else signalSem d.pkg e s

/-! ## Amax tables (R564, R565) -/

/-- The model of an account, by its number. -/
def State.modelOf (s : State) (acct num : Nat) : Option Model :=
  match s.slotOf acct num with
  | some k => s.model k
  | none => none

/-- The amax entry that a package's tensor uses: its model's, or the account's for MODEL 0. -/
def amaxEntry (s : State) (p : Pkg) (tid : Nat) : Option Amax :=
  if p.model == 0 then tget (s.acct p.id.acct.toNat).amax tid
  else match s.modelOf p.id.acct.toNat p.model with
    | some m => tget m.amax tid
    | none => none

/-- PREV of an entry, 0 where there is none. -/
def amaxPrev (s : State) (p : Pkg) (tid : Nat) : Word :=
  match amaxEntry s p tid with
  | some e => e.prev
  | none => 0

/-- Merge a finite magnitude into CUR of a tensor (R114, R137, R419). (Log entry 90, DEDUCED.) -/
def amaxMerge (p : Pkg) (tid : Nat) (w : Word) (s : State) : State :=
  let up := fun (t : Tbl Amax) =>
    let e := tgetD t tid ⟨0, 0, 0⟩
    tset t tid { e with cur := if decide (e.cur.toNat < w.toNat) then w else e.cur, epoch := p.epoch }
  if tid == 0 then s
  else if p.model == 0 then s.onAcct p.id.acct.toNat fun a => { a with amax := up a.amax }
  else match s.slotOf p.id.acct.toNat p.model with
    | some k => s.onModel k fun m => { m with amax := up m.amax }
    | none => s

/-- The largest finite magnitude of FP32 patterns, as a pattern. -/
def finiteMax (ws : List Word) : Word :=
  ws.foldl (fun m w =>
    let a := w &&& 0x7FFFFFFF
    if decide (a.toNat < 0x7F800000) && decide (m.toNat < a.toNat) then a else m) 0

/-! ## Engines (R172) -/

/-- The engine of a descriptor: the arrays or the vector unit of a core, the transfer engine, the Clearing port or the Ledger
port of a die (R159). -/
def Pkg.engine (p : Pkg) (d : Desc) : Nat :=
  let e := bitField d.unit 7 3
  128 * e + (if decide (e ≤ 1) then p.core d else p.die d)

/-- The descriptors that an engine may serve next, as account, order of acceptance and identity. -/
def State.eligible (s : State) (ok : Pkg → Nat → Desc → Bool) : List (Nat × Nat × DescId) :=
  s.pkgs.flatMap fun p => p.descs.zipIdx.filterMap fun x =>
    if ok p x.2 x.1 then some (p.id.acct.toNat, p.order, ⟨p.id, BitVec.ofNat 14 x.2⟩) else none

/-- The least of numbers. -/
def leastOf (ns : List Nat) : Option Nat := ns.head?.map fun n => ns.foldl Nat.min n

/-- The descriptor that an engine chooses: round-robin among accounts with eligible descriptors, and in the account that of the
package accepted first (R172). -/
def chooseDesc (turn : Nat) (cs : List (Nat × Nat × DescId)) : Option DescId :=
  let accts := cs.map (·.1)
  match (leastOf (accts.filter fun a => decide (turn ≤ a))).orElse fun _ => leastOf accts with
  | none => none
  | some a =>
    let mine := cs.filter fun c => c.1 == a
    match leastOf (mine.map (·.2.1)) with
    | none => none
    | some o => (mine.find? fun c => c.2.1 == o).map (·.2.2)

/-- An engine's turn falls to a descriptor (R172). -/
def State.serves (s : State) (engine : Nat) (ok : Pkg → Nat → Desc → Bool) (d : DescId) : Bool :=
  chooseDesc (tgetD s.svcTurn engine 0) (s.eligible ok) == some d

/-- An engine has served an account; its round robin goes on to the next (R172). -/
def State.served (s : State) (engine acct : Nat) : State := { s with svcTurn := tset s.svcTurn engine (acct + 1) }

/-! ## Records (R176, R177) -/

/-- The codes of WP_QUERY (R177). -/
def PkgState.code : PkgState → Nat
  | .loaded => 0 | .phaseWait => 1 | .running => 2 | .replaying => 3 | .stopping => 4 | .held => 5 | .done => 6

/-- A descriptor record (R176). -/
def descRecord (d : Desc) (st : Status) : Bytes :=
  leBytes 4 (d.u 0xC 4) ++ leBytes 1 st.code ++ leBytes 1 d.kind ++ [0, 0] ++ leBytes 4 d.result.toNat ++
  leBytes 4 d.elapsed.toNat

/-- The first descriptor that ended other than OK. -/
def firstBad (descs : List Desc) : Nat :=
  match descs.findIdx? fun d => !(d.state == .done && d.status == .ok) with
  | some i => i
  | none => 0xFFFFFFFF

/-- The flags of OUTFLAGS that a RESULT word holds: those of tiles, vector programs and collectives stand in bits [6:2]; the
word of a feed holds other flags there (R118, R151, R176, R226, R423). -/
def Desc.outFlags (d : Desc) : Nat := if d.kind == 6 then 0 else bitField d.result.toNat 2 5

/-- The package record (R176); STATUS BUSY while the package has not ended. -/
def pkgRecord (p : Pkg) : Bytes :=
  let ended := p.state == .done
  let out := p.descs.foldl (fun f d => f ||| d.outFlags) 0
  leBytes 4 p.id.handle.toNat ++ leBytes 1 (if ended then p.status.code else Status.busy.code) ++
  leBytes 1 p.replays ++ leBytes 2 (out ||| p.outFlags) ++
  leBytes 4 (p.descs.filter fun d => d.state == .done && d.status == .ok).length ++
  leBytes 4 (if ended then firstBad p.descs else 0) ++
  leBytes 8 p.epoch.toNat ++ leBytes 8 p.tStart.toNat ++ leBytes 8 p.tEnd.toNat ++ leBytes 8 p.tag.toNat ++
  List.replicate 16 0

/-- The records that the loader writes at acceptance: STATUS BUSY, DESC_ID and KIND, and zero elsewhere. -/
def busyRecords (p : Pkg) : Bytes :=
  padTo 64 ([0, 0, 0, 0] ++ leBytes 1 Status.busy.code) ++
  p.descs.flatMap fun d => leBytes 4 (d.u 0xC 4) ++ leBytes 1 Status.busy.code ++ leBytes 1 d.kind ++ List.replicate 10 0

/-- Microseconds between two module times, saturating (R176). -/
def elapsedUs (t0 t1 : DWord) : Word := BitVec.ofNat 32 (min 0xFFFFFFFF ((t1 - t0).toNat / 1000))

/-! ## Ends (R178, R179) -/

/-- The work of a package leaves every core (R178). -/
def clearWork (id : PkgId) (s : State) : State :=
  let mine := fun (c : Core) => match c.prog with
    | some v => v.desc.pkg == id
    | none => false
  let idle := fun (t : Thread) => { t with state := ThreadState.idle }
  let off := fun (c : Core) =>
    { c with tiles := c.tiles.filter (fun t => t.first.pkg != id), prog := if mine c then none else c.prog,
             threads := if mine c then c.threads.map idle else c.threads, queue := if mine c then [] else c.queue }
  { s with cores := s.cores.map off }

/-- The physical dies of the other members of a round's group that lie on this part (R413). -/
def otherDies (s : State) (r : Round) : List Nat :=
  match s.chip.fabric.slots.find? fun x => x.2.job == r.job with
  | none => []
  | some (k, js) =>
    ((tgetD js.groups r.group []).filterMap fun m =>
      if m.part == js.part then (s.acctDies (k / 16))[m.die]? else none).filter fun d => d != r.die

/-- The same round on any member (R418). -/
def Round.same (r q : Round) : Bool := r.job == q.job && r.group == q.group && r.cid == q.cid && r.round == q.round

/-- Another member of this part has still to join or to complete a round that this one contributed to: the contribution stands
(R422). -/
def Round.standsFor (s : State) (r : Round) : Bool :=
  !r.sent.isEmpty && (otherDies s r).any fun d =>
    !r.taken.contains d && match s.chip.fabric.rounds.find? fun q => r.same q && q.die == d with
    | some q => q.result.isNone
    | none => true

/-- The package of a round's descriptor is resident. -/
def Round.live (s : State) (r : Round) : Bool := s.pkgs.any fun p => p.id == r.desc.pkg && p.state != .done

/-- A package's contributions and kept results are dropped when it completes, but for a contribution that another member of this
part has still to take (R418, R422). -/
def clearRounds (id : PkgId) (s : State) : State :=
  let ended := s.chip.fabric.rounds.filter fun r => r.desc.pkg == id && r.result.isSome
  let mark := fun (r : Round) => { r with taken := r.taken ++ (ended.filter fun q => q.same r && !r.taken.contains q.die).map (·.die) }
  let s := s.onFabric fun f => { f with rounds := f.rounds.map mark }
  let keep := fun (r : Round) => (r.desc.pkg != id && r.live s) || r.standsFor s
  s.onFabric fun f => { f with rounds := f.rounds.filter keep }

/-- The rounds of packages that a reset of their partition, or the stop of their account, has ended are gone, with what was sent for
them (R428). -/
def dropRounds (gone : PkgId → Bool) (s : State) : State :=
  s.onFabric fun f => { f with rounds := f.rounds.filter fun r => !gone r.desc.pkg }

/-- A region is copied, as the transfers of a prologue or a stop do it; what cannot be read leaves its destination unspecified (R178,
R182, R355). (Log entry 167, DESIGN CHOICE.) -/
def copyRange (acct src dst n : Nat) (s : State) : State :=
  let s := s.charge .compute acct [(src, n), (dst, n)]
  if s.readFails src n then (s.discover src n).scramble dst n else s.write dst (s.read src n)

/-- Restore every RW region from its shadow (R178, R182). -/
def restoreRw (p : Pkg) (s : State) : State :=
  p.regions.foldl (fun s r => if r.role == 3 then copyRange p.id.acct.toNat r.aux r.base r.len s else s) s

/-- What an early end leaves unspecified: OUT regions, and the windows of programs that a budget or force has stopped, which lie in
TEMP regions (R126, R152, R179). -/
def scrambleOut (p : Pkg) (forced : Bool) (s : State) : State :=
  (p.regions ++ p.implicit).foldl (fun s r =>
    if r.role == 2 || (r.role == 4 && forced && p.descs.any fun d => d.kind == 2) then s.scramble r.base r.len else s) s

/-- Work of the package still runs in an array or a vector unit, outside an open chain. -/
def workRunning (id : PkgId) (s : State) : Bool :=
  s.cores.any fun c => (c.tiles.any fun t => t.first.pkg == id) ||
    match c.prog with
    | some v => v.desc.pkg == id
    | none => false

/-- A completion record is written (R176, R177, R358). -/
def putRecord (acct at_ : Nat) (bs : Bytes) (s : State) : State := (s.charge .compute acct [(at_, bs.length)]).write at_ bs

/-- A package ends: at an early end its RW regions are restored, but under FUNCTION_DISABLED; resources go back, and records
and notification are written (R178, R179). -/
def endPkg (id : PkgId) (st : Status) (s : State) : State :=
  match s.pkg id with
  | none => s
  | some p =>
    let a := id.acct.toNat
    let silent := st == .functionDisabled || st == .aborted
    let restore := st != .ok && st != .functionDisabled
    let forced := st == .timeout || workRunning id s
    let s := clearRounds id (clearWork id s)
    let s := if st != .ok && p.shadowed then scrambleOut p forced s else s
    let s := if restore && p.shadowed then restoreRw p s else s
    let n := (s.acct a).completed + 1
    let close := fun (d : Desc) => if d.state == .done then d else { d with state := .done, status := st }
    let p := { p with state := .done, status := st, tEnd := s.mtime, endOrder := n, endMark := s.pkgOrder,
                      outFlags := p.outFlags ||| (if restore then 0x40 else 0), descs := p.descs.map close }
    let p := { p with record := pkgRecord p, sampled := if p.block.isEmpty then [] else s.read p.sampleAt 64 }
    let s := s.onAcct a fun x => { x with completed := n }
    let s := { s with pkgs := if st == .aborted then s.pkgs.filter fun x => x.id != id
      else (s.pkgs.map fun x => if x.id == id then p else x).filter fun x =>
        !(x.id.acct == id.acct && x.state == .done && decide (x.endOrder + 4096 ≤ n)) }
    let s := if silent then s
      else post a 2 st (leBytes 4 id.handle.toNat ++ [0, 0, 0, 0] ++ leBytes 8 p.tag.toNat)
        (putRecord a p.compl (p.record ++ p.descs.flatMap fun d => descRecord d d.status) s)
    finishWait (.package a id.handle) (if st == .cancelled then .ok else if silent then st else .alreadyDone) [] s

/-- A stop procedure ends once nothing of the package runs (R178). -/
def tryEndStop (id : PkgId) (s : State) : State :=
  match s.pkg id with
  | none => s
  | some p => if p.state == .stopping && !workRunning id s then endPkg id p.status s else s

/-- The chain of a run is open: a descriptor of it has not started (R107, R119, R178). -/
def Pkg.openChain (p : Pkg) (i : Nat) : Bool := (p.chain i).any fun j => match p.descs[j]? with
  | some x => x.state == .queued
  | none => false

/-- Start the stop procedure of a package: no descriptor starts any more, open chains are discarded, transfers, posted ones
among them, and collectives end at their boundary, and tiles and programs run to their end (R178). A package already
stopping keeps its own status (R180). -/
def beginStop (id : PkgId) (st : Status) (s : State) : State :=
  match s.pkg id with
  | none => s
  | some p =>
    if p.state == .done || p.state == .stopping then s
    else
      let s := s.onPkg id fun p => { p with state := .stopping, status := st }
      let unpost := fun (v : VProg) => if v.desc.pkg == id then { v with posted := [] } else v
      let keep := fun (c : Core) =>
        { c with tiles := c.tiles.filter (fun t => t.first.pkg != id || !p.openChain t.first.idx.toNat),
                 prog := c.prog.map unpost }
      tryEndStop id { s with cores := s.cores.map keep }

/-- Every package of an account stops at once with FUNCTION_DISABLED or ABORTED, its work forced; one that WP_CANCEL has stopped before
D ends CANCELLED (R178, R180, R181, R477). -/
def killPkgs (keep : Pkg → Bool) (st : Status) (s : State) : State :=
  let status := fun (p : Pkg) =>
    if st == .functionDisabled && p.state == .stopping && p.status == .cancelled then Status.cancelled else st
  (s.pkgs.filter fun p => p.resident && !keep p).foldl (fun s p => endPkg p.id (status p) s) s

/-- A producer of linked replay groups whose descriptors have completed: it is held until its consumers' final writes, and
otherwise it ends OK (R185). -/
def settle (id : PkgId) (s : State) : State :=
  match s.pkg id with
  | none => s
  | some p =>
    if p.state == .stopping then tryEndStop id s
    else if p.descs.all fun d => d.state == .done then
      if p.links.any fun l => !l.consumer then s.onPkg id fun p => { p with state := .held } else endPkg id .ok s
    else s

/-- The consumer of links has made its final write: its producers are released (R185). -/
def releaseLinks (id : PkgId) (rkeys : List Word) (s : State) : State :=
  if rkeys.isEmpty then s else
  let cut := fun (p : Pkg) =>
    if p.id.acct == id.acct then
      { p with links := p.links.filter fun l => l.consumer || !rkeys.contains l.rkey }
    else p
  let s := { s with pkgs := s.pkgs.map cut }
  ((s.pkgs.filter fun p => p.id.acct == id.acct && p.state == .held).map (·.id)).foldl (fun s i => settle i s) s

/-! ## Completion of a descriptor (R165) -/

/-- A descriptor has completed: its record is written, but in a stop under FUNCTION_DISABLED or ABORTED, its signal issued, and the
package ends with its last one (R176, R178). -/
def completeDesc (d : DescId) (result : Word) (s : State) : State :=
  match s.desc d with
  | none => s
  | some (p, x) =>
    if x.state != .started then s
    else
      let x := { x with state := .done, status := .ok, result := result, elapsed := elapsedUs x.tStart s.mtime }
      let s := s.onDesc d fun _ => x
      let silent := p.state == .stopping && (p.status == .functionDisabled || p.status == .aborted)
      let s := if silent then s else putRecord p.id.acct.toNat (p.compl + 64 + 16 * d.idx.toNat) (descRecord x .ok) s
      settle d.pkg (issueSignal d x.signal s)

/-! ## Prologue and replay (R171, R182) -/

/-- A range is zeroed. -/
def State.wipeRange (s : State) (a n : Nat) : State := { s with mem := s.mem.wipe a n, chip := s.chip.mend a n }

/-- What a prologue reads: CODE images, and RW regions or, at a replay, their shadows (R171, R182). -/
def prologueReads (p : Pkg) (first : Bool) : List (Nat × Nat) :=
  p.regions.filterMap fun r =>
    if r.role == 5 then some (r.base, r.len) else if r.role == 3 then some (if first then r.base else r.aux, r.len) else none

/-- The prologue: zero every TEMP region, then copy every CODE region, then every RW region to its shadow, or from it at a
replay, and write a prefill launch's block (R171, R182, R269). -/
def prologue (p : Pkg) (first : Bool) (s : State) : State :=
  let a := p.id.acct.toNat
  let each := fun (role : Nat) (f : Region → State → State) (s : State) =>
    (p.regions.filter fun r => r.role == role).foldl (fun s r => f r s) s
  let s := each 4 (fun r s => s.wipeRange r.base r.len) s
  let s := each 5 (fun r s => copyRange a r.base (coreAddr r.core (64 * r.aux)) r.len s) s
  let s := each 3 (fun r s => if first then copyRange a r.base r.aux r.len s else copyRange a r.aux r.base r.len s) s
  if p.block.isEmpty then s else s.write ((p.regions.headD ⟨0, 0, 0, 0, 0, 0⟩).base) p.block

/-- A package starts again from its first descriptor: what runs is dropped, and its prologue runs as at a replay (R182). -/
def restartPkg (id : PkgId) (s : State) : State :=
  match s.pkg id with
  | none => s
  | some p =>
    let s := prologue p false (clearWork id s)
    let zero := fun (x : SemEntry) => if x.kind == 1 then x else { x with value := 0 }
    let again := fun (d : Desc) => { d with state := .queued, progress := 0, result := 0, passed := [] }
    s.onPkg id fun p => { p with state := .replaying, sems := p.sems.map zero, descs := p.descs.map again }

/-- A replay is counted, and answers whether there was one left (R182). -/
def countReplay (id : PkgId) (s : State) : Option State :=
  match s.pkg id with
  | none => none
  | some p => if decide (2 ≤ p.replays) then none else some (s.onPkg id fun p => { p with replays := p.replays + 1 })

/-- A package replays: before its prologue has run, that starts over; later its prologue reads the shadows again, and what that meets
is a failure of the replay (R182, R352, R355). -/
def replayPkg (id : PkgId) : Nat → State → State
  | 0, s => beginStop id .dataError s
  | n + 1, s => match countReplay id s with
    | none => beginStop id .dataError s
    | some s => match s.pkg id with
      | none => s
      | some p =>
        if !p.shadowed then s
        else match s.meets (prologueReads p false) with
          | .clear | .waits => restartPkg id s
          | .dead | .ecc => beginStop id .dataError (s.discoverAll (prologueReads p false))
          | .parity k =>
            let r := retireRow id.acct.toNat k s
            if r.1 then replayPkg id n r.2 else beginStop id .dataError r.2

/-- A whole package replays, at most twice; a third failure ends it with DATA_ERROR (R182, R183). -/
def integrityFail (id : PkgId) (s : State) : State :=
  match s.pkg id with
  | none => s
  | some p => if p.state == .stopping || p.state == .done then s else replayPkg id 3 s

/-- An operation of a package fails for good: it leaves its engine, and the package ends with DATA_ERROR (R120, R152, R178). -/
def stopWith (id : PkgId) (leave : State → State) (s : State) : State := tryEndStop id (beginStop id .dataError (leave s))

/-- Work of a package meets a corrupt word at both reads: it leaves its engine, the row is retired and the package replays; with no spare
row left it ends as after its retries (R182, R352, R354). -/
def parityFail (id : PkgId) (leave : State → State) (k : Nat) (s : State) : State :=
  let r := retireRow id.acct.toNat k s
  if r.1 then tryEndStop id (integrityFail id (leave r.2)) else stopWith id leave r.2

/-- A structural failure that the retries do not mend (R356): the package ends with DATA_ERROR (R120, R152). -/
def structFail (id : PkgId) (die : Nat) (s : State) : State :=
  stopWith id (fun s => s) (s.bump 0x404 die (some id.acct.toNat) none 4)

/-- The program of a core leaves it, with its threads and what it has in the issue queue (R152). -/
def leaveProg (core : Nat) (s : State) : State :=
  s.onCore core fun c =>
    { c with prog := none, threads := c.threads.map fun t => { t with state := ThreadState.idle }, queue := [] }

/-- Work of a package reads ranges of memory, where its credits go to COMPUTE: the read waits for a host link that is away; a
dead link, a fenced unit or a codeword beyond its ECC takes the work off its engine and ends the package with DATA_ERROR, and a
parity error replays it (R120, R152, R352 to R355, R358, R383, R502). -/
def workReads (id : PkgId) (t : Traffic) (leave : State → State) (rs : List (Nat × Nat)) (s : State) (k : State → State) : State :=
  match s.meets rs with
  | .clear => k (s.charge t id.acct.toNat rs)
  | .waits => s
  | .dead => stopWith id leave s
  | .parity key => parityFail id leave key s
  | .ecc => stopWith id leave (s.discoverAll rs)

/-- Work that holds no engine reads ranges of memory. -/
def pkgReads (id : PkgId) (t : Traffic) (rs : List (Nat × Nat)) (s : State) (k : State → State) : State :=
  workReads id t (fun s => s) rs s k

/-- Work of a package writes ranges of memory: the write waits for a host link that is away, and ends the package at a dead link
or a fenced unit (R358, R383, R502). -/
def workWrites (id : PkgId) (t : Traffic) (leave : State → State) (rs : List (Nat × Nat)) (s : State) (k : State → State) : State :=
  if rs.any fun r => s.hostWaits r.1 then s
  else if rs.any fun r => s.hostDead r.1 || s.rangeFails r.1 r.2 then stopWith id leave s
  else k (s.charge t id.acct.toNat rs)

/-- Work that holds no engine writes ranges of memory. -/
def pkgWrites (id : PkgId) (t : Traffic) (rs : List (Nat × Nat)) (s : State) (k : State → State) : State :=
  workWrites id t (fun s => s) rs s k

/-- Work of a package bound to an epoch reads one range. -/
def pkgRead (p : Pkg) (a n : Nat) (s : State) (k : State → State) : State :=
  pkgReads p.id .compute (s.spotsFor p.epoch.toNat a n) s k

/-- An increment of a cycle meter, whose count is time and free (log entry 8, DESIGN CHOICE). -/
def meterCycles (acct i die : Nat) (s : State) : State :=
  let (v, s) := s.free
  s.meter acct i v.toNat die

end Sys2Proof.Machine
end

