-- ==== Sys2Proof/Machine/Xfer.lean ====
section
/-!
DEFINITION. Ranges of regions and the transfers that copy them (05 R155, R161, R163, R168).
-/
namespace Sys2Proof.Machine

/-- Consecutive keys from `k` to `e` lie in the union of runs. -/
def coverFrom : Nat → Nat → Nat → List (Nat × Nat) → Bool
  | 0, k, e, _ => decide (e ≤ k)
  | n + 1, k, e, ps => decide (e ≤ k) || match ps.find? fun p => decide (p.1 ≤ k) && decide (k < p.1 + p.2) with
    | some p => coverFrom n (p.1 + p.2) e ps
    | none => false

/-- A range lies in another, by the bytes reached through either view of HBM (R168). -/
def rangeIn (a n b m : Nat) : Bool :=
  (decide (b ≤ a) && decide (a + n ≤ b + m)) ||
  (pieces a n).all fun p => coverFrom ((pieces b m).length + 1) p.1 (p.1 + p.2) (pieces b m)

/-- A range lies in a region of one of the roles, an implicit one among them (R294). -/
def Pkg.inRoles (p : Pkg) (roles : List Nat) (a n : Nat) : Bool :=
  (p.regions ++ p.implicit).any fun r => roles.contains r.role && rangeIn a n r.base r.len

/-- The roles that a descriptor may read, and those it may write (R168). -/
def readRoles : List Nat := [1, 2, 3, 4]
/-- The roles that a descriptor may write. -/
def writeRoles : List Nat := [2, 3, 4]

/-! ## XFER (R161) -/

/-- The fields of an XFER image: SRC, DST, ROWLEN, ROWS, SSTRIDE, DSTRIDE. -/
structure Xf where
  src  : Nat
  dst  : Nat
  len  : Nat
  rows : Nat
  ss   : Nat
  ds   : Nat
  deriving DecidableEq, Repr

/-- Read the fields of an image. -/
def xfOf (b : Bytes) : Xf :=
  ⟨fieldAt b 0x10 8, fieldAt b 0x18 8, fieldAt b 0x20 4, fieldAt b 0x24 4, fieldAt b 0x28 4, fieldAt b 0x2C 4⟩

/-- The bytes from the first to the last of `rows` rows. -/
def extent (rows len stride : Nat) : Nat := 64 * ((rows - 1) * stride + len)

/-- The fields follow R161. -/
def Xf.ok (x : Xf) (b : Bytes) : Bool :=
  addrOk x.src && addrOk x.dst && x.src % 64 == 0 && x.dst % 64 == 0 &&
  decide (1 ≤ x.len) && decide (x.len ≤ 65536) && decide (1 ≤ x.rows) && decide (x.rows ≤ 65536) &&
  decide (x.len * x.rows ≤ 4194304) && (x.rows == 1 || (decide (x.len ≤ x.ss) && decide (x.len ≤ x.ds))) &&
  !rangesMeet x.src (extent x.rows x.len x.ss) x.dst (extent x.rows x.len x.ds) && zeroAt b 0x30 16

/-- The ranges follow check 0x08 (R168, R175). -/
def Xf.inside (x : Xf) (p : Pkg) : Bool :=
  p.inRoles readRoles x.src (extent x.rows x.len x.ss) && p.inRoles writeRoles x.dst (extent x.rows x.len x.ds)

/-- The number of 64 KiB segments. -/
def Xf.segments (x : Xf) : Nat := (x.len * x.rows + 1023) / 1024

/-- Copy a segment, unit by unit in row order. A read of an OUT region that the package has not written yet answers what memory holds
(R156, log entry 172, DESIGN CHOICE). -/
def Xf.copy (x : Xf) (epoch seg : Nat) (s : State) : State :=
  (List.range (min 1024 (x.len * x.rows - 1024 * seg))).foldl (fun s i =>
    let u := 1024 * seg + i
    let o := fun (stride : Nat) => 64 * (u / x.len * stride + u % x.len)
    s.write (x.dst + o x.ds) (s.readFor epoch (x.src + o x.ss) 64)) s

/-- The runs of rows that a segment of a transfer reaches, from an address with a row stride: first byte and length. -/
def Xf.runs (x : Xf) (a stride seg : Nat) : List (Nat × Nat) :=
  let u := 1024 * seg
  let v := min (u + 1024) (x.len * x.rows)
  (List.range ((v + x.len - 1) / x.len - u / x.len)).map fun i =>
    let r := u / x.len + i
    let lo := max u (r * x.len)
    let hi := min v ((r + 1) * x.len)
    (a + 64 * (r * stride + (lo - r * x.len)), 64 * (hi - lo))

/-- The bytes of host memory that a segment moves (R473). -/
def Xf.hostBytes (x : Xf) (seg : Nat) : Nat :=
  let n := 64 * min 1024 (x.len * x.rows - 1024 * seg)
  let host := fun (a : Nat) => match locOf a with
    | some (.host _ _) => true
    | _ => false
  (if host x.src then n else 0) + (if host x.dst then n else 0)

/-! ## PREFETCH (R163) -/

/-- The fields of a PREFETCH: LAYER, COPY, OFFSET, LEN, DST. -/
structure Pf where
  layer : Nat
  copy  : Nat
  off   : Nat
  len   : Nat
  dst   : Nat
  deriving DecidableEq, Repr

/-- Read the fields of a PREFETCH descriptor. -/
def pfOf (b : Bytes) : Pf := ⟨fieldAt b 0x10 4, fieldAt b 0x14 1, fieldAt b 0x18 8, fieldAt b 0x20 4, fieldAt b 0x28 8⟩

/-- The fields follow R163. -/
def Pf.ok (x : Pf) (b : Bytes) : Bool :=
  decide (x.layer < 65536) && decide (x.copy ≤ 1) && zeroAt b 0x15 3 && x.off % 64 == 0 && decide (1 ≤ x.len) &&
  decide (x.len ≤ 1048576) && zeroAt b 0x24 4 && addrOk x.dst && zeroAt b 0x30 16

/-- The layer's extent holds the range (R163). -/
def Pf.fits (x : Pf) (m : ModelMap) (die : Nat) : Bool :=
  decide (x.layer < m.layers) && (x.copy == 1 || !m.gshards.isEmpty) &&
  decide (x.off + 64 * x.len ≤ (layerExtent m (x.copy == 0) die x.layer).2)

/-- The storage key and the length of what a segment of a PREFETCH reads. -/
def Pf.source (x : Pf) (slot : Nat) (m : Model) (die epoch seg : Nat) : Nat × Nat :=
  let n := 64 * min 1024 (x.len - 1024 * seg)
  let off := (layerExtent m.map (x.copy == 0) die x.layer).1 + x.off + 65536 * seg
  (windowKey slot (x.copy == 0) m.w epoch (die * 2 ^ 37 + off), n)

/-- Copy a segment of a PREFETCH. -/
def Pf.copySeg (x : Pf) (slot : Nat) (m : Model) (die epoch seg : Nat) (s : State) : State :=
  let (k, n) := x.source slot m die epoch seg
  s.write (x.dst + 65536 * seg) (Memory.bytes s.mem k n)

/-! ## LFEED (R224, R227) -/

/-- The fields of an LFEED (R224). -/
structure Feed where
  src    : Nat
  tensor : Nat
  row0   : Nat
  nrows  : Nat
  col0   : Nat
  ncols  : Nat
  fmt    : Nat
  scl    : Nat
  sstride : Nat
  estride : Nat
  deriving DecidableEq, Repr

/-- Read the fields of an LFEED descriptor. -/
def feedOf (b : Bytes) : Feed :=
  let u := fieldAt b
  ⟨u 0x10 8, u 0x18 4, u 0x1C 4, u 0x20 4, u 0x24 4, u 0x28 4, u 0x2C 1, bitField (u 0x30 8) 0 52,
    64 * bitField (u 0x30 8) 52 12, 64 * u 0x38 4⟩

/-- The format of a feed. -/
def Feed.format (f : Feed) : Fmt := (Fmt.ofCode f.fmt).getD .fp32

/-- The ranges that a feed reads: its element plane and its scales. -/
def Feed.ranges (f : Feed) : List (Nat × Nat) :=
  (f.src, (f.nrows - 1) * f.estride + (f.ncols * f.format.width + 7) / 8) ::
  (if f.format.isMx then [(f.scl, (f.nrows - 1) * f.sstride + f.ncols / 32)] else [])

/-- The parts of rows that the places `a` to `b - 1` of rows of `cols` hold, in row order: row, first place in it, count. -/
def elemRuns (cols a b : Nat) : List (Nat × Nat × Nat) :=
  (List.range ((b - 1) / cols + 1 - a / cols)).map fun i =>
    let r := a / cols + i
    let c0 := if i == 0 then a % cols else 0
    (r, c0, min cols (b - r * cols) - c0)

/-- The bytes of a unit of 32 elements in the element plane. -/
def Feed.unitBytes (f : Feed) : Nat := 4 * f.format.width
/-- Units of a feed: it travels in units of 32 consecutive elements of a row (R225). -/
def Feed.units (f : Feed) : Nat := f.nrows * (f.ncols / 32)
/-- Units in a segment of 64 KiB (R227). -/
def Feed.segUnits (f : Feed) : Nat := 65536 / max 1 f.unitBytes
/-- Segments of a feed. -/
def Feed.segments (f : Feed) : Nat := (f.units + f.segUnits - 1) / f.segUnits
/-- The parts of rows that a segment covers: row, first unit in it, units. -/
def Feed.pieces (f : Feed) (seg : Nat) : List (Nat × Nat × Nat) :=
  elemRuns (f.ncols / 32) (seg * f.segUnits) (min f.units ((seg + 1) * f.segUnits))
/-- The element bytes of a part of a row. -/
def Feed.elemRange (f : Feed) (x : Nat × Nat × Nat) : Nat × Nat := (f.src + x.1 * f.estride + x.2.1 * f.unitBytes, x.2.2 * f.unitBytes)
/-- The scale bytes of a part of a row. -/
def Feed.scaleRange (f : Feed) (x : Nat × Nat × Nat) : Nat × Nat := (f.scl + x.1 * f.sstride + x.2.1, x.2.2)
/-- The ranges that a segment reads. -/
def Feed.runs (f : Feed) (seg : Nat) : List (Nat × Nat) :=
  (f.pieces seg).flatMap fun x => f.elemRange x :: if f.format.isMx then [f.scaleRange x] else []

end Sys2Proof.Machine
end

