-- ==== Sys2Proof/Machine/Noc.lean ====
section
/-!
DEFINITION. The network between the dies: the routes of at most two hops, the four virtual channels with their hop levels and
link-level credits, and the sinks that were reserved before a message was sent (01 R22, R24; 11 R368 to R370).
-/
namespace Sys2Proof.Machine

/-- The four virtual channels of R368. -/
inductive Vc where
  | req | rsp | xfr | ctl
  deriving DecidableEq, Repr

/-- The number of a virtual channel, in the order of R368. -/
def Vc.code : Vc → Nat
  | .req => 0 | .rsp => 1 | .xfr => 2 | .ctl => 3

/-- The steps of a die-to-die route, by (destination - source) mod 8, as amounts to add to the die's number modulo 8 (R369). -/
def dieSteps : Nat → List Nat
  | 1 => [1] | 7 => [7] | 4 => [4] | 2 => [1, 1] | 6 => [7, 7] | 3 => [4, 7] | 5 => [4, 1] | _ => []

/-- The dies that steps from a die pass, the last one among them. -/
def dieWalk : Nat → List Nat → List Nat
  | _, [] => []
  | d, k :: ks => (d + k) % 8 :: dieWalk ((d + k) % 8) ks

/-- One hop of a message: its link, from node to node, and the hop level on which it crosses it. Node k is die k, and node 8 + k
the Ledger die k. -/
structure Hop where
  src   : Nat
  dst   : Nat
  level : Nat
  deriving DecidableEq, Repr

/-- Hops along nodes from a node, on rising levels. -/
def hopsAlong : Nat → Nat → List Nat → List Hop
  | _, _, [] => []
  | lvl, a, b :: bs => ⟨a, b, lvl⟩ :: hopsAlong (lvl + 1) b bs

/-- The hops between two dies (R369). -/
def dieHops (a b : Nat) : List Hop := hopsAlong 0 a (dieWalk a (dieSteps ((b + 8 - a) % 8)))

/-- Where an address is served: the die of its memory controller or of its host port, and whether the Vault's Ledger die lies
behind that die (R22, R24). -/
def servedAt (a : Nat) : Option (Nat × Bool) :=
  match locOf a with
  | some (.host p _) => some (2 * p, false)
  | some (.vault d _) => some (d, true)
  | some l => l.die.map fun d => (d, false)
  | none => none

/-- The hops from a die to the node that serves an address: between the dies, and to a die's Ledger die over that link alone (R369). -/
def hopsTo (die a : Nat) : List Hop :=
  match servedAt a with
  | some (d, vault) => dieHops die d ++ if vault then [⟨d, 8 + d / 2, 0⟩] else []
  | none => []

/-- The hops of an answer. -/
def hopsFrom (die a : Nat) : List Hop :=
  match servedAt a with
  | some (d, vault) => (if vault then [⟨8 + d / 2, d, 0⟩] else []) ++ dieHops d die
  | none => []

/-- The number of a link. -/
def Hop.link (h : Hop) : Nat := 16 * h.src + h.dst
/-- The key of the input buffer that a hop needs, by link, virtual channel and hop level. -/
def Hop.key (vc : Vc) (h : Hop) : Nat := (h.link * 4 + vc.code) * 2 + h.level % 2

/-- The flits in a link's input buffer change by one; an empty buffer is not listed. -/
def Noc.hold (k : Nat) (up : Bool) (n : Noc) : Noc :=
  let u := if up then tgetD n.held k 0 + 1 else tgetD n.held k 0 - 1
  { n with held := if u == 0 then terase n.held k else tset n.held k u }

/-- A hop's link has a credit left on a channel (R368). -/
def Noc.credit (vc : Vc) (h : Hop) (n : Noc) : Bool :=
  decide (tgetD n.held (h.key vc) 0 < Config.nocDepth h.link vc.code (h.level % 2) + 1)

/-- A message crosses hops: at each it takes the next link's credit, and only then returns the one that it holds; the sink takes it
at the last without waiting (R368, R370). None where a link has no credit left. -/
def Noc.cross (vc : Vc) : Option Hop → List Hop → Noc → Option Noc
  | none, [], n => some n
  | some h, [], n => some (n.hold (h.key vc) false)
  | held, h :: hs, n =>
    if n.credit vc h then
      let n := n.hold (h.key vc) true
      Noc.cross vc (some h) hs (match held with
        | some g => n.hold (g.key vc) false
        | none => n)
    else none

/-- Messages cross their routes one after another. -/
def Noc.crossAll : List (Vc × List Hop) → Noc → Option Noc
  | [], n => some n
  | x :: xs, n => match Noc.cross x.1 none x.2 n with
    | some n => Noc.crossAll xs n
    | none => none

/-- Work whose messages cross the network goes on once they have; without a credit it waits (R368, R370). (Log entry 159, DESIGN
CHOICE.) -/
def State.carry (ms : List (Vc × List Hop)) (s : State) (k : State → State) : State :=
  match s.chip.noc.crossAll ms with
  | some n => k { s with chip := { s.chip with noc := n } }
  | none => s

/-- The messages of reads from a die: a request to each range, and the data back (R368). -/
def readMsgs (die : Nat) (rs : List (Nat × Nat)) : List (Vc × List Hop) :=
  rs.flatMap fun r => [(.req, hopsTo die r.1), (.rsp, hopsFrom die r.1)]

/-- The messages of a transfer's data to ranges, and the acknowledgements back: the destination's buffer was reserved as the
transfer opened (R368). -/
def dataMsgs (die : Nat) (rs : List (Nat × Nat)) : List (Vc × List Hop) :=
  rs.flatMap fun r => [(.xfr, hopsTo die r.1), (.rsp, hopsFrom die r.1)]

/-- The messages of writes from a die with their data: requests, and the acknowledgements back (R368). -/
def writeMsgs (die : Nat) (rs : List (Nat × Nat)) : List (Vc × List Hop) :=
  rs.flatMap fun r => [(.req, hopsTo die r.1), (.rsp, hopsFrom die r.1)]

/-- The messages of a partial sum or of rows from a die to a die, and the acknowledgements back (R368). -/
def moveMsgs (a b : Nat) : List (Vc × List Hop) := [(.xfr, dieHops a b), (.rsp, dieHops b a)]

/-- A control message from a die to a die, to the buffer set aside there for its source (R368). -/
def ctlMsg (a b : Nat) : Vc × List Hop := (.ctl, dieHops a b)

/-- The die where the semaphores of an account and of its packages are kept: the first of its partition (log entry 159, DESIGN CHOICE).
-/
def State.semHome (s : State) (acct : Nat) : Nat := (s.acctDies acct).headD 0

/-- The message of a signal that a die issues, where there is one (R164, R368). -/
def signalMsgs (s : State) (acct die sem : Nat) : List (Vc × List Hop) := if sem == 0 then [] else [ctlMsg die (s.semHome acct)]

/-- A buffer that a transfer reserved at its sink as it opened: the descriptor whose transfer it is, and the die (R368, R370). -/
structure Sink where
  desc : DescId
  die  : Nat
  deriving DecidableEq, Repr

/-- Where the transfers of a started descriptor go: of a transfer, of a PREFETCH, of what a program has posted, and of an image that a
tile operation writes (R110, R161, R163, R175). -/
def State.transfersOf (s : State) (p : Pkg) (i : Nat) (x : Desc) : List Nat :=
  match x.kind with
  | 1 => if bitField (x.u 0x40 4) 0 4 == 0xA then [bitField (x.u 0x38 8) 0 52] else []
  | 2 => match (s.core (p.core x)).prog with
    | some v => if v.desc == ⟨p.id, BitVec.ofNat 14 i⟩ then v.posted.map fun b => (xfOf b).dst else []
    | none => []
  | 3 => [(xfOf x.raw).dst]
  | 7 => [(pfOf x.raw).dst]
  | _ => []

/-- The buffers that the open transfers hold at their destinations: they lie reserved while the descriptor runs (R368, R370). -/
def State.sinks (s : State) : List Sink :=
  s.pkgs.flatMap fun p => p.descs.zipIdx.flatMap fun x =>
    if x.1.state == .started then
      ((s.transfersOf p x.2 x.1).filterMap servedAt).map fun y => ⟨⟨p.id, BitVec.ofNat 14 x.2⟩, y.1⟩
    else []

/-- A transfer's data may be sent: its buffer at the destination is reserved (R370). -/
def State.reserved (s : State) (d : DescId) (dst : Nat) : Bool := match servedAt dst with
  | some y => s.sinks.contains ⟨d, y.1⟩
  | none => true

end Sys2Proof.Machine
end

