-- ==== Sys2Proof/Machine/VecWord.lean ====
section
/-!
DEFINITION. The instruction words of vector programs: their fields, the words that the loader accepts, and the instruction
that each stands for (04 R127 to R130, R141).
-/
namespace Sys2Proof.Machine

/-! ## Fields and reserved values -/

/-- The fields of an instruction word (R127). -/
structure VWord where
  op  : Nat
  d   : Nat
  a   : Nat
  b   : Nat
  pm  : Nat
  hi  : Nat
  lo  : Nat
  imm : Nat
  deriving DecidableEq, Repr

/-- Cut a word into its fields. -/
def vwordOf (w : Nat) : VWord :=
  ⟨bitField w 26 6, bitField w 21 5, bitField w 16 5, bitField w 11 5, bitField w 8 3, bitField w 4 4, bitField w 0 4,
    bitField w 0 16⟩

/-- The immediate forms: no reserved value and no unused field set (R129, R130). -/
def VWord.immOk (x : VWord) : Bool :=
  match x.op with
  | 0x01 | 0x02 | 0x03 | 0x04 | 0x07 => true
  | 0x05 => decide (x.imm < 0xC0)
  | 0x06 => x.a == 0
  | 0x0C => decide (x.d ≤ 4)
  | 0x0E => x.imm != 0 && decide (x.imm < 256) && x.d == 0
  | 0x0F =>
    if x.imm / 2 ^ 14 == 0 then x.imm != 0 && decide (x.imm < 256) && x.d == 0 && x.a == 0
    else x.imm / 2 ^ 14 == 1 && decide (x.imm % 2 ^ 14 < 8)
  | 0x10 => true
  | 0x11 => bitField x.imm 5 1 == 0
  | _ => false

/-- The register forms: members, formats and unused fields (R127 to R129). VSQRT has no second source, so SUB[7:4] = 0x1 is
refused for it (log entry 142, DESIGN CHOICE). -/
def VWord.regOk (x : VWord) : Bool :=
  let scalar := x.pm == 0 && x.lo == 0
  match x.op with
  | 0x00 => scalar && decide (x.hi ≤ 0xC)
  | 0x08 => scalar && decide (x.hi ≤ 6) && (x.hi != 4 || x.b == 0)
  | 0x09 => scalar && x.hi == 0
  | 0x0A => scalar && decide (x.hi ≤ 3)
  | 0x0B => scalar && decide (x.hi ≤ 3) && x.b == 0
  | 0x0D => scalar && x.hi == 0 && x.d == 0 && x.a == 0 && x.b == 0
  | 0x18 | 0x19 | 0x1A | 0x1B | 0x1C | 0x1D | 0x1E => decide (x.hi ≤ 1) && decide (x.lo ≤ 2)
  | 0x1F => x.hi == 0 && decide (x.lo ≤ 2) && x.b == 0
  | 0x20 => decide (x.hi ≤ 4) && x.lo == 0 && decide (x.d ≤ 7)
  | 0x21 => decide (x.hi ≤ 4) && x.lo == 0 && decide (x.d ≤ 7) && decide (x.a ≤ 7) &&
    (if x.hi == 4 then x.b == 0 else decide (x.b ≤ 7))
  | 0x22 => x.hi == 0 && x.lo == 0
  | 0x24 => decide (x.hi ≤ 0xC) && x.lo == 0
  | 0x25 => x.hi == 0 && x.lo == 0 && x.a == 0 && x.b == 0
  | 0x28 => (cvtOf x.hi).isSome && decide (x.lo ≤ 4) && decide (x.b ≤ 4)
  | 0x29 => decide (x.hi ≤ 1) && decide (5 ≤ x.lo) && decide (x.lo ≤ 9) && x.b == 0 && (if x.hi == 0 then x.d != 31 else x.a != 31)
  | 0x2A => decide (x.hi ≤ 0xE) && x.lo == 0 && x.b == 0
  | 0x2C => decide (x.hi ≤ 9) && x.lo == 0
  | 0x2D => x.lo == 0 && (decide (x.hi ≤ 9) || (x.hi == 0xF && x.d == 0 && x.b == 0 && x.pm == 0))
  | 0x2E => x.hi == 0 && x.lo == 0
  | 0x2F => decide (x.hi ≤ 2) && x.lo == 0 && (x.hi != 0 || x.b == 0)
  | 0x30 => decide (x.hi ≤ 2) && x.lo == 0 && decide (x.d ≤ 7) &&
    (x.hi != 0 || (x.a == 0 && x.pm == 0)) && (x.hi == 2 || x.b == 0)
  | 0x31 => scalar && x.hi == 0 && decide (x.a ≤ 7)
  | 0x32 => decide (x.hi ≤ 2) && x.lo == 0 && (x.hi == 2 || x.b == 0)
  | 0x33 => scalar && decide (x.hi ≤ 1) && decide (x.d ≤ 7) && decide (x.b ≤ 7)
  | 0x34 => decide (x.hi ≤ 1) && decide (x.lo ≤ 2) && decide (x.b ≤ 7)
  | 0x35 => decide (x.hi ≤ 1) && decide (x.lo ≤ 7)
  | 0x36 => x.hi == 0 && decide (x.lo ≤ 7) && x.d == 0 && x.b == 0 && x.pm == 0
  | 0x37 => x.hi == 0 && x.lo == 0
  | _ => false

/-- The instruction takes an immediate. -/
def VWord.isImm (x : VWord) : Bool :=
  (decide (1 ≤ x.op) && decide (x.op ≤ 7)) || x.op == 0xC || x.op == 0xE || x.op == 0xF || x.op == 0x10 || x.op == 0x11

/-! ## The instruction of a word -/

/-- OP 0x00 (R129). -/
def intWord (h : Hart) (d a b : BitVec 5) (n : Nat) : Option Instr :=
  [Instr.add h d a b, .sub h d a b, .and h d a b, .or h d a b, .xor h d a b, .sll h d a b, .srl h d a b, .sra h d a b,
    .slt h d a b, .sltu h d a b, .min h d a b, .max h d a b, .mul h d a b][n]?

/-- The members of OP 0x24, in the order of those of OP 0x00 (R129). -/
def laneWord (h : Hart) (d a b : BitVec 5) (pm : BitVec 3) (n : Nat) : Option Instr :=
  ([IntOp.add, .sub, .and, .or, .xor, .sll, .srl, .sra, .slt, .sltu, .min, .max, .mul][n]?).map fun op => .vintOp h op d a b pm

/-- OP 0x08 to 0x0B (R129). -/
def fpWord (h : Hart) (d a b : BitVec 5) (op n : Nat) : Option Instr :=
  match op with
  | 0x08 => [Instr.fadd h d a b, .fsub h d a b, .fmul h d a b, .fdiv h d a b, .fsqrt h d a, .fmin h d a b, .fmax h d a b][n]?
  | 0x09 => some (.ffma h d a b)
  | 0x0A => [Instr.feq h d a b, .flt h d a b, .fle h d a b, .funord h d a b][n]?
  | _ => ([FcvtOp.s64ToF32, .f32ToS64, .f32ToBf16, .bf16ToF32][n]?).map fun c => .fcvt h d a c

/-- The immediate forms (R127, R129, R130). -/
def immWord (h : Hart) (d a : BitVec 5) (x : VWord) : Option Instr :=
  let imm := BitVec.ofNat 16 x.imm
  let w := BitVec.ofNat 3 x.imm
  let size := BitVec.ofNat 2 (x.imm / 8)
  let disp := BitVec.ofNat 10 (x.imm / 64)
  match x.op with
  | 0x01 => some (.addi h d a imm)
  | 0x02 => some (.andi h d a imm)
  | 0x03 => some (.ori h d a imm)
  | 0x04 => some (.xori h d a imm)
  | 0x05 => ([ShiftOp.sll, .srl, .sra][x.imm / 64]?).map fun k => .shi h d a k (BitVec.ofNat 6 x.imm)
  | 0x06 => some (.lui h d imm)
  | 0x07 => some (.slti h d a imm)
  | 0x0C => ([Cond.always, .eqz, .nez, .ltz, .gez][x.d]?).map fun c => .br h c a imm
  | 0x0E => some (.semwait h (BitVec.ofNat 8 x.imm) a)
  | 0x0F => some (if x.imm / 2 ^ 14 == 0 then .semsignal h (BitVec.ofNat 8 x.imm) else .xpost h d a w)
  | 0x10 => some (.ld h d a w size (bitField x.imm 5 1 == 1) disp)
  | _ => some (.st h d a w size disp)

/-- OP 0x18 to 0x1F (R129). -/
def elemWord (h : Hart) (d a : BitVec 5) (b : VSrc) (pm : BitVec 3) (fmt : VFmt) (op : Nat) : Option Instr :=
  [Instr.vadd h fmt d a b pm, .vsub h fmt d a b pm, .vmul h fmt d a b pm, .vfma h fmt d a b pm, .vmin h fmt d a b pm,
    .vmax h fmt d a b pm, .vdiv h fmt d a b pm, .vsqrt h fmt d a pm][op - 0x18]?

/-- The format codes of R127. -/
def vfmtOf (n : Nat) : Option VFmt := [VFmt.fp32, .bf16, .fp16][n]?
/-- The scalar formats of VCVT. -/
def sfmtOf (n : Nat) : Option SFmt := [SFmt.fp32, .bf16, .fp16, .e4m3, .e5m2][n]?
/-- The MX formats of VMX. -/
def mfmtOf (n : Nat) : Option MFmt := [MFmt.e4m3, .e5m2, .e2m3, .e3m2, .e2m1][n - 5]?

/-- OP 0x20 to 0x2F (R129, R141, R143, R144). -/
def lanesWord (h : Hart) (d a b : BitVec 5) (pm : BitVec 3) (x : VWord) : Option Instr :=
  let three := fun (v : BitVec 5) => v.setWidth 3
  match x.op with
  | 0x20 => ([CmpOp.eq, .lt, .le, .ne, .unord][x.hi]?).map fun c => .vcmp h c (three d) a b pm
  | 0x21 => [Instr.pand h (three d) (three a) (three b) pm, .por h (three d) (three a) (three b) pm,
      .pxor h (three d) (three a) (three b) pm, .pandn h (three d) (three a) (three b) pm, .pnot h (three d) (three a) pm][x.hi]?
  | 0x22 => some (.vsel h d a b pm)
  | 0x24 => laneWord h d a b pm x.hi
  | 0x25 => some (.viota h d pm)
  | 0x28 => match sfmtOf x.b, sfmtOf x.lo with
    | some src, some dst => some (.vcvt h d a src dst (BitVec.ofNat 4 x.hi) pm)
    | _, _ => none
  | 0x29 => (mfmtOf x.lo).map fun f => if x.hi == 0 then .vmxPack h d a f pm else .vmxUnpack h d a f pm
  | 0x2A | 0x2B => (Fn.ofCode (x.op % 2 * 16 + x.hi)).map fun f => .vfn h d a f pm
  | 0x2C => (Act.ofCode x.hi).map fun c => .vact h d a b c pm
  | 0x2D => if x.hi == 0xF then some (.apset h a) else (Act.ofCode x.hi).map fun c => .vdact h d a b c pm
  | 0x2E => some (.vperm h d a b pm)
  | _ => [Instr.vbcast h d a pm, .vrot h d a b pm, .vlane h d a b pm][x.hi]?

/-- OP 0x30 to 0x37 (R129). No field says whether VRMAX and VRMIN merge Xd (R139, log entry 143, DESIGN CHOICE). -/
def reduceWord (h : Hart) (d a b : BitVec 5) (pm : BitVec 3) (x : VWord) : Option Instr :=
  let d3 := d.setWidth 3
  let a3 := a.setWidth 3
  let w := BitVec.ofNat 3 x.b
  let v := BitVec.ofNat 3 x.lo
  match x.op with
  | 0x30 => [Instr.vrclr h d3, .vrsum h d3 a pm, .vrdot h d3 a b pm][x.hi]?
  | 0x31 => some (.vrfin h d a3 b)
  | 0x32 => [Instr.vrmax h d a pm false, .vrmin h d a pm false, .vrarg h d a b pm][x.hi]?
  | 0x33 => some (if x.hi == 0 then .vrput h d3 a w else .vrget h d3 a w)
  | 0x34 => (vfmtOf x.lo).map fun f => if x.hi == 0 then .vld h f d a w pm else .vst h f d a w pm
  | 0x35 => some (if x.hi == 0 then .vgather h d a b v pm else .vscatter h d a b v pm)
  | 0x36 => some (.vsample h a v)
  | _ => some (.vrand h d a b pm)

/-- The instruction that a word stands for on a hart; none for a word that the loader refuses (R125, R128, R129). -/
def vecOf (h : Hart) (w : Nat) : Option Instr :=
  let x := vwordOf w
  let d := BitVec.ofNat 5 x.d
  let a := BitVec.ofNat 5 x.a
  let b := BitVec.ofNat 5 x.b
  let pm := BitVec.ofNat 3 x.pm
  if !(if x.isImm then x.immOk else x.regOk) then none
  else if x.isImm then immWord h d a x
  else if x.op == 0 then intWord h d a b x.hi
  else if x.op == 0xD then some (.halt h)
  else if decide (x.op < 0x10) then fpWord h d a b x.op x.hi
  else if decide (x.op < 0x20) then
    (vfmtOf x.lo).bind fun f => elemWord h d a (if x.hi == 1 then .scalar b else .vec b) pm f x.op
  else if decide (x.op < 0x30) then lanesWord h d a b pm x
  else reduceWord h d a b pm x

/-- An instruction as a word can spell it: without the choice of a merge, which no field holds. -/
def spelled : Instr → Instr
  | .vrmax h d a pm _ => .vrmax h d a pm false
  | .vrmin h d a pm _ => .vrmin h d a pm false
  | i => i

/-- The word is one for the vector unit, which passes through the vector issue queue (R122, R128). -/
def isVector (w : Nat) : Bool := decide (0x18 ≤ (vwordOf w).op)
/-- The word is XPOST (R130). -/
def isXpost (w : Nat) : Bool := (vwordOf w).op == 0xF && (vwordOf w).imm / 2 ^ 14 == 1

end Sys2Proof.Machine
end

