-- ==== Sys2Proof/Machine/Operands.lean ====
section
/-!
DEFINITION. The operand forms of the vector and scalar instructions (04): scalar registers, lanes under a mask, packed
halves, windows, and the issue of an instruction by a thread.
-/
namespace Sys2Proof.Machine

/-! ## Threads (R121, R122) -/

/-- The thread of a hart. -/
def State.thread (s : State) (h : Hart) : Thread := (s.core h.core.toNat).threads.getD h.thread.toNat Thread.reset
/-- Change the thread of a hart. -/
def State.onThread (s : State) (h : Hart) (f : Thread → Thread) : State :=
  s.onCore h.core.toNat fun c => { c with threads := lmod c.threads h.thread.toNat f }
/-- Xi: X0 reads zero (R121). -/
def Thread.get (t : Thread) (i : BitVec 5) : DWord := if i == 0 then 0 else t.x.getD i.toNat 0
/-- Write Xi: X0 ignores writes (R121). -/
def Thread.set (t : Thread) (i : BitVec 5) (v : DWord) : Thread :=
  if i == 0 then t else { t with x := lmod t.x i.toNat fun _ => v }
/-- Xi[31:0]. -/
def Thread.get32 (t : Thread) (i : BitVec 5) : Word := (t.get i).setWidth 32
/-- Write Xi[31:0] with [63:32] zero (R129). -/
def Thread.set32 (t : Thread) (i : BitVec 5) (w : Word) : Thread := t.set i (w.setWidth 64)

/-- The program of a hart's core. -/
def State.prog (s : State) (h : Hart) : Option VProg := (s.core h.core.toNat).prog

/-- Where the word at a thread's program counter lies. -/
def State.codeAddr (s : State) (h : Hart) : Nat :=
  coreAddr h.core.toNat ((match s.prog h with
    | some p => p.code
    | none => 0) + 4 * (s.thread h).pc)
/-- The word at a thread's program counter (R127). -/
def State.fetch (s : State) (h : Hart) : Nat := s.readNat (s.codeAddr h) 4

/-- The thread may issue: its program runs, it has budget and words left, what it waits for has happened, and it does not post
a 65th outstanding transfer (R126, R130, R175). -/
def State.ready (s : State) (h : Hart) : Bool :=
  match s.prog h with
  | none => false
  | some p =>
    let t := s.thread h
    decide (t.issued < p.budget) && decide (t.pc < p.plen) && !(decide (64 ≤ p.posted.length) && isXpost (s.fetch h)) &&
    match t.state with
    | .running => true
    | .waiting e target => match s.pkg p.desc.pkg with
      | some q => semReached (semValue s q e) target
      | none => false
    | _ => false

/-- The thread that the scalar unit serves next: the first ready one at or after its turn (R122). -/
def State.servesNext (s : State) (core : BitVec 7) : Option Nat :=
  ((List.range 16).map fun i => ((s.core core.toNat).turn + i) % 16).find? fun n => s.ready ⟨core, BitVec.ofNat 4 n⟩

/-- The instruction is the one that a thread issues next: the thread's turn has come, and the word at its program counter
stands for it; the vector issue queue has room for a vector instruction (R121, R122). -/
def State.issues (s : State) (h : Hart) (i : Instr) : Bool :=
  s.servesNext h.core == some h.thread.toNat && vecOf h (s.fetch h) == some (spelled i) &&
  (!isVector (s.fetch h) || decide ((s.core h.core.toNat).queue.length < 64))

/-- The thread has issued an instruction: it counts against BUDGET and the next word follows (R126). -/
def Thread.issue (t : Thread) : Thread := { t with issued := t.issued + 1, pc := t.pc + 1, state := .running }

/-- A thread issues: the round robin moves on, and a vector instruction passes into the issue queue (R122). -/
def State.issue (s : State) (h : Hart) : State :=
  s.onCore h.core.toNat fun c =>
    { c with threads := lmod c.threads h.thread.toNat Thread.issue, turn := (h.thread.toNat + 1) % 16,
             queue := if isVector (s.fetch h) then c.queue ++ [h.thread.toNat] else c.queue }
/-- The vector unit has executed the head of the issue queue (R122). -/
def State.leaveQueue (s : State) (h : Hart) : State := s.onCore h.core.toNat fun c => { c with queue := c.queue.drop 1 }

/-- A thread issues an instruction, which takes effect at once (log entry 144, DESIGN CHOICE); one that is not the next to issue
leaves the state as it is (log entry 14, DEDUCED), and a word that fails its parity replays the package (R152). The effect
is given the thread as it was and the state with the instruction counted. -/
def hartOp (h : Hart) (i : Instr) (s : State) (k : Thread → State → State) : Result State :=
  match s.prog h with
  | none => .next s
  | some p =>
    if s.issues h i then
      .next (workReads p.desc.pkg .compute (leaveProg h.core.toNat) [(s.codeAddr h, 4)] s fun u =>
        let r := k (u.thread h) (u.issue h)
        if isVector (s.fetch h) then r.leaveQueue h else r)
    else .next s

/-- A scalar instruction: only its thread changes. -/
def scalarOp (h : Hart) (i : Instr) (s : State) (f : Thread → Thread) : Result State :=
  hartOp h i s fun t s => s.onThread h fun u => { (f t) with issued := u.issued, pc := u.pc, state := u.state }

/-- An instruction of the vector unit that changes only registers of the core. -/
def vectorOp (h : Hart) (i : Instr) (s : State) (f : Thread → Core → Core) : Result State :=
  hartOp h i s fun t s => s.onCore h.core.toNat (f t)

/-- A program reads core SRAM through its windows: a corrupt word replays its package (R152). -/
def progReads (h : Hart) (rs : List (Nat × Nat)) (s : State) (k : State → State) : State :=
  match s.prog h with
  | some p => workReads p.desc.pkg .compute (leaveProg h.core.toNat) rs s k
  | none => k s

/-! ## Lanes (R121, R127) -/

/-- The number of lanes. -/
def lanes : Nat := 4096
/-- Vi. -/
def Core.vreg (c : Core) (i : BitVec 5) : List Word := c.v.getD i.toNat []
/-- PMi: PM0 reads all ones (R121). -/
def Core.pmask (c : Core) (i : BitVec 3) : List Bool :=
  if i == 0 then List.replicate lanes true else c.pm.getD i.toNat []
/-- Lanes of `new` where the mask is 1, of `old` elsewhere (R127). -/
def merge {α : Type} (pm : List Bool) (old new : List α) : List α :=
  List.zipWith (fun (m : Bool) (p : α × α) => if m then p.2 else p.1) pm (old.zip new)
/-- Write Vi under a mask. -/
def Core.setV (c : Core) (i : BitVec 5) (pm : BitVec 3) (new : List Word) : Core :=
  { c with v := lmod c.v i.toNat fun old => merge (c.pmask pm) old new }
/-- Write PMi under a mask: PM0 ignores writes. -/
def Core.setPm (c : Core) (i : BitVec 3) (pm : BitVec 3) (new : List Bool) : Core :=
  if i == 0 then c else { c with pm := lmod c.pm i.toNat fun old => merge (c.pmask pm) old new }
/-- The lanes of a register that a mask leaves active. -/
def Core.active {α : Type} (c : Core) (pm : BitVec 3) (xs : List α) : List α :=
  ((c.pmask pm).zip xs).filterMap fun p => if p.1 then some p.2 else none
/-- The second source of an element-wise instruction: a register, or a scalar broadcast (R129). -/
def srcLanes (b : VSrc) (t : Thread) (c : Core) : List Word :=
  match b with
  | .vec b => c.vreg b
  | .scalar b => List.replicate lanes (t.get32 b)

/-- The scalar format of a packed half. -/
def halfFmt : VFmt → Fmt
  | .fp32 => .fp32
  | .bf16 => .bf16
  | .fp16 => .fp16

/-- An operation of exact values on the lanes of one format: once on an FP32 lane, on each half of a packed lane, every
result rounded once under RNE (R131, R132). -/
def laneOp (fmt : VFmt) (f : List Val → Val) (ws : List Word) : Word :=
  match fmt with
  | .fp32 => toF32 (f (ws.map ofF32))
  | _ =>
    let g := halfFmt fmt
    let half := fun (lo : Nat) => toFmt g .rne false (f (ws.map fun w => g.layout.decode (bitField w.toNat lo 16)))
    BitVec.ofNat 32 (half 0 + 2 ^ 16 * half 16)

/-- An element-wise instruction of two sources. -/
def vecBin (h : Hart) (i : Instr) (fmt : VFmt) (d a : BitVec 5) (b : VSrc) (pm : BitVec 3) (op : Val → Val → Val)
    (s : State) : Result State :=
  vectorOp h i s fun t c =>
    c.setV d pm (List.zipWith (fun x y => laneOp fmt (fun vs => op (vs.getD 0 .nan) (vs.getD 1 .nan)) [x, y])
      (c.vreg a) (srcLanes b t c))

/-! ## Windows (R124) -/

/-- The base and length in bytes of a window of the program. -/
def State.win (s : State) (h : Hart) (w : BitVec 3) : Nat × Nat :=
  match s.prog h with
  | some p => p.wins.getD w.toNat (0, 64)
  | none => (0, 64)

/-- The 64-byte units that an access of `n` units from a byte offset reaches, each reduced modulo the window (R124). -/
def winUnits (win : Nat × Nat) (off : DWord) (n : Nat) : List Nat :=
  (List.range n).map fun i => win.1 + (off.toNat / 64 * 64 + 64 * i) % win.2

/-- The ranges of core SRAM that an access to units of a window reaches. -/
def winRanges (core : Nat) (win : Nat × Nat) (off : DWord) (n : Nat) : List (Nat × Nat) :=
  (winUnits win off n).map fun o => (coreAddr core o, 64)

/-- Read units of a window. -/
def winRead (s : State) (core : Nat) (win : Nat × Nat) (off : DWord) (n : Nat) : Bytes :=
  (winUnits win off n).flatMap fun o => s.read (coreAddr core o) 64

/-- Write units of a window, in order. -/
def winWrite (core : Nat) (win : Nat × Nat) (off : DWord) (bs : Bytes) (s : State) : State :=
  ((winUnits win off (bs.length / 64)).zip (chunks 64 bs)).foldl (fun s p => s.write (coreAddr core p.1) p.2) s

/-- The offset that an access uses for an Xa that is not a multiple of 64: a free multiple of 64 (log entry 15, DESIGN CHOICE). -/
def unitOffset (xa : DWord) (s : State) : DWord × State :=
  if xa.toNat % 64 == 0 then (xa, s)
  else
    let (v, s) := s.free
    ((v >>> 6) <<< 6, s)

end Sys2Proof.Machine
end

