-- ==== Sys2Proof/Machine/Flags.lean ====
section
/-!
DEFINITION. The flags that work reports: the result words of vector programs, tiles and rounds (R118, R151, R423) and the
meters and counters that go with each flag (R554, R563).
-/
namespace Sys2Proof.Machine

/-- Conditions met by conversions and sums of one operation: how many of each, in the order of the numerics meters from
TILE_REPLAYS (R563). -/
structure Conds where
  replays   : Nat
  anchorSat : Nat
  fp32Sat   : Nat
  nonfinite : Nat
  mxNan     : Nat
  cvtSat    : Nat
  sampleFault : Nat
  deriving DecidableEq, Repr

/-- Nothing met. -/
def Conds.zero : Conds := ⟨0, 0, 0, 0, 0, 0, 0⟩

/-- The conditions of both. -/
def Conds.add (a b : Conds) : Conds :=
  ⟨a.replays + b.replays, a.anchorSat + b.anchorSat, a.fp32Sat + b.fp32Sat, a.nonfinite + b.nonfinite,
    a.mxNan + b.mxNan, a.cvtSat + b.cvtSat, a.sampleFault + b.sampleFault⟩

/-- The conditions of one output of an accumulator (R63, R64, R67). -/
def LaOut.conds (o : LaOut) : Conds :=
  { Conds.zero with anchorSat := if o.anchorSat then 1 else 0, fp32Sat := if o.fp32Sat then 1 else 0,
                    nonfinite := if o.nonfinite then 1 else 0 }

/-- Bits [7:2] of a result word (R151): bits [6:2] of R118 and R423 are the same. -/
def Conds.bits (c : Conds) : Nat :=
  let b := fun (n i : Nat) => if n == 0 then 0 else 2 ^ i
  b c.anchorSat 2 + b c.fp32Sat 3 + b c.nonfinite 4 + b c.mxNan 5 + b c.cvtSat 6 + b c.sampleFault 7

/-- Count conditions in the account's numerics meters and in the event counters of a die (R554, R563). -/
def countConds (acct die : Nat) (unit : Option Nat) (c : Conds) (s : State) : State :=
  let m := fun (i n : Nat) (s : State) => if n == 0 then s else s.num acct i n
  let b := fun (src n : Nat) (s : State) => if n == 0 then s else s.bump src die (some acct) unit n
  b 0x502 c.mxNan (b 0x501 c.fp32Sat (b 0x500 c.anchorSat
    (m 6 c.sampleFault (m 5 c.cvtSat (m 4 c.mxNan (m 3 c.nonfinite (m 2 c.fp32Sat (m 1 c.anchorSat (m 0 c.replays s)))))))))

/-- A vector program meets conditions: its result word takes them, REPLAYS the highest shadow chosen (R151). -/
def progConds (h : Hart) (shadow : Nat) (c : Conds) (s : State) : State :=
  match s.prog h with
  | none => s
  | some p =>
    let die := h.core.toNat / 16
    let s := countConds p.desc.pkg.acct.toNat die (some (h.core.toNat % 16)) c s
    let s := if c.replays == 0 then s
      else s.bump 0x101 die (some p.desc.pkg.acct.toNat) (some (h.core.toNat % 16)) c.replays
    let r := max (p.result.toNat % 4) shadow + ((p.result.toNat ||| c.bits) / 4 * 4)
    s.onCore h.core.toNat fun c => { c with prog := some { p with result := BitVec.ofNat 32 r } }

/-- A comparison's result in a scalar register (R129). -/
def flagWord (b : Bool) : DWord := if b then 1 else 0

end Sys2Proof.Machine
end

