-- ==== Sys2Proof/Machine/Scalar.lean ====
section
/-!
DEFINITION. The scalar instructions (04 R129 to R131): one definition for each, over the operand forms of `Operands.lean`.
-/
namespace Sys2Proof.Machine

/-! ## Integer (OP 0x00 to 0x07) -/

/-- The members of OP 0x00 on `w` bits: shifts use the amount modulo the width, MIN, MAX and SLT are signed (R129). -/
def intOp {w : Nat} (op : IntOp) (a b : BitVec w) : BitVec w :=
  match op with
  | .add => a + b
  | .sub => a - b
  | .and => a &&& b
  | .or => a ||| b
  | .xor => a ^^^ b
  | .sll => a <<< (b.toNat % w)
  | .srl => a >>> (b.toNat % w)
  | .sra => a.sshiftRight (b.toNat % w)
  | .slt => if a.slt b then 1 else 0
  | .sltu => if a.ult b then 1 else 0
  | .min => if b.slt a then b else a
  | .max => if a.slt b then b else a
  | .mul => a * b

/-- A register form of OP 0x00. -/
def intForm (op : IntOp) (h : Hart) (i : Instr) (d a b : BitVec 5) (s : State) : Result State :=
  scalarOp h i s fun t => t.set d (intOp op (t.get a) (t.get b))

/-- ADD (R129). -/
def execAdd (h : Hart) (d a b : BitVec 5) (s : State) : Result State := intForm .add h (.add h d a b) d a b s
/-- SUB (R129). -/
def execSub (h : Hart) (d a b : BitVec 5) (s : State) : Result State := intForm .sub h (.sub h d a b) d a b s
/-- AND (R129). -/
def execAnd (h : Hart) (d a b : BitVec 5) (s : State) : Result State := intForm .and h (.and h d a b) d a b s
/-- OR (R129). -/
def execOr (h : Hart) (d a b : BitVec 5) (s : State) : Result State := intForm .or h (.or h d a b) d a b s
/-- XOR (R129). -/
def execXor (h : Hart) (d a b : BitVec 5) (s : State) : Result State := intForm .xor h (.xor h d a b) d a b s
/-- SLL (R129). -/
def execSll (h : Hart) (d a b : BitVec 5) (s : State) : Result State := intForm .sll h (.sll h d a b) d a b s
/-- SRL (R129). -/
def execSrl (h : Hart) (d a b : BitVec 5) (s : State) : Result State := intForm .srl h (.srl h d a b) d a b s
/-- SRA (R129). -/
def execSra (h : Hart) (d a b : BitVec 5) (s : State) : Result State := intForm .sra h (.sra h d a b) d a b s
/-- SLT (R129). -/
def execSlt (h : Hart) (d a b : BitVec 5) (s : State) : Result State := intForm .slt h (.slt h d a b) d a b s
/-- SLTU (R129). -/
def execSltu (h : Hart) (d a b : BitVec 5) (s : State) : Result State := intForm .sltu h (.sltu h d a b) d a b s
/-- MIN (R129). -/
def execMin (h : Hart) (d a b : BitVec 5) (s : State) : Result State := intForm .min h (.min h d a b) d a b s
/-- MAX (R129). -/
def execMax (h : Hart) (d a b : BitVec 5) (s : State) : Result State := intForm .max h (.max h d a b) d a b s
/-- MUL (R129). -/
def execMul (h : Hart) (d a b : BitVec 5) (s : State) : Result State := intForm .mul h (.mul h d a b) d a b s

/-- ADDI (R129). -/
def execAddi (h : Hart) (d a : BitVec 5) (imm : BitVec 16) (s : State) : Result State :=
  scalarOp h (.addi h d a imm) s fun t => t.set d (t.get a + imm.signExtend 64)
/-- ANDI (R129). -/
def execAndi (h : Hart) (d a : BitVec 5) (imm : BitVec 16) (s : State) : Result State :=
  scalarOp h (.andi h d a imm) s fun t => t.set d (t.get a &&& imm.setWidth 64)
/-- ORI (R129). -/
def execOri (h : Hart) (d a : BitVec 5) (imm : BitVec 16) (s : State) : Result State :=
  scalarOp h (.ori h d a imm) s fun t => t.set d (t.get a ||| imm.setWidth 64)
/-- XORI (R129). -/
def execXori (h : Hart) (d a : BitVec 5) (imm : BitVec 16) (s : State) : Result State :=
  scalarOp h (.xori h d a imm) s fun t => t.set d (t.get a ^^^ imm.setWidth 64)
/-- SHI (R129). -/
def execShi (h : Hart) (d a : BitVec 5) (kind : ShiftOp) (amt : BitVec 6) (s : State) : Result State :=
  scalarOp h (.shi h d a kind amt) s fun t => t.set d (match kind with
    | .sll => t.get a <<< amt.toNat
    | .srl => t.get a >>> amt.toNat
    | .sra => (t.get a).sshiftRight amt.toNat)
/-- LUI (R129). -/
def execLui (h : Hart) (d : BitVec 5) (imm : BitVec 16) (s : State) : Result State :=
  scalarOp h (.lui h d imm) s fun t => t.set d (imm.signExtend 64 <<< 16)
/-- SLTI (R129). -/
def execSlti (h : Hart) (d a : BitVec 5) (imm : BitVec 16) (s : State) : Result State :=
  scalarOp h (.slti h d a imm) s fun t => t.set d (flagWord ((t.get a).slt (imm.signExtend 64)))

/-! ## FP32 (OP 0x08 to 0x0B) -/

/-- An FP32 operation of two sources (R131). -/
def fpForm (op : Val → Val → Val) (h : Hart) (i : Instr) (d a b : BitVec 5) (s : State) : Result State :=
  scalarOp h i s fun t => t.set32 d (f32Op op (t.get32 a) (t.get32 b))
/-- An FP32 comparison (R129). -/
def fpTest (op : Val → Val → Bool) (h : Hart) (i : Instr) (d a b : BitVec 5) (s : State) : Result State :=
  scalarOp h i s fun t => t.set d (flagWord (op (ofF32 (t.get32 a)) (ofF32 (t.get32 b))))

/-- FADD (R129, R131). -/
def execFadd (h : Hart) (d a b : BitVec 5) (s : State) : Result State := fpForm Val.add h (.fadd h d a b) d a b s
/-- FSUB (R129, R131). -/
def execFsub (h : Hart) (d a b : BitVec 5) (s : State) : Result State := fpForm (fun x y => x.add y.neg) h (.fsub h d a b) d a b s
/-- FMUL (R129, R131). -/
def execFmul (h : Hart) (d a b : BitVec 5) (s : State) : Result State := fpForm Val.mul h (.fmul h d a b) d a b s
/-- FDIV (R129, R131). -/
def execFdiv (h : Hart) (d a b : BitVec 5) (s : State) : Result State := fpForm Val.div h (.fdiv h d a b) d a b s
/-- FSQRT (R129, R131). -/
def execFsqrt (h : Hart) (d a : BitVec 5) (s : State) : Result State :=
  scalarOp h (.fsqrt h d a) s fun t => t.set32 d (toF32 (ofF32 (t.get32 a)).sqrt)
/-- FMIN (R129, R131). -/
def execFmin (h : Hart) (d a b : BitVec 5) (s : State) : Result State := fpForm Val.min h (.fmin h d a b) d a b s
/-- FMAX (R129, R131). -/
def execFmax (h : Hart) (d a b : BitVec 5) (s : State) : Result State := fpForm Val.max h (.fmax h d a b) d a b s
/-- FFMA (R129, R131). -/
def execFfma (h : Hart) (d a b : BitVec 5) (s : State) : Result State :=
  scalarOp h (.ffma h d a b) s fun t => t.set32 d (toF32 (Val.fma (ofF32 (t.get32 a)) (ofF32 (t.get32 b)) (ofF32 (t.get32 d))))
/-- FEQ (R129). -/
def execFeq (h : Hart) (d a b : BitVec 5) (s : State) : Result State := fpTest Val.eq h (.feq h d a b) d a b s
/-- FLT (R129). -/
def execFlt (h : Hart) (d a b : BitVec 5) (s : State) : Result State := fpTest Val.lt h (.flt h d a b) d a b s
/-- FLE (R129). -/
def execFle (h : Hart) (d a b : BitVec 5) (s : State) : Result State := fpTest Val.le h (.fle h d a b) d a b s
/-- FUNORD (R129). -/
def execFunord (h : Hart) (d a b : BitVec 5) (s : State) : Result State :=
  fpTest (fun x y => x.isNan || y.isNan) h (.funord h d a b) d a b s

/-- FP32 to a signed 64-bit integer: toward zero, saturating, NaN gives 0 (R129). -/
def f32ToS64 (w : Word) : DWord :=
  match ofF32 w with
  | .nan => 0
  | .inf neg => if neg then 0x8000000000000000 else 0x7FFFFFFFFFFFFFFF
  | .fin neg m e =>
    let n : Nat := if 0 ≤ e then m * 2 ^ e.toNat else m / 2 ^ (-e).toNat
    if neg then (if 2 ^ 63 ≤ n then 0x8000000000000000 else -(BitVec.ofNat 64 n))
    else if 2 ^ 63 ≤ n then 0x7FFFFFFFFFFFFFFF else BitVec.ofNat 64 n

/-- A finite FP32 value converts beyond the range of what FCVT writes: CVT_SAT (R129, R151). An infinity saturates to an integer
and stays one in BF16. -/
def fcvtOvf (op : FcvtOp) (w : Word) : Bool :=
  match op with
  | .f32ToS64 => match ofF32 w with
    | .inf _ => true
    | .fin neg m e =>
      let n : Nat := if 0 ≤ e then m * 2 ^ e.toNat else m / 2 ^ (-e).toNat
      if neg then decide (2 ^ 63 < n) else decide (2 ^ 63 ≤ n)
    | .nan => false
  | .f32ToBf16 => (convert .bf16 .rne false (ofF32 w)).ovf
  | .s64ToF32 | .bf16ToF32 => false

/-- FCVT (R129, R151). A conversion to BF16 writes bits [63:16] as zero. -/
def execFcvt (h : Hart) (d a : BitVec 5) (op : FcvtOp) (s : State) : Result State :=
  hartOp h (.fcvt h d a op) s fun t s =>
    let s := s.onThread h fun u => match op with
      | .s64ToF32 => u.set32 d (toF32 (Val.ofInt (t.get a).toInt))
      | .f32ToS64 => u.set d (f32ToS64 (t.get32 a))
      | .f32ToBf16 => u.set d ((toBf16 (ofF32 (t.get32 a))).setWidth 64)
      | .bf16ToF32 => u.set32 d (toF32 (ofBf16 ((t.get a).setWidth 16)))
    if fcvtOvf op (t.get32 a) then progConds h 0 { Conds.zero with cvtSat := 1 } s else s

/-! ## Control (OP 0x0C to 0x0F) -/

/-- The condition of a branch (R130). -/
def condHolds (c : Cond) (x : DWord) : Bool :=
  match c with
  | .always => true
  | .eqz => x == 0
  | .nez => x != 0
  | .ltz => x.msb
  | .gez => !x.msb

/-- BR: the target is the branch's own word plus the offset (R127, R130). -/
def execBr (h : Hart) (cond : Cond) (a : BitVec 5) (off : BitVec 16) (s : State) : Result State :=
  hartOp h (.br h cond a off) s fun t s => s.onThread h fun u =>
    if condHolds cond (t.get a) then { u with pc := ((t.pc : Int) + off.toInt).toNat } else u

/-- A thread has ended: halted, out of budget, never started, or past the last word (R126, log entry 14, DEDUCED). -/
def threadOver (p : VProg) (t : Thread) : Bool :=
  match t.state with
  | .halted | .spent | .idle => true
  | .running => decide (p.plen ≤ t.pc)
  | .waiting _ _ => false

/-- The program of a core ends once its threads have ended: with TIMEOUT if one spent its BUDGET, its transfers stopping with it, and
otherwise it completes once they have completed (R126, R151, R165, R178). -/
def progEnd (core : Nat) (s : State) : State :=
  let c := s.core core
  match c.prog with
  | none => s
  | some p =>
    let spent := c.threads.any fun t => t.state == .spent
    if c.threads.all (threadOver p) && (spent || p.posted.isEmpty) then
      let s := meterCycles p.desc.pkg.acct.toNat 1 (core / 16) s
      let idle := fun (t : Thread) => { t with state := ThreadState.idle }
      let s := s.onCore core fun c => { c with prog := none, threads := c.threads.map idle }
      if spent then tryEndStop p.desc.pkg (beginStop p.desc.pkg .timeout s)
      else
        let s := s.onDesc p.desc fun d => { d with progress := 1, result := p.result }
        match s.pkg p.desc.pkg with
        | some q => if q.state == .stopping then completeDesc p.desc p.result s else s
        | none => s
    else s

/-- HALT: the thread ends (R129). -/
def execHalt (h : Hart) (s : State) : Result State :=
  hartOp h (.halt h) s fun _ s => progEnd h.core.toNat (s.onThread h fun u => { u with state := .halted })

/-- SEMWAIT: the thread waits until the semaphore reaches Xa[31:0] (R130). -/
def execSemwait (h : Hart) (imm : BitVec 8) (a : BitVec 5) (s : State) : Result State :=
  hartOp h (.semwait h imm a) s fun t s => s.onThread h fun u => { u with state := .waiting imm.toNat (t.get32 a) }

/-- What SEMSIGNAL sends: the signal's message on CTL (R368). -/
def signalSent (h : Hart) (imm : BitVec 8) (s : State) : List (Vc × List Hop) := match s.prog h with
  | some v => signalMsgs s v.desc.pkg.acct.toNat (h.core.toNat / 16) imm.toNat
  | none => []

/-- SEMSIGNAL: the semaphore is signalled, unless an earlier pass already issued this signal; its message crosses the network on CTL
(R130, R183, R368). -/
def execSemsignal (h : Hart) (imm : BitVec 8) (s : State) : Result State :=
  if (s.chip.noc.crossAll (signalSent h imm s)).isNone then .next s
  else hartOp h (.semsignal h imm) s fun _ s => match s.prog h with
    | none => s
    | some p => issueSignal p.desc imm.toNat s

/-- The header of a posted image: KIND XFER, WAIT 0, SIGNAL 0 or a PROGRAM semaphore of the program, and no other field
that the header reserves (R175, log entry 16, DEDUCED). -/
def postOk (p : Pkg) (v : VProg) (b : Bytes) : Bool :=
  let e := fieldAt b 5 1
  let own := match p.sems[e - 1]? with
    | some x => x.kind == 3 && x.owner == v.desc.idx.toNat
    | none => false
  fieldAt b 0 1 == 3 && fieldAt b 4 1 == 0 && (e == 0 || own) && (xfOf b).ok b && (xfOf b).inside p

/-- XPOST: an image that passes its checks is queued and Xd reads 0; one that fails is not performed and Xd reads 0x02 (R130,
R175). -/
def execXpost (h : Hart) (d a : BitVec 5) (w : BitVec 3) (s : State) : Result State :=
  hartOp h (.xpost h d a w) s fun t s =>
    let (off, s) := unitOffset (t.get a) s
    progReads h (winRanges h.core.toNat (s.win h w) off 1) s fun s =>
      let b := winRead s h.core.toNat (s.win h w) off 1
      match s.prog h with
      | none => s
      | some v => match s.pkg v.desc.pkg with
        | none => s
        | some p =>
          if p.state != .stopping && postOk p v b then
            (s.onThread h fun u => u.set d 0).onCore h.core.toNat fun c =>
              { c with prog := some { v with posted := v.posted ++ [b] } }
          else s.onThread h fun u => u.set d (if postOk p v b then 0 else 2)

/-! ## Memory (OP 0x10, 0x11) -/

/-- The byte offset of a scalar access within its window: Xa + displacement × size, low bits cleared to the size, modulo
the window (R124, R130). -/
def scalarOff (s : State) (h : Hart) (w : BitVec 3) (x : DWord) (size : BitVec 2) (disp : BitVec 10) : Nat :=
  let n := 2 ^ size.toNat
  let o := x + (disp.signExtend 64 <<< size.toNat)
  coreAddr h.core.toNat ((s.win h w).1 + (o.toNat / n * n) % (s.win h w).2)

/-- LD (R130). -/
def execLd (h : Hart) (d a : BitVec 5) (w : BitVec 3) (size : BitVec 2) (sx : Bool) (disp : BitVec 10) (s : State) :
    Result State :=
  hartOp h (.ld h d a w size sx disp) s fun t s =>
    let n := 2 ^ size.toNat
    let o := scalarOff s h w (t.get a) size disp
    progReads h [(o, n)] s fun s =>
      s.onThread h fun u => u.set d (if sx then BitVec.ofInt 64 (signed (8 * n) (s.readNat o n)) else BitVec.ofNat 64 (s.readNat o n))

/-- ST (R130). -/
def execSt (h : Hart) (d a : BitVec 5) (w : BitVec 3) (size : BitVec 2) (disp : BitVec 10) (s : State) : Result State :=
  hartOp h (.st h d a w size disp) s fun t s =>
    s.write (scalarOff s h w (t.get a) size disp) (leBytes (2 ^ size.toNat) (t.get d).toNat)

end Sys2Proof.Machine
end

