-- ==== Sys2Proof/Machine/Vector.lean ====
section
/-!
DEFINITION. The element-wise, mask, integer, conversion, function and cross-lane instructions of the vector unit (04 R129
to R132, R141 to R145): one definition for each.
-/
namespace Sys2Proof.Machine

/-! ## Element-wise (OP 0x18 to 0x1F) -/

/-- VADD (R129, R131, R132). -/
def execVadd (h : Hart) (fmt : VFmt) (d a : BitVec 5) (b : VSrc) (pm : BitVec 3) (s : State) : Result State :=
  vecBin h (.vadd h fmt d a b pm) fmt d a b pm Val.add s
/-- VSUB (R129, R131, R132). -/
def execVsub (h : Hart) (fmt : VFmt) (d a : BitVec 5) (b : VSrc) (pm : BitVec 3) (s : State) : Result State :=
  vecBin h (.vsub h fmt d a b pm) fmt d a b pm (fun x y => x.add y.neg) s
/-- VMUL (R129, R131, R132). -/
def execVmul (h : Hart) (fmt : VFmt) (d a : BitVec 5) (b : VSrc) (pm : BitVec 3) (s : State) : Result State :=
  vecBin h (.vmul h fmt d a b pm) fmt d a b pm Val.mul s
/-- VFMA: Vd ← Va × Vb + Vd, rounded once (R129, R131, R132). -/
def execVfma (h : Hart) (fmt : VFmt) (d a : BitVec 5) (b : VSrc) (pm : BitVec 3) (s : State) : Result State :=
  vectorOp h (.vfma h fmt d a b pm) s fun t c =>
    c.setV d pm (List.zipWith (fun (p : Word × Word) (z : Word) =>
      laneOp fmt (fun vs => Val.fma (vs.getD 0 .nan) (vs.getD 1 .nan) (vs.getD 2 .nan)) [p.1, p.2, z])
      ((c.vreg a).zip (srcLanes b t c)) (c.vreg d))
/-- VMIN (R129, R131, R132). -/
def execVmin (h : Hart) (fmt : VFmt) (d a : BitVec 5) (b : VSrc) (pm : BitVec 3) (s : State) : Result State :=
  vecBin h (.vmin h fmt d a b pm) fmt d a b pm Val.min s
/-- VMAX (R129, R131, R132). -/
def execVmax (h : Hart) (fmt : VFmt) (d a : BitVec 5) (b : VSrc) (pm : BitVec 3) (s : State) : Result State :=
  vecBin h (.vmax h fmt d a b pm) fmt d a b pm Val.max s
/-- VDIV (R129, R131, R132). -/
def execVdiv (h : Hart) (fmt : VFmt) (d a : BitVec 5) (b : VSrc) (pm : BitVec 3) (s : State) : Result State :=
  vecBin h (.vdiv h fmt d a b pm) fmt d a b pm Val.div s
/-- VSQRT (R129, R131, R132). -/
def execVsqrt (h : Hart) (fmt : VFmt) (d a : BitVec 5) (pm : BitVec 3) (s : State) : Result State :=
  vectorOp h (.vsqrt h fmt d a pm) s fun _ c => c.setV d pm ((c.vreg a).map fun x => laneOp fmt (fun vs => (vs.getD 0 .nan).sqrt) [x])

/-! ## Compare, masks, select (OP 0x20 to 0x22) -/

/-- A lane comparison (R129). -/
def cmpLane (op : CmpOp) (a b : Word) : Bool :=
  let x := ofF32 a
  let y := ofF32 b
  match op with
  | .eq => x.eq y
  | .lt => x.lt y
  | .le => x.le y
  | .ne => !(x.isNan || y.isNan) && !x.eq y
  | .unord => x.isNan || y.isNan

/-- VCMP (R129). -/
def execVcmp (h : Hart) (op : CmpOp) (d : BitVec 3) (a b : BitVec 5) (pm : BitVec 3) (s : State) : Result State :=
  vectorOp h (.vcmp h op d a b pm) s fun _ c => c.setPm d pm (List.zipWith (cmpLane op) (c.vreg a) (c.vreg b))

/-- Mask logic of two sources (R129). -/
def maskForm (f : Bool → Bool → Bool) (h : Hart) (i : Instr) (d a b pm : BitVec 3) (s : State) : Result State :=
  vectorOp h i s fun _ c => c.setPm d pm (List.zipWith f (c.pmask a) (c.pmask b))
/-- PAND (R129). -/
def execPand (h : Hart) (d a b pm : BitVec 3) (s : State) : Result State := maskForm and h (.pand h d a b pm) d a b pm s
/-- POR (R129). -/
def execPor (h : Hart) (d a b pm : BitVec 3) (s : State) : Result State := maskForm or h (.por h d a b pm) d a b pm s
/-- PXOR (R129). -/
def execPxor (h : Hart) (d a b pm : BitVec 3) (s : State) : Result State := maskForm xor h (.pxor h d a b pm) d a b pm s
/-- PANDN: PMa and the complement of PMb (R129, log entry 17, DEDUCED). -/
def execPandn (h : Hart) (d a b pm : BitVec 3) (s : State) : Result State := maskForm (fun x y => x && !y) h (.pandn h d a b pm) d a b pm s
/-- PNOT (R129). -/
def execPnot (h : Hart) (d a pm : BitVec 3) (s : State) : Result State :=
  vectorOp h (.pnot h d a pm) s fun _ c => c.setPm d pm ((c.pmask a).map not)

/-- VSEL: every lane of Vd is Va's where the mask is 1 and Vb's where it is 0 (R129). -/
def execVsel (h : Hart) (d a b : BitVec 5) (pm : BitVec 3) (s : State) : Result State :=
  vectorOp h (.vsel h d a b pm) s fun _ c => c.setV d 0 (merge (c.pmask pm) (c.vreg b) (c.vreg a))

/-! ## Integer lanes (OP 0x24, 0x25) -/

/-- The members of OP 0x24 (R129). -/
def execVintOp (h : Hart) (op : IntOp) (d a b : BitVec 5) (pm : BitVec 3) (s : State) : Result State :=
  vectorOp h (.vintOp h op d a b pm) s fun _ c => c.setV d pm (List.zipWith (intOp op) (c.vreg a) (c.vreg b))
/-- VIOTA (R129). -/
def execViota (h : Hart) (d : BitVec 5) (pm : BitVec 3) (s : State) : Result State :=
  vectorOp h (.viota h d pm) s fun _ c => c.setV d pm ((List.range lanes).map (BitVec.ofNat 32))

/-! ## Conversions (OP 0x28, 0x29) -/

/-- The format of a scalar conversion code. -/
def sfmt : SFmt → Fmt
  | .fp32 => .fp32 | .bf16 => .bf16 | .fp16 => .fp16 | .e4m3 => .e4m3 | .e5m2 => .e5m2
/-- The format of an MX conversion code. -/
def mfmt : MFmt → Fmt
  | .e4m3 => .mxE4m3 | .e5m2 => .mxE5m2 | .e2m3 => .mxE2m3 | .e3m2 => .mxE3m2 | .e2m1 => .mxE2m1

/-- VCVT: each lane's element, in the low bits of the lane, from one scalar format to another (R49 to R51, R129, log
entry 18, DEDUCED). -/
def execVcvt (h : Hart) (d a : BitVec 5) (src dst : SFmt) (cvt : BitVec 4) (pm : BitVec 3) (s : State) : Result State :=
  let (rnd, sat) := (cvtOf cvt.toNat).getD (.rne, false)
  let f := sfmt src
  let one := fun (w : Word) => convert (sfmt dst) rnd sat (f.layout.decode (w.toNat % 2 ^ f.width))
  hartOp h (.vcvt h d a src dst cvt pm) s fun _ s =>
    let c := s.core h.core.toNat
    let out := (c.vreg a).map one
    let sats := ((c.active pm out).filter (·.ovf)).length
    progConds h 0 { Conds.zero with cvtSat := sats }
      (s.onCore h.core.toNat fun c => c.setV d pm (out.map fun x => BitVec.ofNat 32 x.code))

/-- The words that hold a bit string of `n` bits, from lane 0. -/
def bitsToLanes (n v : Nat) : List Word := (List.range ((n + 31) / 32)).map fun i => BitVec.ofNat 32 (v >>> (32 * i))
/-- The bit string that lanes hold, from lane 0. -/
def lanesToBits (ws : List Word) : Nat := leNat (ws.flatMap fun w => leBytes 4 w.toNat)
/-- New words over the first lanes of a register. -/
def overLanes (old new : List Word) : List Word := new ++ old.drop new.length

/-- VMX PACK: the 4,096 lanes of Va form 128 blocks; the element bits fill Vd from lane 0 and the scale bytes V(d+1), each but for the
lanes that the mask keeps (R56, R127, R129, log entry 18, DEDUCED). -/
def execVmxPack (h : Hart) (d a : BitVec 5) (fmt : MFmt) (pm : BitVec 3) (s : State) : Result State :=
  hartOp h (.vmxPack h d a fmt pm) s fun _ s =>
    let c := s.core h.core.toNat
    let f := mfmt fmt
    let blocks := (chunks 32 (c.vreg a)).map fun b => mxPack f (b.map ofF32)
    let codes := blocks.flatMap (·.elems)
    let els := bitsToLanes (f.width * lanes) (packBits f.width codes)
    let scs := bitsToLanes (8 * 128) (packBits 8 (blocks.map (·.scale)))
    let live := c.pmask pm
    let sats := ((chunks 32 (c.vreg a)).zip blocks).zipIdx.map fun p =>
      if p.1.2.scale == 0xFF then 0
      else (p.1.1.zipIdx.filter fun w => live.getD (f.width * (32 * p.2 + w.2) / 32) false &&
        (convert f .rne true ((ofF32 w.1).scale (127 - (p.1.2.scale : Int)))).ovf).length
    let nans := blocks.zipIdx.filter fun b => b.1.scale == 0xFF && live.getD (b.2 / 4) false
    progConds h 0 { Conds.zero with mxNan := nans.length, cvtSat := sats.sum } (s.onCore h.core.toNat fun c =>
      (c.setV d pm (overLanes (c.vreg d) els)).setV (d + 1) pm (overLanes (c.vreg (d + 1)) scs))

/-- VMX UNPACK: the reverse, exact; a value beyond FP32 sets CVT_SAT (R54, R129, R151). -/
def execVmxUnpack (h : Hart) (d a : BitVec 5) (fmt : MFmt) (pm : BitVec 3) (s : State) : Result State :=
  hartOp h (.vmxUnpack h d a fmt pm) s fun _ s =>
    let c := s.core h.core.toNat
    let f := mfmt fmt
    let codes := unpackBits f.width lanes (lanesToBits (c.vreg a))
    let scs := unpackBits 8 128 (lanesToBits ((c.vreg (a + 1)).take 32))
    let vals := (List.zipWith (fun sc el => mxUnpack f ⟨sc, el⟩) scs (chunks 32 codes)).flatten
    let sats := ((c.active pm vals).filter fun v => (convert .fp32 .rne false v).ovf).length
    progConds h 0 { Conds.zero with cvtSat := sats } (s.onCore h.core.toNat fun c => c.setV d pm (vals.map toF32))

/-! ## Functions and activations (OP 0x2A to 0x2D) -/

/-- VFN (R141, R142). -/
def execVfn (h : Hart) (d a : BitVec 5) (f : Fn) (pm : BitVec 3) (s : State) : Result State :=
  vectorOp h (.vfn h d a f pm) s fun _ c => c.setV d pm ((c.vreg a).map (libFn f))
/-- VACT: ACT_PARAM comes from lane 0 of Vb (R143). -/
def execVact (h : Hart) (d a b : BitVec 5) (act : Act) (pm : BitVec 3) (s : State) : Result State :=
  vectorOp h (.vact h d a b act pm) s fun _ c => c.setV d pm ((c.vreg a).map (actFn act ((c.vreg b).getD 0 0)))
/-- VDACT: the gradient in Vb times the derivative at Va; ACT_PARAM is the thread's APR (R144). -/
def execVdact (h : Hart) (d a b : BitVec 5) (act : Act) (pm : BitVec 3) (s : State) : Result State :=
  vectorOp h (.vdact h d a b act pm) s fun t c => c.setV d pm (List.zipWith (dactFn act t.apr) (c.vreg a) (c.vreg b))
/-- APSET (R144). -/
def execApset (h : Hart) (a : BitVec 5) (s : State) : Result State :=
  scalarOp h (.apset h a) s fun t => { t with apr := t.get32 a }

/-! ## Cross-lane (OP 0x2E, 0x2F) and random (OP 0x37) -/

/-- VPERM (R129). -/
def execVperm (h : Hart) (d a b : BitVec 5) (pm : BitVec 3) (s : State) : Result State :=
  vectorOp h (.vperm h d a b pm) s fun _ c => c.setV d pm ((c.vreg b).map fun i => (c.vreg a).getD (i.toNat % lanes) 0)
/-- VBCAST (R129). -/
def execVbcast (h : Hart) (d a : BitVec 5) (pm : BitVec 3) (s : State) : Result State :=
  vectorOp h (.vbcast h d a pm) s fun t c => c.setV d pm (List.replicate lanes (t.get32 a))
/-- VROT (R129). -/
def execVrot (h : Hart) (d a b : BitVec 5) (pm : BitVec 3) (s : State) : Result State :=
  vectorOp h (.vrot h d a b pm) s fun t c => c.setV d pm ((c.vreg a).rotateLeft ((t.get b).toNat % lanes))
/-- VLANE (R129). -/
def execVlane (h : Hart) (d a b : BitVec 5) (pm : BitVec 3) (s : State) : Result State :=
  vectorOp h (.vlane h d a b pm) s fun t c => c.setV d pm (List.replicate lanes ((c.vreg a).getD ((t.get b).toNat % lanes) 0))
/-- VRAND: Coin words under purpose 0x0003; with B = 31 the register after Xb is X0 (R129, R145, R146, log entry 145, DESIGN
CHOICE). -/
def execVrand (h : Hart) (d a b : BitVec 5) (pm : BitVec 3) (s : State) : Result State :=
  vectorOp h (.vrand h d a b pm) s fun t c =>
    let k1 := ((t.get (b + 1)).setWidth 48).setWidth 64 <<< 16 ||| 3
    c.setV d pm ((List.range lanes).map fun i => coinHigh (t.get b) k1 (t.get a + BitVec.ofNat 64 i))

end Sys2Proof.Machine
end

