-- ==== Sys2Proof/Machine/Reduce.lean ====
section
/-!
DEFINITION. Reductions, shadow images and vector memory (04 R124, R135 to R139, R129): one definition for each instruction.
-/
namespace Sys2Proof.Machine

/-- The anchor in force and TENSOR_ID of an anchor slot of the program (R123). -/
def State.anchorSlot (s : State) (h : Hart) (n : BitVec 3) : AnchorSlot :=
  match s.prog h with
  | some p => p.anch.getD n.toNat ⟨0, 0, 0⟩
  | none => ⟨0, 0, 0⟩

/-- LACCn. -/
def Core.acc (c : Core) (n : BitVec 3) : Shadows := c.lacc.getD n.toNat Shadows.zero
/-- Change LACCn. -/
def Core.onAcc (c : Core) (n : BitVec 3) (f : Shadows → Shadows) : Core := { c with lacc := lmod c.lacc n.toNat f }

/-- Every present shadow takes the addends; a shadow whose anchor would exceed 511 is absent (R136). -/
def Shadows.addVals (A : Int) (sh : Shadows) (vs : List Val) : Shadows :=
  sh.zipIdx.map fun p =>
    let B := A + 32 * (p.2 : Int)
    if B ≤ 511 then vs.foldl (La.addVal B) p.1 else p.1

/-- VRCLR (R135). -/
def execVrclr (h : Hart) (d : BitVec 3) (s : State) : Result State :=
  vectorOp h (.vrclr h d) s fun _ c => c.onAcc d fun _ => Shadows.zero
/-- VRSUM (R135). -/
def execVrsum (h : Hart) (d : BitVec 3) (a : BitVec 5) (pm : BitVec 3) (s : State) : Result State :=
  vectorOp h (.vrsum h d a pm) s fun _ c =>
    c.onAcc d fun sh => Shadows.addVals (s.anchorSlot h d).anchor sh ((c.active pm (c.vreg a)).map ofF32)
/-- VRDOT (R135). -/
def execVrdot (h : Hart) (d : BitVec 3) (a b : BitVec 5) (pm : BitVec 3) (s : State) : Result State :=
  vectorOp h (.vrdot h d a b pm) s fun _ c =>
    c.onAcc d fun sh => Shadows.addVals (s.anchorSlot h d).anchor sh
      ((c.active pm ((c.vreg a).zip (c.vreg b))).map fun p => (ofF32 p.1).mul (ofF32 p.2))

/-- The present shadows with their anchors. -/
def Shadows.present (A : Int) (sh : Shadows) : List (Int × La) := (passAnchors A).zip sh

/-- VRFIN: the lowest shadow without guard overflow, or the highest present one saturated; the value goes to Xd, and to
every lane of VD unless it is V0; its finite magnitude joins the amax record of the slot's tensor (R136, R137). -/
def execVrfin (h : Hart) (d : BitVec 5) (a : BitVec 3) (b : BitVec 5) (s : State) : Result State :=
  hartOp h (.vrfin h d a b) s fun _ s =>
    let slot := s.anchorSlot h a
    let (n, o) := La.choose (Shadows.present slot.anchor ((s.core h.core.toNat).acc a)) 0
    let s := s.onThread h fun u => u.set32 d o.word
    let s := if b == 0 then s
      else s.onCore h.core.toNat fun c => { c with v := lmod c.v b.toNat fun _ => List.replicate lanes o.word }
    let s := match s.prog h with
      | some p => match s.pkg p.desc.pkg with
        | some q => if o.nonfinite then s else amaxMerge q slot.tensor (finiteMax [o.word]) s
        | none => s
      | none => s
    progConds h n { o.conds with replays := if n == 0 then 0 else 1 } s

/-- A maximum or minimum over active lanes, with Xd joined in where the form merges it; a free value where nothing joins
(R139, log entry 19, DESIGN CHOICE). -/
def reduceMinMax (op : Val → Val → Val) (h : Hart) (i : Instr) (d a : BitVec 5) (pm : BitVec 3) (join : Bool) (s : State) :
    Result State :=
  hartOp h i s fun t s =>
    let c := s.core h.core.toNat
    let vs := (if join then [ofF32 (t.get32 d)] else []) ++ (c.active pm (c.vreg a)).map ofF32
    match vs with
    | [] =>
      let (v, s) := s.free
      s.onThread h fun u => u.set32 d (v.setWidth 32)
    | v :: rest => s.onThread h fun u => u.set32 d (toF32 (rest.foldl op v))

/-- VRMAX (R139). -/
def execVrmax (h : Hart) (d a : BitVec 5) (pm : BitVec 3) (merge : Bool) (s : State) : Result State :=
  reduceMinMax Val.max h (.vrmax h d a pm merge) d a pm merge s
/-- VRMIN (R139). -/
def execVrmin (h : Hart) (d a : BitVec 5) (pm : BitVec 3) (merge : Bool) (s : State) : Result State :=
  reduceMinMax Val.min h (.vrmin h d a pm merge) d a pm merge s

/-- VRARG: the lowest index in Vb among the active lanes that hold the maximum of Va; free where no lane is active or a
lane is a NaN (R139, log entry 19, DESIGN CHOICE). -/
def execVrarg (h : Hart) (d a b : BitVec 5) (pm : BitVec 3) (s : State) : Result State :=
  hartOp h (.vrarg h d a b pm) s fun _ s =>
    let c := s.core h.core.toNat
    let ps := (c.active pm ((c.vreg a).zip (c.vreg b))).map fun p => (ofF32 p.1, p.2)
    match ps with
    | [] =>
      let (v, s) := s.free
      s.onThread h fun u => u.set32 d (v.setWidth 32)
    | p :: rest =>
      if ps.any fun q => q.1.isNan then
        let (v, s) := s.free
        s.onThread h fun u => u.set32 d (v.setWidth 32)
      else
        let best := rest.foldl (fun (m : Val × Word) q =>
          if m.1.below q.1 then q
          else if !q.1.below m.1 && decide (q.2.toNat < m.2.toNat) then (m.1, q.2) else m) p
        s.onThread h fun u => u.set32 d best.2

/-! ## Shadow images (R138) -/

/-- The 64-byte header of an image (R110). -/
def imageHeader (anchor : Nat) (apass : Int) (m1 n1 form len tensor rgroup : Nat) : Bytes :=
  padTo 64 (leBytes 2 anchor ++ leBytes 2 (unsigned 10 apass) ++ leBytes 1 m1 ++ leBytes 1 n1 ++ leBytes 1 form ++ [0] ++
    leBytes 4 len ++ leBytes 4 tensor ++ leBytes 2 rgroup)

/-- The shadow image of an accumulator (R138). -/
def shadowImage (slot : AnchorSlot) (sh : Shadows) : Bytes :=
  imageHeader slot.word slot.anchor 0 0 1 192 slot.tensor 0 ++
  sh.zipIdx.flatMap fun p =>
    padTo 64 (if slot.anchor + 32 * (p.2 : Int) ≤ 511 then wordBytes p.1.encode else [])

/-- The shadows of an image that agrees with a slot; none where it fails its integrity check (R77, R138). -/
def shadowRead (slot : AnchorSlot) (bs : Bytes) : Option Shadows :=
  if fieldAt bs 6 1 == 1 && fieldAt bs 0 2 == slot.word && fieldAt bs 2 2 == unsigned 10 slot.anchor &&
      fieldAt bs 12 4 == slot.tensor then
    ((chunks 64 (bs.drop 64)).map fun l => (La.decode (bytesWords l)).map (·.1)).allSome
  else none

/-- VRPUT (R138). -/
def execVrput (h : Hart) (d : BitVec 3) (a : BitVec 5) (w : BitVec 3) (s : State) : Result State :=
  hartOp h (.vrput h d a w) s fun t s =>
    let (off, s) := unitOffset (t.get a) s
    winWrite h.core.toNat (s.win h w) off (shadowImage (s.anchorSlot h d) ((s.core h.core.toNat).acc d)) s

/-- VRGET: the image's shadows are added, one by one; an image that fails its check ends the package (R138, R152). -/
def execVrget (h : Hart) (d : BitVec 3) (a : BitVec 5) (w : BitVec 3) (s : State) : Result State :=
  hartOp h (.vrget h d a w) s fun t s =>
    let (off, s) := unitOffset (t.get a) s
    progReads h (winRanges h.core.toNat (s.win h w) off 4) s fun s =>
      match shadowRead (s.anchorSlot h d) (winRead s h.core.toNat (s.win h w) off 4) with
      | some sh => s.onCore h.core.toNat fun c => c.onAcc d fun old => List.zipWith La.merge old sh
      | none => match s.prog h with
        | some p => structFail p.desc.pkg (h.core.toNat / 16) s
        | none => s

/-! ## Vector memory (R124, R129) -/

/-- The lanes that bytes hold. -/
def lanesOf (bs : Bytes) : List Word := (chunks 4 bs).map fun c => BitVec.ofNat 32 (leNat c)
/-- The bytes of lanes. -/
def laneBytes (ws : List Word) : Bytes := ws.flatMap fun w => leBytes 4 w.toNat

/-- VLD: 256 units of 64 bytes into Vd (R129). The format says how lanes hold elements and moves the same bytes. -/
def execVld (h : Hart) (fmt : VFmt) (d a : BitVec 5) (w pm : BitVec 3) (s : State) : Result State :=
  hartOp h (.vld h fmt d a w pm) s fun t s =>
    let (off, s) := unitOffset (t.get a) s
    progReads h (winRanges h.core.toNat (s.win h w) off 256) s fun s =>
      let ws := lanesOf (winRead s h.core.toNat (s.win h w) off 256)
      s.onCore h.core.toNat fun c => c.setV d pm ws

/-- Store the active lanes of a unit, from its address (R127). -/
def storeLanes : Nat → List (Bool × Word) → State → State
  | _, [], s => s
  | a, p :: ps, s => storeLanes (a + 4) ps (if p.1 then s.write a (leBytes 4 p.2.toNat) else s)

/-- Store a unit of lanes: as one access where every lane is active. -/
def storeUnit (a : Nat) (ps : List (Bool × Word)) (s : State) : State :=
  if ps.all (·.1) then s.write a (laneBytes (ps.map (·.2))) else storeLanes a ps s

/-- VST: the active lanes of Vd are stored, unit by unit (R124, R127, R129). -/
def execVst (h : Hart) (fmt : VFmt) (d a : BitVec 5) (w pm : BitVec 3) (s : State) : Result State :=
  hartOp h (.vst h fmt d a w pm) s fun t s =>
    let (off, s) := unitOffset (t.get a) s
    let c := s.core h.core.toNat
    ((winUnits (s.win h w) off 256).zip (chunks 16 ((c.pmask pm).zip (c.vreg d)))).foldl
      (fun s p => storeUnit (coreAddr h.core.toNat p.1) p.2 s) s

/-- The address of an element of a gather or scatter: the element index modulo the window's element count; an Xa that is
not a multiple of 4 gives a free element (R124, R129, log entry 15, DESIGN CHOICE). -/
def elemAddr (core : Nat) (win : Nat × Nat) (x : DWord) (i : Word) : Nat :=
  coreAddr core (win.1 + 4 * ((x.toNat / 4 + i.toNat) % (win.2 / 4)))

/-- The element offset that a gather or scatter uses. -/
def elemOffset (x : DWord) (s : State) : DWord × State :=
  if x.toNat % 4 == 0 then (x, s) else s.free

/-- VGATHER (R129). -/
def execVgather (h : Hart) (d a b : BitVec 5) (w pm : BitVec 3) (s : State) : Result State :=
  hartOp h (.vgather h d a b w pm) s fun t s =>
    let (x, s) := elemOffset (t.get a) s
    let c := s.core h.core.toNat
    let at_ := fun (i : Word) => elemAddr h.core.toNat (s.win h w) x i
    progReads h ((c.active pm (c.vreg b)).map fun i => (at_ i, 4)) s fun s =>
      s.onCore h.core.toNat fun c => c.setV d pm ((c.vreg b).map fun i => BitVec.ofNat 32 (s.readNat (at_ i) 4))

/-- VSCATTER: where active lanes name one element, which of them it keeps is free (R129, log entry 21, DESIGN CHOICE). -/
def execVscatter (h : Hart) (d a b : BitVec 5) (w pm : BitVec 3) (s : State) : Result State :=
  hartOp h (.vscatter h d a b w pm) s fun t s =>
    let (x, s) := elemOffset (t.get a) s
    let c := s.core h.core.toNat
    let ps := (c.active pm ((c.vreg b).zip (c.vreg d))).map fun p => (elemAddr h.core.toNat (s.win h w) x p.1, p.2)
    ps.foldl (fun s p =>
      let same := (ps.filter fun q => q.1 == p.1).map (·.2)
      if decide (same.length ≤ 1) then s.write p.1 (leBytes 4 p.2.toNat)
      else
        let (v, s) := s.free
        s.write p.1 (leBytes 4 (same.getD (v.toNat % same.length) 0).toNat)) s

end Sys2Proof.Machine
end

