-- ==== Sys2Proof/Machine/Sample.lean ====
section
/-!
DEFINITION. Token sampling and scoring (04 R147 to R149), as VSAMPLE and the sampling stage of the Stream Engines apply it.
-/
namespace Sys2Proof.Machine

/-- What sampling answers: the flag of a fault (1 BAD_PARAM, 2 NONFINITE), TOKEN, KEPT and LOGP. -/
structure SampleOut where
  fault : Nat
  token : Nat
  kept  : Nat
  logp  : Word
  deriving DecidableEq, Repr

/-- A fault under R149. -/
def SampleOut.bad (f : Nat) : SampleOut := ⟨f, 0xFFFFFFFF, 0, nanF32⟩

/-- A logit that sampling takes: finite or −∞. -/
def logitOk (w : Word) : Bool := match ofF32 w with
  | .nan => false
  | .inf neg => neg
  | .fin _ _ _ => true

/-- An FP32 pattern is +∞ or a NaN. -/
def notBelowInf (w : Word) : Bool := !logitOk w

/-- The lowest index of the largest value. -/
def argMax (zs : List Word) : Nat :=
  match zs.zipIdx with
  | [] => 0
  | p :: rest => (rest.foldl (fun b q => if (ofF32 b.1).lt (ofF32 q.1) then q else b) p).2

/-- The exact terms EXP(z - m), the subtraction rounded (R148 step 4). -/
def expTerms (zs : List Word) (m : Word) : List Word := zs.map fun z => libFn .exp (f32Sub z m)

/-- A term in units of 2^-160 (R148 step 5). -/
def termUnits (e : Word) : Nat := ((ofF32 e).toUnits (-160)).toNat

/-- LOGP of a value among scaled logits with maximum `m` (R149). -/
def logpOf (zs : List Word) (m zc : Word) : Word :=
  let total := ((expTerms zs m).map termUnits).sum
  let S := (La.finish 0 { La.zero with sum := (total : Int) }).word
  f32Sub (f32Sub zc m) (libFn .log S)

/-- The kept tokens after TOPK and TOPP, with their terms in units: by z descending, ties by lower index (R148 step 6). -/
def keptOf (zs : List Word) (m : Word) (topk : Nat) (topp : Word) : List (Nat × Nat) :=
  let es := (zs.zip ((expTerms zs m).map termUnits)).zipIdx.filter fun p => decide (0 < p.1.2)
  let order := es.mergeSort fun p q => !(ofF32 p.1.1).lt (ofF32 q.1.1)
  let ps := order.map fun p => (p.2, p.1.2)
  let ps := if topk == 0 then ps else ps.take topk
  let sk := (ps.map (·.2)).sum
  match ofF32 topp with
  | .fin _ t e =>
    if topp == oneF32 then ps
    else
      -- shortest leading run with sum ≥ TOPP × S_k
      let enough := fun (n : Nat) =>
        let x := ((ps.take n).map (·.2)).sum
        if 0 ≤ e then decide (t * 2 ^ e.toNat * sk ≤ x) else decide (t * sk ≤ x * 2 ^ (-e).toNat)
      match (List.range (ps.length + 1)).find? enough with
      | some n => ps.take n
      | none => ps
  | _ => ps

/-- The first token, in ascending index, whose prefix sum × 2^32 exceeds `r` × the total (R148 step 7). -/
def drawFrom : List (Nat × Nat) → Nat → Nat → Nat → Nat
  | [], _, _, _ => 0
  | p :: rest, acc, r, total =>
    if r * total < (acc + p.2) * 2 ^ 32 then p.1 else drawFrom rest (acc + p.2) r total

/-- The draw of R148 step 7 over the kept set. -/
def drawToken (seed : DWord) (stream pos : Nat) (kept : List (Nat × Nat)) : Nat :=
  let r := (coinHigh seed (BitVec.ofNat 64 (stream * 2 ^ 16 + 1)) (BitVec.ofNat 64 pos)).toNat
  let asc := kept.mergeSort fun p q => decide (p.1 ≤ q.1)
  drawFrom asc 0 r (kept.map (·.2)).sum

/-- Sampling or scoring of logits whose parameters are in range (R148 steps 2 to 8, R149). -/
def sampleLogits (score : Bool) (seed : DWord) (stream pos : Nat) (temp topp : Word) (topk token : Nat)
    (ls : List Word) : SampleOut :=
  let allInf := fun (zs : List Word) => zs.all (· == 0xFF800000)
  if ls.any notBelowInf || allInf ls then .bad 2
  else
    let greedy := temp == 0
    let zs := if greedy then ls else ls.map fun l => f32Div l temp
    if zs.any notBelowInf || allInf zs then .bad 2
    else
      let m := zs.getD (argMax zs) 0
      if score then ⟨0, token, 0, logpOf zs m (zs.getD token 0)⟩
      else if greedy then ⟨0, argMax zs, 1, logpOf zs m m⟩
      else
        let kept := keptOf zs m topk topp
        let c := drawToken seed stream pos kept
        ⟨0, c, kept.length, logpOf zs m (zs.getD c 0)⟩

/-- TEMP is +0 or finite and positive, and TOPP and TOPK, which SCORE does not check, are in range (R147, R148 step 1). -/
def samplingOk (score : Bool) (temp topp topk : Nat) : Bool :=
  decide (temp < 0x7F800000) &&
  (score || (decide (0 < topp) && decide (topp ≤ 0x3F800000) && decide (topk ≤ 16384)))

/-- The parameters of a block are in range and its reserved bits zero (R147, R148 step 1). -/
def sampleParamsOk (b : Bytes) : Bool :=
  let u := fieldAt b
  let score := u 0x28 4 == 1
  decide (u 0x8 8 < 2 ^ 48) && decide (1 ≤ u 0x14 4) && decide (u 0x14 4 ≤ 1048576) &&
  decide (u 0x24 4 < 2 ^ 20) && decide (u 0x28 4 ≤ 1) && u 0x2C 4 == 0 &&
  samplingOk score (u 0x18 4) (u 0x1C 4) (u 0x20 4) && (!score || decide (u 0x30 4 < u 0x14 4))

/-- VSAMPLE (R147 to R149). A reserved MODE is a parameter out of range, and its fault writes what one under SAMPLE does (log
entry 146, DESIGN CHOICE). -/
def execVsample (h : Hart) (a : BitVec 5) (w : BitVec 3) (s : State) : Result State :=
  hartOp h (.vsample h a w) s fun t s =>
    let (off, s) := unitOffset (t.get a) s
    let core := h.core.toNat
    progReads h (winRanges core (s.win h w) off 1) s fun s =>
      let b := winRead s core (s.win h w) off 1
      let u := fieldAt b
      let used := match s.prog h with
        | some p => (p.wins.getD (u 0x24 4 / 2 ^ 17) (0, 0)).2 != 0
        | none => false
      let score := u 0x28 4 == 1
      let win := s.win h (BitVec.ofNat 3 (u 0x24 4 / 2 ^ 17))
      let from_ := BitVec.ofNat 64 (64 * (u 0x24 4 % 2 ^ 17))
      let units := (u 0x14 4 + 15) / 16
      let finish := fun (o : SampleOut) (s : State) =>
        let out := (if score then (b.drop 0x30).take 4 else leBytes 4 o.token) ++ leBytes 4 o.logp.toNat ++
          (if score then (b.drop 0x38).take 4 else leBytes 4 o.kept) ++ leBytes 4 o.fault
        progConds h 0 { Conds.zero with sampleFault := if o.fault == 0 then 0 else 1 }
          (winWrite core (s.win h w) off (b.take 0x30 ++ out) s)
      if !sampleParamsOk b || !used then finish (.bad 1) s
      else progReads h (winRanges core win from_ units) s fun s =>
        let ls := (lanesOf (winRead s core win from_ units)).take (u 0x14 4)
        finish (sampleLogits score (BitVec.ofNat 64 (u 0 8)) (u 8 8) (u 0x10 4) (BitVec.ofNat 32 (u 0x18 4))
          (BitVec.ofNat 32 (u 0x1C 4)) (u 0x20 4) (u 0x30 4) ls) s

end Sys2Proof.Machine
end

