-- ==== Sys2Proof/Machine/Tile.lean ====
section
/-!
DEFINITION. Tile operations on the arrays of a Matrix Core (03): operands, accumulation, partial-sum images, the epilogue,
anchor replay, and the reruns of replay groups.
-/
namespace Sys2Proof.Machine

/-! ## Fields (R100 to R105) -/

/-- M, N and K of a tile descriptor (R101). -/
def Desc.tileM (d : Desc) : Nat := bitField (d.u 0x10 4) 0 7 + 1
/-- N. -/
def Desc.tileN (d : Desc) : Nat := bitField (d.u 0x10 4) 8 7 + 1
/-- K. -/
def Desc.tileK (d : Desc) : Nat := bitField (d.u 0x14 4) 0 17
/-- The anchor word (R60). -/
def Desc.anchorWord (d : Desc) : Nat := d.u 0x30 2
/-- PIN_COUNT (R103). -/
def Desc.pinCount (d : Desc) : Nat := bitField (d.u 0x32 2) 2 4
/-- TENSOR_ID. -/
def Desc.tensorId (d : Desc) : Nat := d.u 0x34 4
/-- OFMT (R104). -/
def Desc.ofmt (d : Desc) : Nat := bitField (d.u 0x40 4) 0 4
/-- RGROUP of a tile descriptor (R100). -/
def Desc.rgroup (d : Desc) : Nat := bitField (d.u 0x78 8) 52 12
/-- PIN_ADDR. -/
def Desc.pinAddr (d : Desc) : Nat := bitField (d.u 0x78 8) 0 52

/-- An operand of a tile: element plane, format, layout and scales (R102). -/
structure Opnd where
  off    : Nat
  fmt    : Fmt
  trans  : Bool
  tscale : Nat
  stride : Nat
  soff   : Nat
  sstride : Nat
  deriving DecidableEq, Repr

/-- Operand A (`b` false) or B of a descriptor. -/
def Desc.opnd (d : Desc) (b : Bool) : Opnd :=
  let o := if b then 0x24 else 0x18
  let ctl := d.u (o + 4) 4
  let scl := d.u (o + 8) 4
  { off := 64 * bitField (d.u o 4) 0 17, fmt := (Fmt.ofCode (bitField ctl 0 4)).getD .bf16, trans := bitField ctl 4 1 == 1,
    tscale := bitField ctl 8 8, stride := 64 * bitField ctl 16 16, soff := 64 * bitField scl 0 17,
    sstride := 64 * bitField scl 17 15 }

/-! ## Operands (R91, R95, R96) -/

/-- `w` bits at a bit offset from an address. -/
def State.bitsAt (s : State) (a bit w : Nat) : Nat := bitField (s.readNat (a + bit / 8) ((bit % 8 + w + 7) / 8)) (bit % 8) w

/-- Element (r, k) of an operand: r is the tile row of A or the tile column of B. A block of scale 0xFF reads NaN. -/
def Opnd.elem (x : Opnd) (s : State) (core r k : Nat) : Val :=
  let (row, col) := if x.trans then (k, r) else (r, k)
  let w := x.fmt.width
  let v := x.fmt.layout.decode (s.bitsAt (coreAddr core (x.off + row * x.stride)) (col * w) w)
  if x.fmt.isMx then
    let sc := (s.byteAt (coreAddr core (x.soff + (if x.trans then k / 32 * x.sstride + r else r * x.sstride + k / 32)))).toNat
    v.inBlock sc
  else v.scale ((x.tscale : Int) - 127)

/-- The values of an operand: by row of the tile side, along k. -/
def Opnd.values (x : Opnd) (s : State) (core n k : Nat) : List (List Val) :=
  (List.range n).map fun r => (List.range k).map fun j => x.elem s core r j

/-- The ranges of core SRAM that hold an operand: its stored rows and, for an MX format, its scales. -/
def Opnd.spans (x : Opnd) (core n k : Nat) : List (Nat × Nat) :=
  let (rows, cols) := if x.trans then (k, n) else (n, k)
  let els := (List.range rows).map fun r => (coreAddr core (x.off + r * x.stride), (cols * x.fmt.width + 7) / 8)
  let scs := if x.trans then (List.range ((k + 31) / 32)).map fun r => (coreAddr core (x.soff + r * x.sstride), n)
    else (List.range n).map fun r => (coreAddr core (x.soff + r * x.sstride), (k + 31) / 32)
  if x.fmt.isMx then els ++ scs else els

/-- The ranges of both operands of a descriptor. -/
def Desc.operandSpans (d : Desc) (core : Nat) : List (Nat × Nat) :=
  (d.opnd false).spans core d.tileM d.tileK ++ (d.opnd true).spans core d.tileN d.tileK

/-- A product that gating skips: both operands finite and one of them zero (R93). -/
def gatedProduct (a b : Val) : Bool := a.isFin && b.isFin && (a.isZero || b.isZero)

/-- One pass of a descriptor's products into the accumulators, in row order (R61, R63, R87). -/
def accumulate (A : Int) (as bs : List (List Val)) (acc : List La) : List La :=
  List.zipWith (fun (x : La) (p : List Val × List Val) => (p.1.zip p.2).foldl (fun x q => x.addVal A (q.1.mul q.2)) x)
    acc (as.flatMap fun a => bs.map fun b => (a, b))

/-- The gated products of a pass. -/
def gatedCount (as bs : List (List Val)) : Nat :=
  (as.flatMap fun a => bs.map fun b => ((a.zip b).filter fun q => gatedProduct q.1 q.2).length).sum

/-! ## Runs -/

/-- The anchor of a pass: 32 higher at each (R65). -/
def passAnchor (base : Int) (pass : Nat) : Int := base + 32 * pass

/-- The run of a tile descriptor on its core. -/
def State.tileRun (s : State) (core : Nat) (first : DescId) : Option TileRun :=
  (s.core core).tiles.find? fun t => t.first == first
/-- Change a run. -/
def onRun (core : Nat) (first : DescId) (f : TileRun → TileRun) (s : State) : State :=
  s.onCore core fun c => { c with tiles := c.tiles.map fun t => if t.first == first then f t else t }

/-- A run of a tile or chain that starts (R112, R116). -/
def TileRun.start (first : DescId) (base : Int) (n : Nat) (acc1 : List Bool) : TileRun :=
  ⟨first, [], base, 0, List.replicate n La.zero, List.replicate n none, false, .none, acc1⟩

/-- The run holds its arrays' accumulators: it has not released them to wait for producers, and has not yet to take them again
for a later pass (R87, R119). -/
def TileRun.holds (t : TileRun) : Bool := !t.awaiting && (t.pass == 0 || !t.descs.isEmpty)

/-- The runs of a core, other than one, that hold an accumulator of an array. -/
def State.holders (s : State) (core : Nat) (self : DescId) (array : Nat) : List TileRun :=
  (s.core core).tiles.filter fun t => t.first != self && t.holds && match s.desc t.first with
    | some (_, d) => d.arrays.testBit array
    | none => false

/-- A run has accumulated its pass, and drains (R87). -/
def State.drains (s : State) (t : TileRun) : Bool := match s.desc t.first with
  | some (p, _) => t.descs.length == (p.chain t.first.idx.toNat).length
  | none => true

/-- The arrays of a mask take an operation: on each, at most one other holds an accumulator, and that one drains (R86, R87). -/
def State.arraysOpen (s : State) (core : Nat) (self : DescId) (mask : Nat) : Bool :=
  (List.range 4).all fun i => !mask.testBit i ||
    (decide ((s.holders core self i).length ≤ 1) && (s.holders core self i).all s.drains)

/-- The accumulators that an operation takes: ACC0 and ACC1 alternately, and never one that another run holds (R87). -/
def State.pickAcc (s : State) (core : Nat) (self : DescId) : List Bool :=
  (List.range 4).map fun i => match (s.holders core self i).head? with
    | some t => !t.acc1.getD i false
    | none => (s.core core).accNext.getD i false

/-- Arrays take the accumulators that an operation has been given. -/
def takeAcc (core mask : Nat) (acc1 : List Bool) (s : State) : State :=
  let next (c : Core) : List Bool := (List.range 4).map fun i =>
    bif mask.testBit i then !acc1.getD i false else c.accNext.getD i false
  s.onCore core fun c => { c with accNext := next c }

/-- The anchor that a package's anchor word gives (R70, R71). -/
def Pkg.anchor (p : Pkg) (s : State) (word tid : Nat) : Int := anchorOf word (amaxPrev s p tid)

/-- A pass of a descriptor's products is counted, and its cycles, which are free (R93, R94, R554, R555; log entry 8, DESIGN CHOICE). -/
def countProducts (acct core : Nat) (x : Desc) (as bs : List (List Val)) (s : State) : State :=
  let die := core / 16
  let s := s.free.2.bump 0x000 die (some acct) (some (core % 16)) s.free.1.toNat
  let s := s.bump 0x001 die (some acct) (some (core % 16)) (16384 * x.tileK)
  s.bump 0x002 die (some acct) (some (core % 16)) (gatedCount as bs + (16384 - x.tileM * x.tileN) * x.tileK)

/-- An operation leaves the arrays without a result (R120). -/
def dropRun (core : Nat) (first : DescId) (s : State) : State :=
  s.onCore core fun c => { c with tiles := c.tiles.filter fun t => t.first != first }

/-! ## Partial-sum images (R110, R111) -/

/-- The bytes of a partial-sum image, padded to 64. -/
def tileImage (d : Desc) (A : Int) (acc : List La) : Bytes :=
  let body := wordBytes (acc.flatMap La.encode)
  imageHeader d.anchorWord A (d.tileM - 1) (d.tileN - 1) 0 body.length d.tensorId d.rgroup ++
  body ++ List.replicate ((64 - body.length % 64) % 64) 0

/-- How many elements of an encoding are LONG (R78). -/
def longCount (acc : List La) : Nat := (acc.filter fun a => decide (1 < (La.encode a).length)).length

/-- An image at an address: its APASS, elements and the bytes to the next one; none where it fails its check (R77, R111). An image
whose APASS has reserved bits, or whose LENGTH does not end with its last element, fails too (log entry 147, DESIGN CHOICE). -/
def imageAt (s : State) (epoch a word m n tensor : Nat) : Option (Int × List La × Nat) :=
  let h := s.readFor epoch a 64
  let u := fieldAt h
  if u 0 2 == word && u 4 1 + 1 == m && u 5 1 + 1 == n && u 12 4 == tensor && u 6 1 == 0 && decide (u 2 2 < 1024) &&
      decide (u 8 4 ≤ 32 * m * n) then
    match La.decodeMany (m * n) (bytesWords (s.readFor epoch (a + 64) (u 8 4))) with
    | some (as, []) => some (signed 10 (u 2 2), as, 64 + (u 8 4 + 63) / 64 * 64)
    | _ => none
  else none

/-- The ranges of `k` images in succession, each as long as its header says. -/
def imageSpans (s : State) (epoch : Nat) : Nat → Nat → List (Nat × Nat)
  | 0, _ => []
  | k + 1, a =>
    let n := 64 + (fieldAt (s.readFor epoch a 64) 8 4 + 63) / 64 * 64
    s.spotsFor epoch a n ++ imageSpans s epoch k (a + n)

/-- Add `k` images in succession: those of the replay group must lie at the pass anchor, those of an IN region enter as one
addend each (R111). -/
def addImages (s : State) (epoch : Nat) (grouped : Bool) (A : Int) (word m n tensor : Nat) :
    Nat → Nat → List La → Option (List La)
  | 0, _, acc => some acc
  | k + 1, a, acc =>
    match imageAt s epoch a word m n tensor with
    | none => none
    | some (ap, as, len) =>
      if grouped && ap != A then none
      else addImages s epoch grouped A word m n tensor k (a + len)
        (List.zipWith (fun x y => x.merge (if grouped then y else La.reanchor ap A y)) acc as)

/-- The images that start at an address belong to the consumer's replay group: they lie outside IN regions, or a consumer
link of the package names the group (R111, R185). -/
def Pkg.grouped (p : Pkg) (rgroup a : Nat) : Bool :=
  rgroup != 0 && (!(p.inRoles [1] a 64) || p.links.any fun l => l.consumer && l.rgroup == rgroup)

/-! ## The epilogue (R112 to R114) -/

/-- Write `w`-bit codes from a bit offset 0 of an address; bits of the last byte beyond them stay as they are. -/
def writeCodes (acct a w : Nat) (codes : List Nat) (s : State) : State :=
  let bits := w * codes.length
  let n := (bits + 7) / 8
  let old := s.readNat a n / 2 ^ bits
  let host := match locOf a with
    | some (.host _ _) => n
    | _ => 0
  (s.meter acct 8 host 0).write a (leBytes n (packBits w codes + old * 2 ^ bits))

/-- Where a matrix is stored: address, row stride, scale plane and stride, format, conversion control, blocking along M. -/
structure OutPlane where
  addr : Nat
  stride : Nat
  saddr : Nat
  sstride : Nat
  fmt  : Fmt
  cvt  : Nat
  alongM : Bool
  deriving DecidableEq, Repr

/-- Store M × N FP32 values in a plane: the state, MX blocks written with scale 0xFF, and conversions that saturated or
overflowed (R49 to R57, R104). -/
def OutPlane.store (o : OutPlane) (acct m n : Nat) (vals : List Word) (s : State) : State × Nat × Nat :=
  let rows := chunks n vals
  let putRows := fun (codes : List (List Nat)) (s : State) =>
    codes.zipIdx.foldl (fun s r => writeCodes acct (o.addr + r.2 * o.stride) o.fmt.width r.1 s) s
  if o.fmt.isMx then
    let at_ := fun (r c : Nat) => ofF32 ((rows.getD r []).getD c 0)
    -- blocks as (scale address, values)
    let blocks := if o.alongM then
        (List.range (m / 32)).flatMap fun b => (List.range n).map fun c =>
          (o.saddr + b * o.sstride + c, (List.range 32).map fun i => at_ (32 * b + i) c)
      else
        (List.range m).flatMap fun r => (List.range (n / 32)).map fun b =>
          (o.saddr + r * o.sstride + b, (List.range 32).map fun i => at_ r (32 * b + i))
    let packed := blocks.map fun b => (b.1, b.2, mxPack o.fmt b.2)
    let code := fun (r c : Nat) =>
      if o.alongM then ((packed.getD (r / 32 * n + c) (0, [], ⟨0, []⟩)).2.2.elems).getD (r % 32) 0
      else ((packed.getD (r * (n / 32) + c / 32) (0, [], ⟨0, []⟩)).2.2.elems).getD (c % 32) 0
    let s := putRows ((List.range m).map fun r => (List.range n).map fun c => code r c) s
    let s := packed.foldl (fun s b => s.write b.1 [BitVec.ofNat 8 b.2.2.scale]) s
    let sats := packed.map fun b =>
      if b.2.2.scale == 0xFF then 0
      else (b.2.1.filter fun v => (convert o.fmt .rne true (v.scale (127 - (b.2.2.scale : Int)))).ovf).length
    (s, (packed.filter fun b => b.2.2.scale == 0xFF).length, sats.sum)
  else
    let (rnd, sat) := (cvtOf o.cvt).getD (.rne, false)
    let cs := rows.map fun r => r.map fun w => convert o.fmt rnd sat (ofF32 w)
    (putRows (cs.map fun r => r.map (·.code)) s, 0, (cs.flatten.filter (·.ovf)).length)

/-- The output plane of a descriptor (R104). -/
def Desc.outPlane (d : Desc) : OutPlane :=
  ⟨bitField (d.u 0x38 8) 0 52, 64 * bitField (d.u 0x40 4) 16 16, bitField (d.u 0x48 8) 0 52, 64 * bitField (d.u 0x48 8) 52 12,
    (Fmt.ofCode d.ofmt).getD .fp32, bitField (d.u 0x40 4) 4 4, bitField (d.u 0x40 4) 8 1 == 1⟩
/-- The auxiliary plane of a descriptor (R105). -/
def Desc.auxPlane (d : Desc) : OutPlane :=
  ⟨bitField (d.u 0x60 8) 0 52, 64 * bitField (d.u 0x70 4) 16 16, bitField (d.u 0x68 8) 0 52, 64 * bitField (d.u 0x60 8) 52 12,
    (Fmt.ofCode (bitField (d.u 0x70 4) 4 4)).getD .fp32, bitField (d.u 0x70 4) 8 4, bitField (d.u 0x70 4) 2 1 == 1⟩
/-- AUXMODE. -/
def Desc.auxMode (d : Desc) : Nat := bitField (d.u 0x70 4) 0 2

/-- The ranges that a plane of M × N elements takes: its rows, and its scales for an MX format. -/
def OutPlane.spans (o : OutPlane) (m n : Nat) : List (Nat × Nat) :=
  let rows := (List.range m).map fun r => (o.addr + r * o.stride, (n * o.fmt.width + 7) / 8)
  let scs := if o.alongM then (List.range (m / 32)).map fun r => (o.saddr + r * o.sstride, n)
    else (List.range m).map fun r => (o.saddr + r * o.sstride, n / 32)
  if o.fmt.isMx then rows ++ scs else rows

/-- Where the end of a tile's operation writes: from the start of its image, or its output and its auxiliary output (R104, R105,
R110). -/
def Desc.writeSpans (d : Desc) : List (Nat × Nat) :=
  if d.ofmt == 0xA then [(bitField (d.u 0x38 8) 0 52, 64)]
  else d.outPlane.spans d.tileM d.tileN ++ (if d.auxMode == 0 then [] else d.auxPlane.spans d.tileM d.tileN)

/-- The bias and residual ranges that the end of a pass reads. -/
def Desc.addendSpans (d : Desc) (s : State) (epoch : Nat) : List (Nat × Nat) :=
  let w := d.u 0x50 8
  let epi := d.u 0x44 4
  (if bitField epi 0 1 == 1 then s.spotsFor epoch (bitField w 0 52) ((if bitField w 52 1 == 1 then 2 else 4) * d.tileN) else []) ++
  (if bitField epi 1 1 == 1 then (List.range d.tileM).flatMap fun r =>
      s.spotsFor epoch (bitField (d.u 0x58 8) 0 52 + r * d.outPlane.stride) (4 * d.tileN) else [])

/-- A residual or bias row of FP32 words. -/
def fp32Row (s : State) (epoch a n : Nat) : List Word := lanesOf (s.readFor epoch a (4 * n))

/-- The bias row of a descriptor (R100). -/
def biasRow (s : State) (epoch : Nat) (d : Desc) : List Val :=
  let w := d.u 0x50 8
  let b := bitField w 0 52
  if bitField w 52 1 == 1 then
    (List.range d.tileN).map fun j => ofBf16 (BitVec.ofNat 16 (leNat (s.readFor epoch (b + 2 * j) 2)))
  else (fp32Row s epoch b d.tileN).map ofF32

/-- The epilogue of final outputs (R112 steps 4 to 8, R114): the state and the conditions met. -/
def epilogue (p : Pkg) (d : Desc) (outs : List LaOut) (s : State) : State × Conds :=
  let acct := p.id.acct.toNat
  let (m, n) := (d.tileM, d.tileN)
  let ps := outs.map (·.word)
  let s := amaxMerge p d.tensorId (finiteMax ((outs.filter fun o => !o.nonfinite).map (·.word))) s
  let epi := d.u 0x44 4
  let (s, n1, c1) := if d.auxMode == 2 then d.auxPlane.store acct m n ps s else (s, 0, 0)
  let act := (Act.ofCode (bitField epi 2 4)).getD .none
  let as := ps.map (actFn act (BitVec.ofNat 32 (d.u 0x74 4)))
  let as := if bitField epi 1 1 == 1 then
      let rows := (List.range m).map fun r =>
        fp32Row s p.epoch.toNat (bitField (d.u 0x58 8) 0 52 + r * d.outPlane.stride) n
      List.zipWith f32Add as rows.flatten
    else as
  let (s, n2, c2) := d.outPlane.store acct m n as s
  let (s, n3, c3) := if d.auxMode == 1 then d.auxPlane.store acct m n as s else (s, 0, 0)
  let conds := outs.foldl (fun c o => c.add o.conds) Conds.zero
  (s, { conds with mxNan := n1 + n2 + n3, cvtSat := c1 + c2 + c3 })

/-! ## Replay groups (R117, R185) -/

/-- The images of a descriptor join its products at the anchor, those of an image producer too (R110, R111, log entry 148, DESIGN
CHOICE). None where an image fails its check. -/
def withImages (s : State) (p : Pkg) (last : Desc) (A : Int) (acc : List La) : Option (List La) :=
  addImages s p.epoch.toNat (p.grouped last.rgroup last.pinAddr) A last.anchorWord last.tileM last.tileN last.tensorId
    last.pinCount last.pinAddr acc

/-- What an image producer reads as it runs again: the operands of its chain, and its images. -/
def Pkg.rerunReads (p : Pkg) (i : Nat) (last : Desc) (s : State) : List (Nat × Nat) :=
  ((p.chain i).filterMap fun j => p.descs[j]?).flatMap (fun x => x.operandSpans (p.core x)) ++
    imageSpans s p.epoch.toNat last.pinCount last.pinAddr

/-- The products of an image producer's chain at an anchor, counted again (R94). -/
def Pkg.rerunProducts (p : Pkg) (i : Nat) (last : Desc) (A : Int) (s : State) : List La × State :=
  (p.chain i).foldl (fun r j => match p.descs[j]? with
    | some x =>
      let core := p.core x
      let as := (x.opnd false).values r.2 core x.tileM x.tileK
      let bs := (x.opnd true).values r.2 core x.tileN x.tileK
      (accumulate A as bs r.1, countProducts p.id.acct.toNat core x as bs r.2)
    | none => r) (List.replicate (last.tileM * last.tileN) La.zero, s)

/-- Run an image producer again, a whole pass at an anchor, and write its image (R94, R117, R554): whether it was done. What its reads
meet is dealt with as in its first pass (R120). The ALAST of its record stays that of its first pass (log entry 149, DESIGN CHOICE). -/
def rerunTile (p : Pkg) (i : Nat) (A : Int) (s : State) : State × Bool :=
  match p.descs[i]? with
  | none => (s, true)
  | some last =>
    let reads := p.rerunReads i last s
    let out := bitField (last.u 0x38 8) 0 52
    if s.meets reads != .clear then (pkgReads p.id .compute reads s fun s => s, false)
    else
      let (acct, core) := (p.id.acct.toNat, p.core last)
      let (acc, s) := p.rerunProducts i last A (s.charge .compute acct reads)
      match withImages s p last A acc with
      | none => (structFail p.id (core / 16) s, false)
      | some acc =>
        let (img, longs) := (tileImage last A acc, longCount acc)
        if !s.writes out img.length then (pkgWrites p.id .compute [(out, img.length)] s fun s => s, false)
        else if (s.chip.noc.crossAll (dataMsgs (core / 16) [(out, img.length)])).isNone then (s, false)
        else
          let s := ((s.num acct 0 1).bump 0x003 (core / 16) (some acct) (some (core % 16)) 1).num acct 7 longs
          let s := s.bump 0x504 (core / 16) (some acct) (some (core % 16)) longs
          ((s.charge .compute acct [(out, img.length)]).write out img, true)

/-- A descriptor produces images for a replay group: a tile with OFMT 0xA, or a COLLECT with image output. -/
def Desc.produces (d : Desc) (rgroup : Nat) : Bool :=
  (d.kind == 1 && d.ofmt == 0xA && d.rgroup == rgroup && (d.pos == 0 || d.pos == 3)) ||
  (d.kind == 5 && bitField (d.u 0x12 1) 2 2 == 2 && d.u 0x36 2 == rgroup)

/-- What a rerun of producers has come to: the state, whether some round must complete first, and whether every tile producer has
run. -/
structure Rerun where
  state : State
  wait  : Bool
  ok    : Bool
  deriving DecidableEq, Repr

/-- Run the tile producers of a group of one package again, and set its image rounds to run again at the pass (R117, R419). -/
def rerunGroup (p : Pkg) (rgroup pass : Nat) (A : Int) (r : Rerun) : Rerun :=
  (p.descs.zipIdx.filter fun d => d.1.produces rgroup).foldl (fun r d =>
    if !r.ok then r
    else if d.1.kind == 1 then
      let x := rerunTile p d.2 A r.state
      { r with state := x.1, ok := x.2 }
    else
      let again := fun (q : Round) =>
        if q.desc.pkg == p.id && q.desc.idx.toNat == d.2 then { q with pass := pass, result := none } else q
      { r with state := r.state.onFabric fun f => { f with rounds := f.rounds.map again }, wait := true }) r

/-- A package belongs to an earlier use of an RKEY: it was accepted before the consumer of that use ended (R185). -/
def Pkg.usedBefore (q : Pkg) (s : State) (rkey : Word) : Bool :=
  s.pkgs.any fun c => c.id.acct == q.id.acct && !c.resident && decide (q.order < c.endMark) &&
    c.links.any fun l => l.consumer && l.rkey == rkey

/-- The packages of an account that hold a producer link with an RKEY. -/
def linkedProducers (s : State) (acct : BitVec 10) (rkey : Word) : List (Pkg × Nat) :=
  (s.pkgs.filter fun q => q.id.acct == acct && q.resident && !q.usedBefore s rkey).flatMap fun q =>
    (q.links.filter fun l => !l.consumer && l.rkey == rkey).map fun l => (q, l.rgroup)

/-- A producer under an RKEY of an account is gone: it has ended before its consumer's final write (R179, R185). -/
def producerGone (s : State) (acct : BitVec 10) (rkey : Word) : Bool :=
  s.pkgs.any fun q => q.id.acct == acct && !q.resident && !q.usedBefore s rkey && q.links.any fun l => !l.consumer && l.rkey == rkey

/-- The producers of a package's share of a group have all run (R185). -/
def Pkg.produced (q : Pkg) (rgroup : Nat) : Bool := q.descs.all fun d => !d.produces rgroup || d.state == .done

/-- The rerun requests for RKEYs to the other joined parts of an account's jobs (R185, R424): job slot, part and RKEY. -/
def rerunRequests (s : State) (acct : Nat) (keys : List Word) : List (JobSlot × Nat × Word) :=
  keys.flatMap fun k => ((s.chip.fabric.slots.filter fun x => x.1 / 16 == acct).map (·.2)).flatMap fun j =>
    (j.joined.filter fun n => n != j.part).map fun n => (j, n, k)

/-- The RKEYs under which a package's share of a group consumes (R185). -/
def Pkg.consumed (p : Pkg) (rgroup : Nat) : List Word := (p.links.filter fun l => l.consumer && l.rgroup == rgroup).map (·.rkey)

/-- Every producer of a consumer's replay group runs again at the next anchor: those of its package, those of linked packages once
they have all run, and by message those on the other joined parts of the account's jobs (R117, R185, R424). What has been asked is
answered before the consumer goes on. None where a linked producer is gone, or none is anywhere for an RKEY (R185). -/
def rerunProducers (p : Pkg) (rgroup pass : Nat) (A : Int) (s : State) : Option (Rerun × Asked) :=
  if rgroup == 0 then some (⟨s, false, true⟩, .none)
  else
    let keys := p.consumed rgroup
    let linked := keys.flatMap fun k => linkedProducers s p.id.acct k
    let reqs := rerunRequests s p.id.acct.toNat keys
    let here := keys.filter fun k => !(linkedProducers s p.id.acct k).isEmpty
    if keys.any fun k => producerGone s p.id.acct k || (!here.contains k && reqs.isEmpty) then none
    else if linked.any fun q => !q.1.produced q.2 then some (⟨s, true, false⟩, .none)
    else
      let r := linked.foldl (fun r q => rerunGroup q.1 q.2 pass A r) (rerunGroup p rgroup pass A ⟨s, false, true⟩)
      if !r.ok then some (r, .none)
      else
        let send := fun (s : State) (q : JobSlot × Nat × Word) =>
          sendTo none (q.1.table.getD q.2.1 0) q.1.job 1 (leBytes 4 q.2.2.toNat ++ leBytes 1 pass) s
        some ({ r with state := reqs.foldl send r.state }, ⟨reqs.map fun q => (q.1.job, q.2.1, q.2.2), here⟩)

/-- A round of this package's share of a group has still to complete (R117, R419). -/
def sharePending (s : State) (q : Pkg) (rgroup : Nat) : Bool :=
  s.chip.fabric.rounds.any fun r => r.result.isNone && r.desc.pkg == q.id && match q.descs[r.desc.idx.toNat]? with
    | some z => z.kind == 5 && z.produces rgroup
    | none => false

/-- A consumer's next pass has still to wait for the reruns of its replay group: for rounds of this part, or for answers of other
parts (R117, R119, R185, R419). -/
def rerunsPending (s : State) (p : Pkg) (rgroup : Nat) (asked : Asked) : Bool :=
  rgroup != 0 && (!asked.open_.isEmpty || sharePending s p rgroup ||
    (p.consumed rgroup).any fun k => (linkedProducers s p.id.acct k).any fun q => sharePending s q.1 q.2)

/-- The answers are in, and no part holds a producer under some RKEY: the consumer needs one that has gone (R185). -/
def producersLost (p : Pkg) (rgroup : Nat) (asked : Asked) : Bool :=
  asked.open_.isEmpty && (p.consumed rgroup).any fun k => !asked.found.contains k

/-! ## The passes of an operation (R86, R112, R116, R119, R120) -/

/-- TILE: the next descriptor of the operation accumulates in the current pass. A later pass waits for the reruns of its group, and
takes the arrays first (R86, R112, R116, R117, R119, R120, R185). (Log entry 130, DESIGN CHOICE.) -/
def execTile (d : DescId) (s : State) : Result State :=
  match s.desc d with
  | none => .next s
  | some (p, x) =>
    let chain := p.chain d.idx.toNat
    let first : DescId := ⟨d.pkg, BitVec.ofNat 14 (chain.headD 0)⟩
    let core := p.core x
    match s.tileRun core first, p.descs[chain.getLastD 0]? with
    | some t, some last =>
      if x.kind != 1 || x.state != .started || chain[t.descs.length]? != some d.idx.toNat ||
          (t.awaiting && rerunsPending s p last.rgroup t.asked) then .next s
      else if t.awaiting && producersLost p last.rgroup t.asked then .next (stopWith d.pkg (dropRun core first) s)
      else if !(t.holds || s.arraysOpen core first x.arrays) then .next s
      else
        let acc1 := if t.holds then t.acc1 else s.pickAcc core first
        .next (workReads d.pkg .compute (dropRun core first) (x.operandSpans core) s fun s =>
          let as := (x.opnd false).values s core x.tileM x.tileK
          let bs := (x.opnd true).values s core x.tileN x.tileK
          let s := countProducts d.pkg.acct.toNat core x as bs s
          let s := if t.holds then s else takeAcc core x.arrays acc1 s
          onRun core first (fun t =>
            { t with descs := t.descs ++ [d.idx.toNat], awaiting := false, acc1 := acc1,
                     acc := accumulate (passAnchor t.base t.pass) as bs t.acc }) s)
    | _, _ => .next s

/-! ## The end of a pass (R111, R112, R116, R118) -/

/-- An operation ends: its run leaves the arrays, its descriptors carry their results, and linked producers are released
(R107, R116, R118, R185). -/
def finishTile (p : Pkg) (core : Nat) (first : DescId) (chain : List Nat) (rgroup result : Nat) (s : State) : State :=
  let acct := p.id.acct.toNat
  let s := meterCycles acct 0 (core / 16) s
  let s := dropRun core first s
  let last := chain.getLastD 0
  let s := chain.foldl (fun s i => s.onDesc ⟨p.id, BitVec.ofNat 14 i⟩ fun x =>
    { x with progress := 1, result := if i == last then BitVec.ofNat 32 result else 0 }) s
  let s := releaseLinks p.id (p.consumed rgroup) s
  if p.state == .stopping then
    chain.foldl (fun s i => completeDesc ⟨p.id, BitVec.ofNat 14 i⟩ (if i == last then BitVec.ofNat 32 result else 0) s) s
  else s

/-- The bits of a tile result word above its conditions (R118). -/
def tileResult (pass : Nat) (A : Int) (c : Conds) : Nat := pass + c.bits + unsigned 10 A * 2 ^ 16

/-- What an element's result is once it is fixed: an earlier pass's, or this one's where it did not overflow (R66). -/
def fixElement (A : Int) (f : Option (Word × Bool × Bool)) (a : La) : Option (Word × Bool × Bool) :=
  match f with
  | some r => some r
  | none => if a.overflows then none
    else
      let o := a.finish A
      some (o.word, o.fp32Sat, o.nonfinite)

/-- The outputs of the last pass: an element that overflowed at every pass saturates (R66, R67). -/
def lastOutputs (A : Int) (fixed : List (Option (Word × Bool × Bool))) (acc : List La) : List LaOut :=
  List.zipWith (fun (f : Option (Word × Bool × Bool)) (a : La) => match f with
    | some r => ⟨r.1, r.2.1, r.2.2, false⟩
    | none => a.saturate A) fixed acc

/-- The end of a pass whose addends are in: an image, a further pass, or the output (R110, R112, R116). -/
def passEnd (p : Pkg) (first : DescId) (core : Nat) (chain : List Nat) (t : TileRun) (last : Desc) (acc : List La) (s : State) :
    State :=
  let acct := p.id.acct.toNat
  let die := core / 16
  let A := passAnchor t.base t.pass
  if last.ofmt == 0xA then
    let img := tileImage last A acc
    let out := bitField (last.u 0x38 8) 0 52
    let longs := longCount acc
    s.carry (dataMsgs die [(out, img.length)]) fun s =>
      workWrites p.id .compute (dropRun core first) [(out, img.length)] s fun s =>
        let s := (s.num acct 7 longs).bump 0x504 die (some acct) (some (core % 16)) longs
        finishTile p core first chain 0 (unsigned 10 A * 2 ^ 16) (s.write out img)
  else
    let fixed := List.zipWith (fixElement A) t.fixed acc
    let next := passAnchor t.base (t.pass + 1)
    if fixed.any (fun f => f.isNone) && decide (t.pass < 2) && decide (next ≤ 511) then
      match rerunProducers p last.rgroup (t.pass + 1) next s with
      | none => stopWith p.id (dropRun core first) s
      | some (r, asked) =>
        if !r.ok then r.state
        else
          let s := (r.state.num acct 0 1).bump 0x003 die (some acct) (some (core % 16)) 1
          onRun core first (fun t =>
            { t with pass := t.pass + 1, descs := [], acc := List.replicate acc.length La.zero, fixed := fixed,
                     awaiting := r.wait || !asked.open_.isEmpty, asked := asked }) s
    else
      workWrites p.id .compute (dropRun core first) last.writeSpans s fun s =>
        let (s, conds) := epilogue p last (lastOutputs A fixed acc) s
        let s := countConds acct die (some (core % 16)) conds s
        finishTile p core first chain last.rgroup (tileResult t.pass A conds) s

/-- TILE_PASS_END: bias and images are added, and the tile replays at the next anchor or writes its output (R111, R112, R116,
R120). The first pass of a producer adds its own images as a rerun does (log entry 148, DESIGN CHOICE). -/
def execTilePassEnd (d : DescId) (s : State) : Result State :=
  match s.desc d with
  | none => .next s
  | some (p, x) =>
    let chain := p.chain d.idx.toNat
    let first : DescId := ⟨d.pkg, BitVec.ofNat 14 (chain.headD 0)⟩
    let core := p.core x
    match s.tileRun core first, p.descs[chain.getLastD 0]? with
    | some t, some last =>
      if t.descs != chain || t.awaiting || last.writeSpans.any fun r => s.hostWaits r.1 then .next s
      else
        let A := passAnchor t.base t.pass
        let epoch := p.epoch.toNat
        .next (workReads d.pkg .compute (dropRun core first)
            (last.addendSpans s epoch ++ imageSpans s epoch last.pinCount last.pinAddr) s fun s =>
          let bias := if bitField (last.u 0x44 4) 0 1 == 1 then biasRow s epoch last else []
          let acc := if bias.isEmpty then t.acc
            else t.acc.zipIdx.map fun q => q.1.addVal A (bias.getD (q.2 % last.tileN) .nan)
          match withImages s p last A acc with
          | none => structFail d.pkg (core / 16) (dropRun core first s)
          | some acc => passEnd p first core chain t last acc s)
    | _, _ => .next s

end Sys2Proof.Machine
end

