-- ==== Sys2Proof/Machine/Clearing.lean ====
section
/-!
DEFINITION. COLLECT descriptors and the rounds of the Clearing (13 R411, R414 to R424).
-/
namespace Sys2Proof.Machine

/-! ## Fields (R415) -/

/-- The fields of a COLLECT descriptor. -/
structure Coll where
  op     : Nat
  arith  : Nat
  inp    : Nat
  outp   : Nat
  jslot  : Nat
  group  : Nat
  drop   : Nat
  peer   : Nat
  cid    : Word
  round  : Word
  src    : Nat
  dst    : Nat
  count  : Nat
  anchor : Nat
  rgroup : Nat
  tensor : Nat
  deriving DecidableEq, Repr

/-- Read the fields of a COLLECT descriptor. -/
def collOf (b : Bytes) : Coll :=
  let u := fieldAt b
  { op := u 0x10 1, arith := u 0x11 1, inp := bitField (u 0x12 1) 0 2, outp := bitField (u 0x12 1) 2 2, jslot := u 0x13 1,
    group := u 0x14 1, drop := u 0x15 1, peer := u 0x16 2, cid := BitVec.ofNat 32 (u 0x18 4),
    round := BitVec.ofNat 32 (u 0x1C 4), src := u 0x20 8, dst := u 0x28 8, count := u 0x30 4, anchor := u 0x34 2,
    rgroup := u 0x36 2, tensor := u 0x38 4 }

/-- The job slot of an account. -/
def State.jobSlot (s : State) (acct jslot : Nat) : Option JobSlot := tget s.chip.fabric.slots (acct * 16 + jslot)

/-- What a member takes part with: the slot, the members in order, its own number, and the root's number (R413, R415). -/
structure Seat where
  slot    : JobSlot
  members : List Member
  me      : Nat
  root    : Nat
  deriving DecidableEq, Repr

/-- The seat of a descriptor; the root of a part with several members is its first (log entry 23, DEDUCED). -/
def seatOf (s : State) (p : Pkg) (x : Desc) (c : Coll) : Option Seat :=
  match s.jobSlot p.id.acct.toNat c.jslot with
  | none => none
  | some js =>
    let ms := tgetD js.groups c.group []
    some ⟨js, ms, ms.findIdx fun m => m.part == js.part && m.die == x.unit % 8, ms.findIdx fun m => m.part == c.peer⟩

/-- The bytes of a descriptor's input: none for BARRIER, the image's own length for an image (R110, R415, R417). -/
def collInLen (s : State) (epoch : Nat) (c : Coll) : Nat :=
  if c.op == 6 then 0
  else if c.arith == 0 then 64 * c.count
  else if c.inp == 2 then 64 + fieldAt (s.readFor epoch c.src 64) 8 4
  else 4 * c.count

/-- Bytes of a host range, for HOST_BYTES (R473). -/
def hostLen (a n : Nat) : Nat := match locOf a with
  | some (.host _ _) => n
  | _ => 0

/-! ## Rounds (R418) -/

/-- The round of a member. -/
def Round.is (r : Round) (job : Word) (c : Coll) (die : Nat) : Bool :=
  r.job == job && r.group == c.group && r.cid == c.cid && r.round == c.round && r.die == die

/-- The round of a descriptor. -/
def State.roundOf (s : State) (job : Word) (c : Coll) (die : Nat) : Option Round :=
  s.chip.fabric.rounds.find? fun r => r.is job c die
/-- Change the round of a descriptor. -/
def onRound (job : Word) (c : Coll) (die : Nat) (f : Round → Round) (s : State) : State :=
  s.onFabric fun b => { b with rounds := b.rounds.map fun r => if r.is job c die then f r else r }

/-- The elements of an image input; none where it fails its check (R110, R111). -/
def imageIn (s : State) (p : Pkg) (c : Coll) (A : Int) : Option (List La) :=
  let h := s.readFor p.epoch.toNat c.src 64
  let m := fieldAt h 4 1 + 1
  let n := fieldAt h 5 1 + 1
  if m * n != c.count then none
  else addImages s p.epoch.toNat (p.grouped c.rgroup c.src) A c.anchor m n c.tensor 1 c.src (List.replicate c.count La.zero)

/-- What a member contributes at an anchor: transport words, FP32 elements or bytes; none where its input image fails
(R416, R419). -/
def contribution (s : State) (p : Pkg) (c : Coll) (root : Bool) (A : Int) : Option Bytes :=
  let input := fun (n : Nat) => s.readFor p.epoch.toNat c.src n
  if c.op == 6 || (c.op == 4 && !root) then some []
  else if c.arith == 0 then some (input (64 * c.count))
  else if c.arith == 1 then
    let las := if c.inp == 2 then imageIn s p c A
      else some ((lanesOf (input (4 * c.count))).map fun w => La.zero.addVal A (ofF32 w))
    las.map fun l => wordBytes (l.flatMap La.encode)
  else some (input (4 * c.count))

/-- The bytes that a member sends into the fabric for one contribution (R421, R473). -/
def sentBytes (c : Coll) (G : Nat) (root : Bool) (n : Nat) : Nat :=
  match c.op with
  | 2 => 2 * (G - 1) * n / G
  | 3 => if root then 0 else n
  | 4 => if root && decide (1 < G) then n else 0
  | 5 => (G - 1) * n
  | _ => 0

/-- LONG elements among `n` in transport words: each takes four words (R76). -/
def longsIn (n : Nat) (b : Bytes) : Nat := (b.length / 8 - n) / 3

/-- What goes with every contribution and must be the same on every member: OP, ARITH, FORM, COUNT, ANCHOR, TENSOR_ID and PEER,
the anchor of the pass under LA, and the group's list, where the manual lets a digest go (R72, R413, R418). (Log entry 161, DESIGN
CHOICE.) -/
def roundTag (c : Coll) (members : List Member) (A : Int) : Bytes :=
  leBytes 1 c.op ++ leBytes 1 c.arith ++ leBytes 1 (c.inp + 4 * c.outp) ++ leBytes 4 c.count ++ leBytes 2 c.anchor ++
  leBytes 4 c.tensor ++ leBytes 2 c.peer ++ leBytes 2 (if c.arith == 1 then unsigned 10 A else 0) ++
  members.flatMap fun m => leBytes 2 m.part ++ leBytes 1 m.die

/-- A contribution without its tag; none where the tag is another (R72, R413, R418). -/
def untag (tag b : Bytes) : Option Bytes := if b.take tag.length == tag then some (b.drop tag.length) else none

/-- What a contribution sends to the group's members on this part: partial sums, or a barrier's message on CTL (R368). -/
def roundMsgs (s : State) (c : Coll) (r : Round) : List (Vc × List Hop) :=
  (otherDies s r).flatMap fun d => if c.op == 6 then [ctlMsg r.die d] else moveMsgs r.die d

/-- A member contributes at the pass of its round: its input is read, kept, metered and sent to the other members of the group with
the round's tag (R72, R368, R413, R418, R419). -/
def contribute (p : Pkg) (x : Desc) (c : Coll) (t : Seat) (r : Round) (s : State) : State :=
  let acct := p.id.acct.toNat
  let die := p.die x
  let A := passAnchor r.base r.pass
  s.carry (roundMsgs s c r) fun s => pkgReads p.id .fabric (s.spotsFor p.epoch.toNat c.src (collInLen s p.epoch.toNat c)) s fun s =>
    match contribution s p c (t.me == t.root) A with
    | none => structFail p.id die s
    | some b =>
      let longs := if c.arith == 1 then longsIn c.count b else 0
      let s := (s.num acct 7 longs).bump 0x504 die (some acct) none longs
      let s := (s.meter acct 7 (sentBytes c t.members.length (t.me == t.root) b.length) die).meter acct 8
        (hostLen c.src (collInLen s p.epoch.toNat c)) die
      let tagged := roundTag c t.members A ++ b
      let s := onRound t.slot.job c die (fun r => { r with sent := r.sent ++ [tagged] }) s
      let parts := ((t.members.map (·.part)).filter fun n => n != t.slot.part).dedup
      let head := leBytes 1 c.group ++ leBytes 4 c.cid.toNat ++ leBytes 4 c.round.toNat ++ leBytes 1 r.pass ++ leBytes 2 t.me
      let send := fun (s : State) (n : Nat) => sendTo (some die) (t.slot.table.getD n 0) t.slot.job 2 (head ++ tagged) s
      parts.foldl send s

/-! ## Reruns that other parts have asked for (R185, R424) -/

/-- The end of a rerun is told to the part that asked: whether this one holds a producer with the RKEY (R185, R424, log entry 111,
DESIGN CHOICE). -/
def tellRerun (o : Owed) (held : Bool) (s : State) : State :=
  sendTo none o.src o.job 17 (leBytes 4 o.rkey.toNat ++ leBytes 1 o.pass ++ [if held then 1 else 0]) s

/-- A request that this part still owes is answered once every round of its producers has completed, or none of them is left (R117,
R185, R419). -/
def answerOne (s : State) (o : Owed) : State :=
  let mine := match s.chip.fabric.slots.find? fun x => x.2.job == o.job with
    | some (k, _) => linkedProducers s (BitVec.ofNat 10 (k / 16)) o.rkey
    | none => []
  if mine.any fun q => sharePending s q.1 q.2 then s
  else tellRerun o (!mine.isEmpty) (s.onFabric fun f => { f with owed := f.owed.filter fun x => x != o })

/-- The requests that this part owes are answered as their rounds complete (R185). -/
def answerOwed (s : State) : State := s.chip.fabric.owed.foldl answerOne s

/-- Another part has answered a request: what waited for it goes on as its row comes again (R185, R424). -/
def heardRerun (part : Nat) (job rkey : Word) (held : Bool) (s : State) : State :=
  let hear := fun (a : Asked) =>
    if a.open_.contains (job, part, rkey) then
      { open_ := a.open_.filter fun q => q != (job, part, rkey), found := if held then a.found ++ [rkey] else a.found }
    else a
  let tile := fun (t : TileRun) => { t with asked := hear t.asked }
  let round := fun (r : Round) => { r with asked := hear r.asked }
  let s := { s with cores := s.cores.map fun (c : Core) => { c with tiles := c.tiles.map tile } }
  s.onFabric fun f => { f with rounds := f.rounds.map round }

/-! ## The row of a member (R418) -/

/-- The RKEYs that a COLLECT consumes: those of its group, where its input is an image and its output is not (R185, R415). -/
def consumedBy (s : State) (d : DescId) (c : Coll) : List Word := match s.pkg d.pkg with
  | some p => if c.inp == 2 && c.outp != 2 then p.consumed c.rgroup else []
  | none => []

/-- A round has completed on a member: its descriptor is done with the round's RESULT word and output, and as a consumer's this final
write releases its linked producers (R185). -/
def deliver (d : DescId) (c : Coll) (res : Bytes) (s : State) : State :=
  let out := res.drop 4
  let fin := fun (s : State) => releaseLinks d.pkg (consumedBy s d c) (s.onDesc d fun x => if x.state == .started then
      { x with progress := 1, result := BitVec.ofNat 32 (leNat (res.take 4)) } else x)
  if out.isEmpty then fin s
  else pkgWrites d.pkg .fabric [(c.dst, out.length)] s fun s =>
    fin ((s.write c.dst out).meter d.pkg.acct.toNat 8 (hostLen c.dst out.length) 0)

/-- The die of a member reaches every other part of its group: a step to one that it does not reach waits for a route (R24, R408).
-/
def Seat.reaches (t : Seat) (die : Nat) (s : State) : Bool :=
  t.members.all fun m => m.part == t.slot.part || s.dieReaches die (t.slot.table.getD m.part 8192)

/-- One contribution row: the member joins the round, or repeats it: a repeat is discarded, and receives the kept result
of a completed round (R183, R418). A contribution that stands after its own package's end serves the descriptor that repeats it
(R422). -/
def collectRow (op : Nat) (d : DescId) (s : State) : Result State :=
  match s.desc d with
  | none => .next s
  | some (p, x) =>
    let c := collOf x.raw
    if x.kind != 5 || c.op != op || x.state != .started || x.progress != 0 || !p.running then .next s
    else match seatOf s p x c with
      | none => .next (structFail d.pkg (p.die x) s)
      | some t =>
        match s.roundOf t.slot.job c (p.die x) with
        | some r => match r.result with
          | some b => .next (deliver d c b s)
          | none => .next (if r.live s then s else onRound t.slot.job c (p.die x) (fun r => { r with desc := d }) s)
        | none =>
          if !t.reaches (p.die x) s then .next s
          else
            let base := if c.arith == 1 then p.anchor s c.anchor c.tensor else 0
            let r : Round := ⟨t.slot.job, c.group, c.cid, c.round, p.die x, d, base, 0, List.replicate
              (if c.arith == 1 then c.count else 0) none, [], none, false, [], .none⟩
            .next (contribute p x c t r (s.onFabric fun f => { f with rounds := f.rounds ++ [r] }))

/-- ALLREDUCE: this member contributes (R418). -/
def execAllreduce (d : DescId) (s : State) : Result State := collectRow 2 d s
/-- REDUCE: this member contributes (R418). -/
def execReduce (d : DescId) (s : State) : Result State := collectRow 3 d s
/-- BROADCAST: this member contributes (R418). -/
def execBroadcast (d : DescId) (s : State) : Result State := collectRow 4 d s
/-- ALLGATHER: this member contributes (R418). -/
def execAllgather (d : DescId) (s : State) : Result State := collectRow 5 d s
/-- BARRIER: this member contributes (R418). -/
def execBarrier (d : DescId) (s : State) : Result State := collectRow 6 d s

/-! ## Completion (R419, R420, R423) -/

/-- What the members contributed at a pass, with its tag: a member of this part by its own round, one of a joined part as it
arrived. None until every member has contributed (R411, R418). -/
def gather (s : State) (p : Pkg) (c : Coll) (t : Seat) (r : Round) (others : List (Nat × Bytes)) : Option (List Bytes) :=
  (t.members.zipIdx.map fun m =>
    let local_ := if m.1.part == t.slot.part then
        match s.roundOf t.slot.job c (p.dies.getD m.1.die 8) with
        | some q => q.sent[r.pass]?
        | none => none
      else none
    match local_ with
      | some b => some b
      | none => if m.2 == t.me || !t.slot.joined.contains m.1.part then none else others.lookup m.2).allSome

/-- The output image of a round: its shape is that of an input image, or of the tile that takes it; the manual gives no
shape where neither is there (log entry 24, DEDUCED). -/
def roundImage (s : State) (p : Pkg) (c : Coll) (A : Int) (las : List La) : Bytes :=
  let h := s.readFor p.epoch.toNat c.src 64
  let taker := p.descs.find? fun y => y.kind == 1 && y.rgroup == c.rgroup && y.pinCount != 0 && y.tileM * y.tileN == c.count
  let shape := if c.inp == 2 then (fieldAt h 4 1, fieldAt h 5 1)
    else match taker with
      | some y => (y.tileM - 1, y.tileN - 1)
      | none => ((Config.freeValue s.freeCtr).toNat % 128, (Config.freeValue s.freeCtr).toNat / 128 % 128)
  let body := wordBytes (las.flatMap La.encode)
  imageHeader c.anchor A shape.1 shape.2 0 body.length c.tensor c.rgroup ++
  body ++ List.replicate ((64 - body.length % 64) % 64) 0

/-- A round fails on a member, whose part in it is over: a contribution that disagrees, or that its check refuses (R356, R413, R418).
-/
def failRound (d : DescId) (c : Coll) (t : Seat) (die : Nat) (s : State) : State :=
  structFail d.pkg die (onRound t.slot.job c die (fun r => { r with result := some [] }) s)

/-- A round completes with a RESULT word and an output, which are kept; what has waited for it as a producer's round goes on (R185,
R418). -/
def finishRound (d : DescId) (c : Coll) (t : Seat) (die result : Nat) (out : Bytes) (s : State) : State :=
  let b := leBytes 4 result ++ out
  answerOwed (deliver d c b (onRound t.slot.job c die (fun r => { r with result := some b }) s))

/-- The sums that travel as LONG once the members have contributed: those that an all-reduce distributes, and partial sums of three
members or more, whose number depends on the route and is free (R78, log entry 25, DESIGN CHOICE). -/
def longSums (c : Coll) (sums : List La) (members : Nat) (s : State) : Nat × State :=
  let spread := if c.op == 2 && decide (1 < members) then longCount sums else 0
  if decide (members ≤ 2) then (spread, s)
  else
    let (v, s) := s.free
    (spread + v.toNat % (c.count * (members - 2) + 1), s)

/-- A pass's sums that travel as LONG are counted, and whether an element has: one of them or of a contribution (R78, R423). -/
def longSeen (acct die : Nat) (c : Coll) (sums : List La) (sent : List Bytes) (s : State) : Bool × State :=
  let (longs, s) := longSums c sums sent.length s
  let any := decide (0 < longs) || sent.any fun b => decide (8 * c.count < b.length)
  (any, (s.num acct 7 longs).bump 0x504 die (some acct) none longs)

/-- The end of an LA round's pass on a member (R419): an image output, a further pass, or the FP32 output. LONG_SEEN holds over the
passes (R423). -/
def laRound (d : DescId) (p : Pkg) (x : Desc) (c : Coll) (t : Seat) (r : Round) (sent : List Bytes) (las : List (List La))
    (s : State) : State :=
  let acct := d.pkg.acct.toNat
  let die := p.die x
  let A := passAnchor r.base r.pass
  let writes := c.op == 2 || t.me == t.root
  let sums := las.foldl (fun a b => List.zipWith La.merge a b) (List.replicate c.count La.zero)
  let fixed := List.zipWith (fixElement A) r.fixed sums
  let next := passAnchor r.base (r.pass + 1)
  if c.outp != 2 && fixed.any (fun f => f.isNone) && decide (r.pass < 2) && decide (next ≤ 511) then
    match rerunProducers p (if c.inp == 2 then c.rgroup else 0) (r.pass + 1) next s with
    | none => stopWith d.pkg (fun s => s) s
    | some (u, asked) =>
      if !u.ok then u.state
      else
        let (long, s) := longSeen acct die c sums sent u.state
        let on := fun (r : Round) => { r with pass := r.pass + 1, fixed := fixed, long := r.long || long, asked := asked }
        onRound t.slot.job c die on (s.num acct 0 1)
  else
    let (long, s) := longSeen acct die c sums sent s
    let seen := if r.long || long then 2 ^ 7 else 0
    let word := fun (conds : Conds) => r.pass + conds.bits + seen + unsigned 10 A * 2 ^ 16
    if c.outp == 2 then
      let img := if writes then roundImage s p c A sums else []
      finishRound d c t die (word Conds.zero) img { s with freeCtr := s.freeCtr + 1 }
    else if !writes then finishRound d c t die (word Conds.zero) [] s
    else
      let outs := lastOutputs A fixed sums
      let conds := outs.foldl (fun c o => c.add o.conds) Conds.zero
      let s := amaxMerge p c.tensor (finiteMax ((outs.filter fun o => !o.nonfinite).map (·.word))) s
      finishRound d c t die (word conds) (laneBytes (outs.map (·.word))) (countConds acct die none conds s)

/-- FP32 sums along a tree over members in order, rounded at each step; where the members from `lo` on part is the tree's, which
depends on the group's size (R420, log entry 26, DESIGN CHOICE). -/
def treeSum (size : Nat) : Nat → Nat → List (List Word) → List Word
  | 0, _, ws => ws.headD []
  | n + 1, lo, ws =>
    if decide (ws.length ≤ 1) then ws.headD []
    else
      let k := 1 + Config.reduceSplit size lo ws.length % (ws.length - 1)
      List.zipWith f32Add (treeSum size n lo (ws.take k)) (treeSum size n (lo + k) (ws.drop k))

/-- The output of a round without LA (R420). -/
def plainOutput (c : Coll) (t : Seat) (sent : List Bytes) : Bytes :=
  if c.op == 6 then []
  else if c.op == 4 then sent.getD t.root []
  else if c.op == 5 then sent.flatten
  else if c.op == 3 && t.me != t.root then []
  else if c.arith == 3 then
    match sent.map lanesOf with
    | [] => []
    | w :: ws => laneBytes (ws.foldl (fun a b => List.zipWith (fun u v => f32Op Val.max u v) a b) w)
  else laneBytes (treeSum sent.length sent.length 0 (sent.map lanesOf))

/-- Whether what arrived has the length that the descriptor gives. -/
def plainOk (c : Coll) (t : Seat) (sent : List Bytes) : Bool :=
  let n := if c.op == 6 then 0 else if c.arith == 0 then 64 * c.count else 4 * c.count
  if c.op == 4 then (sent.getD t.root []).length == n else sent.all fun b => b.length == n

/-- ROUND_COMPLETE: every contribution has arrived at this member. `others` holds what the members of other parts sent, by
member number (R418 to R420). -/
def execRoundComplete (d : DescId) (others : List (Nat × Bytes)) (s : State) : Result State :=
  match s.desc d with
  | none => .next s
  | some (p, x) =>
    let c := collOf x.raw
    let die := p.die x
    if x.kind != 5 || !p.resident || p.state == .stopping then .next s
    else match seatOf s p x c with
      | none => .next s
      | some t => match s.roundOf t.slot.job c die with
        | none => .next s
        | some r => match r.result with
          | some b => .next (if x.state == .started && x.progress == 0 then deliver d c b s else s)
          | none =>
            let fresh := decide (r.sent.length ≤ r.pass)
            let group := if c.inp == 2 && c.outp != 2 then c.rgroup else 0
            if fresh && (!t.reaches die s || rerunsPending s p group r.asked) then .next s
            else if fresh && decide (0 < r.pass) && group != 0 && producersLost p group r.asked then
              .next (stopWith d.pkg (fun s => s) s)
            else
              let s := if fresh then contribute p x c t r s else s
              match gather s p c t r others with
              | none => .next s
              | some tagged => match (tagged.map (untag (roundTag c t.members (passAnchor r.base r.pass)))).allSome with
                | none => .next (failRound d c t die s)
                | some sent =>
                  if c.arith == 1 then
                    let read := fun (b : Bytes) => match La.decodeMany c.count (bytesWords b) with
                      | some (l, []) => some l
                      | _ => none
                    match (sent.map read).allSome with
                    | none => .next (failRound d c t die s)
                    | some las => .next (laRound d p x c t r sent las s)
                  else if !plainOk c t sent then .next (failRound d c t die s)
                  else .next (finishRound d c t die 0 (plainOutput c t sent) s)

/-! ## PUT (R411, R414, R417) -/

/-- Bytes reach a drop: they land and its semaphore is signalled, unless they reach beyond its length or no such drop is
there, or its memory is fenced (R502). -/
def landPut (acct : Nat) (js : JobSlot) (drop off : Nat) (data : Bytes) (s : State) : Option State :=
  match tget js.drops drop with
  | none => none
  | some r =>
    if decide (64 * r.len < off + data.length) || !s.writes (r.base + off) data.length then none
    else some (signalAcct acct r.sem ((s.charge .fabric acct [(r.base + off, data.length)]).write (r.base + off) data))

/-- An event of the fabric is counted on a die: the row does not tell the port that it came in over, and the die's counter is free
(R552, R554, log entry 173, DESIGN CHOICE). -/
def bumpSomeDie (src : Nat) (s : State) : State :=
  let (v, s) := s.free
  s.bump src (v.toNat % 8) none none 1

/-- A message is discarded and counted; none arrives with the domains off (R411, R554, R588). -/
def discardMsg (s : State) : State := s.whenOn ((bumpSomeDie 0x903 s).onFabric fun f => { f with discarded := f.discarded + 1 })

/-- PUT: the copy has been sent, and its receiver has acknowledged every segment or has discarded the PUT, which fails this
descriptor: which of these is a free value (log entry 163, DESIGN CHOICE). One to this part is a local copy under the same rules;
one to a part that no candidate port of its die reaches waits (R24, R408, R417). -/
def execPut (d : DescId) (s : State) : Result State :=
  match s.desc d with
  | none => .next s
  | some (p, x) =>
    let c := collOf x.raw
    let acct := d.pkg.acct.toNat
    let die := p.die x
    if x.kind != 5 || c.op != 1 || x.state != .started || x.progress != 0 || !p.running then .next s
    else match s.jobSlot acct c.jslot with
      | none => .next (structFail d.pkg die s)
      | some js =>
        let dst := js.table.getD c.peer 0
        if c.peer != js.part && !s.dieReaches die dst then .next s
        else
          let n := 64 * c.count
          let into := match tget js.drops c.drop with
            | some r => if c.peer == js.part then [(r.base + c.dst, n)] else []
            | none => []
          .next (s.carry (dataMsgs die into) fun s => pkgReads d.pkg .fabric (s.spotsFor p.epoch.toNat c.src n) s fun s =>
            let data := s.readFor p.epoch.toNat c.src n
            let s := s.meter acct 8 (hostLen c.src n) die
            let fin := fun (s : State) => s.onDesc d fun x => { x with progress := 1 }
            if c.peer == js.part then
              match landPut acct js c.drop c.dst data s with
              | none => structFail d.pkg die (discardMsg s)
              | some s => fin s
            else
              let msg := leBytes 1 c.drop ++ leBytes 8 c.dst ++ data
              let (v, s) := (sendTo (some die) dst js.job 3 msg (s.meter acct 7 n die)).free
              if v.getLsbD 0 then fin s else structFail d.pkg die s)

/-- The account and slot that a fabric message is delivered to: the holder of its job, if its sender is a joined part of
that job (R411). -/
def State.recipient (s : State) (src : Nat) (job : Word) : Option (Nat × JobSlot) :=
  match s.chip.fabric.slots.find? fun x => x.2.job == job with
  | none => none
  | some (k, js) => if js.joined.any fun n => js.table.getD n 8192 == src then some (k / 16, js) else none

/-- PUT_LANDED: a PUT of another part reaches a drop, and wakes the module, or is discarded and counted (R411, R414, R417,
R515). -/
def execPutLanded (src : BitVec 13) (job : Word) (drop : BitVec 6) (off : Nat) (data : Bytes) (s : State) : Result State :=
  match s.recipient src.toNat job with
  | none => .next (discardMsg s)
  | some (acct, js) => match landPut acct js drop.toNat off data s with
    | none => .next (discardMsg s)
    | some s => .next (wakeUp s)

/-- The pass of a package's share of a group runs again: its producers at the anchor that their own anchor word gives it (R65, R185). -/
def rerunShare (pass : Nat) (r : Rerun) (q : Pkg × Nat) : Rerun :=
  match q.1.descs.find? fun y => y.produces q.2 with
  | none => r
  | some y =>
    let A := if y.kind == 1 then q.1.anchor r.state y.anchorWord y.tensorId else q.1.anchor r.state (y.u 0x34 2) (y.u 0x38 4)
    rerunGroup q.1 q.2 pass (passAnchor A pass) r

/-- RERUN_REQUEST: a joined part's consumer overflowed, and wakes the module; packages that produce under the RKEY run their producers
again at the pass, once all of them have run, and the request is answered when their rounds have completed too. A part that holds no
producer, or has lost one, answers so at once (R117, R185, R424, R515). -/
def execRerunRequest (src : BitVec 13) (job : Word) (rkey : Word) (pass : BitVec 2) (s : State) : Result State :=
  match s.recipient src.toNat job with
  | none => .next (discardMsg s)
  | some (acct, _) =>
    let s := wakeUp s
    let o : Owed := ⟨src.toNat, job, rkey, pass.toNat⟩
    let a := BitVec.ofNat 10 acct
    let mine := linkedProducers s a rkey
    if s.chip.fabric.owed.contains o then .next (answerOne s o)
    else if mine.isEmpty || producerGone s a rkey then .next (tellRerun o false s)
    else if mine.any fun q => !q.1.produced q.2 then .next s
    else
      let r := mine.foldl (rerunShare pass.toNat) ⟨s, false, true⟩
      if !r.ok then .next r.state
      else .next (answerOne (r.state.onFabric fun f => { f with owed := f.owed ++ [o] }) o)

end Sys2Proof.Machine
end

