-- ==== Sys2Proof/Machine/Packages.lean ====
section
/-!
DEFINITION. Running work packages (05): their start, their descriptors' starts and completions, transfers, the time limits,
and the commands of family 0x03xx but WP_SUBMIT.
-/
namespace Sys2Proof.Machine

/-! ## Starting a package (R171, R173, R174) -/

/-- A descriptor uses an AUTO anchor on an amax entry that has not rolled (R565). -/
def Pkg.waitsRoll (p : Pkg) (s : State) : Bool :=
  match s.modelOf p.id.acct.toNat p.model with
  | none => false
  | some m => p.descs.any fun d =>
    let uses := fun (word tid : Nat) => anchorAuto word && m.unrolled.contains tid
    if d.kind == 1 then uses d.anchorWord d.tensorId
    else if d.kind == 2 then (List.range 8).any fun i => uses (d.u (0x70 + 8 * i) 2) (d.u (0x72 + 8 * i) 4)
    else if d.kind == 5 then uses (d.u 0x34 2) (d.u 0x38 4)
    else false

/-- A package started and has not ended. -/
def Pkg.started (p : Pkg) : Bool := p.running || p.state == .stopping || p.state == .held

/-- The cores of a package admit its phase: none runs a package of the other phase; a core that runs packages of this phase has no
package of the other phase waiting for it, and an idle core in this phase none that was accepted before this one (R171). -/
def Pkg.phaseOpen (p : Pkg) (s : State) : Bool :=
  p.cores.all fun c =>
    let others := s.pkgs.filter fun q => q.id != p.id && q.resident && q.cores.contains c
    let running := others.filter Pkg.started
    let waiters := others.filter fun q => q.state == .phaseWait && q.phase != p.phase
    (running.all fun q => q.phase == p.phase) &&
    (if running.isEmpty then (s.core c).phase != some p.phase || waiters.all fun q => decide (p.order < q.order) else waiters.isEmpty)

/-- The package's model lets it bind: a generation-phase package waits while an INPLACE turn holds new ones, and while there is
no current copy (R333, R338). (Log entry 92, DEDUCED.) -/
def Pkg.modelOpen (p : Pkg) (s : State) : Bool :=
  match s.modelOf p.id.acct.toNat p.model with
  | none => true
  | some m => !(p.phase == .generation && (m.w.holdPkgs || !m.w.gencopy))

/-- The epoch that a package binds (R174). -/
def Pkg.bind (p : Pkg) (s : State) : DWord :=
  match s.modelOf p.id.acct.toNat p.model with
  | none => 0
  | some m => BitVec.ofNat 64 m.w.epoch

/-- PACKAGE_START: an accepted package whose cores are in its phase runs its prologue and binds its model; one that must
wait for its phase is in PHASE_WAIT (R171, R174, R177). (Log entry 11, DESIGN CHOICE.) -/
def execPackageStart (p : PkgId) (s : State) : Result State :=
  match s.pkg p with
  | none => .next s
  | some q =>
    if !(q.state == .loaded || q.state == .phaseWait) || s.chip.power.pstate != 0 then .next s
    else if !q.phaseOpen s then .next (s.onPkg p fun q => { q with state := .phaseWait })
    else if q.waitsRoll s || !q.modelOpen s then .next s
    else .next (pkgReads p .compute (prologueReads q true) s fun s =>
      let s := prologue q true s
      let s := q.cores.foldl (fun s i => s.onCore i fun c => { c with phase := some q.phase }) s
      s.onPkg p fun q => { q with state := .running, shadowed := true, tStart := s.mtime, epoch := q.bind s })

/-! ## Starting a descriptor (R107, R160, R165, R172) -/

/-- The earlier descriptors of a descriptor's queue, with their indices. -/
def Pkg.before (p : Pkg) (i : Nat) (d : Desc) : List (Desc × Nat) :=
  p.descs.zipIdx.filter fun x => decide (x.2 < i) && x.1.unit == d.unit

/-- The fence of a descriptor holds: what it waits for has completed; in a chain, what stands before its FIRST (R107). -/
def Pkg.fenceOk (p : Pkg) (i : Nat) (d : Desc) : Bool :=
  let lim := if d.pos == 2 || d.pos == 3 then (p.chain i).headD i else i
  !d.fence || (p.before lim d).all fun x => x.1.state == .done

/-- The wait of a descriptor is satisfied, or was in an earlier pass (R164, R183). -/
def waitOk (s : State) (p : Pkg) (d : Desc) : Bool :=
  d.wait == 0 || (d.waited && p.isAcctSem d.wait) || semReached (semValue s p d.wait) d.target

/-- A vector program of some package has started on a core and has not completed. -/
def State.vectorBusy (s : State) (core : Nat) : Bool :=
  (s.core core).prog.isSome || s.pkgs.any fun q => q.resident && q.descs.any fun e =>
    e.kind == 2 && e.state == .started && e.progress == 0 && q.core e == core

/-- The engine of a descriptor can take it: arrays with an accumulator to give, a vector unit without a program, and the open
chain's own arrays for the rest of a chain (R86, R87, R107, R123). -/
def engineFree (s : State) (p : Pkg) (i : Nat) (d : Desc) : Bool :=
  if d.kind == 1 then
    if d.pos == 2 || d.pos == 3 then
      (s.tileRun (p.core d) ⟨p.id, BitVec.ofNat 14 ((p.chain i).headD 0)⟩).isSome
    else s.arraysOpen (p.core d) ⟨p.id, BitVec.ofNat 14 i⟩ d.arrays
  else if d.kind == 2 then !s.vectorBusy (p.core d)
  else true

/-- A descriptor is eligible for its engine: its predecessors have started, its wait is satisfied and any fence holds (R160, R172, R525).
-/
def eligible (s : State) (p : Pkg) (i : Nat) (d : Desc) : Bool :=
  p.running && d.state == .queued && s.chip.power.pstate == 0 && !s.chip.power.override.halts (p.die d) &&
  ((p.before i d).all fun x => x.1.state != .queued) && p.fenceOk i d && waitOk s p d

/-- A descriptor may start (R160). -/
def descReady (s : State) (p : Pkg) (i : Nat) (d : Desc) : Bool := eligible s p i d && engineFree s p i d

/-- A descriptor starts: a tile that opens an operation takes its arrays (R160, R173). -/
def startDesc (p : Pkg) (i : Nat) (d : Desc) (s : State) : State :=
  let id : DescId := ⟨p.id, BitVec.ofNat 14 i⟩
  let s := s.onDesc id fun d => { d with state := .started, tStart := s.mtime, waited := true }
  if d.kind == 1 && (d.pos == 0 || d.pos == 1) then
    let acc1 := s.pickAcc (p.core d) id
    let run := TileRun.start id (p.anchor s d.anchorWord d.tensorId) (d.tileM * d.tileN) acc1
    takeAcc (p.core d) d.arrays acc1 (s.onCore (p.core d) fun c => { c with tiles := c.tiles ++ [run] })
  else s

/-- A descriptor completes, and the message of its signal crosses the network on CTL (R165, R368). -/
def closeDesc (d : DescId) (p : Pkg) (x : Desc) (result : Word) (s : State) : State :=
  s.carry (signalMsgs s d.pkg.acct.toNat (p.die x) x.signal) fun s => completeDesc d result s

/-- A descriptor that an engine may choose beside `x` of package `p`, whether it is free now or not: of the arrays, one that needs an
array that `x` needs. A SYNC takes no engine, and the rest of a chain follows its FIRST on arrays that the chain holds (R107, R160,
R162, R172). -/
def rivals (s : State) (p : Pkg) (x : Desc) (q : Pkg) (i : Nat) (d : Desc) : Bool :=
  q.engine d == p.engine x && d.kind != 4 && decide (d.pos < 2) && eligible s q i d && (d.kind != 1 || d.arrays &&& x.arrays != 0)

/-- DESCRIPTOR_START: a queued descriptor starts once its predecessors have started, its wait is satisfied, any fence holds
and its engine is free and chooses it; a SYNC completes as soon as it starts (R160, R162, R172). -/
def execDescriptorStart (d : DescId) (s : State) : Result State :=
  match s.desc d with
  | none => .next s
  | some (p, x) =>
    let i := d.idx.toNat
    if !descReady s p i x then .next s
    else if x.kind == 4 then .next (closeDesc d p x 0 (startDesc p i x s))
    else if decide (2 ≤ x.pos) then .next (startDesc p i x s)
    else if s.serves (p.engine x) (rivals s p x) d then
      .next ((startDesc p i x s).served (p.engine x) d.pkg.acct.toNat)
    else .next s

/-- VECTOR_PROGRAM: a started program launches its threads with every register of R121 cleared, X1 the thread number, and
its windows and anchors from the descriptor (R121, R123, R124). -/
def execVectorProgram (d : DescId) (s : State) : Result State :=
  match s.desc d with
  | none => .next s
  | some (p, x) =>
    let core := p.core x
    if x.kind != 2 || x.state != .started || x.progress != 0 || (s.core core).prog.isSome then .next s
    else
      let win := fun (i : Nat) =>
        let w := x.u (0x30 + 8 * i) 8
        (64 * bitField w 0 17, 64 * bitField w 32 18)
      let slot := fun (i : Nat) =>
        let word := x.u (0x70 + 8 * i) 2
        let tid := x.u (0x72 + 8 * i) 4
        (⟨word, tid, p.anchor s word tid⟩ : AnchorSlot)
      let v : VProg :=
        { desc := d, code := 64 * bitField (x.u 0x10 4) 0 17, plen := bitField (x.u 0x14 4) 0 15, budget := x.u 0x1C 4,
          wins := (List.range 8).map win, anch := (List.range 8).map slot, result := 0, posted := [] }
      let thread := fun (t : Nat) =>
        let r := { Thread.reset with state := if (x.u 0x18 4).testBit t then ThreadState.running else ThreadState.idle }
        r.set 1 (BitVec.ofNat 64 t)
      .next (s.onCore core fun c =>
        { Core.reset with phase := c.phase, tiles := c.tiles, accNext := c.accNext, prog := some v,
                          threads := (List.range 16).map thread })

/-! ## Transfers (R161, R163, R175) -/

/-- The transfer that a program has posted first. -/
def State.postedHead (s : State) (d : DescId) (core : Nat) : Option Bytes := match (s.core core).prog with
  | some v => if v.desc == d then v.posted.head? else none
  | none => none

/-- The next segment of a transfer can be served: it does not wait for a host link (R383). -/
def Xf.open (x : Xf) (s : State) : Bool := !s.hostWaits x.src && !s.hostWaits x.dst

/-- Segments of a PREFETCH. -/
def Pf.segments (f : Pf) : Nat := (f.len + 1023) / 1024

/-- A descriptor has a segment for the transfer engine of a die: a transfer, a PREFETCH, or what a program has posted. -/
def hasSegment (s : State) (die : Nat) (p : Pkg) (i : Nat) (x : Desc) : Bool :=
  p.die x == die && x.state == .started && p.running &&
  match x.kind with
  | 2 => match s.postedHead ⟨p.id, BitVec.ofNat 14 i⟩ (p.core x) with
    | some b => (xfOf b).open s
    | none => false
  | 3 => decide (x.progress < (xfOf x.raw).segments) && (xfOf x.raw).open s
  | 7 => decide (x.progress < (pfOf x.raw).segments)
  | _ => false

/-- A transfer engine's service turn is one segment: the round robin of R172 gives it to a descriptor, or leaves the state. -/
def segmentTurn (d : DescId) (p : Pkg) (x : Desc) (s : State) (f : State → State) : State :=
  let engine := 1256 + p.die x
  if s.serves engine (hasSegment s (p.die x)) d then f (s.served engine d.pkg.acct.toNat) else s

/-- The next segment of a descriptor's transfer, by the transfer engine of a die. -/
def xferSegment (d : DescId) (p : Pkg) (die : Nat) (b : Bytes) (seg : Nat) (k : State → State) (s : State) : State :=
  let x := xfOf b
  let t := if x.hostBytes seg == 0 then Traffic.compute else Traffic.host
  let from_ := (x.runs x.src x.ss seg).flatMap fun r => s.spotsFor p.epoch.toNat r.1 r.2
  let into := x.runs x.dst x.ds seg
  if !s.reserved d x.dst then s else
  s.carry (readMsgs die from_ ++ dataMsgs die into) fun s =>
    pkgReads p.id t from_ s fun s =>
      pkgWrites p.id t into s fun s =>
        k ((x.copy p.epoch.toNat seg s).meter p.id.acct.toNat 8 (x.hostBytes seg) 0)

/-- The head transfer that a program has posted copies its next segment; at its end its signal is issued and crosses on CTL (R175,
R368). -/
def postedSegment (d : DescId) (p : Pkg) (x : Desc) (s : State) : State :=
  let core := p.core x
  let drop := fun (v : VProg) => { v with posted := v.posted.drop 1 }
  match s.postedHead d core with
  | none => s
  | some b =>
    let last := decide ((xfOf b).segments ≤ x.progress + 1)
    let signal := if last then signalMsgs s d.pkg.acct.toNat (p.die x) (fieldAt b 5 1) else []
    s.carry signal <| xferSegment d p (p.die x) b x.progress (fun s =>
      if !last then s.onDesc d fun x => { x with progress := x.progress + 1 }
      else
        let s := s.onDesc d fun x => { x with progress := 0 }
        let s := s.onCore core fun c => { c with prog := c.prog.map drop }
        progEnd core (signalSem d.pkg (fieldAt b 5 1) s))

/-- XFER: the next 64 KiB segment of a started transfer, or of the oldest transfer that a program has posted (R161, R175). -/
def execXfer (d : DescId) (s : State) : Result State :=
  match s.desc d with
  | none => .next s
  | some (p, x) =>
    if x.kind == 2 then .next (segmentTurn d p x s (postedSegment d p x))
    else if x.kind == 3 then
      .next (segmentTurn d p x s
        (xferSegment d p (p.die x) x.raw x.progress fun s => s.onDesc d fun x => { x with progress := x.progress + 1 }))
    else .next s

/-- SYNC: it takes no engine time, completes as soon as it starts, and issues its signal then (R162). -/
def execSync (d : DescId) (s : State) : Result State :=
  match s.desc d with
  | none => .next s
  | some (p, x) =>
    if x.kind != 4 then .next s
    else if x.state == .started then .next (closeDesc d p x 0 s)
    else if descReady s p d.idx.toNat x then .next (closeDesc d p x 0 (startDesc p d.idx.toNat x s))
    else .next s

/-- PREFETCH: the next 64 KiB segment of the bound epoch's weights (R163, R174, R186). -/
def execPrefetch (d : DescId) (s : State) : Result State :=
  match s.desc d with
  | none => .next s
  | some (p, x) =>
    let f := pfOf x.raw
    if x.kind != 7 then .next s
    else match s.slotOf p.id.acct.toNat p.model with
      | none => .next s
      | some k => match s.model k with
        | none => .next s
        | some m =>
          let (key, n) := f.source k m (x.unit % 8) p.epoch.toNat x.progress
          let into := [(f.dst + 65536 * x.progress, n)]
          .next (segmentTurn d p x s fun s =>
            if !s.reserved d f.dst then s else
            s.carry (readMsgs (p.die x) (s.keySpots key n) ++ dataMsgs (p.die x) into) fun s =>
              pkgReads d.pkg .compute (s.keySpots key n) s fun s =>
                pkgWrites d.pkg .compute into s fun s =>
                  (f.copySeg k m (x.unit % 8) p.epoch.toNat x.progress s).onDesc d fun x =>
                    { x with progress := x.progress + 1 })

/-- The work of a started descriptor is done (R107, R151, R161, R225, R418). -/
def Desc.finished (x : Desc) : Bool :=
  match x.kind with
  | 3 => decide ((xfOf x.raw).segments ≤ x.progress)
  | 4 => true
  | 6 => decide ((feedOf x.raw).segments ≤ x.progress)
  | 7 => decide ((pfOf x.raw).segments ≤ x.progress)
  | _ => x.progress != 0

/-- DESCRIPTOR_COMPLETE: a descriptor whose work is done writes its record and issues its signal, which crosses the network on CTL; a
chain's descriptors do so together (R107, R165, R368). -/
def execDescriptorComplete (d : DescId) (s : State) : Result State :=
  match s.desc d with
  | none => .next s
  | some (p, x) =>
    let running := match (s.core (p.core x)).prog with
      | some v => v.desc == d
      | none => false
    let (acct, die) := (d.pkg.acct.toNat, p.die x)
    if x.state != .started || !x.finished || (x.kind == 2 && running) then .next s
    else if x.kind == 1 then
      let chain := (p.chain d.idx.toNat).filterMap fun i => (p.descs[i]?).map fun y => (i, y)
      .next (s.carry (chain.flatMap fun y => signalMsgs s acct die y.2.signal) fun s =>
        chain.foldl (fun s y => completeDesc ⟨d.pkg, BitVec.ofNat 14 y.1⟩ y.2.result s) s)
    else .next (closeDesc d p x x.result s)

/-! ## Time limits and stops (R126, R173, R178, R185) -/

/-- A package waits at its prologue, in the phase of its cores, for a copy or a roll of its model (R338, R565). -/
def Pkg.atPrologue (p : Pkg) (s : State) : Bool :=
  (p.state == .loaded || p.state == .phaseWait) && p.phaseOpen s && (p.waitsRoll s || !p.modelOpen s)

/-- RUN_LIMIT_EXPIRY: the package stops with TIMEOUT, one that waits at its prologue too, and a HELD producer completes with
LINK_EXPIRED (R173, R185, R338). -/
def execRunLimitExpiry (p : PkgId) (s : State) : Result State :=
  match s.pkg p with
  | none => .next s
  | some q =>
    if q.state == .held then
      .next (endPkg p .ok (s.onPkg p fun q => { q with linkExpired := true, outFlags := q.outFlags ||| 0x20 }))
    else if q.running || q.atPrologue s then .next (beginStop p .timeout s)
    else .next s

/-- Every thread of a core's program that has not ended stops with its budget counted as spent. -/
def spendThreads (core : Nat) (s : State) : State :=
  let stop := fun (t : Thread) => match t.state with
    | .running | .waiting _ _ => { t with state := ThreadState.spent }
    | _ => t
  s.onCore core fun c => { c with threads := c.threads.map stop, prog := match c.prog with
    | some v => some { v with posted := [] }
    | none => none }

/-- VECTOR_TIME_LIMIT: a program that has run 50 ms is stopped and its package ends with TIMEOUT (R126, R173). -/
def execVectorTimeLimit (core : BitVec 7) (s : State) : Result State :=
  match (s.core core.toNat).prog with
  | none => .next s
  | some v =>
    let s := spendThreads core.toNat s
    let s := beginStop v.desc.pkg .timeout s
    .next (progEnd core.toNat (s.onCore core.toNat fun c => { c with threads := c.threads.map fun t => { t with state := .spent } }))

/-- BUDGET_EXHAUSTED: a thread that has issued BUDGET instructions without reaching HALT stops at once (R126). -/
def execBudgetExhausted (h : Hart) (s : State) : Result State :=
  match s.prog h with
  | none => .next s
  | some v =>
    let t := s.thread h
    let live := match t.state with
      | .running | .waiting _ _ => true
      | _ => false
    if live && decide (v.budget ≤ t.issued) then
      .next (progEnd h.core.toNat (s.onThread h fun u => { u with state := .spent }))
    else .next s

/-- FORCED_STOP: whatever of a stopping package still runs is forced to stop (R178). -/
def execForcedStop (p : PkgId) (s : State) : Result State :=
  match s.pkg p with
  | none => .next s
  | some q => .next (if q.state == .stopping then endPkg p q.status s else s)

/-! ## Commands of family 0x03xx (R153, R177, R180) -/

/-- WP_CANCEL: one that is ordered before the record, behind an earlier WP_CANCEL too, completes with OK after it (R180). -/
def execWpCancel (c : Cmd) (s : State) : Result State :=
  runCmd 0x302 c s fun s =>
    let id : PkgId := ⟨c.fn, BitVec.ofNat 32 (cmdU c 0 4)⟩
    if !cmdTail c 4 then fail .badArg s
    else match s.pkg id with
      | none => fail .notFound s
      | some p =>
        if p.state == .done || (p.state == .stopping && p.status != .cancelled) then fail .alreadyDone s
        else
          let s := beginStop id .cancelled s
          match s.pkg id with
          | some p => if p.state == .done then fail .ok s else .wait (.package (cmdA c) id.handle) s
          | none => fail .ok s

/-- WP_QUERY: the state and the record, until 4,096 later packages have completed (R177). (Log entry 133, DEDUCED.) -/
def execWpQuery (c : Cmd) (s : State) : Result State :=
  runCmd 0x303 c s fun s =>
    if !cmdTail c 4 then fail .badArg s
    else match s.pkg ⟨c.fn, BitVec.ofNat 32 (cmdU c 0 4)⟩ with
      | none => fail .notFound s
      | some p =>
        let r := if p.state == .done then p.record else padTo 64 ([0, 0, 0, 0] ++ leBytes 1 Status.busy.code)
        .done .ok (leBytes 1 p.state.code ++ [0, 0, 0] ++ r) s

/-- The account semaphore that a command names, within the quota (log entry 22, DEDUCED). -/
def semIndex (c : Cmd) (s : State) : Option Nat :=
  let i := cmdU c 0 2
  if decide (i < (s.acct (cmdA c)).quota.sems) then some i else none

/-- SEM_READ (R153, R164). -/
def execSemRead (c : Cmd) (s : State) : Result State :=
  runCmd 0x304 c s fun s => match semIndex c s with
    | none => fail .badArg s
    | some i => if !cmdTail c 2 then fail .badArg s
      else .done .ok (leBytes 4 (tgetD (s.acct (cmdA c)).sems i 0).toNat) s

/-- SEM_SET (R153, R164). -/
def execSemSet (c : Cmd) (s : State) : Result State :=
  runCmd 0x305 c s fun s => match semIndex c s with
    | none => fail .badArg s
    | some i => if !cmdTail c 8 || !cmdZ c 2 2 then fail .badArg s
      else fail .ok (s.onAcct (cmdA c) fun a => { a with sems := tset a.sems i (BitVec.ofNat 32 (cmdU c 4 4)) })

/-- SEM_SIGNAL: the response holds the value after the signal (R153, R164). -/
def execSemSignal (c : Cmd) (s : State) : Result State :=
  runCmd 0x306 c s fun s => match semIndex c s with
    | none => fail .badArg s
    | some i => if !cmdTail c 2 then fail .badArg s
      else
        let s := signalAcct (cmdA c) i s
        .done .ok (leBytes 4 (tgetD (s.acct (cmdA c)).sems i 0).toNat) s

end Sys2Proof.Machine
end

