-- ==== Sys2Proof/Machine/VecCheck.lean ====
section
/-!
DEFINITION. What the loader checks of the instruction words of a vector program (04 R125, R127 to R130).
-/
namespace Sys2Proof.Machine

/-- The window that an instruction names. -/
def VWord.window (x : VWord) : Option Nat :=
  match x.op with
  | 0x0F => if x.imm / 2 ^ 14 == 1 then some (x.imm % 8) else none
  | 0x10 | 0x11 => some (x.imm % 8)
  | 0x33 | 0x34 => some (x.b % 8)
  | 0x35 | 0x36 => some (x.lo % 8)
  | _ => none

/-- The accumulator that an instruction names. -/
def VWord.lacc (x : VWord) : Option Nat :=
  match x.op with
  | 0x30 | 0x33 => some x.d
  | 0x31 => some x.a
  | _ => none

/-- The semaphore entry plus one that an instruction waits for, or signals. -/
def VWord.waits (x : VWord) : Option Nat := if x.op == 0xE then some (x.imm % 256) else none
/-- The semaphore that SEMSIGNAL names. -/
def VWord.signals (x : VWord) : Option Nat := if x.op == 0xF && x.imm / 2 ^ 14 == 0 then some (x.imm % 256) else none

/-- A word of a program passes R125: its encoding, its branch target, its window, accumulator and semaphore. -/
def vwordOk (p : Pkg) (plen : Nat) (usedWin autoBad : Nat → Bool) (i w : Nat) : Bool :=
  let x := vwordOf w
  let inOpt := fun (o : Option Nat) (f : Nat → Bool) => match o with
    | some n => f n
    | none => true
  let target := (i : Int) + signed 16 x.imm
  (if x.isImm then x.immOk else x.regOk) &&
  (x.op != 0xC || (decide (0 ≤ target) && decide (target < plen))) &&
  inOpt x.window usedWin && inOpt x.lacc (fun n => !autoBad n) &&
  inOpt x.waits (fun e => decide (e ≤ p.sems.length)) && inOpt x.signals (fun e => decide (e ≤ p.sems.length))

/-- The core SRAM destination of a CODE region. -/
def codeDest (r : Region) : Nat := coreAddr r.core (64 * r.aux)

/-- The instruction words of a program, from the CODE region whose destination holds them (R168). -/
def programWords (s : State) (p : Pkg) (d : Desc) : List Nat :=
  let a := coreAddr (p.core d) (64 * bitField (d.u 0x10 4) 0 17)
  let n := bitField (d.u 0x14 4) 0 15
  match p.regions.find? fun r => r.role == 5 && decide (codeDest r ≤ a) && decide (a + 4 * n ≤ codeDest r + r.len) with
  | some r => (chunks 4 (s.read (r.base + (a - codeDest r)) (4 * n))).map leNat
  | none => []

/-- Windows of a VECTOR descriptor: base and length in bytes (R124). -/
def Desc.win (d : Desc) (i : Nat) : Nat × Nat :=
  let w := d.u (0x30 + 8 * i) 8
  (64 * bitField w 0 17, 64 * bitField w 32 18)

/-- A VECTOR descriptor passes R123 to R125. -/
def vectorOk (s : State) (p : Pkg) (d : Desc) : Bool :=
  let prog := d.u 0x10 4
  let plen := d.u 0x14 4
  let words := programWords s p d
  let code := (64 * prog, 4 * plen)
  decide (prog < 2 ^ 17) && decide (1 ≤ plen) && decide (plen ≤ 16384) && d.u 0x18 4 != 0 && decide (d.u 0x18 4 < 65536) &&
  d.u 0x1C 4 != 0 && zeroAt d.raw 0x20 16 && zeroAt d.raw 0xB0 16 &&
  ((List.range 8).all fun k =>
    let w := d.u (0x30 + 8 * k) 8
    let (b, n) := d.win k
    bitField w 17 15 == 0 && bitField w 50 14 == 0 && decide (n ≤ 64 * 131072) &&
    (n == 0 || (decide (b + n ≤ 2 ^ 23) && (decide (b + n ≤ code.1) || decide (code.1 + code.2 ≤ b))))) &&
  ((List.range 8).all fun k =>
    let w := d.u (0x70 + 8 * k) 8
    !anchorReserved (w % 2 ^ 16) && bitField w 48 16 == 0) &&
  (words.zipIdx.all fun w => vwordOk p plen (fun k => (d.win k).2 != 0)
    (fun k => anchorAuto (d.u (0x70 + 8 * k) 2) && d.u (0x72 + 8 * k) 4 == 0) w.2 w.1)

end Sys2Proof.Machine
end

