-- ==== Sys2Proof/Machine/Loader.lean ====
section
/-!
DEFINITION. The loader: the package image and the checks of WP_SUBMIT (05 R153 to R170).
-/
namespace Sys2Proof.Machine

/-! ## FAIL_INFO (R153) -/

/-- The index where no single entry is at fault. -/
def noIndex : Nat := 0xFFFFFF
/-- FAIL_INFO of a check and an index. -/
def failInfo (code idx : Nat) : Nat := code + 256 * idx
/-- A check of the whole package. -/
def whole (code : Nat) (ok : Bool) : Option Nat := if ok then none else some (failInfo code noIndex)
/-- A check of each entry of a table: the first that fails is at fault. -/
def each {α : Type} (code : Nat) (l : List α) (ok : Nat → α → Bool) : Option Nat :=
  (l.zipIdx.find? fun x => !ok x.2 x.1).map fun x => failInfo code x.2
/-- The first failing check of a list. (Log entry 134, DEDUCED.) -/
def firstFail : List (Option Nat) → Option Nat
  | [] => none
  | some f :: _ => some f
  | none :: r => firstFail r

/-! ## The header (R154) -/

/-- The package header. -/
structure Hdr where
  raw : Bytes
  deriving DecidableEq, Repr

/-- A field of the header. -/
def Hdr.u (h : Hdr) (off n : Nat) : Nat := fieldAt h.raw off n

/-- The header follows R154. -/
def Hdr.ok (h : Hdr) : Bool :=
  let table := fun (a : Nat) => addrOk a && a % 64 == 0
  h.u 0 2 == 1 && decide (h.u 2 2 ≤ 1) && decide (1 ≤ h.u 4 4) && decide (h.u 4 4 ≤ 16384) && decide (1 ≤ h.u 8 1) &&
  decide (h.u 0xA 1 ≤ 64) && h.u 0xB 1 == 0 && decide (1 ≤ h.u 0xC 4) && decide (h.u 0xC 4 ≤ 600000) &&
  table (h.u 0x10 8) && table (h.u 0x18 8) && table (h.u 0x20 8) && table (h.u 0x28 8) && table (h.u 0x30 8) &&
  (h.u 9 1 != 0 || h.u 0x18 8 == 0) && (h.u 0xA 1 != 0 || h.u 0x20 8 == 0) && zeroAt h.raw 0x3A 6 && zeroAt h.raw 0x48 56

/-! ## Descriptors of the image -/

/-- The length of a descriptor of a kind (R159). -/
def descLen : Nat → Option Nat
  | 1 | 5 => some 128
  | 2 => some 192
  | 3 | 4 | 6 | 7 => some 64
  | _ => none

/-- How the walk over the descriptors ends; `held` waits for a host link, and a failed read names what it read. -/
inductive Walk where
  | ok | denied | held | failed (a n : Nat)
  deriving DecidableEq, Repr

/-- What a read of the loader answers: nothing where it goes through. -/
def State.loaderRead (s : State) (a n : Nat) : Option Walk :=
  if s.hostWaits a then some .held else if s.readFails a n then some (.failed a n) else none

/-- Read `n` descriptors from an address, each in account memory; a descriptor of undefined kind, whose length is unknown,
is the last one read. -/
def walkDescs (s : State) (acct : Nat) : Nat → Nat → List Bytes × Walk
  | 0, _ => ([], .ok)
  | n + 1, a =>
    if !s.inAccount acct a 64 then ([], .denied)
    else match s.loaderRead a 64, descLen (s.byteAt a).toNat with
      | some w, _ => ([], w)
      | none, none => ([s.read a 64], .ok)
      | none, some len =>
        if !s.inAccount acct a len then ([], .denied)
        else match s.loaderRead a len with
          | some w => ([], w)
          | none =>
            let r := walkDescs s acct n (a + len)
            (s.read a len :: r.1, r.2)

/-! ## Regions (R155, R156, R320) -/

/-- The region that an entry declares on the partition's dies. -/
def regionOf (dies : List Nat) (b : Bytes) : Region :=
  let w := fieldAt b 0 8
  let cu := fieldAt b 0xE 2
  let space := bitField w 52 4
  let core := 16 * dies.getD (cu % 8) 0 + cu / 8 % 16
  { base := if space == 3 then coreAddr core (bitField w 0 52 % 2 ^ 24) else bitField w 0 52, len := 64 * fieldAt b 8 4,
    space := space, role := fieldAt b 0xC 2 % 8, core := core, aux := bitField (fieldAt b 0x10 8) 0 52 }

/-- A core in service on a die of the partition, by the UNIT word of an entry (R347, R354, R500). -/
def unitCoreOk (s : State) (dies : List Nat) (cu : Nat) : Bool :=
  let d := dies.getD (cu % 8) 0
  decide (cu % 8 < dies.length) && !(s.dieMem d).coreOut.contains (cu / 8 % 16) && !(s.dieMem d).dieOut &&
  (s.unit 2 (16 * d + cu / 8 % 16)).mgmt != 1 && (s.unit 1 d).mgmt != 1

/-- The address of a range names a weight window (R320). -/
def isWindow (a : Nat) : Bool := match locOf a with
  | some (.window _ _ _) => true
  | _ => false

/-- Check 0x03 of a region: the region and its shadow in account memory, core SRAM on a core in service of the partition
(R168, R317, R320, R347). -/
def regionHeld (s : State) (acct : Nat) (dies : List Nat) (b : Bytes) : Bool :=
  let r := regionOf dies b
  let cu := fieldAt b 0xE 2
  if decide (4 < r.space) || r.len == 0 then true
  else
    (if r.space == 3 then unitCoreOk s dies cu && decide (bitField (fieldAt b 0 8) 0 52 + r.len ≤ 2 ^ 23)
      else if isWindow r.base then rangeMapped r.base r.len
      else s.inAccount acct r.base r.len) &&
    (r.space != 2 || decide (cu % 8 < dies.length)) &&
    (r.role != 3 || s.inAccount acct r.aux r.len) &&
    (r.role != 5 || (unitCoreOk s dies cu && decide (64 * (r.aux % 2 ^ 17) + r.len ≤ 2 ^ 23)))

/-- The SPACE in which an address lies, with its die (R156, R343). -/
def spaceOf (a : Nat) : Option Nat := match locOf a with
  | some (.hbm _ _) | some (.window _ _ _) => some 0
  | some (.vault _ _) => some 1
  | some (.dieSram _ _) => some 2
  | some (.coreSram _ _) => some 3
  | some (.host _ _) => some 4
  | none => none

/-- Check 0x04 of a region (R155, R156). UNIT of a SPACE 2 region names a die alone, and a shadow is 64-byte aligned (log entries 152
and 153, DESIGN CHOICE). -/
def regionOk (dies : List Nat) (b : Bytes) : Bool :=
  let r := regionOf dies b
  let w := fieldAt b 0 8
  let role := fieldAt b 0xC 2
  let cu := fieldAt b 0xE 2
  let aux := fieldAt b 0x10 8
  let spaces : List Nat := match r.role with
    | 1 | 2 => [0, 1, 2, 4]
    | 3 => [0, 1]
    | 4 => [2, 3]
    | 5 => [0]
    | _ => []
  bitField w 56 8 == 0 && w % 64 == 0 && fieldAt b 8 4 != 0 && role / 16 == 0 && spaces.contains r.space &&
  (role / 8 % 2 == 1) == (r.role == 1 || r.role == 5) && (r.space == 3 || spaceOf r.base == some r.space) &&
  (if r.space == 3 || r.role == 5 then decide (cu < 128)
    else if r.space == 2 then decide (cu < 8) && dieOf r.base == dies[cu]? else cu == 0) &&
  (if r.role == 3 then addrOk aux && aux % 64 == 0 && spaceOf aux == some 0 && !isWindow aux
    else if r.role == 5 then decide (aux < 2 ^ 17) else aux == 0) && zeroAt b 0x18 8

/-- Check 0x05 (R168): region `i` against the regions before it, shadows against all. -/
def regionsApart (rs : List Region) (i : Nat) (r : Region) : Bool :=
  let written := fun (q : Region) => q.role == 2 || q.role == 3 || q.role == 4
  let fixed := fun (q : Region) => q.role == 1 || q.role == 5
  let meets := fun (a n : Nat) (q : Region) => rangesMeet a n q.base q.len
  (rs.zipIdx.all fun x => !decide (x.2 < i) || !((written r && fixed x.1) || (fixed r && written x.1)) ||
    !meets r.base r.len x.1) &&
  (r.role != 3 || rs.zipIdx.all fun x => !meets r.aux r.len x.1 &&
    (x.1.role != 3 || x.2 == i || !rangesMeet r.aux r.len x.1.aux x.1.len)) &&
  (r.role != 3 || decide (((rs.take (i + 1)).filter fun q => q.role == 3).map (·.len) |>.sum |> (· ≤ 2 ^ 30)))

/-- A region that names a window is IN and belongs to the package's model and phase (R320). -/
def windowOk (s : State) (p : Pkg) (r : Region) : Bool :=
  match locOf r.base with
  | some (.window slot gen _) =>
    r.role == 1 && p.model != 0 && s.slotOf p.id.acct.toNat p.model == some slot && gen == (p.phase == .generation)
  | _ => true

/-! ## Semaphores (R157, R166) -/

/-- Check 0x06 of a semaphore entry. -/
def semOk (s : State) (p : Pkg) (raw : List Bytes) (i : Nat) (x : SemEntry) : Bool :=
  let b := raw.getD i []
  let before := p.sems.take i
  fieldAt b 5 1 == 0 &&
  match x.kind with
  | 1 => decide (x.index < (s.acct p.id.acct.toNat).quota.sems) && x.rank == 0 && x.owner == 0
  | 2 => x.index == 0 && decide (x.rank < 32768) && x.owner == 0 && decide ((before.filter fun q => q.kind == 2).length < 64)
  | 3 => x.index == 0 && x.rank == 0 && (match p.descs[x.owner]? with
      | some d => d.kind == 2
      | none => false) && decide ((before.filter fun q => q.kind == 3 && q.owner == x.owner).length < 16)
  | _ => false

/-- The rank of a semaphore entry; PROGRAM semaphores have none. -/
def SemEntry.rankOf (x : SemEntry) : Int := if x.kind == 1 then x.index else if x.kind == 2 then x.rank else -1

/-- A semaphore entry by its number plus one. -/
def Pkg.sem (p : Pkg) (e : Nat) : Option SemEntry := if e == 0 then none else p.sems[e - 1]?

/-- What a descriptor signals: its header's semaphore and those of a program's instructions. -/
def Desc.signalled (s : State) (p : Pkg) (d : Desc) : List SemEntry :=
  let header := (p.sem d.signal).toList
  if d.kind == 2 then header ++ (programWords s p d).filterMap fun w => match (vwordOf w).signals with
    | some e => p.sem e
    | none => none
  else header

/-- The rule of PROGRAM semaphores in a program's words (R166). -/
def Desc.programSems (s : State) (p : Pkg) (i : Nat) (d : Desc) : Bool :=
  d.kind != 2 || (programWords s p d).all fun w =>
    let x := vwordOf w
    (match x.waits with
      | some e => match p.sem e with
        | some q => q.kind == 3 && q.owner == i
        | none => false
      | none => true) &&
    (match x.signals with
      | some e => match p.sem e with
        | some q => q.kind != 3 || q.owner == i
        | none => false
      | none => true)

/-- Check 0x09 of a descriptor (R166). -/
def orderOk (s : State) (p : Pkg) (i : Nat) (d : Desc) : Bool :=
  let waits := ((p.before i d).map (·.1) ++ [d]).filterMap fun q => p.sem q.wait
  let w := waits.foldl (fun m q => max m q.rankOf) (-1)
  let isProgram := fun (e : Nat) => match p.sem e with
    | some q => q.kind == 3
    | none => false
  ((d.signalled s p).all fun q => q.kind == 3 || decide (w < q.rankOf)) && !isProgram d.wait && !isProgram d.signal &&
  (d.wait == 0 || d.wait != d.signal) && !(d.kind == 1 && (d.pos == 2 || d.pos == 3) && d.wait != 0) && d.programSems s p i

/-! ## Tiles (R100 to R108) -/

/-- Operand planes of a tile: core SRAM offset and length. -/
def Opnd.planes (x : Opnd) (r k : Nat) : List (Nat × Nat) :=
  let (rows, cols) := if x.trans then (k, r) else (r, k)
  (x.off, (rows - 1) * x.stride + (cols * x.fmt.width + 7) / 8) ::
  (if x.fmt.isMx then
    [(x.soff, if x.trans then (k / 32 - 1) * x.sstride + r else (r - 1) * x.sstride + k / 32)] else [])

/-- Every operand plane of a descriptor, by core SRAM offset. -/
def Desc.planes (d : Desc) : List (Nat × Nat) :=
  (d.opnd false).planes d.tileM d.tileK ++ (d.opnd true).planes d.tileN d.tileK

/-- The ranges that a plane's store writes. -/
def OutPlane.ranges (o : OutPlane) (m n : Nat) : List (Nat × Nat) :=
  (o.addr, (m - 1) * o.stride + (n * o.fmt.width + 7) / 8) ::
  (if o.fmt.isMx then
    [(o.saddr, if o.alongM then (m / 32 - 1) * o.sstride + n else (m - 1) * o.sstride + n / 32)] else [])

/-- The largest image of a shape (R110). -/
def largestImage (elems : Nat) : Nat := (64 + 32 * elems + 63) / 64 * 64

/-- The ranges that a tile descriptor writes. -/
def Desc.tileWrites (d : Desc) : List (Nat × Nat) :=
  if d.pos == 1 || d.pos == 2 then []
  else
    (if d.ofmt == 0xA then [(bitField (d.u 0x38 8) 0 52, largestImage (d.tileM * d.tileN))]
      else d.outPlane.ranges d.tileM d.tileN) ++
    (if d.auxMode == 0 then [] else d.auxPlane.ranges d.tileM d.tileN)

/-- One operand's words follow R102. -/
def operandOk (d : Desc) (b : Bool) : Bool :=
  let o := if b then 0x24 else 0x18
  let ctl := d.u (o + 4) 4
  let scl := d.u (o + 8) 4
  let f := bitField ctl 0 4
  let mx := match Fmt.ofCode f with
    | some f => f.isMx
    | none => false
  decide (d.u o 4 < 2 ^ 17) && decide (1 ≤ f) && decide (f ≤ 9) && bitField ctl 5 3 == 0 && bitField ctl 8 8 != 0xFF &&
  bitField ctl 16 16 != 0 &&
  (if mx then bitField ctl 8 8 == 0 && bitField scl 17 15 != 0 && d.tileK % 32 == 0 else scl == 0)

/-- An output format with its conversion control, blocking and scale stride (R104, R105, R106). ABLK is zero with a format that has no
blocks (log entry 150, DESIGN CHOICE). -/
def outputOk (fmt cvt blk stride m n : Nat) : Bool :=
  match Fmt.ofCode fmt with
  | none => false
  | some f => decide (fmt ≤ 9) && (cvtOf cvt).isSome &&
    (if f.isMx then stride != 0 && (if blk == 1 then m else n) % 32 == 0 else blk == 0)

/-- The chain that opens or stands at a descriptor follows R107 and R108. No other tile of its queue stands on its arrays between its
FIRST and its LAST (log entry 151, DESIGN CHOICE). -/
def chainOk (p : Pkg) (i : Nat) (d : Desc) : Bool :=
  let c := p.chain i
  let ds := c.filterMap fun j => p.descs[j]?
  let word := fun (e : Desc) => (e.u 0x10 4, e.anchorWord, e.tensorId, e.u 0x1C 4 % 32, e.u 0x28 4 % 32, e.rgroup)
  let first := c.headD i
  let last := c.getLastD i
  d.pos == 0 ||
  (c.contains i && (ds.map (·.pos)) == 1 :: (List.replicate (c.length - 2) 2 ++ [3]) && decide (2 ≤ c.length) &&
   (ds.all fun e => word e == word d) && decide ((ds.map (·.tileK)).sum ≤ 1048576) &&
   (p.descs.zipIdx.all fun x => decide (x.2 ≤ first) || decide (last < x.2) || x.1.unit != d.unit || x.1.kind != 1 ||
     c.contains x.2 || x.1.arrays &&& d.arrays == 0))

/-- Ranges of a tile that a residual reads. -/
def Desc.resRange (d : Desc) : Nat × Nat :=
  (bitField (d.u 0x58 8) 0 52, (d.tileM - 1) * d.outPlane.stride + 4 * d.tileN)

/-- A TILE descriptor passes R106. -/
def tileOk (p : Pkg) (i : Nat) (d : Desc) : Bool :=
  let sh := d.u 0x10 4
  let k := d.u 0x14 4
  let epi := d.u 0x44 4
  let aux := d.u 0x70 4
  let oc := d.u 0x40 4
  let ends := d.pos == 0 || d.pos == 3
  let planes := (p.chain i).flatMap fun j => match p.descs[j]? with
    | some e => e.planes.map fun q => (coreAddr (p.core e) q.1, q.2)
    | none => []
  let res := d.resRange
  let out := d.outPlane.ranges d.tileM d.tileN
  bitField sh 7 1 == 0 && bitField sh 15 1 == 0 && bitField sh 20 12 == 0 && d.arrays != 0 && decide (1 ≤ k) &&
  decide (k ≤ 65536) && operandOk d false && operandOk d true && (d.planes.all fun q => decide (q.1 + q.2 ≤ 2 ^ 23)) &&
  !anchorReserved d.anchorWord && !(anchorAuto d.anchorWord && d.tensorId == 0) && bitField (d.u 0x32 2) 6 10 == 0 &&
  (if ends then
    bitField (d.u 0x38 8) 52 12 == 0 && bitField oc 9 7 == 0 && decide (epi / 64 = 0) && decide (bitField epi 2 4 ≤ 9) &&
    bitField (d.u 0x50 8) 53 11 == 0 && bitField (d.u 0x58 8) 52 12 == 0 && bitField (d.u 0x68 8) 52 12 == 0 &&
    bitField aux 3 1 == 0 && bitField aux 12 4 == 0 && d.auxMode != 3 &&
    (if d.ofmt == 0xA then bitField oc 4 5 == 0 && oc / 2 ^ 16 == 0 && epi == 0 && d.auxMode == 0
      else outputOk d.ofmt (bitField oc 4 4) (bitField oc 8 1) (bitField (d.u 0x48 8) 52 12) d.tileM d.tileN) &&
    (if d.auxMode == 0 then decide (bitField aux 4 4 ≤ 9) && (cvtOf (bitField aux 8 4)).isSome
      else outputOk (bitField aux 4 4) (bitField aux 8 4) (bitField aux 2 1) (bitField (d.u 0x60 8) 52 12) d.tileM d.tileN) &&
    (bitField epi 1 1 == 0 || (d.ofmt == 0 && ((out.any fun o => pieces o.1 o.2 == pieces res.1 res.2) || !(out.any fun o => rangesMeet o.1 o.2 res.1 res.2)))) &&
    (d.tileWrites.all fun w => spaceOf w.1 != some 3 || planes.all fun q => !rangesMeet w.1 w.2 q.1 q.2)
   else zeroAt d.raw 0x38 64 && d.pinCount == 0 && d.pinAddr == 0) &&
  chainOk p i d

/-! ## COLLECT and LFEED (R224, R415, R416) -/

/-- A COLLECT descriptor passes R415 and R416. -/
def collectOk (s : State) (p : Pkg) (d : Desc) : Bool :=
  let c := collOf d.raw
  let la := c.arith == 1
  let laForms := (c.inp == 1 || c.inp == 2) && (c.outp == 1 || c.outp == 2)
  let combo := match c.op with
    | 2 | 3 => if la then laForms else (c.arith == 2 || c.arith == 3) && c.inp == 1 && c.outp == 1
    | 1 | 4 | 5 | 6 => c.arith == 0 && c.inp == 0 && c.outp == 0
    | _ => false
  combo && d.u 0x12 1 / 16 == 0 && decide (c.jslot ≤ 15) && decide (c.drop ≤ 63) && (c.op == 1 || c.drop == 0) &&
  (c.op != 1 || c.group == 0) && (c.op == 1 || c.op == 3 || c.op == 4 || c.peer == 0) && c.cid != 0 && addrOk c.src &&
  addrOk c.dst && c.src % 64 == 0 && c.dst % 64 == 0 && decide (1 ≤ c.count) && decide (c.count ≤ 2 ^ 28) &&
  (if la then !anchorReserved c.anchor && !(anchorAuto c.anchor && c.tensor == 0) else c.anchor == 0) &&
  c.rgroup / 4096 == 0 && zeroAt d.raw 0x3C 68 && !(c.inp == 2 && decide (16384 < c.count)) &&
  match s.jobSlot p.id.acct.toNat c.jslot with
  | none => false
  | some js => decide (c.peer < js.table.length) && (c.op == 1 || match tget js.groups c.group with
    | none => false
    | some ms => ms.any fun m => m.part == js.part && m.die == d.unit % 8)

/-- An LFEED descriptor passes R224. -/
def lfeedOk (s : State) (p : Pkg) (d : Desc) : Bool :=
  let f := feedOf d.raw
  let mx := f.fmt == 5 || f.fmt == 6
  addrOk f.src && f.src % 64 == 0 && decide (f.tensor < 2 ^ 20) && decide (1 ≤ f.nrows) && decide (f.nrows ≤ 65536) &&
  f.col0 % 32 == 0 && decide (32 ≤ f.ncols) && decide (f.ncols ≤ 65536) && f.ncols % 32 == 0 &&
  [0, 1, 2, 5, 6].contains f.fmt && zeroAt d.raw 0x2D 3 && (mx || d.u 0x30 8 == 0) && zeroAt d.raw 0x3C 4 &&
  p.phase == .learning && match s.modelOf p.id.acct.toNat p.model with
  | none => false
  | some m => p.model != 0 && decide (f.tensor < m.map.tensors.length) && m.map.shards.any fun x =>
      x.tensor == f.tensor && x.part == m.map.part && x.die == d.unit % 8 && x.role == 0 &&
      decide (x.row0 ≤ f.row0) && decide (f.row0 + f.nrows ≤ x.row1 + 1) && decide (x.col0 ≤ f.col0) &&
      decide (f.col0 + f.ncols ≤ x.col1 + 1)

/-- A PREFETCH descriptor passes R163. -/
def prefetchOk (s : State) (p : Pkg) (d : Desc) : Bool :=
  let x := pfOf d.raw
  x.ok d.raw && p.model != 0 && match s.modelOf p.id.acct.toNat p.model with
  | none => true
  | some m => x.fits m.map (d.unit % 8)

/-- Check 0x07 of a descriptor (R159, R168). -/
def descOk (s : State) (p : Pkg) (i : Nat) (d : Desc) : Bool :=
  let cu := d.unit
  let engine := bitField cu 7 3
  let want := fun (e : Nat) => engine == e
  d.u 1 1 / 2 == 0 && cu / 2 ^ 10 == 0 && decide (engine ≤ 4) && (decide (engine < 2) || bitField cu 3 4 == 0) && d.u 6 2 == 0 &&
  decide (d.wait ≤ p.sems.length) && decide (d.signal ≤ p.sems.length) &&
  match d.kind with
  | 1 => want 0 && tileOk p i d
  | 2 => want 1 && vectorOk s p d
  | 3 => want 2 && (xfOf d.raw).ok d.raw
  | 4 => zeroAt d.raw 0x10 48
  | 5 => want 3 && collectOk s p d
  | 6 => want 4 && lfeedOk s p d
  | 7 => want 2 && prefetchOk s p d
  | _ => false

/-- The tensors that a descriptor contributes to, with their anchor words (R72). -/
def Desc.anchors (d : Desc) : List (Nat × Nat) :=
  (if d.kind == 1 then [(d.tensorId, d.anchorWord)]
    else if d.kind == 2 then (List.range 8).map fun k => (d.u (0x72 + 8 * k) 4, d.u (0x70 + 8 * k) 2)
    else if d.kind == 5 && d.u 0x11 1 == 1 then [(d.u 0x38 4, d.u 0x34 2)]
    else []).filter fun x => x.1 != 0

/-- The anchor word under which a tile or a collective contributes to its replay group's outputs. -/
def Desc.groupAnchor (d : Desc) : Nat := if d.kind == 1 then d.anchorWord else d.u 0x34 2
/-- The replay group of a descriptor, 0 for none. -/
def Desc.group (d : Desc) : Nat := if d.kind == 1 then d.rgroup else if d.kind == 5 then d.u 0x36 2 % 4096 else 0

/-- No descriptor up to this one contributes to a tensor of it, or to its replay group, under another anchor word (R72, R106). -/
def anchorsAgree (p : Pkg) (i : Nat) (d : Desc) : Bool :=
  ((p.descs.take i) ++ [d]).all fun e =>
    (d.anchors.all fun x => e.anchors.all fun y => y.1 != x.1 || y.2 == x.2) &&
    (d.group == 0 || e.group != d.group || e.groupAnchor == d.groupAnchor)

/-! ## Ranges (check 0x08) -/

/-- The ranges that a COLLECT writes on this part. -/
def collectWrites (s : State) (p : Pkg) (d : Desc) : List (Nat × Nat) :=
  let c := collOf d.raw
  match seatOf s p d c with
  | none => []
  | some t =>
    let elems := if c.outp == 2 then largestImage c.count else 4 * c.count
    match c.op with
    | 2 => [(c.dst, elems)]
    | 3 => if t.me == t.root then [(c.dst, elems)] else []
    | 4 => [(c.dst, 64 * c.count)]
    | 5 => [(c.dst, 64 * c.count * t.members.length)]
    | _ => []

/-- The ranges that a COLLECT reads. -/
def collectReads (s : State) (p : Pkg) (d : Desc) : List (Nat × Nat) :=
  let c := collOf d.raw
  match seatOf s p d c with
  | none => []
  | some t =>
    let elems := if c.inp == 2 then largestImage c.count else 4 * c.count
    match c.op with
    | 1 | 5 => [(c.src, 64 * c.count)]
    | 2 | 3 => [(c.src, elems)]
    | 4 => if t.me == t.root then [(c.src, 64 * c.count)] else []
    | _ => []

/-- The ranges that a descriptor writes. -/
def Desc.writes (s : State) (p : Pkg) (d : Desc) : List (Nat × Nat) :=
  match d.kind with
  | 1 => d.tileWrites
  | 2 => ((List.range 8).map d.win).filterMap fun w => if w.2 == 0 then none else some (coreAddr (p.core d) w.1, w.2)
  | 3 => let x := xfOf d.raw
    [(x.dst, extent x.rows x.len x.ds)]
  | 5 => collectWrites s p d
  | 7 => [((pfOf d.raw).dst, 64 * (pfOf d.raw).len)]
  | _ => []

/-- The images that a tile takes are replayable: they lie in an IN region outside core SRAM, or in an OUT or TEMP region
that only producers of its group write (R111, R116). -/
def pinsOk (s : State) (p : Pkg) (d : Desc) : Bool :=
  let n := d.pinCount * largestImage (d.tileM * d.tileN)
  d.pinCount == 0 || (p.inRoles [1] d.pinAddr n && spaceOf d.pinAddr != some 3) ||
  (d.rgroup != 0 && p.regions.any fun r => (r.role == 2 || r.role == 4) && rangeIn d.pinAddr n r.base r.len &&
    p.descs.all fun e => e.produces d.rgroup || (e.writes s p).all fun w => !rangesMeet w.1 w.2 r.base r.len)

/-- Check 0x08 of a descriptor (R168). -/
def rangesOk (s : State) (p : Pkg) (d : Desc) : Bool :=
  let temp := fun (a n : Nat) => p.inRoles [4] a n
  match d.kind with
  | 1 =>
    let epi := d.u 0x44 4
    let bias := bitField (d.u 0x50 8) 0 52
    let blen := (if bitField (d.u 0x50 8) 52 1 == 1 then 2 else 4) * d.tileN
    (d.planes.all fun q => temp (coreAddr (p.core d) q.1) q.2) && (d.tileWrites.all fun w => p.inRoles writeRoles w.1 w.2) &&
    (bitField epi 0 1 == 0 || (p.inRoles [1] bias blen && spaceOf bias != some 3)) &&
    (bitField epi 1 1 == 0 || p.inRoles readRoles d.resRange.1 d.resRange.2) && pinsOk s p d
  | 2 =>
    ((d.writes s p).all fun w => temp w.1 w.2) &&
    (let a := coreAddr (p.core d) (64 * bitField (d.u 0x10 4) 0 17)
     p.regions.any fun r => r.role == 5 && rangeIn a (4 * bitField (d.u 0x14 4) 0 15) (codeDest r) r.len)
  | 3 => (xfOf d.raw).inside p
  | 5 => ((collectReads s p d).all fun w => p.inRoles readRoles w.1 w.2) &&
    (collectWrites s p d).all fun w => p.inRoles writeRoles w.1 w.2
  | 6 => (feedOf d.raw).ranges.all fun w => p.inRoles readRoles w.1 w.2 && spaceOf w.1 == some 0 && dieOf w.1 == some (p.die d)
  | 7 => (d.writes s p).all fun w => temp w.1 w.2
  | _ => true

/-! ## Replay groups and links (R117, R158, R185) -/

/-- A descriptor consumes the images of its replay group. -/
def Desc.consumes (d : Desc) : Bool :=
  d.group != 0 && ((d.kind == 1 && (d.pos == 0 || d.pos == 3) && d.ofmt != 0xA) || (d.kind == 5 && bitField (d.u 0x12 1) 2 2 != 2))

/-- Check 0x0A of a descriptor: its group's one consumer is in this package, or in the package that a producer link leads
to. -/
def groupOk (p : Pkg) (i : Nat) (d : Desc) : Bool :=
  let g := d.group
  let before := p.descs.zipIdx.filter fun x => decide (x.2 < i) && x.1.group == g && x.1.consumes
  let all_ := p.descs.filter fun x => x.group == g && x.consumes
  let away := p.links.any fun l => l.rgroup == g && !l.consumer
  g == 0 || ((!d.consumes || (before.isEmpty && !away)) && (away || !all_.isEmpty))

/-- Check 0x0A of a link. -/
def linkOk (s : State) (p : Pkg) (raw : List Bytes) (i : Nat) (l : LinkEntry) : Bool :=
  let b := raw.getD i []
  l.rkey != 0 && l.rgroup != 0 && fieldAt b 4 2 / 2 ^ 13 == 0 && fieldAt b 6 2 == 0 &&
  (if l.consumer then
    (p.descs.any fun d => d.group == l.rgroup && d.consumes) &&
    !((p.links.take i).any fun q => q.consumer && q.rkey == l.rkey) &&
    !(s.pkgs.any fun q => q.id.acct == p.id.acct && q.resident && q.links.any fun k => k.consumer && k.rkey == l.rkey)
   else true)

/-! ## Resources and conflicts (R170, R354, R564) -/

/-- The counts of a descriptor (R170). -/
def Desc.counts (d : Desc) : Nat := if d.kind == 2 then 65 else 1

/-- The descriptor counts and the PACKAGE and PROGRAM semaphores that an account holds. -/
def State.descsHeld (s : State) (acct : Nat) : Nat :=
  ((s.pkgs.filter fun p => p.id.acct.toNat == acct && p.resident).map fun p =>
    ((p.descs.filter fun d => d.state != .done).map Desc.counts).sum).sum
/-- The PACKAGE and PROGRAM semaphores that an account holds. -/
def State.psemsHeld (s : State) (acct : Nat) : Nat :=
  ((s.pkgs.filter fun p => p.id.acct.toNat == acct && p.resident).map fun p => (p.sems.filter fun x => x.kind != 1).length).sum
/-- The resident packages of an account. -/
def State.residents (s : State) (acct : Nat) : Nat := (s.pkgs.filter fun p => p.id.acct.toNat == acct && p.resident).length

/-- The tensors that a package names: tiles, vector anchor slots and collectives (R564). -/
def Pkg.tensors (p : Pkg) : List Nat :=
  (p.descs.flatMap fun d =>
    if d.kind == 1 then [d.tensorId]
    else if d.kind == 2 then (List.range 8).map fun k => d.u (0x72 + 8 * k) 4
    else if d.kind == 5 then [d.u 0x38 4] else []).filter (· != 0) |>.dedup

/-- The amax table that a package uses, and its room. -/
def amaxTable (s : State) (p : Pkg) : Tbl Amax × Nat :=
  if p.model == 0 then ((s.acct p.id.acct.toNat).amax, 1024)
  else match s.modelOf p.id.acct.toNat p.model with
    | some m => (m.amax, 16384)
    | none => ([], 16384)

/-- The tensors that need a new entry. -/
def newTensors (s : State) (p : Pkg) : List Nat := p.tensors.filter fun t => (tget (amaxTable s p).1 t).isNone

/-- A descriptor names no unit out of service or fenced: its die, and the core that it names, a SYNC's too (R354, R502). -/
def inService (s : State) (p : Pkg) (d : Desc) : Bool :=
  let m := s.dieMem (p.die d)
  !m.dieOut && s.unitServes 1 (p.die d) &&
  (!d.namesCore || (!m.coreOut.contains (d.unit / 8 % 16) && s.unitServes 2 (p.core d)))

/-- On-die space that a region takes lies on a die in service (R354). -/
def spaceServes (s : State) (r : Region) : Bool :=
  if r.role == 5 || r.space == 3 then !(s.dieMem (r.core / 16)).dieOut && !(s.dieMem (r.core / 16)).coreOut.contains (r.core % 16)
  else r.space != 2 || match dieOf r.base with
    | some d => !(s.dieMem d).dieOut
    | none => true

/-- Check 0x0B of the whole package. -/
def poolsOk (s : State) (p : Pkg) : Bool :=
  let a := p.id.acct.toNat
  let q := (s.acct a).quota
  decide (s.descsHeld a + (p.descs.map Desc.counts).sum ≤ q.descs) &&
  decide (s.psemsHeld a + (p.sems.filter fun x => x.kind != 1).length ≤ q.psems) &&
  decide (s.residents a < min 64 q.pkgs) && decide ((s.pkgs.filter Pkg.resident).length < 4096) &&
  decide ((amaxTable s p).1.length + (newTensors s p).length ≤ (amaxTable s p).2)

/-- The on-die space that a region holds: a TEMP region, or a CODE destination. -/
def Region.held (r : Region) : Option (Nat × Nat) :=
  if r.role == 4 then some (r.base, r.len) else if r.role == 5 then some (codeDest r, r.len) else none

/-- Check 0x0D of a region (R168). -/
def noConflict (s : State) (p : Pkg) (r : Region) : Bool :=
  let others := s.pkgs.filter Pkg.resident
  let mine := others.filter fun q => q.id.acct == p.id.acct
  let clash := fun (roles : List Nat) => mine.any fun q => q.regions.any fun x =>
    roles.contains x.role && rangesMeet r.base r.len x.base x.len
  (match r.held with
    | some (a, n) => !(others.any fun q => q.regions.any fun x => match x.held with
      | some (b, m) => rangesMeet a n b m
      | none => false)
    | none => true) &&
  !(r.role == 3 && clash [1, 2, 3]) && !(r.role == 1 && clash [3])

/-! ## WP_SUBMIT -/

/-- The package that an image declares. -/
def pkgOf (s : State) (acct : BitVec 10) (h : Hdr) (regs sems links descs : List Bytes) : Pkg :=
  let dies := s.acctDies acct.toNat
  { id := ⟨acct, (s.acct acct.toNat).nextPkg⟩, order := s.pkgOrder, phase := if h.u 2 2 == 1 then .generation else .learning,
    runLimit := h.u 0xC 4, compl := h.u 0x30 8, model := h.u 0x38 2, tag := BitVec.ofNat 64 (h.u 0x40 8),
    regions := regs.map (regionOf dies), implicit := [],
    sems := sems.map fun b => ⟨fieldAt b 0 2, fieldAt b 2 2, fieldAt b 4 1, fieldAt b 6 2, 0⟩,
    links := links.map fun b => ⟨BitVec.ofNat 32 (fieldAt b 0 4), fieldAt b 4 2 % 4096, fieldAt b 4 2 / 4096 % 2 == 1⟩,
    descs := descs.map fun b =>
      { raw := b, state := .queued, status := .ok, result := 0, tStart := 0, elapsed := 0, waited := false, signals := [],
        passed := [], progress := 0 }, dies := dies, state := .loaded, status := .ok,
    replays := 0, outFlags := 0, epoch := 0, tStart := 0, tEnd := 0, shadowed := false, linkExpired := false, record := [],
    endOrder := 0, endMark := 0, block := [], sampleAt := 0, sampled := [] }

/-- The status of a check (R168). -/
def checkStatus (info : Nat) : Status :=
  match info % 256 with
  | 3 => .denied
  | 0xB => .noResource
  | 0xC => .refusedState
  | 0xD => .busy
  | _ => .badArg

/-- An image that the loader has read: the package, its raw region, semaphore and link entries, and NDESC. -/
structure PkgImage where
  pkg   : Pkg
  regs  : List Bytes
  sems  : List Bytes
  links : List Bytes
  ndesc : Nat
  deriving DecidableEq, Repr

/-- Checks 0x03 to 0x0D of an image, in order. -/
def packageChecks (s : State) (im : PkgImage) : List (Option Nat) :=
  let p := im.pkg
  let a := p.id.acct.toNat
  [
    each 3 im.regs fun _ b => regionHeld s a p.dies b,
    whole 3 (s.inGrants a p.compl (64 + 16 * im.ndesc) && spaceOf p.compl == some 0 &&
      match dieOf p.compl with
      | some d => p.dies.contains d
      | none => false),
    each 3 p.descs fun _ d => decide (d.unit % 8 < p.dies.length),
    each 4 im.regs fun _ b => regionOk p.dies b,
    each 5 p.regions fun i r => regionsApart p.regions i r,
    each 6 p.sems fun i x => semOk s p im.sems i x,
    each 7 p.descs fun i d => descOk s p i d && anchorsAgree p i d,
    each 8 p.regions fun _ r => windowOk s p r,
    each 8 p.descs fun _ d => rangesOk s p d,
    each 9 p.descs fun i d => orderOk s p i d,
    each 0xA p.descs fun i d => groupOk p i d,
    each 0xA p.links fun i l => linkOk s p im.links i l,
    each 0xB p.descs fun _ d => inService s p d,
    each 0xB p.regions fun _ r => spaceServes s r,
    whole 0xB (poolsOk s p),
    whole 0xC (p.model == 0 || match s.modelOf a p.model with
      | some m => m.w.ready
      | none => false),
    each 0xD p.regions fun _ r => noConflict s p r]

/-- New amax entries of an accepted package (R564). -/
def addTensors (p : Pkg) (ts : List Nat) (s : State) : State :=
  let add := fun (t : Tbl Amax) => ts.foldl (fun t k => tset t k ⟨0, 0, 0⟩) t
  if p.model == 0 then s.onAcct p.id.acct.toNat fun a => { a with amax := add a.amax }
  else match s.slotOf p.id.acct.toNat p.model with
    | some k => s.onModel k fun m => { m with amax := add m.amax }
    | none => s

/-- A package is accepted: its records are written BUSY, and it waits for its prologue (R168, R172, R176). -/
def acceptPkg (p : Pkg) (s : State) : State :=
  let s := addTensors p (newTensors s p) s
  let s := s.onAcct p.id.acct.toNat fun a => { a with nextPkg := if a.nextPkg == 0xFFFFFFFF then 1 else a.nextPkg + 1 }
  let s := { s with pkgs := s.pkgs ++ [p], pkgOrder := s.pkgOrder + 1 }
  putRecord p.id.acct.toNat p.compl (busyRecords p) s

/-- What reading an image answers: a status with FAIL_INFO, a read that failed or waits for a host link, or the image. -/
inductive Load where
  | fail (st : Status) (info : Nat)
  | read (w : Walk)
  | image (im : PkgImage)
  deriving DecidableEq, Repr

/-- Read the image whose header stands at an address (R153, R154, R169). -/
def loadImage (s : State) (acct : BitVec 10) (a : Nat) : Load :=
  let n := acct.toNat
  let bad := fun (info : Nat) => Load.fail (checkStatus info) info
  if a % 64 != 0 then bad (failInfo 2 noIndex)
  else if !s.inAccount n a 128 then bad (failInfo 3 noIndex)
  else match s.loaderRead a 128 with
  | some w => .read w
  | none =>
    let h : Hdr := ⟨s.read a 128⟩
    if !h.ok then bad (failInfo 2 noIndex)
    else
      let tables := [(h.u 0x10 8, 32 * h.u 8 1), (h.u 0x18 8, 8 * h.u 9 1), (h.u 0x20 8, 8 * h.u 0xA 1)]
      let tables := tables.filter fun t => t.2 != 0
      let (descs, w) := walkDescs s n (h.u 4 4) (h.u 0x28 8)
      if (tables.any fun t => !s.inAccount n t.1 t.2) || w == .denied then bad (failInfo 3 noIndex)
      else match (tables.filterMap fun t => s.loaderRead t.1 t.2).head?, w with
      | some x, _ => .read x
      | none, .held => .read w
      | none, .failed _ _ => .read w
      | none, _ =>
        let regs := chunks 32 (s.read (h.u 0x10 8) (32 * h.u 8 1))
        let sems := chunks 8 (s.read (h.u 0x18 8) (8 * h.u 9 1))
        let links := chunks 8 (s.read (h.u 0x20 8) (8 * h.u 0xA 1))
        .image ⟨pkgOf s acct h regs sems links descs, regs, sems, links, h.u 4 4⟩

/-- The ranges that the loader reads of an image at an address: its header, its tables, its descriptors and its programs (R169). -/
def imageReads (s : State) (a : Nat) (p : Pkg) : List (Nat × Nat) :=
  let h : Hdr := ⟨s.read a 128⟩
  [(a, 128), (h.u 0x10 8, 32 * h.u 8 1), (h.u 0x18 8, 8 * h.u 9 1), (h.u 0x20 8, 8 * h.u 0xA 1),
    (h.u 0x28 8, (p.descs.map (·.raw.length)).sum)] ++ (p.regions.filter fun r => r.role == 5).map fun r => (r.base, r.len)

/-- Some program that the loader must read lies in memory that fails (R169). -/
def codeFails (s : State) (p : Pkg) : Bool := p.regions.any fun r => r.role == 5 && s.readFails r.base r.len

/-- What the failed reads of programs found is repaired and poisoned (R355). -/
def discoverCode (p : Pkg) (s : State) : State :=
  p.regions.foldl (fun s r => if r.role == 5 then s.discover r.base r.len else s) s

/-- WP_SUBMIT (R153, R168, R169). (Log entry 119, DEDUCED.) -/
def execWpSubmit (c : Cmd) (s : State) : Result State :=
  runCmd 0x301 c s fun s =>
    let a := cmdU c 0 8
    let end_ := fun (st : Status) (info : Nat) (s : State) => Res.done st (leBytes 4 0 ++ leBytes 4 info) s
    let stop := fun (st : Status) (info : Nat) => end_ st info s
    if s.acctResetting (cmdA c) then stop .refusedState (failInfo 1 noIndex)
    else if !cmdTail c 8 || !addrOk a then stop .badArg (failInfo 2 noIndex)
    else match loadImage s c.fn a with
      | .fail st info => stop st info
      | .read (.failed b n) => end_ .dataError 0 (s.discover b n)
      | .read _ => .hold
      | .image im =>
        match firstFail (packageChecks s im) with
        | some info => stop (checkStatus info) info
        | none =>
          if codeFails s im.pkg then end_ .dataError 0 (discoverCode im.pkg s)
          else .done .ok (leBytes 4 im.pkg.id.handle.toNat ++ leBytes 4 0)
            ((acceptPkg im.pkg s).took (cmdA c) (imageReads s a im.pkg))

end Sys2Proof.Machine
end

