-- ==== Sys2Proof/Machine/Stream.lean ====
section
/-!
DEFINITION. What a Stream Engine computes in a decode step (08 R248 to R256): the copy it reads, the layers, attention over
KV rows, and how the tokens of a step are decided (R277).
-/
namespace Sys2Proof.Machine

/-! ## The decode plan (R251) -/

/-- A field of a plan's header. -/
def planU (p : Bytes) (off n : Nat) : Nat := fieldAt p off n
/-- A field of a layer entry. -/
def layerU (p : Bytes) (l off n : Nat) : Nat := fieldAt p (64 + 64 * l + off) n
/-- A tensor number that a plan gives, none for 0xFFFFFFFF. -/
def planTensor (v : Nat) : Option Nat := if v == 0xFFFFFFFF then none else some v
/-- The tensors that a plan names. -/
def planTensors (p : Bytes) : List Nat :=
  ([8, 0xC, 0x10, 0x14].map fun o => planU p o 4) ++
  ((List.range (planU p 2 2)).flatMap fun l => [0, 4, 8, 0xC, 0x10, 0x14, 0x18, 0x1C].map fun o => layerU p l o 4)
  |>.filter (· != 0xFFFFFFFF)

/-! ## The generation copy -/

/-- A copy as a wave reads it: the window slot, the map, the weights' record and the epoch. -/
structure Copy where
  slot  : Nat
  map   : ModelMap
  w     : Weights
  epoch : Nat
  deriving DecidableEq, Repr

/-- The anchor of a tensor in the copy's anchor table (R250). -/
def Copy.anchor (c : Copy) (t : Nat) : Int :=
  signed 10 ((if c.epoch == c.w.epoch then c.w.anchors else c.w.oldAnchors).getD t 0)

/-- A shard holds an element of a tensor. -/
def Shard.covers (x : Shard) (t r col : Nat) : Bool :=
  x.tensor == t && decide (x.row0 ≤ r) && decide (r ≤ x.row1) && decide (x.col0 ≤ col) && decide (col ≤ x.col1)

/-- The value of an element that another part of the group holds: its code and scale are the copy's, which this part does not see,
and the products that it enters are those of R253 (R38, R249, log entry 29, DESIGN CHOICE). -/
def Copy.remote (c : Copy) (t r col : Nat) : Val :=
  let ten := c.map.tensor t
  let f := ten.gfmt
  let v := f.layout.decode (Config.remoteElem c.map.job c.map.num c.epoch t r col % 2 ^ f.width)
  let (sr, sc) := if ten.gblk then (col, r) else (r, col)
  if f.isMx then v.inBlock (Config.remoteScale c.map.job c.map.num c.epoch t sr (sc / 32) % 256) else v

/-- The value of an element of a tensor in the copy. -/
def Copy.elem (c : Copy) (m : Memory) (t r col : Nat) : Val :=
  let ten := c.map.tensor t
  match c.map.gshards.zipIdx.find? fun x => x.1.part == c.map.part && x.1.covers t r col with
  | none => if c.map.gshards.any fun x => x.covers t r col then c.remote t r col else .nan
  | some (x, i) =>
    let (sr, sc) := if ten.gblk then (col - x.col0, r - x.row0) else (r - x.row0, col - x.col0)
    let f := ten.gfmt
    let key := fun (off : Nat) => windowKey c.slot true c.w c.epoch (x.die * 2 ^ 37 + off)
    let bit := sc * f.width
    let b := leNat (Memory.bytes m (key (genOff c.map i + sr * genStride ten x + bit / 8)) ((bit % 8 + f.width + 7) / 8))
    let v := f.layout.decode (bitField b (bit % 8) f.width)
    if f.isMx then v.inBlock (Memory.get m (key (genSOff c.map i + sr * genSStride ten x + sc / 32))).toNat else v

/-- The first `n` elements of a row of a tensor. -/
def Copy.row (c : Copy) (m : Memory) (t r n : Nat) : List Val := (List.range n).map fun k => c.elem m t r k

/-! ## Arithmetic of a step (R253, R254) -/

/-- One LA192 reduction, rounded once (R61 to R67). -/
def laReduce (A : Int) (vs : List Val) : LaOut :=
  (La.choose ((passAnchors A).map fun a => (a, La.ofVals a vs)) 0).2

/-- Values with the conditions met on the way. -/
abbrev Met (α : Type) := α × Conds

/-- The conditions of reductions. -/
def metLa (os : List LaOut) : Met (List Word) := (os.map (·.word), os.foldl (fun c o => c.add o.conds) Conds.zero)

/-- A vector converted to a format along the row, RNE with SAT = 1 (R253). -/
def toOperand (f : Fmt) (ws : List Word) : Met (List Val) :=
  if f.isMx then
    let bs := (chunks 32 (ws.map ofF32)).map fun b => (b, mxPack f b)
    let sat := fun (b : List Val × MxBlock) => if b.2.scale == 0xFF then 0
      else (b.1.filter fun v => (convert f .rne true (v.scale (127 - (b.2.scale : Int)))).ovf).length
    (bs.flatMap fun b => mxUnpack f b.2,
      { Conds.zero with mxNan := (bs.filter fun b => b.2.scale == 0xFF).length, cvtSat := (bs.map sat).sum })
  else
    let cs := ws.map fun w => convert f .rne true (ofF32 w)
    (cs.map fun c => f.layout.decode c.code, { Conds.zero with cvtSat := (cs.filter (·.ovf)).length })

/-- The product of an operand with rows of a tensor, each one reduction at the tensor's anchor (R253). -/
def Copy.product (c : Copy) (m : Memory) (t r0 rows : Nat) (a : List Val) : Met (List Word) :=
  metLa ((List.range rows).map fun r =>
    laReduce (c.anchor t) (List.zipWith Val.mul a (c.row m t (r0 + r) a.length)))

/-- An FP32 word of a number. -/
def f32Nat (n : Nat) : Word := toF32 (Val.ofInt (n : Int))

/-- NORM over a row (R254): RMS, or LAYER with its bias where the plan gives one. -/
def Copy.norm (c : Copy) (m : Memory) (layer : Bool) (eps : Word) (g : Nat) (b : Option Nat) (x : List Word) : Met (List Word) :=
  let d := x.length
  let A := c.anchor g
  let gs := (c.row m g 0 d).map toF32
  let bs := match b with
    | some t => (c.row m t 0 d).map toF32
    | none => List.replicate d 0
  let sq := fun (x : List Word) => laReduce A (x.map fun w => (ofF32 w).mul (ofF32 w))
  let rs := fun (s : Word) => libFn .rsqrt (f32Add (f32Div s (f32Nat d)) eps)
  if layer then
    let s0 := laReduce A (x.map ofF32)
    let mu := f32Div s0.word (f32Nat d)
    let cs := x.map fun w => f32Sub w mu
    let s1 := sq cs
    let r := rs s1.word
    let y := (cs.zip (gs.zip bs)).map fun p =>
      toF32 ((ofF32 (f32Mul p.1 r)).fma (ofF32 p.2.1) (ofF32 p.2.2))
    (y, s0.conds.add s1.conds)
  else
    let s1 := sq x
    let r := rs s1.word
    (List.zipWith (fun w g => f32Mul (f32Mul w r) g) x gs, s1.conds)

/-- Rotate one head at a position (R253). -/
def rotate (base : Word) (pos : Nat) (head : List Word) : List Word :=
  let n := head.length
  (chunks 2 head).zipIdx.flatMap fun p =>
    let u := p.1.getD 0 0
    let v := p.1.getD 1 0
    let f := f32Div (f32Nat (2 * p.2)) (f32Nat n)
    let w := libFn .exp2 ((f32Mul f (libFn .log2 base)) ^^^ 0x80000000)
    let th := f32Mul (f32Nat pos) w
    let cs := libFn .cos th
    let sn := libFn .sin th
    [f32Sub (f32Mul u cs) (f32Mul v sn), f32Add (f32Mul u sn) (f32Mul v cs)]

/-! ## KV rows (R251, R285) -/

/-- The bytes of a KV row: the elements, under MXFP8 the scales after them, and zeros; with the conditions that the conversion met
(R57, R253). -/
def kvRowBytes (k : KvSet) (ws : List Word) : Met Bytes :=
  let f := (Fmt.ofCode k.kvFmt).getD .bf16
  let body := if f.isMx then
      let bs := (chunks 32 (ws.map ofF32)).map (mxPack f)
      leBytes ws.length (packBits 8 (bs.flatMap (·.elems))) ++ bs.map fun b => BitVec.ofNat 8 b.scale
    else ws.flatMap fun w => leBytes 2 (convert f .rne true (ofF32 w)).code
  (padTo k.kvRow body, (toOperand f ws).2)

/-- The elements of one kv head in a row of `n` elements. -/
def kvHead (k : KvSet) (row : Bytes) (n g hd : Nat) : List Val :=
  let f := (Fmt.ofCode k.kvFmt).getD .bf16
  (List.range hd).map fun e =>
    let i := g * hd + e
    if f.isMx then
      let sc := fieldAt row (n + i / 32) 1
      (f.layout.decode (fieldAt row i 1)).inBlock sc
    else f.layout.decode (fieldAt row (2 * i) 2)

/-- The address of the K row, or the V row, of a layer in a slot of a sequence. -/
def rowAddr (s : State) (q : Seq) (k : KvSet) (l slot : Nat) (v : Bool) : Nat :=
  match q.pages[slot / k.ptok]? with
  | none => 0
  | some p => s.pageAddr p.loc + ((2 * l + (if v then 1 else 0)) * k.ptok + slot % k.ptok) * k.kvRow

/-! ## A position (R253, R255) -/

/-- The output of attention for one query head over the slots before a position (R255). -/
def attendHead (s : State) (q : Seq) (k : KvSet) (l n g hd j : Nat) (sanch vanch : Int) (qh : List Word) : Met (List Word) :=
  let slots := List.range j
  let ks := slots.map fun p => kvHead k (s.read (rowAddr s q k l p false) k.kvRow) n g hd
  let vs := slots.map fun p => kvHead k (s.read (rowAddr s q k l p true) k.kvRow) n g hd
  let sg := ks.map fun kp => laReduce sanch (List.zipWith Val.mul (qh.map ofF32) kp)
  let sc := libFn .rsqrt (f32Nat hd)
  let zs := sg.map fun o => f32Mul o.word sc
  let m := match zs with
    | [] => 0
    | z :: r => r.foldl (fun a b => f32Op Val.max a b) z
  let ws := zs.map fun z => libFn .exp (f32Sub z m)
  let S := La.finish 0 (La.ofVals 0 (ws.map ofF32))
  let ns := (List.range hd).map fun e =>
    laReduce vanch (List.zipWith (fun w (v : List Val) => (ofF32 w).mul (v.getD e .nan)) ws vs)
  let c := (sg ++ ns).foldl (fun c o => c.add o.conds) Conds.zero
  (ns.map fun o => f32Div o.word S.word, c)

/-- One layer of a position: the KV rows it writes, on STREAM credits, and the residual stream after it (R253 step 2, R358, R359). -/
def layerStep (c : Copy) (plan : Bytes) (k : KvSet) (q : Seq) (j l : Nat) (x : List Word) (s : State) : State × Met (List Word) :=
  let u := fun (off n : Nat) => layerU plan l off n
  let layer := planU plan 0x18 1 == 2
  let eps := BitVec.ofNat 32 (planU plan 0x1C 4)
  let af := (Fmt.ofCode (planU plan 0x19 1)).getD .bf16
  let base := BitVec.ofNat 32 (planU plan 0x20 4)
  let (nh, nkv, hd) := (u 0x20 2, u 0x22 2, u 0x24 2)
  let (y, c0) := c.norm s.mem layer eps (u 0 4) (planTensor (u 4 4)) x
  let (a0, c1) := toOperand af y
  let (qkv, c2) := c.product s.mem (u 8 4) 0 ((nh + 2 * nkv) * hd) a0
  let heads := chunks hd qkv
  let rot := fun (h : List Word) => if base == 0 then h else rotate base (j - 1) h
  let qs := (heads.take nh).map rot
  let ks := ((heads.drop nh).take nkv).map rot
  let vs := heads.drop (nh + nkv)
  let (kb, ck) := kvRowBytes k ks.flatten
  let (vb, cv) := kvRowBytes k vs.flatten
  let rows := [rowAddr s q k l (j - 1) false, rowAddr s q k l (j - 1) true]
  let s := s.charge .stream q.acct (rows.map fun a => (a, k.kvRow))
  let s := s.write (rows.getD 0 0) kb
  let s := s.write (rows.getD 1 0) vb
  let outs := qs.zipIdx.map fun h =>
    attendHead s q k l (nkv * hd) (h.2 * nkv / nh) hd j (signed 10 (u 0x2C 2)) (signed 10 (u 0x2E 2)) h.1
  let c3 := outs.foldl (fun c o => c.add o.2) Conds.zero
  let (a1, c4) := toOperand af (outs.flatMap (·.1))
  let (po, c5) := c.product s.mem (u 0xC 4) 0 x.length a1
  let x := List.zipWith f32Add x po
  let (y2, c6) := c.norm s.mem layer eps (u 0x10 4) (planTensor (u 0x14 4)) x
  let (a2, c7) := toOperand af y2
  let rows := (c.map.tensor (u 0x18 4)).rows
  let (up, c8) := c.product s.mem (u 0x18 4) 0 rows a2
  let act := actFn ((Act.ofCode (u 0x26 1)).getD .none) (BitVec.ofNat 32 (u 0x28 4))
  let g := if u 0x27 1 == 1 then List.zipWith (fun a b => f32Mul (act a) b) (up.take (rows / 2)) (up.drop (rows / 2))
    else up.map act
  let (a3, c9) := toOperand af g
  let (dn, c10) := c.product s.mem (u 0x1C 4) 0 x.length a3
  (s, List.zipWith f32Add x dn, [c0, c1, c2, ck, cv, c3, c4, c5, c6, c7, c8, c9, c10].foldl Conds.add Conds.zero)

/-- The logits at position `j` from the token at position `j - 1` (R253). -/
def positionLogits (c : Copy) (plan : Bytes) (k : KvSet) (q : Seq) (tok j : Nat) (s : State) : State × Met (List Word) :=
  let d := planU plan 4 4
  let x := (c.row s.mem (planU plan 8 4) tok d).map toF32
  let (s, x, c0) := (List.range (planU plan 2 2)).foldl (fun (r : State × Met (List Word)) l =>
    let (s, x, c1) := layerStep c plan k q j l r.2.1 r.1
    (s, x, r.2.2.add c1)) (s, x, Conds.zero)
  let (y, c1) := c.norm s.mem (planU plan 0x18 1 == 2) (BitVec.ofNat 32 (planU plan 0x1C 4)) (planU plan 0xC 4)
    (planTensor (planU plan 0x10 4)) x
  let (a, c2) := toOperand ((Fmt.ofCode (planU plan 0x19 1)).getD .bf16) y
  let (ls, c3) := c.product s.mem (planU plan 0x14 4) 0 c.map.vocab a
  (s, ls, c0.add (c1.add (c2.add c3)))

/-! ## Deciding tokens (R148, R277) -/

/-- A token that a step delivers: the token, its LOGP, and whether it is an accepted draft. -/
structure Tok where
  token : Nat
  logp  : Word
  draft : Bool
  deriving DecidableEq, Repr

/-- The sampling stage on a position's logits, its parameters checked first (R148, R253). -/
def Seq.sample (q : Seq) (score : Bool) (pos token : Nat) (ls : List Word) : SampleOut :=
  if !samplingOk score q.temp.toNat q.topP.toNat q.topK then .bad 1
  else sampleLogits score q.seed q.stream pos q.temp q.topP q.topK token ls

/-- The exponential of a log-ratio is at least the draw: `r < x × 2^32`, exactly (R277). -/
def ratioAccepts (x : Word) (r : Nat) : Bool :=
  match ofF32 x with
  | .nan => false
  | .inf neg => !neg
  | .fin neg m e => !neg && (if 0 ≤ e + 32 then decide (r < m * 2 ^ (e + 32).toNat) else decide (r * 2 ^ (-(e + 32)).toNat < m))

/-- Sampling with one token's term set to zero before step 5 (R277). The manual gives no token where no term is left: the
token is then free (log entry 30, DESIGN CHOICE). -/
def Seq.sampleWithout (q : Seq) (pos skip free : Nat) (ls : List Word) : SampleOut :=
  let o := q.sample false pos 0 ls
  if o.fault != 0 || q.temp == 0 then o
  else
    let zs := ls.map fun l => f32Div l q.temp
    let m := zs.getD (argMax zs) 0
    -- a logit of −∞ has the term zero
    let cut := zs.zipIdx.map fun z => if z.2 == skip then (0xFF800000 : Word) else z.1
    let kept := keptOf cut m q.topK q.topP
    let c := if kept.isEmpty then free % ls.length else drawToken q.seed q.stream pos kept
    ⟨0, c, kept.length, logpOf zs m (zs.getD c 0)⟩

/-- Decide the tokens of a step from the logits of its positions and its drafts: the tokens, or the fault of the sampling
stage (R277). Logits at a position after the first rejection are not looked at, whatever they hold (log entry 184, DESIGN CHOICE). -/
def Seq.decideTokens (q : Seq) (free : Nat) : Nat → List (List Word) → List (Nat × Word) → List Tok → Option (List Tok)
  | _, [], _, acc => some acc
  | pos, ls :: rest, drafts, acc =>
    match drafts with
    | [] =>
      let o := q.sample false pos 0 ls
      if o.fault != 0 then none else some (acc ++ [⟨o.token, o.logp, false⟩])
    | (t, lq) :: ds =>
      if q.spec == 1 then
        let o := q.sample false pos 0 ls
        if o.fault != 0 then none
        else if o.token == t then q.decideTokens free (pos + 1) rest ds (acc ++ [⟨t, o.logp, true⟩])
        else some (acc ++ [⟨o.token, o.logp, false⟩])
      else
        let o := q.sample true pos t ls
        if o.fault != 0 then none
        else
          let x := libFn .exp (f32Sub o.logp lq)
          let r := (coinHigh q.seed (BitVec.ofNat 64 (q.stream * 2 ^ 16 + 2)) (BitVec.ofNat 64 pos)).toNat
          if ratioAccepts x r then q.decideTokens free (pos + 1) rest ds (acc ++ [⟨t, o.logp, true⟩])
          else
            let o := q.sampleWithout pos t free ls
            if o.fault != 0 then none else some (acc ++ [⟨o.token, o.logp, false⟩])

/-- The tokens of a sequence's step in a wave bound to an epoch: the state with the KV rows that the step writes, the tokens
or a fault, and the conditions met (R253, R277). -/
def stepTokens (slot : Nat) (m : Model) (epoch : Nat) (q : Seq) (drafts : List (Nat × Word)) (s : State) :
    State × Option (List Tok) × Conds :=
  match m.gen.plan with
  | none => (s, none, Conds.zero)
  | some plan =>
    let c : Copy := ⟨slot, m.map, m.w, epoch⟩
    let inputs := q.tokens.getLastD 0 :: drafts.map (·.1)
    let (s, lss, cs) := inputs.zipIdx.foldl (fun (r : State × List (List Word) × Conds) t =>
      let (s, ls, c1) := positionLogits c plan m.kv q t.1 (q.pos + t.2) r.1
      (s, r.2.1 ++ [ls], r.2.2.add c1)) (s, [], Conds.zero)
    let (f, s) := s.free
    (s, q.decideTokens f.toNat q.pos lss drafts [], cs)

/-- What a wave reads of the copy on this part: the rows of every shard (R253). -/
def Copy.spots (c : Copy) : List (Nat × Nat) :=
  (c.map.gshards.zipIdx.filter fun x => x.1.part == c.map.part).flatMap fun x =>
    c.map.spots (windowKey c.slot true c.w c.epoch (x.1.die * 2 ^ 37 + genOff c.map x.2)) (genSize (c.map.tensor x.1.tensor) x.1)

/-- What a step of a sequence reads of its KV pages: the frames it holds (R255). -/
def State.kvSpots (s : State) (q : Seq) : List (Nat × Nat) := q.held.map fun p => (s.pageAddr p.loc, (s.frameBytes p.loc).length)

end Sys2Proof.Machine
end

