-- ==== Sys2Proof/Machine/Gen.lean ====
section
/-!
DEFINITION. The Sequence Table: states and ends, admission by the Teller, prefill launches, frames, waves and their commits,
and the expiries of sequences (08 R257 to R283).
-/
namespace Sys2Proof.Machine

/-! ## States (R257, R258, R264) -/

/-- The codes of STATE. -/
def SeqState.code : SeqState → Nat
  | .admitted => 1 | .prefill => 2 | .decode => 3 | .paused => 4 | .parked => 5 | .done => 6 | .cancelled => 7
  | .expired => 8 | .faulted => 9

/-- The status that a notification of a state carries (R264). -/
def SeqState.status : SeqState → Nat → Status
  | .admitted, _ => .admitDefer
  | .cancelled, _ => .cancelled
  | .expired, e => if e == 6 then .late else .timeout
  | .faulted, _ => .dataError
  | _, _ => .ok

/-- Post the notification of a sequence's state. -/
def notifySeq (i : Nat) (s : State) : State :=
  match s.seq i with
  | none => s
  | some q => post q.acct 3 (q.state.status q.endCause)
      (leBytes 4 q.handle.toNat ++ leBytes 1 q.state.code ++ leBytes 1 q.endCause ++ [0, 0] ++ leBytes 8 q.tag.toNat) s

/-- A sequence holds decode capacity (R265). -/
def Seq.loads (q : Seq) : Bool := q.state == .prefill || q.state == .decode || q.state == .paused

/-- Settings that were staged take effect (R263). -/
def applyStaged (g : GenSet) : GenSet :=
  let put := fun (g : GenSet) (x : Nat × Nat) => match x.1 with
    | 1 => { g with period := x.2 }
    | 2 => { g with wave := x.2 }
    | 3 => { g with maxCtx := x.2 }
    | 4 => { g with lateLimit := x.2 }
    | 5 => { g with pauseLimit := x.2 }
    | 6 => { g with ring := x.2 }
    | 7 => { g with ringSize := x.2 }
    | _ => { g with utilCap := x.2 }
  { (g.staged.foldl put g) with staged := [] }

/-- The grid of a group that holds no sequence in PREFILL, DECODE or PAUSED stops (R272), and staged settings take effect: no frame
is left that they could wait for (log entry 63, DEDUCED). -/
def stopIdleGrid (slot : Nat) (s : State) : State :=
  if (s.seqsOf slot).any fun x => x.2.loads then s
  else s.onModel slot fun m => { m with gen := { applyStaged m.gen with grid := none, waves := [] } }

/-- A sequence enters a state: T_LAST is set and the notification posted (R264), and the grid of a group left idle stops (R272). -/
def setSeqState (i : Nat) (st : SeqState) (s : State) : State :=
  let s := notifySeq i (s.onSeq i fun q => { q with state := st, tLast := s.mtime })
  match s.seq i with
  | some q => stopIdleGrid q.slot s
  | none => s

/-- An account's work may start: its function is not being disabled (R283, R310). -/
def State.acctServes (s : State) (a : Nat) : Bool := (s.acct a).state != .stopping && (s.acct a).state != .disabled

/-- The bytes of a slot's rows become unspecified, as its tag becomes FREE (R289). -/
def scrambleSlot (q : Seq) (m : Model) (slot : Nat) (s : State) : State :=
  (List.range (2 * m.map.layers)).foldl (fun s l => match q.pages[slot / m.kv.ptok]? with
    | none => s
    | some p => s.scramble (s.pageAddr p.loc + (l * m.kv.ptok + slot % m.kv.ptok) * m.kv.kvRow) m.kv.kvRow) s

/-- Free every TENTATIVE slot of a sequence (R291). -/
def freeTentative (i : Nat) (s : State) : State :=
  match s.seq i with
  | none => s
  | some q => match s.model q.slot with
    | none => s
    | some m =>
      let open_ := q.pages.zipIdx.flatMap fun p => (p.1.tags.zipIdx.filter fun t => t.1 == 1).map fun t => p.2 * m.kv.ptok + t.2
      let s := open_.foldl (fun s k => scrambleSlot q m k s) s
      s.onSeq i fun q => { q with pages := q.pages.map fun p => { p with tags := p.tags.map fun t => if t == 1 then 0 else t } }

/-- A sequence leaves the waves of its model. -/
def leaveWaves (i slot : Nat) (s : State) : State :=
  let cut := fun (w : Wave) => { w with seqs := w.seqs.filter fun x => x.1 != i }
  s.onModel slot fun m => { m with gen := { m.gen with waves := m.gen.waves.map cut, running := m.gen.running.map cut } }

/-- The entries of the pages that a sequence holds leave the Index: its KV failed its check (R310). (Log entry 156, DEDUCED.) -/
def dropHeld (q : Seq) (s : State) : State := dropEntries (fun e => q.held.any fun p => p.loc == e.loc) s

/-- A sequence ends: its pages, slots and capacity are freed, and commands that wait for it complete (R259, R282). A SEQ_PAUSE that
waits for its step completes with REFUSED_STATE (log entry 182, DESIGN CHOICE). -/
def endSeq (i : Nat) (st : SeqState) (cause : Nat) (s : State) : State :=
  match s.seq i with
  | none => s
  | some q =>
    let s := leaveWaves i q.slot (freeTentative i s)
    let seqno : Word := match q.cancelBy with
      | some n => if st == .cancelled then n else 0
      | none => 0
    let s := s.onSeq i fun q =>
      { q with endCause := cause, endSeq := seqno, pages := [], imports := [], drafts := [], chunk := none, pausing := false,
               parking := false, restoring := false, cancelBy := none, expired := false, reserved := 0 }
    let s := setSeqState i st s
    let s := finishWait (.seqPause i) .refusedState [] s
    finishWait (.seq i) (if st == .cancelled then .ok else .alreadyDone)
      (leBytes 1 st.code ++ [0, 0, 0] ++ leBytes 4 q.pos) s

/-- Every non-final sequence of a model ends FAULTED with an END cause: a copy withdrawn (R283). -/
def faultModel (slot cause : Nat) (s : State) : State :=
  ((s.seqsOf slot).filter fun x => !x.2.state.final).foldl (fun s x => endSeq x.1 .faulted cause s) s

/-! ## The Teller's cost model (R265 to R267) -/

/-- The generation shards that the copy holds: a NOGEN tensor is absent from it (R313). -/
def ModelMap.copyShards (m : ModelMap) : List Shard := m.gshards.filter fun x => !(m.tensor x.tensor).nogen

/-- Bytes and elements of a model's generation copy (R266). -/
def ModelMap.copySize (m : ModelMap) : Nat × Nat :=
  let sizes := m.copyShards.map fun x =>
    let f := (m.tensor x.tensor).gfmt
    let n := x.rows * x.cols
    ((n * f.width + 7) / 8 + (if f.isMx then n / 32 else 0), n)
  ((sizes.map (·.1)).sum, (sizes.map (·.2)).sum)

/-- MACs per cycle of a Stream Engine under the plan's AFMT and the copy's formats: the slowest class among the copy's
formats (R90, R248). (Log entry 53, DEDUCED.) -/
def Model.macs (m : Model) : Nat :=
  let a := match m.gen.plan with
    | some p => planU p 0x19 1
    | none => 1
  let rate := fun (b : Nat) => if a ≤ 2 || b ≤ 2 then 8192 else if a == 9 && b == 9 then 32768 else 16384
  (m.map.copyShards.map fun x => rate (m.map.tensor x.tensor).gfmt.code).foldl min 32768

/-- The guaranteed credit share of a group: the least STREAM floor of its dies (R266, R359).
(Log entry 52, DEDUCED.) -/
def streamShare (m : Model) (dies : List Nat) (creds : List Credits) : Nat :=
  (m.map.members.map fun k => ((creds.getD (dies.getD (k / 4) 0) Credits.hbm).floors.headD 50)).foldl min 100

/-- A sequence as the cost model sees it: PRIORITY, order, home, reserved KV bytes, and tokens verified in a step. -/
structure Load_ where
  priority : Nat
  order    : Nat
  home     : Nat
  bytes    : Nat
  tokens   : Nat
  deriving DecidableEq, Repr

/-- The order of waves: by PRIORITY, then by admission order (R266). -/
def waveOrder (xs : List Load_) : List Load_ :=
  xs.mergeSort fun a b => decide (b.priority < a.priority) || (a.priority == b.priority && decide (a.order ≤ b.order))

/-- What the cost model takes from settings: WAVE, PERIOD_MS, UTIL_CAP, the slowest divider, and the credit share. -/
structure CostParams where
  wave   : Nat
  period : Nat
  util   : Nat
  div    : Nat
  share  : Nat
  deriving DecidableEq, Repr

/-- The frame time of a load times the common denominator of R266's terms, in microseconds, with that denominator. -/
def frameCost (m : Model) (c : CostParams) (xs : List Load_) : Nat × Nat :=
  let (C, P) := m.map.copySize
  let S := max 1 m.map.groupSize
  let q := m.macs
  let D := S * 12800000000 * c.share * q * 6000000000
  let cost := fun (w : List Load_) =>
    let K := maxNat ((List.range 32).map fun h => ((w.filter fun x => x.home == h).map (·.bytes)).sum)
    let T := (w.map (·.tokens)).sum
    max ((C + K * S) * q * 6000000000) (T * P * c.div * 12800000000 * c.share) * 1000000 + (3 * m.map.layers + 20) * D
  (((chunks (max 1 c.wave) (waveOrder xs)).map cost).sum, D)

/-- The frame fits within UTIL_CAP of the period (R266). -/
def frameFits (m : Model) (c : CostParams) (xs : List Load_) : Bool :=
  let (t, D) := frameCost m c xs
  decide (100 * t ≤ c.util * c.period * 1000 * D)

/-- The cost parameters of a model under settings of its group (R263, R520). -/
def State.costUnder (s : State) (m : Model) (g : GenSet) : CostParams :=
  ⟨g.wave, g.period, g.utilCap, s.chip.power.bounds.divSlow, streamShare m (s.acctDies m.map.acct) s.chip.hbmCred⟩

/-- The cost parameters in force for a model: settings that wait for the next frame do not count (R263). -/
def State.costParams (s : State) (m : Model) : CostParams := s.costUnder m m.gen

/-- The pages that a request reserves (R265). -/
def Seq.need (q : Seq) (m : Model) : Nat := (q.promptLen + q.maxTokens + q.draftMax + m.kv.ptok - 1) / m.kv.ptok

/-- The load of a sequence on a home. -/
def Seq.load (q : Seq) (m : Model) (home pages : Nat) : Load_ := ⟨q.priority, q.order, home, pages * m.frameBytes, 1 + q.draftMax⟩

/-- The admitted load of a model. -/
def State.loads (s : State) (slot : Nat) (m : Model) : List Load_ :=
  ((s.seqsOf slot).filter fun x => x.2.loads).map fun x => x.2.load m x.2.home x.2.reserved

/-- Frames of a home that no reservation still to be drawn needs (R265, R295). (Log entry 51, DEDUCED.) -/
def homeRoom (s : State) (slot home : Nat) : Int :=
  let owed := ((s.seqsOf slot).filter fun x => x.2.loads && x.2.home == home).map fun x =>
    x.2.reserved - (x.2.pages.filter fun p => !p.shared && !p.loc.vault).length
  ((freeFrames s slot false home).length + (cachedFrames s slot false home).length : Nat) - (owed.sum : Nat)

/-- The home of a new sequence: the member with room that gives the smallest frame time, the lowest on a tie; none where
the frame does not fit on any (R266, R295). -/
def placeSeq (s : State) (slot : Nat) (m : Model) (q : Seq) : Option Nat :=
  let n := q.need m
  let c := s.costParams m
  let fits := (m.map.members.filter fun h => decide ((n : Int) ≤ homeRoom s slot h)).filterMap fun h =>
    let xs := s.loads slot m ++ [q.load m h n]
    if frameFits m c xs then some (h, (frameCost m c xs).1) else none
  (fits.foldl (fun (b : Option (Nat × Nat)) x => match b with
    | none => some x
    | some y => if decide (x.2 < y.2) then some x else some y) none).map (·.1)

/-- The effective priority of a waiting request (R267). -/
def Seq.effective (q : Seq) (now : DWord) : Nat := min 7 (q.priority + (now - q.since).toNat / 100000000)

/-- The request at the head of a group's queue. -/
def headRequest (s : State) (slot : Nat) : Option (Nat × Seq) :=
  ((s.seqsOf slot).filter fun x => x.2.state == .admitted).foldl (fun (b : Option (Nat × Seq)) x => match b with
    | none => some x
    | some y =>
      let (ex, ey) := (x.2.effective s.mtime, y.2.effective s.mtime)
      if decide (ey < ex) || (ex == ey && decide (x.2.order < y.2.order)) then some x else some y) none

/-! ## Granting admission (R266, R301, R309) -/

/-- The lookup of a prompt, and its references: pages in the home's quarter are held by reference, all others are to be
imported (R299 to R301). -/
def lookupPrompt (i : Nat) (s : State) : State :=
  match s.seq i with
  | none => s
  | some q => match s.model q.slot with
    | none => s
    | some m =>
      let (inst, s) := domainInst q.acct q.domain s
      let J := (q.promptLen - 1) / m.kv.ptok
      let es := match inst with
        | some inst => if m.shares q.domain then
            walkIndex s q.domain inst m.kv.ptok (pageHashes m q.domain inst m.w.epoch J q.tokens) q.tokens none else []
        | none => []
      let near := fun (e : IdxEntry) => !e.loc.vault && e.loc.unit == q.home && match s.model e.loc.slot with
        | some o => o.map.acct == q.acct
        | none => false
      let page := fun (e : IdxEntry) => (⟨e.loc, true, false, List.replicate m.kv.ptok 2⟩ : Page)
      let far := (es.zipIdx.filter fun x => !near x.1).map fun x => (⟨x.2, x.1.id, x.1.loc, none⟩ : Import)
      touchEntries (es.map (·.id)) (s.onSeq i fun q =>
        { q with pages := es.map page, imports := far, prefixHit := m.kv.ptok * es.length, lookup := m.w.epoch, bound := false,
                 chunkPos := m.kv.ptok * es.length })

/-- The Teller grants admission: a home and a reservation, then the lookup, or the copy back of a parked sequence (R266,
R301, R309). -/
def grantSeq (i home : Nat) (s : State) : State :=
  match s.seq i with
  | none => s
  | some q => match s.model q.slot with
    | none => s
    | some m =>
      let s := s.onSeq i fun q => { q with home := home, reserved := q.need m, granted := q.need m }
      let s := setSeqState i .prefill s
      if q.pages.isEmpty then lookupPrompt i s
      else s.onSeq i fun q => { q with restoring := true, chunkPos := m.kv.ptok * ((q.pos - 1) / m.kv.ptok), imports := [] }

/-- ADMIT_GRANT: the head of a group's queue is granted once what it lacks is free (R267). -/
def execAdmitGrant (slot : BitVec 6) (s : State) : Result State :=
  match headRequest s slot.toNat, s.model slot.toNat with
  | some (i, q), some m => match (if s.acctServes q.acct then placeSeq s slot.toNat m q else none) with
    | some h => .next (grantSeq i h s)
    | none => .next s
  | _, _ => .next s

/-- IMPORT_DONE: the next page of a lookup's imports lands in a frame of the home, or its failure truncates the match and
removes the entry; the lookup's reference outlasts the entry and the frame, and no page lands for an account that is being stopped
(R300, R310, R471). -/
def execImportDone (seq : BitVec 14) (ok : Bool) (s : State) : Result State :=
  let i := seq.toNat
  match s.seq i with
  | none => .next s
  | some q => match (if s.acctServes q.acct then q.imports else []), s.model q.slot with
    | x :: rest, some m =>
      let cut := fun (s : State) => s.onSeq i fun q =>
        { q with pages := q.pages.take x.page, imports := q.imports.filter (fun y => decide (y.page < x.page)),
                 prefixHit := m.kv.ptok * x.page, chunkPos := m.kv.ptok * x.page }
      let (read, b, s) := match x.kept with
        | some b => (true, b, s)
        | none => readPage q.acct x.loc s
      if !ok || !read || b.isEmpty then .next (dropEntries (fun e => e.id == x.entry) (cut s))
      else match drawFrame q.slot false q.home s with
        | none => .next (cut s)
        | some (l, s) =>
          let land := fun (p : Page) => { p with loc := l, shared := false, own := false }
          .next ((writePage q.acct l b s).onSeq i fun q =>
            { q with imports := rest, pages := q.pages.modify x.page land })
    | _, _ => .next s

/-! ## Prefill (R269, R270, R293, R294) -/

/-- Draw frames so that a sequence holds every page up to one (R295). -/
def drawPages (i : Nat) : Nat → State → State
  | 0, s => s
  | n + 1, s => match s.seq i with
    | none => s
    | some q => match s.model q.slot with
      | none => s
      | some m =>
        let s := drawPages i n s
        match s.seq i with
        | none => s
        | some q =>
          if decide (n < q.pages.length) then s
          else match drawFrame q.slot false q.home s with
            | none => s
            | some (l, s) => s.onSeq i fun q => { q with pages := q.pages ++ [⟨l, false, true, List.replicate m.kv.ptok 0⟩] }

/-- Set the tags of slots `a` to `b - 1` of a sequence. -/
def tagSlots (i a b tag : Nat) (s : State) : State :=
  match s.seq i with
  | none => s
  | some q => match s.model q.slot with
    | none => s
    | some m => s.onSeq i fun q =>
      { q with pages := q.pages.zipIdx.map fun p =>
          { p.1 with tags := p.1.tags.zipIdx.map fun t =>
              if decide (a ≤ p.2 * m.kv.ptok + t.2) && decide (p.2 * m.kv.ptok + t.2 < b) then tag else t.1 } }

/-- The end of the tokens that the next chunk covers, and whether it is the last. -/
def Seq.chunkEnd (q : Seq) (m : Model) : Nat × Bool :=
  let e := min q.pos (q.chunkPos + m.gen.chunk)
  (e, e == q.pos)

/-- The block that a launch's prologue writes: the launch block, the page table, the parameter block and the chunk's tokens
(R269, R293; the places of the last two are the model's, log entry 31, DESIGN CHOICE), with the place of the parameter block. -/
def launchBlock (s : State) (q : Seq) (m : Model) (base epoch : Nat) : Bytes × Nat :=
  let (e, last) := q.chunkEnd m
  let pages := (e - 1) / m.kv.ptok + 1
  let table := (q.pages.take pages).flatMap fun p => leBytes 8 (s.pageAddr p.loc + if p.shared then 2 ^ 52 else 0)
  let table := padTo ((table.length + 63) / 64 * 64) table
  let param := base + 64 + table.length
  let toks := ((q.tokens.take e).drop q.chunkPos).flatMap (leBytes 4)
  let block := leBytes 4 q.handle.toNat ++ leBytes 4 q.chunkPos ++ leBytes 4 (e - q.chunkPos) ++
    leBytes 1 (if last then 1 else 0) ++ [0, 0, 0] ++ leBytes 8 (param + 64) ++ leBytes 8 (base + 64) ++ leBytes 8 param ++
    leBytes 8 epoch
  let sample := leBytes 8 q.seed.toNat ++ leBytes 8 q.stream ++ leBytes 4 q.pos ++ leBytes 4 m.map.vocab ++
    leBytes 4 q.temp.toNat ++ leBytes 4 q.topP.toNat ++ leBytes 4 q.topK
  (padTo 64 block ++ table ++ padTo 64 sample ++ toks, param)

/-- The implicit regions of a launch: earlier pages as IN, the chunk's pages as OUT (R294). -/
def implicitRegions (s : State) (q : Seq) (m : Model) : List Region :=
  let first := q.chunkPos / m.kv.ptok
  let last := ((q.chunkEnd m).1 - 1) / m.kv.ptok
  (q.pages.take (last + 1)).zipIdx.map fun p =>
    ⟨s.pageAddr p.1.loc, m.frameBytes, 0, if decide (p.2 < first) then 1 else 2, 0, 0⟩

/-- A sequence whose next chunk can launch: imports have landed, no copy back and no chunk runs (R301, R309). -/
def Seq.launchable (q : Seq) : Bool := q.state == .prefill && q.chunk.isNone && q.imports.isEmpty && !q.restoring

/-- At the binding of a chunk: the first chunk keeps or drops its references (R295, R301); a chunk of a pinned sequence that
would bind another epoch restarts the prefill (R279). -/
def bindChunk (i : Nat) (m : Model) (pin : Bool) (s : State) : State :=
  let epoch := m.w.epoch
  let s := s.onSeq i fun q =>
    if q.bound then q
    else if q.lookup != epoch && !q.pages.isEmpty && q.promptLen == q.pos then
      { q with pages := [], imports := [], published := 0, prefixHit := 0, chunkPos := 0, bound := true }
    else { q with reserved := q.reserved - (q.pages.filter (·.shared)).length, bound := true }
  if !pin then s
  else s.onSeq i fun q => match q.pinned with
    | none => { q with pinned := some epoch, epoch := epoch }
    | some e => if e == epoch then q
      else { q with pinned := some epoch, epoch := epoch, pages := [], published := 0, prefixHit := 0, chunkPos := 0,
                    restarts := min 0xFFFF (q.restarts + 1) }

/-- A template package as one launch submits it. -/
def launchPkg (s : State) (q : Seq) (m : Model) (t : Pkg) : Pkg × Bytes :=
  let base := (t.regions.headD ⟨0, 0, 0, 0, 0, 0⟩).base
  let (block, param) := launchBlock s q m base m.w.epoch
  ({ t with id := ⟨BitVec.ofNat 10 q.acct, (s.acct q.acct).nextPkg⟩, order := s.pkgOrder,
            implicit := implicitRegions s q m, block := block, sampleAt := param }, block)

/-- PREFILL_LAUNCH: the next chunk of the first sequence in admission order launches as a package of the template, once the
template's resources are free and none of its dies is halted, and runs its prologue (R269 to R271, R293 to R295, R525). A block that the
first TEMP region does not hold ends the sequence FAULTED with END 0x0C (log entry 183, DESIGN CHOICE). -/
def execPrefillLaunch (seq : BitVec 14) (s : State) : Result State :=
  let i := seq.toNat
  match s.seq i with
  | none => .next s
  | some q => match s.model q.slot with
    | none => .next s
    | some m => match m.gen.template with
      | none => .next s
      | some t =>
        let earlier := (s.seqsOf q.slot).any fun x => x.2.launchable && decide (x.2.order < q.order)
        let trial : Pkg := { t with id := ⟨BitVec.ofNat 10 q.acct, 0⟩, order := s.pkgOrder }
        let free := poolsOk s trial && (t.regions.all fun r => noConflict s trial r) && trial.phaseOpen s && trial.modelOpen s &&
          !trial.waitsRoll s
        if !q.launchable || earlier || !free || !s.acctServes q.acct || s.chip.power.pstate != 0 || !m.w.ready || !m.w.gencopy ||
            t.dies.any s.chip.power.override.halts then .next s
        else
          let s := bindChunk i m (s.acct q.acct).epochPin s
          match s.seq i with
          | none => .next s
          | some q =>
            let e := (q.chunkEnd m).1
            let s := drawPages i ((e - 1) / m.kv.ptok + 1) s
            match s.seq i with
            | none => .next s
            | some q =>
              let (p, block) := launchPkg s q m t
              let room := (t.regions.headD ⟨0, 0, 0, 0, 0, 0⟩).len
              if decide (room < block.length) then .next (endSeq i .faulted 0xC s)
              else
                let s := tagSlots i q.chunkPos e 1 s
                let s := acceptPkg p s
                let s := prologue p true s
                let s := p.cores.foldl (fun s c => s.onCore c fun x => { x with phase := some p.phase }) s
                let s := s.onPkg p.id fun p =>
                  { p with state := .running, shadowed := true, tStart := s.mtime, epoch := BitVec.ofNat 64 m.w.epoch }
                .next (s.onSeq i fun q => { q with chunk := some (p.id, q.chunkPos, e - q.chunkPos) })

/-! ## Records and commits (R273, R275, R276) -/

/-- The ring's HEAD and TAIL, and its free records (R271, R275). (Log entry 59, DEDUCED.) -/
def ringSpace (s : State) (m : Model) : Nat × Nat :=
  let head := s.readNat m.gen.ring 4
  let used := (BitVec.ofNat 32 head - BitVec.ofNat 32 (s.readNat (m.gen.ring + 8) 4)).toNat
  (head, 2 ^ m.gen.ringSize - used)

/-- A token record (R275). -/
def tokenRecord (q : Seq) (pos : Nat) (t : Tok) (epoch : Nat) (ord : DWord) (final prefill : Bool) (cause : Nat) : Bytes :=
  leBytes 4 q.handle.toNat ++ leBytes 4 pos ++ leBytes 4 t.token ++ leBytes 4 t.logp.toNat ++ leBytes 8 epoch ++
  leBytes 4 (ord.toNat % 2 ^ 32) ++
  leBytes 1 ((if final then 1 else 0) + (if t.draft then 2 else 0) + (if prefill then 4 else 0)) ++
  leBytes 1 (if final then cause else 0) ++ [0, 0]

/-- Write records at the head of a ring and advance HEAD once (R273); over a dead link nothing is written (R383). -/
def writeRing (slot : Nat) (recs : List Bytes) (s : State) : State :=
  match s.model slot with
  | none => s
  | some m =>
    if recs.isEmpty || !s.writes m.gen.ring 64 then s
    else
      let (head, _) := ringSpace s m
      let at_ := fun (i : Nat) => m.gen.ring + 64 + 32 * ((head + i) % 2 ^ m.gen.ringSize)
      let s := recs.zipIdx.foldl (fun s r => s.write (at_ r.2) r.1) s
      let s := s.write m.gen.ring (leBytes 4 (head + recs.length))
      s.meter m.map.acct 8 (if inHostSpace m.map.acct m.gen.ring 64 then 32 * recs.length + 4 else 0) 0

/-- What a token does to its sequence: none, or the END cause of a stop condition it meets: that of a stop token where the token also
reaches MAX_TOKENS (R276, log entry 180, DESIGN CHOICE). -/
def Seq.stopCause (q : Seq) (gen : Nat) (t : Tok) : Option Nat :=
  if q.stops.contains t.token then some 2 else if decide (q.maxTokens ≤ gen) then some 1 else none

/-- The tokens that a commit delivers: up to the first that meets a stop condition, with its cause (R276). -/
def Seq.deliver (q : Seq) : Nat → List Tok → List (Tok × Option Nat)
  | _, [] => []
  | gen, t :: ts => match q.stopCause (gen + 1) t with
    | some c => [(t, some c)]
    | none => (t, none) :: q.deliver (gen + 1) ts

/-- Commit a step of a sequence: its ordinal, slots, POS, GEN and records; the records it delivers, and the END cause of a
stop condition (R273, R276, R291). Slots `slot0` to POS + n - 2 commit for n tokens. -/
def commitStep (i slot0 : Nat) (toks : List Tok) (epoch : Nat) (prefill : Bool) (s : State) : State × List Bytes × Option Nat :=
  match s.seq i with
  | none => (s, [], none)
  | some q =>
    let ts := q.deliver q.gen toks
    let ord := s.gens.ordinal + 1
    let n := ts.length
    let cause := (ts.getLastD (⟨0, 0, false⟩, none)).2
    let recs := ts.zipIdx.map fun t => tokenRecord q (q.pos + t.2) t.1.1 epoch ord t.1.2.isSome prefill (t.1.2.getD 0)
    let s := s.onGens fun g => { g with ordinal := ord }
    let s := freeTentative i (tagSlots i slot0 (q.pos + n - 1) 2 s)
    let acc := (ts.filter fun t => t.1.draft).length
    let s := s.onSeq i fun q =>
      { q with pos := q.pos + n, gen := q.gen + n, tokens := q.tokens ++ ts.map (·.1.token), epoch := epoch, ordinal := ord,
               lateRun := 0, specAcc := q.specAcc + acc }
    (publishSeq i s, recs, cause)

/-- The first whole millisecond of module time at or after now (R272). -/
def gridStart (now : DWord) : Nat := (now.toNat + 999999) / 1000000

/-- A sequence enters DECODE: a stopped grid starts again (R272). -/
def enterDecode (i : Nat) (s : State) : State :=
  match s.seq i with
  | none => s
  | some q =>
    let s := setSeqState i .decode s
    s.onModel q.slot fun m =>
      { m with gen := { m.gen with grid := match m.gen.grid with
          | some g => some g
          | none => some (gridStart s.mtime, 0) } }

/-- A committed slot of a sequence lies in memory that fails its check (R310). -/
def State.kvBroken (s : State) (q : Seq) : Bool := q.held.any fun p =>
  p.tags.contains 2 && s.readFails (s.pageAddr p.loc) (s.frameBytes p.loc).length

/-- FIRST_TOKEN_COMMIT: a chunk's package has ended. Its slots commit with OK, and the last chunk commits the first token;
any other end faults the sequence, with END 0x09 where a committed slot failed its check, or completes its cancel or expiry (R270, R282,
R291, R310). A chunk of an account that is being stopped is discarded (R283, R471), and the record waits for a host link that is away
(R383). -/
def execFirstTokenCommit (seq : BitVec 14) (s : State) : Result State :=
  let i := seq.toNat
  match s.seq i with
  | none => .next s
  | some q => match q.chunk, s.model q.slot with
    | some (id, pos, len), some m => match s.pkg id with
      | none => .next (endSeq i .faulted 0xC s)
      | some p =>
        if p.state != .done || !s.acctServes q.acct then .next s
        else if q.cancelBy.isSome then .next (endSeq i .cancelled 3 s)
        else if q.expired then .next (endSeq i .expired 5 s)
        else if p.status != .ok then
          .next (if p.status == .dataError && s.kvBroken q then endSeq i .faulted 9 (dropHeld q s) else endSeq i .faulted 0xC s)
        else if decide (q.pos ≤ pos + len) && s.hostWaits m.gen.ring then .next s
        else
          let s := s.onSeq i fun q => { q with chunk := none, chunkPos := pos + len }
          if decide (pos + len < q.pos) then .next (publishSeq i (tagSlots i pos (pos + len) 2 s))
          else
            let fault := fieldAt p.sampled 0x3C 4
            if fault != 0 then .next (endSeq i .faulted 0xA s)
            else
              let t : Tok := ⟨fieldAt p.sampled 0x30 4, BitVec.ofNat 32 (fieldAt p.sampled 0x34 4), false⟩
              let (s, recs, cause) := commitStep i pos [t] p.epoch.toNat true s
              let s := writeRing q.slot recs s
              .next (match cause with
                | some c => endSeq i .done c s
                | none => enterDecode i s)
    | _, _ => .next s

/-! ## Frames and waves (R271 to R274) -/

/-- No member of the group is fenced: it runs its waves (R283, R502). -/
def groupRuns (s : State) (m : Model) : Bool :=
  m.map.members.all fun k =>
    let d := (s.acctDies m.map.acct).getD (k / 4) 0
    s.unitServes 3 (4 * d + k % 4) && s.unitServes 1 d

/-- The group starts new waves: it runs, and no member's die is halted (R525). -/
def groupServes (s : State) (m : Model) : Bool :=
  groupRuns s m && m.map.members.all fun k => !s.chip.power.override.halts ((s.acctDies m.map.acct).getD (k / 4) 0)

/-- A wave has run, whatever it came to: its cycles are time and free (R473, log entry 8, DESIGN CHOICE). -/
def meterWave (m : Model) (s : State) : State :=
  meterCycles m.map.acct 2 ((s.acctDies m.map.acct).getD (m.map.members.headD 0 / 4) 0) s

/-- The running wave of a model is given up: it has taken its cycles (R473). -/
def stopWave (slot : Nat) (s : State) : State := match s.model slot with
  | some m => if m.gen.running.isSome then
      meterWave m (s.onModel slot fun m => { m with gen := { m.gen with running := none } }) else s
  | none => s

/-- Drop a wave: tentative slots freed, LATE counted, and a sequence at LATE_LIMIT ends EXPIRED (R274).
(Log entry 32, DEDUCED.) -/
def dropWave (slot : Nat) (w : Wave) (s : State) : State :=
  let limit := match s.model slot with
    | some m => m.gen.lateLimit
    | none => 0
  w.seqs.foldl (fun s x =>
    let s := freeTentative x.1 s
    let s := s.onSeq x.1 fun q => { q with late := q.late + 1, lateRun := q.lateRun + 1, drafts := (x.2 ++ q.drafts).take q.draftMax }
    match s.seq x.1 with
    | none => s
    | some q =>
      let die := (s.acctDies q.acct).getD (q.home / 4) 0
      let s := (s.meter q.acct 10 1 0).bump 0x201 die (some q.acct) (some (q.home % 4)) 1
      if limit != 0 && decide (limit ≤ q.lateRun) then endSeq x.1 .expired 6 s
      else if q.pausing then
        finishWait (.seqPause x.1) .ok [] (setSeqState x.1 .paused (s.onSeq x.1 fun q => { q with pausing := false }))
      else s) s

/-- FRAME_END: a wave still running is dropped, and so is every wave not started, unless the wave barrier holds it (R274,
R333). -/
def execFrameEnd (slot : BitVec 6) (s : State) : Result State :=
  let k := slot.toNat
  match s.model k with
  | none => .next s
  | some m =>
    let late := m.gen.running.toList ++ (if m.w.waveShut then [] else m.gen.waves)
    let s := (stopWave k s).onModel k fun m => { m with gen := { m.gen with waves := [] } }
    .next (late.foldl (fun s w => dropWave k w s) s)

/-- The sequences that a frame takes, in wave order: those in DECODE with ring space; the others count RING_STALL (R271). -/
def frameSeqs (slot : Nat) (m : Model) (s : State) : State × List (Nat × Seq) :=
  let xs := ((s.seqsOf slot).filter fun x => x.2.state == .decode && !x.2.pausing).mergeSort fun a b =>
    decide (b.2.priority < a.2.priority) || (a.2.priority == b.2.priority && decide (a.2.order ≤ b.2.order))
  let space := if s.reads m.gen.ring 64 then (ringSpace s m).2 else 0
  let s := if s.readFails m.gen.ring 64 then s.discover m.gen.ring 64 else s
  let r := xs.foldl (fun (r : State × List (Nat × Seq) × Nat) x =>
    if decide (1 + x.2.draftMax ≤ r.2.2) then (r.1, r.2.1 ++ [x], r.2.2 - (1 + x.2.draftMax))
    else (r.1.onSeq x.1 fun q => { q with ringStall := min 0xFFFF (q.ringStall + 1) }, r.2.1, r.2.2)) (s, [], space)
  (r.1, r.2.1)

/-- FRAME_START: staged settings take effect, and waves are formed; waves of a pinned older epoch follow those of the
current one (R263, R271, R272). The ring's TAIL is read through a host link that is away once that is back or its outage has run out
(R383). (Log entry 62, DEDUCED.) -/
def execFrameStart (slot : BitVec 6) (s : State) : Result State :=
  let k := slot.toNat
  match s.model k with
  | none => .next s
  | some m =>
    let live := (s.seqsOf k).any fun x => x.2.loads
    match m.gen.grid with
    | none => .next s
    | some (t0, len) =>
      if !live then .next (stopIdleGrid k s)
      else if m.gen.running.isSome || !s.acctServes m.map.acct || s.hostWaits m.gen.ring then .next s
      else
        let s := s.onModel k fun m => { m with gen := applyStaged m.gen }
        match s.model k with
        | none => .next s
        | some m =>
          let (s, xs) := frameSeqs k m s
          let old := fun (x : Nat × Seq) => match x.2.pinned with
            | some e => e != m.w.epoch
            | none => false
          let epochOf := fun (x : Nat × Seq) => match x.2.pinned with
            | some e => e
            | none => m.w.epoch
          let waves := fun (xs : List (Nat × Seq)) => (chunks (max 1 m.gen.wave) xs).map fun w =>
            (⟨w.map fun x => (x.1, []), match w with
              | [] => m.w.epoch
              | x :: _ => epochOf x⟩ : Wave)
          .next (s.onModel k fun m => { m with gen := { m.gen with
            grid := some (t0 + len, m.gen.period),
            waves := waves (xs.filter fun x => !old x) ++ waves (xs.filter old), running := none } })

end Sys2Proof.Machine
end

