-- ==== Sys2Proof/Machine/Models.lean ====
section
/-!
DEFINITION. What a stop, an unload and a reset take away: memory wiped, models dropped, moving operations abandoned, deposits
given up (10 R341, 14 R437, 15 R471, 17 R528).
-/
namespace Sys2Proof.Machine

/-! ## Wipes -/

/-- Memory whose storage key satisfies a condition is zeroed, and the damage there is gone (R353, R355). -/
def State.wipeWhere (s : State) (p : Nat → Bool) : State :=
  let cure := fun (m : DieMem) =>
    { m with poisoned := m.poisoned.filter (fun k => !p k), failing := m.failing.filter (fun k => !p k),
             corrupt := m.corrupt.filter fun k => !p k }
  { s with mem := s.mem.filter (fun c => !p c.1), chip := { s.chip with dieMem := s.chip.dieMem.map cure } }

/-- A key lies in a unit that satisfies a condition (R347). -/
def inUnits (p : Nat × Nat × Nat → Bool) (k : Nat) : Bool :=
  decide (k < coreSramBase) && match unitOf k with
  | some u => p u
  | none => false

/-- A key lies in the core SRAM of a die. -/
def inCores (die k : Nat) : Bool :=
  decide (coreSramBase ≤ k) && decide (k < coreSramBase + 2 ^ 31) && (k - coreSramBase) / 2 ^ 24 / 16 == die

/-- A die's memories are wiped: its SRAM, its HBM outside band 1,535 and its Vault share (R461, R529). -/
def wipeDie (d : Nat) (s : State) : State := s.wipeWhere fun k => inUnits (fun u => u.2.1 == d) k || inCores d k

/-! ## Moving operations (R39) -/

/-- Abandon the moving operations that satisfy a condition, running or waiting. -/
def dropMoves (p : MoveOp → Bool) (s : State) : State :=
  let cut := fun (x : PartMoves) =>
    { x with running := x.running.filter (fun o => !p o), queue := x.queue.filter fun o => !p o }
  { s with moves := s.moves.map cut }

/-- The moving operations of a state. -/
def State.allMoves (s : State) : List MoveOp := s.moves.flatMap fun x => x.running.toList ++ x.queue

/-- Moving operations end with a status, and the commands that wait for them complete (R42). -/
def endMoves (p : MoveOp → Bool) (st : Status) (s : State) : State :=
  let ids := (s.allMoves.filter p).map (·.id)
  ids.foldl (fun s i => finishWait (.move i) st [] s) (dropMoves p s)

/-! ## Models -/

/-- A key holds data of the model in a window slot. -/
def inModel (slot k : Nat) : Bool :=
  decide (2 ^ 60 + slot * 2 ^ 48 ≤ k) && decide (k < 2 ^ 60 + (slot + 1) * 2 ^ 48)

/-- Ranges of internal addresses are zeroed. -/
def wipeRanges (rs : List (Nat × Nat)) (s : State) : State :=
  rs.foldl (fun s r => { s with mem := s.mem.wipe r.1 r.2, chip := s.chip.mend r.1 r.2 }) s

/-- A reset that wipes units marked for withdrawal takes them from their accounts (R355). -/
def withdrawUnits (p : Grant → Bool) (s : State) : State :=
  let gone := (s.chip.dieMem.flatMap (·.withdrawn)).filter p
  { s with ten := { s.ten with grants := s.ten.grants.filter fun g => !gone.contains g },
           chip := { s.chip with dieMem := s.chip.dieMem.map fun m => { m with withdrawn := m.withdrawn.filter fun g => !p g } } }

/-- An engine reads ranges of a model's storage, given by key and length (R352, R355, R358). -/
def State.readKeys (t : Traffic) (acct : Nat) (ks : List (Nat × Nat)) (s : State) : Bool × State :=
  s.engineRead t acct (ks.flatMap fun k => s.keySpots k.1 k.2)

/-- An engine's writes to ranges of a model's storage ask for their credits (R358). -/
def State.chargeKeys (t : Traffic) (acct : Nat) (ks : List (Nat × Nat)) (s : State) : State :=
  s.charge t acct (ks.flatMap fun k => s.keySpots k.1 k.2)

/-- The key of Q3 of a block: window slot, training shard and block (R236). -/
def q3Key (slot shard block : Nat) : Nat := (slot * 2 ^ 20 + shard) * 2 ^ 32 + block

/-- The update state of a model whose step is given up: TORN once an update has begun to write (R231, R232). -/
def LedModel.abandon (l : LedModel) : LedModel :=
  let torn := match l.step with
    | some x => x.begun2
    | none => false
  { l with ustate := if torn then .torn else if l.ustate == .torn then .torn else .idle, step := none, heldCmd := none }

/-- Lookups keep the pages that they still refer to in the frames of a model that is unloaded (R310). -/
def keepImports (slot : Nat) (s : State) : State :=
  let keep := fun (i : Import) => if i.loc.slot == slot && i.kept.isNone then { i with kept := some (s.frameBytes i.loc) } else i
  s.onGens fun g => { g with seqs := g.seqs.map fun x => (x.1, { x.2 with imports := x.2.imports.map keep }) }

/-- A model leaves its window slot: its data, Q3, sequences and Index entries go with it. -/
def dropModel (slot : Nat) (s : State) : State :=
  let s := s.wipeWhere (inModel slot)
  let s := dropMoves (fun o => o.slot == slot) s
  let s := s.onGens fun g =>
    { g with seqs := g.seqs.filter (fun x => x.2.slot != slot),
             index := g.index.filter fun e => e.slot != slot && e.loc.slot != slot }
  { s with models := terase s.models slot,
           led := { s.led with q3 := s.led.q3.filter fun x => x.1 / 2 ^ 52 != slot } }

/-- The window slots of an account's models. -/
def State.slotsOf (s : State) (a : Nat) : List Nat := (s.models.filter fun x => x.2.map.acct == a).map (·.1)

/-! ## Jobs and deposits (R410, R411, R437) -/

/-- The job slots of an account. -/
def State.jobsOf (s : State) (a : Nat) : List (Nat × JobSlot) := s.chip.fabric.slots.filter fun x => x.1 / 16 == a

/-- The job slot in which an account holds a job. -/
def State.jobOf (s : State) (a : Nat) (job : Word) : Option JobSlot :=
  ((s.jobsOf a).find? fun x => x.2.job == job).map (·.2)

/-- A message to a part of a job over CTL; its kind is 1 for a rerun request, 2 a contribution, 3 a PUT, 4 a report, 5 a
decision, 6 JOB_FAULT, 7 DEPOSIT_LOST, 8 a join, 9 amax maxima, 10 Ledger reductions and record maxima (R238), 11 mirrored
rows, 12 resharded rows, 13 a deposit, 14 feeds for a twin, 15 the acknowledgement of a decision, 16 a request for one, 17 the
answer to a rerun request, 18 the beginning or end of a read of a deposit. What a die sends leaves over that die's ports (R24). (Log entry 111, DESIGN CHOICE.) -/
def sendPart (die : Option Nat) (j : JobSlot) (part kind : Nat) (data : Bytes) (s : State) : State :=
  sendTo die (j.table.getD part 0) j.job kind data s

/-- A message to every other part of a job. -/
def sendParts (j : JobSlot) (kind : Nat) (data : Bytes) (s : State) : State :=
  ((List.range j.table.length).filter fun n => n != j.part).foldl (fun s n => sendPart none j n kind data s) s

/-- A field of a plan block. -/
def FtModel.planU (f : FtModel) (off n : Nat) : Nat := match f.plan with
  | some b => fieldAt b off n
  | none => 0
/-- A later layer's copy still reads a deposit that this part made (R441). -/
def FtModel.reads (f : FtModel) : Bool := f.planU 2 1 == 1 && f.later.any fun x => x.1 == 2

/-- The partner hears that a later layer's copy begins or ends to read the deposit that it holds (R441, R442). (Log entry 189, DESIGN
CHOICE.) -/
def tellReading (m : Model) (on : Bool) (s : State) : State := match s.jobOf m.map.acct m.map.job with
  | some j => sendPart none j (m.ft.planU 6 2) 18 (leBytes 2 m.map.num ++ [if on then 1 else 0]) s
  | none => s

/-- The later layers' copies of a model are now these; the partner hears of a change that it should (R441, R442). -/
def setLater (slot : Nat) (m : Model) (later : List (Nat × Word)) (s : State) : State :=
  let reads := ({ m.ft with later := later } : FtModel).reads
  let s := s.onModel slot fun m => { m with ft := { m.ft with later := later } }
  if reads == m.ft.reads then s else tellReading m reads s

/-- The later layers' copies of a model are abandoned (R441, R454, R471). -/
def dropLater (slot : Nat) (m : Model) (s : State) : State := setLater slot m [] s

/-- The job slot that a deposit's messages go through: that of its model's job, and the account's first otherwise. -/
def depositJob (s : State) (d : Deposit) : Option JobSlot :=
  match s.modelOf d.acct d.model with
  | some m => s.jobOf d.acct m.map.job
  | none => ((s.jobsOf d.acct).head?).map (·.2)

/-- Deposit regions are given up, and their depositing parts are told before any wipe (R437). -/
def loseDeposits (p : Deposit → Bool) (s : State) : State :=
  let s := (s.ft.deposits.filter p).foldl (fun s d => match depositJob s d with
    | some j => sendPart none j d.src 7 (leBytes 2 d.model ++ leBytes 1 d.die) s
    | none => s) s
  { s with ft := { s.ft with deposits := s.ft.deposits.filter fun d => !p d } }

end Sys2Proof.Machine
end

