-- ==== Sys2Proof/Machine/Accounts.lean ====
section
/-!
DEFINITION. Accounts, quotas, grants, partitions and rights, and the stop procedure of an account (15).
-/
namespace Sys2Proof.Machine

/-! ## The copy of the Tally (R473, R474, R476) -/

/-- Units of 2^-149 nJ in a millijoule. -/
def milliJoule : Nat := 1000000 * 2 ^ 149

/-- The energy of an account's page-milliseconds (R474). -/
def Account.pageEnergy (a : Account) : Nat :=
  a.hbmPageNs / 1000000 * energyUnits 16 + a.vaultPageNs / 1000000 * energyUnits 17

/-- The eleven meters of an account (R473). -/
def Account.meters (a : Account) : List DWord :=
  let v := fun (n : Nat) => BitVec.ofNat 64 n
  a.tally.take 5 ++ [v (a.hbmPageNs / 1000000), v (a.vaultPageNs / 1000000)] ++ (a.tally.drop 7).take 2 ++
    [v ((a.energy + a.pageEnergy) / milliJoule)] ++ a.tally.drop 10

/-- Every account's meters are copied to the Strongbox (R476). -/
def copyTally (s : State) : State :=
  { s with ten := { s.ten with accts := s.ten.accts.map fun a => { a with copied := s.mtime, copy := a.meters } } }

/-- What comes before a reset of any kind: the meters are copied (R476), and the nonce is no longer valid (R549). -/
def beforeReset (s : State) : State := (copyTally s).onFw fun f => { f with nonce := none }

/-! ## The stop procedure (R470 to R472) -/

/-- The rights of partitions that an account holds return (R458). -/
def releaseRights (a : Nat) (s : State) : State :=
  { s with ten := { s.ten with partRights := s.ten.partRights.map fun r => if r == some a then none else r } }

/-- The waves of a model are discarded without a count of LATE, though the cycles of one that runs are metered, its Ledger step is abandoned, and a later layer's copy stops without
commit (R246, R282, R454, R471, R473). -/
def dropWaves (slot : Nat) (s : State) : State :=
  let s := stopWave slot (((s.seqsOf slot).map (·.1)).foldl (fun s i => freeTentative i s) s)
  let s := match s.model slot with
    | some m => dropLater slot m s
    | none => s
  s.onModel slot fun m => { m with gen := { m.gen with waves := [] }, led := m.led.abandon }

/-- Samplers that an account started under a right it no longer holds stop (R567). -/
def stopSamplers (p : Nat → Sampler → Bool) (s : State) : State :=
  { s with chip := { s.chip with samplers := s.chip.samplers.filter fun x => !p x.1 x.2 } }

/-- The addresses of a granted unit of HBM, the Vault or die SRAM (R345, R347). -/
def Grant.range (g : Grant) : Nat × Nat :=
  if g.pool == 0 then (quarterBase + g.die * 2 ^ 37 + g.unit % 4 * 2 ^ 35 + g.unit / 4 * 2 ^ 24, 2 ^ 24)
  else if g.pool == 1 then (vaultBase + (8192 * g.die + g.unit) * 2 ^ 24, 2 ^ 24)
  else (dieSramBase + g.die * 2 ^ 28 + g.unit * 2 ^ 20, 2 ^ 20)

/-- What the wipe of an account's units asks of the Tellers (R471). -/
def askWipe (a : Nat) (s : State) : State :=
  s.charge .wipe a ((s.ten.grants.filter fun g => g.acct == a && g.pool != 3).map Grant.range)

/-- The instant D: the account enters STOPPING, its packages stop, but for one that WP_CANCEL has stopped before, its waves and Ledger
steps are discarded, its moving operations and copies stop, its requests leave the Tellers, and those of its wipe come (R371, R470, R471,
R477). -/
def beginAcctStop (a : Nat) (s : State) : State :=
  let s := s.onAcct a fun x => { x with state := .stopping }
  let s := releaseRights a { s with ten := { s.ten with stops := s.ten.stops ++ [a] } }
  let s := stopSamplers (fun _ x => x.acct == a) s
  let ids := (s.pkgs.filter fun p => p.id.acct.toNat == a && p.resident).map (·.id)
  let silence := fun (p : Pkg) => if p.state == .stopping && p.status != .cancelled then { p with status := Status.functionDisabled } else p
  let s := ids.foldl (fun s i => beginStop i .functionDisabled (s.onPkg i silence)) s
  let mine := s.slotsOf a
  let s := dropMoves (fun o => mine.contains o.slot) (mine.foldl (fun s k => dropWaves k s) s)
  askWipe a { s with demand := s.demand.filter fun r => r.acct.toNat != a }

/-- A disable cause comes into force: an ENABLED account starts the stop procedure (R456). -/
def disableCause (a : Nat) (f : Causes → Causes) (s : State) : State :=
  let was := (s.acct a).state
  let s := s.onAcct a fun x => { x with causes := f x.causes }
  if was == .enabled then beginAcctStop a s else s

/-- An account enters ENABLED, and its mailbox is ready (R471, R506). -/
def enterEnabled (a : Nat) (s : State) : State :=
  let s := s.onAcct a fun x => { x with state := .enabled }
  if s.chip.power.mailboxReady then s.onFunc a fun f => { f with ready := true } else s

/-- Counters that count an account's events alone count nothing until they are set again (R567). -/
def disarmCounters (a : Nat) (s : State) : State :=
  let cut := fun (k : Counter) => if k.afilt && k.account.toNat == a then { k with dead := true } else k
  { s with chip := { s.chip with counters := s.chip.counters.map fun l => l.map cut } }

/-- The quota block, every grant and the checkpoints of an account go back (R477, R567). (Log entry 70, DEDUCED.) -/
def releaseAcct (a : Nat) (s : State) : State :=
  let s := s.onAcct a fun x =>
    { x with state := .none, causes := { Causes.clear with absent := x.causes.absent }, quota := .zero, epochPin := false,
             strictFreeze := false, remoteSleep := false, thresh := 0, armed := true, belowSince := none }
  disarmCounters a { s with
           ten := { s.ten with grants := s.ten.grants.filter fun g => g.acct != a },
           ft := { s.ft with ckpts := s.ft.ckpts.filter (fun k => k.acct != a), sent := s.ft.sent.filter fun k => k.acct != a },
           led := { s.led with slots := s.led.slots.filter fun x => x.2.acct != a,
                               groups := s.led.groups.filter fun x => x.2.acct != a } }

/-- The sequences, Index entries, domains and private instance of an account are gone (R472). -/
def dropGen (a : Nat) (s : State) : State :=
  let s := (s.gens.domains.map (·.1)).foldl (fun s n => match tget s.gens.domains n with
    | some d => if d.members.contains a then leaveDomain n a s else s
    | none => s) s
  s.onGens fun g =>
    { g with seqs := g.seqs.filter (fun x => x.2.acct != a), index := g.index.filter (fun e => e.acct != a),
             privInst := terase g.privInst a }

/-- The TEMP and CODE space of packages. -/
def heldBy (ps : List Pkg) : List (Nat × Nat) := ps.flatMap fun p => p.regions.filterMap Region.held

/-- A key of core SRAM or die SRAM lies in one of the ranges. -/
def sramIn (rs : List (Nat × Nat)) (k : Nat) : Bool :=
  (sramRow k).isSome && rs.any fun r => decide (r.1 ≤ k) && decide (k < r.1 + r.2)

/-- Packages of an account that still run are forced to stop, and its TEMP and CODE space is zeroed: that of its resident packages, and in
the SRAMs that of those that have ended, where no other account's package has it since (R152, R178, R471). -/
def killAndWipe (a : Nat) (s : State) : State :=
  let mine := fun (p : Pkg) => p.id.acct.toNat == a
  let space := heldBy (s.pkgs.filter mine)
  let others := heldBy (s.pkgs.filter fun p => !mine p && p.resident)
  let now := heldBy (s.pkgs.filter fun p => mine p && p.resident)
  (wipeRanges now (killPkgs (fun p => !mine p) .functionDisabled s)).wipeWhere fun k => sramIn space k && !sramIn others k

/-- Steps 2 to 5 of the stop procedure: what runs is forced to stop, the account's units are wiped, and everything that R472
does not keep returns to its pool. -/
def stopWork (a : Nat) (s : State) : State :=
  let reset := (s.acct a).causes.reset
  let s := loseDeposits (fun d => d.acct == a) (killAndWipe a s)
  let s := s.wipeWhere (inUnits fun u => s.unitOwner u.1 u.2.1 u.2.2 == some a)
  let s := dropGen a ((s.slotsOf a).foldl (fun s k => dropModel k s) s)
  let jobs := (s.jobsOf a).map fun x => x.2.job
  let s := s.onFabric fun f =>
    { f with slots := f.slots.filter fun x => x.1 / 16 != a, rounds := f.rounds.filter fun r => !jobs.contains r.job }
  let s := { s with pkgs := s.pkgs.filter fun p => p.id.acct.toNat != a, demand := s.demand.filter fun r => r.acct.toNat != a }
  let s := if reset then withdrawUnits (fun g => g.acct == a) s else s
  s.onAcct a fun x => { x with sems := [], amax := [], num := List.replicate 13 0 }

/-- The account leaves STOPPING for the state that its causes give (R471). -/
def settleAcct (a : Nat) (s : State) : State :=
  let c := (s.acct a).causes
  let s := { s with ten := { s.ten with stops := s.ten.stops.filter fun x => x != a } }
  let s := s.onAcct a fun x => { x with causes := { x.causes with reset := false } }
  if c.destroy || c.lifecycle then releaseAcct a s
  else if c.admin || c.absent then s.onAcct a fun x => { x with state := .disabled }
  else enterEnabled a s

/-- Packages that WP_CANCEL stopped before D end CANCELLED, and that outcome stands (R180, R470, R477). -/
def endCancelled (a : Nat) (s : State) : State :=
  (s.pkgs.filter fun p => p.id.acct.toNat == a && p.state == .stopping && p.status == .cancelled).foldl
    (fun s p => endPkg p.id .cancelled s) s

/-- What is left of the wipe's requests has been granted by the time that the wipe ends, and counts (R471, R473). -/
def settleWipe (a : Nat) (s : State) : State :=
  (s.demand.filter fun r => r.acct.toNat == a).foldl (fun s r =>
    s.meter a (if r.vault then 4 else 3) ((if r.vault then 256 else 512) * r.count) r.die.toNat) s

/-- FUNCTION_STOP_DONE: the stop procedure of an account ends; every command of the function that is outstanding completes with
FUNCTION_DISABLED, but for a WP_CANCEL from before D (R181, R471, R472, R477). -/
def execFunctionStopDone (acct : BitVec 10) (s : State) : Result State :=
  let a := acct.toNat
  if (s.acct a).state != .stopping then .next s
  else
    let s := stopWork a (settleWipe a (finishAll a .functionDisabled (endCancelled a s)))
    .next (finishWait (.acctStop a) .ok [] (settleAcct a s))

/-! ## Quotas (R462, R463) -/

/-- A quota block's fields. -/
def quotaOf (b : Bytes) : Quota :=
  let u := fun (o n : Nat) => fieldAt b o n
  ⟨u 0 1, u 1 1 == 1, u 2 1, u 3 1, u 4 2, u 6 2, u 8 4, u 0xC 4, u 0x10 2, u 0x12 2, u 0x14 2, u 0x16 1, u 0x17 1⟩

/-- The bytes of a quota block. -/
def Quota.bytes (q : Quota) : Bytes :=
  padTo 64 (leBytes 1 q.partition ++ leBytes 1 (if q.classB then 1 else 0) ++ leBytes 1 q.weight ++ leBytes 1 q.pslots ++
    leBytes 2 q.sems ++ leBytes 2 q.psems ++ leBytes 4 q.descs ++ leBytes 4 q.prefixes ++ leBytes 2 q.seqs ++
    leBytes 2 q.groups ++ leBytes 2 q.domains ++ leBytes 1 q.models ++ leBytes 1 q.pkgs)

/-- Reserved fields are zero and values in range (R462). -/
def quotaOk (s : State) (b : Bytes) : Bool :=
  let q := quotaOf b
  decide (q.partition < 8) && decide (fieldAt b 1 1 < 2) && decide (1 ≤ q.weight) && decide (q.pslots ≤ 16) &&
  decide (q.domains ≤ 1023) && decide (q.models ≤ 64) && decide (q.pkgs ≤ 64) && leNat (b.drop 0x18) == 0 &&
  !(s.partDies q.partition).isEmpty

/-- The amounts that a quota takes from the module's pools, and the pools. -/
def Quota.amounts (q : Quota) : List (Nat × Nat) :=
  [(q.pslots, 16), (q.sems + q.psems, 32768), (q.descs, 65536), (q.prefixes, 262144), (q.seqs, 16384), (q.groups, 4096),
    (q.domains, 1023), (q.models, 64), (q.pkgs, 4096)]

/-- Every pool covers a quota beside those of the other created accounts (R462). -/
def poolsCover (s : State) (a : Nat) (q : Quota) : Bool :=
  let others := (s.ten.accts.zipIdx.filter fun x => x.2 != a && x.1.state != .none).map fun x => x.1.quota.amounts
  q.amounts.zipIdx.all fun x => decide (((others.map fun o => (o.getD x.2 (0, 0)).1).sum) + x.1.1 ≤ x.1.2)

/-- What an account uses now, in the layout of a quota block (R460). Its semaphores all exist; PARTITION, CLASS and WEIGHT
repeat the quota's (log entry 33, DEDUCED). -/
def usageOf (s : State) (a : Nat) : Quota :=
  let q := (s.acct a).quota
  { q with pslots := (s.led.slots.filter fun x => x.2.acct == a).length, psems := s.psemsHeld a, descs := s.descsHeld a,
           prefixes := (s.gens.index.filter fun e => e.acct == a).length,
           seqs := (s.gens.seqs.filter fun x => x.2.acct == a).length,
           groups := (s.led.groups.filter fun x => x.2.acct == a).length,
           domains := (s.gens.domains.filter fun x => x.2.creator == a).length, models := (s.slotsOf a).length,
           pkgs := s.residents a }

/-- The account semaphores that resident packages name: the highest index plus one. -/
def semsNamed (s : State) (a : Nat) : Nat :=
  maxNat ((s.pkgs.filter fun p => p.id.acct.toNat == a && p.resident).flatMap fun p =>
    (p.sems.filter fun x => x.kind == 1).map fun x => x.index + 1)

/-- A quota below what the account uses now (R463). -/
def belowUse (s : State) (a : Nat) (q : Quota) : Bool :=
  let u := usageOf s a
  decide (q.pslots < u.pslots) || decide (q.psems < u.psems) || decide (q.descs < u.descs) ||
  decide (q.prefixes < u.prefixes) || decide (q.seqs < u.seqs) || decide (q.groups < u.groups) ||
  decide (q.domains < u.domains) || decide (q.models < u.models) || decide (q.pkgs < u.pkgs) ||
  decide (q.sems < semsNamed s a)

/-- The account number that an account command names in its first field. -/
def namedAcct (c : Cmd) : Nat := cmdU c 0 2

/-- ACCT_CREATE and ACCT_MODIFY up to the quota block (R460, R463, R598). -/
def quotaCmd (c : Cmd) (s : State) (k : Nat → Quota → Res) : Res :=
  let at_ := cmdU c 8 8
  if !s.hasModRight (cmdA c) then fail .denied s
  else if !cmdTail c 16 || !cmdZ c 2 6 || !addrOk at_ || decide (1024 ≤ namedAcct c) then fail .badArg s
  else readFor c at_ 64 s fun b => if quotaOk s b then k (namedAcct c) (quotaOf b) else fail .badArg s

/-- ACCT_CREATE (R456, R463). -/
def execAcctCreate (c : Cmd) (s : State) : Result State :=
  runCmd 0x120 c s fun s => quotaCmd c s fun a q =>
    if (s.acct a).state != .none then fail .refusedState s
    else if !poolsCover s a q then fail .noResource s
    else
      let causes := { Causes.clear with absent := !s.fnExists a }
      let s := s.onAcct a fun x =>
        { x with state := .disabled, causes := causes, quota := q, thresh := 0, armed := true, belowSince := none }
      fail .ok (if causes.absent then s else enterEnabled a s)

/-- Under a lower WEIGHT, or class B in place of A, an admitted decode load of the account fails R266 (R463). -/
def loadFails (s : State) (a : Nat) (q : Quota) : Bool :=
  let old := (s.acct a).quota
  (decide (q.weight < old.weight) || (q.classB && !old.classB)) && (s.slotsOf a).any fun k => match s.model k with
    | some m => !frameFits m (s.costParams m) (s.loads k m)
    | none => false

/-- ACCT_MODIFY: an account that leaves its partition loses the partition's right, and the samplers that it started under it stop (R458,
R463, R477, R561). -/
def execAcctModify (c : Cmd) (s : State) : Result State :=
  runCmd 0x121 c s fun s => quotaCmd c s fun a q =>
    let old := (s.acct a).quota
    if (s.acct a).state == .none then fail .refusedState s
    else if (s.acct a).state == .stopping then fail .busy s
    else if !poolsCover s a q then fail .noResource s
    else if belowUse s a q || (q.partition != old.partition && s.ten.grants.any fun g => g.acct == a) ||
        (q.classB != old.classB && !(s.slotsOf a).isEmpty) then fail .busy s
    else if loadFails s a q then fail .noResource s
    else
      let s := if q.partition == old.partition then s
        else stopSamplers (fun _ x => !x.byModule && x.acct == a) (releaseRights a s)
      fail .ok (s.onAcct a fun x => { x with quota := q })

/-- The course of ACCT_DISABLE, ACCT_ENABLE and ACCT_DESTROY up to a created account (R459, R460). -/
def acctCmd (c : Cmd) (s : State) (k : Nat → Res) : Res :=
  let a := namedAcct c
  if !s.hasModRight (cmdA c) then fail .denied s
  else if !cmdTail c 2 || decide (1024 ≤ a) then fail .badArg s
  else if (s.acct a).state == .none then fail .refusedState s
  else k a

/-- ACCT_DISABLE (R459, R470, R477). -/
def execAcctDisable (c : Cmd) (s : State) : Result State :=
  runCmd 0x122 c s fun s => acctCmd c s fun a =>
    let admin := fun (x : Causes) => { x with admin := true }
    if s.hasModRight a then fail .refusedState s
    else if (s.acct a).state == .disabled then fail .ok (disableCause a admin s)
    else .wait (.acctStop a) (disableCause a admin s)

/-- ACCT_ENABLE: the cause ADMIN ends (R456, R477). -/
def execAcctEnable (c : Cmd) (s : State) : Result State :=
  runCmd 0x123 c s fun s => acctCmd c s fun a =>
    if (s.acct a).state == .stopping then fail .busy s
    else
      let s := s.onAcct a fun x => { x with causes := { x.causes with admin := false } }
      let x := s.acct a
      fail .ok (if x.state == .disabled && !x.causes.absent then enterEnabled a s else s)

/-- ACCT_DESTROY (R459, R477). -/
def execAcctDestroy (c : Cmd) (s : State) : Result State :=
  runCmd 0x124 c s fun s => acctCmd c s fun a =>
    if s.hasModRight a then fail .refusedState s
    else if (s.acct a).state == .disabled then fail .ok (releaseAcct a s)
    else .wait (.acctStop a) (disableCause a (fun x => { x with destroy := true }) s)

/-- The causes in force, bit i for cause i of R456. -/
def Causes.bits (c : Causes) : Nat :=
  let b := fun (x : Bool) (n : Nat) => if x then n else 0
  b c.admin 1 + b c.absent 2 + b c.reset 4 + b c.destroy 8 + b c.lifecycle 16

/-- ACCT_QUERY: the quota block and the usage block; outside OWNED of the caller alone (R456, R459, R460, R547). -/
def execAcctQuery (c : Cmd) (s : State) : Result State :=
  runCmd 0x125 c s fun s =>
    let a := namedAcct c
    let at_ := cmdU c 8 8
    let x := s.acct a
    if decide (1024 ≤ a) then fail .badArg s
    else if a != cmdA c && s.chip.fw.lifecycle != .owned then fail .denied s
    else if a != cmdA c && !s.hasModRight (cmdA c) && (x.state == .none || !s.hasPartRight (cmdA c) x.quota.partition) then
      fail .denied s
    else if !cmdTail c 16 || !cmdZ c 2 6 || !addrOk at_ then fail .badArg s
    else writeFor c at_ 128 s fun put =>
      .done .ok (leBytes 1 x.state.code ++ leBytes 1 x.causes.bits) (put (x.quota.bytes ++ (usageOf s a).bytes))

/-! ## Grants (R465, R466) -/

/-- The units that a grant command names, or none for a reserved value or a unit outside the table. -/
def namedUnits (c : Cmd) (a : Nat) : Option (List Grant) :=
  let pool := cmdU c 2 1
  let die := cmdU c 3 1
  let first := cmdU c 4 4
  let count := cmdU c 8 4
  let limit := [6140, 8192, 128, 511].getD pool 0
  if cmdTail c 12 && decide (pool < 4) && decide (die < 8) && !(pool == 3 && die != 0) && count != 0 &&
      decide (first + count ≤ limit) && decide (a < 1024) then
    some ((List.range count).map fun i => ⟨pool, die, first + i, a⟩)
  else none

/-- A decode group uses a Stream Engine (R249, R465). -/
def inDecodeGroup (s : State) (die se : Nat) : Bool :=
  s.models.any fun x => x.2.map.members.any fun k => (s.acctDies x.2.map.acct).getD (k / 4) 8 == die && k % 4 == se

/-- The key of a byte of a granted unit satisfies the unit. -/
def Grant.isUnit (g : Grant) (u : Nat × Nat × Nat) : Bool := g.pool == u.1 && g.die == u.2.1 && g.unit == u.2.2

/-- Grants in one order: by pool, die and unit. -/
def grantOrder (x y : Grant) : Bool :=
  decide ((x.pool * 8 + x.die) * 16384 + x.unit ≤ (y.pool * 8 + y.die) * 16384 + y.unit)

/-- ACCT_MEM_GRANT (R465). -/
def execAcctMemGrant (c : Cmd) (s : State) : Result State :=
  runCmd 0x126 c s fun s =>
    let a := namedAcct c
    if !s.hasModRight (cmdA c) then fail .denied s
    else match namedUnits c a with
      | none => fail .badArg s
      | some gs =>
        let taken := fun (g : Grant) => (s.unitOwner g.pool g.die g.unit).isSome ||
          (g.pool == 2 && inDecodeGroup s g.die (g.unit / 16))
        if (s.acct a).state == .none then fail .refusedState s
        else if gs.any fun g => g.pool != 3 && !(s.acctDies a).contains g.die then fail .badArg s
        else if gs.any taken then fail .busy s
        else
          let s := s.wipeWhere (inUnits fun u => gs.any fun g => g.isUnit u)
          fail .ok { s with ten := { s.ten with grants := (s.ten.grants ++ gs).mergeSort grantOrder } }

/-- The ranges that R466 protects: arenas and deposit regions, KV pools and Vault ranges, drops, and regions of resident
packages of an account. -/
def busyRanges (s : State) (a : Nat) : List (Nat × Nat) :=
  let pools := (s.models.filter fun x => x.2.map.acct == a).flatMap fun x =>
    ((x.2.kv.pools ++ x.2.kv.vaults).map fun p => (p.2.base, p.2.frames * x.2.frameBytes))
  let drops := (s.jobsOf a).flatMap fun x => x.2.drops.map fun d => (d.2.base, 64 * d.2.len)
  let regs := (s.pkgs.filter fun p => p.id.acct.toNat == a && p.resident).flatMap fun p =>
    p.regions.map fun r => (r.base, r.len)
  s.partHeld ++ pools ++ drops ++ regs

/-- A range of internal addresses touches a unit, through either view (R345, R347). -/
def rangeInUnit (r : Nat × Nat) (g : Grant) : Bool :=
  decide (0 < r.2) && (unitsOf r.1 r.2).contains (some (g.pool, g.die, g.unit))

/-- ACCT_MEM_REVOKE (R466). Strongbox units that the account's checkpoints need do not go (log entry 34, DEDUCED). -/
def execAcctMemRevoke (c : Cmd) (s : State) : Result State :=
  runCmd 0x127 c s fun s =>
    let a := namedAcct c
    if !s.hasModRight (cmdA c) then fail .denied s
    else match namedUnits c a with
      | none => fail .badArg s
      | some gs =>
        let left := (s.ten.grants.filter fun g => g.acct == a && g.pool == 3).length - gs.length
        let need := ((s.ft.ckpts.filter fun k => k.acct == a).map fun k => k.image.length).sum
        if gs.any fun g => s.unitOwner g.pool g.die g.unit != some a then fail .badArg s
        else if (busyRanges s a).any fun r => gs.any fun g => g.pool != 3 && rangeInUnit r g then fail .busy s
        else if (gs.headD ⟨0, 0, 0, 0⟩).pool == 3 && decide (left * 2 ^ 32 < need) then fail .busy s
        else
          let s := s.wipeWhere (inUnits fun u => gs.any fun g => g.isUnit u)
          fail .ok { s with ten := { s.ten with grants := s.ten.grants.filter fun g => !gs.contains g } }

/-! ## Partitions, rights and flags (R458 to R464, R599) -/

/-- The units of a die: the die, its cores, its Stream Engines, its HBM stacks and its fabric ports (R25, R500). -/
def dieUnits (d : Nat) : List (Nat × Nat) :=
  (1, d) :: (List.range 16).map (fun c => (2, 16 * d + c)) ++ (List.range 4).map (fun m => (3, 4 * d + m)) ++
  (List.range 2).map (fun h => (5, 2 * d + h)) ++ (List.range 8).map fun i => (6, 8 * d + i)

/-- Both views of units take the partition tag of the assignment in force; a Ledger die's is that of its two dies where they
agree (R500, log entry 35, DEDUCED). -/
def retag (s : State) : State :=
  let tag := fun (p : Option Nat) => p.getD 0xFF
  let put := fun (s : State) (x : Nat × Nat) (t : Nat) => s.onUnit x.1 x.2 fun u => { u with mTag := t, dTag := t }
  let s := (List.range 8).foldl (fun s d => (dieUnits d).foldl (fun s x => put s x (tag (s.dieOwner d))) s) s
  (List.range 4).foldl (fun s l =>
    put s (4, l) (if s.dieOwner (2 * l) == s.dieOwner (2 * l + 1) then tag (s.dieOwner (2 * l)) else 0xFF)) s

/-- Something of an account stands on a die: a grant, an arena, a deposit region, a decode group or a resident package (R461). -/
def dieBusy (s : State) (d : Nat) : Bool :=
  (s.ten.grants.any fun g => g.pool != 3 && g.die == d) ||
  (s.partHeld.any fun r => decide (0 < r.2) && dieOf r.1 == some d) ||
  ((List.range 4).any fun m => inDecodeGroup s d m) ||
  (s.pkgs.any fun p => p.resident && p.dies.contains d)

/-- PART_SET (R461). -/
def execPartSet (c : Cmd) (s : State) : Result State :=
  runCmd 0x128 c s fun s =>
    let n := cmdU c 0 1
    let dies := (List.range 8).filter fun d => (cmdU c 1 1).testBit d
    let old := s.partDies n
    let leaving := old.filter fun d => !dies.contains d
    if !s.hasModRight (cmdA c) then fail .denied s
    else if !cmdTail c 2 || decide (8 ≤ n) || dies.any fun d => match s.dieOwner d with
      | some p => p != n
      | none => false then fail .badArg s
    else if leaving.any fun d => dieBusy s d then fail .busy s
    else if !old.isEmpty && dies.isEmpty && s.ten.accts.any fun x => x.state != .none && x.quota.partition == n then fail .busy s
    else
      let s := { s with ten := { s.ten with parts := lmod s.ten.parts n fun _ => dies } }
      let s := (dies.filter fun d => !old.contains d).foldl (fun s d => wipeDie d s) s
      fail .ok (stopSamplers (fun k x => !x.byModule && leaving.contains k) (retag s))

/-- RIGHT_SET (R458, R599). -/
def execRightSet (c : Cmd) (s : State) : Result State :=
  runCmd 0x129 c s fun s =>
    let kind := cmdU c 0 1
    let p := cmdU c 1 1
    let a := cmdU c 2 2
    if !s.hasModRight (cmdA c) then fail .denied s
    else if !cmdTail c 4 || decide (2 ≤ kind) || decide (8 ≤ p) || (kind == 0 && (p != 0 || a == 0xFFFF)) ||
        (kind == 1 && (s.partDies p).isEmpty) || (a != 0xFFFF && decide (1024 ≤ a)) || (kind == 0 && a % 256 != 0) then
      fail .badArg s
    else if a != 0xFFFF && (s.acct a).state != .enabled then fail .refusedState s
    else if kind == 1 && a != 0xFFFF && (s.acct a).quota.partition != p then fail .badArg s
    else if kind == 0 then
      fail .ok (stopSamplers (fun _ x => x.byModule && x.acct != a) { s with ten := { s.ten with modRight := some a } })
    else
      let holder := if a == 0xFFFF then none else some a
      let s := { s with ten := { s.ten with partRights := lmod s.ten.partRights p fun _ => holder } }
      let former := fun (k : Nat) (x : Sampler) => !x.byModule && s.dieOwner k == some p && !s.hasPartRight x.acct p
      fail .ok (stopSamplers former s)

/-- The flags of an account (R464). -/
def Account.flags (x : Account) : Nat :=
  (if x.epochPin then 1 else 0) + (if x.strictFreeze then 2 else 0) + (if x.remoteSleep then 4 else 0)

/-- ACCT_FLAGS_SET (R464). -/
def execAcctFlagsSet (c : Cmd) (s : State) : Result State :=
  runCmd 0x12A c s fun s =>
    let a := cmdA c
    let (on, off) := (cmdU c 0 1, cmdU c 1 1)
    let mine := (s.slotsOf a).filterMap s.model
    let named := fun (i : Nat) => (on ||| off).testBit i
    if !cmdTail c 8 || !cmdZ c 2 6 || decide (8 ≤ on) || decide (8 ≤ off) || on &&& off != 0 then fail .badArg s
    else if (named 0 && mine.any fun m => !m.map.swap) || (named 1 && mine.any fun m => m.led.ustate == .open) then
      fail .refusedState s
    else
      let put := fun (i : Nat) (b : Bool) => (b || on.testBit i) && !off.testBit i
      let s := s.onAcct a fun x =>
        { x with epochPin := put 0 x.epochPin, strictFreeze := put 1 x.strictFreeze, remoteSleep := put 2 x.remoteSleep }
      .done .ok (leBytes 1 (s.acct a).flags) s

end Sys2Proof.Machine
end

