-- ==== Sys2Proof/Machine/Bar.lean ====
section
/-!
DEFINITION. BAR0 and BAR2 of a function (20): what a read of each register returns, what a write does, the latches, the
account memory aperture, and the MSI-X table.
-/
namespace Sys2Proof.Machine

/-- CMD_STAT (R479). -/
def cmdStat (f : Func) : Word :=
  BitVec.ofNat 32 (f.doorbells.length + (if f.ready then 2 ^ 8 else 0) + (if f.paused then 2 ^ 9 else 0) +
    (if f.cmdErr then 2 ^ 10 else 0) + (if f.ntfOvf then 2 ^ 11 else 0) + f.abi.toNat * 2 ^ 16)

/-- INT_CTL (R479). -/
def intCtl (f : Func) : Word := BitVec.ofNat 32 (f.cmdVec.toNat + f.ntfVec.toNat * 2 ^ 8 + f.ntfHold.toNat * 2 ^ 16)

/-- HP_LINK (R385). -/
def hpLink (s : State) (fn : Nat) : Word :=
  let l := s.link (portOf fn)
  let up := fun (v : Nat) => if l.up then v else 0
  BitVec.ofNat 32 (up l.rate + up l.width * 2 ^ 3 + up (if l.flit then 2 ^ 5 else 0) + up (if l.sris then 2 ^ 6 else 0) +
    (if s.mail.downSeen.contains fn then 2 ^ 7 else 0) + l.retrains.toNat * 2 ^ 8)

/-- FN_ID (R570). -/
def fnId (fn : Nat) : Word := BitVec.ofNat 32 (fn + portOf fn * 2 ^ 10 + fn % 256 * 2 ^ 12)

/-- FN_RIGHTS (R571). -/
def fnRights (s : State) (fn : Nat) : Word :=
  BitVec.ofNat 32 ((if s.hasModRight fn then 1 else 0) +
    ((List.range 8).map fun n => if s.ten.partRights.getD n none == some fn then 2 ^ (8 + n) else 0).sum)

/-- MOD_STATUS (R572). -/
def modStatus (s : State) : Word :=
  BitVec.ofNat 32 (s.chip.power.pstate + s.chip.power.override.bits * 2 ^ 4 + s.ft.risk.getD 5 0 * 2 ^ 8 +
    s.chip.fw.lifecycle.code * 2 ^ 16 + (if s.chip.fw.recovery then 2 ^ 18 else 0) + (if s.moving then 2 ^ 19 else 0))

/-- AP_CTL and AP_STAT (R570). -/
def apCtl (a : Aper) : Word := BitVec.ofNat 32 ((if a.en then 1 else 0) + a.size.toNat * 2 ^ 4)
/-- AP_STAT. -/
def apStat (a : Aper) : Word :=
  BitVec.ofNat 32 ((if a.outside then 1 else 0) + (if a.asleep then 2 else 0) + (if a.stopped then 4 else 0) +
    a.discards.toNat * 2 ^ 16)

/-- CNT_CTL (R557). -/
def cntCtl (c : Counter) : Word :=
  BitVec.ofNat 32 (c.src.toNat + (if c.en then 2 ^ 12 else 0) + (if c.afilt then 2 ^ 13 else 0) + c.account.toNat * 2 ^ 14 +
    c.unit.toNat * 2 ^ 24 + (if c.ufilt then 2 ^ 28 else 0) + (if c.ovf then 2 ^ 30 else 0))

/-- A counter of a scope: 0 to 7 are the dies, 8 the module (R579). -/
def State.counter (s : State) (scope i : Nat) : Counter := (s.chip.counters.getD scope []).getD i Counter.reset

/-- A function register, by its word offset (R570). -/
def funcWord (s : State) (fn off : Nat) : Word :=
  let f := s.func fn
  let a := s.aper fn
  match off with
  | 0x04 => cmdStat f
  | 0x08 => f.done.setWidth 32
  | 0x0C => (f.done >>> 32).setWidth 32
  | 0x10 => f.head
  | 0x14 => f.tail
  | 0x18 => f.lost
  | 0x1C => intCtl f
  | 0x20 => hpLink s fn
  | 0x24 => fnId fn
  | 0x28 => fnRights s fn
  | 0x2C => modStatus s
  | 0x30 => s.mtime.setWidth 32
  | 0x34 => ((a.mtimeLatch.getD s.mtime) >>> 32).setWidth 32
  | 0x38 => (a.base.setWidth 32 >>> 16) <<< 16
  | 0x3C => (a.base >>> 32).setWidth 32
  | 0x40 => apCtl a
  | 0x44 => apStat a
  | _ => 0

/-- The capability list, from offset 0x100 (R492, R493, R577). -/
def capBytes : Bytes :=
  let e := fun (id next : Nat) (body : Bytes) => leBytes 2 id ++ [1, 0] ++ leBytes 2 next ++ [0, 0] ++ body
  e 1 0x118 (leBytes 4 0x1000 ++ leBytes 2 64 ++ leBytes 2 64 ++ leBytes 4 0x2000 ++ leBytes 2 256 ++ leBytes 2 0) ++
  e 2 0x128 (leBytes 4 0x8000 ++ leBytes 2 1024 ++ leBytes 2 32) ++
  e 3 0x134 (leBytes 2 0x000E ++ leBytes 2 0) ++
  e 4 0x144 (leBytes 4 0x1C ++ leBytes 2 64 ++ leBytes 2 0) ++
  e 5 0 (leBytes 4 0x20 ++ leBytes 4 0)

/-- The 256 bytes of a response slot (R481): the status reads zero while RSTATE is not DONE. -/
def respBytes (r : Resp) : Bytes :=
  padTo 256 (leBytes 2 r.opcode ++ leBytes 1 r.abi.toNat ++ leBytes 1 (if r.rstate == 2 then r.status.code else 0) ++
    leBytes 4 r.seqno.toNat ++ leBytes 1 r.rstate ++ [0] ++ leBytes 2 r.rlen ++ List.replicate 4 0 ++
    leBytes 8 r.tDone.toNat ++ List.replicate 8 0 ++ r.payload)

/-- A word of the counter view, for the holder of the module's right (R579). -/
def viewWord (s : State) (fn off : Nat) : Word :=
  if s.hasModRight fn then
    let o := off - 0x12000
    let scope := o / 0x200
    let r := o % 0x200
    if r < 0x80 then cntCtl (s.counter scope (r / 4))
    else if 0x100 ≤ r then
      let v := (s.counter scope ((r - 0x100) / 8)).value.setWidth 64
      if r % 8 == 0 then v.setWidth 32 else (((s.aper fn).cntLatch.getD v) >>> 32).setWidth 32
    else 0
  else 0

/-- The byte that a read of BAR0 returns at an offset (R568). -/
def bar0Byte (s : State) (fn off : Nat) : Byte :=
  let ofWord := fun (w : Word) => BitVec.ofNat 8 (bitField w.toNat (8 * (off % 4)) 8)
  if off < 0x100 then ofWord (funcWord s fn (off / 4 * 4))
  else if off < 0x1000 then capBytes.getD (off - 0x100) 0
  else if off < 0x2000 then (padTo 64 (tgetD (s.func fn).cmdSlots ((off - 0x1000) / 64) [])).getD (off % 64) 0
  else if off < 0x6000 then (respBytes (tgetD (s.func fn).resp ((off - 0x2000) / 256) Resp.empty)).getD (off % 256) 0
  else if off < 0x8000 then 0
  else if off < 0x10000 then (padTo 32 (tgetD (s.func fn).ring ((off - 0x8000) / 32) [])).getD (off % 32) 0
  else if off < 0x10400 then
    let e := tgetD (s.aper fn).msix ((off - 0x10000) / 16) ⟨0, 0, true⟩
    (leBytes 8 e.addr.toNat ++ leBytes 4 e.data.toNat ++ leBytes 4 (if e.masked then 1 else 0)).getD (off % 16) 0
  else if 0x10800 ≤ off ∧ off < 0x10808 then BitVec.ofNat 8 (bitField (s.aper fn).msixPend.toNat (8 * (off % 8)) 8)
  else if 0x12000 ≤ off ∧ off < 0x13200 then ofWord (viewWord s fn (off / 4 * 4))
  else 0

/-- A 4-byte read of BAR0. -/
def bar0Word (s : State) (fn off : Nat) : Nat := leNat ((List.range 4).map fun i => bar0Byte s fn (off + i))

/-- An aligned 8-byte read of BAR0: two adjacent registers at one instant, so that module time and a counter come whole (R569, R573,
R580). -/
def bar0DWord (s : State) (fn off : Nat) : DWord :=
  let pair := BitVec.ofNat 64 (bar0Word s fn off + bar0Word s fn (off + 4) * 2 ^ 32)
  let r := (off - 0x12000) % 0x200
  if off == 0x30 then s.mtime
  else if decide (0x12000 ≤ off) && decide (off < 0x13200) && decide (0x100 ≤ r) && s.hasModRight fn then
    (s.counter ((off - 0x12000) / 0x200) ((r - 0x100) / 8)).value.setWidth 64
  else pair

/-- The MSI-X capability in configuration space: 64 vectors, enabled and not masked as a whole, its table and pending bits in BAR 0. No row
writes configuration space: the host has enabled MSI-X (R578, log entry 190, DESIGN CHOICE). -/
def msixCap : Bytes := [0x11, 0] ++ leBytes 2 (63 + 2 ^ 15) ++ leBytes 4 0x10000 ++ leBytes 4 0x10800

/-! ## Writes -/

/-- Unmask a vector: a pending message is sent (R578). -/
def unmask (fn vec : Nat) (s : State) : State :=
  let s := s.onAper fn fun a =>
    { a with msix := tset a.msix vec { (tgetD a.msix vec ⟨0, 0, true⟩) with masked := false } }
  if (s.aper fn).msixPend.getLsbD vec then
    (s.onAper fn fun a => { a with msixPend := a.msixPend &&& ~~~((1 : DWord) <<< vec) }).emit (.msix fn vec)
  else s

/-- MSIX_UNMASK (R578, R581). -/
def execMsixUnmask (fn : BitVec 10) (vector : BitVec 6) (s : State) : Result State :=
  .next (if s.barDark then s else unmask fn.toNat vector.toNat s)

/-- An aligned 4-byte write to the MSI-X table. -/
def msixWrite (fn off : Nat) (w : Word) (s : State) : State :=
  let vec := (off - 0x10000) / 16
  let e := tgetD (s.aper fn).msix vec ⟨0, 0, true⟩
  let set := fun (e : MsixEntry) => s.onAper fn fun a => { a with msix := tset a.msix vec e }
  match off % 16 with
  | 0 => set { e with addr := (e.addr >>> 32 <<< 32) ||| w.setWidth 64 }
  | 4 => set { e with addr := w.setWidth 64 <<< 32 ||| (e.addr.setWidth 32).setWidth 64 }
  | 8 => set { e with data := w }
  | _ => if w.getLsbD 0 then set { e with masked := true } else unmask fn vec s

/-- An aligned 4-byte write to a function register (R11, R12, R570). -/
def funcWrite (fn off : Nat) (w : Word) (s : State) : State :=
  match off with
  | 0x04 => s.onFunc fn fun f =>
      { f with cmdErr := f.cmdErr && (w.getLsbD 10 == false), ntfOvf := f.ntfOvf && (w.getLsbD 11 == false) }
  | 0x08 => s.onFunc fn fun f => { f with done := f.done &&& ~~~(w.setWidth 64) }
  | 0x0C => s.onFunc fn fun f => { f with done := f.done &&& ~~~(w.setWidth 64 <<< 32) }
  | 0x14 => moveTail fn w s
  | 0x1C => s.onFunc fn fun f =>
      { f with cmdVec := w.setWidth 6, ntfVec := (w >>> 8).setWidth 6, ntfHold := (w >>> 16).setWidth 8 }
  | 0x20 => if w.getLsbD 7 then { s with mail := { s.mail with downSeen := s.mail.downSeen.filter (· != fn) } } else s
  | 0x38 => s.onAper fn fun a =>
      { a with base := (a.base >>> 32 <<< 32) ||| ((w >>> 16 <<< 16).setWidth 52) }
  | 0x3C => s.onAper fn fun a => { a with base := (a.base.setWidth 32).setWidth 52 ||| (w.setWidth 52 <<< 32) }
  | 0x40 => s.onAper fn fun a =>
      let z := (w >>> 4).setWidth 4
      { a with en := w.getLsbD 0, size := if z.toNat ≤ 6 then z else a.size }
  | 0x44 => s.onAper fn fun a =>
      { a with outside := a.outside && (w.getLsbD 0 == false), asleep := a.asleep && (w.getLsbD 1 == false),
               stopped := a.stopped && (w.getLsbD 2 == false) }
  | _ => s

/-- Bytes written over a list of bytes. -/
def putBytes (l : Bytes) (off : Nat) (bs : Bytes) : Bytes := (l.take off ++ bs ++ l.drop (off + bs.length)).take l.length

/-- Write bytes of the command slots (R480). -/
def slotWrite (fn off : Nat) (bs : Bytes) (s : State) : State :=
  s.onFunc fn fun f =>
    (List.range bs.length).foldl (fun f i =>
      let o := off - 0x1000 + i
      if o < 0x1000 then
        let slot := putBytes (padTo 64 (tgetD f.cmdSlots (o / 64) [])) (o % 64) [bs.getD i 0]
        { f with cmdSlots := tset f.cmdSlots (o / 64) slot }
      else f) f

/-- REGISTER_WRITE: aligned 4-byte writes reach registers and the MSI-X table, any write reaches the command slots, and
every other write has no effect (R11, R569, R581). -/
def execRegisterWrite (fn : BitVec 10) (off : BitVec 20) (data : Bytes) (s : State) : Result State :=
  let o := off.toNat
  let w : Word := BitVec.ofNat 32 (leNat data)
  let aligned := data.length == 4 && o % 4 == 0
  if s.barDark then .next s
  else if o == 0 && aligned then .next (ringDoorbell fn.toNat w s)
  else if o < 0x100 then .next (if aligned then funcWrite fn.toNat o w s else s)
  else if 0x1000 ≤ o ∧ o < 0x2000 then .next (slotWrite fn.toNat o data s)
  else if 0x10000 ≤ o ∧ o < 0x10400 then
    .next (if aligned then msixWrite fn.toNat o w s
      else if data.length == 8 && o % 8 == 0 then
        msixWrite fn.toNat (o + 4) (BitVec.ofNat 32 (leNat (data.drop 4))) (msixWrite fn.toNat o w s)
      else s)
  else .next s

/-! ## Latching reads (R573, R580) -/

/-- MTIME_LO_READ: the read returns the low word and latches the whole of module time (R573, R581). -/
def execMtimeLoRead (fn : BitVec 10) (s : State) : Result State :=
  .next (if s.barDark then s else (s.onAper fn.toNat fun a => { a with mtimeLatch := some s.mtime }).emit
    (.read fn.toNat (leBytes 4 s.mtime.toNat)))

/-- CNT_VAL_LOW_READ: the read returns the low word of a counter and latches it; a function without the view reads zero
(R579 to R581). -/
def execCntValLowRead (fn : BitVec 10) (scope : BitVec 4) (index : BitVec 5) (s : State) : Result State :=
  if s.barDark then .next s
  else if s.hasModRight fn.toNat && decide (scope.toNat ≤ 8) then
    let s := countUnseen scope.toNat s
    let v := (s.counter scope.toNat index.toNat).value.setWidth 64
    .next ((s.onAper fn.toNat fun a => { a with cntLatch := some v }).emit (.read fn.toNat (leBytes 4 v.toNat)))
  else .next (s.emit (.read fn.toNat (leBytes 4 0)))

/-! ## The account memory aperture (R574, R575) -/

/-- The first condition of R574 that an access fails. -/
inductive ApRefusal where
  | outside | stopped | asleep
  deriving DecidableEq, Repr

/-- The check of an aperture access of `n` bytes. -/
def apCheck (s : State) (fn off n : Nat) : Option ApRefusal :=
  let a := s.aper fn
  if !a.en || decide (2 ^ (30 + a.size.toNat) < off + n) then some .outside
  else if decide (0 < n) && !s.inGrants fn (a.base.toNat + off) n then some .outside
  else if (s.acct fn).state != .enabled then some .stopped
  else if s.chip.power.pstate != 0 then some .asleep
  else none

/-- The status that a refused access leaves (R570). -/
def apRefuse (fn : Nat) (r : ApRefusal) (s : State) : State :=
  s.onAper fn fun a =>
    { a with outside := a.outside || r == .outside, stopped := a.stopped || r == .stopped,
             asleep := a.asleep || r == .asleep,
             discards := if a.discards == 0xFFFF then a.discards else a.discards + 1 }

/-- What an aperture read of a range returns. One that fails, beyond ECC or at a fenced unit, returns what the spec does not state, a free
value, and what failed is repaired and poisoned (R355, R502, R574, log entry 39, DESIGN CHOICE). -/
def apReads (fn a len : Nat) (s : State) : State :=
  if s.readFails a len then
    let s := s.discover a len
    { s.emit (.read fn (freeBytes s.freeCtr len)) with freeCtr := s.freeCtr + len }
  else s.emit (.read fn (s.read a len))

/-- APERTURE_READ: the data, or zero where the access is refused (R574, R581). (Log entry 39, DESIGN CHOICE.) -/
def execApertureRead (fn : BitVec 10) (off : BitVec 36) (len : Nat) (s : State) : Result State :=
  if s.barDark then .next s
  else match apCheck s fn.toNat off.toNat len with
  | some r => .next ((apRefuse fn.toNat r s).emit (.read fn.toNat (List.replicate len 0)))
  | none =>
    let rs := [((s.aper fn.toNat).base.toNat + off.toNat, len)]
    .next (s.carry (readMsgs (2 * portOf fn.toNat) rs) fun s =>
      apReads fn.toNat ((s.aper fn.toNat).base.toNat + off.toNat) len ((s.charge .host fn.toNat rs).meter fn.toNat 8 len 0))

/-- APERTURE_WRITE: the bytes land, or are discarded, as at a fenced unit (R502, R574, R581). -/
def execApertureWrite (fn : BitVec 10) (off : BitVec 36) (data : Bytes) (s : State) : Result State :=
  if s.barDark then .next s
  else match apCheck s fn.toNat off.toNat data.length with
  | some r => .next (apRefuse fn.toNat r s)
  | none =>
    let a := (s.aper fn.toNat).base.toNat + off.toNat
    .next (s.carry (writeMsgs (2 * portOf fn.toNat) [(a, data.length)]) fun s =>
      let s := (s.charge .host fn.toNat [(a, data.length)]).meter fn.toNat 8 data.length 0
      if s.rangeFails a data.length then s else s.write a data)

end Sys2Proof.Machine
end

