-- ==== Sys2Proof/Machine/LedgerOps.lean ====
section
/-!
DEFINITION. The block machine of a Ledger die: the registers of R236 and the instructions of update programs, one definition each
(07 R235 to R240). A meaning acts on the registers of the block in progress on a Ledger die and advances to the next instruction.
-/
namespace Sys2Proof.Machine

/-! ## Registers (R236) -/

/-- Elements of the block. -/
def LedRegs.len (r : LedRegs) : Nat := r.rows * r.cols
/-- An element register. -/
def LedRegs.elemReg (r : LedRegs) (n : Nat) : List Word := r.el.getD n []
/-- A scalar register. -/
def LedRegs.scalar (r : LedRegs) (n : Nat) : Word := r.sc.getD (n - 0x20) 0
/-- A source of an instruction with an element destination: an element register, or a scalar broadcast. -/
def LedRegs.lanes (r : LedRegs) (n : Nat) : List Word :=
  if n < 0x20 then r.elemReg n else List.replicate r.len (r.scalar n)
/-- A register that programs may write: T0 to T9, M0 to M3, N, S18 to S31 and Q0 to Q3. -/
def ledWritable (d : Nat) : Bool :=
  decide (d ≤ 9) || (decide (0xC ≤ d) && decide (d ≤ 0x10)) || (decide (0x32 ≤ d) && decide (d ≤ 0x43))
/-- Write an element register. -/
def LedRegs.setElem (r : LedRegs) (d : Nat) (ws : List Word) : LedRegs :=
  if ledWritable d then { r with el := r.el.set d ws } else r
/-- Write a scalar register. -/
def LedRegs.setScalar (r : LedRegs) (d : Nat) (w : Word) : LedRegs :=
  if ledWritable d then { r with sc := r.sc.set (d - 0x20) w } else r
/-- Write a matrix register. -/
def LedRegs.setMat (r : LedRegs) (d : Nat) (m : Mtx) : LedRegs := { r with q := r.q.set (d - 0x40) m }
/-- The next instruction. -/
def LedRegs.bump (r : LedRegs) : LedRegs := { r with pc := r.pc + 1 }

/-- `n` free words, and the registers that have used them (log entry 3, DESIGN CHOICE). -/
def LedRegs.frees (r : LedRegs) (n : Nat) : List Word × LedRegs :=
  ((List.range n).map fun i => (Config.freeValue (r.free + i)).setWidth 32, { r with free := r.free + n })

/-- A matrix register of a shape; one that is empty, or of another shape, reads as free values (log entry 48, DESIGN CHOICE). -/
def LedRegs.matrix (r : LedRegs) (n rows cols : Nat) : List Word × LedRegs :=
  match r.q[n - 0x40]? with
  | some m => if m.rows == rows && m.cols == cols && m.data.length == rows * cols then (m.data, r) else r.frees (rows * cols)
  | none => r.frees (rows * cols)

/-! ## Lanes and scalars (R237) -/

/-- An operation of one source, lane by lane, or on scalars. -/
def ledOp1 (f : Word → Word) (d a : Nat) (r : LedRegs) : LedRegs :=
  if d < 0x20 then r.setElem d ((r.lanes a).map f) else r.setScalar d (f (r.scalar a))
/-- An operation of two sources. -/
def ledOp2 (f : Word → Word → Word) (d a b : Nat) (r : LedRegs) : LedRegs :=
  if d < 0x20 then r.setElem d (List.zipWith f (r.lanes a) (r.lanes b)) else r.setScalar d (f (r.scalar a) (r.scalar b))
/-- An operation of three sources. -/
def ledOp3 (f : Word → Word → Word → Word) (d a b c : Nat) (r : LedRegs) : LedRegs :=
  if d < 0x20 then r.setElem d (List.zipWith (fun (x : Word × Word) z => f x.1 x.2 z) ((r.lanes a).zip (r.lanes b)) (r.lanes c))
  else r.setScalar d (f (r.scalar a) (r.scalar b) (r.scalar c))

/-- One rounding of A × B + C (R131). -/
def f32Fma (a b c : Word) : Word := toF32 ((ofF32 a).fma (ofF32 b) (ofF32 c))
/-- The square root (R131). -/
def f32Sqrt (a : Word) : Word := toF32 (ofF32 a).sqrt
/-- The sign: +1.0, −1.0 or +0.0; NaN for a NaN (R237). -/
def f32Sign (a : Word) : Word :=
  let v := ofF32 a
  if v.isNan then nanF32 else if v.isZero then 0 else if v.sign then 0xBF800000 else 0x3F800000
/-- B where A ≥ 0, either zero counting, and C otherwise (R237). -/
def f32Sel (a b c : Word) : Word := if Val.zero.le (ofF32 a) then b else c
/-- The magnitude (R237). -/
def f32Abs (a : Word) : Word := if (ofF32 a).isNan then nanF32 else a &&& 0x7FFFFFFF

/-! ## Sums and their anchors (R238) -/

/-- The anchor word of a reduction: AUTO, with the fallback anchor and headroom of IMM. -/
def ledWord (imm : Nat) : Nat := imm % 1024 + 1024 + bitField imm 10 3 * 4096

/-- The anchor of a recorded reduction of the instruction in progress. -/
def LedRegs.anchor (r : LedRegs) (product imm : Nat) : Int := anchorOf (ledWord imm) (tgetD r.prev (4 * r.pc + product) 0)

/-- What sums met is noted: ANCHOR_SAT, and the elements that saturated or that flags made non-finite (R63, R64, R67). -/
def LedRegs.meet (r : LedRegs) (os : List LaOut) : LedRegs :=
  { r with anchorSat := r.anchorSat || os.any (·.anchorSat),
           met := (r.met.1 + os.countP (·.anchorSat), r.met.2.1 + os.countP (·.fp32Sat), r.met.2.2 + os.countP (·.nonfinite)) }

/-- A result joins its anchor record, and what it met is noted (R238). -/
def LedRegs.note (r : LedRegs) (product : Nat) (o : LaOut) : LedRegs :=
  let k := 4 * r.pc + product
  let w := finiteTop [o.word]
  { r.meet [o] with
    amax := if decide ((tgetD r.amax k 0).toNat < w.toNat) && !o.nonfinite then tset r.amax k w else r.amax }
where
  /-- The largest finite magnitude of FP32 patterns. -/
  finiteTop (ws : List Word) : Word := ws.foldl (fun m w =>
    let a := w &&& 0x7FFFFFFF
    if decide (a.toNat < 0x7F800000) && decide (m.toNat < a.toNat) then a else m) 0

/-- Several results join a record. -/
def LedRegs.noteAll (r : LedRegs) (product : Nat) (os : List LaOut) : LedRegs := os.foldl (fun r o => r.note product o) r

/-- A sum of exact values at an anchor, rounded once, at the lowest of three anchors that does not overflow (R65 to R67, R136). -/
def laSum (A : Int) (vs : List Val) : LaOut := (La.choose ((passAnchors A).map fun B => (B, La.ofVals B vs)) 0).2

/-- The three shadows of a sum (R136). -/
def laShadows (A : Int) (vs : List Val) : Shadows :=
  (List.range 3).map fun i => if A + 32 * (i : Int) ≤ 511 then La.ofVals (A + 32 * (i : Int)) vs else La.zero

/-- The output of shadows. -/
def shadowsOut (A : Int) (sh : Shadows) : LaOut := (La.choose ((passAnchors A).zip sh) 0).2

/-- A combined value reaches its destination; one that has not arrived is free (R239, log entry 49, DESIGN CHOICE). -/
def LedRegs.takeCombined (r : LedRegs) (d : Nat) : LedRegs := match tget r.comb r.pc with
  | some w => r.setScalar d w
  | none =>
    let (ws, r) := r.frees 1
    r.setScalar d (ws.headD 0)

/-- A reduction to a scalar: within the block at once; over a wider scope pass 1 gives the block's partial sum and a free value, and
pass 2 the combined value (R237, R239, log entry 49, DESIGN CHOICE). -/
def ledReduce (scope : Scope) (imm d : Nat) (vs : List Val) (r : LedRegs) : LedRegs :=
  let A := r.anchor 0 imm
  if scope == .block then
    let o := laSum A vs
    (r.note 0 o).setScalar d o.word
  else if r.pass1 then
    let (ws, r) := r.frees 1
    { r.setScalar d (ws.headD 0) with parts := tset r.parts r.pc (laShadows A vs, 0) }
  else r.takeCombined d

/-- The larger of two magnitudes, a NaN being the largest. -/
def wordMax (a b : Word) : Word := if a.toNat < b.toNat then b else a

/-- The largest magnitude of words; NaN if any is a NaN (R237). -/
def ledMax (ws : List Word) : Word := ws.foldl (fun m w => wordMax m (f32Abs w)) 0

/-- RMAX over a scope. -/
def ledRmax (scope : Scope) (d : Nat) (ws : List Word) (r : LedRegs) : LedRegs :=
  if scope == .block then r.setScalar d (ledMax ws)
  else if r.pass1 then
    let (xs, r) := r.frees 1
    { r.setScalar d (xs.headD 0) with parts := tset r.parts r.pc (Shadows.zero, ledMax ws) }
  else r.takeCombined d

/-! ## Matrices (R237) -/

/-- Row `i` of a matrix in row order. -/
def rowOf (cols : Nat) (m : List Word) (i : Nat) : List Val := ((m.drop (i * cols)).take cols).map ofF32
/-- Column `j` of a matrix in row order. -/
def colOf (rows cols : Nat) (m : List Word) (j : Nat) : List Val := (List.range rows).map fun i => ofF32 (m.getD (i * cols + j) 0)
/-- The transpose of a matrix in row order. -/
def transposed (rows cols : Nat) (m : List Word) : List Word :=
  (List.range cols).flatMap fun j => (List.range rows).map fun i => m.getD (i * cols + j) 0

/-- The product of an n × k and a k × m matrix, each element one reduction at an anchor. -/
def matMul (A : Int) (n k m : Nat) (x y : List Word) : List LaOut :=
  (List.range n).flatMap fun i => (List.range m).map fun j => laSum A (List.zipWith Val.mul (rowOf k x i) (colOf k m y j))

/-- A recorded product of the instruction in progress. -/
def ledProduct (product imm n k m : Nat) (x y : List Word) (r : LedRegs) : List Word × LedRegs :=
  let os := matMul (r.anchor product imm) n k m x y
  (os.map (·.word), r.noteAll product os)

/-- GRAM. -/
def ledGram (d a : Nat) (trans : Bool) (imm : Nat) (r : LedRegs) : LedRegs :=
  let x := r.elemReg a
  let t := transposed r.rows r.cols x
  if trans then
    let (m, r) := ledProduct 0 imm r.cols r.rows r.cols t x r
    r.setMat d ⟨r.cols, r.cols, m⟩
  else
    let (m, r) := ledProduct 0 imm r.rows r.cols r.rows x t r
    r.setMat d ⟨r.rows, r.rows, m⟩

/-- QEMA: FMA(B, Q D, C × Q A), element by element, under the shape of Q A. -/
def ledQema (d a b c : Nat) (r : LedRegs) : LedRegs :=
  match r.q[a - 0x40]? with
  | none => r
  | some m =>
    let (old, r) := r.matrix d m.rows m.cols
    let (x, y) := (r.scalar b, r.scalar c)
    r.setMat d ⟨m.rows, m.cols, List.zipWith (fun o q => f32Fma x o (f32Mul y q)) old m.data⟩

/-- MML. -/
def ledMml (d a c : Nat) (trans : Bool) (imm : Nat) (r : LedRegs) : LedRegs :=
  let (q, r) := r.matrix a r.rows r.rows
  let q := if trans then transposed r.rows r.rows q else q
  let (m, r) := ledProduct 0 imm r.rows r.rows r.cols q (r.elemReg c) r
  r.setElem d m

/-- MMR. -/
def ledMmr (d a c : Nat) (trans : Bool) (imm : Nat) (r : LedRegs) : LedRegs :=
  let (q, r) := r.matrix a r.cols r.cols
  let q := if trans then transposed r.cols r.cols q else q
  let (m, r) := ledProduct 0 imm r.rows r.cols r.cols (r.elemReg c) q r
  r.setElem d m

/-! ## CIR (R237, R240) -/

/-- What factoring has so far: rows of L, whether a pivot was below θ, and its sums. -/
structure Factor where
  rows : List (List Word)
  sing : Bool
  sums : List LaOut
  deriving DecidableEq, Repr

/-- One inner product of CIR. -/
def cirDot (A : Int) (x y : List Word) : LaOut := laSum A (List.zipWith (fun a b => (ofF32 a).mul (ofF32 b)) x y)

/-- Row `i` of the Cholesky factor: each entry from the rows above and the entries before it. -/
def cholRow (A : Int) (theta : Word) (m : List Word) (n : Nat) (f : Factor) (i : Nat) : Factor :=
  let row := (List.range (i + 1)).foldl (fun (g : List Word × Bool × List LaOut) j =>
    let above := if j < i then f.rows.getD j [] else g.1
    let o := cirDot A (g.1.take j) (above.take j)
    let t := f32Sub (m.getD (i * n + j) 0) o.word
    let e := if j < i then f32Div t (above.getD j 0) else f32Sqrt t
    (g.1 ++ [e], g.2.1 || (j == i && (ofF32 t).lt (ofF32 theta)), g.2.2 ++ [o])) ([], false, [])
  ⟨f.rows ++ [row.1], f.sing || row.2.1, f.sums ++ row.2.2⟩

/-- Row `i` of the inverse of a lower triangular matrix, from the rows of the inverse above it, and its sums. R237 names the results and not
their formulas: every inner product is one LA sum, and an off-diagonal entry is the negated rounded sum over the row's diagonal, so that a
zero sum gives a zero of the other sign (log entry 177, DESIGN CHOICE). -/
def invRow (A : Int) (l : List (List Word)) (x : List (List Word)) (i : Nat) : List Word × List LaOut :=
  let li := l.getD i []
  let p := li.getD i 0
  let entry := fun (j : Nat) =>
    let ks := (List.range (i - j)).map (· + j)
    let o := cirDot A (ks.map fun k => li.getD k 0) (ks.map fun k => (x.getD k []).getD j 0)
    (f32Div (o.word ^^^ 0x80000000) p, o)
  let es := (List.range i).map entry
  (es.map (·.1) ++ [f32Div 0x3F800000 p], es.map (·.2))

/-- CIR: the inverse of the lower Cholesky factor of Q A + (B + S17)·I; its anchor comes from the largest diagonal element of Q A,
and is free where that gives none (R237, R238, log entry 50, DEDUCED). -/
def ledCir (d a b : Nat) (r : LedRegs) : LedRegs :=
  let n := match r.q[a - 0x40]? with
    | some m => m.rows
    | none => 0
  let (q, r) := r.matrix a n n
  let diag := (List.range n).map fun i => ofF32 (q.getD (i * n + i) 0)
  let top := diag.foldl (fun m v => if m.lt v then v else m) Val.zero
  let (ws, r1) := r.frees 1
  let known := top.isFin && !top.isZero
  let A := if known then clampAnchor (top.log2 + 9) else signed 10 (ws.headD 0).toNat
  let r := if known then r else r1
  let add := f32Add (r.scalar b) (r.scalar 0x31)
  let m := (List.range (n * n)).map fun k => if k / n == k % n then f32Add (q.getD k 0) add else q.getD k 0
  let f := (List.range n).foldl (cholRow A r.theta m n) ⟨[], false, []⟩
  let x := (List.range n).foldl (fun (x : List (List Word) × List LaOut) i =>
    let y := invRow A f.rows x.1 i
    (x.1 ++ [y.1], x.2 ++ y.2)) ([], [])
  let full := x.1.flatMap fun row => row ++ List.replicate (n - row.length) 0
  { (r.setMat d ⟨n, n, full⟩).meet (f.sums ++ x.2) with singular := r.singular || f.sing }

/-! ## NSNORM and NSSTEP (R237, R240) -/

/-- NSNORM: A × RSQRT(s + S17), singular where s + S17 is below θ × θ. -/
def ledNsnorm (d a imm : Nat) (r : LedRegs) : LedRegs :=
  let x := r.elemReg a
  let o := laSum (r.anchor 0 imm) (x.map fun w => (ofF32 w).mul (ofF32 w))
  let r := r.note 0 o
  let t := f32Add o.word (r.scalar 0x31)
  let k := libFn .rsqrt t
  let sing := (ofF32 t).lt (ofF32 (f32Mul r.theta r.theta))
  { r.setElem d (x.map fun w => f32Mul w k) with singular := r.singular || sing }

/-- NSSTEP: one Newton–Schulz step on A with coefficients in B, B + 1 and B + 2. -/
def ledNsstep (d a b imm : Nat) (r : LedRegs) : LedRegs :=
  let x := r.elemReg a
  let t := transposed r.rows r.cols x
  let (ca, cb, cc) := (r.scalar b, r.scalar (b + 1), r.scalar (b + 2))
  let wide := decide (r.rows ≤ r.cols)
  let n := if wide then r.rows else r.cols
  let (p, r) := if wide then ledProduct 0 imm n r.cols n x t r else ledProduct 0 imm n r.rows n t x r
  let (p2, r) := ledProduct 1 imm n n n p p r
  let z := List.zipWith (fun p q => f32Fma cb p (f32Mul cc q)) p p2
  let (y, r) := if wide then ledProduct 2 imm n n r.cols z x r else ledProduct 2 imm r.rows n n x z r
  r.setElem d (List.zipWith (fun x y => f32Fma ca x y) x y)

/-! ## Instructions (R235, R237) -/

/-- The scope of MOD[1:0]. -/
def scopeOf (md : Nat) : Scope := if md % 4 == 0 then .block else if md % 4 == 1 then .tensor else .step

/-- One instruction of a program on the registers of a block. -/
def ledStep (i : LdgIns) (r : LedRegs) : LedRegs :=
  let vals := fun (n : Nat) => (r.elemReg n).map ofF32
  (match i.op with
    | 0x01 => ledOp1 id i.d i.a r
    | 0x02 => ledOp2 f32Add i.d i.a i.b r
    | 0x03 => ledOp2 f32Sub i.d i.a i.b r
    | 0x04 => ledOp2 f32Mul i.d i.a i.b r
    | 0x05 => ledOp3 f32Fma i.d i.a i.b i.c r
    | 0x06 => ledOp2 f32Div i.d i.a i.b r
    | 0x07 => ledOp1 f32Sqrt i.d i.a r
    | 0x08 => ledOp2 (f32Op Val.min) i.d i.a i.b r
    | 0x09 => ledOp2 (f32Op Val.max) i.d i.a i.b r
    | 0x0A => match Fn.ofCode i.md with
      | some f => ledOp1 (libFn f) i.d i.a r
      | none => r
    | 0x0B => ledOp1 f32Sign i.d i.a r
    | 0x0C => ledOp3 f32Sel i.d i.a i.b i.c r
    | 0x0D => ledOp1 f32Abs i.d i.a r
    | 0x20 => ledReduce (scopeOf i.md) i.imm i.d (vals i.a) r
    | 0x21 => ledReduce (scopeOf i.md) i.imm i.d (List.zipWith Val.mul (vals i.a) (vals i.b)) r
    | 0x22 => ledRmax (scopeOf i.md) i.d (r.elemReg i.a) r
    | 0x23 => ledGram i.d i.a (i.md.testBit 0) i.imm r
    | 0x24 => ledQema i.d i.a i.b i.c r
    | 0x25 => ledMml i.d i.a i.c (i.md.testBit 0) i.imm r
    | 0x26 => ledMmr i.d i.a i.c (i.md.testBit 0) i.imm r
    | 0x27 => ledCir i.d i.a i.b r
    | 0x28 => ledNsnorm i.d i.a i.imm r
    | 0x29 => ledNsstep i.d i.a i.b i.imm r
    | _ => r).bump

/-- A program, or its first instructions, on a block. -/
def ledRun (p : List LdgIns) (r : LedRegs) : LedRegs := p.foldl (fun r i => ledStep i r) r

/-! ## The rows of the table: one instruction on the block in progress on a Ledger die -/

/-- The registers of the block in progress on a Ledger die. -/
def State.ledRegs (s : State) (ld : BitVec 2) : LedRegs := s.led.regs.getD ld.toNat (LedRegs.blank 0 0)
/-- Change those registers and advance to the next instruction; free values come from the state's counter. A die that is off runs none
(R588). -/
def onLed (ld : BitVec 2) (f : LedRegs → LedRegs) (s : State) : Result State :=
  let r := f { s.ledRegs ld with free := s.freeCtr }
  .next <| s.whenOn { s with freeCtr := r.free, led := { s.led with regs := lmod s.led.regs ld.toNat fun _ => r.bump } }

/-- LDG_MOV. -/
def execLdgMov (ld : BitVec 2) (d a : BitVec 8) (s : State) : Result State := onLed ld (ledOp1 id d.toNat a.toNat) s
/-- LDG_ADD. -/
def execLdgAdd (ld : BitVec 2) (d a b : BitVec 8) (s : State) : Result State :=
  onLed ld (ledOp2 f32Add d.toNat a.toNat b.toNat) s
/-- LDG_SUB. -/
def execLdgSub (ld : BitVec 2) (d a b : BitVec 8) (s : State) : Result State :=
  onLed ld (ledOp2 f32Sub d.toNat a.toNat b.toNat) s
/-- LDG_MUL. -/
def execLdgMul (ld : BitVec 2) (d a b : BitVec 8) (s : State) : Result State :=
  onLed ld (ledOp2 f32Mul d.toNat a.toNat b.toNat) s
/-- LDG_FMA. -/
def execLdgFma (ld : BitVec 2) (d a b c : BitVec 8) (s : State) : Result State :=
  onLed ld (ledOp3 f32Fma d.toNat a.toNat b.toNat c.toNat) s
/-- LDG_DIV. -/
def execLdgDiv (ld : BitVec 2) (d a b : BitVec 8) (s : State) : Result State :=
  onLed ld (ledOp2 f32Div d.toNat a.toNat b.toNat) s
/-- LDG_SQRT. -/
def execLdgSqrt (ld : BitVec 2) (d a : BitVec 8) (s : State) : Result State := onLed ld (ledOp1 f32Sqrt d.toNat a.toNat) s
/-- LDG_MIN. -/
def execLdgMin (ld : BitVec 2) (d a b : BitVec 8) (s : State) : Result State :=
  onLed ld (ledOp2 (f32Op Val.min) d.toNat a.toNat b.toNat) s
/-- LDG_MAX. -/
def execLdgMax (ld : BitVec 2) (d a b : BitVec 8) (s : State) : Result State :=
  onLed ld (ledOp2 (f32Op Val.max) d.toNat a.toNat b.toNat) s
/-- LDG_FN. -/
def execLdgFn (ld : BitVec 2) (d a : BitVec 8) (f : Fn) (s : State) : Result State :=
  onLed ld (ledOp1 (libFn f) d.toNat a.toNat) s
/-- SIGN. -/
def execSign (ld : BitVec 2) (d a : BitVec 8) (s : State) : Result State := onLed ld (ledOp1 f32Sign d.toNat a.toNat) s
/-- SEL. -/
def execSel (ld : BitVec 2) (d a b c : BitVec 8) (s : State) : Result State :=
  onLed ld (ledOp3 f32Sel d.toNat a.toNat b.toNat c.toNat) s
/-- ABS. -/
def execAbs (ld : BitVec 2) (d a : BitVec 8) (s : State) : Result State := onLed ld (ledOp1 f32Abs d.toNat a.toNat) s
/-- RSUM. -/
def execRsum (ld : BitVec 2) (d a : BitVec 8) (scope : Scope) (imm : BitVec 16) (s : State) : Result State :=
  onLed ld (fun r => ledReduce scope imm.toNat d.toNat ((r.elemReg a.toNat).map ofF32) r) s
/-- RDOT. -/
def execRdot (ld : BitVec 2) (d a b : BitVec 8) (scope : Scope) (imm : BitVec 16) (s : State) : Result State :=
  onLed ld (fun r => ledReduce scope imm.toNat d.toNat
    (List.zipWith (fun x y => (ofF32 x).mul (ofF32 y)) (r.elemReg a.toNat) (r.elemReg b.toNat)) r) s
/-- RMAX. -/
def execRmax (ld : BitVec 2) (d a : BitVec 8) (scope : Scope) (s : State) : Result State :=
  onLed ld (fun r => ledRmax scope d.toNat (r.elemReg a.toNat) r) s
/-- GRAM. -/
def execGram (ld : BitVec 2) (d a : BitVec 8) (trans : Bool) (imm : BitVec 16) (s : State) : Result State :=
  onLed ld (ledGram d.toNat a.toNat trans imm.toNat) s
/-- QEMA. -/
def execQema (ld : BitVec 2) (d a b c : BitVec 8) (s : State) : Result State :=
  onLed ld (ledQema d.toNat a.toNat b.toNat c.toNat) s
/-- MML. -/
def execMml (ld : BitVec 2) (d a c : BitVec 8) (trans : Bool) (imm : BitVec 16) (s : State) : Result State :=
  onLed ld (ledMml d.toNat a.toNat c.toNat trans imm.toNat) s
/-- MMR. -/
def execMmr (ld : BitVec 2) (d a c : BitVec 8) (trans : Bool) (imm : BitVec 16) (s : State) : Result State :=
  onLed ld (ledMmr d.toNat a.toNat c.toNat trans imm.toNat) s
/-- CIR. -/
def execCir (ld : BitVec 2) (d a b : BitVec 8) (s : State) : Result State := onLed ld (ledCir d.toNat a.toNat b.toNat) s
/-- NSNORM. -/
def execNsnorm (ld : BitVec 2) (d a : BitVec 8) (imm : BitVec 16) (s : State) : Result State :=
  onLed ld (ledNsnorm d.toNat a.toNat imm.toNat) s
/-- NSSTEP. -/
def execNsstep (ld : BitVec 2) (d a b : BitVec 8) (imm : BitVec 16) (s : State) : Result State :=
  onLed ld (ledNsstep d.toNat a.toNat b.toNat imm.toNat) s

end Sys2Proof.Machine
end

