-- ==== Sys2Proof/Machine/Secure.lean ====
section
/-!
DEFINITION. What a secure copy holds and how it is put back, plans, and the opening of a held Ledger step: what a turn uses of
chapters 07 and 14 (07 R223, 14 R433 to R448).
-/
namespace Sys2Proof.Machine

/-! ## Moving operations: places (R39) -/

/-- The partition of an account's models. -/
def State.partOf (s : State) (a : Nat) : Nat := (s.acct a).quota.partition
/-- The moving operations of a partition. -/
def State.movesOf (s : State) (p : Nat) : PartMoves := s.moves.getD p ⟨none, []⟩
/-- Change a partition's moving operations. -/
def State.onMoves (s : State) (p : Nat) (f : PartMoves → PartMoves) : State := { s with moves := lmod s.moves p f }
/-- The partition that runs a moving operation of a model, and the operation. -/
def State.runningMove (s : State) (slot : Nat) : Option (Nat × MoveOp) :=
  ((List.range 8).filterMap fun p => match (s.movesOf p).running with
    | some o => if o.slot == slot then some (p, o) else none
    | none => none).head?
/-- A moving operation of a model runs, of the kinds that satisfy a condition. -/
def State.movingNow (s : State) (slot : Nat) (p : MoveKind → Bool) : Bool := match s.runningMove slot with
  | some x => p x.2.kind
  | none => false
/-- A moving operation of a model waits. -/
def State.moveWaits (s : State) (slot : Nat) : Bool := s.moves.any fun x => x.queue.any fun o => o.slot == slot
/-- A new operation. -/
def MoveOp.new (slot id : Nat) (kind : MoveKind) (limit : Nat) : MoveOp :=
  { slot := slot, id := id, kind := kind, limit := limit, stage := .blocked, shard := 0, seg := 0, tries := 0, refetch := [], passed := [], redo := [], refetched := 0,
    landed := [], minted := [], wrote := false, again := false, toSlot1 := false, t0 := none, drained := none, ovr0 := 0,
    fail := none, after := none, imgs := [], newMap := none, inst := 0, copy := none, seqno := none, undo := [] }
/-- The part's moving operation of a model ends. -/
def dropRunning (p : Nat) (s : State) : State := s.onMoves p fun x => { x with running := none }
/-- Change the running operation of a partition. -/
def onRunning (p : Nat) (f : MoveOp → MoveOp) (s : State) : State := s.onMoves p fun x => { x with running := x.running.map f }

/-! ## Opening a Ledger step (R223) -/

/-- A step of the Ledger just opened. -/
def LedStep.new (step : Word) (gepoch limit : Nat) (isSealed : Bool) : LedStep :=
  { step := step, gepoch := gepoch, isSealed := isSealed, deny := false, limit := limit, stage := [], pass1 := [], pass2 := [],
    begun2 := false, partials := [], combined := [], combLayers := [], combStep := false, damp := [], failedOwn := [],
    failed := [], amax := [], mon := [], commit := false, mirrors := [], skips := 0, fallbacks := 0, discards := 0 }

/-- Open the step that UPD_BEGIN names; every step of an account with STRICT_FREEZE is SEALED (R223, R229). -/
def openStep (slot : Nat) (c : Cmd) (s : State) : State :=
  s.onModel slot fun m =>
    let shut := cmdU c 2 1 % 2 == 1 || (s.acct m.map.acct).strictFreeze
    let x := LedStep.new (BitVec.ofNat 32 (cmdU c 4 4)) (cmdU c 8 8) (cmdU c 16 4) shut
    { m with led := { m.led with ustate := .open, heldCmd := none, step := some x } }

/-- The rows of UPD_BEGIN that follow the hold (R223, R322). -/
def beginRefused (m : Model) (c : Cmd) : Bool := m.w.staged || cmdU c 8 8 != m.w.epoch

/-- A held UPD_BEGIN is decided when the turn ends (R223, R334). -/
def resolveHeld (slot : Nat) (s : State) : State :=
  match s.model slot with
  | none => s
  | some m => match m.led.heldCmd with
    | none => s
    | some c =>
      if beginRefused m c then
        finishWait (.held slot) .refusedState [] (s.onModel slot fun m => { m with led := { m.led with ustate := .idle, heldCmd := none } })
      else finishWait (.held slot) .ok [] (openStep slot c s)

/-! ## Plans (R439) -/

/-- L1, L2 and L3. -/
def FtModel.layers (f : FtModel) : List Nat := (List.range 3).map fun i => f.planU (2 + i) 1
/-- A part wants a copy at the next flip (R441). (Log entry 98, DEDUCED.) -/
def FtModel.wants (f : FtModel) : Bool :=
  f.plan.isSome && (f.crossing || f.request || f.deferred || (f.planU 8 2 != 0 && decide (f.planU 8 2 ≤ f.flips + 1)))
/-- The want comes from a crossing or a request. -/
def FtModel.urgent (f : FtModel) : Bool := f.plan.isSome && (f.crossing || f.request)
/-- A part is BUSY: a later layer's copy still reads a deposit that it made, or one that it holds (R441). -/
def copyBusy (s : State) (m : Model) : Bool :=
  m.ft.reads || s.ft.deposits.any fun d => d.acct == m.map.acct && d.model == m.map.num && d.read

/-! ## The contents of a copy (R433, R435) -/

/-- The amax entries in the plan's range. -/
def Model.keptAmax (m : Model) : List (Nat × Amax) :=
  let (lo, hi) := (m.ft.planU 0x20 4, m.ft.planU 0x24 4)
  if lo == 0 then [] else m.amax.filter fun x => decide (lo ≤ x.1) && decide (x.1 ≤ hi)

/-- One owned shard's contents: by row, high halves of the active buffer, low halves under SPLIT32, and the enabled state slots in
their formats; then Q3 of each block under QSAVE. -/
def shardCopy (s : State) (slot : Nat) (m : Model) (x : Shard × Nat) : Bytes :=
  match s.groupOf m.map (m.map.tensor x.1.tensor) with
  | none => []
  | some g =>
    let n := x.1.cols
    let state := fun (r k : Nat) =>
      let row := stateRow s slot k m.map x.2 r 0 n
      if g.stateFmt k == 0 then [] else if g.stateFmt k == 1 then row else (chunks 4 row).flatMap fun b => b.drop 2
    let row := fun (r : Nat) =>
      highRow s slot m.map m.w.activeB x.2 r 0 n ++ (if g.sr16 then [] else lowRow s slot m.map x.2 r 0 n) ++
        (List.range 4).flatMap fun k => state r k
    let q := fun (b : Nat) => bytesOfWords (tgetD s.led.q3 (q3Key slot x.2 b) ⟨g.br, g.br, List.replicate (g.br * g.br) 0⟩).data
    (List.range x.1.rows).flatMap row ++
      (if g.qsave then (List.range (g.blocks x.1).length).flatMap q else [])

/-- What the copy holds beside the shards: the counts and values of the Ledger's anchor records and of the amax records. -/
def recordsCopy (m : Model) : Bytes :=
  let a := m.keptAmax
  leBytes 4 m.led.records.length ++ leBytes 4 a.length ++
    m.led.records.flatMap (fun x => leBytes 8 x.1 ++ leBytes 4 x.2.toNat) ++
    a.flatMap fun x => leBytes 4 x.1 ++ leBytes 4 x.2.cur.toNat ++ leBytes 4 x.2.prev.toNat

/-- The copy of a partition die: its owned shards in map order; the first die's copy begins with the records (log entry 40, DESIGN CHOICE). -/
def dieCopy (s : State) (slot : Nat) (m : Model) (d : Nat) : Bytes :=
  (if d == 0 then recordsCopy m else []) ++
    (m.map.ownedShards.filter fun x => x.1.die == d).flatMap fun x => shardCopy s slot m x

/-- The length of a die's copy in a model's present settings. -/
def dieCopyLen (s : State) (slot : Nat) (m : Model) (d : Nat) : Nat := (dieCopy s slot m d).length

/-- Bytes that count for a section: 8 for each amax record and 4 for each anchor record (R433, log entry 40, DESIGN CHOICE). -/
def sectionBytes (s : State) (slot : Nat) (m : Model) (k : Nat) : Nat :=
  let dies := (List.range 8).filter fun d => s.dieOfPart m.map d / 2 == k
  let recs := 8 + 12 * m.led.records.length + 12 * m.keptAmax.length
  let n := (dies.map fun d => dieCopyLen s slot m d - (if d == 0 then recs else 0)).sum
  let n := n + (if dies.contains 0 then 8 * m.keptAmax.length + 4 * m.led.records.length else 0)
  (n + 4095) / 4096 * 4096

/-- CKPT_BYTES (R433). -/
def ckptBytes (s : State) (slot : Nat) (m : Model) : Nat := ((List.range 4).map (sectionBytes s slot m)).sum

/-- The whole contents: the copies of the partition's dies in order, each after its length. -/
def copyImage (s : State) (slot : Nat) (m : Model) : Bytes :=
  (List.range 8).flatMap fun d =>
    let b := dieCopy s slot m d
    leBytes 8 b.length ++ b

/-- The copy of one die out of an image. -/
def imageDie (image : Bytes) : Nat → Bytes
  | 0 => (image.drop 8).take (fieldAt image 0 8)
  | d + 1 => imageDie (image.drop (8 + fieldAt image 0 8)) d

/-- The commit record, with the time of commit still to come (R435). -/
def commitRecord (s : State) (slot : Nat) (m : Model) (flags kind : Nat) (seqno : Word) : Bytes :=
  padTo 128 (leBytes 2 1 ++ leBytes 2 m.map.num ++ leBytes 2 m.map.acct ++ leBytes 2 m.map.part ++ leBytes 4 m.map.job.toNat ++
    leBytes 4 seqno.toNat ++ leBytes 4 m.led.nextStep.toNat ++ leBytes 1 (if m.led.calibrate then 1 else 0) ++ leBytes 1 flags ++
    leBytes 1 kind ++ [0] ++ leBytes 8 m.w.epoch ++ leBytes 8 m.led.seed.toNat ++ leBytes 8 m.map.layout.toNat ++
    ((List.range 4).flatMap fun k => leBytes 8 (sectionBytes s slot m k)) ++ leBytes 8 0 ++ leBytes 4 m.keptAmax.length)

/-- A record with its time of commit. -/
def stampRecord (r : Bytes) (t : DWord) : Bytes := r.take 0x50 ++ leBytes 8 t.toNat ++ r.drop 0x58

/-- The key of a model's SEQNO counter, which outlives the model (R435). -/
def seqnoKey (m : ModelMap) : Nat := m.acct * 65536 + m.num

/-- The next SEQNO of a model on this part. -/
def nextSeqno (s : State) (m : ModelMap) : Word := tgetD s.ft.seqnos (seqnoKey m) 0 + 1

/-- Note the snapshot of a model for a copy of a KIND, under the next SEQNO (R442). -/
def snapshot (slot : Nat) (m : Model) (flags kind : Nat) (crossing request : Bool) (s : State) : CopyJob × State :=
  let q := nextSeqno s m.map
  ({ kind := kind, record := commitRecord s slot m flags kind q, image := copyImage s slot m, crossing := crossing,
     request := request, read := [], source := 0, step := m.led.nextStep, peer := 0, addr := 0 },
   { s with ft := { s.ft with seqnos := tset s.ft.seqnos (seqnoKey m.map) q } })

/-- The newest deposit of a model that its partner holds (R432). -/
def State.sentOf (s : State) (m : ModelMap) : Option Sent := s.ft.sent.find? fun x => x.acct == m.acct && x.model == m.num

/-- A model's deposit is no more. -/
def dropSent (acct model : Nat) (s : State) : State :=
  { s with ft := { s.ft with sent := s.ft.sent.filter fun x => !(x.acct == acct && x.model == model) } }

/-- A deposit on the way to the partner, die by die, each over its own die's ports; no contents zero the record only (R24, R436, R442).
-/
def sendDeposit (m : Model) (c : CopyJob) (whole : Bool) (t : DWord) (s : State) : State :=
  match s.jobOf m.map.acct m.map.job with
  | none => s
  | some j => (List.range (s.acctDies m.map.acct).length).foldl (fun s d =>
      let body := if whole then stampRecord c.record t ++ imageDie c.image d else []
      sendPart (some (s.dieOfPart m.map d)) j (m.ft.planU 6 2) 13 (leBytes 2 m.map.num ++ leBytes 1 d ++ body) s) s

/-- A drain starts as the moving operation of its partition, at the snapshot instant; over a busy part it abandons that part's later-layer
copies (R441, R442).
(Log entry 100, DESIGN CHOICE.) -/
def startDrain (p slot : Nat) (m : Model) (id flags kind : Nat) (crossing request : Bool) (s : State) : State :=
  let (c, s) := snapshot slot m flags kind crossing request s
  let o := MoveOp.new slot id .drain (m.ft.planU 0xC 4)
  let s := s.onMoves p fun x => { x with running := some { o with stage := .moving, t0 := some s.mtime, copy := some c } }
  let s := if copyBusy s m then dropLater slot m s else s
  if kind == 2 then sendDeposit m c false s.mtime (dropSent m.map.acct m.map.num s) else s

/-! ## Putting a copy back (R448) -/

/-- Restore the rows of a shard from its copy, into the buffer that is not active and in place in the Vault. -/
def restoreShard (slot : Nat) (m : Model) (g : Group) (x : Shard × Nat) (b : Bytes) (s : State) : State :=
  let n := x.1.cols
  let low := if g.sr16 then 0 else 2 * n
  let widths := (List.range 4).map fun k => if g.stateFmt k == 0 then 0 else if g.stateFmt k == 1 then 4 * n else 2 * n
  let stride := 2 * n + low + widths.sum
  let row := fun (s : State) (r : Nat) =>
    let b := (b.drop (r * stride)).take stride
    let s := putHigh slot m.map (!m.w.activeB) x.2 r 0 (b.take (2 * n)) s
    let s := if g.sr16 then s else putLow slot m.map x.2 r 0 ((b.drop (2 * n)).take low) s
    (List.range 4).foldl (fun s k =>
      let at_ := 2 * n + low + (widths.take k).sum
      let w := (b.drop at_).take (widths.getD k 0)
      if g.stateFmt k == 0 then s
      else putState slot k m.map x.2 r 0 (if g.stateFmt k == 1 then w else (chunks 2 w).flatMap fun h => [0, 0] ++ h) s) s
  let s := (List.range x.1.rows).foldl row s
  let q := (chunks (4 * g.br * g.br) (b.drop (x.1.rows * stride))).zipIdx
  if g.qsave then q.foldl (fun s y =>
      { s with led := { s.led with q3 := tset s.led.q3 (q3Key slot x.2 y.2) ⟨g.br, g.br, wordsOf y.1⟩ } }) s
  else s

/-- The bytes that a shard takes in a copy. -/
def shardLen (g : Group) (x : Shard) : Nat :=
  let w := (List.range 4).map fun k => if g.stateFmt k == 0 then 0 else if g.stateFmt k == 1 then 4 else 2
  x.elems * (2 + (if g.sr16 then 0 else 2) + w.sum) + (if g.qsave then (g.blocks x).length * 4 * g.br * g.br else 0)

/-- Restore the shards of a die from its copy. -/
def restoreShards (slot : Nat) (m : Model) : List (Shard × Nat) → Bytes → State → State
  | [], _, s => s
  | x :: xs, b, s => match s.groupOf m.map (m.map.tensor x.1.tensor) with
    | none => restoreShards slot m xs b s
    | some g => restoreShards slot m xs (b.drop (shardLen g x.1)) (restoreShard slot m g x (b.take (shardLen g x.1)) s)

/-- Restore the anchor and amax records. -/
def restoreRecords (slot : Nat) (b : Bytes) (s : State) : State :=
  let (n, k) := (fieldAt b 0 4, fieldAt b 4 4)
  let recs := (chunks 12 ((b.drop 8).take (12 * n))).map fun x => (fieldAt x 0 8, BitVec.ofNat 32 (fieldAt x 8 4))
  let am := chunks 12 ((b.drop (8 + 12 * n)).take (12 * k))
  s.onModel slot fun m =>
    let put := fun (t : Tbl Amax) (x : Bytes) =>
      tset t (fieldAt x 0 4) ⟨BitVec.ofNat 32 (fieldAt x 4 4), BitVec.ofNat 32 (fieldAt x 8 4), BitVec.ofNat 64 m.w.epoch⟩
    { m with led := { m.led with records := recs }, amax := am.foldl put m.amax }

/-- A restore from an image: what it writes. -/
def restoreCopy (slot : Nat) (m : Model) (image : Bytes) (s : State) : State :=
  let recLen := fun (b : Bytes) => 8 + 12 * fieldAt b 0 4 + 12 * fieldAt b 4 4
  let die := fun (s : State) (d : Nat) =>
    let b := imageDie image d
    let s := if d == 0 then restoreRecords slot b s else s
    restoreShards slot m (m.map.ownedShards.filter fun x => x.1.die == d) (if d == 0 then b.drop (recLen b) else b) s
  (List.range 8).foldl die s

/-- The model that a completed restore leaves: STAGED and IDLE, untorn, at the record's STEP and RUN_SEED under CALIBRATE (R448). -/
def Model.restored (record : Bytes) (m : Model) : Model :=
  { m with w := { m.w with staged := true },
           led := { m.led with ustate := .idle, step := none, calibrate := true, seed := BitVec.ofNat 64 (fieldAt record 0x20 8),
                               nextStep := BitVec.ofNat 32 (fieldAt record 0x10 4) } }

end Sys2Proof.Machine
end

