-- ==== Sys2Proof/Machine/Weights.lean ====
section
/-!
DEFINITION. The commands of family 0x04xx: creating, loading, turning, rebuilding, querying and unloading a model (10 R311 to
R341). The steps of moving operations are in `Turns.lean`.
-/
namespace Sys2Proof.Machine

/-! ## Tables of a map (R312 to R314) -/

/-- FAIL_INDEX when no single entry is at fault. -/
def noEntry : Nat := 0xFFFFFFFF

/-- The fields of the model block (R312). -/
def mapU (b : Bytes) (off n : Nat) : Nat := fieldAt b off n

/-- The reserved fields and ranges of the model block (R312). -/
def blockOk (b : Bytes) : Bool :=
  let u := mapU b
  let nt := u 4 4
  u 0 2 != 0 && u 2 2 != 0 && nt != 0 && decide (nt ≤ 1048575) && u 8 4 != 0 && decide (u 8 4 ≤ 2 ^ 24) &&
  decide (u 0xC 4 ≤ 2 ^ 24) && addrOk (u 0x10 8) && addrOk (u 0x18 8) && addrOk (u 0x20 8) &&
  (u 0xC 4 != 0 || u 0x20 8 == 0) && addrOk (u 0x28 8) && addrOk (u 0x30 8) && u 0x38 2 != 0 && decide (u 0x38 2 ≤ 8192) &&
  u 0x3A 2 == 0 && u 0x3C 4 != 0 && decide (u 0x40 4 ≤ 1048576) && zeroAt b 0x44 60

/-- The bytes of a source element (R313). -/
def Tensor.srcBytes (t : Tensor) : Nat := if t.srcBf16 then 2 else 4
/-- The elements of a tensor. -/
def Tensor.elems (t : Tensor) : Nat := t.rows * t.cols

/-- A tensor entry (R313). -/
def tensorOf (b : Bytes) : Tensor :=
  let u := fieldAt b
  ⟨u 0 2, u 2 2, u 4 1, u 5 1, (u 6 1).testBit 0, (u 6 1).testBit 1, (u 6 1).testBit 2, (u 7 1).testBit 0, u 7 1 / 2, u 8 8,
    u 0x10 4, u 0x14 4, u 0x20 8, u 0x28 8⟩

/-- The reserved fields and values of a tensor entry; a vector parameter may carry any code of R200's CALIBRATE column (log entry
41, DEDUCED). -/
def tensorOk (layers : Nat) (b : Bytes) : Bool :=
  let t := tensorOf b
  let anchor := fieldAt b 0x18 2
  decide (t.layer < layers) && decide (t.group < 4096) &&
  (t.calFmt == 1 || t.calFmt == 2 || t.calFmt == 5 || (t.calFmt == 0 && t.rows == 1)) &&
  (t.genFmt == 1 || t.genFmt == 5 || t.genFmt == 7 || t.genFmt == 8 || t.genFmt == 9) && decide (fieldAt b 6 1 < 8) &&
  decide (fieldAt b 7 1 < 8) && decide (t.base < 2 ^ 48) && t.rows != 0 && t.cols != 0 && t.cols % 32 == 0 &&
  !anchorReserved anchor && !anchorAuto anchor && zeroAt b 0x1A 6 && decide (t.cols * t.srcBytes ≤ t.srcStride) &&
  zeroAt b 0x30 16

/-- A shard entry of the training table (R314). -/
def trainShardOf (b : Bytes) : Shard :=
  let u := fieldAt b
  ⟨u 0 4, u 4 2, u 6 1 % 8, u 6 1 / 16 % 4, 0, u 8 4, u 0xC 4, u 0x10 4, u 0x14 4⟩
/-- A shard entry of the generation table (R314). -/
def genShardOf (b : Bytes) : Shard :=
  let u := fieldAt b
  ⟨u 0 4, u 4 2, u 6 1 % 8, 0, u 6 1 / 8 % 4, u 8 4, u 0xC 4, u 0x10 4, u 0x14 4⟩

/-- The values that both kinds of shard entry share (R314). -/
def shardFieldsOk (tensors : List Tensor) (nparts : Nat) (b : Bytes) (x : Shard) : Bool :=
  match tensors[x.tensor]? with
  | none => false
  | some t => decide (x.part < nparts) && fieldAt b 7 1 == 0 && zeroAt b 0x18 8 && decide (x.row0 ≤ x.row1) &&
      decide (x.row1 < t.rows) && decide (x.col0 ≤ x.col1) && decide (x.col1 < t.cols)
/-- The reserved fields and values of a training shard entry. -/
def trainShardOk (ts : List Tensor) (np : Nat) (b : Bytes) : Bool :=
  let p := fieldAt b 6 1
  !p.testBit 3 && decide (p / 16 < 3) && shardFieldsOk ts np b (trainShardOf b)
/-- The reserved fields and values of a generation shard entry. -/
def genShardOk (ts : List Tensor) (np : Nat) (b : Bytes) : Bool :=
  decide (fieldAt b 6 1 < 32) && shardFieldsOk ts np b (genShardOf b)

/-- An arena entry (R312). -/
def arenaOf (b : Bytes) : Arena := ⟨fieldAt b 0 8, fieldAt b 8 4, fieldAt b 0x10 8, fieldAt b 0xC 4⟩
/-- The reserved fields of an arena entry. -/
def arenaOk (b : Bytes) : Bool := addrOk (fieldAt b 0 8) && addrOk (fieldAt b 0x10 8) && zeroAt b 0x18 8

/-! ## The rows of R315 -/

/-- The first entry of a list that fails, numbered from a base. -/
def firstBadAt {α : Type} (base : Nat) (l : List α) (ok : α → Bool) : Option Nat :=
  (l.findIdx? fun x => !ok x).map (base + ·)

/-- Two rectangles of one tensor share an element. -/
def Shard.meets (x y : Shard) : Bool :=
  x.tensor == y.tensor && decide (x.row0 ≤ y.row1) && decide (y.row0 ≤ x.row1) && decide (x.col0 ≤ y.col1) &&
  decide (y.col0 ≤ x.col1)
/-- No two rectangles of a list meet. -/
def apart : List Shard → Bool
  | [] => true
  | x :: xs => !(xs.any fun y => x.meets y) && apart xs
/-- Rectangles cover a tensor exactly once. -/
def covers (t : Tensor) (xs : List Shard) : Bool := apart xs && (xs.map Shard.elems).sum == t.elems

/-- The index range of a tensor fits below 2^48 and meets that of no earlier tensor. -/
def rangeOk (ts : List Tensor) (i : Nat) : Bool := match ts[i]? with
  | none => true
  | some t => decide (t.base + t.elems ≤ 2 ^ 48) &&
      !((ts.take i).any fun y => decide (t.base < y.base + y.elems) && decide (y.base < t.base + t.elems))

/-- The generation rows of R315: every tensor without NOGEN covered exactly once, and shards on multiples of 32 along the blocked
dimension. -/
def genRows (ts : List Tensor) (gs : List Shard) (gbase : Nat) : List (Option Nat) :=
  let edge := fun (x : Shard) => match ts[x.tensor]? with
    | none => false
    | some t => if t.gblk then x.row0 % 32 == 0 && (x.row1 + 1) % 32 == 0 else x.col0 % 32 == 0 && (x.col1 + 1) % 32 == 0
  [if gs.isEmpty then none
   else firstBadAt 0 ts.zipIdx fun t => t.1.nogen || covers t.1 (gs.filter fun x => x.tensor == t.2),
   firstBadAt gbase gs edge]

/-- The rows of R315 on the entries, in order. -/
def mapRows (ts : List Tensor) (ss gs : List Shard) : List (Option Nat) :=
  let n := ts.length
  let frozen := fun (x : Shard) => match ts[x.tensor]? with
    | some t => t.frozen
    | none => false
  let owners := ss.filter fun x => x.role == 0
  [firstBadAt 0 (List.range n) (rangeOk ts),
   firstBadAt n ss fun x => x.col0 % 32 == 0 && (x.col1 + 1) % 32 == 0,
   firstBadAt 0 ts.zipIdx fun t => t.1.frozen || covers t.1 (owners.filter fun x => x.tensor == t.2),
   firstBadAt n ss fun x => x.role == 0 || frozen x || owners.any fun y => x.sameRect y,
   firstBadAt n ss fun x => x.role == 0 || !frozen x] ++
  genRows ts gs (n + ss.length) ++
  [firstBadAt 0 ts fun t => t.rows != 1 || t.genFmt == 1]

/-- The first failing row. -/
def firstRow : List (Option Nat) → Option Nat
  | [] => none
  | some i :: _ => some i
  | none :: rest => firstRow rest

/-- A completion of WT_CREATE. -/
def createEnd (st : Status) (idx : Nat) (s : State) : Res := .done st (leBytes 4 idx) s

/-- Read a table of WT_CREATE. -/
def readTable (acct a size n : Nat) (s : State) (k : List Bytes → Res) : Res :=
  if n == 0 then k []
  else readHeld a (size * n) s (createEnd .dataError noEntry)
    ((k (chunks size (s.read a (size * n)))).after (State.took acct [(a, size * n)]))

/-- An arena lies in the account's memory of its die (R315): HBM and Vault of the partition's die, outside other arenas. -/
def arenaHeld (s : State) (acct d : Nat) (a : Arena) : Bool :=
  let phys := (s.acctDies acct).getD d 8
  (a.hlen == 0 && a.vlen == 0) ||
  (decide (d < (s.acctDies acct).length) &&
    (a.hlen == 0 || (s.inGrants acct a.hbase (64 * a.hlen) && (match locOf a.hbase with
      | some (.hbm e _) => e == phys
      | _ => false))) &&
    (a.vlen == 0 || (s.inGrants acct a.vbase (64 * a.vlen) && (match locOf a.vbase with
      | some (.vault e _) => e == phys
      | _ => false))))

/-- Bytes of map space that a map takes: its entries (R316, log entry 42, DEDUCED). -/
def mapBytes (nt ns ng : Nat) : Nat := 64 * nt + 32 * (ns + ng)
/-- The map space of the models that exist. -/
def mapsHeld (s : State) : Nat :=
  (s.models.map fun x => mapBytes x.2.map.tensors.length x.2.map.shards.length x.2.map.gshards.length).sum

/-- A Stream Engine is in a decode group, or its buffer units are granted (R249, R315, R465). -/
def engineTaken (s : State) (die se : Nat) : Bool :=
  inDecodeGroupOf s die se || s.ten.grants.any fun g => g.pool == 2 && g.die == die && g.unit / 16 == se
where
  /-- A decode group of some model uses the engine. -/
  inDecodeGroupOf (s : State) (die se : Nat) : Bool :=
    s.models.any fun x => x.2.map.members.any fun k => (s.acctDies x.2.map.acct).getD (k / 4) 8 == die && k % 4 == se

/-- The LAYOUT digest of a map (R435): the tensor table, then this part's OWNER and TWIN entries, as 8-byte words. -/
def layoutDigest (part : Nat) (traw sraw : List Bytes) : DWord :=
  let keep := sraw.filter fun b => (trainShardOf b).part == part && (trainShardOf b).role != 1
  (bytesWords ((traw ++ keep).flatMap id)).foldl (fun x w => coin 0 x w) 0

/-- WT_CREATE once its tables are read: the rows of R315. -/
def createModel (c : Cmd) (b : Bytes) (traw sraw graw praw araw : List Bytes) (s : State) : Res :=
  let u := mapU b
  let acct := cmdA c
  let ts := traw.map tensorOf
  let (ss, gs) := (sraw.map trainShardOf, graw.map genShardOf)
  let n := ts.length
  let parts := praw.map leNat
  let (as_, np) := (araw.map arenaOf, parts.length)
  let fields := firstRow
    [firstBadAt 0 traw (tensorOk (u 2 2)), firstBadAt n sraw (trainShardOk ts np),
     firstBadAt (n + ss.length) graw (genShardOk ts np)]
  if let some i := fields then createEnd .badArg i s
  else if parts.any (fun p => decide (8192 ≤ p)) || !(araw.all arenaOk) then createEnd .badArg noEntry s
  else if let some i := firstRow (mapRows ts ss gs) then createEnd .badArg i s
  else if !gs.isEmpty && u 0x40 4 == 0 then createEnd .badArg noEntry s
  else match parts.findIdx? fun p => some p == s.chip.fabric.addr with
    | none => createEnd .badArg noEntry s
    | some part =>
      let dies := s.acctDies acct
      let inPart := fun (x : Shard) => x.part != part || decide (x.die < dies.length)
      let engineFree := fun (x : Shard) => x.part != part || !engineTaken s (dies.getD x.die 8) x.se
      let x := s.acct acct
      if (s.slotOf acct (u 0 2)).isSome then createEnd .busy noEntry s
      else if !(as_.zipIdx.all fun a => arenaHeld s acct a.2 a.1) then createEnd .denied noEntry s
      else if let some i := firstRow [firstBadAt n ss inPart, firstBadAt (n + ss.length) gs inPart] then createEnd .denied i s
      else if decide (x.quota.models ≤ (s.models.filter fun m => m.2.map.acct == acct).length) ||
          decide (2 ^ 28 < mapsHeld s + mapBytes n ss.length gs.length) then
        createEnd .noResource noEntry s
      else if let some i := firstBadAt (n + ss.length) gs engineFree then createEnd .noResource i s
      else match (List.range 64).find? fun i => (s.model i).isNone with
        | none => createEnd .noResource noEntry s
        | some slot =>
          let map : ModelMap :=
            { acct := acct, num := u 0 2, layers := u 2 2, vocab := u 0x40 4, job := BitVec.ofNat 32 (u 0x3C 4), part := part,
              parts := parts, tensors := ts, shards := ss, gshards := gs, arenas := as_,
              layout := layoutDigest part traw sraw, swap := !x.quota.classB || x.epochPin }
          let m : Model :=
            { map := map, w := Weights.create (traw.map fun t => fieldAt t 0x18 2), led := LedModel.create, kv := KvSet.create,
              gen := GenSet.create x.quota.classB, ft := FtModel.create, amax := [], unrolled := [] }
          createEnd .ok noEntry { s with models := tset s.models slot m }

/-- WT_CREATE (R315): the range of the block, then its own fields, then the ranges of its tables, then their entries. -/
def execWtCreate (c : Cmd) (s : State) : Result State :=
  runCmd 0x401 c s fun s =>
    let a := cmdU c 0 8
    let acct := cmdA c
    if !cmdTail c 8 || !addrOk a || a % 64 != 0 then createEnd .badArg noEntry s
    else if !s.inAccount acct a 128 then createEnd .denied noEntry s
    else readHeld a 128 s (createEnd .dataError noEntry) <|
      let b := s.read a 128
      let u := mapU b
      if !blockOk b then createEnd .badArg noEntry s
      else if !(s.inAccount acct (u 0x10 8) (64 * u 4 4) && s.inAccount acct (u 0x18 8) (32 * u 8 4) &&
          (u 0xC 4 == 0 || s.inAccount acct (u 0x20 8) (32 * u 0xC 4)) && s.inAccount acct (u 0x28 8) (4 * u 0x38 2) &&
          s.inAccount acct (u 0x30 8) 256) then createEnd .denied noEntry s
      else
        Res.after (State.took acct [(a, 128)]) <|
          readTable acct (u 0x10 8) 64 (u 4 4) s fun traw => readTable acct (u 0x18 8) 32 (u 8 4) s fun sraw =>
            readTable acct (u 0x20 8) 32 (u 0xC 4) s fun graw => readTable acct (u 0x28 8) 4 (u 0x38 2) s fun praw =>
              readTable acct (u 0x30 8) 32 8 s fun araw => createModel c b traw sraw graw praw araw s

/-! ## Commands that start moving operations -/

/-- The course of a command that names a MODEL in its first two bytes: its own fields, then the model (R311). -/
def onModelCmd (c : Cmd) (num : Nat) (ok : Bool) (s : State) (k : Nat → Model → Res) : Res :=
  if !ok then fail .badArg s
  else match s.slotOf (cmdA c) num with
    | none => fail .notFound s
    | some slot => match s.model slot with
      | none => fail .notFound s
      | some m => k slot m

/-- The model's job is joined by every part, with the map's part numbers (R412). -/
def jobReady (s : State) (m : ModelMap) : Bool := match s.jobOf m.acct m.job with
  | none => false
  | some j => j.table == m.parts && j.part == m.part && (List.range j.table.length).all fun p => j.joined.contains p

/-- A limit of a moving operation, in ms. -/
def limitOk (lo v : Nat) : Bool := decide (lo ≤ v) && decide (v ≤ 600000)

/-- A partition has no room for another moving operation to wait (R39). -/
def movesFull (s : State) (p : Nat) : Bool :=
  let m := s.movesOf p
  decide (16 ≤ m.queue.length - (if m.running.isSome then 0 else 1))

/-- The barrier that an operation's end waits at (R425); none for a drain and a restore. -/
def MoveKind.barrier : MoveKind → Option BarrierKind
  | .load => some .load
  | .turn | .rebuild => some .flip
  | .learn => some .learn
  | .drain | .restore => none

/-- The instance of a job's next barrier of a kind: one more than every instance decided here or used by an operation that has not
ended (R425, log entry 46, DEDUCED). -/
def nextInst (s : State) (job : Word) (kind : MoveKind) : Word :=
  let closed := (s.chip.fabric.barriers.filter fun b => b.job == job && some b.kind == kind.barrier && b.decision.isSome).map
    fun b => b.inst.toNat
  let used := (s.allMoves.filter fun o => o.kind.barrier == kind.barrier && (match s.model o.slot with
    | some m => m.map.job == job
    | none => false)).map fun o => o.inst.toNat
  BitVec.ofNat 32 (maxNat (closed ++ used) + 1)

/-- A waiting operation was asked for by a command of an account with a later SEQNO. (Log entry 157, DEDUCED.) -/
def asksLater (s : State) (acct : Nat) (seqno : Word) (o : MoveOp) : Bool := match o.seqno, s.model o.slot with
  | some n, some m => m.map.acct == acct && decide (seqno.toNat < n.toNat)
  | _, _ => false

/-- A command requests a moving operation of a model: it waits in its partition's queue, in the order of mailbox sequence numbers
(R39). -/
def requestMove (c : Cmd) (slot : Nat) (m : Model) (kind : MoveKind) (limit : Nat) (f : MoveOp → MoveOp) (s : State) : Res :=
  let p := s.partOf m.map.acct
  if movesFull s p then fail .noResource s
  else
    let o := f { MoveOp.new slot s.moveCtr kind limit with inst := nextInst s m.map.job kind, seqno := some c.seqno }
    let earlier := fun (x : MoveOp) => !asksLater s m.map.acct c.seqno x
    .wait (.move s.moveCtr) ({ s with moveCtr := s.moveCtr + 1 }.onMoves p fun x =>
      { x with queue := x.queue.takeWhile earlier ++ o :: x.queue.dropWhile earlier })

/-- A partition being reset starts no operation, and an operation needs its model's job (R412, R529). -/
def moveRefused (s : State) (m : Model) : Bool :=
  !jobReady s m.map || s.chip.power.partReset.contains (s.partOf m.map.acct)

/-- The groups of a map are held by its account for this model (R323). -/
def groupsHeld (s : State) (m : ModelMap) : Bool := m.tensors.all fun t => (s.groupOf m t).isSome

/-- No group holds both frozen and trainable tensors, and a frozen tensor's group is FROZEN (R323). -/
def frozenAgrees (s : State) (m : ModelMap) : Bool :=
  m.tensors.all fun t =>
    (!t.frozen || (match s.groupOf m t with
      | some g => g.frozen
      | none => false)) && m.tensors.all fun y => y.group != t.group || y.frozen == t.frozen

/-- The image ranges of the tensors that this part holds shards of lie in the account's host space (R323, log entry 43, DEDUCED). -/
def imagesHeld (m : ModelMap) (imgs : List Nat) : Bool :=
  m.tensors.zipIdx.all fun t =>
    !(m.shards.any fun x => m.mine x && x.tensor == t.2) ||
    inHostSpace m.acct (imgs.getD t.1.img 0 + t.1.srcOff) ((t.1.rows - 1) * t.1.srcStride + t.1.cols * t.1.srcBytes)

/-- A load, turn or rebuild (R342). -/
def MoveKind.lays : MoveKind → Bool
  | .load | .turn | .rebuild => true
  | _ => false

/-- WT_LOAD (R323): behind another operation of its partition it waits, but during a load of the model it is refused (R342). -/
def execWtLoad (c : Cmd) (s : State) : Result State :=
  runCmd 0x402 c s fun s =>
    let imgs := (List.range 4).map fun i => cmdU c (8 + 8 * i) 8
    let limit := cmdU c 4 4
    onModelCmd c (cmdU c 0 2) (cmdTail c 40 && cmdZ c 2 2 && limitOk 1 limit && imgs.all addrOk) s fun slot m =>
      if m.map.tensors.any fun t => imgs.getD t.img 0 == 0 then fail .badArg s
      else if m.w.ready || s.movingNow slot MoveKind.lays then fail .refusedState s
      else if !groupsHeld s m.map then fail .notFound s
      else if !frozenAgrees s m.map then fail .badArg s
      else if !imagesHeld m.map imgs then fail .denied s
      else if !arenasFit s m.map then fail .noResource s
      else if moveRefused s m then fail .refusedState s
      else requestMove c slot m .load limit (fun o => { o with imgs := imgs }) s

/-- The conditions of R331 that refuse a turn. -/
def turnRefused (m : Model) (expect : Nat) : Bool :=
  !m.w.ready || m.led.ustate != .idle || !m.w.staged || expect != m.w.epoch

/-- WT_TURN (R331). EXPECT is kept in the operation, to be compared again when it leaves the wait. -/
def execWtTurn (c : Cmd) (s : State) : Result State :=
  runCmd 0x403 c s fun s =>
    let (limit, expect) := (cmdU c 4 4, cmdU c 8 8)
    onModelCmd c (cmdU c 0 2) (cmdTail c 16 && cmdZ c 2 2 && limitOk 250 limit) s fun slot m =>
      if turnRefused m expect || moveRefused s m then fail .refusedState s
      else requestMove c slot m .turn limit (fun o => { o with imgs := [expect] }) s

/-- WT_LEARN (R340). -/
def execWtLearn (c : Cmd) (s : State) : Result State :=
  runCmd 0x404 c s fun s =>
    let limit := cmdU c 4 4
    onModelCmd c (cmdU c 0 2) (cmdTail c 8 && cmdZ c 2 2 && limitOk 1 limit) s fun slot m =>
      if moveRefused s m then fail .refusedState s else requestMove c slot m .learn limit id s

/-- A generation-phase package of a model is bound (R174). -/
def genBound (s : State) (m : ModelMap) (epoch : Nat → Bool) : Bool :=
  s.pkgs.any fun p => p.id.acct.toNat == m.acct && p.model == m.num && p.phase == .generation && p.started && epoch p.epoch.toNat

/-- The number of packages of a model, of either phase, that are bound to an epoch (R174). -/
def boundCount (s : State) (m : ModelMap) (epoch : Nat) : Nat :=
  (s.pkgs.filter fun p => p.id.acct.toNat == m.acct && p.model == m.num && p.started && p.epoch.toNat == epoch).length

/-- WT_REBUILD (R339): a new map is checked as R314 and the generation rows of R315 say; it names no format, so none can change
(log entry 44, DEDUCED). -/
def execWtRebuild (c : Cmd) (s : State) : Result State :=
  runCmd 0x405 c s fun s =>
    let (limit, a) := (cmdU c 4 4, cmdU c 8 8)
    onModelCmd c (cmdU c 0 2) (cmdTail c 16 && cmdZ c 2 2 && limitOk 250 limit && addrOk a) s fun slot m =>
      let ng := m.map.gshards.length
      let shut := !m.w.ready || ng == 0 || m.w.staged || moveRefused s m
      if a == 0 then
        if shut then fail .refusedState s else requestMove c slot m .rebuild limit id s
      else readFor c a (32 * ng) s fun raw =>
        let rows := chunks 32 raw
        let gs := rows.map genShardOf
        let map := { m.map with gshards := gs }
        let dies := s.acctDies m.map.acct
        let others := { s with models := terase s.models slot }
        let mine := gs.filter map.mine
        if !(rows.all (genShardOk m.map.tensors m.map.parts.length)) || (firstRow (genRows m.map.tensors gs 0)).isSome then
          fail .badArg s
        else if mine.any fun x => decide (dies.length ≤ x.die) then fail .denied s
        else if shut || s.modelBusy slot || genBound s m.map (fun _ => true) then fail .refusedState s
        else if !arenasFit s map || mine.any (fun x => engineTaken others (dies.getD x.die 8) x.se) then fail .noResource s
        else requestMove c slot m .rebuild limit (fun o => { o with newMap := some (gs, []) }) s

/-! ## WT_QUERY (R321) -/

/-- OP of a model (R321). -/
def moveCode (s : State) (slot : Nat) : Nat := match s.runningMove slot with
  | some x => match x.2.kind with
    | .load => 1
    | .turn => 2
    | .learn => 3
    | .rebuild => 4
    | .drain | .restore => 5
  | none => if s.moveWaits slot then 6 else 0

/-- What is bound to the old epoch: sequences of a running wave, pinned sequences and packages (R321, log entry 45, DEDUCED). -/
def oldHolders (s : State) (slot : Nat) (m : Model) : Nat :=
  let e := m.w.oldEpoch
  if e == 0 then 0
  else
    (match m.gen.running with
      | some w => if w.epoch == e then w.seqs.length else 0
      | none => 0) +
    ((s.seqsOf slot).filter fun x => x.2.pinned == some e && !x.2.state.final).length + boundCount s m.map e

/-- The model record (R321). -/
def modelRecord (s : State) (slot : Nat) (m : Model) : Bytes :=
  let w := m.w
  let flags := (if w.staged then 1 else 0) + (if w.gencopy then 2 else 0) + (if m.map.swap then 0 else 4)
  padTo 128 (leBytes 2 m.map.num ++ leBytes 1 (if w.ready then 2 else 1) ++ leBytes 1 (moveCode s slot) ++ leBytes 1 flags ++
    [0, 0, 0] ++ leBytes 8 w.epoch ++ leBytes 8 w.oldEpoch ++ leBytes 4 (oldHolders s slot m) ++ leBytes 4 w.turns ++
    leBytes 8 (windowBase + slot * 2 ^ 41) ++ leBytes 8 (windowBase + slot * 2 ^ 41 + 2 ^ 40) ++
    leBytes 8 (maxNat ((List.range 8).map (hbmNeed m.map))) ++ leBytes 8 (maxNat ((List.range 8).map (vaultNeed s m.map))) ++
    leBytes 4 w.lastUs ++ leBytes 4 w.lastExcess ++ leBytes 4 w.failed ++ leBytes 4 w.refetches)

/-- A layout entry (R321). -/
def layoutEntry (shard kind die stride off soff : Nat) : Bytes :=
  leBytes 4 shard ++ leBytes 1 kind ++ leBytes 1 die ++ leBytes 2 (stride / 64) ++ leBytes 4 (off / 64) ++ leBytes 4 (soff / 64)

/-- The layout entries of the shards that this part holds; a NOGEN tensor has no copy (R313, R321). -/
def layoutEntries (m : ModelMap) : List Bytes :=
  let (nt, ns) := (m.tensors.length, m.shards.length)
  let train := (m.shards.zipIdx.filter fun x => m.mine x.1).map fun x =>
    layoutEntry (nt + x.2) 0 x.1.die (trainStride x.1) (trainOff m x.2) 0
  let gen := (m.gshards.zipIdx.filter fun x => m.mine x.1 && !(m.tensor x.1.tensor).nogen).map fun x =>
    let t := m.tensor x.1.tensor
    layoutEntry (nt + ns + x.2) 1 x.1.die (genStride t x.1) (genOff m x.2) (if t.gfmt.isMx then genSOff m x.2 else 0)
  train ++ gen

/-- WT_QUERY (R321). -/
def execWtQuery (c : Cmd) (s : State) : Result State :=
  runCmd 0x406 c s fun s =>
    let a := cmdU c 8 8
    onModelCmd c (cmdU c 0 2) (cmdTail c 16 && cmdZ c 2 6 && addrOk a) s fun slot m =>
      let es := layoutEntries m.map
      writeFor c a (128 + 16 * es.length) s fun put =>
        .done .ok (leBytes 4 es.length) (put (modelRecord s slot m ++ es.flatMap id))

/-! ## Anchors, withdrawal, unloading -/

/-- WT_ANCHOR_SET (R335). -/
def execWtAnchorSet (c : Cmd) (s : State) : Result State :=
  runCmd 0x407 c s fun s =>
    let (word, t) := (cmdU c 2 2, cmdU c 4 4)
    onModelCmd c (cmdU c 0 2) (cmdTail c 8 && !anchorReserved word && !anchorAuto word) s fun slot m =>
      match m.map.tensors[t]? with
      | none => fail .badArg s
      | some x =>
        if x.nogen then fail .badArg s
        else if s.movingNow slot fun k => k == .turn || k == .rebuild then fail .busy s
        else fail .ok (s.onModel slot fun m => { m with w := { m.w with stagedAnch := tset m.w.stagedAnch t word } })

/-- A copy is withdrawn: GENCOPY clears and every non-final sequence ends FAULTED with END 0x0B (R338). -/
def withdrawCopy (slot : Nat) (s : State) : State :=
  faultModel slot 0xB (s.onModel slot fun m => { m with w := { m.w with gencopy := false } })

/-- WT_GEN_DROP (R338). -/
def execWtGenDrop (c : Cmd) (s : State) : Result State :=
  runCmd 0x408 c s fun s =>
    onModelCmd c (cmdU c 0 2) (cmdTail c 2) s fun slot _ =>
      if s.movingNow slot MoveKind.lays then fail .refusedState s else fail .ok (withdrawCopy slot s)

/-- A package is bound to a model (R174, R341). -/
def boundTo (s : State) (m : ModelMap) : Bool :=
  s.pkgs.any fun p => p.id.acct.toNat == m.acct && p.model == m.num && p.resident

/-- WT_UNLOAD (R341): the arenas are zeroed and are account memory again, and what the model held is gone. -/
def execWtUnload (c : Cmd) (s : State) : Result State :=
  runCmd 0x409 c s fun s =>
    onModelCmd c (cmdU c 0 2) (cmdTail c 2) s fun slot m =>
      if (s.runningMove slot).isSome || s.moveWaits slot || m.led.ustate == .open || m.led.ustate == .held ||
          !m.ft.later.isEmpty || boundTo s m.map || s.modelBusy slot then fail .refusedState s
      else fail .ok (dropModel slot (wipeRanges m.arenaRanges (keepImports slot (finishWait (.secure slot) .aborted [] s))))

end Sys2Proof.Machine
end

