-- ==== Sys2Proof/Machine/Turns.lean ====
section
/-!
DEFINITION. The steps of loads, turns, rebuilds and learn barriers: segments, resharding, the Mint, job barriers, flips and failures
(01 R39 to R43, 10 R318 to R342, 13 R425 to R427).
-/
namespace Sys2Proof.Machine

/-! ## What an operation moves (R329) -/

/-- The map under which an operation builds its copy: the new generation map of a rebuild, or the model's (R339). -/
def opMap (m : Model) (o : MoveOp) : ModelMap := match o.newMap with
  | some x => { m.map with gshards := x.1 }
  | none => m.map

/-- The buffer that an operation reads: A at a load, the staged one in a turn, the active one in a rebuild (R324, R332, R339). -/
def opBuffer (m : Model) (o : MoveOp) : Bool := match o.kind with
  | .load => false
  | .turn => if o.again then m.w.activeB else !m.w.activeB
  | _ => m.w.activeB

/-- FROZEN_AT_LOAD tensors move at a load and never after it (R329). -/
def opFrozen (o : MoveOp) : Bool := o.kind == .load

/-- The generation shards that an operation builds on this part, by layer and then in map order. -/
def opShards (m : Model) (o : MoveOp) : List (Shard × Nat) :=
  let map := opMap m o
  let layer := fun (x : Shard × Nat) => (map.tensor x.1.tensor).layer
  let xs := map.gshards.zipIdx.filter fun x =>
    let t := map.tensor x.1.tensor
    map.mine x.1 && !t.nogen && (opFrozen o || !t.frozen)
  xs.mergeSort fun a b => decide (layer a < layer b) || (layer a == layer b && decide (a.2 ≤ b.2))

/-- A segment of a reshard: the generation shard, the training shard that supplies it, whether that lies on this part, and the
rectangle. -/
structure MoveSeg where
  dst  : Shard
  gidx : Nat
  src  : Shard
  sidx : Nat
  here : Bool
  r0   : Nat
  r1   : Nat
  c0   : Nat
  c1   : Nat
  deriving DecidableEq, Repr

/-- The distinct OWNER rectangles of a tensor. -/
def ownerRects (m : ModelMap) (t : Nat) : List (Shard × Nat) :=
  (m.shards.zipIdx.filter fun x => x.1.role == 0 && x.1.tensor == t).foldl (fun l x =>
    if l.any fun y => y.1.sameRect x.1 then l else l ++ [x]) []

/-- The holders that can supply a rectangle to a die of this part: on the die, then on the part by die, then the OWNER (R329). -/
def holdersOf (m : ModelMap) (die : Nat) (y : Shard × Nat) : List (Shard × Nat) :=
  let same := m.shards.zipIdx.filter fun x => x.1.sameRect y.1 && m.mine x.1
  (same.filter fun x => x.1.die == die) ++
    ((same.filter fun x => x.1.die != die).mergeSort fun a b => decide (a.1.die ≤ b.1.die)) ++
    (if m.mine y.1 then [] else [y])

/-- The holder that supplies a rectangle: the first, and the next after each that could not read it (R329, R371). A segment that a link
has damaged comes from the same holder again (R330). -/
def holderOf (m : ModelMap) (die : Nat) (y : Shard × Nat) (passed : Nat) : Shard × Nat :=
  let hs := holdersOf m die y
  hs.getD (passed % hs.length) y

/-- The rectangles that an operation moves, in the order of R329: a generation shard and an OWNER shard that meets it. -/
def opRects (m : Model) (o : MoveOp) : List ((Shard × Nat) × (Shard × Nat)) :=
  (opShards m o).flatMap fun x => ((ownerRects m.map x.1.tensor).filter fun y =>
    decide (max x.1.row0 y.1.row0 ≤ min x.1.row1 y.1.row1) && decide (max x.1.col0 y.1.col0 ≤ min x.1.col1 y.1.col1)).map
      fun y => (x, y)

/-- The segments of an operation, in the order of R329. -/
def opSegments (m : Model) (o : MoveOp) : List MoveSeg :=
  (opRects m o).zipIdx.map fun r =>
    let (x, y) := r.1
    let h := holderOf m.map x.1.die y (tgetD o.passed r.2 0)
    ⟨x.1, x.2, h.1, h.2, m.map.mine h.1, max x.1.row0 y.1.row0, min x.1.row1 y.1.row1, max x.1.col0 y.1.col0,
      min x.1.col1 y.1.col1⟩

/-- The layer of a segment. -/
def MoveSeg.layer (g : MoveSeg) (m : Model) : Nat := (m.map.tensor g.dst.tensor).layer

/-- The storage of a segment's rows on this part: keys and lengths. -/
def MoveSeg.keys (g : MoveSeg) (slot : Nat) (m : Model) (bufB : Bool) : List (Nat × Nat) :=
  (List.range (g.r1 + 1 - g.r0)).map fun i =>
    (trainKey slot bufB g.src.die (elemOff m.map g.sidx (g.r0 + i - g.src.row0) (g.c0 - g.src.col0)), 2 * (g.c1 + 1 - g.c0))

/-- The rows of a segment, as its holder on this part stores them. -/
def MoveSeg.rows (g : MoveSeg) (s : State) (slot : Nat) (m : Model) (bufB : Bool) : List Bytes :=
  (List.range (g.r1 + 1 - g.r0)).map fun i =>
    highRow s slot m.map bufB g.sidx (g.r0 + i - g.src.row0) (g.c0 - g.src.col0) (g.c1 + 1 - g.c0)

/-! ## The landing area -/

/-- Where a generation shard lies in the landing area: after the shards of its die that come before it. -/
def landOff (m : Model) (o : MoveOp) (gidx die : Nat) : Nat :=
  (((opShards m o).takeWhile fun x => x.2 != gidx).filter fun x => x.1.die == die).map (fun x => 2 * x.1.elems) |>.sum

/-- The bytes of column `j` of rows of 16-bit elements. -/
def columnOf (rows : List Bytes) (j : Nat) : Bytes := rows.flatMap fun r => (r.drop (2 * j)).take 2

/-- Where a segment's rows land, transposed under GBLK 1: keys and lengths (R329). -/
def landKeys (slot : Nat) (m : Model) (o : MoveOp) (g : MoveSeg) : List (Nat × Nat) :=
  let t := m.map.tensor g.dst.tensor
  let base := landOff m o g.gidx g.dst.die
  let width := (genShape t g.dst).2
  let at_ := fun (i : Nat) =>
    if t.gblk then (g.c0 - g.dst.col0 + i) * width + (g.r0 - g.dst.row0) else (g.r0 - g.dst.row0 + i) * width + (g.c0 - g.dst.col0)
  let (rows, cols) := (g.r1 + 1 - g.r0, g.c1 + 1 - g.c0)
  (List.range (if t.gblk then cols else rows)).map fun i =>
    (landKey slot g.dst.die (base + 2 * at_ i), 2 * if t.gblk then rows else cols)

/-- A segment's rows as they land, each with its key (R329). -/
def landLines (slot : Nat) (m : Model) (o : MoveOp) (g : MoveSeg) (rows : List Bytes) : List (Nat × Bytes) :=
  let lines := if (m.map.tensor g.dst.tensor).gblk then (List.range (g.c1 + 1 - g.c0)).map fun j => columnOf rows j else rows
  ((landKeys slot m o g).map (·.1)).zip lines

/-- Rows land, for which the Reshard Engine asks for credits (R329, R359). -/
def landRows (acct : Nat) (lines : List (Nat × Bytes)) (s : State) : State :=
  lines.foldl (fun s x => s.putKey x.1 x.2) (s.chargeKeys .turn acct (lines.map fun x => (x.1, x.2.length)))

/-- Storage of a model lies in a fenced unit, which takes no write (R502). -/
def State.keysFail (s : State) (ks : List (Nat × Nat)) : Bool := ks.any fun k => (s.keySpots k.1 k.2).any fun r => s.rangeFails r.1 r.2

/-- The landing area of a die has room for a segment of a layer: its layers that are not minted and this one fit (R318, R329). -/
def landRoom (m : Model) (o : MoveOp) (g : MoveSeg) : Bool :=
  let open_ := (g.layer m :: o.landed.filter fun l => !o.minted.contains l).dedup
  decide (((open_.map fun l => 2 * layerElems (opMap m o) g.dst.die l).sum) ≤ landingSize (opMap m o) g.dst.die)

/-! ## The Mint (R328) -/

/-- One stored row of a copy: its elements and its scales. -/
def mintRow (f : Fmt) (hs : List (BitVec 16)) : Bytes × Bytes :=
  if f.isMx then
    let bs := (chunks 32 hs).map fun b => mxPack f (b.map ofBf16)
    let n := (hs.length * f.width + 7) / 8
    (leBytes n (packBits f.width (bs.flatMap (·.elems))), bs.flatMap fun b => leBytes 1 b.scale)
  else (bytesOfHalves hs, [])

/-- Mint a generation shard from the landing area into a copy slot. -/
def mintShard (slot : Nat) (m : Model) (o : MoveOp) (slot1 : Bool) (x : Shard × Nat) (s : State) : State :=
  let map := opMap m o
  let t := map.tensor x.1.tensor
  let (rows, cols) := genShape t x.1
  let base := landOff m o x.2 x.1.die
  let put := fun (s : State) (r : Nat) =>
    let hs := halvesOf (Memory.bytes s.mem (landKey slot x.1.die (base + 2 * r * cols)) (2 * cols))
    let (es, ss) := mintRow t.gfmt hs
    let s := s.putKey (genKey slot slot1 x.1.die (genOff map x.2 + r * genStride t x.1)) es
    s.putKey (genKey slot slot1 x.1.die (genSOff map x.2 + r * genSStride t x.1)) ss
  (List.range rows).foldl put s

/-- The first row and column of a copy shard, as it is stored. -/
def genOrigin (t : Tensor) (x : Shard) : Nat × Nat := if t.gblk then (x.col0, x.row0) else (x.row0, x.col0)

/-- Block `b` of 32 elements of stored row `r` of a tensor: the key of its elements and that of its scale in a copy slot, where a
shard of this part holds it. -/
def blockKeys (slot : Nat) (slot1 : Bool) (m : ModelMap) (t r b : Nat) : Option (Nat × Nat) :=
  let x := m.tensor t
  let holds := fun (y : Shard × Nat) =>
    let (r0, c0) := genOrigin x y.1
    let (h, w) := genShape x y.1
    m.mine y.1 && y.1.tensor == t && decide (r0 ≤ r) && decide (r < r0 + h) && decide (c0 ≤ 32 * b) && decide (32 * b < c0 + w)
  (m.gshards.zipIdx.find? holds).map fun y =>
    let (r0, c0) := genOrigin x y.1
    let i := b - c0 / 32
    (genKey slot slot1 y.1.die (genOff m y.2 + (r - r0) * genStride x y.1 + 4 * x.gfmt.width * i),
     genKey slot slot1 y.1.die (genSOff m y.2 + (r - r0) * genSStride x y.1 + i))

/-- Under a new map no FROZEN_AT_LOAD tensor moves: each of its blocks that this part held shows where the new map lays it, and a
block that this part did not hold is unspecified (R329, R339). (Log entry 158, DESIGN CHOICE.) -/
def carryFrozen (slot : Nat) (old new : ModelMap) (s : State) : State :=
  let shards := new.gshards.filter fun x => new.mine x && (new.tensor x.tensor).frozen && !(new.tensor x.tensor).nogen
  let put := fun (x : Shard) (r b : Nat) (s' : State) =>
    let t := new.tensor x.tensor
    let n := 4 * t.gfmt.width
    let free := freeBytes s'.freeCtr (n + 1)
    let (es, ss) := match blockKeys slot false old x.tensor r b with
      | some (e, c) => (Memory.bytes s.mem e n, Memory.bytes s.mem c 1)
      | none => (free.take n, free.drop n)
    let into := fun (s' : State) (slot1 : Bool) => match blockKeys slot slot1 new x.tensor r b with
      | some (e, c) => if t.gfmt.isMx then (s'.putKey e es).putKey c ss else s'.putKey e es
      | none => s'
    [false, true].foldl into { s' with freeCtr := s'.freeCtr + n + 1 }
  let shard := fun (s' : State) (x : Shard) =>
    let (r0, c0) := genOrigin (new.tensor x.tensor) x
    let (h, w) := genShape (new.tensor x.tensor) x
    (List.range h).foldl (fun s' r => (List.range (w / 32)).foldl (fun s' b => put x (r0 + r) (c0 / 32 + b) s') s') s'
  shards.foldl shard s

/-- Mint a shard of an operation: a frozen tensor is held once and shows in both slots (R318). -/
def mintFor (slot : Nat) (m : Model) (o : MoveOp) (x : Shard × Nat) (s : State) : State :=
  if (m.map.tensor x.1.tensor).frozen then mintShard slot m o true x (mintShard slot m o false x s)
  else mintShard slot m o o.toSlot1 x s

/-! ## Time (R41) -/

/-- Nanoseconds under a protection override so far (R525). -/
def State.ovrTotal (s : State) : DWord :=
  s.chip.power.ovrNs + (match s.chip.power.ovrSince with
    | some t => s.mtime - t
    | none => 0)

/-- The counted time of an operation in microseconds: from time zero, or under INPLACE from the end of the drain, without the time
under an override (R41). -/
def countedUs (s : State) (m : Model) (o : MoveOp) : Nat :=
  match (if m.map.swap then o.t0 else o.drained) with
  | none => 0
  | some t => ((s.mtime - t) - (s.ovrTotal - o.ovr0)).toNat / 1000

/-- The turn record (R336). -/
def turnRecord (epoch us failPart refetches : Nat) (swap : Bool) (outcome : Nat) : Bytes :=
  leBytes 8 epoch ++ leBytes 4 (min 0xFFFFFFFF us) ++ leBytes 4 (min 0xFFFFFFFF (us - 250000)) ++ leBytes 2 failPart ++
    leBytes 2 (min 0xFFFF refetches) ++ leBytes 1 (if swap then 0 else 1) ++ leBytes 1 outcome

/-! ## Ends -/

/-- A turn or rebuild ends: the wave barrier opens, a held UPD_BEGIN is decided, and the command completes (R223, R334, R337). -/
def endTurn (p slot : Nat) (o : MoveOp) (st : Status) (outcome part us : Nat) (s : State) : State :=
  let s := s.onModel slot fun m =>
    { m with w := { m.w with waveShut := false, holdPkgs := false, failed := m.w.failed + (if outcome == 0 then 0 else 1) } }
  let s := if outcome == 0 then s else dropRunning p s
  let s := resolveHeld slot s
  match s.model slot with
  | none => s
  | some m => finishWait (.move o.id) st (turnRecord m.w.epoch us part o.refetched m.map.swap outcome) s

/-- A load commits (R324); the settings of generation and pages take their values after a load (R263, R287).
(Log entry 93, DEDUCED.) -/
def commitLoad (p slot : Nat) (o : MoveOp) (s : State) : State :=
  let classB := match s.model slot with
    | some m => (s.acct m.map.acct).quota.classB
    | none => false
  let s := s.onModel slot fun m =>
    let w := { Weights.create m.w.anchors with stagedAnch := m.w.stagedAnch }
    let gen := { GenSet.create classB with plan := m.gen.plan, template := m.gen.template, chunk := m.gen.chunk }
    { m with w := { w with ready := true, epoch := 1, gencopy := !m.map.gshards.isEmpty, refetches := o.refetched },
             led := LedModel.create, gen := gen, kv := { KvSet.create with pools := m.kv.pools, vaults := m.kv.vaults } }
  finishWait (.move o.id) .ok (leBytes 4 noEntry ++ leBytes 2 0xFFFF ++ leBytes 2 (min 0xFFFF o.refetched)) (dropRunning p s)

/-- The copies that the flip starts: a drain where the decision carries DRAIN, which serves the crossings and requests of every part, and
otherwise a want stays for the next flip (R441, R442, R445). -/
def flipDrain (p slot : Nat) (d : Decision) (s : State) : State :=
  match s.model slot with
  | none => s
  | some m =>
    let f := m.ft
    let periodic := f.planU 8 2 != 0 && decide (f.planU 8 2 ≤ f.flips + 1)
    if f.plan.isNone then s
    else if !d.drain then
      s.onModel slot fun m => { m with ft := { m.ft with flips := m.ft.flips + 1, deferred := m.ft.wants } }
    else
      let flags := (if f.crossing then 1 else 0) + (if periodic then 2 else 0) + (if f.request then 4 else 0)
      let clear := fun (m : Model) =>
        { m with ft := { m.ft with crossing := false, request := false, deferred := false, flips := 0 } }
      let id := s.moveCtr
      let served := fun (w : Waiting) => if f.request && w.key == .secure slot then { w with key := .move id } else w
      let s := { s.onModel slot clear with moveCtr := id + 1, mail := { s.mail with waiting := s.mail.waiting.map served } }
      startDrain p slot m id flags (if f.planU 2 1 == 1 then 2 else 1) (f.crossing || d.crossing) (f.request || d.urgent) s

/-- The flip of a turn (R334). -/
def flipTurn (p slot : Nat) (m : Model) (o : MoveOp) (d : Decision) (s : State) : State :=
  let old := m.w.epoch
  let gen := !m.map.gshards.isEmpty
  let held := m.map.swap && gen && m.w.gencopy
  let us := countedUs s m o
  let anchors := m.w.stagedAnch.foldl (fun l x => l.set x.1 x.2) m.w.anchors
  let w := { m.w with activeB := !m.w.activeB, epoch := old + 1, staged := false, gencopy := gen, slot1 := o.toSlot1,
                      oldEpoch := if held then old else m.w.oldEpoch, anchors := anchors,
                      oldAnchors := if held then m.w.anchors else m.w.oldAnchors, stagedAnch := [], turns := m.w.turns + 1,
                      lastUs := min 0xFFFFFFFF us, lastExcess := min 0xFFFFFFFF (us - 250000) }
  let s := s.onModel slot fun m => { m with w := w, kv := { m.kv with shareTag := 0 }, unrolled := m.amax.map (·.1) }
  let s := dropEntries (fun e => e.slot == slot && e.dom == 0 && e.epoch == old) s
  endTurn p slot o .ok 0 0xFFFF us (flipDrain p slot d (dropRunning p s))

/-- The flip of a rebuild: GENCOPY is set, under the new map if one was given, and no epoch flips (R339). -/
def flipRebuild (p slot : Nat) (m : Model) (o : MoveOp) (s : State) : State :=
  let us := countedUs s m o
  let s := if o.newMap.isSome then carryFrozen slot m.map (opMap m o) s else s
  let s := s.onModel slot fun m =>
    { m with w := { m.w with gencopy := true, slot1 := o.toSlot1 }, map := opMap m o }
  endTurn p slot o .ok 0 0xFFFF us (dropRunning p s)

/-- A copy that a failed operation leaves unusable is withdrawn (R337, R338). (Log entry 99, DEDUCED.) -/
def endWithdrawn (p slot : Nat) (m : Model) (o : MoveOp) (st : Status) (part : Nat) (s : State) : State :=
  endTurn p slot o st 3 part (countedUs s m o) (withdrawCopy slot s)

/-- An INPLACE turn that has written in place rebuilds the current copy behind the closed barrier (R337): the model still admits
(R342). -/
def rebuildAgain (p : Nat) (st : Status) (part : Nat) (s : State) : State :=
  onRunning p (fun o => { o with again := true, stage := .moving, seg := 0, landed := [], minted := [], refetch := [],
                                 passed := [], redo := [], after := some (st, part) }) s

/-- A load that ends with a status that leaves no change puts back what it found in the model's storage (R18, R325). -/
def undoLoad (slot : Nat) (o : MoveOp) (st : Status) (s : State) : State :=
  let lo := 2 ^ 60 + slot * 2 ^ 48
  if st.keeps then
    { s with mem := o.undo.foldl (fun m c => m.put c.1 [c.2]) (s.mem.clear lo (2 ^ 48)) }
  else s

/-- An operation fails on this part as its barrier decides FAIL (R326, R337, R340). (Log entry 96, DEDUCED.) -/
def failMove (p slot : Nat) (m : Model) (o : MoveOp) (st : Status) (part tensor : Nat) (s : State) : State :=
  match o.kind with
  | .load =>
    finishWait (.move o.id) st (leBytes 4 tensor ++ leBytes 2 part ++ leBytes 2 (min 0xFFFF o.refetched))
      (dropRunning p (undoLoad slot o st s))
  | .learn => finishWait (.move o.id) st [] (dropRunning p s)
  | .turn =>
    if !m.map.swap && o.wrote then rebuildAgain p st part s else endTurn p slot o st 1 part (countedUs s m o) s
  | .rebuild => endWithdrawn p slot m o st part s
  | .drain | .restore => s

/-! ## Job barriers (R425, R426) -/

/-- The status that a code names; a code of no status is taken as DATA_ERROR. -/
def statusOf (n : Nat) : Status :=
  [Status.ok, .busy, .badArg, .noResource, .denied, .version, .timeout, .aborted, .refusedState, .dataError, .notFound, .alreadyDone,
    .functionDisabled, .late, .cancelled, .admitDefer].getD n .dataError

/-- A barrier with nothing reported. -/
def Barrier.new (job : Word) (kind : BarrierKind) (inst : Word) : Barrier := ⟨job, kind, inst, [], none, [], none, false, false, false, false⟩

/-- The record of a barrier. -/
def barrierOf (s : State) (job : Word) (kind : BarrierKind) (inst : Word) : Barrier :=
  (s.chip.fabric.barriers.find? fun b => b.job == job && b.kind == kind && b.inst == inst).getD (Barrier.new job kind inst)

/-- Change the record of a barrier. -/
def onBarrier (job : Word) (kind : BarrierKind) (inst : Word) (f : Barrier → Barrier) (s : State) : State :=
  let b := f (barrierOf s job kind inst)
  s.onFabric fun x =>
    { x with barriers := (x.barriers.filter fun b => !(b.job == job && b.kind == kind && b.inst == inst)) ++ [b] }

/-- The codes of barrier kinds in messages. -/
def barrierCode : BarrierKind → Nat
  | .load => 0 | .entry => 1 | .flip => 2 | .learn => 3

/-- A report as a message. -/
def reportBytes (r : Report) : Bytes :=
  leBytes 1 (barrierCode r.kind) ++ leBytes 4 r.inst.toNat ++ leBytes 2 r.part.toNat ++
    leBytes 1 ((if r.ready then 1 else 0) + (if r.want then 2 else 0) + (if r.busy then 4 else 0) + (if r.urgent then 8 else 0) +
      (if r.crossing then 16 else 0)) ++
    leBytes 1 r.status.toNat ++ leBytes 4 r.tensor.toNat

/-- A decision as a message. -/
def decisionBytes (d : Decision) : Bytes :=
  leBytes 1 (barrierCode d.kind) ++ leBytes 4 d.inst.toNat ++
    leBytes 1 ((if d.pass then 1 else 0) + (if d.drain then 2 else 0) + (if d.urgent then 4 else 0) + (if d.crossing then 8 else 0)) ++ leBytes 1 d.status.toNat ++
    leBytes 2 d.part.toNat ++ leBytes 4 d.tensor.toNat

/-- The job slot of a job on this module. -/
def State.jobNamed (s : State) (job : Word) : Option JobSlot := (s.chip.fabric.slots.find? fun x => x.2.job == job).map (·.2)

/-- The running operation that a barrier of a job decides: its partition, the operation and its model. -/
def deciding (s : State) (job : Word) (kind : BarrierKind) (inst : Word) : Option (Nat × MoveOp × Model) :=
  ((List.range 8).filterMap fun p => match (s.movesOf p).running with
    | none => none
    | some o => match s.model o.slot with
      | none => none
      | some m =>
        let same := o.kind.barrier == some kind || (kind == .entry && o.kind.barrier == some .flip)
        if m.map.job == job && o.inst == inst && same then some (p, o, m) else none).head?

/-- A decision at the end of an operation, or a failure, takes effect on this part (R334, R425). -/
def applyEnd (d : Decision) (s : State) : State :=
  match deciding s d.job d.kind d.inst with
  | none => s
  | some (p, o, m) =>
    if !d.pass then
      if o.again then s else failMove p o.slot m o (statusOf d.status.toNat) d.part.toNat d.tensor.toNat s
    else if o.stage != .barrier then s
    else match o.kind with
      | .load => commitLoad p o.slot o s
      | .learn => finishWait (.move o.id) .ok [] (dropRunning p s)
      | .turn => flipTurn p o.slot m o d s
      | .rebuild => flipRebuild p o.slot m o s
      | .drain | .restore => s

/-- A decision is recorded; it is final (R425, R426). -/
def recordDecision (d : Decision) (s : State) : State :=
  onBarrier d.job d.kind d.inst (fun b => { b with decision := some d }) s

/-- The coordinator decides: the decision is recorded, sent to every part and applied here (R425). -/
def decideWith (act : Decision → State → State) (d : Decision) (s : State) : State :=
  let s := recordDecision d s
  let s := match s.jobNamed d.job with
    | some j => sendParts j 5 (decisionBytes d) s
    | none => s
  act d s

/-- The coordinator takes a report: PASS with the last READY, FAIL with the first FAIL (R425, R441). -/
def takeWith (act : Decision → State → State) (r : Report) (s : State) : State :=
  let b := barrierOf s r.job r.kind r.inst
  let n := match s.jobNamed r.job with
    | some j => j.table.length
    | none => 0
  if b.decision.isSome then s
  else if !r.ready then
    decideWith act ⟨0, r.job, r.kind, r.inst, false, r.status, r.part.setWidth 16, r.tensor, false, false, false⟩ s
  else
    let b := { b with ready := (b.ready ++ [r.part.toNat]).dedup, want := b.want || r.want, busy := b.busy || r.busy,
                      urgent := b.urgent || r.urgent, crossing := b.crossing || r.crossing }
    let s := onBarrier r.job r.kind r.inst (fun _ => b) s
    if b.ready.length == n then
      decideWith act ⟨0, r.job, r.kind, r.inst, true, 0, 0xFFFF, 0xFFFFFFFF, b.want && (!b.busy || b.urgent), b.urgent,
        b.crossing⟩ s
    else s

/-- This part reports at a barrier: part 0 takes its own report, any other sends it to part 0 (R425). -/
def reportWith (act : Decision → State → State) (m : Model) (o : MoveOp) (kind : BarrierKind) (ready : Bool) (st : Status)
    (tensor : Nat) (s : State) : State :=
  let turn := kind == .flip && o.kind == .turn && ready
  let r : Report :=
    ⟨m.map.job, kind, o.inst, BitVec.ofNat 13 m.map.part, ready, BitVec.ofNat 8 st.code, BitVec.ofNat 32 tensor,
      turn && m.ft.wants, turn && copyBusy s m, turn && m.ft.urgent, turn && m.ft.plan.isSome && m.ft.crossing⟩
  let s := onBarrier m.map.job kind o.inst (fun b => { b with reported := some ready }) s
  if m.map.part == 0 then takeWith act r s
  else match s.jobOf m.map.acct m.map.job with
    | some j => sendPart none j 0 4 (reportBytes r) s
    | none => s

/-- The last barrier of an operation: this part is READY (R324, R332, R333), or finds the decision already made. -/
def reportReady (p slot : Nat) (s : State) : State :=
  match (s.movesOf p).running, s.model slot with
  | some o, some m => match o.kind.barrier with
    | some k =>
      let s := onRunning p (fun o => { o with stage := .barrier }) s
      reportWith applyEnd m o k true .ok noEntry s
    | none => s
  | _, _ => s

/-- An operation fails on this part: it reports FAIL at its last barrier and waits for the decision (R326, R337); a rebuild after
an INPLACE failure has no barrier. (Log entry 94, DEDUCED.) -/
def failHere (p slot : Nat) (m : Model) (o : MoveOp) (st : Status) (tensor : Nat) (s : State) : State :=
  if o.again then
    let (st, part) := o.after.getD (st, m.map.part)
    endWithdrawn p slot m o st part s
  else match o.kind.barrier with
    | some k =>
      let s := onRunning p (fun o => { o with stage := .barrier, fail := some (st, m.map.part, tensor) }) s
      reportWith applyEnd m o k false st tensor s
    | none => s

/-- Every layer of an operation is in the copy: it is READY, or a rebuild after a failure ends as REBUILT (R337). -/
def copyBuilt (p slot : Nat) (s : State) : State :=
  match (s.movesOf p).running, s.model slot with
  | some o, some m =>
    if o.again then
      let (st, part) := o.after.getD (.timeout, m.map.part)
      endTurn p slot o st 2 part (countedUs s m o) (dropRunning p (s.onModel slot fun m => { m with w := { m.w with gencopy := true } }))
    else reportReady p slot s
  | _, _ => s

/-- An operation that has nothing to build here goes on at once. -/
def buildOrPass (p slot : Nat) (s : State) : State :=
  match (s.movesOf p).running, s.model slot with
  | some o, some m => if (opSegments m o).isEmpty then copyBuilt p slot s else s
  | _, _ => s

/-- The entry barrier passes: time zero. The wave barrier of an INPLACE operation closes, and the move starts; a model with no
generation layout flips alone (R331 to R333). -/
def applyEntry (d : Decision) (s : State) : State :=
  match deciding s d.job .entry d.inst with
  | none => s
  | some (p, o, m) =>
    if o.stage != .entry then s
    else
      let gen := !m.map.gshards.isEmpty
      let shut := gen && !m.map.swap
      let s := onRunning p (fun o => { o with stage := .moving, t0 := some s.mtime, ovr0 := s.ovrTotal,
                                              drained := if shut then none else some s.mtime }) s
      let s := s.onModel o.slot fun m => { m with w := { m.w with waveShut := shut } }
      if gen then buildOrPass p o.slot s else reportReady p o.slot s

/-- A decision takes effect on this part. -/
def applyDecision (d : Decision) (s : State) : State :=
  if d.kind == .entry && d.pass then applyEntry d s else applyEnd d s

/-- The slot of a job, where a part has joined it: no message of any other is taken (R411). -/
def State.joinedBy (s : State) (job : Word) (part : BitVec 13) : Option JobSlot := match s.jobNamed job with
  | some j => if j.joined.contains part.toNat then some j else none
  | none => none

/-- BARRIER_REPORT: the coordinator hears a joined part, and the module wakes; any other report is discarded and counted (R411, R425,
R515). -/
def execBarrierReport (r : Report) (s : State) : Result State :=
  match s.joinedBy r.job r.part with
  | none => .next (discardMsg s)
  | some j => .next (if j.part == 0 then takeWith applyDecision r (wakeUp s) else wakeUp s)

/-- What a message about a barrier names: its kind and instance. -/
def barrierName (kind : BarrierKind) (inst : Word) : Bytes := leBytes 1 (barrierCode kind) ++ leBytes 4 inst.toNat

/-- BARRIER_DECISION: a decision reaches a part, from the coordinator or from a part that it asked; it is final, the module wakes, and the
coordinator gets an acknowledgement each time. One that no joined part has sent is discarded and counted (R411, R425, R426, R515). -/
def execBarrierDecision (d : Decision) (s : State) : Result State :=
  match s.joinedBy d.job d.src with
  | none => .next (discardMsg s)
  | some j =>
    if j.part == 0 then .next (wakeUp s)
    else
      let s := sendPart none j 0 15 (barrierName d.kind d.inst) (wakeUp s)
      .next (if (barrierOf s d.job d.kind d.inst).decision.isSome then s else applyDecision d (recordDecision d s))

/-- A part acknowledges a decision of this part as coordinator (R425). -/
def hearAck (j : JobSlot) (part : Nat) (kind : BarrierKind) (inst : Word) (s : State) : State :=
  if j.part != 0 || (barrierOf s j.job kind inst).decision.isNone then s
  else onBarrier j.job kind inst (fun b => { b with acks := (b.acks ++ [part]).dedup }) s

/-- A part asks for a decision, and one that knows it answers (R426). -/
def answerAsk (j : JobSlot) (part : Nat) (kind : BarrierKind) (inst : Word) (s : State) : State :=
  match (barrierOf s j.job kind inst).decision with
  | some d => sendPart none j part 5 (decisionBytes d) s
  | none => s

/-- What a part still says about a barrier: the coordinator its decision, to every part that has not acknowledged it; a part that has
reported READY and knows no decision asks every part that it reaches (R425, R426). -/
def repeatBarrier (b : Barrier) (s : State) : State :=
  match s.jobNamed b.job with
  | none => s
  | some j =>
    let others := (List.range j.table.length).filter fun n => n != j.part
    match b.decision with
    | some d =>
      if j.part != 0 then s
      else (others.filter fun n => !b.acks.contains n).foldl (fun s n => sendPart none j n 5 (decisionBytes d) s) s
    | none =>
      if j.part == 0 || b.reported != some true then s
      else (others.filter fun n => !noRoute s (j.table.getD n 0)).foldl
        (fun s n => sendPart none j n 16 (barrierName b.kind b.inst) s) s

/-- Decisions that a part has not acknowledged, and requests for decisions, go out again with the HEALTH frame of every 10 ms: the
spec gives no interval. (Log entry 185, DESIGN CHOICE.) -/
def repeatBarriers (s : State) : State := s.chip.fabric.barriers.foldl (fun s b => repeatBarrier b s) s

/-! ## Starting an operation (R39, R332, R333) -/

/-- The first step of a turn or rebuild still waits: SWAP for the old copy to be freed, INPLACE for the packages of the current one
(R332, R333). -/
def entryBlocked (s : State) (m : Model) : Bool :=
  !m.map.gshards.isEmpty && (if m.map.swap then m.w.oldEpoch != 0 else genBound s m.map (fun e => e == m.w.epoch))

/-- The operation reports READY at its entry barrier, unless its first step waits. -/
def tryEntry (p slot : Nat) (s : State) : State :=
  match (s.movesOf p).running, s.model slot with
  | some o, some m =>
    if entryBlocked s m then s
    else reportWith applyDecision m o .entry true .ok noEntry (onRunning p (fun o => { o with stage := .entry }) s)
  | _, _ => s

/-- An operation whose state no longer allows it completes as its command would have (R331, R339, log entry 47, DEDUCED). -/
def startRefused (s : State) (m : Model) (o : MoveOp) : Bool := match o.kind with
  | .load => m.w.ready
  | .turn => turnRefused m (o.imgs.headD 0)
  | .rebuild => !m.w.ready || m.w.staged || (o.newMap.isSome && (s.modelBusy o.slot || genBound s m.map fun _ => true))
  | .learn => false
  | .drain => !m.w.ready || m.w.staged || m.led.ustate != .idle
  | .restore => !m.w.ready || m.led.ustate == .open || m.led.ustate == .held

/-- The decision of an operation's last barrier was FAIL before it started here. -/
def failedBefore (s : State) (m : Model) (o : MoveOp) : Option (Nat × Nat × Nat) := match o.kind.barrier with
  | none => none
  | some k => match (barrierOf s m.map.job k o.inst).decision with
    | some d => if d.pass then none else some (d.status.toNat, d.part.toNat, d.tensor.toNat)
    | none => none

/-- A moving operation leaves the wait of R39. -/
def beginMove (p : Nat) (m : Model) (o : MoveOp) (s : State) : State :=
  let o := { o with toSlot1 := if o.kind == .load then false else if m.map.swap && !m.map.gshards.isEmpty then !m.w.slot1 else m.w.slot1 }
  let run := fun (o : MoveOp) (s : State) => s.onMoves p fun x => { x with running := some o }
  match failedBefore s m o with
  | some (st, part, tensor) => failMove p o.slot m o (statusOf st) part tensor (run o s)
  | none => match o.kind with
    | .load =>
      let found := s.mem.filter fun x => inModel o.slot x.1
      let s := s.wipeWhere (inVaultRegion o.slot)
      let s := s.charge .host m.map.acct (m.map.arenas.map fun a => (a.vbase, 64 * a.vlen))
      let s := { s with chip := m.map.arenas.foldl (fun c a => c.mend a.vbase (64 * a.vlen)) s.chip,
                        led := { s.led with q3 := s.led.q3.filter fun x => x.1 / 2 ^ 52 != o.slot } }
      run { o with stage := .moving, t0 := some s.mtime, undo := found } s
    | .turn | .rebuild =>
      let hold := !m.map.swap && !m.map.gshards.isEmpty
      tryEntry p o.slot (run o (s.onModel o.slot fun m => { m with w := { m.w with holdPkgs := hold } }))
    | .learn => reportReady p o.slot (run { o with t0 := some s.mtime } s)
    | .drain => startDrain p o.slot m o.id 4 1 false true s
    | .restore => run { o with stage := .moving, t0 := some s.mtime } s

/-- MOVING_OP_START: the partition's next operation starts, or one whose first step waited goes on to its entry barrier (R39). -/
def execMovingOpStart (part : BitVec 3) (s : State) : Result State :=
  let p := part.toNat
  let x := s.movesOf p
  match x.running with
  | some o => .next (if o.stage == .blocked then tryEntry p o.slot s else s)
  | none => match x.queue with
    | [] => .next s
    | o :: rest =>
      if s.chip.fw.activation.isSome || s.chip.power.partReset.contains p || s.chip.power.pstate != 0 then .next s
      else
        let s := s.onMoves p fun x => { x with queue := rest }
        match s.model o.slot with
        | none => .next s
        | some m =>
          if startRefused s m o then .next (finishWait (.move o.id) .refusedState [] s) else .next (beginMove p m o s)

/-! ## Loads (R324 to R326) -/

/-- The running operation of a model at a stage. -/
def runningAt (s : State) (slot : Nat) (st : MoveStage) (k : MoveKind → Bool) : Option (Nat × MoveOp × Model) :=
  match s.runningMove slot, s.model slot with
  | some (p, o), some m => if o.stage == st && k o.kind then some (p, o, m) else none
  | _, _ => none

/-- Elements of a source segment of 64 KiB. -/
def segElems (t : Tensor) : Nat := 65536 / t.srcBytes

/-- The load goes on past a segment: the next segment, the next shard of this part, or the end of the fetch. -/
def nextLoadSeg (m : Model) (o : MoveOp) : MoveOp :=
  let more := match m.map.shards[o.shard]? with
    | some x => decide ((o.seg + 1) * segElems (m.map.tensor x.tensor) < x.elems)
    | none => false
  if more then { o with seg := o.seg + 1, tries := 0 }
  else { o with shard := o.shard + 1 + ((m.map.shards.drop (o.shard + 1)).takeWhile fun x => !m.map.mine x).length, seg := 0, tries := 0 }

/-- The first shard of this part. -/
def firstMine (m : ModelMap) (i : Nat) : Nat := i + ((m.shards.drop i).takeWhile fun x => !m.mine x).length

/-- A source element converts: its high and low halves; none for a NaN, an infinity or a magnitude above the largest BF16 value
(R325). -/
def loadElem (bf16 split : Bool) (b : Bytes) : Option (BitVec 16 × BitVec 16) :=
  let w := leNat b
  let v := if bf16 then ofBf16 (BitVec.ofNat 16 w) else ofF32 (BitVec.ofNat 32 w)
  let most := Fmt.bf16.layout.decode 0x7F7F
  if !v.isFin || most.lt v.abs then none
  else if bf16 then some (BitVec.ofNat 16 w, 0)
  else if split then
    let h := splitHigh (BitVec.ofNat 32 w)
    some (h, splitLow (BitVec.ofNat 32 w) h)
  else some (toBf16 v, 0)

/-- A refetch is counted, on the die that the segment comes to (R321, R554). -/
def countRefetch (slot : Nat) (m : Model) (die : Nat) (s : State) : State :=
  (s.bump 0x700 (s.dieOfPart m.map die) (some m.map.acct) none 1).onModel slot fun m =>
    { m with w := { m.w with refetches := m.w.refetches + 1 } }

/-- A load's segment that failed its integrity check is fetched again, at most three times (R326). -/
def segFailed (p slot : Nat) (m : Model) (o : MoveOp) (x : Shard) (s : State) : State :=
  if o.tries == 3 then failHere p slot m o .dataError x.tensor s
  else countRefetch slot m x.die (onRunning p (fun o => { o with tries := o.tries + 1, refetched := o.refetched + 1 }) s)

/-- The fetch is over: the copy is built next, or the part is READY (R324). -/
def fetchDone (p slot : Nat) (s : State) : State :=
  let s := onRunning p (fun o => { o with imgs := [], shard := 0, seg := 0, tries := 0 }) s
  match s.model slot with
  | none => s
  | some m => if m.map.gshards.isEmpty then reportReady p slot s else buildOrPass p slot s

/-- Write the converted elements of a row of a training shard (R324 step 3), as loads do in the host's class (R359). -/
def putLoaded (slot : Nat) (m : Model) (i r c : Nat) (x : Shard) (split : Bool) (hs : List (BitVec 16 × BitVec 16)) (s : State) : State :=
  let high := bytesOfHalves (hs.map (·.1))
  let off := elemOff m.map i r c
  let keys := [(trainKey slot false x.die off, high.length), (trainKey slot true x.die off, high.length)] ++
    (if split && x.role != 1 then [(vaultKey slot x.die off, high.length)] else [])
  let s := s.chargeKeys .host m.map.acct keys
  let s := putHigh slot m.map true i r c high (putHigh slot m.map false i r c high s)
  if split && x.role != 1 then putLow slot m.map i r c (bytesOfHalves (hs.map (·.2))) s else s

/-- A segment of a load goes to a fenced unit (R502). -/
def loadFenced (s : State) (slot : Nat) (m : Model) (i : Nat) (x : Shard) (o : MoveOp) : Bool :=
  let a := o.seg * segElems (m.map.tensor x.tensor)
  let n := min x.elems (a + segElems (m.map.tensor x.tensor)) - a
  let off := elemOff m.map i (a / x.cols) (a % x.cols)
  s.keysFail [(trainKey slot false x.die off, 2 * n), (trainKey slot true x.die off, 2 * n), (vaultKey slot x.die off, 2 * n)]

/-- The ranges of account memory that a segment of a load reads. -/
def loadReads (m : Model) (o : MoveOp) (x : Shard) : List (Nat × Nat) :=
  let t := m.map.tensor x.tensor
  let a := o.seg * segElems t
  (elemRuns x.cols a (min x.elems (a + segElems t))).map fun u =>
    (o.imgs.getD t.img 0 + t.srcOff + (x.row0 + u.1) * t.srcStride + (x.col0 + u.2.1) * t.srcBytes, u.2.2 * t.srcBytes)

/-- LOAD_SEGMENT: the next 64 KiB segment of a load arrives, converts and is written (R324, R325); `ok` is false where it failed its
integrity check. -/
def execLoadSegment (slot : BitVec 6) (ok : Bool) (s : State) : Result State :=
  let k := slot.toNat
  match runningAt s k .moving (fun k => k == .load) with
  | none => .next s
  | some (p, o, m) =>
    let i := firstMine m.map o.shard
    match m.map.shards[i]? with
    | none => .next (if o.imgs.isEmpty then s else fetchDone p k s)
    | some x =>
      if o.imgs.isEmpty then .next s
      else
        let t := m.map.tensor x.tensor
        let img := o.imgs.getD t.img 0 + t.srcOff
        let o := { o with shard := i }
        let s := onRunning p (fun _ => o) s
        if !ok || loadFenced s k m i x o then .next (segFailed p k m o x s)
        else
          let split := !t.frozen && (match s.groupOf m.map t with
            | some g => !g.sr16
            | none => false)
          let a := o.seg * segElems t
          let runs := elemRuns x.cols a (min x.elems (a + segElems t))
          let at_ := fun (r c : Nat) => img + (x.row0 + r) * t.srcStride + (x.col0 + c) * t.srcBytes
          let rows := runs.map fun u =>
            (u, (chunks t.srcBytes (s.read (at_ u.1 u.2.1) (u.2.2 * t.srcBytes))).map (loadElem t.srcBf16 split))
          if runs.any fun u => s.hostWaits (at_ u.1 u.2.1) then .next s
          else if runs.any fun u => s.hostDead (at_ u.1 u.2.1) then .next (failHere p k m o .dataError x.tensor s)
          else if rows.any fun u => u.2.any (·.isNone) then .next (failHere p k m o .badArg x.tensor s)
          else
            let bytes := (runs.map fun u => u.2.2 * t.srcBytes).sum
            let s := (s.charge .host m.map.acct (loadReads m o x)).meter m.map.acct 8 bytes 0
            let s := rows.foldl (fun s u => putLoaded k m i u.1.1 u.1.2.1 x split (u.2.filterMap id) s) s
            let o := nextLoadSeg m o
            let s := onRunning p (fun _ => o) s
            .next (if o.shard ≥ m.map.shards.length then fetchDone p k s else s)

/-- This part has reported READY at the barrier where its operation stands, and waits for the decision (R426). -/
def awaitsDecision (s : State) (m : Model) (o : MoveOp) : Bool := match o.kind.barrier with
  | none => false
  | some k =>
    m.map.part != 0 && (o.stage == .entry || (barrierOf s m.map.job k o.inst).reported.isSome)

/-- The limit of an operation runs out: a part that has not reported READY fails, and so does the coordinator (R330, R426).
(Log entry 95, DEDUCED.) -/
def limitExpires (p slot : Nat) (m : Model) (o : MoveOp) (tensor : Nat) (s : State) : State :=
  if !o.again && awaitsDecision s m o then s else failHere p slot m o .timeout tensor s

/-- The tensor that an operation is at: that of the segment to come, or of the layer that is to be minted; none once its work here is
done (R326). -/
def MoveOp.tensor (o : MoveOp) (m : Model) : Nat :=
  if o.stage != .moving then noEntry
  else if o.kind == .load && !o.imgs.isEmpty then match m.map.shards[firstMine m.map o.shard]? with
    | some x => x.tensor
    | none => noEntry
  else match (opSegments m o)[o.redo.headD o.seg]? with
    | some g => g.dst.tensor
    | none => match (opSegments m o).find? fun g => !o.minted.contains (g.layer m) with
      | some g => g.dst.tensor
      | none => noEntry

/-- LOAD_LIMIT_EXPIRY (R326). -/
def execLoadLimitExpiry (slot : BitVec 6) (s : State) : Result State :=
  match s.runningMove slot.toNat, s.model slot.toNat with
  | some (p, o), some m => .next (if o.kind == .load then limitExpires p slot.toNat m o (o.tensor m) s else s)
  | _, _ => .next s

/-! ## Resharding and minting (R328 to R330) -/

/-- The operation builds a copy now. -/
def building (s : State) (slot : Nat) : Option (Nat × MoveOp × Model) :=
  match runningAt s slot .moving MoveKind.lays with
  | some (p, o, m) => if o.kind == .load && !o.imgs.isEmpty then none else some (p, o, m)
  | none => none

/-- A reshard's segment is fetched again, at most three times in all, whether it failed on its way, at its holder or where it has landed
(R330, R342). -/
def segAgain (p slot : Nat) (m : Model) (o : MoveOp) (i : Nat) (g : MoveSeg) (f : MoveOp → MoveOp) (s : State) : State :=
  if tgetD o.refetch i 0 == 3 then failHere p slot m o .dataError g.dst.tensor s
  else
    let count := fun (o : MoveOp) => { o with refetch := tset o.refetch i (tgetD o.refetch i 0 + 1), refetched := o.refetched + 1 }
    countRefetch slot m g.dst.die (onRunning p (fun o => f (count o)) s)

/-- A segment has landed: the next one follows, and its layer is complete with its last segment. -/
def segLanded (m : Model) (segs : List MoveSeg) (g : MoveSeg) (o : MoveOp) : MoveOp :=
  if !o.redo.isEmpty then { o with redo := o.redo.drop 1 }
  else
    let last := match segs[o.seg + 1]? with
      | some h => h.layer m != g.layer m
      | none => true
    { o with seg := o.seg + 1, landed := if last then o.landed ++ [g.layer m] else o.landed }

/-- RESHARD_SEGMENT: the next rectangle moves into the landing area, over XFR between dies; rows from another part are `data` (R329,
R368). One that a link damages, or whose landing unit is fenced, is fetched again from its holder, and one that its holder cannot read
from the next (R330, R371, R502). -/
def execReshardSegment (slot : BitVec 6) (data : Option Bytes) (ok : Bool) (s : State) : Result State :=
  let k := slot.toNat
  match building s k with
  | none => .next s
  | some (p, o, m) =>
    let segs := opSegments m o
    let i := o.redo.headD o.seg
    match segs[i]? with
    | none => .next s
    | some g =>
      let width := 2 * (g.c1 + 1 - g.c0)
      let rows := if g.here then some (g.rows s k m (opBuffer m o)) else match data with
        | some b => if b.length == width * (g.r1 + 1 - g.r0) then some (chunks width b) else none
        | none => none
      let (read, met) := if g.here then s.readKeys .turn m.map.acct (g.keys k m (opBuffer m o)) else (true, s)
      let pass := fun (o : MoveOp) => { o with passed := tset o.passed i (tgetD o.passed i 0 + 1) }
      let path := if g.here then moveMsgs (s.dieOfPart m.map g.src.die) (s.dieOfPart m.map g.dst.die) else []
      if !read then .next (segAgain p k m o i g pass met)
      else if !ok || s.keysFail (landKeys k m o g) then .next (segAgain p k m o i g id s)
      else if !landRoom m o g then .next s
      else match rows with
        | none => .next s
        | some rows =>
          .next (met.carry path fun s =>
            let s := landRows m.map.acct (landLines k m o g rows) s
            let s := if g.here then s else s.meter m.map.acct 7 (width * (g.r1 + 1 - g.r0)) 0
            onRunning p (segLanded m segs g) s)

/-- A landed layer cannot be minted: the first of its segments whose rows fail is fetched again, as one refetch (R342). -/
def reland (p slot : Nat) (m : Model) (o : MoveOp) (l : Nat) (s : State) : State :=
  let layer := (opSegments m o).zipIdx.filter fun g => g.1.layer m == l
  let bad := layer.filter fun g => s.meets ((landKeys slot m o g.1).flatMap fun k => s.keySpots k.1 k.2) != .clear
  match (bad ++ layer).head? with
  | some (g, i) => segAgain p slot m o i g (fun o => { o with redo := o.redo ++ [i] }) s
  | none => s

/-- MINT_LAYER: the Mint converts the lowest landed layer into the copy; under INPLACE only after the drain (R328, R333). A layer with a
segment to be fetched again waits for it (R342). -/
def execMintLayer (slot : BitVec 6) (s : State) : Result State :=
  let k := slot.toNat
  match building s k with
  | none => .next s
  | some (p, o, m) =>
    match o.landed.find? fun l => !o.minted.contains l with
    | none => .next s
    | some l =>
      let again := o.redo.any fun i => ((opSegments m o)[i]?).any fun g => g.layer m == l
      if again || (o.kind != .load && !m.map.swap && o.drained.isNone) then .next s
      else
        let xs := (opShards m o).filter fun x => (m.map.tensor x.1.tensor).layer == l
        let land := xs.map fun x => (landKey k x.1.die (landOff m o x.2 x.1.die), 2 * x.1.elems)
        let copy := xs.map fun x =>
          (genKey k o.toSlot1 x.1.die (genOff (opMap m o) x.2), genSize (m.map.tensor x.1.tensor) x.1)
        let (read, s) := s.readKeys .turn m.map.acct land
        if !read || s.keysFail copy then .next (reland p k m o l s)
        else
          let s := xs.foldl (fun s x => mintFor k m o x s) (s.chargeKeys .turn m.map.acct copy)
          let s := land.foldl (fun s x => { s with mem := s.mem.clear x.1 x.2 }) s
          let done := o.seg == (opSegments m o).length && decide (o.landed.length ≤ o.minted.length + 1)
          let s := onRunning p (fun o => { o with minted := o.minted ++ [l], wrote := o.wrote || !m.map.swap }) s
          .next (if done then copyBuilt p k s else s)

/-- TURN_LIMIT_EXPIRY (R330, R337). -/
def execTurnLimitExpiry (slot : BitVec 6) (s : State) : Result State :=
  match s.runningMove slot.toNat, s.model slot.toNat with
  | some (p, o), some m =>
    .next (if o.kind == .turn || o.kind == .rebuild then limitExpires p slot.toNat m o (o.tensor m) s else s)
  | _, _ => .next s

/-- INPLACE_DRAIN_END: the waves in flight behind the closed barrier have ended, and the drain that R41 excludes ends (R333). -/
def execInplaceDrainEnd (slot : BitVec 6) (s : State) : Result State :=
  match s.runningMove slot.toNat, s.model slot.toNat with
  | some (p, o), some m =>
    .next (if o.t0.isSome && o.drained.isNone && m.gen.running.isNone && (o.kind == .turn || o.kind == .rebuild) then
      onRunning p (fun o => { o with drained := some s.mtime, ovr0 := s.ovrTotal }) s
    else s)
  | _, _ => .next s

/-- OLD_EPOCH_FREE: nothing holds the superseded copy any more, and its slot is free (R332). -/
def execOldEpochFree (slot : BitVec 6) (s : State) : Result State :=
  match s.model slot.toNat with
  | none => .next s
  | some m =>
    if m.w.oldEpoch == 0 || oldHolders s slot.toNat m != 0 then .next s
    else .next (s.onModel slot.toNat fun m => { m with w := { m.w with oldEpoch := 0, oldAnchors := [] } })

/-- LEARN_LIMIT_EXPIRY: a part that has not reported READY fails with TIMEOUT, and the coordinator decides FAIL; a part that has
reported READY waits for the decision (R340, R425, R426). -/
def execLearnLimitExpiry (slot : BitVec 6) (s : State) : Result State :=
  match s.runningMove slot.toNat, s.model slot.toNat with
  | some (p, o), some m =>
    .next (if o.kind == .learn then limitExpires p slot.toNat m o noEntry s else s)
  | _, _ => .next s

end Sys2Proof.Machine
end

