-- ==== Sys2Proof/Machine/Ledger.lean ====
section
/-!
DEFINITION. A step on the Ledger: feeds, the two passes of a layer, combined values, mirrors, and the commit of the step
(07 R224 to R234, R238 to R245).
-/
namespace Sys2Proof.Machine

/-! ## The open step -/

/-- Change the open step of a model. -/
def onStep (slot : Nat) (f : LedStep → LedStep) (s : State) : State :=
  s.onModel slot fun m => { m with led := { m.led with step := m.led.step.map f } }

/-- The Ledger die that serves a training shard. -/
def ledgerDie (s : State) (m : ModelMap) (x : Shard) : Nat := s.dieOfPart m x.die / 2

/-- The layer of a training shard. -/
def ModelMap.layerOf (m : ModelMap) (x : Shard) : Nat := (m.tensor x.tensor).layer

/-- The group of a training shard. -/
def shardGroup (s : State) (m : ModelMap) (x : Shard) : Option Group := s.groupOf m (m.tensor x.tensor)

/-- The group of a training shard is FROZEN. -/
def shardFrozen (s : State) (m : ModelMap) (x : Shard) : Bool := match shardGroup s m x with
  | some g => g.frozen
  | none => true

/-- The shards that a Ledger die updates in a layer. -/
def layerShards (s : State) (m : ModelMap) (ld layer : Nat) : List (Shard × Nat) :=
  m.ownedShards.filter fun x => m.layerOf x.1 == layer && ledgerDie s m x.1 == ld

/-- The pairs of a Ledger die and a layer that a step writes on this part. -/
def stepPairs (s : State) (m : ModelMap) : List (Nat × Nat) :=
  (m.ownedShards.map fun x => (ledgerDie s m x.1, m.layerOf x.1)).dedup

/-- The units of 32 elements of a shard. -/
def Shard.units (x : Shard) : Nat := x.rows * (x.cols / 32)

/-- Every unit of a shard is covered (R225). -/
def LedStep.covers (st : LedStep) (x : Shard × Nat) : Bool := decide (x.1.units ≤ (tgetD st.stage x.2 []).length)

/-- A layer is ready on a Ledger die (R229). -/
def layerReady (s : State) (m : ModelMap) (st : LedStep) (ld layer : Nat) : Bool :=
  (layerShards s m ld layer).all fun x => shardFrozen s m x.1 || st.covers x

/-- Every layer of the step is ready. -/
def allReady (s : State) (m : ModelMap) (st : LedStep) : Bool := (stepPairs s m).all fun p => layerReady s m st p.1 p.2

/-- Ready layers are released: at once under EARLY, by UPD_COMMIT under SEALED (R229). -/
def LedStep.released (st : LedStep) : Bool := !st.isSealed || st.commit

/-- A resident learning-phase package of the model binds the epoch that the inactive buffer holds (R190). -/
def bufferRead (s : State) (m : Model) : Bool :=
  s.pkgs.any fun p => p.started && p.phase == .learning && p.id.acct.toNat == m.map.acct && p.model == m.map.num &&
    p.epoch.toNat != m.w.epoch

/-! ## Feeds (R224 to R228) -/

/-- The format that the model's mode gives a tensor's feed (R200). -/
def feedFormat (m : Model) (t : Tensor) : Nat := if t.rows == 1 then 0 else if m.led.calibrate then t.calFmt else 6

/-- What decoding a unit of a feed gives: the FP32 words, how many saturated, and whether its block had scale 0xFF (R228). -/
structure FeedUnit where
  words  : List Word
  sats   : Nat
  nanBlk : Bool
  deriving DecidableEq, Repr

/-- Decode a unit of a feed. -/
def feedUnit (f : Feed) (codes : List Nat) (scale : Byte) : FeedUnit :=
  let vals := if f.format.isMx then mxUnpack f.format ⟨scale.toNat, codes⟩ else codes.map f.format.layout.decode
  let cs := vals.map (convert .fp32 .rne true)
  ⟨cs.map fun c => BitVec.ofNat 32 c.code, cs.countP (·.ovf), f.format.isMx && scale == 0xFF⟩

/-- The units of a part of a row, in order. -/
def feedUnits (s : State) (f : Feed) (x : Nat × Nat × Nat) : List FeedUnit :=
  let e := f.elemRange x
  let codes := unpackBits f.format.width (32 * x.2.2) (leNat (s.read e.1 e.2))
  let scales := s.read (f.scaleRange x).1 (f.scaleRange x).2
  (chunks 32 codes).zipIdx.map fun c => feedUnit f c.1 (scales.getD c.2 0)

/-- A monitor record before anything joined it. -/
def MonRec.blank : MonRec := ⟨0, 0, [], [], 0, 0, 0, 0⟩

/-- The key of a monitor record. -/
def monKey (layer group : Nat) : Nat := layer * 4096 + group

/-- Change a monitor record of the open step. -/
def LedStep.onMon (st : LedStep) (layer group : Nat) (f : MonRec → MonRec) : LedStep :=
  { st with mon := tset st.mon (monKey layer group) (f (tgetD st.mon (monKey layer group) MonRec.blank)) }

/-- Units of a feed are discarded (R225). -/
def discardUnits (slot : Nat) (t : Tensor) (n acct : Nat) (s : State) : State :=
  if n == 0 then s
  else
    let drop := fun (r : MonRec) => { r with discards := r.discards + n }
    (onStep slot (fun st => { st.onMon t.layer t.group drop with discards := st.discards + n }) s).num acct 12 n

/-- Stage a unit of a shard unless it is covered. -/
def LedStep.stageUnit (st : LedStep) (i unit : Nat) (ws : List Word) : LedStep :=
  let units := tgetD st.stage i []
  if (tget units unit).isSome then st else { st with stage := tset st.stage i (tset units unit ws) }

/-- A unit that is staged: its number in its shard, its words, and how many of its elements saturated as they were decoded (R228). -/
structure StagedUnit where
  unit  : Nat
  words : List Word
  sats  : Nat
  deriving DecidableEq, Repr

/-- A unit as a message to a twin. -/
def StagedUnit.bytes (u : StagedUnit) : Bytes := leBytes 4 u.unit ++ leBytes 1 u.sats ++ bytesOfWords u.words

/-- Units are staged in a shard, but for those that it has; the saturations of the others count (R225, R228, R245). -/
def stageUnits (slot : Nat) (m : Model) (i : Nat) (us : List StagedUnit) (s : State) : State :=
  let held := match m.led.step with
    | some st => tgetD st.stage i []
    | none => []
  let fresh := us.filter fun u => (tget held u.unit).isNone
  let sats := (fresh.map (·.sats)).sum
  let s := onStep slot (fun st => fresh.foldl (fun st u => st.stageUnit i u.unit u.words) st) s
  match m.map.shards[i]? with
  | none => s
  | some x =>
    let t := m.map.tensor x.tensor
    let note := fun (r : MonRec) => { r with flags := r.flags ||| 8, sats := r.sats + sats }
    if sats == 0 then s else (onStep slot (fun st => st.onMon t.layer t.group note) s).num m.map.acct 9 sats

/-- Staged units are forwarded to the twins of a shard, over the ports of the owner's die (R24, R225, R234). -/
def forwardUnits (slot : Nat) (m : Model) (x : Shard × Nat) (us : List StagedUnit) (s : State) : State :=
  let twins := m.map.shards.zipIdx.filter fun y => y.1.role == 2 && y.1.sameRect x.1
  let send := fun (s : State) (y : Shard × Nat) =>
    if m.map.mine y.1 then stageUnits slot m y.2 us s
    else match s.jobOf m.map.acct m.map.job with
      | some j => sendPart (some (s.dieOfPart m.map x.1.die)) j y.1.part 14
          (leBytes 2 m.map.num ++ leBytes 4 y.2 ++ us.flatMap StagedUnit.bytes) s
      | none => s
  if us.isEmpty then s else twins.foldl send s

/-- The units of one segment of a feed are staged in a shard; those that are covered already are REPEAT and discarded, and the
others' saturations count (R225, R228, R245). -/
def stageRows (d : DescId) (slot : Nat) (m : Model) (f : Feed) (x : Shard × Nat) (seg : Nat) (s : State) : State :=
  let acct := m.map.acct
  let unitOf := fun (r k : Nat) => (f.row0 + r - x.1.row0) * (x.1.cols / 32) + (f.col0 - x.1.col0) / 32 + k
  let units := (f.pieces seg).flatMap fun y => (feedUnits s f y).zipIdx.map fun u => (unitOf y.1 (y.2.1 + u.2), u.1)
  let held := match m.led.step with
    | some st => tgetD st.stage x.2 []
    | none => []
  let fresh := units.filter fun u => (tget held u.1).isNone
  let again := units.length - fresh.length
  let us := fresh.map fun u => (⟨u.1, u.2.words, u.2.sats⟩ : StagedUnit)
  let s := discardUnits slot (m.map.tensor f.tensor) again acct (stageUnits slot m x.2 us s)
  let s := forwardUnits slot m x us s
  let bits := (if fresh.isEmpty then 0 else 1) + (if again == 0 then 0 else 2) + (if units.any fun u => u.2.nanBlk then 32 else 0)
  s.onDesc d fun y => { y with progress := y.progress + 1, result := y.result ||| BitVec.ofNat 32 bits }

/-- A feed is discarded whole, for the reason that a bit of its result word names (R225, R226). -/
def discardFeed (d : DescId) (slot : Nat) (m : Model) (f : Feed) (bit : Nat) (s : State) : State :=
  let s := discardUnits slot (m.map.tensor f.tensor) (f.nrows * (f.ncols / 32)) m.map.acct s
  s.onDesc d fun y => { y with progress := f.segments, result := y.result ||| BitVec.ofNat 32 (2 ^ bit) }

/-- A feed has a segment for the Ledger port of a die: it has started, and its model has a step under way (R225, R227). -/
def hasFeed (s : State) (die : Nat) (p : Pkg) (_ : Nat) (x : Desc) : Bool :=
  p.die x == die && x.kind == 6 && x.state == .started && p.running && decide (x.progress < (feedOf x.raw).segments) &&
  match (s.slotOf p.id.acct.toNat p.model).bind s.model with
  | some m => m.led.step.isSome
  | none => false

/-- The Ledger port of a die serves one segment in a turn: the round robin of R172 gives it to a feed, or leaves the state. -/
def feedTurn (d : DescId) (p : Pkg) (x : Desc) (s : State) (f : State → State) : State :=
  let engine := 1264 + p.die x
  if s.serves engine (hasFeed s (p.die x)) d then f (s.served engine d.pkg.acct.toNat) else s

/-- A step is held by its mark DENY: a frozen feed marked it before any layer that its UPD_COMMIT released began pass 2. A mark that comes
later denies nothing, for a command that has written does not complete with DENIED (R18, R231). (Log entry 187, DESIGN CHOICE.) -/
def LedStep.denied (st : LedStep) : Bool := st.deny && !st.begun2

/-- A step that feeds have marked DENY denies the UPD_COMMIT that waits, and stays OPEN (R225, R231). -/
def denyCommit (slot : Nat) (s : State) : State :=
  match (s.model slot).bind fun m => m.led.step with
  | some st => if st.denied && st.commit then
      finishWait (.commit slot) .denied [] (onStep slot (fun st => { st with commit := false }) s)
    else s
  | none => s

/-- LFEED: a started feed waits for an OPEN step, and for a Ledger die that is in service; the Ledger then discards it whole, or stages its
next 64 KiB segment (R225 to R228, R502). -/
def execLfeed (d : DescId) (s : State) : Result State :=
  match s.desc d with
  | none => .next s
  | some (p, x) =>
    let f := feedOf x.raw
    if x.kind != 6 || x.state != .started || !p.running || decide (f.segments ≤ x.progress) then .next s
    else match s.slotOf p.id.acct.toNat p.model with
      | none => .next s
      | some slot => match s.model slot with
        | none => .next s
        | some m => match m.led.step with
          | none => .next s
          | some st =>
            let t := m.map.tensor f.tensor
            let frozen := t.frozen || (match s.groupOf m.map t with
              | some g => g.frozen
              | none => false)
            let shard := m.map.shards.zipIdx.find? fun y =>
              y.1.tensor == f.tensor && m.map.mine y.1 && y.1.die == x.unit % 8 && y.1.role == 0 &&
              decide (y.1.row0 ≤ f.row0) && decide (f.row0 + f.nrows ≤ y.1.row1 + 1) &&
              decide (y.1.col0 ≤ f.col0) && decide (f.col0 + f.ncols ≤ y.1.col1 + 1)
            if !s.unitServes 4 (p.die x / 2) then .next s
            else if p.epoch.toNat != st.gepoch then .next (discardFeed d slot m f 2 s)
            else if f.fmt != feedFormat m t then .next (discardFeed d slot m f 3 s)
            else if frozen then
              let deny := (s.acct m.map.acct).strictFreeze
              let mark := onStep slot (fun st => { st with deny := st.deny || deny }) s
              .next (discardFeed d slot m f 4 (denyCommit slot mark))
            else match shard with
              | none => .next s
              | some y =>
                .next (feedTurn d p x s fun s => pkgReads p.id .ledger (f.runs x.progress) s (stageRows d slot m f y x.progress))

/-! ## Programs (R222, R235, R239, R240) -/

/-- The program in a slot. -/
def progOf (s : State) (slot : Nat) : List LdgIns := match tget s.led.slots slot with
  | some p => p.prog
  | none => []

/-- A reduction of wider than BLOCK scope. -/
def LdgIns.isWide (i : LdgIns) : Bool := (i.op == 0x20 || i.op == 0x21 || i.op == 0x22) && i.md % 4 != 0
/-- A reduction of STEP scope. -/
def LdgIns.isStep (i : LdgIns) : Bool := i.isWide && i.md % 4 == 2
/-- CIR or NSNORM. -/
def LdgIns.mayFail (i : LdgIns) : Bool := i.op == 0x27 || i.op == 0x28

/-- The instructions that pass 1 runs: through the last reduction of wider scope, CIR or NSNORM; none for a program of one pass
(R239). -/
def passOne (p : List LdgIns) : List LdgIns :=
  p.take (maxNat ((p.zipIdx.filter fun x => x.1.isWide || x.1.mayFail).map fun x => x.2 + 1))

/-- A curve of a group at a step (R222). -/
def curveAt (b : Bytes) (t : Word) (hyp : Word) : Word :=
  let kind := fieldAt b 0 1
  let w := fun (off : Nat) => BitVec.ofNat 32 (fieldAt b off 4)
  let f := fun (x : Word) => toF32 (Val.ofInt x.toNat)
  let next := toF32 (Val.ofInt (t.toNat + 1))
  let (peak, low, warm, total) := (w 4, w 8, w 0xC, w 0x10)
  if kind == 0 then hyp
  else if kind == 1 then peak
  else if t < warm then f32Mul peak (f32Div next (f warm))
  else if kind == 4 then
    if total ≤ t then low else f32Mul peak (libFn .rsqrt (f32Div next (f warm)))
  else if total ≤ t then low
  else
    let x := f32Div (f (t - warm)) (f (total - warm))
    if kind == 2 then
      f32Add low (f32Mul (f32Sub peak low) (f32Mul 0x3F000000 (f32Add oneF32 (libFn .cos (f32Mul 0x40490FDB x)))))
    else f32Add peak (f32Mul (f32Sub low peak) x)

/-- S0 to S31 at the start of a block: HYP with the curves applied, the step number, and the damping (R222, R236). -/
def groupScalars (g : Group) (step : Word) (eps : Word) : List Word :=
  let hyp := wordsOf ((g.raw.drop 0x10).take 64)
  let curve := fun (off : Nat) (h : List Word) =>
    let b := (g.raw.drop off).take 20
    let t := fieldAt b 1 1 % 16
    if fieldAt b 0 1 == 0 then h else h.set t (curveAt b step (h.getD t 0))
  curve 0x64 (curve 0x50 hyp) ++ [toF32 (Val.ofInt (step.toNat + 1)), eps] ++ List.replicate 14 0

/-- The damping of a try: 0, EPS0, and 10 times the last (R240). -/
def dampOf (g : Group) : Nat → Word
  | 0 => 0
  | 1 => g.eps0
  | n + 1 => f32Mul (dampOf g n) 0x41200000

/-! ## The registers of a block (R236) -/

/-- The key of a reduction's anchor record: per layer, group, instruction and inner product, and for STEP scope per program slot
(R238). Instructions of a fallback program follow those of the program, and the monitors' sums follow both.
(Log entry 110, DEDUCED.) -/
def recKey (layer group instr product : Nat) : Nat := ((layer * 4096 + group) * 256 + instr) * 4 + product

/-- The record key of an instruction of a group's program. -/
def insKey (layer group slot base n product : Nat) (i : LdgIns) : Nat :=
  if i.isStep then recKey 0xFFFF slot (base + n) product else recKey layer group (base + n) product

/-- The amax of the previous step of every reduction of a program, as the block registers hold it. -/
def prevAmax (m : Model) (layer group slot base : Nat) (p : List LdgIns) : Tbl Word :=
  p.zipIdx.flatMap fun x => (List.range 3).filterMap fun k =>
    (tget m.led.records (insKey layer group slot base x.2 k x.1)).map fun w => (4 * x.2 + k, w)

/-- A block of a shard: its place, its group, and the program that runs on it. -/
structure BlockJob where
  slot  : Nat
  shard : Shard × Nat
  layer : Nat
  gnum  : Nat
  g     : Group
  /-- first row, rows, first column, columns -/
  rect  : Nat × Nat × Nat × Nat
  index : Nat
  deriving DecidableEq, Repr

/-- Rows of a block, each read as words. -/
def BlockJob.rowsOf (b : BlockJob) (f : Nat → List Word) : List Word := (List.range b.rect.2.1).flatMap fun i => f (b.rect.1 + i)

/-- G of a block (R228). -/
def BlockJob.gWords (b : BlockJob) (st : LedStep) : List Word :=
  let units := tgetD st.stage b.shard.2 []
  let per := b.shard.1.cols / 32
  b.rowsOf fun r =>
    (((List.range (b.rect.2.2.2 / 32)).flatMap fun k => tgetD units (r * per + b.rect.2.2.1 / 32 + k) []))

/-- W of a block: the split master, or the SR16 value (R80, R236). -/
def BlockJob.wWords (b : BlockJob) (s : State) (m : Model) : List Word :=
  let n := b.rect.2.2.2
  b.rowsOf fun r =>
    let hi := halvesOf (highRow s b.slot m.map m.w.activeB b.shard.2 r b.rect.2.2.1 n)
    if b.g.sr16 then hi.map fun h => toF32 (ofBf16 h)
    else List.zipWith (fun h l => toF32 (splitRecover h l)) hi (halvesOf (lowRow s b.slot m.map b.shard.2 r b.rect.2.2.1 n))

/-- A state slot of a block. -/
def BlockJob.mWords (b : BlockJob) (s : State) (m : Model) (k : Nat) : List Word :=
  if b.g.stateFmt k == 0 then List.replicate (b.rect.2.1 * b.rect.2.2.2) 0
  else b.rowsOf fun r => wordsOf (stateRow s b.slot k m.map b.shard.2 r b.rect.2.2.1 b.rect.2.2.2)

/-- The registers at the start of a block (R236). -/
def BlockJob.start (b : BlockJob) (s : State) (m : Model) (st : LedStep) (eps : Word) : LedRegs :=
  let (rows, cols) := (b.rect.2.1, b.rect.2.2.2)
  let zeros := List.replicate (rows * cols) (0 : Word)
  let w := b.wWords s m
  let q3 : Mtx := if b.g.qsave then
      tgetD s.led.q3 (q3Key b.slot b.shard.2 b.index) ⟨b.g.br, b.g.br, List.replicate (b.g.br * b.g.br) 0⟩
    else ⟨0, 0, []⟩
  { LedRegs.blank rows cols with
    el := List.replicate 10 zeros ++ [b.gWords st, w] ++ (List.range 4).map (b.mWords s m) ++ [w],
    sc := groupScalars b.g st.step eps, q := List.replicate 3 ⟨0, 0, []⟩ ++ [q3], theta := b.g.theta, free := s.freeCtr }

/-- The blocks of a shard as jobs. -/
def shardBlocks (slot : Nat) (m : ModelMap) (x : Shard × Nat) (g : Group) : List BlockJob :=
  let t := m.tensor x.1.tensor
  (g.blocks x.1).zipIdx.map fun r => ⟨slot, x, t.layer, t.group, g, r.1, r.2⟩

/-- The key of a block's damping. -/
def BlockJob.key (b : BlockJob) : Nat := b.shard.2 * 2 ^ 32 + b.index

/-! ## Pass 1 (R239, R240) -/

/-- The first try, of those given, in which a block is not singular: the registers it leaves, and its number; 4 and the last try's
registers for a failed block. (Log entry 105, DEDUCED.) -/
def tryDamp (run : Word → Nat → LedRegs) (g : Group) : List Nat → Nat → LedRegs × Nat
  | [], free => (run 0 free, 4)
  | [k], free =>
    let r := run (dampOf g k) free
    (r, if r.singular then 4 else k)
  | k :: ks, free =>
    let r := run (dampOf g k) free
    if r.singular then tryDamp run g ks r.free else (r, k)

/-- Join a partial sum to those that a step holds. -/
def mergeWide (ws : List Wide) (w : Wide) : List Wide :=
  let same := fun (x : Wide) => x.scope == w.scope && x.layer == w.layer && x.group == w.group && x.tensor == w.tensor &&
    x.slot == w.slot && x.instr == w.instr
  if ws.any same then
    ws.map fun x => if same x then { x with sum := List.zipWith La.merge x.sum w.sum, mx := wordMax x.mx w.mx } else x
  else ws ++ [w]

/-- The partial sums that a block's pass 1 leaves. -/
def BlockJob.wides (b : BlockJob) (p : List LdgIns) (r : LedRegs) : List Wide :=
  r.parts.filterMap fun x => (p[x.1]?).map fun i =>
    if i.isStep then ⟨.step, b.layer, 0, 0, b.g.slot, x.1, x.2.1, x.2.2⟩
    else ⟨.tensor, b.layer, b.gnum, b.shard.1.tensor, b.g.slot, x.1, x.2.1, x.2.2⟩

/-- Pass 1 of one block. -/
def passOneBlock (ld : Nat) (m : Model) (st : LedStep) (b : BlockJob) (s : State) : State :=
  let p := passOne (progOf s b.g.slot)
  if p.isEmpty then s
  else
    let prev := prevAmax m b.layer b.gnum b.g.slot 0 p
    let run := fun (eps : Word) (free : Nat) => ledRun p { b.start s m st eps with pass1 := true, prev := prev, free := free }
    let (r, k) := tryDamp run b.g [0, 1, 2, 3] s.freeCtr
    let owner := b.shard.1.role == 0
    let join := fun (st : LedStep) =>
      let st := { st with damp := tset st.damp b.key k,
                          failedOwn := if k == 4 then (st.failedOwn ++ [(b.layer, b.gnum)]).dedup else st.failedOwn }
      if owner then { st with partials := (b.wides p r).foldl mergeWide st.partials } else st
    { onStep b.slot join s with freeCtr := r.free, led := { s.led with regs := lmod s.led.regs ld fun _ => r } }

/-- The reduction of a partial sum: its instruction, the anchor word that its IMM gives, and the anchor of its record (R238). -/
def wideIns (s : State) (m : Model) (layer group slot instr : Nat) : Option (LdgIns × Nat × Int) :=
  (progOf s slot)[instr]?.map fun i =>
    (i, ledWord i.imm, anchorOf (ledWord i.imm) (tgetD m.led.records (insKey layer group slot 0 instr 0 i) 0))

/-- The bytes of a partial sum in a message: its identity, its tag and anchor, the largest magnitude, and the sums in LA transport (R72,
R239). -/
def wideBytes (s : State) (m : Model) (w : Wide) : Bytes :=
  let (tag, A) := match (if w.scope == .block then none else wideIns s m w.layer w.group w.slot w.instr) with
    | some x => (x.2.1, x.2.2)
    | none => (0, 0)
  leBytes 1 (match w.scope with
    | .block => 0
    | .tensor => 1
    | .step => 2) ++ leBytes 2 w.layer ++ leBytes 2 w.group ++ leBytes 4 w.tensor ++ leBytes 1 w.slot ++ leBytes 1 w.instr ++
    leBytes 4 tag ++ leBytes 2 (unsigned 10 A) ++ leBytes 4 w.mx.toNat ++ wordBytes (w.sum.flatMap La.encode)

/-- A partial sum as it is taken from another owner: none where its tag or anchor is not that of this part's own, or a transport word is
reserved, for the transfer fails its integrity check then (R72, R77). A record's maximum carries neither. -/
def WideMsg.take (s : State) (m : Model) (w : WideMsg) : Option Wide :=
  let done := fun (sum : Shadows) => some (⟨w.scope, w.layer, w.group, w.tensor, w.slot, w.instr, sum, w.mx⟩ : Wide)
  if w.scope == .block then done []
  else match wideIns s m w.layer w.group w.slot w.instr with
    | none => none
    | some (i, word, A) =>
      if !i.isWide || w.tag.toNat != word || w.anchor.toNat != unsigned 10 A then none
      else if i.op == 0x22 then (if w.words.isEmpty then done [] else none)
      else match La.decodeMany 3 w.words with
        | some (as, []) => done as
        | _ => none

/-- A layer's groups that run on this part, and whether a program of theirs takes two passes. -/
def layerGroups (s : State) (m : ModelMap) (layer : Nat) : List (Nat × Group) :=
  ((m.shards.filter fun x => m.layerOf x == layer && x.role != 1 && !(m.tensor x.tensor).frozen).filterMap fun x =>
    match shardGroup s m x with
    | some g => if g.frozen then none else some ((m.tensor x.tensor).group, g)
    | none => none).dedup

/-- Some program of a layer takes two passes. -/
def layerTwoPass (s : State) (m : ModelMap) (layer : Nat) : Bool :=
  (layerGroups s m layer).any fun g => !(passOne (progOf s g.2.slot)).isEmpty

/-- An activation of the Ledger's microcode runs: updates and later-layer copies pause (R246, R454, R533). -/
def ledgerPaused (s : State) : Bool := match s.chip.fw.activation with
  | some a => a.left.headD 0 == 1
  | none => false

/-- A Ledger die may run a pass of a layer: the step is OPEN, the layer ready there and released, and the die is in service with no
activation of its microcode running (R229, R246). -/
def passOpen (s : State) (m : Model) (st : LedStep) (ld layer : Nat) : Bool :=
  m.led.ustate == .open && (stepPairs s m.map).contains (ld, layer) && layerReady s m.map st ld layer && st.released &&
  s.unitServes 4 ld && s.chip.power.pstate == 0 && !ledgerPaused s

/-- What a pass of a layer reads on a Ledger die: the high and low halves and the state of each shard that it updates, by storage
key. -/
def layerKeys (s : State) (slot : Nat) (m : Model) (ld layer : Nat) : List (Nat × Nat) :=
  (layerShards s m.map ld layer).flatMap fun x =>
    let (off, n) := (trainOff m.map x.2, trainSize x.1)
    let high := (trainKey slot m.w.activeB x.1.die off, n)
    match shardGroup s m.map x.1 with
    | none => []
    | some g =>
      if g.frozen then [high]
      else high :: ((if g.sr16 then [] else [(vaultKey slot x.1.die off, n)]) ++
        ((List.range 4).filter fun k => g.stateFmt k != 0).map fun k => (stateKey slot k x.1.die off, 2 * n))

/-- What a pass of a layer writes: the halves of the other buffer, and in place in the Vault. -/
def layerOut (s : State) (slot : Nat) (m : Model) (ld layer : Nat) : List (Nat × Nat) :=
  layerKeys s slot { m with w := { m.w with activeB := !m.w.activeB } } ld layer

/-- Partial sums and record maxima go to the job's other parts; sums that travel as LONG are counted once (R78, R238, R239). -/
def sendWides (m : Model) (layer : Nat) (ws : List Wide) (failed : List Nat) (s : State) : State :=
  match s.jobOf m.map.acct m.map.job with
  | none => s
  | some j =>
    let longs := if decide (1 < j.table.length) then longCount (ws.flatMap (·.sum)) else 0
    let s := (s.num m.map.acct 7 longs).bump 0x504 8 (some m.map.acct) none longs
    sendParts j 10 (leBytes 2 m.map.num ++ leBytes 2 layer ++ ws.flatMap (wideBytes s m) ++ failed.flatMap (leBytes 2)) s

/-- LAYER_PASS1: a released ready layer runs pass 1 of its programs on a Ledger die, and its partial sums and failures go to the
other owners (R239, R240, R424). A layer that the Ledger cannot read waits (R246). -/
def execLayerPass1 (slot : BitVec 6) (ld : BitVec 2) (layer : BitVec 16) (s : State) : Result State :=
  let (k, d, l) := (slot.toNat, ld.toNat, layer.toNat)
  match s.model k with
  | none => .next s
  | some m => match m.led.step with
    | none => .next s
    | some st =>
      if !passOpen s m st d l || st.pass1.contains (d, l) || !layerTwoPass s m.map l then .next s
      else
        let blocks := (layerShards s m.map d l).flatMap fun x => match shardGroup s m.map x.1 with
          | some g => if g.frozen then [] else shardBlocks k m.map x g
          | none => []
        let (read, s) := s.readKeys .ledger m.map.acct (layerKeys s k m d l)
        if !read then .next s
        else
          let s := blocks.foldl (fun s b => passOneBlock d m st b s) s
          let s := onStep k (fun st => { st with pass1 := st.pass1 ++ [(d, l)] }) s
          match (s.model k).bind fun m => m.led.step with
          | none => .next s
          | some st =>
            let last := ((stepPairs s m.map).filter fun p => p.2 == l).all fun p => st.pass1.contains p
            .next (if last then sendWides m l (st.partials.filter fun w => w.layer == l)
                ((st.failedOwn.filter fun x => x.1 == l).map (·.2)) s
              else s)

/-! ## Combined values (R238 to R240, R424) -/

/-- Every layer of the model whose programs take two passes has its combined values. -/
def allCombined (s : State) (m : ModelMap) (st : LedStep) : Bool :=
  (List.range m.layers).all fun l => !layerTwoPass s m l || st.combLayers.contains l

/-- Another owner's maximum joins a table of anchor records: the instruction field carries the record's instruction, the tensor field
its inner product (R238). -/
def joinRecord (t : Tbl Word) (w : Wide) : Tbl Word :=
  let k := recKey w.layer w.group w.instr w.tensor
  tset t k (wordMax (tgetD t k 0) w.mx)

/-- The record of a key and its maximum, as they travel (R238). -/
def recordWide (x : Nat × Word) : Wide :=
  ⟨.block, x.1 / 2 ^ 22, x.1 / 1024 % 4096, x.1 % 4, 0, x.1 / 4 % 256, [], x.2⟩

/-- The maxima of the records that other owners and twins found join the open step's, and after its end the records themselves
(R238). -/
def joinRecords (slot : Nat) (ws : List Wide) (s : State) : State :=
  s.onModel slot fun m => match m.led.step with
    | some st => { m with led := { m.led with step := some { st with amax := ws.foldl joinRecord st.amax } } }
    | none => { m with led := { m.led with records := ws.foldl joinRecord m.led.records } }

/-- The results of combined sums. -/
def wideOuts (s : State) (m : Model) (ws : List Wide) : List LaOut := ws.filterMap fun w => match (progOf s w.slot)[w.instr]? with
  | none => none
  | some i =>
    let A := anchorOf (ledWord i.imm) (tgetD m.led.records (insKey w.layer w.group w.slot 0 w.instr 0 i) 0)
    if i.op == 0x22 then none else some (shadowsOut A w.sum)

/-- What results met is counted (R63, R64, R67, R563). -/
def countOuts (acct : Nat) (os : List LaOut) (s : State) : State :=
  countConds acct 8 none (os.foldl (fun c o => c.add o.conds) Conds.zero) s

/-- The groups of a layer that fell back are counted, and UPD_SINGULAR is raised once for each (R240). -/
def raiseSingular (m : Model) (st : LedStep) (layer : Nat) (groups : List Nat) (s : State) : State :=
  let acct := m.map.acct
  groups.foldl (fun s g =>
    let args := leBytes 2 m.map.num ++ leBytes 2 layer ++ leBytes 2 g ++ [0, 0] ++ leBytes 4 st.step.toNat
    (post acct 4 .ok args s).num acct 11 1) s

/-- What the other owners of a layer sent joins what this part's Ledgers found, once these have run pass 1 of it, and the maxima of
records that they sent at the end of their step join this part's (R238 to R240). -/
def combineWides (slot : Nat) (m : Model) (l : Nat) (others : List Wide) (failed : List Nat) (s : State) : State :=
  let s := joinRecords slot (others.filter fun w => w.scope == .block) s
  match m.led.step with
  | none => s
  | some st =>
    let ran := ((stepPairs s m.map).filter fun p => p.2 == l).all fun p => st.pass1.contains p
    if !ran || !layerTwoPass s m.map l || st.combLayers.contains l then s
    else
      let here := (((m.map.ownedShards.filter fun x => m.map.layerOf x.1 == l).map fun x => (m.map.tensor x.1.tensor).group)).dedup
      let fell := (((st.failedOwn.filter fun x => x.1 == l).map (·.2)) ++ failed).dedup
      let fell := fell.filter fun g => here.contains g
      let join := fun (st : LedStep) =>
        let mine := st.partials.filter fun w => w.scope == .tensor && w.layer == l
        let got := others.filter fun w => w.scope == .tensor && w.layer == l
        let steps := others.filter fun w => w.scope == .step
        let st := { st with
          combined := st.combined ++ got.foldl mergeWide mine,
          partials := steps.foldl mergeWide st.partials,
          failed := st.failed ++ fell.map (fun g => (l, g)), combLayers := st.combLayers ++ [l],
          fallbacks := st.fallbacks + fell.length }
        { st with combStep := st.combStep || allCombined s m.map st }
      let after := join st
      let whole := (after.combined.filter fun w => w.scope == .tensor && w.layer == l) ++
        (if after.combStep && !st.combStep then
          ((after.partials.filter fun w => w.scope == .step).map fun w => { w with layer := 0 }).foldl mergeWide [] else [])
      countOuts m.map.acct (wideOuts s m whole) (raiseSingular m st l fell (onStep slot join s))

/-- LEDGER_COMBINE: the messages of the job's joined parts for a layer, or about the records of a step that has ended, arrive and join
(R424); those of any other part are discarded and counted (R411). A transfer that fails its integrity check is sent again, so that the
row has no effect and comes again (R72, R77, log entry 188, DESIGN CHOICE). -/
def execLedgerCombine (slot : BitVec 6) (layer : BitVec 16) (others : List WideMsg) (failed : List (BitVec 13 × BitVec 12))
    (s : State) : Result State :=
  let k := slot.toNat
  match s.model k with
  | none => .next s
  | some m =>
    let joined := fun (p : BitVec 13) => (s.joinedBy m.map.job p).isSome
    let strangers := (((others.map (·.part)) ++ failed.map (·.1)).dedup.filter fun p => !joined p).length
    match (others.filter fun w => joined w.part).mapM (WideMsg.take s m) with
    | none => .next s
    | some ws =>
      let s := (List.range strangers).foldl (fun s _ => discardMsg s) s
      .next (combineWides k m layer.toNat ws ((failed.filter fun x => joined x.1).map fun x => x.2.toNat) s)

/-! ## Pass 2 and write-back (R239, R241, R242) -/

/-- The sum of partial sums, whatever layer they came from. -/
def mergeAll (a : Option Wide) (w : Wide) : Option Wide := match a with
  | none => some w
  | some x => some { x with sum := List.zipWith La.merge x.sum w.sum, mx := wordMax x.mx w.mx }

/-- The combined values that a block's reductions of wider scope take, by instruction (R239). -/
def BlockJob.combined (b : BlockJob) (m : Model) (st : LedStep) (p : List LdgIns) : Tbl Word × List (Nat × LaOut) :=
  let one := fun (x : LdgIns × Nat) =>
    let scope : Scope := if x.1.isStep then .step else .tensor
    let same := fun (w : Wide) => w.slot == b.g.slot && w.instr == x.2 && w.scope == scope &&
      (x.1.isStep || w.tensor == b.shard.1.tensor)
    match ((if x.1.isStep then st.partials else st.combined).filter same).foldl mergeAll none with
    | none => none
    | some w =>
      let A := anchorOf (ledWord x.1.imm) (tgetD m.led.records (insKey b.layer b.gnum b.g.slot 0 x.2 0 x.1) 0)
      some (x.2, if x.1.op == 0x22 then ⟨w.mx, false, false, false⟩ else shadowsOut A w.sum)
  let os := (p.zipIdx.filter fun x => x.1.isWide).filterMap one
  (os.map fun o => (o.1, o.2.word), os)

/-- What write-back does to one element: its halves or its single value, and its state words, or a skip (R241). -/
structure ElemOut where
  skip  : Bool
  sat   : Bool
  high  : BitVec 16
  low   : BitVec 16
  state : List Word
  /-- U of R245 -/
  upd   : Word
  deriving DecidableEq, Repr

/-- The bits of a Ledger draw that R52 takes (R242). -/
def ledgerDraw (m : Model) (st : LedStep) (layer purpose ctr : Nat) : BitVec 16 :=
  let k1 : DWord := (st.step.setWidth 64 <<< 32) ||| BitVec.ofNat 64 (layer * 65536 + purpose)
  (coin m.led.seed k1 (BitVec.ofNat 64 ctr) >>> 48).setWidth 16

/-- A pattern is a NaN or an infinity. -/
def nonFinite (w : Word) : Bool := !(ofF32 w).isFin

/-- A state word as its slot stores it (R52, R241). (Log entry 108, DEDUCED.) -/
def stateWord (m : Model) (st : LedStep) (layer fmt ctr : Nat) (w : Word) : Word :=
  let h := fun (x : Nat) => BitVec.ofNat 32 (x * 65536)
  if fmt == 1 then w
  else if fmt == 2 then h (toFmt .bf16 .rne true (ofF32 w))
  else h (stochasticRound w (ledgerDraw m st layer 0x8002 ctr)).toNat

/-- Write-back of one element (R241). -/
def elemOut (b : BlockJob) (m : Model) (st : LedStep) (wrote : List Nat) (gidx : Nat) (w n : Word) (ms : List Word) : ElemOut :=
  let bad := nonFinite n || wrote.any fun k => nonFinite (ms.getD k 0)
  let top : Word := 0x7F7F0000
  let big := decide (top.toNat < (n &&& 0x7FFFFFFF).toNat)
  let n := if big then (n &&& 0x80000000) ||| top else n
  let high := if b.g.sr16 then stochasticRound n (ledgerDraw m st b.layer 0x8001 gidx) else splitHigh n
  { skip := bad, sat := big && !bad, high := high, low := splitLow n high,
    state := (List.range 4).map fun k => stateWord m st b.layer (b.g.stateFmt k) (4 * gidx + k) (ms.getD k 0),
    upd := if bad then 0 else f32Sub n w }

/-- The global parameter index of an element of a block (R216). -/
def BlockJob.gidx (b : BlockJob) (t : Tensor) (i : Nat) : Nat :=
  let cols := max 1 b.rect.2.2.2
  t.base + (b.shard.1.row0 + b.rect.1 + i / cols) * t.cols + b.shard.1.col0 + b.rect.2.2.1 + i % cols

/-- The anchors of the monitor's three sums (R245). -/
def monAnchors (m : Model) (layer group : Nat) : List Int :=
  (List.range 3).map fun k => anchorOf 0x440 (tgetD m.led.records (recKey layer group 128 k) 0)

/-- A block joins its monitor record (R245). (Log entry 107, DEDUCED.) -/
def BlockJob.monitor (b : BlockJob) (m : Model) (fell damped anchorSat : Bool) (ws gs : List Word) (outs : List ElemOut)
    (r : MonRec) : MonRec :=
  let As := monAnchors m b.layer b.gnum
  let squares := fun (xs : List Word) => xs.map fun w => (ofF32 w).mul (ofF32 w)
  let sums := (As.zip [ws, gs, outs.map (·.upd)]).map fun x => laShadows x.1 (squares x.2)
  let old := if r.sums.isEmpty then List.replicate 3 Shadows.zero else r.sums
  let skips := (outs.filter (·.skip)).length
  let sats := (outs.filter (·.sat)).length
  let bit := fun (c : Bool) (i : Nat) => if c then 2 ^ i else 0
  { r with flags := r.flags ||| bit fell 0 ||| bit damped 1 ||| bit (skips != 0) 2 ||| bit (sats != 0) 3 ||| bit anchorSat 4,
           elements := r.elements + ws.length, anchors := As,
           sums := List.zipWith (fun x y => List.zipWith La.merge x y) old sums, skips := r.skips + skips, sats := r.sats + sats,
           damped := r.damped + (if damped then 1 else 0) }

/-- Write back the elements of a block, row by row (R241). -/
def BlockJob.store (b : BlockJob) (m : Model) (outs : List ElemOut) (s : State) : State :=
  let n := b.rect.2.2.2
  let row := fun (s : State) (x : List ElemOut × Nat) =>
    let (r, c, i) := (b.rect.1 + x.2, b.rect.2.2.1, b.shard.2)
    let keepH := halvesOf (highRow s b.slot m.map m.w.activeB i r c n)
    let keepL := halvesOf (lowRow s b.slot m.map i r c n)
    let hs := List.zipWith (fun (o : ElemOut) h => if o.skip then h else o.high) x.1 keepH
    let s := putHigh b.slot m.map (!m.w.activeB) i r c (bytesOfHalves hs) s
    let s := if b.g.sr16 then s
      else putLow b.slot m.map i r c (bytesOfHalves (List.zipWith (fun (o : ElemOut) l => if o.skip then l else o.low) x.1 keepL)) s
    (List.range 4).foldl (fun s k =>
      if b.g.stateFmt k == 0 then s
      else
        let old := wordsOf (stateRow s b.slot k m.map i r c n)
        let ws := List.zipWith (fun (o : ElemOut) w => if o.skip then w else o.state.getD k 0) x.1 old
        putState b.slot k m.map i r c (bytesOfWords ws) s) s
  (chunks n outs).zipIdx.foldl row s

/-- Pass 2 of one block (R239 to R242). The damping that a try fixed holds in the fallback program too; a block that failed every try
reads S17 as +0 there, which the spec leaves open (R240, log entry 179, DESIGN CHOICE). A TENSOR or STEP reduction of a fallback program,
of which no pass 1 is described, gives each block a free value of its own (R239, R243, log entry 178, DESIGN CHOICE). A reduction of wider
scope leaves an anchor record, but RMAX leaves none (R238). -/
def passTwoBlock (ld : Nat) (m : Model) (st : LedStep) (b : BlockJob) (s : State) : State :=
  let fell := st.failed.contains (b.layer, b.gnum)
  let p := progOf s (if fell then b.g.fallback else b.g.slot)
  let base := if fell then 64 else 0
  let k := tgetD st.damp b.key 0
  let (comb, outs) := if fell then ([], []) else b.combined m st p
  let prev := prevAmax m b.layer b.gnum (if fell then b.g.fallback else b.g.slot) base p
  let r0 := b.start s m st (dampOf b.g (if k == 4 then 0 else k))
  let r := ledRun p { r0 with comb := comb, prev := prev, pass1 := fell }
  let wrote := (p.filter fun i => decide (0xC ≤ i.d) && decide (i.d ≤ 0xF)).map fun i => i.d - 0xC
  let t := m.map.tensor b.shard.1.tensor
  let ws := r0.elemReg 0xB
  let elems := (ws.zip (r.elemReg 0x10)).zipIdx.map fun x =>
    elemOut b m st wrote (b.gidx t x.2) x.1.1 x.1.2 ((List.range 4).map fun k => (r.elemReg (0xC + k)).getD x.2 0)
  let s := { b.store m elems s with freeCtr := r.free, led := { s.led with regs := lmod s.led.regs ld fun _ => r } }
  let q := r.q.getD 3 ⟨0, 0, []⟩
  let s := if b.g.qsave && q.rows == b.g.br && q.cols == b.g.br then
      { s with led := { s.led with q3 := tset s.led.q3 (q3Key b.slot b.shard.2 b.index) q } }
    else s
  let skips := (elems.filter (·.skip)).length
  let sats := (elems.filter (·.sat)).length
  let met : Conds := { Conds.zero with anchorSat := r.met.1, fp32Sat := r.met.2.1, nonfinite := r.met.2.2 }
  let damped := decide (1 ≤ k) && decide (k ≤ 3)
  let sat := r.anchorSat || outs.any fun o => o.2.anchorSat
  let note := fun (st : LedStep) =>
    let key := fun (x : Nat) => match p[x / 4]? with
      | some i => insKey b.layer b.gnum (if fell then b.g.fallback else b.g.slot) base (x / 4) (x % 4) i
      | none => recKey b.layer b.gnum (base + x / 4) (x % 4)
    let isMax := fun (n : Nat) => (p[n]?).any fun i => i.op == 0x22
    let wide := (outs.filter fun o => !o.2.nonfinite && !isMax o.1).map fun o => (4 * o.1, o.2.word &&& 0x7FFFFFFF)
    let put := fun (a : Tbl Word) (x : Nat × Word) => tset a (key x.1) (wordMax (tgetD a (key x.1) 0) x.2)
    { st.onMon b.layer b.gnum (b.monitor m fell damped sat ws (r0.elemReg 0xA) elems) with
        amax := (r.amax ++ wide).foldl put st.amax, skips := st.skips + skips }
  let a := m.map.acct
  let s := countConds a (s.dieOfPart m.map b.shard.1.die) none met (onStep b.slot note s)
  let s := if skips == 0 then s else (s.num a 8 skips).bump 0x800 8 (some a) none skips
  let s := if sats == 0 then s else s.num a 9 sats
  if damped then s.num a 10 1 else s

/-- A FROZEN shard's rows are copied from the active buffer into the other (R233). -/
def copyFrozen (slot : Nat) (m : Model) (x : Shard × Nat) (s : State) : State :=
  (List.range x.1.rows).foldl (fun s r =>
    putHigh slot m.map (!m.w.activeB) x.2 r 0 (highRow s slot m.map m.w.activeB x.2 r 0 x.1.cols) s) s

/-- The rows of a shard in the buffer that an update writes. -/
def newRows (s : State) (slot : Nat) (m : Model) (x : Shard × Nat) : Bytes :=
  (List.range x.1.rows).flatMap fun r => highRow s slot m.map (!m.w.activeB) x.2 r 0 x.1.cols

/-- The owner's new rows go to the parts that hold mirrors of its shard, over the ports of its die (R24, R234). -/
def sendMirrors (slot : Nat) (m : Model) (x : Shard × Nat) (s : State) : State :=
  let ys := m.map.shards.zipIdx.filter fun y => y.1.role == 1 && y.1.sameRect x.1 && !m.map.mine y.1
  match s.jobOf m.map.acct m.map.job with
  | none => s
  | some j => ys.foldl (fun s y => sendPart (some (s.dieOfPart m.map x.1.die)) j y.1.part 11
      (leBytes 2 m.map.num ++ leBytes 4 y.2 ++ newRows s slot m x) s) s

/-! ## Commit (R231, R245) -/

/-- A monitor record as UPD_MON_READ writes it (R245). (Log entry 106, DEDUCED.) -/
def monBytes (m : Model) (step : Word) (key : Nat) (r : MonRec) : Bytes :=
  let As := if r.anchors.isEmpty then monAnchors m (key / 4096) (key % 4096) else r.anchors
  let sums := if r.sums.isEmpty then List.replicate 3 Shadows.zero else r.sums
  let outs := (As.zip sums).map fun x => shadowsOut x.1 x.2
  let roots := outs.map fun o => f32Sqrt o.word
  let flags := r.flags ||| (if outs.any (·.anchorSat) then 16 else 0)
  leBytes 2 m.map.num ++ leBytes 2 (key / 4096) ++ leBytes 2 (key % 4096) ++ leBytes 2 flags ++ leBytes 4 step.toNat ++
    leBytes 4 0 ++ leBytes 8 r.elements ++ (As.flatMap fun A => leBytes 2 (unsigned 10 A)) ++ [0, 0] ++
    (sums.flatMap fun sh => padTo 32 (wordBytes ((sh.headD La.zero).encode))) ++ bytesOfWords roots ++
    leBytes 4 (f32Div (roots.getD 2 0) (roots.getD 0 0)).toNat ++ leBytes 4 r.skips ++ leBytes 4 r.sats ++ leBytes 4 r.damped ++
    leBytes 4 r.discards ++ List.replicate 32 0

/-- The largest result of each monitor sum joins its anchor record (R238, R245). -/
def monAmax (mon : Tbl MonRec) : Tbl Word :=
  mon.flatMap fun x => ((x.2.anchors.zip x.2.sums).zipIdx.filterMap fun y =>
    let o := shadowsOut y.1.1 y.1.2
    if o.nonfinite then none else some (recKey (x.1 / 4096) (x.1 % 4096) 128 y.2, o.word &&& 0x7FFFFFFF))

/-- The results of the monitors' sums. -/
def monOuts (mon : Tbl MonRec) : List LaOut := mon.flatMap fun x => (x.2.anchors.zip x.2.sums).map fun y => shadowsOut y.1 y.2

/-- The mirror shards of trainable tensors on this part. -/
def mirrorShards (m : ModelMap) : List Nat :=
  (m.shards.zipIdx.filter fun x => m.mine x.1 && x.1.role == 1 && !(m.tensor x.1.tensor).frozen).map (·.2)

/-- Layers that every Ledger die of the part has written. (Log entry 136, DEDUCED.) -/
def layersWritten (s : State) (m : ModelMap) (st : LedStep) : Nat :=
  (((stepPairs s m).map (·.2)).dedup.filter fun l => ((stepPairs s m).filter fun p => p.2 == l).all fun p => st.pass2.contains p).length

/-- Layers that are ready on every Ledger die of the part. -/
def layersReady (s : State) (m : ModelMap) (st : LedStep) : Nat :=
  (((stepPairs s m).map (·.2)).dedup.filter fun l => ((stepPairs s m).filter fun p => p.2 == l).all fun p =>
    layerReady s m st p.1 l).length

/-- UPD_COMMIT's response payload (R218). -/
def commitBytes (s : State) (m : ModelMap) (st : LedStep) : Bytes :=
  leBytes 4 (layersWritten s m st) ++ leBytes 4 st.skips ++ leBytes 4 st.fallbacks ++ leBytes 4 st.discards

/-- A message carries rows for a mirror, or feeds for a twin, of a model. -/
def FabMsg.mirrors (x : FabMsg) (m : ModelMap) : Bool :=
  (x.kind == 11 || x.kind == 14) && x.job == m.job && fieldAt x.data 0 2 == m.num

/-- Rows for a mirror, or feeds for a twin, of the model still wait for a route, and are not acknowledged (R231, R408, R424). -/
def awaitsPeer (s : State) (m : ModelMap) : Bool := s.chip.fabric.waits.any fun w => w.msg.mirrors m

/-- Every layer of a step is written, every mirror has landed here, and what was sent to the other holders is acknowledged (R231). -/
def stepWritten (s : State) (m : ModelMap) (st : LedStep) : Bool :=
  ((stepPairs s m).all fun p => st.pass2.contains p) && ((mirrorShards m).all fun i => st.mirrors.contains i) && !awaitsPeer s m

/-- A step whose UPD_COMMIT has arrived completes once it is written; the maxima of its records go to the job's other parts, as
theirs come here (R231, R238). -/
def tryCommit (slot : Nat) (s : State) : State :=
  match s.model slot with
  | none => s
  | some m => match m.led.step with
    | none => s
    | some st =>
      if m.led.ustate != .open || !st.commit || st.denied || !stepWritten s m.map st then s
      else
        let recs := st.mon.map fun x => monBytes m st.step x.1 x.2
        let amax := (monAmax st.mon).foldl (fun a x => tset a x.1 (wordMax (tgetD a x.1 0) x.2)) st.amax
        let close := fun (m : Model) =>
          let mon := (m.led.mon ++ [(st.step, recs)])
          { m with w := { m.w with staged := true },
                   led := { m.led with ustate := .idle, step := none, nextStep := m.led.nextStep + 1,
                                       records := amax.filter (fun x => x.2 != 0), mon := mon.drop (mon.length - 4) } }
        let s := sendWides m 0xFFFF ((amax.filter fun x => x.2 != 0).map recordWide) [] (countOuts m.map.acct (monOuts st.mon) s)
        finishWait (.commit slot) .ok (commitBytes s m.map st) (s.onModel slot close)

/-- A transfer of a model's step to a mirror or twin has failed after its retries: an UPD_COMMIT that waits completes with DATA_ERROR, and
the step is abandoned (R231, R232, R408). (Log entry 186, DESIGN CHOICE.) -/
def failStep (slot : Nat) (s : State) : State := match s.model slot with
  | none => s
  | some m => if m.led.step.isNone then s
    else finishWait (.commit slot) .dataError [] (s.onModel slot fun m => { m with led := m.led.abandon })

/-- The layers that the drain of a checkpoint has not read. -/
def layersLeft (m : Model) (c : CopyJob) : List Nat :=
  ((m.map.ownedShards.map fun x => m.map.layerOf x.1).dedup).filter fun l => !c.read.contains l

/-- A drain reads layers: high halves from the active buffer, low halves and state (R442). -/
def readLayers (slot : Nat) (m : Model) (ls : List Nat) (s : State) : Bool × State :=
  s.readKeys .drain m.map.acct (ls.flatMap fun l => (List.range 4).flatMap fun d => layerKeys s slot m d l)

/-- The drain of a model's checkpoint still has to read a layer; it reads the highest that is left meanwhile, and does not get past
one that it cannot read (R246, R442). (Log entry 100, DESIGN CHOICE.) -/
def drainReads (slot layer : Nat) (m : Model) (s : State) : Bool × State :=
  match s.runningMove slot with
  | some (p, o) => match o.copy with
    | some c =>
      let left := layersLeft m c
      if o.kind != .drain || !left.contains layer then (false, s)
      else
        let (read, s) := readLayers slot m [maxNat left] s
        (true, if read then onRunning p (fun o => { o with copy := some { c with read := c.read ++ [maxNat left] } }) s else s)
    | none => (false, s)
  | none => (false, s)

/-- The combined values that pass 2 of a layer needs are here (R239, R240). -/
def passTwoOpen (s : State) (m : Model) (st : LedStep) (ld layer : Nat) : Bool :=
  !layerTwoPass s m.map layer || (st.pass1.contains (ld, layer) && st.combLayers.contains layer &&
    (st.combStep || (layerGroups s m.map layer).all fun g => !((progOf s g.2.slot).any LdgIns.isStep)))

/-- LAYER_PASS2: pass 2 of a layer runs on a Ledger die once its combined values are present, its buffer is not read and no drain has
still to read the layer, and writes back every element; a FROZEN group is copied (R230, R233, R239 to R242, R246). -/
def execLayerPass2 (slot : BitVec 6) (ld : BitVec 2) (layer : BitVec 16) (s : State) : Result State :=
  let (k, d, l) := (slot.toNat, ld.toNat, layer.toNat)
  match s.model k with
  | none => .next s
  | some m => match m.led.step with
    | none => .next s
    | some st =>
      if !passOpen s m st d l || st.pass2.contains (d, l) || !passTwoOpen s m st d l || bufferRead s m then .next s
      else
        let shards := layerShards s m.map d l
        let (drained, s) := drainReads k l m s
        let (read, s) := if drained then (false, s) else s.readKeys .ledger m.map.acct (layerKeys s k m d l)
        if !read then .next s
        else
          let s := onStep k (fun st => { st with begun2 := true }) (s.chargeKeys .ledger m.map.acct (layerOut s k m d l))
          let s := shards.foldl (fun s x => match shardGroup s m.map x.1 with
            | some g => if g.frozen then copyFrozen k m x s
              else (shardBlocks k m.map x g).foldl (fun s b => passTwoBlock d m st b s) s
            | none => s) s
          let s := onStep k (fun st => { st with pass2 := st.pass2 ++ [(d, l)] }) s
          .next (tryCommit k ((shards.filter fun x => x.1.role == 0).foldl (fun s x => sendMirrors k m x s) s))

/-! ## Mirrors and twins (R234) -/

/-- A mirror's rows land in the buffer that the update writes. -/
def landMirror (slot : Nat) (m : Model) (x : Shard × Nat) (b : Bytes) (s : State) : State :=
  let n := 2 * x.1.cols
  let s := s.chargeKeys .fabric m.map.acct [(trainKey slot (!m.w.activeB) x.1.die (trainOff m.map x.2), trainSize x.1)]
  (List.range x.1.rows).foldl (fun s r => putHigh slot m.map (!m.w.activeB) x.2 r 0 ((b.drop (r * n)).take n) s) s

/-- A restore completes once it has written its copy, its mirrors elsewhere have their rows, and the mirrors of other parts' owners have
landed here; the model changes as it completes (R448). -/
def tryRestoreEnd (p slot : Nat) (s : State) : State :=
  match s.model slot, (s.movesOf p).running with
  | some m, some o =>
    let near := fun (i : Nat) => match m.map.shards[i]? with
      | some x => m.map.shards.any fun y => y.role == 0 && m.map.mine y && y.sameRect x
      | none => true
    let landed := (mirrorShards m.map).all fun i => near i || o.landed.contains i
    match o.copy with
    | none => s
    | some c =>
      if o.kind == .restore && o.stage == .barrier && landed && !awaitsPeer s m.map then
        finishWait (.move o.id) .ok (leBytes 4 (fieldAt c.record 0xC 4)) (dropRunning p (s.onModel slot (Model.restored c.record)))
      else s
  | _, _ => s

/-- Commits and restores that waited for transfers are tried again (R231, R408, R448). -/
def retryCommits (s : State) : State :=
  let s := s.models.foldl (fun s x => tryCommit x.1 s) s
  (List.range 8).foldl (fun s p => match (s.movesOf p).running with
    | some o => tryRestoreEnd p o.slot s
    | none => s) s

/-- The rows of the owner on this part, once it has written the layer. -/
def localRows (s : State) (slot : Nat) (m : Model) (st : LedStep) (x : Shard × Nat) : Option Bytes :=
  match m.map.shards.zipIdx.find? fun y => y.1.role == 0 && m.map.mine y.1 && y.1.sameRect x.1 with
  | some y => if st.pass2.contains (ledgerDie s m.map y.1, m.map.layerOf y.1) then some (newRows s slot m y) else none
  | none => none

/-- Units that a twin's owner forwarded. -/
def unitsOfBytes (b : Bytes) : List StagedUnit := (chunks 133 b).map fun u => ⟨fieldAt u 0 4, wordsOf (u.drop 5), fieldAt u 4 1⟩

/-- A twin stages the units that its owner forwarded, once its Ledger die is in service (R225, R228, R502). -/
def stageTwin (slot : Nat) (m : Model) (x : Shard × Nat) (b : Bytes) (s : State) : State :=
  let us := (unitsOfBytes b).filter fun u => decide (u.unit < x.1.units) && u.words.length == 32
  if s.unitServes 4 (ledgerDie s m.map x.1) then stageUnits slot m x.2 us s else s

/-- A mirror may take rows: it is one of this part, nothing reads its inactive buffer, its memory is in service, and the rows fit (R190,
R234, R502). -/
def mirrorOpen (s : State) (slot : Nat) (m : Model) (x : Shard × Nat) (b : Bytes) : Bool :=
  m.map.mine x.1 && x.1.role == 1 && !(m.map.tensor x.1.tensor).frozen && !bufferRead s m && b.length == 2 * x.1.elems &&
  !s.keysFail [(trainKey slot (!m.w.activeB) x.1.die (trainOff m.map x.2), trainSize x.1)]

/-- What a joined part's owner has sent for a shard, or this part's own owner has written, lands. During a restore, a mirror takes the
restored rows. -/
def takeMirror (slot : Nat) (m : Model) (x : Shard × Nat) (data : Option Bytes) (s : State) : State :=
  match m.led.step with
  | some st =>
    if m.map.mine x.1 && x.1.role == 2 then
      match data with
      | some b => stageTwin slot m x b s
      | none => s
    else
      let rows := match data with
        | some b => some b
        | none => localRows s slot m st x
      match rows with
      | none => s
      | some b =>
        if !mirrorOpen s slot m x b || st.mirrors.contains x.2 then s
        else tryCommit slot (onStep slot (fun st => { st with mirrors := st.mirrors ++ [x.2] }) (landMirror slot m x b s))
  | none =>
    match s.runningMove slot, data with
    | some (p, o), some b =>
      if !mirrorOpen s slot m x b || o.kind != .restore then s
      else
        let s := onRunning p (fun o => { o with landed := (o.landed ++ [x.2]).dedup }) (landMirror slot m x b s)
        tryRestoreEnd p slot s
    | _, _ => s

/-- MIRROR_TRANSFER: an owner's new high halves land in a mirror's inactive buffer, once nothing reads it; a twin stages the units that
its owner forwarded (R190, R225, R234). What a part that is not joined sends is discarded and counted (R411, R424). -/
def execMirrorTransfer (slot : BitVec 6) (shard : Nat) (data : Option (BitVec 13 × Bytes)) (s : State) : Result State :=
  let k := slot.toNat
  match s.model k with
  | none => .next s
  | some m => match m.map.shards[shard]?, data with
    | none, _ => .next s
    | some x, none => .next (takeMirror k m (x, shard) none s)
    | some x, some (part, b) =>
      if (s.joinedBy m.map.job part).isNone then .next (discardMsg s) else .next (takeMirror k m (x, shard) (some b) s)

/-! ## The end of FEED_LIMIT (R231, R232) -/

/-- FEED_LIMIT_EXPIRY: the open step is abandoned, CLEAN or TORN, and an UPD_COMMIT that waits for feeds completes with TIMEOUT; once
every layer is ready and the commit waits for writing alone, and on a step marked DENY, the limit has no effect (R231, R232).
(Log entry 104, DEDUCED.) -/
def execFeedLimitExpiry (slot : BitVec 6) (s : State) : Result State :=
  let k := slot.toNat
  match s.model k with
  | none => .next s
  | some m => match m.led.step with
    | none => .next s
    | some st =>
      if st.denied || (st.commit && allReady s m.map st) then .next s
      else .next (finishWait (.commit k) .timeout [] (s.onModel k fun m => { m with led := m.led.abandon }))

end Sys2Proof.Machine
end

