-- ==== Sys2Proof/Machine/Ports.lean ====
section
/-!
DEFINITION. Ports and their darkness, host links, routes and the HEALTH frame that runs ahead of a darkness (12 R374 to R394, 13
R404, R408).
-/
namespace Sys2Proof.Machine

/-! ## Beacon frames (R393, R394) -/

/-- One bit step of the CRC-32 of IEEE 802.3, least significant bit first. -/
def crcStep (x : Word) : Word := if x.getLsbD 0 then (x >>> 1) ^^^ 0xEDB88320 else x >>> 1
/-- CRC-32 of bytes. -/
def crc32 (bs : Bytes) : Word :=
  ~~~(bs.foldl (fun (x : Word) b => (List.range 8).foldl (fun y _ => crcStep y) (x ^^^ b.setWidth 32)) 0xFFFFFFFF)

/-- A frame with its CRC. -/
def sealFrame (bs : Bytes) : Bytes :=
  let body := padTo 60 bs
  body ++ leBytes 4 (crc32 body).toNat

/-- The code of MSTATE. -/
def MState.code : MState → Nat
  | .run => 0 | .resetting => 1 | .maintenance => 2 | .fault => 3

/-- The ports of a port group: 0 to 7 are FG0 to FG7, 8 and 9 HG0 and HG1 (R373, R374). -/
def groupPorts (g : Nat) : List Nat :=
  if g < 8 then (List.range 8).map fun i => 8 * g + i else (List.range 2).map fun i => 64 + 2 * (g - 8) + i

/-- LIT: a group is shown dark where a planned darkness holds one of its ports (R377, R394).
(Log entry 73, DEDUCED.) -/
def State.litBits (s : State) : Nat :=
  ((List.range 10).filter fun g => (groupPorts g).all fun p => (s.port p).causes.all fun c => c == 6).map (2 ^ ·)
  |>.sum

/-- A protection override is in force. -/
def Override.any (o : Override) : Bool := o.bits != 0

/-- The power state that HEALTH frames show: during entry, the target (R394). -/
def Power.shown (p : Power) : Nat := match p.target with
  | some t => if p.exiting then p.pstate else t
  | none => p.pstate

/-- A frame leaves: its SEQ is recorded, and the records of the last 100 ms are kept (R403). -/
def sendFrame (type dst : Nat) (payload : Bytes) (s : State) : State :=
  match s.chip.fabric.addr with
  | none => s
  | some a =>
    let b := s.chip.beacon
    let fr := sealFrame (leBytes 1 type ++ [0] ++ leBytes 2 0 ++ leBytes 2 a ++ leBytes 2 dst ++ leBytes 4 b.seq.toNat ++ payload)
    let keep := b.sent.filter fun x => decide (s.mtime.toNat ≤ x.2.toNat + 100000000)
    (s.onBeacon fun b => { b with seq := b.seq + 1, sent := keep ++ [(b.seq, s.mtime)] }).emit (.beacon fr)

/-- Send a HEALTH frame with a module state (R394). -/
def sendHealthAs (m : MState) (s : State) : State :=
  let p := s.chip.power
  sendFrame 2 0x8000 (leBytes 1 p.shown ++ leBytes 1 m.code ++ leBytes 1 (s.ft.risk.getD 5 0) ++ leBytes 1 p.override.bits ++
    leBytes 2 s.litBits ++ leBytes 2 s.chip.beacon.expect ++ leBytes 8 s.mtime.toNat) s
/-- Send a HEALTH frame (R394). -/
def sendHealth (s : State) : State := sendHealthAs s.chip.beacon.mstate s

/-- HEALTH_SEND: the frame of every 10 ms (R394); what barriers still wait for goes out again with it (R425, R426, log entry 185, DESIGN
CHOICE); with no input present nothing is sent. -/
def execHealthSend (s : State) : Result State := .next (if s.chip.power.inputPresent then repeatBarriers (sendHealth s) else s)

/-! ## Routes (R404, R408) -/

/-- After a change of routes: what waited for a route leaves, and commits that waited for it are tried again (R231, R408). -/
def routesChanged (s : State) : State := retryCommits (flushWaits s)

/-- The places and ports of an entry that lie on a port. -/
def Route.places (r : Route) (p : Nat) : List (Nat × Nat) := (r.slots.zipIdx.filter fun x => x.1 == p).map fun x => (x.2, p)

/-- A place of an entry names another port. -/
def Route.put (r : Route) (i p : Nat) : Route := { r with slots := lmod r.slots i fun _ => p }

/-- The segments sent over a port and not yet acknowledged go again, and each counts as one flit replay of the port; how many they are
is the fabric's timing, and free (R408, log entry 169, DESIGN CHOICE). -/
def resendSegments (p : Nat) (s : State) : State :=
  if s.chip.fabric.slots.isEmpty || (s.port p).peer.isNone then s
  else
    let (v, s) := s.free
    s.onPort p fun x => { x with replays := x.replays + (v.setWidth 16).setWidth 64 }

/-- A port leaves every candidate list (R408). -/
def unroute (p : Nat) (s : State) : State :=
  let f := s.chip.fabric
  let hit := f.routes.filter fun r => r.2.ports.contains p
  let gone := fun (r : Route) => { r with slots := r.slots.map fun q => if q == p then 0xFF else q }
  if hit.isEmpty then s
  else
    let s := s.onFabric fun f =>
      { f with routes := f.routes.map fun r => (r.1, gone r.2),
               removed := hit.foldl (fun t r => tset t r.1 (tgetD t r.1 [] ++ r.2.places p)) f.removed }
    resendSegments p s

/-- A port returns to its places in an entry, or to the first free one (R408). -/
def Route.back (r : Route) (x : Nat × Nat) : Route :=
  if r.slots.getD x.1 0 == 0xFF then r.put x.1 x.2
  else match r.slots.findIdx? fun q => q == 0xFF with
    | some i => r.put i x.2
    | .none => r

/-- A relit port returns to the lists from which it was removed (R408). -/
def reroute (p : Nat) (s : State) : State :=
  let mine := fun (t : Tbl (List (Nat × Nat))) (a : Nat) => (tgetD t a []).filter fun x => x.2 == p
  let t := s.chip.fabric.removed
  let s := s.onFabric fun f =>
    { f with routes := f.routes.map (fun r => (r.1, (mine t r.1).foldl Route.back r.2)),
             removed := (f.removed.map fun r => (r.1, r.2.filter fun x => x.2 != p)).filter fun r => !r.2.isEmpty }
  routesChanged s

/-- The entry of a directly attached address lists the ports whose PEER it is, but for those that are down (R404, R408); an address
that no port is attached to any more keeps no direct entry. (Log entry 83, DEDUCED.) -/
def directRoute (a : Nat) (s : State) : State :=
  let f := s.chip.fabric
  let ps := ((List.range 64).filter fun p => (s.port p).peer == some a).take 4
  let down := ((tgetD f.removed a []).map (·.2)).filter ps.contains
  let away := (ps.zipIdx.filter fun x => down.contains x.1).map fun x => (x.2, x.1)
  let now := (ps ++ List.replicate 4 0xFF).take 4
  let r : Route := ⟨now.map fun p => if down.contains p then 0xFF else p, 1⟩
  if ps.isEmpty then
    if (tgetD f.routes a Route.none).hops != 1 then s
    else routesChanged (s.onFabric fun f => { f with routes := terase f.routes a, removed := terase f.removed a })
  else routesChanged (s.onFabric fun f =>
    { f with routes := tset f.routes a r, removed := if away.isEmpty then terase f.removed a else tset f.removed a away })

/-! ## Darkness (R376, R377) -/

/-- A host link leaves UP: DOWN_SEEN is set for every function of the port, and the outage begins (R383, R385).
(Log entry 91, DEDUCED.) -/
def hostDown (n : Nat) (s : State) : State :=
  if !(s.link n).up then s
  else
    let s := s.onLink n fun l => { l with up := false, rate := 0, width := 0, flit := false, sris := false, outage := some (s.mtime, false) }
    let fns := (List.range 256).map (256 * n + ·)
    { s with mail := { s.mail with downSeen := s.mail.downSeen ++ fns.filter fun f => !s.mail.downSeen.contains f } }

/-- A cause of darkness comes into force for a port, which goes dark if it was lit (R375, R376). -/
def darken (p cause : Nat) (s : State) : State :=
  let x := s.port p
  if x.causes.contains cause then s
  else if !x.causes.isEmpty then s.onPort p fun x => { x with causes := x.causes ++ [cause] }
  else
    let s := s.onPort p fun x =>
      { x with state := .dark, causes := [cause], lamA := 0, lamB := 0, override := false, offA := 0, offB := 0, darkNs := s.mtime }
    if p < 64 then unroute p s else hostDown (p - 64) s

/-- The loop holds the launch power inside the bounds, but under a protection (R390). -/
def Port.held (x : Port) (v : BitVec 16) : BitVec 16 :=
  if x.override then x.tx
  else if decide (v.toInt < x.lo.toInt) then x.lo else if decide (x.hi.toInt < v.toInt) then x.hi else v

/-- Wavelengths are lit, but for those that a protection has turned off, at a power inside the bounds (R375, R388, R390). -/
def Port.shine (x : Port) (a b : BitVec 8) : Port :=
  { x with lamA := a &&& ~~~x.offA, lamB := b &&& ~~~x.offB, tx := x.held x.tx }

/-- The wavelengths that a lit port trains on: all of them (R388). -/
def Port.lit (p : Nat) (x : Port) : Port := x.shine 0xFF (if p < 64 then 0 else 0xFF)

/-- A lit port is in a state, which SAFETY stands for while a protection holds the port (R390). -/
def Port.goes (x : Port) (st : PortState) : Port := { x with state := if x.override then .safety else st, before := st }

/-- A cause of darkness ends; with the last one the port is lit again and trains (R376). -/
def relight (p cause : Nat) (s : State) : State :=
  s.onPort p fun x =>
    let left := x.causes.filter (· != cause)
    if x.causes.contains cause && left.isEmpty then Port.lit p { x with state := .seeking, before := .seeking, causes := [] }
    else { x with causes := left }

/-- Ports go dark for a cause after the HEALTH frame that marks their groups dark (R377). -/
def darkenAll (ps : List Nat) (cause : Nat) (s : State) : State := sendHealth (ps.foldl (fun s p => darken p cause s) s)

/-- A cause of darkness ends for every port. -/
def relightAll (cause : Nat) (s : State) : State := (List.range 68).foldl (fun s p => relight p cause s) s

/-! ## Port commands (R391) -/

/-- A fabric port's die belongs to a partition whose right the caller may use (R391). (Log entry 74, DEDUCED.)
(Log entry 79, DEDUCED.) -/
def mayPort (c : Cmd) (p : Nat) (s : State) : Bool :=
  if p < 64 then match s.dieOwner (p / 8) with
    | some n => s.hasPartRight (cmdA c) n
    | none => s.hasModRight (cmdA c)
  else s.hasModRight (cmdA c)

/-- The caller holds the module's right or a partition's (R391). -/
def mayBeacon (c : Cmd) (s : State) : Bool :=
  s.hasModRight (cmdA c) || s.ten.partRights.any fun r => r == some (cmdA c)

/-- The code of a port's state. -/
def PortState.code : PortState → Nat
  | .dark => 0 | .seeking => 1 | .up => 2 | .degraded => 3 | .safety => 4

/-- The state of a port: the Beacon transceiver is lit while the input is present (R392). -/
def portState (s : State) (p : Nat) : PortState :=
  if p == 68 then (if s.chip.power.inputPresent then .up else .dark) else (s.port p).state

/-- The record of a port (R391). -/
def portRecord (s : State) (p : Nat) : Bytes :=
  let x := s.port p
  let wake := decide (64 ≤ p) && decide (p < 68) && s.chip.power.bounds.wake.getLsbD (p - 64)
  padTo 64 (leBytes 1 p ++ leBytes 1 (portState s p).code ++ leBytes 1 x.lamA.toNat ++ leBytes 1 x.lamB.toNat ++
    leBytes 2 x.tx.toNat ++ leBytes 2 x.rx.toNat ++ leBytes 2 x.lo.toNat ++ leBytes 2 x.hi.toNat ++
    leBytes 1 (if p == 68 then 0 else x.cause) ++ leBytes 1 ((if x.override then 1 else 0) + (if wake then 2 else 0)) ++
    leBytes 2 (if p < 64 then x.peer.getD 0 else 0) ++ leBytes 1 (if p < 64 then x.peerPort else 0xFF) ++ [0, 0, 0] ++
    leBytes 4 x.retrains.toNat ++ leBytes 8 x.replays.toNat ++ leBytes 8 x.fec.toNat ++ leBytes 8 x.darkNs.toNat)

/-- PORT_QUERY (R391). -/
def execPortQuery (c : Cmd) (s : State) : Result State :=
  runCmd 0xB01 c s fun s =>
    let p := cmdU c 0 1
    let a := cmdU c 8 8
    let may := if p < 64 then mayPort c p s else if p < 68 then portOf (cmdA c) == p - 64 else mayBeacon c s
    if !cmdTail c 16 || !cmdZ c 1 7 || decide (69 ≤ p) || !addrOk a then fail .badArg s
    else if !may then fail .denied s
    else writeFor c a 64 s fun put => fail .ok (put (portRecord s p))

/-- A launch power within R390. -/
def boundOk (v : BitVec 16) : Bool := decide (-600 ≤ v.toInt) && decide (v.toInt ≤ 300)

/-- PORT_BOUNDS_SET: the loop holds the launch power inside the bounds (R390, R391). -/
def execPortBoundsSet (c : Cmd) (s : State) : Result State :=
  runCmd 0xB02 c s fun s =>
    let p := cmdU c 0 1
    let lo := BitVec.ofNat 16 (cmdU c 2 2)
    let hi := BitVec.ofNat 16 (cmdU c 4 2)
    if !cmdTail c 8 || !cmdZ c 1 1 || !cmdZ c 6 2 || decide (68 ≤ p) || !boundOk lo || !boundOk hi ||
        decide (hi.toInt < lo.toInt) then fail .badArg s
    else if !mayPort c p s then fail .denied s
    else
      let keep := fun (x : Port) => if x.lamA == 0 && x.lamB == 0 then x else { x with tx := x.held x.tx }
      fail .ok (s.onPort p fun x => keep { x with lo := lo, hi := hi })

/-- The partition of a port's die moves (R39, R391). -/
def portMoving (s : State) (p : Nat) : Bool := match s.dieOwner (p / 8) with
  | some n => match s.moves[n]? with
    | some m => m.running.isSome
    | none => false
  | none => false

/-- A HEALTH frame follows where LIT has changed (R394). -/
def tellLit (old s : State) : State := if s.litBits == old.litBits then s else sendHealth s

/-- PORT_ENABLE (R376, R377, R391, R394). (Log entry 75, DESIGN CHOICE.) -/
def execPortEnable (c : Cmd) (s : State) : Result State :=
  runCmd 0xB03 c s fun s =>
    let p := cmdU c 0 1
    let on := cmdU c 1 1
    let causes := (s.port p).causes
    if !cmdTail c 8 || !cmdZ c 2 6 || decide (64 ≤ p) || decide (2 ≤ on) then fail .badArg s
    else if !mayPort c p s then fail .denied s
    else if on == 0 && portMoving s p then fail .refusedState s
    else if on == 0 then fail .ok (if causes.isEmpty then darkenAll [p] 2 s else tellLit s (darken p 2 s))
    else fail .ok (if causes == [2] then sendHealth (relight p 2 s) else tellLit s (relight p 2 s))

/-! ## Port events (R387, R388, R390) -/

/-- A retrain counts toward the risk estimate for 60 s (R387, R429). -/
def noteRetrain (s : State) : State :=
  { s with ft := { s.ft with retrains :=
      (s.ft.retrains.filter fun t => decide (s.mtime.toNat < t.toNat + 60000000000)) ++ [s.mtime] } }


/-- A port's traffic may go again: what waited for a route over it leaves (R408). -/
def carriesAgain (p : Nat) (s : State) : State :=
  if p < 64 then routesChanged s else s

/-- A port trains again: the retrain is counted, and it seeks until it comes up or is down; the link of a host port leaves UP
and counts it too (R385, R387). -/
def retrain (p : Nat) (s : State) : State :=
  let s := noteRetrain (s.onPort p fun x =>
    let x := { x with retrains := x.retrains + 1, recent := [] }
    if x.cause == 0 then x.goes .seeking else x)
  if p < 64 then s
  else (hostDown (p - 64) s).onLink (p - 64) fun l => { l with retrains := if l.retrains == 0xFF then 0xFF else l.retrains + 1 }

/-- Start-up lights the ports before the module is mailbox-ready: what trains shows that they are lit (R376, R530). (Log entry 120,
DEDUCED.) -/
def lightUp (s : State) : State := if s.chip.power.resetting.isSome then tellLit s (relightAll 5 s) else s

/-- FLIT_CRC_FAIL: a replay; more than 16 within 1 ms retrain the port (R387). A dark port carries no flit. -/
def execFlitCrcFail (port : BitVec 6) (s : State) : Result State :=
  let p := port.toNat
  let recent := ((s.port p).recent.filter fun t => decide (s.mtime.toNat < t.toNat + 1000000)) ++ [s.mtime]
  let t := s.onPort p fun x => { x with replays := x.replays + 1, recent := recent }
  .next (if (s.port p).cause != 0 then s else if decide (16 < recent.length) then retrain p t else t)

/-- PORT_RETRAIN: a lit port has lost lock on a wavelength (R387). -/
def execPortRetrain (port : BitVec 6) (s : State) : Result State :=
  .next (if (s.port port.toNat).cause != 0 then s else retrain port.toNat s)

/-- PORT_TRAINED: the port comes up on all wavelengths or on a half, where both ends hold addresses, and seeks otherwise
(R388, R399); routes follow a change of PEER, and the port returns to its lists (R404, R408). -/
def execPortTrained (port : BitVec 6) (good : BitVec 8) (peer : Option (BitVec 13)) (peerPort : BitVec 6) (tx rx : BitVec 16)
    (s : State) : Result State :=
  let p := port.toNat
  let s := lightUp s
  if (s.port p).cause != 0 then .next s
  else
    let good := good &&& ~~~(s.port p).offA
    let lam : BitVec 8 := if good == 0xFF then 0xFF else if good &&& 0x0F == 0x0F then 0x0F
      else if good &&& 0xF0 == 0xF0 then 0xF0 else 0
    let both := peer.isSome && s.chip.fabric.addr.isSome
    let st : PortState := if lam == 0 || !both then .seeking else if lam == 0xFF then .up else .degraded
    let was := (s.port p).peer
    let now := peer.map (·.toNat)
    let s := s.onPort p fun x =>
      ({ x.shine (if st == .seeking then 0xFF else lam) 0 with
         tx := x.held tx, rx := rx, peer := now, peerPort := peerPort.toNat } : Port).goes st
    let s := if was == now then s else (was.toList ++ now.toList).foldl (fun s a => directRoute a s) s
    .next (if st == .seeking || !s.unitServes 6 p then s else reroute p s)

/-- PORT_DOWN: a port that has not come back in time is down, and its traffic moves (R387, R408). -/
def execPortDown (port : BitVec 6) (s : State) : Result State :=
  let p := port.toNat
  if (s.port p).cause != 0 then .next s
  else .next (unroute p (s.onPort p fun x => Port.lit p (x.goes .seeking)))

/-- SEEKING_RETRY: a port on which neither half trains tries all wavelengths again and stays SEEKING (R388). -/
def execSeekingRetry (port : BitVec 6) (s : State) : Result State :=
  .next (s.onPort port.toNat fun x => if x.cause == 0 && x.state == .seeking then Port.lit port.toNat x else x)

/-- Every ENABLED account hears of a protection override (R497, R525). -/
def protectNotice (cause phase : Nat) (s : State) : State :=
  postAll s.enabledAll 0xD .ok (leBytes 1 cause ++ leBytes 1 phase) s

/-- The loop turns a wavelength off; 8 and above are those of pair b. -/
def Port.cut (x : Port) (l : Nat) : Port :=
  if l < 8 then
    let m := (1 : BitVec 8) <<< l
    { x with lamA := x.lamA &&& ~~~m, offA := x.offA ||| m }
  else
    let m := (1 : BitVec 8) <<< (l - 8)
    { x with lamB := x.lamB &&& ~~~m, offB := x.offB ||| m }

/-- The launch power of a wavelength that the loop has lowered for protection: below LO, by how much is open (R390). -/
def Port.lowered (x : Port) (v : DWord) : BitVec 16 := x.lo - 1 - (v.setWidth 8).setWidth 16

/-- The loop lowers a wavelength below LO or turns it off, and the port enters SAFETY: the override begins where it is the first
(R390, R521, R525). -/
def laserGuard (p l : Nat) (off : Bool) (s : State) : State :=
  let (v, s) := s.free
  let s := s.onPort p fun x =>
    let x := if x.override then x else { x with before := x.state }
    let x := if off then x.cut l else { x with tx := x.lowered v }
    { x with state := .safety, override := true }
  let held := s.chip.power.override.lasers
  if held.contains p then s
  else
    let begin_ := fun (w : Power) => if w.ovrSince.isSome then w else { w with ovrSince := some s.mtime }
    let s := s.onPower fun w => begin_ { w with override := { w.override with lasers := held ++ [p] } }
    sendHealth (protectNotice 4 0 s)

/-- LASER_PROTECT: the loop lowers a wavelength below its bound or turns it off, and the port enters SAFETY (R390, R525). -/
def execLaserProtect (port : BitVec 7) (lambda : BitVec 4) (off : Bool) (s : State) : Result State :=
  let p := port.toNat
  if decide (68 ≤ p) || (s.port p).cause != 0 then .next s else .next (laserGuard p lambda.toNat off s)

/-- LASER_FAULT: a wavelength that cannot be held inside the limit darkens its port until repair (R376, R390). -/
def execLaserFault (port : BitVec 7) (_lambda : BitVec 4) (s : State) : Result State :=
  let p := port.toNat
  if s.off || decide (68 ≤ p) then .next s
  else
    let s := darken p 6 s
    .next { s with ft := { s.ft with laserDark := some s.mtime } }

/-! ## Host links (R379, R383, R385) -/

/-- HOST_LINK_DOWN (R383, R385). -/
def execHostLinkDown (port : BitVec 2) (s : State) : Result State :=
  let n := port.toNat
  .next (hostDown n (s.onPort (64 + n) fun x =>
    if x.cause == 0 then Port.lit (64 + n) (x.goes .seeking) else { x with state := .dark }))

/-- The module's right goes to the first host port whose link is UP while no account holds it (R458). -/
def assignRight (s : State) : State :=
  if s.ten.modRight.isSome || !s.chip.power.mailboxReady then s
  else match (List.range 4).find? fun n => (s.link n).up with
    | some n => { s with ten := { s.ten with modRight := some (256 * n) } }
    | none => s

/-- The wavelengths of pair a and pair b that a width lights: ×4, ×8, ×16 (R380). -/
def hostLamps (width : Nat) : BitVec 8 × BitVec 8 :=
  if width == 1 then (0x0F, 0) else if width == 2 then (0xFF, 0) else (0xFF, 0xFF)

/-- HOST_LINK_UP: the link trained at a rate and width of R379, in Flit Mode at 64 and 128 GT/s and at no other rate (R383,
R385, R458). -/
def execHostLinkUp (port : BitVec 2) (rate : BitVec 3) (width : BitVec 2) (flit sris : Bool) (s : State) : Result State :=
  let n := port.toNat
  let r := rate.toNat
  let s := lightUp s
  if r == 0 || decide (4 < r) || width == 0 || flit != decide (3 ≤ r) || (s.port (64 + n)).cause != 0 then .next s
  else
    let s := s.onLink n fun l =>
      { l with up := true, rate := r, width := width.toNat, flit := flit, sris := sris, outage := none }
    let s := s.onPort (64 + n) fun x => (x.shine (hostLamps width.toNat).1 (hostLamps width.toNat).2).goes .up
    .next (assignRight s)

/-- HOST_LINK_TRAIN_FAIL: an attempt that does not reach 16 GT/s and ×4 counts as a retrain (R379). -/
def execHostLinkTrainFail (port : BitVec 2) (s : State) : Result State :=
  let n := port.toNat
  let s := lightUp s
  if (s.port (64 + n)).cause != 0 then .next s else
  let s := s.onLink n fun l => { l with retrains := if l.retrains == 0xFF then 0xFF else l.retrains + 1 }
  .next (noteRetrain (s.onPort (64 + n) fun x => { x with retrains := x.retrains + 1 }))

/-- HOST_OUTAGE_TIMEOUT: 50 ms after the link left UP, every access that waits or arrives fails until it returns (R383). -/
def execHostOutageTimeout (port : BitVec 2) (s : State) : Result State :=
  .next (s.onLink port.toNat fun l => match l.outage with
    | some (t, _) => { l with outage := some (t, true) }
    | none => l)

end Sys2Proof.Machine
end

