-- ==== Sys2Proof/Machine/Fabric.lean ====
section
/-!
DEFINITION. Fabric addresses, enumeration, routes, jobs, groups and drops: the commands of 0x0B10 to 0x0B18 and the messages
that reach a job (13 R398 to R414, 14 R437, R450).
-/
namespace Sys2Proof.Machine

/-! ## Enumeration (R400, R401) -/

/-- The ENUM payload. -/
def enumPayload (value : Nat) (full : Bool) (round : Word) (new : Nat) : Bytes :=
  leBytes 2 value ++ leBytes 2 (if full then 1 else 0) ++ leBytes 4 round.toNat ++ leBytes 2 new

/-- FAB_ORIGIN: an enumeration round starts (R400). An origin that takes address 0 counts in NEW.
(Log entry 77, DEDUCED.) -/
def execFabOrigin (c : Cmd) (s : State) : Result State :=
  runCmd 0xB10 c s fun s =>
    if !cmdTail c 0 then fail .badArg s
    else if !s.hasModRight (cmdA c) then fail .denied s
    else if (s.chip.fabric.addr.getD 0) != 0 then fail .refusedState s
    else
      let new := if s.chip.fabric.addr.isNone then 1 else 0
      let s := s.onFabric fun f => { f with addr := some 0, round := f.round + 1, enumSent := some s.mtime }
      .wait .enum (sendFrame 1 0x8000 (enumPayload 0 false s.chip.fabric.round new) s)

/-- ENUM_TIMEOUT: the frame has not returned in 100 ms; addresses taken stand (R400). -/
def execEnumTimeout (s : State) : Result State :=
  if s.chip.fabric.enumSent.isNone then .next s
  else .next (finishWait .enum .timeout [] (s.onFabric fun f => { f with enumSent := none }))

/-- FAB_ADDR_QUERY (R409). -/
def execFabAddrQuery (c : Cmd) (s : State) : Result State :=
  runCmd 0xB11 c s fun s =>
    if !cmdTail c 0 then fail .badArg s
    else .done .ok (leBytes 2 (addrWord s.chip.fabric.addr) ++ [0, 0] ++ leBytes 4 s.chip.fabric.lastRound.toNat) s

/-! ## Routes (R404, R409) -/

/-- A route entry of the table as it stands, or none for a reserved value. -/
def routeOf (b : Bytes) : Option Route :=
  let ps := (List.range 4).map fun i => fieldAt b i 1
  let named := ps.filter (· != 0xFF)
  let h := fieldAt b 4 1
  if (named.all fun p => decide (p < 64)) && fieldAt b 5 3 == 0 && (if named.isEmpty then h == 0 else decide (1 ≤ h) && decide (h ≤ 8)) then
    some ⟨ps, h⟩
  else none

/-- The bytes of a route entry; HOPS is 0 where no port is named. -/
def Route.bytes (r : Route) : Bytes :=
  ((List.range 4).flatMap fun i => leBytes 1 (r.slots.getD i 0xFF)) ++ leBytes 1 (if r.ports.isEmpty then 0 else r.hops) ++ [0, 0, 0]

/-- A range of fabric addresses that a command names. -/
def addrRange (c : Cmd) : Bool := decide (1 ≤ cmdU c 2 2) && decide (cmdU c 0 2 + cmdU c 2 2 ≤ 8192)

/-- FAB_ROUTE_SET: entries stand as they are given, and what waited for them leaves (R404, R406, R408, R409). -/
def execFabRouteSet (c : Cmd) (s : State) : Result State :=
  runCmd 0xB12 c s fun s =>
    let (first, n, a) := (cmdU c 0 2, cmdU c 2 2, cmdU c 8 8)
    if !cmdTail c 16 || !cmdZ c 4 4 || !addrRange c || !addrOk a then fail .badArg s
    else if !s.hasModRight (cmdA c) then fail .denied s
    else readFor c a (8 * n) s fun t =>
      let rs := (chunks 8 t).map routeOf
      if rs.any Option.isNone then fail .badArg s
      else
        let put := fun (f : Fabric) (x : Option Route × Nat) =>
          let d := first + x.2
          { f with routes := tset f.routes d (x.1.getD Route.none), removed := terase f.removed d }
        fail .ok (routesChanged (s.onFabric fun f => rs.zipIdx.foldl put f))

/-- FAB_ROUTE_QUERY (R404, R409). -/
def execFabRouteQuery (c : Cmd) (s : State) : Result State :=
  runCmd 0xB13 c s fun s =>
    let (first, n, a) := (cmdU c 0 2, cmdU c 2 2, cmdU c 8 8)
    if !cmdTail c 16 || !cmdZ c 4 4 || !addrRange c || !addrOk a then fail .badArg s
    else writeFor c a (8 * n) s fun put =>
      let rs := (List.range n).flatMap fun i => (tgetD s.chip.fabric.routes (first + i) Route.none).bytes
      .done .ok (leBytes 2 n) (put rs)

/-! ## Jobs (R410) -/

/-- The parts whose joins have arrived with an equal digest and an equal part table. -/
def joinedParts (f : Fabric) (job : Word) (digest : DWord) (table : List Nat) : List Nat :=
  ((f.joins.filter fun j => j.1 == job && j.2.2.1 == digest && j.2.2.2 == table).map (·.2.1)).dedup

/-- FAB_JOB_JOIN (R410). -/
def execFabJobJoin (c : Cmd) (s : State) : Result State :=
  runCmd 0xB14 c s fun s =>
    let acct := cmdA c
    let job := BitVec.ofNat 32 (cmdU c 0 4)
    let (part, n, a) := (cmdU c 4 2, cmdU c 6 2, cmdU c 8 8)
    let jkey := BitVec.ofNat 64 (cmdU c 16 8)
    let f := s.chip.fabric
    if !cmdTail c 24 || job == 0 || n == 0 || decide (8192 < n) || !addrOk a || jkey == 0 || decide (n ≤ part) then fail .badArg s
    else readFor c a (4 * n) s fun t =>
      let table := (chunks 4 t).map leNat
      let slots := s.jobsOf acct
      if table.any fun x => decide (8192 ≤ x) then fail .badArg s
      else if f.addr.isNone then fail .refusedState s
      else if f.addr != some (table.getD part 0) then fail .badArg s
      else if slots.any fun x => x.2.job == job then fail .busy s
      else match (List.range 16).find? fun i => (tget f.slots (acct * 16 + i)).isNone with
        | none => fail .noResource s
        | some i =>
          if f.slots.any fun x => x.2.job == job then fail .busy s else
          let digest := Config.jkeyDigest jkey
          let joined := part :: (joinedParts f job digest table).filter fun p => p != part
          let js : JobSlot := ⟨job, part, table, jkey, joined, [], []⟩
          let s := s.onFabric fun f =>
            { f with slots := tset f.slots (acct * 16 + i) js, barriers := f.barriers.filter fun b => b.job != job }
          let msg := leBytes 2 part ++ leBytes 8 digest.toNat ++ table.flatMap (leBytes 4)
          .done .ok (leBytes 1 i) (sendParts js 8 msg s)

/-- JOIN_MESSAGE: the join of a part has arrived; one for a job that this part holds wakes the module (R410, R515). -/
def execJoinMessage (job : Word) (part : BitVec 13) (digest : DWord) (table : List (BitVec 13)) (s : State) : Result State :=
  let t := table.map (·.toNat)
  let p := part.toNat
  let join := fun (x : Nat × JobSlot) =>
    if x.2.job == job && Config.jkeyDigest x.2.jkey == digest && x.2.table == t && !x.2.joined.contains p then
      (x.1, { x.2 with joined := x.2.joined ++ [p] })
    else x
  let u := if s.chip.fabric.slots.any fun x => x.2.job == job then wakeUp s else s
  .next (s.whenOn (u.onFabric fun f =>
    { f with joins := (f.joins.filter fun j => !(j.1 == job && j.2.1 == p)) ++ [(job, p, digest, t)], slots := f.slots.map join }))

/-- A command that names a job slot of its account. -/
def onJob (c : Cmd) (n : Nat) (ok : Bool) (s : State) (k : Nat → JobSlot → Res) : Res :=
  if !cmdTail c n || !ok then fail .badArg s
  else
    let key := cmdA c * 16 + cmdU c 0 1
    match (if decide (cmdU c 0 1 < 16) then tget s.chip.fabric.slots key else none) with
    | none => fail .notFound s
    | some js => k key js

/-- A resident package of the account uses a job slot. -/
def slotUsed (s : State) (acct jslot : Nat) : Bool :=
  s.pkgs.any fun p => p.id.acct.toNat == acct && p.resident &&
    p.descs.any fun d => d.kind == 5 && (collOf d.raw).jslot == jslot

/-- FAB_JOB_LEAVE (R410). -/
def execFabJobLeave (c : Cmd) (s : State) : Result State :=
  runCmd 0xB15 c s fun s => onJob c 1 true s fun key js =>
    if (s.models.any fun x => x.2.map.acct == cmdA c && x.2.map.job == js.job) || slotUsed s (cmdA c) (key % 16) then
      fail .refusedState s
    else fail .ok (s.onFabric fun f =>
      { f with slots := terase f.slots key, rounds := f.rounds.filter fun r => r.job != js.job })

/-- FAB_GROUP_SET (R413): contributions that stand from packages of the past go with the group's old list. -/
def execFabGroupSet (c : Cmd) (s : State) : Result State :=
  runCmd 0xB16 c s fun s =>
    let (g, n, a) := (cmdU c 1 1, cmdU c 2 2, cmdU c 8 8)
    onJob c 16 (cmdZ c 4 4 && decide (1 ≤ n) && decide (n ≤ 8192) && addrOk a) s fun key js =>
      readFor c a (4 * n) s fun t =>
        let es := chunks 4 t
        if es.any fun b => fieldAt b 3 1 != 0 || decide (js.table.length ≤ fieldAt b 0 2) || decide (8 ≤ fieldAt b 2 1) then
          fail .badArg s
        else
          let mine := fun (r : Round) => r.job == js.job && r.group == g
          if s.chip.fabric.rounds.any fun r => mine r && r.live s && r.result.isNone then fail .busy s
          else
            let ms := es.map fun b => (⟨fieldAt b 0 2, fieldAt b 2 1⟩ : Member)
            fail .ok (s.onFabric fun f =>
              { f with slots := tset f.slots key { js with groups := tset js.groups g ms },
                       rounds := f.rounds.filter fun r => !mine r || r.live s })

/-- FAB_DROP_SET (R414). -/
def execFabDropSet (c : Cmd) (s : State) : Result State :=
  runCmd 0xB17 c s fun s =>
    let u := cmdU c
    let (drop, die, sem, len, base) := (u 1 1, u 2 1, u 4 2, u 8 4, u 12 8)
    let acct := cmdA c
    onJob c 20 (cmdZ c 3 1 && cmdZ c 6 2 && decide (drop < 64) && decide (die < (s.acctDies acct).length) && addrOk base) s
      fun key js =>
        let put := fun (ds : Tbl Drop) => s.onFabric fun f => { f with slots := tset f.slots key { js with drops := ds } }
        if decide ((s.acct acct).quota.sems ≤ sem) then fail .badArg s
        else if len == 0 then fail .ok (put (terase js.drops drop))
        else
          let on := match locOf base with
            | some (.hbm d _) | some (.dieSram d _) => d == s.physDie acct die
            | _ => false
          if !on || !s.inGrants acct base (64 * len) then fail .denied s
          else fail .ok (put (tset js.drops drop ⟨die, sem, len, base⟩))

/-- FAB_JOB_QUERY: parts joined, and parts that no UP or DEGRADED port reaches (R410). -/
def execFabJobQuery (c : Cmd) (s : State) : Result State :=
  runCmd 0xB18 c s fun s => onJob c 1 true s fun _ js =>
    let lost := (List.range js.table.length).filter fun n => n != js.part && noRoute s (js.table.getD n 0)
    .done .ok (leBytes 2 js.joined.length ++ leBytes 2 lost.length) s

/-! ## Messages of a job (R411, R437, R450) -/

/-- A part of an account's job is lost (R450, R497). -/
def losePart (acct : Nat) (job : Word) (part cause : Nat) (s : State) : State :=
  let s := post acct 9 .ok (leBytes 4 job.toNat ++ leBytes 2 part ++ leBytes 1 cause) s
  { s with ft := { s.ft with partLost := (s.ft.partLost.filter fun x => x != (acct, job, part)) ++ [(acct, job, part)] } }

/-- The part number of an address in a job. -/
def JobSlot.partOf (j : JobSlot) (addr : Nat) : Nat := (j.table.findIdx? fun a => a == addr).getD 0

/-- JOB_FAULT: a joined part of a job has lost a unit (R450, R515). -/
def execJobFault (src : BitVec 13) (job : Word) (s : State) : Result State :=
  match s.recipient src.toNat job with
  | none => .next (discardMsg s)
  | some (acct, js) => .next (losePart acct job (js.partOf src.toNat) 1 (wakeUp s))

/-- The Beacon entry of an address reads FAULT or UNKNOWN (R394, R395). -/
def beaconIll (s : State) (addr : Nat) : Bool := match tget s.chip.beacon.table addr with
  | some e => !e.known || e.mstate == MState.fault.code
  | none => true

/-- PART_LOST_TIMEOUT: 1 s is over in which a joined part's Beacon entry read FAULT or UNKNOWN and no fabric route reached it; a part
that the Beacon shows well, or that a route reaches, is not lost (R378, R450). -/
def execPartLostTimeout (job : Word) (part : BitVec 13) (s : State) : Result State :=
  match s.chip.fabric.slots.find? fun x => x.2.job == job with
  | none => .next s
  | some (k, js) =>
    let a := js.table.getD part.toNat 8192
    .next (if js.joined.contains part.toNat && part.toNat != js.part && beaconIll s a && noRoute s a then
      losePart (k / 16) job part.toNat 2 s else s)

/-- DEPOSIT_LOST: the partner's share that held this part's deposit is wiped; the next flip carries a want (R437, R454, R515). -/
def execDepositLost (src : BitVec 13) (job : Word) (model : BitVec 16) (_die : BitVec 3) (s : State) : Result State :=
  match s.recipient src.toNat job with
  | none => .next (discardMsg s)
  | some (acct, js) =>
    let s := post acct 8 .ok (leBytes 2 model.toNat ++ leBytes 2 (js.partOf src.toNat)) (dropSent acct model.toNat (wakeUp s))
    match s.slotOf acct model.toNat with
    | none => .next s
    | some k => .next (s.onModel k fun m =>
        { m with ft := { m.ft with deferred := m.ft.deferred || m.ft.plan.isSome } })

/-- A deposit of a partner: its start zeroes the record of the region; its contents land, and the record is written last. A region whose
Ledger die is fenced takes nothing (R436, R437, R502). (Log entry 97, DEDUCED.) -/
def landDeposit (acct part : Nat) (model die : Nat) (data : Bytes) (s : State) : State :=
  match s.ft.deposits.find? fun d => d.acct == acct && d.model == model && d.src == part && d.die == die with
  | none => s
  | some d =>
    let body := data.drop 128
    let mark := fun (b : Bool) (s : State) =>
      { s with ft := { s.ft with deposits := s.ft.deposits.map fun x => if x == d then { d with busy := b, read := false } else x } }
    if s.rangeFails d.vbase (4096 + body.length) then s else
    let s := (s.charge .deposit acct [(d.vbase, 4096 + body.length)]).write d.vbase (List.replicate 4096 0)
    if data.isEmpty then mark true s
    else if decide (d.len < 4096 + body.length) then mark false s
    else mark false ((s.write (d.vbase + 4096) body).write d.vbase (padTo 4096 (data.take 128)))

/-- The depositing part begins or ends to read a deposit of a model that this part holds (R441). -/
def readDeposit (acct part model : Nat) (on : Bool) (s : State) : State :=
  let mark := fun (d : Deposit) => if d.acct == acct && d.model == model && d.src == part then { d with read := on } else d
  { s with ft := { s.ft with deposits := s.ft.deposits.map mark } }

/-- A flit in transit crosses its next hop on the next level and channel; on level 7 it is discarded and counted (R406). -/
def transitFlit (src dst : Nat) (job : Word) (vc level : Nat) (data : Bytes) (s : State) : State :=
  if level == 7 then (bumpSomeDie 0x902 s).onFabric fun f => { f with routeLoops := f.routeLoops + 1 }
  else launch ⟨none, ⟨src, dst, job, vc, level + 1, 0, data⟩, s.mtime⟩ s

/-- FABRIC_MESSAGE: a message for a joined job is delivered, and wakes the module; any other is discarded and counted; a flit in
transit passes on or is dropped, and one for this module is delivered as any other message (R406, R411, R425, R426, R436, R441, R515). -/
def execFabricMessage (src : BitVec 13) (job : Word) (body : FabBody) (s : State) : Result State :=
  let deliver := fun (f : Nat → JobSlot → State → State) => match s.recipient src.toNat job with
    | none => discardMsg s
    | some (acct, js) => f acct js (wakeUp s)
  match body with
  | .deposit model die data =>
    .next (deliver fun acct js s => landDeposit acct (js.partOf src.toNat) model.toNat die.toNat data s)
  | .transit dst vc level data =>
    .next (if s.chip.fabric.addr == some dst.toNat then deliver fun _ _ s => s
      else s.whenOn <| transitFlit src.toNat dst.toNat job vc.toNat level.toNat data s)
  | .ackDecision kind inst => .next (deliver fun _ js s => hearAck js (js.partOf src.toNat) kind inst s)
  | .askDecision kind inst => .next (deliver fun _ js s => answerAsk js (js.partOf src.toNat) kind inst s)
  | .reran rkey _ held => .next (deliver fun _ js s => heardRerun (js.partOf src.toNat) job rkey held s)
  | .depositRead model on => .next (deliver fun acct js s => readDeposit acct (js.partOf src.toNat) model.toNat on s)
  | .other => .next (deliver fun _ _ s => s)

/-- A second module holds this module's address: DUPLICATE_ADDR is raised, one HEALTH frame shows FAULT and the darkness to come, every
fabric port goes dark until a COLD reset, and every job is left (R377, R403). -/
def duplicateAddr (s : State) : State :=
  let f := s.chip.fabric
  if f.duplicate then s
  else
    let holder := s.ten.modRight.toList
    let members := ((f.slots.map fun x => x.1 / 16).dedup).filter fun a => !holder.contains a
    let s := postAll (holder ++ members) 0xE .ok (leBytes 2 (f.addr.getD 0)) s
    let s := darkenAll (List.range 64) 3 (s.onBeacon fun b => { b with mstate := .fault })
    s.onFabric fun f => { f with duplicate := true, slots := [] }

end Sys2Proof.Machine
end

