-- ==== Sys2Proof/Machine/Teller.lean ====
section
/-!
DEFINITION. The Teller's credits and the memory commands of family 0x02 (11 R358 to R367).
-/
namespace Sys2Proof.Machine

/-! ## MEM_MAP_QUERY (R365) -/

/-- The units of an account in one pool of one die, with the quarter for HBM, as unit numbers; units that an arena or a deposit region
reaches are not in the account's memory (R317, R347, R437, R465). -/
def State.unitsHeld (s : State) (acct pool die : Nat) (quarter : Option Nat) : List Nat :=
  let held := s.partHeld.flatMap fun r => unitsOf r.1 r.2
  let mine := (s.ten.grants.filter fun g =>
    g.pool == pool && g.die == die && g.acct == acct && !held.contains (some (pool, die, g.unit))).map (·.unit)
  let units := match quarter with
    | some q => (mine.filter fun u => u % 4 == q).map fun u => u / 4
    | none => mine
  units.mergeSort fun a b => decide (a ≤ b)

/-- Runs of consecutive numbers, as first number and length. (Log entry 80, DEDUCED.) -/
def runsOf : List Nat → List (Nat × Nat)
  | [] => []
  | u :: us => match runsOf us with
    | (b, n) :: rs => if b == u + 1 then (u, n + 1) :: rs else (u, 1) :: (b, n) :: rs
    | [] => [(u, 1)]

/-- An entry of the map: base with SPACE, and length in units. -/
def mapEntry (space base len : Nat) : Bytes := leBytes 8 (base + space * 2 ^ 52) ++ leBytes 4 len ++ [0, 0, 0, 0]

/-- The runs of an account's memory: HBM by die and quarter in the quarter view, then the Vault, whose shares lie side by side, then
shared die SRAM. -/
def memoryMap (s : State) (acct : Nat) : List Bytes :=
  let hbm := (List.range 8).flatMap fun d => (List.range 4).flatMap fun q =>
    (runsOf (s.unitsHeld acct 0 d (some q))).map fun r =>
      mapEntry 0 (quarterBase + d * 2 ^ 37 + q * 2 ^ 35 + r.1 * 2 ^ 24) r.2
  let vault := (runsOf ((List.range 8).flatMap fun d => (s.unitsHeld acct 1 d none).map fun u => 8192 * d + u)).map fun r =>
    mapEntry 1 (vaultBase + r.1 * 2 ^ 24) r.2
  let sram := (List.range 8).flatMap fun d =>
    (runsOf (s.unitsHeld acct 2 d none)).map fun r => mapEntry 2 (dieSramBase + d * 2 ^ 28 + r.1 * 2 ^ 20) r.2
  hbm ++ vault ++ sram

/-- MEM_MAP_QUERY (R365). -/
def execMemMapQuery (c : Cmd) (s : State) : Result State :=
  runCmd 0x201 c s fun s =>
    let a := cmdU c 0 8
    let es := memoryMap s (cmdA c)
    let ok := Res.done .ok (leBytes 4 es.length)
    if !cmdTail c 8 || !addrOk a || a % 64 != 0 then fail .badArg s
    else if es.isEmpty then ok s
    else writeFor c a (16 * es.length) s fun put => ok (put es.flatten)

/-! ## Credit settings (R359, R365, R366) -/

/-- The credits of a die's pool. -/
def State.credits (s : State) (vault : Bool) (die : Nat) : Credits :=
  if vault then s.chip.vaultCred.getD die Credits.vault else s.chip.hbmCred.getD die Credits.hbm
/-- Change the credits of a die's pool. -/
def State.onCredits (s : State) (vault : Bool) (die : Nat) (f : Credits → Credits) : State :=
  if vault then { s with chip := { s.chip with vaultCred := lmod s.chip.vaultCred die f } }
  else { s with chip := { s.chip with hbmCred := lmod s.chip.hbmCred die f } }

/-- The range of a class's floor (R359). -/
def floorRange (vault : Bool) (cls : Nat) : Nat × Nat :=
  if vault then (if cls == 1 then (33, 100) else (0, 67)) else (if cls == 0 then (8, 100) else (0, 92))

/-- The settings that will be in force at the next period. -/
def Credits.coming (c : Credits) : List Nat × List Nat := c.staged.getD (c.floors, c.caps)

/-- Settings with one class changed. -/
def Credits.change (c : Credits) (cls floor cap : Nat) : List Nat × List Nat :=
  let (fs, cs) := c.coming
  (lmod fs cls fun _ => floor, lmod cs cls fun _ => cap)

/-- Every decode load admitted in a partition passes R266 with the floors that a state holds. -/
def loadsPass (s : State) (part : Nat) : Bool :=
  s.models.all fun x => (s.acct x.2.map.acct).quota.partition != part || (s.loads x.1 x.2).isEmpty ||
    frameFits x.2 (s.costParams x.2) (s.loads x.1 x.2)

/-- MEM_CREDIT_SET: staged until the next credit period (R365, R366). -/
def execMemCreditSet (c : Cmd) (s : State) : Result State :=
  runCmd 0x202 c s fun s =>
    let u := fun (o : Nat) => cmdU c o 1
    let part := (s.acct (cmdA c)).quota.partition
    let dies := s.partDies part
    let vault := u 1 == 1
    let (lo, hi) := floorRange vault (u 2)
    let named := if u 0 == 0xFF then dies else (dies.drop (u 0)).take 1
    let changed := named.map fun d => ((s.credits vault d).change (u 2) (u 3) (u 4)).1.sum
    if !cmdTail c 8 || !cmdZ c 5 3 || decide (2 ≤ u 1) || decide ((if vault then 3 else 6) ≤ u 2) ||
        (u 0 != 0xFF && decide (dies.length ≤ u 0)) || decide (u 3 < lo) || decide (hi < u 3) || decide (u 4 == 0) ||
        decide (100 < u 4) || decide (u 4 < u 3) then fail .badArg s
    else if !s.hasPartRight (cmdA c) part then fail .denied s
    else if changed.any fun n => decide (100 < n) then fail .badArg s
    else
      let lower := fun (s : State) (d : Nat) => s.onCredits vault d fun x => { x with floors := (x.change (u 2) (u 3) (u 4)).1 }
      let less := named.any fun d => decide (u 3 < (s.credits vault d).floors.headD 0)
      if !vault && u 2 == 0 && less && !loadsPass (named.foldl lower s) part then fail .noResource s
      else fail .ok (named.foldl (fun s d => s.onCredits vault d fun x => { x with staged := some (x.change (u 2) (u 3) (u 4)) }) s)

/-- The physical die that a query's DIE names in the caller's partition. -/
def queryDie (c : Cmd) (s : State) : Option Nat := (s.acctDies (cmdA c))[cmdU c 0 1]?

/-- MEM_CREDIT_QUERY (R365). -/
def execMemCreditQuery (c : Cmd) (s : State) : Result State :=
  runCmd 0x203 c s fun s =>
    if !cmdTail c 8 || !cmdZ c 2 6 || decide (2 ≤ cmdU c 1 1) then fail .badArg s
    else match queryDie c s with
      | none => fail .badArg s
      | some d =>
        let x := s.credits (cmdU c 1 1 == 1) d
        let six := fun (l : List Nat) => padTo 6 (l.flatMap (leBytes 1))
        .done .ok (six x.floors ++ six x.caps) s

/-- The error record of a die (R367). -/
def errorRecord (s : State) (d : Nat) : Bytes :=
  let m := s.dieMem d
  let used := fun (p : Nat → Bool) => ((m.sparesUsed.filter fun x => p (x.1 / 64)).map (·.2)).sum
  let out := (List.range 16).filter fun c => m.coreOut.contains c || (s.unit 2 (16 * d + c)).mgmt == 1
  padTo 32 (leBytes 2 (2048 - used fun u => u != 16) ++ leBytes 2 (512 - used fun u => u == 16) ++
    leBytes 2 ((out.map fun c => 2 ^ c).sum) ++ leBytes 1 (if m.dieOut || (s.unit 1 d).mgmt == 1 then 1 else 0) ++ [0] ++
    leBytes 4 m.hbmRepairs.toNat ++ leBytes 4 m.poisoned.length ++ leBytes 4 m.vaultRepairs.toNat ++
    leBytes 4 m.withdrawn.length)

/-- MEM_ERR_QUERY (R365, R367). -/
def execMemErrQuery (c : Cmd) (s : State) : Result State :=
  runCmd 0x204 c s fun s =>
    if !cmdTail c 8 || !cmdZ c 1 7 then fail .badArg s
    else match queryDie c s with
      | none => fail .badArg s
      | some d => .done .ok (errorRecord s d) s

/-! ## A credit period (R358, R360 to R363) -/

/-- A class's requests on one quarter or share: the pending count of each account. -/
abbrev Wants := List (Nat × Nat)

/-- The pending count of a class. -/
def Wants.total (w : Wants) : Nat := (w.map (·.2)).sum

/-- Lend a pool one credit at a time, round-robin, to the classes with requests pending below their caps: the credits that
each class has, and the class served next (R361). `room` is what each class may still take. (Log entry 69, DEDUCED.) -/
def lend : Nat → Nat → List Nat → List Nat → List Nat × Nat
  | 0, turn, _, got => (got, turn)
  | pool + 1, turn, room, got =>
    match ((List.range room.length).map fun i => (turn + i) % room.length).find? fun i => room.getD i 0 != 0 with
    | none => (got, turn)
    | some i => lend pool ((i + 1) % room.length) (lmod room i (· - 1)) (lmod got i (· + 1))

/-- Deficit round-robin among the accounts of a class: visits from the account served next, each adding its weight; what
each account receives, the deficits left and the next account (R362). (Log entry 66, DEDUCED.) -/
def divide (weight : Nat → Nat) : Nat → Nat → Nat → Wants → Tbl Nat → Tbl Nat → Tbl Nat × Tbl Nat × Nat
  | 0, _, next, _, def_, got => (got, def_, next)
  | _, 0, next, _, def_, got => (got, def_, next)
  | fuel + 1, left + 1, next, w, def_, got =>
    match (w.find? fun x => decide (next ≤ x.1) && x.2 != 0).orElse fun _ => w.find? fun x => x.2 != 0 with
    | none => (got, def_, next)
    | some (a, n) =>
      let d := tgetD def_ a 0
      let d := if d == 0 then weight a else d
      let x := min d (min n (left + 1))
      let w := w.map fun y => if y.1 == a then (a, n - x) else y
      let rest := if n == x then 0 else d - x
      let def_ := if rest == 0 then terase def_ a else tset def_ a rest
      divide weight fuel (left + 1 - x) (if rest == 0 then a + 1 else a) w def_ (tset got a (tgetD got a 0 + x))

/-- A request on one quarter or share; a disabled account has none, and one that is stopping has those of its wipe (R371, R471). -/
def State.asks (s : State) (vault : Bool) (die quarter : Nat) (r : CreditReq) : Bool :=
  r.die.toNat == die && r.vault == vault && (vault || r.quarter.toNat == quarter) &&
    ((s.acct r.acct.toNat).state == .enabled || (s.acct r.acct.toNat).state == .stopping)

/-- The requests pending on one quarter or share and class, by ascending account; KV movement in HBM has its own queue (R360, R362). -/
def wantsOf (s : State) (vault : Bool) (die quarter cls : Nat) : Wants :=
  let mine := s.demand.filter fun r => s.asks vault die quarter r && r.cls.toNat == cls && (vault || !r.kv)
  let accts := ((mine.map fun r => r.acct.toNat).dedup).mergeSort fun a b => decide (a ≤ b)
  accts.map fun a => (a, ((mine.filter fun r => r.acct.toNat == a).map (·.count)).sum)

/-- The KV movements of a quarter, in the order of their causes, each with what the reserve gives it: the first takes what it asks
for, and the next what is left (R360). -/
def kvShares : Nat → List CreditReq → List (CreditReq × Nat)
  | _, [] => []
  | left, r :: rs => (r, min left r.count) :: kvShares (left - r.count) rs

/-- What the KV movements of a quarter take of its STREAM floor, at most 200 credits (R360). -/
def kvGrants (s : State) (die quarter floor : Nat) : List (CreditReq × Nat) :=
  kvShares (min 200 floor) (s.demand.filter fun r => s.asks false die quarter r && r.kv)

/-- The credits of a floor or a cap of a percentage: 25 for one per cent of a quarter, 12 of a share, and half of that under an
override of its memory (R363, R371, R525). A die's divider changes nothing (log entry 67, DEDUCED). -/
def creditsOf (vault halved : Bool) (percent : Nat) : Nat :=
  (if vault then 12 else 25) * percent / if halved then 2 else 1

/-- The memory of a quarter or share is under an override (R525). -/
def State.memHalved (s : State) (vault : Bool) (die quarter : Nat) : Bool :=
  let o := s.chip.power.override
  if vault then o.lpddr.any fun x => x.1 == die / 2 else o.hbm.contains (2 * die + quarter / 2)

/-- The credits of the classes from the trickle and their floors (R361). -/
def floorCredits (x : Credits) (quarter : Nat) (floor : Nat → Nat) (totals : List Nat) : List Nat :=
  totals.zipIdx.map fun w =>
    let t := if w.1 != 0 && decide (7 ≤ (x.idle.getD quarter []).getD w.2 0) then 1 else 0
    t + min (floor (x.floors.getD w.2 0)) (w.1 - t)

/-- What each class may still take of a pool: its pending requests, below its cap (R361). -/
def lendRoom (x : Credits) (cap : Nat → Nat) (totals got : List Nat) : List Nat :=
  totals.zipIdx.map fun w => min (w.1 - got.getD w.2 0) (cap (x.caps.getD w.2 100) - got.getD w.2 0)

/-- Granted requests leave the queue, the oldest first. -/
def takeDemand (p : CreditReq → Bool) : Nat → List CreditReq → List CreditReq
  | _, [] => []
  | n, r :: rs =>
    if !p r then r :: takeDemand p n rs
    else if r.count ≤ n then takeDemand p (n - r.count) rs
    else { r with count := r.count - n } :: takeDemand p 0 rs

/-- An account receives credits on a quarter or share: its requests leave the queue, and its bytes are metered (R358, R473). -/
def granted (vault : Bool) (die quarter acct n : Nat) (p : CreditReq → Bool) (s : State) : State :=
  let s := { s with demand := takeDemand (fun r => s.asks vault die quarter r && r.acct.toNat == acct && p r) n s.demand }
  let s := s.meter acct (if vault then 4 else 3) ((if vault then 256 else 512) * n) die
  if vault then s else s.bump 0x300 die (some acct) (some quarter) n

/-- The periods in which each class received no credit on a quarter or share, up to the seven that the trickle looks at (R361). -/
def Credits.idled (x : Credits) (quarter : Nat) (got : List Nat) : Credits :=
  let count := fun (n : Nat × Nat) => if n.1 == 0 then min 7 ((x.idle.getD quarter []).getD n.2 0 + 1) else 0
  { x with idle := lmod x.idle quarter fun _ => got.zipIdx.map count }

/-- Divide the credits of the classes of one quarter or share among their accounts (R361, R362). -/
def grantPeriod (vault : Bool) (die quarter : Nat) (wants : List Wants) (got : List Nat) (s : State) : State :=
  wants.zipIdx.foldl (fun s w =>
    let x := s.credits vault die
    let key := 8 * quarter + w.2
    let n := got.getD w.2 0
    let weight := fun (a : Nat) => max 1 (s.acct a).quota.weight
    let (gs, def_, next) := divide weight (2 * n + w.1.length) n (tgetD x.next key 0) w.1 (tgetD x.deficit key []) []
    let s := s.onCredits vault die fun x => { x with deficit := tset x.deficit key def_, next := tset x.next key next }
    let mine := fun (r : CreditReq) => r.cls.toNat == w.2 && (vault || !r.kv)
    gs.foldl (fun s g => granted vault die quarter g.1 g.2 mine s) s) s

/-- Credits of one HBM quarter: KV movement takes its reserve ahead of the Stream Engine, within the STREAM floor (R358, R360,
R361). -/
def hbmPeriod (die quarter : Nat) (s : State) : State :=
  let x := s.credits false die
  let of := creditsOf false (s.memHalved false die quarter)
  let kv := kvGrants s die quarter (of (x.floors.getD 0 0))
  let moved := (kv.map (·.2)).sum
  let wants := (List.range 6).map fun c => wantsOf s false die quarter c
  let totals := lmod (wants.map Wants.total) 0 (· + moved)
  let base := floorCredits x quarter of totals
  let (got, turn) := lend (of 100 - base.sum) (x.turn.getD quarter 0) (lendRoom x of totals base) base
  let s := s.onCredits false die fun x => ({ x with turn := lmod x.turn quarter (fun _ => turn) }).idled quarter got
  let s := kv.foldl (fun s g => granted false die quarter g.1.acct.toNat g.2 (· == g.1) s) s
  grantPeriod false die quarter wants (lmod got 0 (· - moved)) s

/-- Credits of the two Vault shares of a Ledger die: one pool where one partition has both dies (R361). -/
def vaultPeriod (ld : Nat) (s : State) : State :=
  let (d0, d1) := (2 * ld, 2 * ld + 1)
  let (x0, x1) := (s.credits true d0, s.credits true d1)
  let of := creditsOf true (s.memHalved true d0 0)
  let wants := fun (d : Nat) => (List.range 3).map fun c => wantsOf s true d 0 c
  let (n0, n1) := ((wants d0).map Wants.total, (wants d1).map Wants.total)
  let (b0, b1) := (floorCredits x0 0 of n0, floorCredits x1 0 of n1)
  let (r0, r1) := (lendRoom x0 of n0 b0, lendRoom x1 of n1 b1)
  let close := fun (d n : Nat) (got : List Nat) (s : State) =>
    grantPeriod true d 0 (wants d) got (s.onCredits true d fun x => ({ x with turn := [n] }).idled 0 got)
  if s.dieOwner d0 == s.dieOwner d1 && (s.dieOwner d0).isSome then
    let (got, n) := lend (2 * of 100 - b0.sum - b1.sum) (x0.turn.headD 0) (r0 ++ r1) (b0 ++ b1)
    close d1 n (got.drop 3) (close d0 n (got.take 3) s)
  else
    let (g0, n0) := lend (of 100 - b0.sum) (x0.turn.headD 0 % 3) r0 b0
    let (g1, n1) := lend (of 100 - b1.sum) (x1.turn.headD 0 % 3) r1 b1
    close d1 n1 g1 (close d0 n0 g0 s)

/-- Settings staged by MEM_CREDIT_SET come into force (R366). -/
def Credits.apply (x : Credits) : Credits := { x with floors := x.coming.1, caps := x.coming.2, staged := none }

/-- CREDIT_PERIOD: every Teller grants the credits of a period for the requests pending, those that have arrived with the row among
them; what is not granted stays pending, and new requests of accounts that are not enabled are removed; what a stopping account has
pending are those of its wipe (R358 to R363, R371, R471). -/
def execCreditPeriod (reqs : List CreditReq) (s : State) : Result State :=
  let s := { s with chip := { s.chip with hbmCred := s.chip.hbmCred.map Credits.apply,
                                          vaultCred := s.chip.vaultCred.map Credits.apply },
                    demand := (reqs.filter fun r => r.count != 0 && (s.acct r.acct.toNat).state == .enabled).foldl joinDemand
                      (s.demand.filter fun r => (s.acct r.acct.toNat).state == .enabled || (s.acct r.acct.toNat).state == .stopping) }
  let s := (List.range 8).foldl (fun s d => (List.range 4).foldl (fun s q => hbmPeriod d q s) s) s
  .next ((List.range 4).foldl (fun s l => vaultPeriod l s) s)

end Sys2Proof.Machine
end

