-- ==== Sys2Proof/Machine/Power.lean ====
section
/-!
DEFINITION. Power states, dividers, the governor and protection overrides (17 R507 to R525, 21 R585 to R588).
-/
namespace Sys2Proof.Machine

/-! ## The model of R522 -/

/-- Arrays, vector, SRAM and NoC figures of a die at a divider, in watts. -/
def dieFigures (div : Nat) : Nat × Nat × Nat :=
  if div == 4 then (380, 160, 80) else if div == 5 then (260, 110, 70) else if div == 6 then (175, 73, 52) else (62, 26, 42)

/-- The estimate of a die at a divider, in microwatts. -/
def dieEstimate (p : Power) (d div : Nat) : Nat :=
  let (a, v, n) := dieFigures div
  n * 1000000 + a * p.arrBusy.getD d 0 + v * p.vecBusy.getD d 0

/-- The input estimate at dividers, in units of 10^-8 W: 1.07 times the dies and the rest of the module. -/
def inputEstimate (p : Power) (div : List Nat) : Nat :=
  107 * ((div.zipIdx.map fun x => dieEstimate p x.2 x.1).sum + 1190000000)

/-- The next slower divider, and the next faster one (R509). -/
def slower (d : Nat) : Nat := if d == 4 then 5 else if d == 5 then 6 else 8
/-- The next faster divider. -/
def faster (d : Nat) : Nat := if d == 8 then 6 else if d == 6 then 5 else 4

/-- The power priority of a die; one that no partition names counts as 0 (R523). -/
def State.diePrio (s : State) (d : Nat) : Nat := match s.dieOwner d with
  | some p => s.chip.power.bounds.prio.getD p 0
  | none => 0

/-- The die that the procedure of R523 slows next, among those that it may slow. -/
def dieToSlow (s : State) (may : Nat → Bool) (div : List Nat) : Option Nat :=
  let p := s.chip.power
  let can := (List.range 8).filter fun d => decide (div.getD d 8 < p.bounds.divSlow) && may d
  -- lowest priority, then fastest divider, then greatest estimate, then highest number
  let better := fun (x y : Nat) =>
    let (px, py) := (s.diePrio x, s.diePrio y)
    let (fx, fy) := (div.getD x 8, div.getD y 8)
    let (ex, ey) := (dieEstimate p x fx, dieEstimate p y fy)
    decide (px < py) || (px == py && (decide (fx < fy) || (fx == fy && (decide (ey < ex) || (ex == ey && decide (y < x))))))
  can.foldl (fun (b : Option Nat) d => match b with
    | none => some d
    | some x => if better d x then some d else some x) none

/-- Slow dies until the target fits the envelope (R523). -/
def slowDies (s : State) (may : Nat → Bool) (extra : Nat) : Nat → List Nat → List Nat
  | 0, div => div
  | n + 1, div =>
    if decide (inputEstimate s.chip.power div + extra ≤ s.chip.power.bounds.envelope * 100000000) then div
    else match dieToSlow s may div with
      | none => div
      | some d => slowDies s may extra n (lmod div d slower)

/-- The governor's choice for dies that a protection holds at ÷8: the procedure of R523 run with each of them at the divider last chosen
for it (R532). (Log entry 170, DESIGN CHOICE.) -/
def Power.choose (s : State) (extra : Nat) (p : Power) : Power :=
  let trial := slowDies s (fun _ => true) extra 32 (p.div.zipIdx.map fun x => tgetD p.chosen x.2 x.1)
  { p with chosen := p.chosen.map fun x => (x.1, trial.getD x.1 x.2) }

/-- The dividers that the dies run at or have been told to rise to. -/
def Power.aimed (p : Power) : List Nat := p.div.zipIdx.map fun x => tgetD p.rising x.2 x.1

/-- A die may run one step faster with the estimate at most 97 % of the envelope (R523). -/
def hasHeadroom (p : Power) (aim : List Nat) (d : Nat) : Bool :=
  decide (p.bounds.divFast < aim.getD d 4) && !p.override.holds d &&
  decide (100 * inputEstimate p (lmod aim d faster) ≤ 97 * p.bounds.envelope * 100000000)

/-- The order of faster steps: highest priority, slowest die, lowest number. -/
def riseOrder (s : State) (aim : List Nat) (x y : Nat) : Bool :=
  let (px, py) := (s.diePrio x, s.diePrio y)
  let (fx, fy) := (aim.getD x 4, aim.getD y 4)
  decide (py < px) || (px == py && (decide (fy < fx) || (fx == fy && decide (x ≤ y))))

/-- What an evaluation measures: the busy fractions of the last 100 µs, and INPUT_W, kept for 10 ms (R521 to R523). -/
def Power.measure (arrays vectors : List Nat) (inputW : Nat) (p : Power) : Power :=
  let busy := fun (l : List Nat) => (List.range 8).map fun d => min 1000000 (l.getD d 0)
  { p with arrBusy := busy arrays, vecBusy := busy vectors, inputs := (inputW :: p.inputs).take 100 }

/-- The evaluation finds the input too high: slower dividers come into force at once. What a die has still to rise to come back to
DIV_SLOW stands (R523, R525). -/
def Power.slowDown (s : State) (extra : Nat) (p : Power) : Power :=
  let back := (p.rising.filter fun x => decide (p.bounds.divSlow < p.div.getD x.1 4)).map fun x => (x.1, p.bounds.divSlow)
  { p with div := slowDies s (fun d => !p.override.holds d) extra 32 p.div, rising := back, headroom := [] }

/-- The evaluation looks for headroom: a die that has had it for 1 ms is told to run one step faster (R523). -/
def Power.speedUp (s : State) (p : Power) : Power :=
  let (aim, now) := (p.aimed, s.mtime)
  let since := (List.range 8).filterMap fun d => if hasHeadroom p aim d then some (d, tgetD p.headroom d now) else none
  let ready := (since.filter fun x => decide (x.2.toNat + 1000000 ≤ now.toNat)).map (·.1)
  let up := (ready.mergeSort (riseOrder s aim)).foldl (fun (r : List Nat × Tbl Nat) d =>
    if hasHeadroom p r.1 d then (lmod r.1 d faster, tset r.2 d (faster (r.1.getD d 4))) else r) (aim, p.rising)
  { p with rising := up.2, headroom := since.filter fun x => tget up.2 x.1 == tget p.rising x.1 }

/-- GOVERNOR_EVAL: the evaluation of every 100 µs (R522, R523, R532). -/
def execGovernorEval (arrays vectors : List Nat) (inputW : Nat) (s : State) : Result State :=
  if s.off then .next s
  else
    let s := s.onPower (Power.measure arrays vectors inputW)
    let p := s.chip.power
    let model := inputEstimate p p.div
    let env := p.bounds.envelope
    let extra := inputW * 100000000 - model
    if p.pstate != 0 then .next s
    else .next (s.onPower fun p =>
      let p := if decide (env * 100000000 < model) || decide (env < inputW) then p.slowDown s extra else p.speedUp s
      p.choose s extra)

/-! ## Protections as they end (R525) -/

/-- With the last protection the count of its time stops (R521). -/
def Power.stopClock (now : DWord) (p : Power) : Power :=
  if p.override.any then p
  else match p.ovrSince with
    | some t => { p with ovrNs := p.ovrNs + (now - t), ovrSince := none }
    | none => p

/-- A die is back within the bounds, or another protection holds it. -/
def Power.settled (p : Power) (d : Nat) : Bool := decide (p.div.getD d 4 ≤ p.bounds.divSlow) || p.override.holds d

/-- A protection whose dies are all back within the bounds has ended: PROTECT_OVERRIDE is posted and HEALTH shows it (R525). -/
def settleOverride (s : State) : State :=
  let p := s.chip.power
  let back := p.override.leaving.filter fun x => x.2.all p.settled
  if back.isEmpty then s
  else
    let rest := p.override.leaving.filter fun x => !x.2.all p.settled
    let s := s.onPower fun p => Power.stopClock s.mtime { p with override := { p.override with leaving := rest } }
    sendHealth (back.foldl (fun s x => protectNotice x.1 1 s) s)

/-- Dies that no protection holds any more go to the governor's choice, which lies within the bounds, through their supplies (R509,
R525, R532). -/
def Power.release (p : Power) : Power :=
  let aim := fun (x : Nat × Nat) => min p.bounds.divSlow (max p.bounds.divFast (tgetD p.chosen x.2 p.bounds.divSlow))
  let free := p.div.zipIdx.filter fun x =>
    !p.override.holds x.2 && ((tget p.chosen x.2).isSome || decide (p.bounds.divSlow < x.1))
  { p with rising := free.foldl (fun t x => if decide (aim x < x.1) then tset t x.2 (aim x) else t) p.rising,
           chosen := p.chosen.filter fun x => p.override.holds x.1 }

/-- DIVIDER_STEP: the supply of a die has been raised, and its faster divider takes effect, one step at a time (R509). -/
def execDividerStep (die : BitVec 3) (s : State) : Result State :=
  let d := die.toNat
  match tget s.chip.power.rising d with
  | none => .next s
  | some to_ => if s.off then .next s else .next (settleOverride (s.onPower fun p =>
    let next := faster (p.div.getD d 4)
    { p with div := lmod p.div d (fun _ => next), rising := if decide (next ≤ to_) then terase p.rising d else p.rising }))

/-- Bounds come into force: dies outside them move, slower at once and faster through their supplies (R509, R520). -/
def applyBounds (b : Bounds) (s : State) : State :=
  settleOverride (s.onPower fun p =>
    let div := p.div.zipIdx.map fun x => if decide (x.1 < b.divFast) then b.divFast else x.1
    let rise := div.zipIdx.foldl (fun (t : Tbl Nat) x =>
      if decide (b.divSlow < x.1) && !p.override.holds x.2 then tset t x.2 b.divSlow else t) p.rising
    { p with bounds := b, staged := none, div := div, rising := rise.filter fun x => decide (b.divFast ≤ x.2) })

/-! ## Power states (R512 to R517) -/

/-- A condition of R513 holds: the module may not leave P0. -/
def State.engaged (s : State) : Bool :=
  s.moving || (s.models.any fun m => !m.2.ft.later.isEmpty) || (s.ft.deposits.any fun d => d.busy) ||
  !s.moves.all (fun m => m.queue.isEmpty) || s.chip.power.resetting.isSome || !s.chip.power.partReset.isEmpty || !s.ten.stops.isEmpty ||
  (s.pkgs.any Pkg.resident) || (s.models.any fun m => m.2.led.ustate == .open || m.2.led.ustate == .held) ||
  (s.gens.seqs.any fun x => x.2.state == .admitted || x.2.state == .prefill || x.2.state == .decode || x.2.parking) ||
  s.chip.fw.activation.isSome

/-- Entry into a power state starts; P3 darkens every host and fabric port behind its HEALTH frame (R512, R514). -/
def enterPower (t : Nat) (s : State) : State :=
  let s := s.onPower fun p => { p with target := some t, exiting := false }
  if t == 3 then darkenAll (List.range 68) 1 (s.onBeacon fun b => { b with expect := 0xFFFF })
  else sendHealth s

/-- PWR_STATE_SET (R512 to R514, R518, R519). (Log entry 76, DEDUCED.) -/
def execPwrStateSet (c : Cmd) (s : State) : Result State :=
  runCmd 0x801 c s fun s =>
    let t := cmdU c 0 1
    let p := s.chip.power
    if !cmdTail c 1 || decide (3 < t) then fail .badArg s
    else if !s.hasModRight (cmdA c) then fail .denied s
    else if p.exiting then fail .busy s
    else if p.target.isNone && p.pstate == t then .done .ok (leBytes 1 t) s
    else if s.engaged then fail .refusedState s
    else .wait .power (enterPower t s)

/-- POWER_ENTRY_DONE: the state is reached; a wake that came meanwhile starts the exit (R514, R515). -/
def execPowerEntryDone (s : State) : Result State :=
  let p := s.chip.power
  match p.target with
  | none => .next s
  | some t =>
    if p.exiting then .next s
    else
      let s := s.onPower fun p => { p with pstate := t, target := none, wakeLatch := false }
      -- P3, or an entry into it, has been left for a shallower state: its cause of darkness ends (R376, R514)
      let s := if t != 3 && (s.chip.ports.any fun x => x.causes.contains 1) then sendHealth (relightAll 1 s) else s
      let s := finishWait .power .ok (leBytes 1 t) s
      .next (if p.wakeLatch then wakeUp s else s)

/-- WAKE: a wake event (R515). -/
def execWake (s : State) : Result State := .next (wakeUp s)

/-- WAKE_ON_LIGHT: light on a dark host port whose WAKE_ON_LIGHT is set wakes the module from P3 (R397, R515). -/
def execWakeOnLight (port : BitVec 2) (s : State) : Result State :=
  let p := s.chip.power
  let deep := p.pstate == 3 || p.target == some 3
  .next (if deep && (s.port (64 + port.toNat)).state == .dark && p.bounds.wake.getLsbD port.toNat then wakeUp s else s)

/-- Commands that waited for P0 proceed: each stands taken, and its row comes again (R515, log entry 37, DEDUCED). -/
def resumeHeld (s : State) : State :=
  let held := s.mail.heldWake
  let s := { s with mail := { s.mail with heldWake := [] } }
  held.foldl (fun s t => s.onFunc (cmdA t.cmd) fun f => { f with taken := f.taken ++ [t] }) s

/-- POWER_EXIT_DONE: P0 is reached, staged bounds come into force, and the optics of P3 are relit (R397, R512, R515, R520). -/
def execPowerExitDone (s : State) : Result State :=
  let p := s.chip.power
  if !p.exiting then .next s
  else
    let s := s.onPower fun p => { p with pstate := 0, target := none, exiting := false, wakeLatch := false }
    let s := match p.staged with
      | some b => applyBounds b s
      | none => s
    .next (resumeHeld (sendHealth (relightAll 1 s)))

/-! ## Commands (R518 to R521) -/

/-- INPUT_W: the mean over the last 10 ms, rounded down, of what each evaluation measured (R521). (Log entry 171, DESIGN CHOICE.) -/
def Power.inputW (p : Power) : Nat := p.inputs.sum / max 1 p.inputs.length

/-- The power record (R521). -/
def powerRecord (s : State) : Bytes :=
  let p := s.chip.power
  let b := p.staged.getD p.bounds
  let ovr := p.ovrNs + (match p.ovrSince with
    | some t => s.mtime - t
    | none => 0)
  padTo 64 (leBytes 1 p.pstate ++ leBytes 1 (p.target.getD 0xFF) ++ leBytes 1 p.override.bits ++ [0] ++
    p.div.flatMap (leBytes 1) ++ leBytes 2 b.envelope ++ leBytes 1 b.divFast ++ leBytes 1 b.divSlow ++ leBytes 2 p.inputW ++
    leBytes 2 (inputEstimate p p.div / 100000000) ++ leBytes 1 b.wake.toNat ++ [0, 0, 0] ++ b.prio.flatMap (leBytes 1) ++
    leBytes 8 s.mtime.toNat ++ leBytes 8 ovr.toNat)

/-- PWR_QUERY (R521). -/
def execPwrQuery (c : Cmd) (s : State) : Result State :=
  runCmd 0x802 c s fun s => if !cmdTail c 0 then fail .badArg s else .done .ok (powerRecord s) s

/-- PWR_BOUNDS_SET (R520). -/
def execPwrBoundsSet (c : Cmd) (s : State) : Result State :=
  runCmd 0x803 c s fun s =>
    let u := fun (o : Nat) => cmdU c o 1
    let div := fun (d : Nat) => d == 4 || d == 5 || d == 6 || d == 8
    let b : Bounds := ⟨cmdU c 0 2, u 2, u 3, BitVec.ofNat 4 (u 4), (List.range 8).map fun i => u (8 + i)⟩
    let full := { s.chip.power with arrBusy := List.replicate 8 1000000, vecBusy := List.replicate 8 1000000 }
    let tried := s.onPower fun p => { p with bounds := { p.bounds with divSlow := b.divSlow } }
    if !cmdTail c 16 || !cmdZ c 5 3 || !div b.divFast || !div b.divSlow || decide (16 ≤ u 4) || decide (b.envelope < 2400) ||
        decide (6000 < b.envelope) || decide (b.divSlow < b.divFast) || b.prio.any fun p => decide (7 < p) then fail .badArg s
    else if !s.hasModRight (cmdA c) then fail .denied s
    else if decide (b.envelope * 100000000 < inputEstimate full (List.replicate 8 b.divSlow)) then fail .badArg s
    else if decide (s.chip.power.bounds.divSlow < b.divSlow) && !(List.range 8).all fun n => loadsPass tried n then
      fail .noResource s
    else if s.chip.power.pstate != 0 || s.chip.power.target.isSome then fail .ok (s.onPower fun p => { p with staged := some b })
    else fail .ok (applyBounds b s)

/-! ## Protection overrides (R525) -/

/-- A protection comes into force over dies: PROTECT_OVERRIDE is posted, HEALTH shows it, and OVR_NS counts from the first. Where its
dies had not come back from the last time, the bounds were never returned to, and nothing is posted. -/
def enterOverride (cause : Nat) (dies : List Nat) (f : Override → Override) (s : State) : State :=
  let again := s.chip.power.override.leaving.contains (cause, dies)
  let s := s.onPower fun p =>
    { p with override := { f p.override with leaving := p.override.leaving.filter (· != (cause, dies)) },
             ovrSince := some (p.ovrSince.getD s.mtime) }
  if again then s else sendHealth (protectNotice cause 0 s)

/-- The condition of a protection over dies has cleared: they return within the bounds, and with that the protection ends (R525). -/
def leaveOverride (cause : Nat) (dies : List Nat) (f : Override → Override) (s : State) : State :=
  settleOverride (s.onPower fun p =>
    Power.release { p with override := { f p.override with leaving := p.override.leaving ++ [(cause, dies)] } })

/-- A list with an element once. -/
def addOnce {α : Type} [BEq α] (l : List α) (x : α) : List α := if l.contains x then l else l ++ [x]

/-- A die goes to ÷8 at once; the divider that it had or was told to rise to is the governor's choice for it (R525, R532). -/
def slowest (d : Nat) (s : State) : State :=
  s.onPower fun p =>
    let had := tgetD p.rising d (p.div.getD d 4)
    { p with div := lmod p.div d (fun _ => 8), rising := terase p.rising d, headroom := terase p.headroom d,
             chosen := if (tget p.chosen d).isSome then p.chosen else tset p.chosen d had }

/-- A die's sensor reaches its limit: the die goes to ÷8; where the sensor reaches it again at ÷8, it starts no new work (R525). -/
def dieHot (d n : Nat) (s : State) : State :=
  let o := s.chip.power.override
  if o.dies.contains (d, n) then s.onPower fun p => { p with override := { o with halted := addOnce o.halted (d, n) } }
  else
    let add := fun (o : Override) => { o with dies := addOnce o.dies (d, n) }
    if o.dies.any fun x => x.1 == d then s.onPower fun p => { p with override := add o } else slowest d (enterOverride 1 [d] add s)

/-- The current override: every die goes to ÷8 (R525). -/
def currentHigh (s : State) : State :=
  if s.chip.power.override.current then s
  else (List.range 8).foldl (fun s d => slowest d s) (enterOverride 2 (List.range 8) (fun o => { o with current := true }) s)

/-- THERMAL_OVERRIDE: a sensor reaches its limit (R390, R525, R587). -/
def execThermalOverride (what : Sensor) (s : State) : Result State :=
  let o := s.chip.power.override
  let add := fun (held : Bool) (f : Override → Override) => if held then s else enterOverride 1 [] f s
  if s.off then .next s
  else .next (match what with
    | .die i n => dieHot i.toNat n.toNat s
    | .ledger i => add (o.ledgers.contains i.toNat) fun o => { o with ledgers := addOnce o.ledgers i.toNat }
    | .hbm i => add (o.hbm.contains i.toNat) fun o => { o with hbm := addOnce o.hbm i.toNat }
    | .lpddr i n =>
      let f := fun (o : Override) => { o with lpddr := addOnce o.lpddr (i.toNat, n.toNat) }
      if o.lpddr.any fun x => x.1 == i.toNat then s.onPower fun p => { p with override := f o } else enterOverride 1 [] f s
    | .current => currentHigh s
    | .laser p l off => if decide (68 ≤ p.toNat) || (s.port p.toNat).cause != 0 then s else laserGuard p.toNat l.toNat off s)

/-- CURRENT_OVERRIDE (R525). -/
def execCurrentOverride (s : State) : Result State := .next (if s.off then s else currentHigh s)

/-- A laser is back inside its bounds: the port returns to the state that SAFETY stood for, and retrains where a wavelength was off
(R390). -/
def laserCool (p : Nat) (s : State) : State :=
  let x := s.port p
  let off := x.offA ||| x.offB
  let s := s.onPort p fun x => let x := { x with override := false, offA := 0, offB := 0 }; { x with tx := x.held x.tx }
  if x.cause != 0 then s
  else if off != 0 then (retrain p s).onPort p (Port.lit p)
  else carriesAgain p (s.onPort p fun x => { x with state := x.before })

/-- OVERRIDE_CLEAR: a condition has cleared (R390, R525). A module that has tripped notes only that the sensor reads below its limit
(R588). -/
def execOverrideClear (what : Sensor) (s : State) : Result State :=
  let o := s.chip.power.override
  let cut := fun (l : List Nat) (i : Nat) => l.filter (· != i)
  let drop := fun (l : List (Nat × Nat)) (i n : Nat) => l.filter (· != (i, n))
  let some_ := fun (cause : Nat) (dies : List Nat) (f : Override → Override) (last : Bool) =>
    if s.off || !last then s.onPower fun p => { p with override := f p.override } else leaveOverride cause dies f s
  .next (match what with
    | .die i n =>
      let f := fun (o : Override) => { o with dies := drop o.dies i.toNat n.toNat, halted := drop o.halted i.toNat n.toNat }
      if !o.dies.contains (i.toNat, n.toNat) then s else some_ 1 [i.toNat] f !((f o).dies.any fun x => x.1 == i.toNat)
    | .ledger i => if !o.ledgers.contains i.toNat then s else some_ 1 [] (fun o => { o with ledgers := cut o.ledgers i.toNat }) true
    | .hbm i => if !o.hbm.contains i.toNat then s else some_ 1 [] (fun o => { o with hbm := cut o.hbm i.toNat }) true
    | .lpddr i n =>
      let f := fun (o : Override) => { o with lpddr := drop o.lpddr i.toNat n.toNat }
      if !o.lpddr.contains (i.toNat, n.toNat) then s else some_ 1 [] f !((f o).lpddr.any fun x => x.1 == i.toNat)
    | .current => if !o.current then s else some_ 2 (List.range 8) (fun o => { o with current := false }) true
    | .laser p _ _ => if !o.lasers.contains p.toNat then s
      else
        let t := some_ 4 [] (fun o => { o with lasers := cut o.lasers p.toNat }) true
        if s.off then t else laserCool p.toNat t)

/-- SUPPLY_DROOP: a droop event counts for D over 60 s, once the input and every rail have been within their limits for 10 µs after the
last; one on a package rail is the current condition (R429, R525, R585). -/
def execSupplyDroop (rail : Bool) (s : State) : Result State :=
  if s.off then .next s
  else
    let counts := match s.chip.power.droopAt with
      | some t => decide (t.toNat + 10000 ≤ s.mtime.toNat)
      | none => true
    let s := s.onPower fun p =>
      let held := p.droops.filter fun t => decide (s.mtime.toNat < t.toNat + 60000000000)
      { p with droops := if counts then held ++ [s.mtime] else held, droopAt := some s.mtime }
    .next (if rail && counts then currentHigh s else s)

end Sys2Proof.Machine
end

