-- ==== Sys2Proof/Machine/Beacon.lean ====
section
/-!
DEFINITION. The Beacon ring: what a module does with each frame, its status table, and the Beacon commands (12 R392 to R396, 13
R400 to R403).
-/
namespace Sys2Proof.Machine

/-! ## Frames (R393) -/

/-- A frame's CRC holds. -/
def frameCrcOk (b : Bytes) : Bool := fieldAt b 0x3C 4 == (crc32 (b.take 60)).toNat

/-- The fields of the payload that are reserved for a TYPE hold zero, and coded fields hold codes that exist (R394, R401). The
payload of WAKE and SLEEP is not laid out: its first byte is read as PSTATE (log entry 38, DESIGN CHOICE). -/
def payloadOk (type : Nat) (b : Bytes) : Bool :=
  if type == 1 then decide (fieldAt b 0x0C 2 < 2 ^ 13) && decide (fieldAt b 0x0E 2 < 2) && zeroAt b 0x16 38
  else if type == 2 then
    decide (fieldAt b 0x0C 1 < 4) && decide (fieldAt b 0x0D 1 < 4) && decide (fieldAt b 0x0F 1 < 8) &&
    decide (fieldAt b 0x10 2 < 2 ^ 10) && zeroAt b 0x1C 32
  else true

/-- A frame carries no reserved value (R393). -/
def frameFieldsOk (b : Bytes) : Bool :=
  let t := fieldAt b 0 1
  decide (1 ≤ t) && decide (t ≤ 4) && fieldAt b 1 1 == 0 && decide (fieldAt b 4 2 < 2 ^ 13) &&
  fieldAt b 6 2 / 2 ^ 13 % 4 == 0 && payloadOk t b

/-- A frame is dropped and counted (R393). -/
def dropFrame (s : State) : State :=
  (s.onBeacon fun b => { b with dropped := b.dropped + 1 }).bump 0xB02 8 none none 1

/-- The frame is for this module: BCAST, or its own address (R393). -/
def frameForUs (s : State) (b : Bytes) : Bool :=
  let dst := fieldAt b 6 2
  decide (2 ^ 15 ≤ dst) || s.chip.fabric.addr == some (dst % 2 ^ 13)

/-- The frame carries the module's own address as its source. -/
def frameIsOurs (s : State) (b : Bytes) : Bool := s.chip.fabric.addr == some (fieldAt b 4 2)

/-- A module recorded the SEQ of a frame that it sent within the last 100 ms (R403). -/
def sentRecently (s : State) (q : Nat) : Bool :=
  s.chip.beacon.sent.any fun x => x.1.toNat == q && decide (s.mtime.toNat ≤ x.2.toNat + 100000000)

/-- A frame is forwarded with HOPS counted, unless HOPS reaches 8,192 (R393). -/
def forwardFrame (b : Bytes) (s : State) : State :=
  let h := fieldAt b 2 2 + 1
  if decide (8192 ≤ h) then s
  else s.emit (.beacon (sealFrame (b.take 2 ++ leBytes 2 h ++ (b.drop 4).take 56)))

/-- A HEALTH frame updates the status table (R395). -/
def actHealth (b : Bytes) (s : State) : State :=
  let u := fun (o n : Nat) => fieldAt b o n
  s.onBeacon fun x =>
    { x with table := tset x.table (u 4 2) ⟨u 0x0C 1, u 0x0D 1, u 0x0E 1, u 0x0F 1, u 0x10 2, u 0x12 2, s.mtime, true⟩ }

/-- A SLEEP frame for the module is obeyed as PWR_STATE_SET by the holder of the module's right, where that account has set
REMOTE_SLEEP and the command would not be refused; otherwise it is counted (R396). -/
def actSleep (b : Bytes) (s : State) : State :=
  let t := fieldAt b 0x0C 1
  let p := s.chip.power
  let allowed := match s.ten.modRight with
    | some a => (s.acct a).remoteSleep && (s.acct a).state == .enabled
    | none => false
  let there := p.target.isNone && p.pstate == t
  if !allowed || t == 0 || decide (3 < t) || p.exiting || (s.engaged && !there) then
    (s.onBeacon fun b => { b with sleepIgnored := b.sleepIgnored + 1 }).bump 0xB03 8 none none 1
  else if there then s
  else enterPower t s

/-- The module's own frame has come round and is removed: a HEALTH frame is in the table as any other, an ENUM ends the round, WAKE and
SLEEP act where they are addressed to this module too, and a SEQ that was not recorded is a duplicate address (R393, R395, R396, R400,
R403). -/
def ownFrame (b : Bytes) (s : State) : State :=
  if !sentRecently s (fieldAt b 8 4) then duplicateAddr s
  else if fieldAt b 0 1 == 3 then (if frameForUs s b then wakeUp s else s)
  else if fieldAt b 0 1 == 4 then (if frameForUs s b then actSleep b s else s)
  else if fieldAt b 0 1 == 2 then actHealth b s
  else if fieldAt b 0 1 == 1 then
    let s := s.onFabric fun f => { f with lastRound := BitVec.ofNat 32 (fieldAt b 0x10 4) }
    if s.chip.fabric.enumSent.isNone then s
    else finishWait .enum .ok (leBytes 2 (fieldAt b 0x0C 2 + 1) ++ leBytes 1 (fieldAt b 0x0E 2))
      (s.onFabric fun f => { f with enumSent := none })
  else s

/-- An ENUM frame: the module takes VALUE + 1 or keeps its address, and the frame goes on with that address (R400, R401). -/
def actEnum (b : Bytes) (s : State) : Bytes × State :=
  let (v, round, new) := (fieldAt b 0x0C 2, BitVec.ofNat 32 (fieldAt b 0x10 4), fieldAt b 0x14 2)
  let full := fieldAt b 0x0E 2 == 1
  let s := s.onFabric fun f => { f with lastRound := round }
  let out := fun (p : Bytes) => b.take 12 ++ p ++ List.replicate 38 0
  match s.chip.fabric.addr with
  | some a => (out (enumPayload a full round new), s)
  | none =>
    if v == 8191 then (out (enumPayload v true round new), s.onFabric fun f => { f with full := true })
    else (out (enumPayload (v + 1) full round ((new + 1) % 2 ^ 16)), s.onFabric fun f => { f with addr := some (v + 1) })

/-- What a module does on receiving a frame; without its input it receives none (R392, R393, R396, R400, R403). -/
def beaconFrame (frame : BitVec 512) (s : State) : State :=
  let b := leBytes 64 frame.toNat
  if !s.chip.power.inputPresent then s
  else if !frameCrcOk b || !frameFieldsOk b then dropFrame s
  else if frameIsOurs s b then ownFrame b s
  else
    let t := fieldAt b 0 1
    let us := frameForUs s b
    let alone := us && decide (fieldAt b 6 2 < 2 ^ 15)
    let r := if t == 1 then actEnum b s
      else if t == 2 then (b, actHealth b s)
      else if us && t == 3 then (b, wakeUp s)
      else if us && t == 4 then (b, actSleep b s)
      else (b, s)
    if alone then r.2 else forwardFrame r.1 r.2

/-- BEACON_ENUM: an ENUM frame arrives (R400). -/
def execBeaconEnum (frame : BitVec 512) (s : State) : Result State := .next (beaconFrame frame s)
/-- BEACON_HEALTH: a HEALTH frame arrives (R395). -/
def execBeaconHealth (frame : BitVec 512) (s : State) : Result State := .next (beaconFrame frame s)
/-- BEACON_WAKE: a WAKE frame arrives (R396). -/
def execBeaconWake (frame : BitVec 512) (s : State) : Result State := .next (beaconFrame frame s)
/-- BEACON_SLEEP: a SLEEP frame arrives (R396). -/
def execBeaconSleep (frame : BitVec 512) (s : State) : Result State := .next (beaconFrame frame s)
/-- BEACON_FRAME_DROPPED: a frame that fails its CRC or carries a reserved value is counted and goes no further (R393). -/
def execBeaconFrameDropped (s : State) : Result State := .next (dropFrame s)

/-! ## The status table (R395) -/

/-- BEACON_ENTRY_AGE: an entry has heard nothing for 100 ms (R395). -/
def execBeaconEntryAge (addr : BitVec 13) (s : State) : Result State :=
  .next (s.onBeacon fun b => { b with table := b.table.map fun x => if x.1 == addr.toNat then (x.1, { x.2 with known := false }) else x })

/-- The accounts told of a break of the ring: the holders of the module's right and of every partition's (R497). -/
def ringAudience (s : State) : List Nat := (s.ten.modRight.toList ++ s.ten.partRights.filterMap id).dedup

/-- BEACON_BREAK: no light for 1 ms; every entry is UNKNOWN and BEACON_BREAK is raised (R395, R497). -/
def execBeaconBreak (s : State) : Result State :=
  if s.chip.beacon.broken then .next s
  else
    let s := s.onBeacon fun b =>
      { b with broken := true, table := b.table.map fun x => (x.1, { x.2 with known := false }) }
    .next (postAll (ringAudience s) 0xF .ok [0] s)

/-- BEACON_LIGHT_RESTORED: the light is back, and the entries recover as frames arrive (R395, R497). -/
def execBeaconLightRestored (s : State) : Result State :=
  if !s.chip.beacon.broken then .next s
  else .next (postAll (ringAudience s) 0xF .ok [1] (s.onBeacon fun b => { b with broken := false }))

/-- An entry of BEACON_STATUS (R395). -/
def entryBytes (s : State) (a : Nat) : Bytes :=
  match tget s.chip.beacon.table a with
  | none => leBytes 2 a ++ [1] ++ List.replicate 8 0 ++ leBytes 4 0xFFFFFFFF ++ [0]
  | some e =>
    leBytes 2 a ++ [if e.known then 0 else 1] ++ leBytes 1 e.pstate ++ leBytes 1 e.mstate ++ leBytes 1 e.risk ++ leBytes 1 e.ovr ++
      leBytes 2 e.lit ++ leBytes 2 e.expect ++ leBytes 4 (min 0xFFFFFFFF ((s.mtime - e.heard).toNat / 1000000)) ++ [0]

/-- BEACON_STATUS (R391, R395). -/
def execBeaconStatus (c : Cmd) (s : State) : Result State :=
  runCmd 0xB04 c s fun s =>
    let (first, n, a) := (cmdU c 0 2, cmdU c 2 2, cmdU c 8 8)
    if !cmdTail c 16 || !cmdZ c 4 4 || !addrRange c || !addrOk a then fail .badArg s
    else if !mayBeacon c s then fail .denied s
    else writeFor c a (16 * n) s fun put =>
      .done .ok (leBytes 2 n) (put ((List.range n).flatMap fun i => entryBytes s (first + i)))

/-- BEACON_SEND (R391, R396). A module without an address sends no frame, and the command is REFUSED_STATE (R393, log entry 162, DESIGN
CHOICE). -/
def execBeaconSend (c : Cmd) (s : State) : Result State :=
  runCmd 0xB05 c s fun s =>
    let (dst, kind, ps) := (cmdU c 0 2, cmdU c 2 1, cmdU c 3 1)
    let bad := !cmdTail c 4 || dst / 2 ^ 13 % 4 != 0 || !(kind == 1 || kind == 2) || (kind == 1 && ps != 0) ||
      (kind == 2 && (ps == 0 || decide (3 < ps)))
    if bad then fail .badArg s
    else if !mayBeacon c s then fail .denied s
    else if s.chip.fabric.addr.isNone then fail .refusedState s
    else fail .ok (sendFrame (kind + 2) dst (leBytes 1 ps) s)

end Sys2Proof.Machine
end

