-- ==== Sys2Proof/Machine/Counters.lean ====
section
/-!
DEFINITION. The Tally, event counters and numerics monitors (15 R473 to R476, 19 R552 to R567).
-/
namespace Sys2Proof.Machine

/-! ## The Tally (R473 to R476) -/

/-- The Tally record of an account (R475). -/
def tallyRecord (s : State) (a : Nat) : Bytes :=
  let x := s.acct a
  padTo 128 (leBytes 2 a ++ leBytes 2 s.ten.gaps.toNat ++ leBytes 4 0 ++ leBytes 8 s.mtime.toNat ++ leBytes 8 x.copied.toNat ++
    x.meters.flatMap fun m => leBytes 8 m.toNat)

/-- The meters of an account after a loss of power: those of the last copy (R476). -/
def Account.reload (a : Account) : Account :=
  let m := fun (i : Nat) => (a.copy.getD i 0).toNat
  let b := { a with tally := a.copy, hbmPageNs := m 5 * 1000000, vaultPageNs := m 6 * 1000000 }
  { b with energy := m 9 * milliJoule - b.pageEnergy }

/-- TALLY_COPY: the copy of every 10 s (R476). -/
def execTallyCopy (s : State) : Result State := .next (s.whenOn (copyTally s))

/-- TALLY_READ (R475). -/
def execTallyRead (c : Cmd) (s : State) : Result State :=
  runCmd 0xA01 c s fun s => if !cmdTail c 0 then fail .badArg s else .done .ok (tallyRecord s (cmdA c)) s

/-- TALLY_READ_ALL (R475). -/
def execTallyReadAll (c : Cmd) (s : State) : Result State :=
  runCmd 0xA02 c s fun s =>
    let (first, n, a) := (cmdU c 0 2, cmdU c 2 2, cmdU c 8 8)
    if !cmdTail c 16 || !cmdZ c 4 4 || n == 0 || decide (1024 < first + n) || !addrOk a then fail .badArg s
    else if !s.hasModRight (cmdA c) then fail .denied s
    else writeFor c a (128 * n) s fun put => fail .ok (put ((List.range n).flatMap fun i => tallyRecord s (first + i)))

/-! ## Counter sources (R554 to R556) -/

/-- The number of events of a source group. -/
def groupEvents (g : Nat) : Nat := [28, 24, 30, 32, 26, 20, 24, 18, 26, 30, 22, 20].getD g 0

/-- A group that only module counters select. -/
def moduleOnly (g : Nat) : Bool := g == 8 || g == 0xA || g == 0xB

/-- SFLAGS of a source: bit 0 follows its group, and bits 5 to 1 are not listed (R556). -/
def sourceFlags (src : Nat) : Nat :=
  let f := fieldAt (Config.catalogEntry src) 1 1
  (if moduleOnly (src / 256) then 0 else 1) + 2 * (f / 2 % 32)

/-- The source indexes a unit number: of a group whose units are Ledger dies, one of 4; of the fabric's, one of the 8 fabric port groups;
and otherwise one of the 10 port groups (R556, R559). -/
def sourceIndexes (src unit : Nat) : Bool :=
  let f := sourceFlags src
  (f.testBit 2 && decide (unit < 16)) || (f.testBit 3 && decide (unit < 4)) || (f.testBit 4 && decide (unit < 8)) ||
  (f.testBit 5 && decide (unit < if src / 256 == 8 then 4 else if src / 256 == 9 then 8 else 10))

/-- A catalogue entry (R556). The unit of a listed source, and its name where it fits eight bytes, are the manual's; the rest
is not listed. (Log entry 88, DESIGN CHOICE.) -/
def catalogBytes (src : Nat) : Bytes :=
  let x := padTo 14 (Config.catalogEntry src)
  let named := tget namedSources src
  let unit := if named.isSome then leBytes 1 (srcShift src) else x.take 1
  let label := match named with
    | some n => if n.length ≤ 8 then padTo 8 (n.toList.map fun ch => BitVec.ofNat 8 ch.toNat) else x.drop 6
    | none => x.drop 6
  leBytes 2 src ++ unit ++ leBytes 1 (sourceFlags src) ++ (x.drop 2).take 4 ++ label

/-! ## Counter commands (R553, R557 to R561) -/

/-- The caller may configure and read the counters of a scope (R553). -/
def mayCount (c : Cmd) (scope : Nat) (s : State) : Bool :=
  s.hasModRight (cmdA c) || (decide (scope < 8) && match s.dieOwner scope with
    | some p => s.hasPartRight (cmdA c) p
    | none => false)

/-- CNT_SET (R557 to R559). -/
def execCntSet (c : Cmd) (s : State) : Result State :=
  runCmd 0xA10 c s fun s =>
    let (scope, i, ctl, clr) := (cmdU c 0 1, cmdU c 1 1, cmdU c 4 4, cmdU c 8 1)
    let src := ctl % 2 ^ 12
    let (unit, ufilt) := (bitField ctl 24 4, ctl.testBit 28)
    let badSrc := decide (12 ≤ src / 256) || decide (groupEvents (src / 256) ≤ src % 256) ||
      (decide (scope < 8) && moduleOnly (src / 256))
    if !cmdTail c 16 || !cmdZ c 2 2 || !cmdZ c 9 7 || decide (8 < scope) || decide (31 < i) || decide (1 < clr) ||
        ctl.testBit 29 || ctl.testBit 31 || badSrc || ((ufilt || unit != 0) && !sourceIndexes src unit) then fail .badArg s
    else if !mayCount c scope s then fail .denied s
    else
      let set_ := fun (k : Counter) =>
        { k with src := BitVec.ofNat 12 src, en := ctl.testBit 12, afilt := ctl.testBit 13,
                 account := BitVec.ofNat 10 (ctl / 2 ^ 14), unit := BitVec.ofNat 4 unit, ufilt := ufilt,
                 ovf := k.ovf && !ctl.testBit 30, value := if clr == 1 then 0 else k.value, changed := true, dead := false }
      fail .ok ((countUnseen scope s).onCounters scope fun l => lmod l i set_)

/-- Bit i where a condition holds of counter i. -/
def counterBits (l : List Counter) (p : Counter → Bool) : Nat := (l.zipIdx.map fun x => if p x.1 then 2 ^ x.2 else 0).sum

/-- The record of a latch (R560). -/
def cntRecord (s : State) (scope : Nat) (clear : Bool) (seq : Nat) : Bytes :=
  let l := s.countersOf scope
  let div := if scope < 8 then s.chip.power.div.getD scope 0 else 0
  leBytes 1 scope ++ leBytes 1 div ++ leBytes 1 (if clear then 1 else 0) ++ [0] ++ leBytes 4 seq ++ leBytes 8 s.mtime.toNat ++
    leBytes 4 (counterBits l (·.ovf)) ++ leBytes 4 (counterBits l (·.changed)) ++ leBytes 4 (counterBits l (·.en)) ++
    leBytes 2 (min 0xFFFF (tgetD s.chip.missed scope 0)) ++ List.replicate 34 0 ++ l.flatMap fun k => leBytes 8 k.value.toNat

/-- A latch clears what CLEAR asks for (R560). -/
def latchClear (scope : Nat) (clear : Bool) (s : State) : State :=
  if clear then s.onCounters scope fun l => l.map fun k => { k with value := 0, ovf := false } else s

/-- A record of a scope has been written: CHANGED and MISSED start again (R560). -/
def recordWritten (scope : Nat) (s : State) : State :=
  let s := s.onCounters scope fun l => l.map fun k => { k with changed := false }
  { s with chip := { s.chip with missed := terase s.chip.missed scope } }

/-- CNT_SNAP (R560). -/
def execCntSnap (c : Cmd) (s : State) : Result State :=
  runCmd 0xA11 c s fun s =>
    let (scope, clear, a) := (cmdU c 0 1, cmdU c 1 1, cmdU c 8 8)
    if !cmdTail c 16 || !cmdZ c 2 6 || decide (8 < scope) || decide (1 < clear) || !addrOk a then fail .badArg s
    else if !mayCount c scope s then fail .denied s
    else
      let s := countUnseen scope s
      writeFor c a 320 s fun put =>
        fail .ok (latchClear scope (clear == 1) (recordWritten scope (put (cntRecord s scope (clear == 1) 0))))

/-- CNT_SAMPLE (R561). (Log entry 85, DEDUCED.) -/
def execCntSample (c : Cmd) (s : State) : Result State :=
  runCmd 0xA12 c s fun s =>
    let (scope, clear, period, a, n) := (cmdU c 0 1, cmdU c 1 1, cmdU c 4 4, cmdU c 8 8, cmdU c 16 4)
    let drop_ := fun (s : State) => { s with chip := { s.chip with samplers := terase s.chip.samplers scope } }
    let own := match s.dieOwner scope with
      | some p => s.ten.partRights.getD p none == some (cmdA c)
      | none => false
    let x : Sampler := ⟨cmdA c, clear == 1, period, a, n, 0, !(decide (scope < 8) && own)⟩
    if !cmdTail c 24 || !cmdZ c 2 2 || !cmdZ c 20 4 || decide (8 < scope) || decide (1 < clear) || decide (60000 < period) ||
        (period != 0 && (n == 0 || decide (65536 < n))) || !addrOk a then fail .badArg s
    else if !mayCount c scope s then fail .denied s
    else if period == 0 then fail .ok (drop_ s)
    else if !s.inAccount (cmdA c) a (320 * n) then fail .denied s
    else fail .ok { s with chip := { s.chip with samplers := tset s.chip.samplers scope x } }

/-- SAMPLE_LATCH: a sampler's time has come. While the module is in a low power state the sample is skipped, and one that cannot
be written is dropped; both count in MISSED; the write of a record waits for a host link (R383, R561, R567). (Log entry 86, DEDUCED.) -/
def execSampleLatch (scope : BitVec 4) (s : State) : Result State :=
  let k := scope.toNat
  match tget s.chip.samplers k with
  | none => .next s
  | some x =>
    let at_ := x.base + x.next % x.nrec * 320
    let put := fun (y : Sampler) (s : State) => { s with chip := { s.chip with samplers := tset s.chip.samplers k y } }
    let skip := fun (s : State) => put { x with next := x.next + 1 }
      { s with chip := { s.chip with missed := tset s.chip.missed k (tgetD s.chip.missed k 0 + 1) } }
    if s.chip.power.pstate != 0 then .next (skip s)
    else if s.hostWaits at_ then .next s
    else if s.hostDead at_ || s.rangeFails at_ 320 || !s.inAccount x.acct at_ 320 then .next (latchClear k x.clear (skip (countUnseen k s)))
    else
      let s := countUnseen k s
      let rec_ := cntRecord s k x.clear x.next
      .next (latchClear k x.clear (recordWritten k (put { x with next := x.next + 1 } (s.give x.acct at_ rec_))))

/-- CNT_CATALOG (R556). -/
def execCntCatalog (c : Cmd) (s : State) : Result State :=
  runCmd 0xA13 c s fun s =>
    let (g, a) := (cmdU c 0 1, cmdU c 8 8)
    let n := groupEvents g
    if !cmdTail c 16 || !cmdZ c 1 7 || decide (12 ≤ g) || !addrOk a then fail .badArg s
    else writeFor c a (16 * n) s fun put =>
      .done .ok (leBytes 2 n) (put ((List.range n).flatMap fun i => catalogBytes (256 * g + i)))

/-! ## Numerics monitors (R562 to R566) -/

/-- NUM_READ (R563). -/
def execNumRead (c : Cmd) (s : State) : Result State :=
  runCmd 0xA18 c s fun s =>
    if !cmdTail c 0 then fail .badArg s
    else .done .ok (leBytes 8 s.mtime.toNat ++ (s.acct (cmdA c)).num.flatMap fun m => leBytes 8 m.toNat) s

/-- The amax table that MODEL names, 0 being the account's (R566). -/
def amaxOf (s : State) (acct model : Nat) : Option (Tbl Amax) :=
  if model == 0 then some (s.acct acct).amax else (s.modelOf acct model).map (·.amax)

/-- An amax record (R566). -/
def amaxRecord (x : Nat × Amax) : Bytes :=
  leBytes 4 x.1 ++ leBytes 4 x.2.cur.toNat ++ leBytes 4 x.2.prev.toNat ++ leBytes 4 x.2.epoch.toNat

/-- NUM_AMAX_READ (R566). (Log entry 89, DEDUCED.) -/
def execNumAmaxRead (c : Cmd) (s : State) : Result State :=
  runCmd 0xA19 c s fun s =>
    let (m, first, n, a) := (cmdU c 0 2, cmdU c 4 4, cmdU c 8 4, cmdU c 16 8)
    if !cmdTail c 24 || !cmdZ c 2 2 || !cmdZ c 12 4 || n == 0 || decide (16384 < n) || !addrOk a then fail .badArg s
    else match amaxOf s (cmdA c) m with
      | none => fail .notFound s
      | some t => writeFor c a (16 * n) s fun put =>
        let rs := t.filter fun x => decide (first ≤ x.1) && decide (x.1 < first + n)
        .done .ok (leBytes 4 rs.length) (put (rs.flatMap amaxRecord))

/-- A resident package of the account names the model, 0 for MODEL 0. -/
def modelBusy (s : State) (acct model : Nat) : Bool :=
  s.pkgs.any fun p => p.id.acct.toNat == acct && p.model == model && p.resident

/-- NUM_AMAX_SET (R566). -/
def execNumAmaxSet (c : Cmd) (s : State) : Result State :=
  runCmd 0xA1A c s fun s =>
    let (m, tid, w) := (cmdU c 0 2, cmdU c 4 4, cmdU c 8 4)
    let put := fun (t : Tbl Amax) => tset t tid { tgetD t tid ⟨0, 0, 0⟩ with prev := BitVec.ofNat 32 w }
    if !cmdTail c 16 || !cmdZ c 2 2 || !cmdZ c 12 4 || decide (0x7F800000 ≤ w) then fail .badArg s
    else match amaxOf s (cmdA c) m with
      | none => fail .notFound s
      | some t =>
        if (tget t tid).isNone then fail .notFound s
        else if modelBusy s (cmdA c) m then fail .busy s
        else if m == 0 then fail .ok (s.onAcct (cmdA c) fun x => { x with amax := put x.amax })
        else match s.slotOf (cmdA c) m with
          | some k => fail .ok (s.onModel k fun x => { x with amax := put x.amax })
          | none => fail .notFound s

/-- NUM_AMAX_ROLL (R565). -/
def execNumAmaxRoll (c : Cmd) (s : State) : Result State :=
  runCmd 0xA1B c s fun s =>
    let t := (s.acct (cmdA c)).amax
    if !cmdTail c 0 then fail .badArg s
    else if modelBusy s (cmdA c) 0 then fail .busy s
    else
      let roll := fun (x : Nat × Amax) => (x.1, { x.2 with prev := x.2.cur, cur := 0 })
      .done .ok (leBytes 4 t.length) (s.onAcct (cmdA c) fun a => { a with amax := t.map roll })

/-- AMAX_ROLL: an entry of a model rolls once no package bound to an old epoch that names it is resident. The part's CUR goes to the job's
MAX, to which `others` is what other parts have sent; what a part that is not joined sends is discarded and counted (R411, R424, R565).
(Log entry 138, DEDUCED.) -/
def execAmaxRoll (slot : BitVec 6) (tid : Word) (others : List (BitVec 13 × Word)) (s : State) : Result State :=
  let k := slot.toNat
  match s.model k with
  | none => .next s
  | some m =>
    let t := tid.toNat
    let e := tgetD m.amax t ⟨0, 0, 0⟩
    let old := s.pkgs.any fun p => p.resident && p.model == m.map.num && p.id.acct.toNat == m.map.acct &&
      p.epoch != 0 && p.epoch.toNat != m.w.epoch && p.tensors.contains t
    if !m.unrolled.contains t || old then .next s
    else
      let joined := fun (x : BitVec 13 × Word) => (s.joinedBy m.map.job x.1).isSome
      let top := ((others.filter joined).map (·.2)).foldl wordMax e.cur
      let s := (others.filter fun x => !joined x).foldl (fun s _ => discardMsg s) s
      let s := match s.jobOf m.map.acct m.map.job with
        | some j => sendParts j 9 (leBytes 2 m.map.num ++ leBytes 4 t ++ leBytes 4 e.cur.toNat) s
        | none => s
      .next (s.onModel k fun x =>
        { x with amax := tset x.amax t ⟨0, top, BitVec.ofNat 64 x.w.epoch⟩, unrolled := x.unrolled.filter (· != t) })

end Sys2Proof.Machine
end

