-- ==== Sys2Proof/Machine/Units.lean ====
section
/-!
DEFINITION. The two views of a unit: fencing, reconciliation and loss (16 R500 to R505, 14 R449).
-/
namespace Sys2Proof.Machine

/-- The number of units of a kind (R500). -/
def unitCount (kind : Nat) : Nat := [0, 8, 128, 32, 4, 16, 64].getD kind 0

/-- The dies that a unit belongs to. -/
def unitDies (kind index : Nat) : List Nat :=
  match kind with
  | 1 => [index]
  | 2 => [index / 16]
  | 3 => [index / 4]
  | 4 => [2 * index, 2 * index + 1]
  | 5 => [index / 2]
  | _ => [index / 8]

/-- The partitions that hold a unit. -/
def unitParts (s : State) (kind index : Nat) : List Nat := ((unitDies kind index).filterMap s.dieOwner).dedup

/-- The functions told of a unit (R497). -/
def unitHears (s : State) (kind index : Nat) : List Nat :=
  let all := (unitParts s kind index).flatMap s.enabledOf
  all ++ s.ten.modRight.toList.filter fun a => !all.contains a

/-- A unit's record (R503). -/
def unitRecord (s : State) (kind index : Nat) : Bytes :=
  let u := s.unit kind index
  leBytes 1 kind ++ leBytes 1 index ++ leBytes 1 u.mgmt ++ leBytes 1 u.data ++ leBytes 1 u.mTag ++ leBytes 1 u.dTag ++
  leBytes 2 u.fences

/-- UNIT_QUERY (R488, R503). -/
def execUnitQuery (c : Cmd) (s : State) : Result State :=
  runCmd 0x103 c s fun s =>
    let (kind, first, n) := (cmdU c 0 1, cmdU c 1 1, cmdU c 2 1)
    let part := (s.acct (cmdA c)).quota.partition
    let own := (List.range n).all fun i => (unitParts s kind (first + i)).contains part
    if !cmdTail c 3 || n == 0 || decide (28 < n) || decide (unitCount kind < first + n) then fail .badArg s
    else if !own && !s.hasModRight (cmdA c) then fail .denied s
    else .done .ok ((List.range n).flatMap fun i => unitRecord s kind (first + i)) s

/-- STATE_CONFLICT is posted with an outcome (R497, R504). -/
def conflict (kind index outcome : Nat) (s : State) : State :=
  let u := s.unit kind index
  postAll (unitHears s kind index) 0xC .ok
    (leBytes 1 kind ++ leBytes 1 index ++ leBytes 1 u.mgmt ++ leBytes 1 u.data ++ leBytes 1 outcome) s

/-- A fenced core's descriptors stop at once, and their packages end with DATA_ERROR (R502). -/
def fenceCore (i : Nat) (s : State) : State :=
  let ids := (s.pkgs.filter fun p => p.resident && p.cores.contains i).map (·.id)
  let idle := fun (t : Thread) => { t with state := ThreadState.idle }
  let s := s.onCore i fun c => { c with tiles := [], prog := none, threads := c.threads.map idle, queue := [] }
  ids.foldl (fun s id => beginStop id .dataError s) s

/-- What a fence stops (R502). The failing of requests to a fenced unit and the waves of a decode group read the unit's record
where they need it. -/
def fenceEffects (kind index : Nat) (s : State) : State :=
  match kind with
  | 1 => (List.range 16).foldl (fun s c => fenceCore (16 * index + c) s) s
  | 2 => fenceCore index s
  | 4 => { s with led := { s.led with regs := lmod s.led.regs index fun _ => LedRegs.blank 0 0 } }
  | 6 => unroute index s
  | _ => s

/-- The two views disagree (R501). -/
def UnitRec.disagrees (u : UnitRec) : Bool :=
  (u.mgmt == 0 && u.data == 1) || (u.mgmt == 1 && u.data == 2) || u.mTag != u.dTag

/-- The unit's interface compares the two views on every change of either, and a disagreement fences the unit (R501, R502). -/
def compareViews (k i : Nat) (s : State) : State :=
  let u := s.unit k i
  if decide (2 ≤ u.mgmt) || !u.disagrees then s
  else
    let s := s.onUnit k i fun u => { u with mgmt := 2, fences := u.fences + 1, auto := true }
    conflict k i 0 (fenceEffects k i s)

/-- UNIT_FENCE: what the unit presents on the data path changes (R501, R502). -/
def execUnitFence (kind index data tag : BitVec 8) (s : State) : Result State :=
  let (k, i) := (kind.toNat, index.toNat)
  if s.off || decide (unitCount k ≤ i) || decide (3 ≤ data.toNat) then .next s
  else .next (compareViews k i (s.onUnit k i fun u => { u with data := data.toNat, dTag := tag.toNat }))

/-- A key of Q3 names a block of a shard on a Ledger die (R236). -/
def onLedger (s : State) (index key : Nat) : Bool :=
  match s.model (key / 2 ^ 52) with
  | some m => match m.map.shards[key / 2 ^ 32 % 2 ^ 20]? with
    | some x => (s.acctDies m.map.acct).getD x.die 8 / 2 == index
    | none => false
  | none => false

/-- Re-initialising a unit clears its state and wipes its memories as a PARTITION reset would, deposits among them; a Stream Engine loses
the wave that it runs (R437, R504, R528).
The half of a die's HBM channels that is a stack holds half of each of the die's arenas, which all go (log entry 36, DEDUCED). -/
def reinitUnit (kind index : Nat) (s : State) : State :=
  let arenas := fun (areas : List Nat) (dies : List Nat) (s : State) =>
    s.wipeWhere fun k => decide (2 ^ 60 ≤ k) && areas.contains ((k - 2 ^ 60) / 2 ^ 44 % 16) &&
      dies.contains (match s.model ((k - 2 ^ 60) / 2 ^ 48) with
        | some m => (s.acctDies m.map.acct).getD (keyDie k) 8
        | none => 8)
  match kind with
  | 1 =>
    let s := (List.range 16).foldl (fun s c => s.onCore (16 * index + c) fun _ => Core.reset) s
    arenas [0, 1, 2, 3, 4] [index] (s.wipeWhere fun k => inUnits (fun u => u.1 != 1 && u.2.1 == index) k || inCores index k)
  | 2 =>
    let s := s.onCore index fun _ => Core.reset
    s.wipeWhere fun k => inCores (index / 16) k && (k - coreSramBase) / 2 ^ 24 == index
  | 3 => s.models.foldl (fun s m =>
      if m.2.map.members.any fun e => (s.acctDies m.2.map.acct).getD (e / 4) 8 * 4 + e % 4 == index then stopWave m.1 s else s) s
  | 4 =>
    let s := loseDeposits (fun d => dieOf d.vbase == some (2 * index) || dieOf d.vbase == some (2 * index + 1)) s
    let s := { s with led := { s.led with q3 := s.led.q3.filter fun x => !onLedger s index x.1 } }
    arenas [5, 6, 7, 8, 9] [2 * index, 2 * index + 1] (s.wipeWhere (inUnits fun u => u.1 == 1 && u.2.1 / 2 == index))
  | 5 => arenas [0, 1, 2, 3, 4] [index / 2] (s.wipeWhere fun k =>
      inUnits (fun u => u.1 == 0 && u.2.1 == index / 2) k && k / 512 % 64 / 32 == index % 2)
  | _ => s

/-- A unit is lost: UNIT_LOST is raised, every partition that holds the unit is fenced, JOB_FAULT goes to every joined part of
its jobs, and MSTATE becomes FAULT (R449). (Log entry 78, DEDUCED.) -/
def loseUnit (kind index : Nat) (s : State) : State :=
  let parts := unitParts s kind index
  let tag := parts.headD 0xFF
  let s := postAll (unitHears s kind index) 0xA .ok (leBytes 1 kind ++ leBytes 1 index ++ leBytes 1 tag) s
  let s := s.onUnit kind index fun u => { u with mgmt := 1, data := 1 }
  let units := (parts.flatMap s.partDies).flatMap fun d => (1, d) :: (List.range 4).map fun m => (3, 4 * d + m)
  let fence := fun (s : State) (x : Nat × Nat) =>
    if (s.unit x.1 x.2).mgmt == 0 then fenceEffects x.1 x.2 (s.onUnit x.1 x.2 fun u => { u with mgmt := 2, fences := u.fences + 1 })
    else s
  let s := units.foldl fence (fenceEffects kind index s)
  let jobs := (parts.flatMap s.enabledOf).flatMap fun a => (s.jobsOf a).map (·.2)
  let tell := fun (s : State) (j : JobSlot) => (j.joined.filter fun n => n != j.part).foldl (fun s n => sendPart none j n 6 [] s) s
  sendHealth ((jobs.foldl tell s).onBeacon fun b => { b with mstate := .fault })

/-- UNIT_LOST: a compute die, a Ledger die or an HBM stack stops answering or fails (R449). -/
def execUnitLost (kind index : BitVec 8) (s : State) : Result State :=
  let (k, i) := (kind.toNat, index.toNat)
  if s.off || decide (unitCount k ≤ i) || !(k == 1 || k == 4 || k == 5) then .next s else .next (loseUnit k i s)

/-- The units that a PARTITION reset re-initialises: those of its dies, and a Ledger die whose two dies it holds (R528, R529). -/
def partUnits (s : State) (n : Nat) : List (Nat × Nat) :=
  let ds := s.partDies n
  ds.flatMap dieUnits ++ ((List.range 4).filter fun l => ds.contains (2 * l) && ds.contains (2 * l + 1)).map fun l => (4, l)

/-- A PARTITION reset of which no unit is RECONCILING any more is complete (R529). -/
def endPartResets (s : State) : State :=
  let ended := s.chip.power.partReset.filter fun n => (partUnits s n).all fun u => (s.unit u.1 u.2).mgmt != 3
  ended.foldl (fun s n => finishWait (.partition n) .ok []
    (s.onPower fun p => { p with partReset := p.partReset.filter (· != n) })) s

/-- RECONCILIATION: the reconciliation that Neriv starts on its own within 1 ms of a fence begins, the record then reading
RECONCILING; of a unit that is RECONCILING the reconciliation ends, and the unit is RECONCILED, RETIRED, or STILL_FENCED (R504,
log entry 166, DESIGN CHOICE). -/
def execReconciliation (kind index : BitVec 8) (passed : Bool) (data tag : BitVec 8) (s : State) : Result State :=
  let (k, i) := (kind.toNat, index.toNat)
  let u := s.unit k i
  if s.off || decide (unitCount k ≤ i) then .next s
  else if u.mgmt == 2 && u.auto then .next (s.onUnit k i fun u => { u with mgmt := 3, auto := false })
  else if u.mgmt != 3 then .next s
  else
    let s := reinitUnit k i s
    let own := match unitDies k i with
      | [d] => s.dieOwner d
      | d :: e :: _ => if s.dieOwner d == s.dieOwner e then s.dieOwner d else none
      | [] => none
    let s := s.onUnit k i fun u => { u with data := data.toNat, dTag := tag.toNat, mTag := own.getD 0xFF, mgmt := 0, auto := false }
    let out := if !passed then 2 else if (s.unit k i).disagrees then 3 else 1
    let s := s.onUnit k i fun u => { u with mgmt := if out == 1 then 0 else if out == 2 then 1 else 2 }
    let s := conflict k i out s
    let s := if out == 2 && (k == 1 || k == 4 || k == 5) then loseUnit k i s else s
    let s := if out == 2 then compareViews k i s else s
    let s := if out == 1 && k == 6 && (s.port i).state != .dark && (s.port i).state != .seeking then reroute i s else s
    .next (endPartResets (finishWait (.unit k i) .ok (leBytes 1 out) s))

/-- UNIT_RECONCILE (R505). -/
def execUnitReconcile (c : Cmd) (s : State) : Result State :=
  runCmd 0x104 c s fun s =>
    let (k, i) := (cmdU c 0 1, cmdU c 1 1)
    let may := s.hasModRight (cmdA c) || (unitParts s k i).any fun p => s.hasPartRight (cmdA c) p
    if !cmdTail c 2 || decide (unitCount k ≤ i) then fail .badArg s
    else if !may then fail .denied s
    else if (s.unit k i).mgmt == 3 then .wait (.unit k i) s
    else if (s.unit k i).mgmt == 2 then .wait (.unit k i) (s.onUnit k i fun u => { u with mgmt := 3 })
    else fail .refusedState s

end Sys2Proof.Machine
end

