-- ==== Sys2Proof/Machine/Resets.lean ====
section
/-!
DEFINITION. Resets of the module and of a partition, the coming and going of the input, and start-up (17 R526 to R532, 21 R588, 12
R376, R377, 18 R539).
-/
namespace Sys2Proof.Machine

/-! ## Barriers of a coordinator that is reset (R426) -/

/-- A coordinator whose partition is reset decides FAIL and sends that decision before the wipe; the other parts complete with
TIMEOUT (R42, R426). (Log entry 125, DEDUCED.) -/
def coordinatorFails (p : Nat) (s : State) : State :=
  match (s.movesOf p).running with
  | none => s
  | some o => match s.model o.slot, o.kind.barrier with
    | some m, some k =>
      if m.map.part != 0 || o.again || (barrierOf s m.map.job k o.inst).decision.isSome then s
      else decideWith (fun _ s => s) ⟨0, m.map.job, k, o.inst, false, BitVec.ofNat 8 Status.timeout.code, 0,
        BitVec.ofNat 32 noEntry, false, false, false⟩ s
    | _, _ => s

/-! ## The PARTITION reset (R528, R529) -/

/-- What a PARTITION reset ends with ABORTED beside packages and moving operations (R529). -/
def WaitKey.ofWork : WaitKey → Bool
  | .commit _ | .held _ | .secure _ | .seq _ | .seqPause _ | .drop _ | .package _ _ => true
  | .acctStop _ | .unit _ _ | .move _ | .power | .partition _ | .activate | .lifecycle | .enum => false

/-- Commands of accounts that wait for work of a partition complete with ABORTED. -/
def abortWaits (accts : List Nat) (s : State) : State :=
  let mine := fun (w : Waiting) => accts.contains (cmdA w.cmd) && w.key.ofWork
  let ws := s.mail.waiting.filter mine
  let s := { s with mail := { s.mail with waiting := s.mail.waiting.filter fun w => !mine w } }
  ws.foldl (fun s w => complete w.cmd w.opcode .aborted [] s) s

/-- The counters of a die return to their reset state and its sampler stops (R528, R567). -/
def resetCounters (die : Nat) (s : State) : State :=
  let s := s.onCounters die fun _ => List.replicate 32 Counter.reset
  let rem := s.chip.srcRem.filter fun x => x.1 % 16 != die
  { s with chip := { s.chip with samplers := terase s.chip.samplers die, missed := terase s.chip.missed die, srcRem := rem } }

/-- What a reset of a partition leaves of its jobs in the Clearing: its rounds and barriers go, but for a coordinator's FAIL decision, which
is repeated until every part acknowledges it (R425, R426, R428). -/
def dropFabricWork (accts : List Nat) (s : State) : State :=
  let jobs := accts.flatMap fun a => (s.jobsOf a).map fun x => x.2.job
  let owes := fun (b : Barrier) => match b.decision with
    | some d => !d.pass && (s.jobNamed b.job).any fun j => j.part == 0 && decide (b.acks.length + 1 < j.table.length)
    | none => false
  s.onFabric fun f =>
    { f with rounds := f.rounds.filter (fun r => !jobs.contains r.job),
             barriers := f.barriers.filter fun b => !jobs.contains b.job || owes b }

/-- Units of a partition go to RECONCILING, but for those that are out of service until repair (R504, R529). -/
def reconcileAll (n : Nat) (s : State) : State :=
  (partUnits s n).foldl (fun s u => if (s.unit u.1 u.2).mgmt == 1 then s else s.onUnit u.1 u.2 fun x => { x with mgmt := 3 }) s

/-- Steps 1 to 4 of a PARTITION reset, and the start of step 5, which RECONCILIATION ends unit by unit. What an account has under way ends
with ABORTED; where the account is being stopped, its stop procedure ends it with FUNCTION_DISABLED (R477, R529). -/
def resetPartition (n : Nat) (s : State) : State :=
  let accts := (List.range 1024).filter fun a => (s.acct a).quota.partition == n && (s.acct a).state != .none
  let going := accts.filter fun a => (s.acct a).state != .stopping
  let slots := accts.flatMap s.slotsOf
  let dies := s.partDies n
  let s := coordinatorFails n (beforeReset s)
  let s := loseDeposits (fun d => accts.contains d.acct) s
  let s := killPkgs (fun p => !going.contains p.id.acct.toNat) .aborted s
  let s := killPkgs (fun p => !accts.contains p.id.acct.toNat) .functionDisabled s
  let s := endMoves (fun o => slots.contains o.slot) .aborted s
  let s := dropFabricWork accts (abortWaits going s)
  let s := slots.foldl (fun s k => dropModel k s) s
  let s := s.onGens fun g =>
    { g with seqs := g.seqs.filter (fun x => !accts.contains x.2.acct), index := g.index.filter fun e => !accts.contains e.acct }
  let s := withdrawUnits (fun g => dies.contains g.die) (dies.foldl (fun s d => resetCounters d (wipeDie d s)) s)
  let s := { s with demand := s.demand.filter fun r => !dies.contains r.die.toNat && !accts.contains r.acct.toNat }
  let core := fun (x : Core × Nat) => if dies.contains (x.2 / 16) then Core.reset else x.1
  let block := fun (x : LedRegs × Nat) =>
    if dies.contains (2 * x.2) && dies.contains (2 * x.2 + 1) then LedRegs.blank 0 0 else x.1
  let s := { s with cores := s.cores.zipIdx.map core, led := { s.led with regs := s.led.regs.zipIdx.map block } }
  endPartResets (reconcileAll n (s.onPower fun p => { p with partReset := p.partReset ++ [n] }))

/-! ## COLD and WARM resets (R528) -/

/-- A storage key that a reset of the module does not wipe: band 1,535 of a die's HBM, and host memory (R528). -/
def survives (k : Nat) : Bool :=
  (decide (k < quarterBase) && decide (1535 ≤ k % 2 ^ 37 / 2 ^ 26)) || (decide (hostBase ≤ k) && decide (k < 2 ^ 60))

/-- What both kinds take away: memory outside band 1,535, the mailbox, models, packages, sequences, Ledger steps, Prefix Index
entries, deposit regions, job slots, counters and credit settings. -/
def loseWork (s : State) : State :=
  let s := withdrawUnits (fun _ => true) (s.wipeWhere fun k => !survives k)
  { s with svcTurn := [], demand := [], mail := Mail.reset, cores := List.replicate 128 Core.reset, pkgs := [], models := [],
           moves := List.replicate 8 ⟨none, []⟩, gens := { GenState.reset with domCtr := s.gens.domCtr },
           led := { LedgerState.reset with slots := s.led.slots, groups := s.led.groups },
           ft := { s.ft with deposits := [], partLost := [] },
           chip := { s.chip with hbmCred := List.replicate 8 Credits.hbm, vaultCred := List.replicate 8 Credits.vault,
                                 counters := List.replicate 9 (List.replicate 32 Counter.reset), samplers := [],
                                 missed := [], srcRem := [] } }

/-- An image is valid: its signature, digest and STEPPING are those of R535, and its SVN is at least the floor. The images that the module
was delivered with, whose bytes the spec does not give, are signed (R535, log entry 6, DESIGN CHOICE). -/
def Image.valid (floor : Nat) (i : Image) : Bool :=
  decide (floor ≤ i.svn) && (i.header.isEmpty || (fieldAt i.header 3 1 == 0xB0 && Config.sha384 i.body == (i.header.drop 0x10).take 48 &&
    Config.sigVerifies Config.vendorKey (i.header.take 128) ((i.header.drop 0x80).take 96)))

/-- The valid one of a stored copy and its mirror (R533). -/
def validCopy (floor : Nat) (a b : Option Image) : Option Image := ([a, b].filterMap id).find? (Image.valid floor)

/-- PREVIOUS, where it is valid, becomes CURRENT, is started, and the rejected copy is freed; a type with no valid copy is in recovery
(R539). -/
def FwType.fallBack (floor : Nat) (t : FwType) : FwType × Bool :=
  match validCopy floor t.prev t.prev2 with
  | some i => (FwType.keep i (some i) none, true)
  | none => ({ t with run := Image.none }, false)

/-- The image that the Keeper starts of a type: CURRENT where it is valid, else PREVIOUS (R539). -/
def FwType.start (floor : Nat) (t : FwType) : FwType × Bool :=
  match validCopy floor t.cur t.cur2 with
  | some i => ({ t with run := i }, true)
  | none => t.fallBack floor

/-- Firmware at a start: each type's image, recovery where a type has none, no activation, no nonce (R539, R545, R549). -/
def Firmware.start (f : Firmware) : Firmware :=
  let started := f.types.map (FwType.start f.floor)
  { f with types := started.map (·.1), recovery := started.any (fun x => !x.2), nonce := none, activation := none }

/-- An account through a WARM reset: state, quota and flags stay; its semaphores, numerics meters and amax table do not (R457, R528,
R562, R565). -/
def Account.warm (a : Account) : Account := { a with sems := [], num := List.replicate 13 0, amax := [] }

/-- An account with the Tally meters of another (R476). -/
def Account.keepMeters (a old : Account) : Account :=
  { a with tally := old.tally, copied := old.copied, copy := old.copy, energy := old.energy, hbmPageNs := old.hbmPageNs,
           vaultPageNs := old.vaultPageNs }

/-- The accounts after a COLD reset in a life-cycle state, with the meters kept (R456, R528). -/
def coldAccts (life : LifeCycle) (old : List Account) : List Account :=
  acctsCold.zipIdx.map fun x =>
    let a := if life == .owned then x.1 else { Account.fresh with causes := x.1.causes }
    a.keepMeters (old.getD x.2 Account.fresh)

/-- A die's memory health through a reset: spare rows, units out of service and Vault repairs stay (R349, R354, R367, R528).
(Log entry 81, DEDUCED.) -/
def DieMem.restart (cold : Bool) (m : DieMem) : DieMem :=
  { m with hbmRepairs := if cold then 0 else m.hbmRepairs }

/-- A unit through a reset: one that is out of service stays so until repair, any other serves again; fence counts go with COLD
(R504, R528). -/
def UnitRec.restart (cold : Bool) (u : UnitRec) : UnitRec :=
  let out := u.mgmt == 1
  { UnitRec.reset with mgmt := if out then 1 else 0, data := if out then 1 else 0, fences := if cold then 0 else u.fences }

/-- The fabric after a WARM reset: the address, duplicate darkness and routes stay (R398, R428, R528). -/
def Fabric.warm (f : Fabric) : Fabric := { f with enumSent := none, slots := [], rounds := [], barriers := [], joins := [] }

/-- Power after a WARM reset: P0, the bounds kept, protections that hold a unit still in force (R528, R532). A protection whose
condition has cleared is over, since every die that none holds runs within the bounds again. (Log entry 7, DESIGN CHOICE.) -/
def Power.warm (now : DWord) (p : Power) : Power :=
  let o := { p.override with lasers := [], leaving := [] }
  let b := p.staged.getD p.bounds
  let p := Power.stopClock now { p with override := o }
  { p with pstate := 0, target := none, exiting := false, wakeLatch := false, bounds := b, staged := none,
           div := (List.range 8).map (fun d => if o.holds d then 8 else b.divFast), rising := [],
           chosen := p.chosen.map fun x => (x.1, b.divFast), headroom := [], inputs := [],
           arrBusy := List.replicate 8 0, vecBusy := List.replicate 8 0, resetting := some .warm, partReset := [],
           mailboxReady := false }

/-- A port after a COLD reset: a laser fault stays until repair, a port that PORT_ENABLE has darkened until it is enabled, and DARK_NS
names the reset's darkness (R376, R390, R391). -/
def Port.cold (p : Port) : Port :=
  { Port.reset with causes := 5 :: p.causes.filter (fun c => c == 2 || c == 6), darkNs := p.darkNs }

/-- A port through a WARM reset: the power state and an activation hold it dark no more (R376). -/
def Port.warm (p : Port) : Port := { p with causes := p.causes.filter fun c => c != 1 && c != 4 }

/-- A host link after a reset: virtual functions exist after a WARM reset as before (R531). -/
def HostLink.restart (cold : Bool) (l : HostLink) : HostLink := { HostLink.reset with numVfs := if cold then 0 else l.numVfs }

/-- The chip after a COLD reset. -/
def Chip.toCold (c : Chip) : Chip :=
  { c with dieMem := c.dieMem.map (DieMem.restart true), units := (c.units.map fun u => (u.1, u.2.restart true)).filter fun u => u.2 != UnitRec.reset,
           links := c.links.map (HostLink.restart true), ports := c.ports.map Port.cold, power := { Power.cold with droops := c.power.droops },
           fw := c.fw.start, beacon := Beacon.reset, fabric := Fabric.reset, noc := Noc.reset }

/-- The chip after a WARM reset. -/
def Chip.toWarm (now : DWord) (c : Chip) : Chip :=
  { c with dieMem := c.dieMem.map (DieMem.restart false), units := c.units.map fun u => (u.1, u.2.restart false),
           links := c.links.map (HostLink.restart false), ports := c.ports.map Port.warm, power := c.power.warm now,
           fw := c.fw.start, fabric := c.fabric.warm, noc := Noc.reset }

/-- The state that a COLD reset leaves, in the life-cycle state that the fuses hold. -/
def coldState (s : State) : State :=
  let s := loseWork s
  { s with chip := s.chip.toCold, led := LedgerState.reset, ft := { s.ft with risk := List.replicate 6 0 },
           ten := { Tenancy.cold with accts := coldAccts s.chip.fw.lifecycle s.ten.accts, gaps := s.ten.gaps } }

/-- The state that a WARM reset leaves. (Log entry 124, DEDUCED.) -/
def warmState (s : State) : State :=
  let s := loseWork s
  { s with chip := s.chip.toWarm s.mtime, ten := { s.ten with accts := s.ten.accts.map Account.warm } }

/-- Ports go dark with CAUSE 0x05; those dark for another cause hold that one too, and protections of lasers end with the light (R376,
R525). -/
def darkenForReset (s : State) : State :=
  ((List.range 68).foldl (fun s p => darken p 5 s) s).onPower fun p =>
    Power.stopClock s.mtime { p with override := { p.override with lasers := [] } }

/-- The HEALTH frame of a reset carries RESETTING and the time until start-up relights the ports (R377, R394, R530).
(Log entry 126, DEDUCED.) -/
def healthResetting (ms : Nat) (s : State) : State :=
  sendHealth (s.onBeacon fun b => { b with mstate := .resetting, expect := ms })

/-- What goes ahead of a reset of the module by command: coordinators' decisions and DEPOSIT_LOST (R426, R437). -/
def announceReset (s : State) : State :=
  loseDeposits (fun _ => true) ((List.range 8).foldl (fun s p => coordinatorFails p s) s)

/-- A COLD or WARM reset by command: the Tally is copied, the HEALTH frame sent, and the reset takes effect (R527). -/
def resetModule (k : ResetKind) (s : State) : State :=
  let s := darkenForReset (announceReset (copyTally s))
  match k with
  | .cold => coldState (healthResetting 9000 s)
  | .warm => warmState (healthResetting 2500 s)

/-- Every sensor reads below its limit (R587, R588). -/
def Power.cool (p : Power) : Bool :=
  p.override.dies.isEmpty && p.override.ledgers.isEmpty && p.override.hbm.isEmpty && p.override.lpddr.isEmpty && p.override.lasers.isEmpty

/-- The COLD reset that follows a loss of the input or a trip. Module time starts at 0 after a loss of power, as do the times of what went
dark before, and GAPS rises (R476, R508, R526). (Log entry 127, DEDUCED.) -/
def coldStart (s : State) : State :=
  let gaps := if s.ten.gaps == 0xFFFF then s.ten.gaps else s.ten.gaps + 1
  let s := { s with ten := { s.ten with gaps := gaps } }
  let zero := fun (s : State) =>
    { s with mtime := 0, chip := { s.chip with ports := s.chip.ports.map fun p => { p with darkNs := 0 } } }
  coldState (if s.chip.power.inputPresent then s else zero s)

/-- PWR_RESET; the COLD reset that brings a module back from a trip, once every sensor reads below its limit, needs no mailbox, which is off
(R526, R527, R588, log entry 127, DEDUCED). -/
def execPwrReset (c : Cmd) (s : State) : Result State :=
  let (kind, n) := (cmdU c 0 1, cmdU c 1 1)
  if s.chip.power.tripped && s.chip.power.inputPresent then
    .next (if cmdTail c 2 && kind == 2 && n == 0 && s.chip.power.cool then coldStart s else s)
  else runCmd 0x804 c s fun s =>
    let all := s.hasModRight (cmdA c)
    if !cmdTail c 2 || kind == 0 || decide (3 < kind) || decide (7 < n) || (kind != 3 && n != 0) then fail .badArg s
    else if !(all || (kind == 3 && s.hasPartRight (cmdA c) n)) then fail .denied s
    else if kind == 1 then .gone (resetModule .warm s)
    else if kind == 2 then .gone (resetModule .cold s)
    else if (s.partDies n).isEmpty then fail .refusedState s
    else if s.chip.power.partReset.contains n then fail .busy s
    else
      let s := resetPartition n s
      if s.chip.power.partReset.contains n then .wait (.partition n) s else fail .ok s

/-! ## The input and trips (R526, R588) -/

/-- The module stops at once: its ports go dark, what remains is what a COLD reset keeps, and each account's meters are those of the last
copy (R376, R476, R526). No start-up runs. -/
def powerOff (s : State) : State :=
  let s := darkenForReset s
  let s := coldState { s with ten := { s.ten with accts := s.ten.accts.map Account.reload } }
  let s := { s with ft := { s.ft with corrected := [], detected := [], retrains := [], retired := [], laserDark := none } }
  s.onPower fun p => { p with resetting := none, droops := [] }

/-- POWER_INPUT_LOSS (R526). -/
def execPowerInputLoss (s : State) : Result State :=
  if !s.chip.power.inputPresent then .next s
  else .next ((powerOff s).onPower fun p => { p with inputPresent := false })

/-- THERMAL_TRIP: every domain but ALWAYS_ON is off; the Beacon goes on with MSTATE FAULT until the next COLD reset, and which sensors
have reached their limits stays known (R588). -/
def execThermalTrip (s : State) : Result State :=
  if !s.chip.power.inputPresent || s.chip.power.tripped then .next s
  else
    let hot := { s.chip.power.override with current := false, leaving := [] }
    let t := (powerOff s).onPower fun p => { p with tripped := true, override := hot }
    let t := t.onFabric fun f => { f with addr := s.chip.fabric.addr }
    .next (sendHealth (t.onBeacon fun _ => { s.chip.beacon with mstate := .fault, expect := 0xFFFF }))

/-- POWER_INPUT_ENTER: a COLD reset starts when the input has come back after a loss, or when the module has tripped and every sensor
reads below its limit (R526, R588). (Log entry 127, DEDUCED.) -/
def execPowerInputEnter (s : State) : Result State :=
  let p := s.chip.power
  .next (if p.inputPresent && (!p.tripped || !p.cool) then s else coldStart s)

/-! ## Start-up (R530, R531) -/

/-- The Strongbox but for the firmware copies and the directory is erased: checkpoints, sequence numbers, Tally copies and key material
(R550). -/
def eraseStrongbox (s : State) : State :=
  let blank := fun (a : Account) => a.keepMeters Account.fresh
  let s := s.onFw fun f => { f with lock := false, nonce := none }
  { s with ft := { s.ft with ckpts := [], sent := [], seqnos := [] }, ten := { s.ten with gaps := 0, accts := s.ten.accts.map blank } }

/-- At every start-up the Keeper finishes a wipe whose start fuse is blown and whose done fuse is not (R550). -/
def finishWipe (s : State) : State :=
  let f := s.chip.fw
  if f.startFuse && !f.doneFuse then
    (eraseStrongbox s).onFw fun f => { f with doneFuse := true, changing := false }
  else s

/-- READY is set on every function that exists on its port (R531). (Log entry 120, DEDUCED.) -/
def readyAll (s : State) : State :=
  let set := fun (x : Func × Nat) => if s.fnExists x.2 then { x.1 with ready := true } else x.1
  { s with mail := { s.mail with funcs := s.mail.funcs.zipIdx.map set } }

/-- What MSTATE FAULT reports: recovery, a duplicate address, a trip, and a compute die, Ledger die or HBM stack out of service (R403,
R449, R539, R588). (Log entry 123, DEDUCED.) -/
def State.faulty (s : State) : Bool :=
  s.chip.fw.recovery || s.chip.fabric.duplicate || s.chip.power.tripped ||
  s.chip.units.any fun u => u.2.mgmt == 1 && (u.1 / 256 == 1 || u.1 / 256 == 4 || u.1 / 256 == 5)

/-- HEALTH frames carry RUN, or FAULT while something is at fault, and nothing dark is expected to relight. -/
def backToRun (s : State) : State :=
  sendHealth (s.onBeacon fun b => { b with mstate := if s.faulty then .fault else .run, expect := 0xFFFF })

/-- The Keeper falls back for one type (R539). -/
def fallBack (s : State) (type : BitVec 2) : State :=
  let r := (s.fwType type.toNat).fallBack s.chip.fw.floor
  if decide (s.chip.fw.types.length ≤ type.toNat) then s
  else s.onFw fun f => { f with types := lmod f.types type.toNat fun _ => r.1, recovery := f.recovery || !r.2 }

/-- The types whose CURRENT copy did not report ready in time at this start-up, by a free value, and again those whose PREVIOUS copy then
did not either (R539, log entry 164, DESIGN CHOICE). -/
def lateTypes (v : DWord) : List (BitVec 2) :=
  let late := [0, 1, 2].filter fun (t : BitVec 2) => v.getLsbD t.toNat
  late ++ late.filter fun t => v.getLsbD (t.toNat + 3)

/-- MAILBOX_READY: start-up reaches mailbox-ready: types whose CURRENT copy did not report ready in time have fallen back, ports are
lit, READY is set, the module's right assigned, and HEALTH frames go out (R458, R530, R531, R539). -/
def execMailboxReady (s : State) : Result State :=
  if s.chip.power.resetting.isNone then .next s
  else
    let (v, s) := s.free
    let s := (lateTypes v).foldl fallBack (finishWipe s)
    let s := s.onPower fun p => { p with resetting := none, mailboxReady := true }
    .next (backToRun (assignRight (readyAll (retag (relightAll 5 s)))))

end Sys2Proof.Machine
end

