-- ==== Sys2Proof/Machine/Firmware.lean ====
section
/-!
DEFINITION. Firmware images, their activation, the floor and the lock, and the life cycle (18 R533 to R551, 12 R374).
-/
namespace Sys2Proof.Machine

/-! ## Images (R533 to R538) -/

/-- The largest body of an image type in bytes (R533). -/
def bodyMax (type : Nat) : Nat := [0, 16, 8, 4].getD type 0 * 2 ^ 20

/-- The header of an image of `len` bytes obeys R535 but for its digest, signature and security floor (R537). -/
def headerOk (h : Bytes) (len : Nat) : Bool :=
  let u := fieldAt h
  let (type, n) := (u 2 1, u 0xC 4)
  u 0 2 == 1 && decide (1 ≤ type) && decide (type ≤ 3) && u 3 1 == 0xB0 && u 4 4 != 0 && decide (u 8 2 ≤ 64) &&
  u 0xA 2 == 0 && zeroAt h 0x40 64 && zeroAt h 0xE0 32 && n % 64 == 0 && decide (64 ≤ n) && decide (n ≤ bodyMax type) &&
  len == 256 + n

/-- An image write, an activation or a life-cycle change is in progress (R537). -/
def Firmware.busy (f : Firmware) : Bool := f.activation.isSome || f.changing

/-- The module is moving, or a protection override is in force (R537). -/
def State.unsettled (s : State) : Bool := s.moving || s.chip.power.override.any

/-- Change the record of a firmware type: 0 NERIV, 1 LEDGER, 2 OPTICS. -/
def State.onFwType (s : State) (t : Nat) (f : FwType → FwType) : State := s.onFw fun x => { x with types := lmod x.types t f }

/-- A new image is programmed in both mirrors; it is CURRENT, the old CURRENT is PREVIOUS, and the old PREVIOUS is freed (R538). -/
def FwType.store (t : FwType) (i : Image) : FwType := { t with cur := some i, prev := t.cur, cur2 := some i, prev2 := t.cur2 }

/-- FW_WRITE (R537, R538). (Log entry 122, DEDUCED.) -/
def execFwWrite (c : Cmd) (s : State) : Result State :=
  runCmd 0x901 c s fun s =>
    let (a, n) := (cmdU c 0 8, cmdU c 8 4)
    let h := s.read a 256
    let (type, svn, version) := (fieldAt h 2 1, fieldAt h 8 2, fieldAt h 4 4)
    let lost := s.readFails a n
    if !cmdTail c 12 || !addrOk a || decide (n < 320) then fail .badArg s
    else if !s.hasModRight (cmdA c) then fail .denied s
    else if !inHostSpace (cmdA c) a n then fail .denied s
    else if s.hostWaits a then .hold
    else if !lost && !headerOk h n then fail .badArg s
    else if s.chip.fw.lock then fail .denied s
    else if s.chip.fw.busy then fail .busy s
    else if s.unsettled then fail .refusedState s
    else if lost || Config.sha384 (s.read (a + 256) (n - 256)) != (h.drop 0x10).take 48 then fail .dataError s
    else if !Config.sigVerifies Config.vendorKey (h.take 128) ((h.drop 0x80).take 96) then fail .denied s
    else if decide (svn < s.chip.fw.floor) then fail .denied s
    else
      let i : Image := ⟨h, s.read (a + 256) (n - 256), BitVec.ofNat 32 version, svn⟩
      .done .ok (leBytes 1 type ++ [0] ++ leBytes 2 svn ++ leBytes 4 version) (s.onFwType (type - 1) (FwType.store · i))

/-! ## Activation (R542 to R544) -/

/-- The port groups in the order in which their optics activate: HG1 goes before HG0 where the command came through HG0 (R374). -/
def opticsOrder (acct : Nat) : List Nat := List.range 8 ++ if portOf acct < 2 then [9, 8] else [8, 9]

/-- Change the activation in progress. -/
def State.onActivation (s : State) (f : Activation → Activation) : State :=
  s.onFw fun x => { x with activation := x.activation.map f }

/-- A group goes dark with CAUSE 0x04 behind its HEALTH frame with EXPECT_MS 2,500; ports dark for another cause stay so (R376, R377,
R543). -/
def darkenGroup (g : Nat) (s : State) : State :=
  darkenAll (groupPorts g) 4 (s.onBeacon fun b => { b with expect := 2500 })

/-- A group is lit again. -/
def relightGroup (g : Nat) (s : State) : State :=
  let s := (groupPorts g).foldl (fun s p => relight p 4 s) s
  sendHealth (s.onBeacon fun b => { b with expect := 0xFFFF })

/-- The unit of the type that is next starts its new image: OPTICS darkens its first group, NERIV pauses every mailbox (R487, R543). -/
def beginType (s : State) : State :=
  match s.chip.fw.activation with
  | none => s
  | some x =>
    let t := x.left.headD 0
    let s := s.onActivation fun a => { a with old := (s.fwType t).run, groupsDone := [] }
    if t == 2 then darkenGroup (x.groups.headD 0) s
    else if t == 0 then { s with mail := { s.mail with funcs := s.mail.funcs.map fun f => { f with paused := true } } }
    else s

/-- The bits of firmware types in TYPES and ACTIVATED (R536). -/
def typeBits (ts : List Nat) : Nat := (ts.map (2 ^ ·)).sum

/-- The activation ends, and its command completes (R543, R544). -/
def endActivation (st : Status) (failed : Nat) (s : State) : State :=
  let done := match s.chip.fw.activation with
    | some x => x.done
    | none => []
  let s := backToRun (s.onFw fun x => { x with activation := none })
  finishWait .activate st (leBytes 1 (typeBits done) ++ leBytes 1 failed) s

/-- The type in progress runs its new image, and the next type follows (R543). -/
def typeDone (s : State) : State :=
  match s.chip.fw.activation with
  | none => s
  | some x =>
    let run := fun (t : FwType) => { t with run := t.cur.getD t.run }
    let s := s.onFwType (x.left.headD 0) run
    let s := s.onActivation fun a => { a with done := a.done ++ a.left.take 1, left := a.left.drop 1 }
    if x.left.length ≤ 1 then endActivation .ok 0 s else beginType s

/-- The image that ran before is CURRENT again (R544). -/
def FwType.revert (t : FwType) (old : Image) : FwType :=
  FwType.keep old (some old) (if t.prev == some old then none else t.prev)

/-- The type in progress fails: its unit runs the old image, and no later group or type is activated (R544).
(Log entry 128, DEDUCED.) -/
def typeFails (s : State) : State :=
  match s.chip.fw.activation with
  | none => s
  | some x =>
    let t := x.left.headD 0
    let s := s.onFwType t (FwType.revert · x.old)
    endActivation .dataError (t + 1) (if t == 2 then relightGroup (x.groups.headD 0) s else s)

/-- FW_ACTIVATE (R542, R543). -/
def execFwActivate (c : Cmd) (s : State) : Result State :=
  runCmd 0x902 c s fun s =>
    let types := cmdU c 0 1
    let stale := fun (t : Nat) => types.testBit t && (s.fwType t).cur != some (s.fwType t).run
    let left := [1, 2, 0].filter stale
    if !cmdTail c 1 || types == 0 || decide (8 ≤ types) then fail .badArg s
    else if !s.hasModRight (cmdA c) then fail .denied s
    else if s.chip.fw.lock then fail .denied s
    else if s.chip.fw.busy then fail .busy s
    else if s.unsettled then fail .refusedState s
    else if left.isEmpty then fail .alreadyDone s
    else
      let x : Activation := ⟨left, [], opticsOrder (cmdA c), [], Image.none⟩
      let s := s.onFw fun f => { f with activation := some x }
      .wait .activate (beginType (sendHealth (s.onBeacon fun b => { b with mstate := .maintenance })))

/-- FIRMWARE_READY: the image of the LEDGER or NERIV type in progress reports ready, or the image of any type does not in time and
the old one restarts (R543, R544). The groups of OPTICS end with OPTICS_GROUP_RELIT. -/
def execFirmwareReady (ok : Bool) (s : State) : Result State :=
  match s.chip.fw.activation with
  | none => .next s
  | some x => .next (if !ok then typeFails s else if x.left.headD 0 == 2 then s else typeDone s)

/-- OPTICS_GROUP_RELIT: a group is lit under its new image; the next group goes dark, or the type is done (R374, R543). -/
def execOpticsGroupRelit (s : State) : Result State :=
  match s.chip.fw.activation with
  | none => .next s
  | some x =>
    if x.left.headD 0 != 2 then .next s
    else
      let s := relightGroup (x.groups.headD 0) s
      let s := s.onActivation fun a => { a with groups := a.groups.drop 1, groupsDone := a.groupsDone ++ a.groups.take 1 }
      .next (match x.groups.drop 1 with
        | [] => typeDone s
        | g :: _ => darkenGroup g s)

/-! ## The record, the floor and the lock (R540, R541, R546) -/

/-- The entry of a type in the firmware record (R546). -/
def fwEntry (floor : Nat) (t : FwType) : Bytes :=
  let v := fun (i : Option Image) => match i with
    | some i => leBytes 4 i.version.toNat
    | none => leBytes 4 0
  let flag := fun (b : Bool) (n : Nat) => if b then n else 0
  leBytes 4 t.run.version.toNat ++ v t.cur ++ v t.prev ++ leBytes 2 t.run.svn ++
    leBytes 1 (flag (validCopy floor t.cur t.cur2).isSome 1 + flag (validCopy floor t.prev t.prev2).isSome 2 + flag (t.cur.isSome && t.cur != some t.run) 4) ++ [0]

/-- FWSTATE (R546). -/
def Firmware.stateCode (f : Firmware) : Nat := if f.recovery then 3 else if f.activation.isSome then 2 else 0

/-- The firmware record (R546). -/
def fwRecord (s : State) : Bytes :=
  let f := s.chip.fw
  padTo 64 ((List.range 3).flatMap (fun t => fwEntry f.floor (s.fwType t)) ++ leBytes 2 f.floor ++
    leBytes 1 (if f.lock then 1 else 0) ++ leBytes 1 f.stateCode ++ leBytes 1 f.lifecycle.code ++ leBytes 1 f.claims)

/-- FW_QUERY (R546). -/
def execFwQuery (c : Cmd) (s : State) : Result State :=
  runCmd 0x903 c s fun s => if !cmdTail c 0 then fail .badArg s else .done .ok (fwRecord s) s

/-- FW_FLOOR_RAISE (R540). -/
def execFwFloorRaise (c : Cmd) (s : State) : Result State :=
  runCmd 0x904 c s fun s =>
    let n := cmdU c 0 2
    let above := fun (t : FwType) => decide (t.run.svn < n) || match t.cur with
      | some i => decide (i.svn < n)
      | none => false
    if !cmdTail c 2 || n == 0 || decide (64 < n) then fail .badArg s
    else if !s.hasModRight (cmdA c) then fail .denied s
    else if s.chip.fw.lock then fail .denied s
    else if decide (n ≤ s.chip.fw.floor) then fail .alreadyDone s
    else if s.chip.fw.types.any above then fail .refusedState s
    else .done .ok (leBytes 2 n) (s.onFw fun f => { f with floor := n })

/-- FW_LOCK (R541). -/
def execFwLock (c : Cmd) (s : State) : Result State :=
  runCmd 0x905 c s fun s =>
    if !cmdTail c 0 then fail .badArg s
    else if !s.hasModRight (cmdA c) then fail .denied s
    else if s.chip.fw.lifecycle != .owned then fail .refusedState s
    else if s.chip.fw.lock then fail .alreadyDone s
    else fail .ok (s.onFw fun f => { f with lock := true })

/-! ## The life cycle (R547 to R551) -/

/-- LC_NONCE: a fresh nonce (R549). -/
def execLcNonce (c : Cmd) (s : State) : Result State :=
  runCmd 0x906 c s fun s =>
    let v := Config.nonce s.freeCtr
    if !cmdTail c 0 then fail .badArg s
    else .done .ok (leBytes 8 v.toNat) ({ s with freeCtr := s.freeCtr + 1 }.onFw fun f => { f with nonce := some v })

/-- The state that an action leads to from a state, and whether the vendor key, the installed owner key or the key in the token signs
(R548). -/
def transition (act : Nat) (life : LifeCycle) (token : Bytes) (owner : Bytes) : Option (LifeCycle × Bytes) :=
  match act, life with
  | 1, .manufactured => some (.provisioned, Config.vendorKey)
  | 2, .provisioned => some (.owned, (token.drop 0x20).take 96)
  | 3, .owned => some (.provisioned, owner)
  | 4, .owned => some (.decommissioned, owner)
  | 4, .provisioned => some (.decommissioned, Config.vendorKey)
  | 5, .owned => some (.owned, owner)
  | _, _ => none

/-- A token's reserved fields are zero, OWNER_KEY among them but for CLAIM (R549). -/
def tokenOk (t : Bytes) : Bool :=
  fieldAt t 0 2 == 1 && zeroAt t 3 5 && zeroAt t 0x18 8 && zeroAt t 0xE0 32 && (fieldAt t 2 1 == 2 || zeroAt t 0x20 96)

/-- A change of life-cycle state: accounts stop, HEALTH carries RESETTING, the new state is fused, everything is wiped but what R551
keeps, and a COLD start begins in the new state (R550, R551). The done fuse is blown as that start ends. -/
def changeLife (act : Nat) (to_ : LifeCycle) (key : Bytes) (s : State) : State :=
  let busy := (List.range 1024).filter fun fn => (s.mail.waiting.any fun w => cmdA w.cmd == fn) ||
    (s.mail.heldWake.any fun t => cmdA t.cmd == fn) || !((s.func fn).taken ++ (s.func fn).fwQueue).isEmpty
  let s := busy.foldl (fun s fn => finishAll fn .functionDisabled s) (announceReset s)
  let s := healthResetting 0xFFFF (darkenForReset s)
  let s := s.onFw fun f =>
    { f with lifecycle := to_, startFuse := true, doneFuse := false, changing := true, lock := false,
             claims := if act == 2 then f.claims - 1 else f.claims,
             ownerKey := if act == 2 then key else List.replicate 96 0 }
  coldState (eraseStrongbox s)

/-- LC_CHANGE (R548 to R551). (Log entry 129, DEDUCED.) -/
def execLcChange (c : Cmd) (s : State) : Result State :=
  runCmd 0x907 c s fun s =>
    let a := cmdU c 0 8
    let t := s.read a 256
    let act := fieldAt t 2 1
    let f := s.chip.fw
    if !cmdTail c 8 || !addrOk a then fail .badArg s
    else if !inHostSpace (cmdA c) a 256 then fail .denied s
    else readHeld a 256 s (fail .dataError) <|
      if !tokenOk t then fail .badArg s
      else match transition act f.lifecycle t f.ownerKey with
        | none => fail .badArg s
        | some (to_, key) =>
          let named := fieldAt t 8 8 == Config.serial.toNat && f.nonce == some (BitVec.ofNat 64 (fieldAt t 0x10 8))
          if !named || !Config.sigVerifies key (t.take 128) ((t.drop 0x80).take 96) then fail .denied s
          else if act == 2 && f.claims == 0 then fail .noResource s
          else if f.busy then fail .busy s
          else if s.moving then fail .refusedState s
          else if act == 5 then fail .ok (s.onFw fun f => { f with lock := false, nonce := none })
          else .gone (changeLife act to_ key s)

end Sys2Proof.Machine
end

