-- ==== Sys2Proof/Machine/SeqCmds.lean ====
section
/-!
DEFINITION. Waves and their commits, the expiries, parks and restores of sequences, and the commands of family 0x05 (08 R251
to R283, 09 R306 to R310).
-/
namespace Sys2Proof.Machine

/-! ## Waves (R271 to R279) -/

/-- Bind one sequence of a wave: its pending drafts are taken, its pages drawn and the slots of its inputs tagged TENTATIVE
(R277, R290, R295). -/
def bindSeq (m : Model) (i : Nat) (s : State) : State :=
  match s.seq i with
  | none => s
  | some q =>
    let n := q.pos - 1 + q.drafts.length
    let s := s.onSeq i fun q => { q with drafts := [] }
    tagSlots i (q.pos - 1) (n + 1) 1 (drawPages i (n / m.kv.ptok + 1) s)

/-- WAVE_START: the next wave of the frame binds the current epoch, or its sequences' pinned epoch, and takes their drafts
(R271, R277, R279). A closed wave barrier, a group or an account that does not serve, and a low power state hold it (R283, R333). -/
def execWaveStart (slot : BitVec 6) (s : State) : Result State :=
  let k := slot.toNat
  match s.model k with
  | none => .next s
  | some m => match m.gen.waves with
    | [] => .next s
    | w :: rest =>
      if m.gen.running.isSome || m.w.waveShut || !m.w.gencopy || !groupServes s m || !s.acctServes m.map.acct ||
          s.chip.power.pstate != 0 then .next s
      else
        let live := w.seqs.filterMap fun x => match s.seq x.1 with
          | some q => if q.state == .decode && !q.pausing then some (x.1, q) else none
          | none => none
        let pin := fun (q : Seq) => q.pinned.getD m.w.epoch
        let epoch := match live with
          | [] => m.w.epoch
          | x :: _ => pin x.2
        let live := live.filter fun x => pin x.2 == epoch
        let wave : Wave := ⟨live.map fun x => (x.1, x.2.drafts), epoch⟩
        let s := live.foldl (fun s x => bindSeq m x.1 s) s
        .next (s.onModel k fun m =>
          { m with gen := { m.gen with waves := rest, running := if wave.seqs.isEmpty then none else some wave } })

/-- How one sequence of a wave fares at the commit point: what it delivers, and how it ends (R273, R276, R283). -/
structure StepEnd where
  seq  : Nat
  recs : List Bytes
  fin  : Option (SeqState × Nat)
  deriving DecidableEq, Repr

/-- The step of one sequence at its commit point: weights that fail their check after the retries fault every sequence of the wave,
and KV that fails faults its sequence (R253, R273, R277, R283). (Log entry 60, DEDUCED.) (Log entry 61, DEDUCED.) -/
def commitSeq (slot : Nat) (m : Model) (epoch : Nat) (weights bad : Bool) (i : Nat) (drafts : List (Nat × Word)) (s : State) :
    State × Option StepEnd :=
  match s.seq i with
  | none => (s, none)
  | some q =>
    let (read, s) := s.engineRead .stream q.acct (s.kvSpots q)
    if !weights then (s, some ⟨i, [], some (.faulted, 9)⟩)
    else if bad || !read then (dropHeld q s, some ⟨i, [], some (.faulted, 9)⟩)
    else
      let die := (s.acctDies q.acct).getD (q.home / 4) 0
      let (s, toks, cs) := stepTokens slot m epoch q drafts s
      let s := countConds q.acct die none cs s
      match toks with
      | none => (s.num q.acct 6 1, some ⟨i, [], some (.faulted, 0xA)⟩)
      | some ts =>
        let taken := ((q.deliver q.gen ts).filter fun t => t.1.draft).length
        let s := s.onSeq i fun q => { q with specRej := q.specRej + (drafts.length - taken) }
        let (s, recs, cause) := commitStep i (q.pos - 1) ts epoch false s
        (s, some ⟨i, recs, cause.map fun c => (SeqState.done, c)⟩)

/-- What follows the records of a wave for one sequence: its end, or the pause that waited for its step (R273, R280). -/
def settleSeq (e : StepEnd) (s : State) : State :=
  match e.fin with
  | some (st, c) => endSeq e.seq st c s
  | none => match s.seq e.seq with
    | none => s
    | some q =>
      if q.pausing then
        finishWait (.seqPause e.seq) .ok [] (setSeqState e.seq .paused (s.onSeq e.seq fun q => { q with pausing := false }))
      else s

/-- WAVE_COMMIT: the steps of the running wave commit at one point, in ascending HANDLE order; the records are written, HEAD
advances once, and the ends follow (R273, R281). A wave of a group with a fenced member waits for its frame to drop it (R283), one of an
account that is being stopped is discarded (R471), and one whose ring lies behind a host link that is away waits for the link (R383). -/
def execWaveCommit (slot : BitVec 6) (bad : List (BitVec 14)) (s : State) : Result State :=
  let k := slot.toNat
  match s.model k with
  | none => .next s
  | some m => match m.gen.running with
    | none => .next s
    | some w =>
      let handle : Nat × List (Nat × Word) → Nat := fun x => match s.seq x.1 with
        | some q => q.handle.toNat
        | none => 0
      let before := fun (a b : Nat × List (Nat × Word)) => decide (handle a ≤ handle b)
      let seqs := w.seqs.mergeSort before
      if !groupRuns s m || !s.acctServes m.map.acct || s.hostWaits m.gen.ring then .next s
      else
        let s := meterWave m (s.onModel k fun m => { m with gen := { m.gen with running := none } })
        let (weights, s) := s.engineRead .stream m.map.acct (Copy.spots ⟨k, m.map, m.w, w.epoch⟩)
        let r := seqs.foldl (fun (r : State × List StepEnd) x =>
          let (s, e) := commitSeq k m w.epoch weights (bad.any fun b => b.toNat == x.1) x.1 x.2 r.1
          (s, r.2 ++ e.toList)) (s, [])
        let s := writeRing k (r.2.flatMap (·.recs)) r.1
        .next (r.2.foldl (fun s e => settleSeq e s) s)

/-! ## Parks and restores (R306 to R309) -/

/-- The Vault frames of a home's die that a park may take: free ones, then cached ones (R306). -/
def vaultRoom (s : State) (q : Seq) : Nat :=
  (freeFrames s q.slot true (q.home / 4)).length + (cachedFrames s q.slot true (q.home / 4)).length

/-- A park is caused and takes its place among those of its die (R306). The drafts go once it has an end that may leave a change
(R18). -/
def startPark (i ttl : Nat) (s : State) : State :=
  (s.onSeq i fun q => { q with parking := true, ttl := ttl }).onGens fun g => { g with parks := (g.parks.filter (· != i)) ++ [i] }

/-- The park that runs on a die: the first caused of those that have not ended (R306). -/
def parkTurn (s : State) (die : Nat) : Option Nat := s.gens.parks.find? fun j => match s.seq j with
  | some q => q.parking && s.physDie q.acct (q.home / 4) == die
  | none => false

/-- The pages of a sequence are read for a copy: whether all of them could be read, and their bytes. -/
def readPages (acct : Nat) : List Page → State → Bool × List (Page × Bytes) × State
  | [], s => (true, [], s)
  | p :: ps, s =>
    let (ok, b, s) := readPage acct p.loc s
    let (rest, bs, s) := readPages acct ps s
    (ok && rest, (p, b) :: bs, s)

/-- Pages of a sequence are copied into frames drawn from a pool: each copy joins the sequence's pages at once, so that the next
draw passes its frame; none where the frames run out (R306, R309). -/
def copyPages (i acct slot : Nat) (vault : Bool) (u : Nat) : List (Page × Bytes) → State → Option State
  | [], s => some s
  | (p, b) :: ps, s => match drawFrame slot vault u s with
    | none => none
    | some (l, s) =>
      let page := { p with loc := l, shared := false }
      copyPages i acct slot vault u ps ((writePage acct l b s).onSeq i fun q => { q with pages := q.pages ++ [page] })

/-- What a copy of a sequence's pages to another pool comes to. -/
inductive Moved where
  | done (s : State) | unread (s : State) | noRoom
  deriving DecidableEq, Repr

/-- The pages of a sequence move to a pool, their old frames given up, once all of them could be read. -/
def movePages (i : Nat) (q : Seq) (vault : Bool) (u : Nat) (s : State) : Moved :=
  let (ok, bs, s) := readPages q.acct q.pages s
  if !ok then .unread s
  else match copyPages i q.acct q.slot vault u bs s with
    | none => .noRoom
    | some s => .done (s.onSeq i fun x => { x with pages := x.pages.drop q.pages.length })

/-- PARK_DONE: the last page of the park that runs has landed in the Vault, or a page failed; none lands for an account that is being
stopped (R306, R310, R471). -/
def execParkDone (seq : BitVec 14) (ok : Bool) (s : State) : Result State :=
  let i := seq.toNat
  match s.seq i with
  | none => .next s
  | some q =>
    if !s.acctServes q.acct || q.state != .paused || !q.parking || parkTurn s (s.physDie q.acct (q.home / 4)) != some i then .next s
    else
      let still := fun (s : State) => s.onSeq i fun q => { q with parking := false }
      let failed := fun (s : State) =>
        finishWait (.seqPause i) .dataError [] ((still s).onSeq i fun q => { q with drafts := [] })
      let asked := s.mail.waiting.any fun w => w.key == .seqPause i
      if !ok then .next (failed s)
      else match movePages i q true (q.home / 4) s with
        | .unread s => .next (failed s)
        | .noRoom => .next (if asked then finishWait (.seqPause i) .noResource [] (still s) else endSeq i .expired 7 (still s))
        | .done s =>
          let s := s.onSeq i fun q => { q with parking := false, reserved := 0, drafts := [] }
          .next (finishWait (.seqPause i) .ok [] (setSeqState i .parked s))

/-- RESTORE_DONE: the pages of a resumed sequence are back in frames of its home, or one failed; nothing comes back for an account that
is being stopped (R309, R310, R471). (Log entry 13, DESIGN CHOICE.) -/
def execRestoreDone (seq : BitVec 14) (ok : Bool) (s : State) : Result State :=
  let i := seq.toNat
  match s.seq i with
  | none => .next s
  | some q =>
    if !s.acctServes q.acct || q.state != .prefill || !q.restoring then .next s
    else match (if ok then movePages i q false q.home s else .noRoom) with
      | .noRoom => .next (endSeq i .faulted 9 s)
      | .unread s => .next (endSeq i .faulted 9 s)
      | .done s => .next (s.onSeq i fun q => { q with restoring := false, bound := true })

/-! ## Expiries (R259, R268, R280, R308) -/

/-- ADMIT_WAIT_EXPIRY: a request still ADMITTED ends EXPIRED (R268). -/
def execAdmitWaitExpiry (seq : BitVec 14) (s : State) : Result State :=
  match s.seq seq.toNat with
  | none => .next s
  | some q => .next (if q.state == .admitted then endSeq seq.toNat .expired 4 s else s)

/-- LIFETIME_EXPIRY: the sequence ends EXPIRED and a step in flight is discarded; a running chunk is stopped first (R268). -/
def execLifetimeExpiry (seq : BitVec 14) (s : State) : Result State :=
  let i := seq.toNat
  match s.seq i with
  | none => .next s
  | some q =>
    if q.state.final || q.lifetime == 0 then .next s
    else match q.chunk with
      | some (id, _, _) => .next (beginStop id .cancelled (s.onSeq i fun q => { q with expired := true }))
      | none => .next (endSeq i .expired 5 s)

/-- PAUSE_LIMIT_EXPIRY: the sequence is parked where PARK_TTL allows it and the Vault has room, and ends EXPIRED otherwise
(R280, R306, R307). Nothing of the kind starts for an account that is being stopped (R310). -/
def execPauseLimitExpiry (seq : BitVec 14) (s : State) : Result State :=
  let i := seq.toNat
  match s.seq i with
  | none => .next s
  | some q =>
    if q.state != .paused || q.parking || !s.acctServes q.acct then .next s
    else if q.parkTtl != 0 && !(s.acct q.acct).epochPin && decide (q.pages.length ≤ vaultRoom s q) then
      .next (startPark i q.parkTtl s)
    else .next (endSeq i .expired 7 s)

/-- PARK_TTL_EXPIRY: a PARKED sequence ends EXPIRED (R308). -/
def execParkTtlExpiry (seq : BitVec 14) (s : State) : Result State :=
  match s.seq seq.toNat with
  | none => .next s
  | some q => .next (if q.state == .parked then endSeq seq.toNat .expired 8 s else s)

/-- An entry returns to FREE. -/
def freeEntry (i : Nat) (s : State) : State := s.onGens fun g => { g with seqs := terase g.seqs i }

/-- ENTRY_AUTO_RELEASE: 60 s after it became final, an entry returns to FREE (R259). -/
def execEntryAutoRelease (seq : BitVec 14) (s : State) : Result State :=
  match s.seq seq.toNat with
  | none => .next s
  | some q => .next (if q.state.final then freeEntry seq.toNat s else s)

/-! ## SEQ_ADMIT (R261, R262) -/

/-- The admit block's own fields: reserved ones zero and values in range, TEMP, TOPP and TOPK as R147 has them, apart from what the
model decides (R261). -/
def admitOk (b : Bytes) : Bool :=
  let u := fun (off n : Nat) => fieldAt b off n
  let spec := u 3 1
  let d := u 0x3D 1
  decide (u 2 1 < 8) && decide (spec < 3) && decide (1 ≤ u 4 4) && decide (1 ≤ u 8 4) && decide (u 0xC 4 ≤ 600000) &&
  addrOk (u 0x10 8) && u 0x10 8 % 64 == 0 && decide (u 0x28 8 < 2 ^ 48) && samplingOk false (u 0x30 4) (u 0x34 4) (u 0x38 4) &&
  decide (u 0x3C 1 ≤ 4) && decide (d ≤ 8) &&
  ((spec == 0) == (d == 0)) && decide (u 0x3E 2 ≤ 1023) && decide (u 0x50 4 ≤ 86400) && leNat (b.drop 0x58) == 0 &&
  (List.range 4).all fun i => decide (i < u 0x3C 1) || u (0x40 + 4 * i) 4 == 0

/-- The sequence that an admit block asks for, under its account's membership of the domain it names. -/
def seqOf (b : Bytes) (acct slot : Nat) (handle : Word) (classB : Bool) (now : DWord) (order : Nat) (prompt : List Nat)
    (joined : Option (Nat × Nat)) : Seq :=
  let u := fun (off n : Nat) => fieldAt b off n
  { handle := handle, state := .admitted, endCause := 0, acct := acct, slot := slot, priority := u 2 1, classB := classB,
    home := 0, pos := u 4 4, gen := 0, promptLen := u 4 4, maxTokens := u 8 4, epoch := 0, ordinal := 0, late := 0,
    lateRun := 0, reserved := 0, granted := 0, prefixHit := 0, tAdmit := now, tLast := now, tag := BitVec.ofNat 64 (u 0x18 8), endSeq := 0,
    specAcc := 0, specRej := 0, ringStall := 0, restarts := 0, spec := u 3 1, admitWait := u 0xC 4,
    seed := BitVec.ofNat 64 (u 0x20 8), stream := u 0x28 8, temp := BitVec.ofNat 32 (u 0x30 4),
    topP := BitVec.ofNat 32 (u 0x34 4), topK := u 0x38 4, stops := (List.range (u 0x3C 1)).map (fun i => u (0x40 + 4 * i) 4),
    draftMax := u 0x3D 1, domain := u 0x3E 2, parkTtl := u 0x50 4, lifetime := u 0x54 4, tokens := prompt, drafts := [],
    pages := [], imports := [], joined := joined, published := 0, lookup := 0, bound := false, order := order, since := now, chunkPos := 0, chunk := none,
    pinned := none, pausing := false, parking := false, restoring := false, cancelBy := none, ttl := 0, expired := false }

/-- The largest KV row that a plan needs (R251). -/
def planRow (kv : KvSet) (plan : Bytes) : Nat :=
  let mx := ((Fmt.ofCode kv.kvFmt).getD .bf16).isMx
  maxNat ((List.range (planU plan 2 2)).map fun l =>
    let n := layerU plan l 0x22 2 * layerU plan l 0x24 2
    if mx then n + n / 32 else 2 * n)

/-- The model can admit sequences: it is loaded with its copy, and its group, plan, template and ring stand (R262). -/
def Model.admits (m : Model) : Bool :=
  m.w.ready && m.w.gencopy && m.grouped && m.gen.template.isSome && m.gen.ring != 0 && m.gen.ringSize != 0 &&
  match m.gen.plan with
  | some p => decide (planRow m.kv p ≤ m.kv.kvRow)
  | none => false

/-- The request alone fits the group: a member's pool holds its pages, and a frame with nothing else fits (R262, R266). -/
def fitsAlone (s : State) (m : Model) (q : Seq) : Bool :=
  m.map.members.any fun h => decide (q.need m ≤ (tgetD m.kv.pools h ⟨0, 0⟩).frames) &&
    frameFits m (s.costParams m) [q.load m h (q.need m)]

/-- A request joins the queue of its group and is granted at once where it heads the queue and fits (R262, R267); a request
that is not is notified as ADMITTED (R264). -/
def queueSeq (i slot : Nat) (s : State) : State × Bool :=
  match s.model slot, headRequest s slot with
  | some m, some (j, q) => match (if i == j then placeSeq s slot m q else none) with
    | some h => (grantSeq i h s, true)
    | none => (notifySeq i s, false)
  | _, _ => (notifySeq i s, false)

/-- The next handle of an account that none of its entries holds. -/
def freeHandle (s : State) (acct : Nat) : Word :=
  let n := (s.acct acct).nextSeq
  let used := fun (h : Word) => h == 0 || s.gens.seqs.any fun x => x.2.acct == acct && x.2.handle == h
  ((List.range (s.gens.seqs.length + 2)).map fun i => n + BitVec.ofNat 32 i).find? (fun h => !used h) |>.getD n

/-- SEQ_ADMIT (R261, R262, R267). (Log entry 57, DEDUCED.) -/
def execSeqAdmit (c : Cmd) (s : State) : Result State :=
  runCmd 0x501 c s fun s =>
    let a := cmdA c
    let at_ := cmdU c 0 8
    if !cmdTail c 8 || !addrOk at_ || at_ % 64 != 0 then fail .badArg s
    else readFor c at_ 128 s fun b =>
      if !admitOk b then fail .badArg s
      else if s.acctResetting a then fail .refusedState s
      else match cmdSlot c (fieldAt b 0 2) s with
        | none => fail .notFound s
        | some k => match s.model k with
          | none => fail .notFound s
          | some m =>
            let n := fieldAt b 4 4
            let i := ((List.range 16384).find? fun i => (tget s.gens.seqs i).isNone).getD 16384
            if decide (m.gen.maxCtx ≤ n) || decide (m.gen.maxCtx < n + fieldAt b 8 4) then fail .badArg s
            else readFor c (fieldAt b 0x10 8) (4 * n) s fun t =>
              let prompt := (List.range n).map fun j => fieldAt t (4 * j) 4
              let member := membership a (fieldAt b 0x3E 2) s
              let q := seqOf b a k (freeHandle s a) (s.acct a).quota.classB s.mtime s.gens.order prompt member
              let joined := q.domain == 0 || member.isSome
              let mine := (s.gens.seqs.filter fun x => x.2.acct == a).length
              if (prompt ++ q.stops).any fun t => decide (m.map.vocab ≤ t) then fail .badArg s
              else if !m.admits then fail .refusedState s
              else if !joined then fail .denied s
              else if decide ((s.acct a).quota.seqs ≤ mine) || i == 16384 || !fitsAlone s m q then fail .noResource s
              else
                let s0 := s
                let s := s.onGens fun g => { g with order := g.order + 1, seqs := tset g.seqs i q }
                let s := s.onAcct a fun x => { x with nextSeq := q.handle + 1 }
                let (s, granted) := queueSeq i k s
                if !granted && q.admitWait == 0 then fail .noResource s0
                else .done .ok (leBytes 4 q.handle.toNat ++ leBytes 1 (if granted then 2 else 1)) s

/-! ## Commands on a handle (R260, R280, R282) -/

/-- The entry of the caller's account that a command's HANDLE names. -/
def handleSeq (c : Cmd) (s : State) : Option (Nat × Seq) :=
  s.gens.seqs.find? fun x => x.2.acct == cmdA c && x.2.handle == BitVec.ofNat 32 (cmdU c 0 4)

/-- A command whose payload is a HANDLE, with what it does to the entry. -/
def onHandle (c : Cmd) (n : Nat) (ok : Bool) (s : State) (k : Nat → Seq → Res) : Res :=
  if !cmdTail c n || !ok then fail .badArg s
  else match handleSeq c s with
    | none => fail .notFound s
    | some (i, q) => k i q

/-- SEQ_CANCEL (R282). -/
def execSeqCancel (c : Cmd) (s : State) : Result State :=
  runCmd 0x502 c s fun s => onHandle c 4 true s fun i q =>
    if q.state.final then fail .alreadyDone s
    else
      let s := s.onSeq i fun q => { q with cancelBy := some (q.cancelBy.getD c.seqno) }
      match q.chunk with
      | some (id, _, _) => .wait (.seq i) (beginStop id .cancelled s)
      | none => .done .ok (leBytes 1 7 ++ [0, 0, 0] ++ leBytes 4 q.pos) (endSeq i .cancelled 3 s)

/-- The image of an entry (R257): pages that still await an import are not held. -/
def seqImage (q : Seq) (num : Nat) : Bytes :=
  padTo 128 (leBytes 4 q.handle.toNat ++ leBytes 1 q.state.code ++ leBytes 1 q.endCause ++ leBytes 2 q.acct ++ leBytes 2 num ++
    leBytes 1 q.priority ++ leBytes 1 (if q.classB then 1 else 0) ++ leBytes 2 (q.home / 4 + 8 * (q.home % 4)) ++ [0, 0] ++
    leBytes 4 q.pos ++ leBytes 4 q.gen ++ leBytes 4 q.promptLen ++ leBytes 4 q.maxTokens ++ leBytes 8 q.epoch ++
    leBytes 8 q.ordinal.toNat ++ leBytes 4 q.late ++ leBytes 4 q.lateRun ++
    leBytes 4 (q.held.filter fun p => !p.loc.vault).length ++ leBytes 4 (q.held.filter fun p => p.loc.vault).length ++
    leBytes 4 q.granted ++ leBytes 4 q.prefixHit ++ leBytes 8 q.tAdmit.toNat ++ leBytes 8 q.tLast.toNat ++
    leBytes 8 q.tag.toNat ++ leBytes 4 q.endSeq.toNat ++ leBytes 4 q.specAcc ++ leBytes 4 q.specRej ++
    leBytes 2 q.ringStall ++ leBytes 2 q.restarts)

/-- SEQ_QUERY (R257, R260). -/
def execSeqQuery (c : Cmd) (s : State) : Result State :=
  runCmd 0x503 c s fun s =>
    if !cmdTail c 16 || !cmdZ c 4 4 || !addrOk (cmdU c 8 8) then fail .badArg s
    else writeFor c (cmdU c 8 8) 128 s fun put => match handleSeq c s with
      | none => fail .notFound s
      | some (_, q) =>
        let num := match s.model q.slot with
          | some m => m.map.num
          | none => 0
        fail .ok (put (seqImage q num))

/-- The sequence has a step in the wave that runs. -/
def inWave (s : State) (i slot : Nat) : Bool :=
  match s.model slot with
  | some m => match m.gen.running with
    | some w => w.seqs.any fun x => x.1 == i
    | none => false
  | none => false

/-- SEQ_PAUSE (R280). One whose sequence ends with the step that it waits for completes with REFUSED_STATE (log entry 182, DESIGN
CHOICE). -/
def execSeqPause (c : Cmd) (s : State) : Result State :=
  runCmd 0x504 c s fun s => onHandle c 4 true s fun i q =>
    if q.state != .decode then fail .refusedState s
    else if inWave s i q.slot then .wait (.seqPause i) (s.onSeq i fun q => { q with pausing := true })
    else fail .ok (setSeqState i .paused (leaveWaves i q.slot s))

/-- SEQ_RESUME: a PAUSED sequence returns to DECODE, and gives up a park that has not ended; a PARKED one joins its group's
queue (R259, R267, R280, R309). (Log entry 64, DEDUCED.) (Log entry 65, DEDUCED.) -/
def execSeqResume (c : Cmd) (s : State) : Result State :=
  runCmd 0x505 c s fun s => onHandle c 4 true s fun i q =>
    if q.state == .paused then
      let s := if q.parking then
          finishWait (.seqPause i) .refusedState [] (s.onSeq i fun q => { q with parking := false })
        else s
      .done .ok (leBytes 1 3) (enterDecode i s)
    else if q.state == .parked then
      let order := s.gens.order
      let s := s.onGens fun g => { g with order := g.order + 1 }
      let s := s.onSeq i fun q => { q with state := .admitted, tLast := s.mtime, since := s.mtime, order := order }
      let (s, granted) := queueSeq i q.slot s
      .done .ok (leBytes 1 (if granted then 2 else 1)) s
    else fail .refusedState s

/-- SEQ_PARK (R306, R307). -/
def execSeqPark (c : Cmd) (s : State) : Result State :=
  runCmd 0x506 c s fun s =>
    let ttl := cmdU c 4 4
    onHandle c 8 (decide (1 ≤ ttl) && decide (ttl ≤ 86400)) s fun i q =>
      if q.state != .paused || q.parking || (s.acct q.acct).epochPin then fail .refusedState s
      else if decide (vaultRoom s q < q.pages.length) then fail .noResource s
      else .wait (.seqPause i) (startPark i ttl s)

/-- SEQ_RELEASE (R259, R260). -/
def execSeqRelease (c : Cmd) (s : State) : Result State :=
  runCmd 0x507 c s fun s => onHandle c 4 true s fun i q =>
    if q.state.final then fail .ok (freeEntry i s) else fail .refusedState s

/-- SEQ_DRAFT (R260, R277). A token at or above the vocabulary is BAD_ARG (log entry 181, DESIGN CHOICE). -/
def execSeqDraft (c : Cmd) (s : State) : Result State :=
  runCmd 0x508 c s fun s =>
    let n := cmdU c 4 1
    let pairs := (List.range n).map fun i => (cmdU c (8 + 8 * i) 4, BitVec.ofNat 32 (cmdU c (12 + 8 * i) 4))
    onHandle c (8 + 8 * n) (decide (1 ≤ n) && decide (n ≤ 4) && cmdZ c 5 3) s fun i q =>
      let vocab := match s.model q.slot with
        | some m => m.map.vocab
        | none => 0
      if pairs.any fun p => decide (vocab ≤ p.1) then fail .badArg s
      else if q.state != .decode || q.spec == 0 then fail .refusedState s
      else if decide (q.draftMax < q.drafts.length + n) then fail .noResource s
      else .done .ok (leBytes 1 (q.drafts.length + n)) (s.onSeq i fun q => { q with drafts := q.drafts ++ pairs })

/-! ## Settings of a model (R252, R263, R269) -/

/-- The value of a SEQ_MODEL_SET field is in range (R263). -/
def genValueOk (field v : Nat) : Bool :=
  match field with
  | 1 => decide (1 ≤ v) && decide (v ≤ 1000)
  | 2 => decide (1 ≤ v) && decide (v ≤ 64)
  | 3 => decide (2 ≤ v) && decide (v ≤ 1048576)
  | 4 => decide (v ≤ 65535)
  | 5 => decide (1 ≤ v) && decide (v ≤ 600000)
  | 6 => addrOk v && v % 64 == 0
  | 7 => decide (6 ≤ v) && decide (v ≤ 20)
  | 8 => decide (10 ≤ v) && decide (v ≤ 90)
  | _ => false

/-- SEQ_MODEL_SET: fields that need an idle model take effect at once, and so do all while the group's grid stands still; the others
take effect at the next frame (R263). (Log entry 63, DEDUCED.) -/
def execSeqModelSet (c : Cmd) (s : State) : Result State :=
  runCmd 0x509 c s fun s =>
    let field := cmdU c 2 1
    let v := cmdU c 8 8
    if !cmdTail c 16 || !cmdZ c 3 5 || !genValueOk field v then fail .badArg s
    else match cmdSlot c (cmdU c 0 2) s with
      | none => fail .notFound s
      | some k => match s.model k with
        | none => fail .notFound s
        | some m =>
          let idleOnly := field == 2 || field == 3 || field == 6 || field == 7
          let size := if field == 7 then v else m.gen.ringSize
          let line := if field == 6 then v else m.gen.ring
          let ring := field == 6 || (field == 7 && line != 0)
          let g := { m.gen with staged := m.gen.staged ++ [(field, v)] }
          if ring && !s.inAccount (cmdA c) line (64 + (if size == 0 then 0 else 32 * 2 ^ size)) then fail .denied s
          else if idleOnly && s.modelBusy k then fail .refusedState s
          else if (field == 1 || field == 2 || field == 8) &&
              !frameFits m (s.costUnder m (applyStaged g)) (s.loads k m) then fail .noResource s
          else
            let now := { applyStaged { m.gen with staged := [(field, v)] } with staged := m.gen.staged }
            fail .ok (s.onModel k fun m => { m with gen := if idleOnly || m.gen.grid.isNone then now else g })

/-- A prefill of the model runs. -/
def State.prefilling (s : State) (slot : Nat) : Bool := (s.seqsOf slot).any fun x => x.2.chunk.isSome

/-- The check that a template's failing code stops at, 0x0B and 0x0D left out (R269). -/
def templateFail (s : State) (im : PkgImage) : Option Nat :=
  firstFail ((packageChecks s im).filter fun x => match x with
    | some i => i % 256 != 0xB && i % 256 != 0xD
    | none => true)

/-- SEQ_PREFILL_SET (R269). -/
def execSeqPrefillSet (c : Cmd) (s : State) : Result State :=
  runCmd 0x50A c s fun s =>
    let chunk := cmdU c 2 2
    let a := cmdU c 8 8
    let num := cmdU c 0 2
    if !cmdTail c 16 || !cmdZ c 4 4 || decide (chunk < 256) || decide (8192 < chunk) || !addrOk a then fail .badArg s
    else match cmdSlot c num s with
      | none => fail .notFound s
      | some k => match s.model k with
        | none => fail .notFound s
        | some m =>
          if chunk % m.kv.ptok != 0 then fail .badArg s
          else if s.prefilling k then fail .refusedState s
          else match loadImage s c.fn a with
            | .fail st _ => fail st s
            | .read (.failed b n) => .done .dataError [] (s.discover b n)
            | .read _ => .hold
            | .image im =>
              let p := im.pkg
              if p.phase != .generation || p.model != num || (p.regions.headD ⟨0, 0, 0, 0, 0, 0⟩).role != 4 then fail .badArg s
              else match templateFail s im with
                | some info => fail (checkStatus info) s
                | none =>
                  if codeFails s p then .done .dataError [] (discoverCode p s)
                  else fail .ok ((s.onModel k fun m => { m with gen := { m.gen with template := some p, chunk := chunk } }).took (cmdA c)
                    (imageReads s a p))

/-- A tensor that a plan names: it exists, is not NOGEN, and has the shape stated; with a layer, it lies there (R252). -/
def planTensorOk (m : ModelMap) (t : Nat) (layer : Option Nat) (rows cols : Nat) : Bool :=
  decide (t < m.tensors.length) && !(m.tensor t).nogen && (m.tensor t).rows == rows && (m.tensor t).cols == cols &&
  match layer with
  | some l => (m.tensor t).layer == l
  | none => true

/-- A norm's tensors: a gain under an EXPLICIT anchor, and under LAYER a bias or none (R251, R252, R254). -/
def planNormOk (m : Model) (layerNorm : Bool) (g b : Nat) (layer : Option Nat) (d : Nat) : Bool :=
  let explicit := fun (t : Nat) => bitField (m.w.anchors.getD t 0) 10 2 == 0
  planTensorOk m.map g layer 1 d && explicit g &&
  (b == 0xFFFFFFFF || (layerNorm && planTensorOk m.map b layer 1 d && explicit b))

/-- One layer entry of a plan (R251, R252). -/
def planLayerOk (m : Model) (p : Bytes) (l : Nat) : Bool :=
  let u := fun (off n : Nat) => layerU p l off n
  let d := planU p 4 4
  let ln := planU p 0x18 1 == 2
  let (nh, nkv, hd) := (u 0x20 2, u 0x22 2, u 0x24 2)
  let h := (m.map.tensor (u 0x1C 4)).cols
  let gated := u 0x27 1 == 1
  let mx := ((Fmt.ofCode (planU p 0x19 1)).getD .bf16).isMx
  let word := fun (w : Nat) => !anchorReserved w && !anchorAuto w
  decide (1 ≤ nh) && decide (nh ≤ 1024) && decide (1 ≤ nkv) && decide (nkv ≤ nh) && nh % nkv == 0 && decide (32 ≤ hd) &&
  decide (hd ≤ 512) && hd % 32 == 0 && (Act.ofCode (u 0x26 1)).isSome && decide (u 0x27 1 < 2) && word (u 0x2C 2) &&
  word (u 0x2E 2) && u 0x30 16 == 0 && planNormOk m ln (u 0 4) (u 4 4) (some l) d &&
  planNormOk m ln (u 0x10 4) (u 0x14 4) (some l) d && planTensorOk m.map (u 8 4) (some l) ((nh + 2 * nkv) * hd) d &&
  planTensorOk m.map (u 0xC 4) (some l) d (nh * hd) && planTensorOk m.map (u 0x18 4) (some l) (if gated then 2 * h else h) d &&
  planTensorOk m.map (u 0x1C 4) (some l) d h && (!mx || h % 32 == 0)

/-- The header of a plan (R251, R252). -/
def planHeaderOk (m : Model) (p : Bytes) : Bool :=
  let d := planU p 4 4
  let eps := ofF32 (BitVec.ofNat 32 (planU p 0x1C 4))
  let rope := BitVec.ofNat 32 (planU p 0x20 4)
  let one := Val.ofInt 1
  let finite := fun (v : Val) => match v with
    | .fin _ _ _ => true
    | _ => false
  planU p 0 2 == m.map.num && planU p 2 2 == m.map.layers && decide (32 ≤ d) && decide (d ≤ 65536) && d % 32 == 0 &&
  (planU p 0x18 1 == 1 || planU p 0x18 1 == 2) && [1, 5, 7, 8, 9].contains (planU p 0x19 1) && planU p 0x1A 2 == 0 &&
  finite eps && (Val.ofInt 0).lt eps && (rope == 0 || (finite (ofF32 rope) && one.lt (ofF32 rope))) &&
  planU p 0x24 28 == 0 && planTensorOk m.map (planU p 8 4) none m.map.vocab d &&
  planTensorOk m.map (planU p 0x14 4) none m.map.vocab d &&
  planNormOk m (planU p 0x18 1 == 2) (planU p 0xC 4) (planU p 0x10 4) none d

/-- SEQ_DECODE_SET (R251, R252). -/
def execSeqDecodeSet (c : Cmd) (s : State) : Result State :=
  runCmd 0x50B c s fun s =>
    let a := cmdU c 8 8
    if !cmdTail c 16 || !cmdZ c 2 6 || !addrOk a || a % 64 != 0 then fail .badArg s
    else match cmdSlot c (cmdU c 0 2) s with
      | none => fail .notFound s
      | some k => match s.model k with
        | none => fail .notFound s
        | some m => readFor c a 64 s fun h => readFor c a (64 + 64 * planU h 2 2) s fun p =>
            if !planHeaderOk m p || !((List.range m.map.layers).all fun l => planLayerOk m p l) then fail .badArg s
            else if s.modelBusy k || s.prefilling k then fail .refusedState s
            else fail .ok (s.onModel k fun m => { m with gen := { m.gen with plan := some p } })

end Sys2Proof.Machine
end

