-- ==== Sys2Proof/Machine/Ft.lean ====
section
/-!
DEFINITION. Surviving failure: the risk estimate, plans, secure copies and restores (14 R429 to R448), and the end of a wait for a route
(13 R408).
-/
namespace Sys2Proof.Machine

/-! ## Risk (R429 to R431) -/

/-- A component that is 0 at `a` and below, 128 at `b`, and 255 at `c` and above. -/
def ramp (a b c x : Int) : Nat :=
  if x ≤ a then 0
  else if x ≤ b then (128 * (x - a) / (b - a)).toNat
  else if x ≤ c then (128 + 127 * (x - b) / (c - b)).toNat
  else 255

/-- C before retirements: linear in the logarithm of the rate per second, whose tenfold is given. -/
def riskC (tenRate : Nat) : Nat :=
  let low := fun (k : Nat) => decide (10 ^ (3 * k + 128) ≤ tenRate ^ 128)
  let high := fun (k : Nat) => decide (10 ^ (2 * (k - 128) + 4 * 127) ≤ tenRate ^ 127)
  if tenRate ≤ 10 then 0
  else if 1000000 ≤ tenRate then 255
  else maxNat (((List.range 129).filter low) ++ ((List.range 255).filter fun k => decide (128 ≤ k) && high k))

/-- The module times of a list that lie within the last `ns` nanoseconds. -/
def State.recent (s : State) (ns : Nat) (ts : List DWord) : List DWord := ts.filter fun t => decide (s.mtime.toNat < t.toNat + ns)

/-- The components C, T, O, L and D, and RISK: from what Neriv measures, and from the corrected codewords, parity detections,
retirements, retrains, droops and dark lasers that the part has seen (R429, R430). -/
def riskOf (r : RiskIn) (s : State) : List Nat :=
  let errors := (s.ft.corrected.map (·.2)).sum + s.ft.detected.length
  let c := min 255 (riskC errors + 16 * s.ft.retired.length)
  let t := ramp (-1500) (-500) 0 (-r.margin)
  let o := if (s.recent 86400000000000 s.ft.laserDark.toList).isEmpty then (match r.laser with
      | some m => ramp (-43200) (-10080) (-1440) (-(m : Int))
      | none => 0) else 255
  let l := ramp 0 4 16 s.ft.retrains.length
  let d := ramp 0 2 8 (s.recent 60000000000 s.chip.power.droops).length
  let xs := [c, t, o, l, d]
  let m := maxNat xs
  xs ++ [min 255 (m + (xs.sum - m) / 4)]

/-- A crossing asks for securing of every model of the account that has a plan (R431). -/
def wantSecuring (a : Nat) (s : State) : State :=
  { s with models := s.models.map fun x =>
      if x.2.map.acct == a && x.2.ft.plan.isSome then (x.1, { x.2 with ft := { x.2.ft with crossing := true } }) else x }

/-- An account's threshold meets the risk (R431). -/
def riskAccount (xs : List Nat) (s : State) (a : Nat) : State :=
  let x := s.acct a
  let risk := xs.getD 5 0
  let below := if x.thresh < 17 then risk == 0 else decide (risk + 16 < x.thresh)
  if x.armed && x.thresh != 0 && decide (x.thresh ≤ risk) then
    let args := leBytes 1 risk ++ leBytes 1 x.thresh ++ (xs.take 5).flatMap fun v => leBytes 1 v
    wantSecuring a (post a 5 .ok args (s.onAcct a fun y => { y with armed := false, belowSince := none }))
  else if x.armed then s
  else if !below then s.onAcct a fun y => { y with belowSince := none }
  else match x.belowSince with
    | none => s.onAcct a fun y => { y with belowSince := some s.mtime }
    | some t => if decide (t.toNat + 60000000000 ≤ s.mtime.toNat) then s.onAcct a fun y => { y with armed := true, belowSince := none }
      else s

/-- A word of SRAM or a codeword of HBM or the Vault has become unreadable, named by its storage key (R351, R353, R355). -/
def strike (s : State) (k : Nat) : State :=
  match locOf k with
  | some (.dieSram d _) => s.onDieMem d fun m => { m with corrupt := (m.corrupt ++ [k / 4 * 4]).dedup }
  | some (.coreSram c _) => s.onDieMem (c / 16) fun m => { m with corrupt := (m.corrupt ++ [k / 4 * 4]).dedup }
  | some (.hbm d _) | some (.vault d _) =>
    s.onDieMem d fun m => { m with failing := (m.failing ++ [keyOf k / 64 * 64]).dedup }
  | _ => s

/-- Corrected errors of a die are counted, and count toward the risk estimate for 10 s (R351, R429). -/
def eccSeen (s : State) (x : BitVec 3 × Nat) : State :=
  let s := s.bump 0x402 x.1.toNat none none x.2
  { s with ft := { s.ft with corrected := s.ft.corrected ++ [(s.mtime, x.2)] } }

/-- A page of a checkpoint holds what the NAND's code cannot correct, named by its account, model and SEQNO; the next read of the
checkpoint meets it (R434). -/
def ckptStruck (s : State) (x : BitVec 10 × BitVec 16 × Word) : State :=
  let hit := fun (k : Ckpt) => k.acct == x.1.toNat && k.model == x.2.1.toNat && fieldAt k.record 0xC 4 == x.2.2.toNat
  { s with ft := { s.ft with ckpts := s.ft.ckpts.map fun k => if hit k then { k with failing := true } else k } }

/-- The running wave of a model could not read its weights: every sequence of it ends FAULTED (R283). -/
def waveFailed (slot : Nat) (s : State) : State := match s.model slot with
  | none => s
  | some m => match m.gen.running with
    | none => s
    | some w => (w.seqs.map (·.1)).foldl (fun s i => endSeq i .faulted 9 s) (stopWave slot s)

/-- The segment of a load or reshard that is under way failed on its way, and is fetched again, at most three times (R326, R330). -/
def segmentFailed (slot : Nat) (s : State) : State :=
  match building s slot with
  | some (p, o, m) =>
    let i := o.redo.headD o.seg
    match (opSegments m o)[i]? with
    | some g => segAgain p slot m o i g id s
    | none => s
  | none => match s.model slot, s.runningMove slot with
    | some m, some (p, o) =>
      if o.kind != .load || o.stage != .moving then s
      else match m.map.shards[firstMine m.map o.shard]? with
        | some x => segFailed p slot m o x s
        | none => s
    | _, _ => s

/-- A flit has failed parity four times on a link: one retrain event counts against it, and for the operation that it belonged to this is
an integrity failure after the retries; a Ledger block, of which nothing is written, runs again from its first instruction (R246, R283,
R330, R352). (Log entry 160, DESIGN CHOICE.) -/
def flitFailed (s : State) (x : BitVec 3 × BitVec 3 × LinkUse) : State :=
  let k := 16 * x.1.toNat + x.2.1.toNat
  let s := { s with chip := { s.chip with noc :=
      { s.chip.noc with retrains := tset s.chip.noc.retrains k (tgetD s.chip.noc.retrains k 0 + 1) } } }
  match x.2.2 with
  | .package id => match s.pkg id with
    | some p => if p.running then stopWith id (fun s => s) s else s
    | none => s
  | .wave slot => waveFailed slot.toNat s
  | .segment slot => segmentFailed slot.toNat s
  | .block _ => s

/-- A parity failure of Ledger SRAM is detected; a second one at its row retires the row (R246, R352, R554). -/
def ledgerSeen (s : State) (x : BitVec 2 × Bool) : State :=
  let s := s.bump 0x400 8 none (some x.1.toNat) 1
  let s := { s with ft := { s.ft with detected := s.ft.detected ++ [s.mtime] } }
  if !x.2 then s
  else
    let s := s.bump 0x401 8 none (some x.1.toNat) 1
    { s with ft := { s.ft with retired := s.ft.retired ++ [s.mtime] } }

/-- Codewords that a port's forward error correction has corrected, for FEC_CORR (R391). -/
def fecSeen (s : State) (x : BitVec 7 × Nat) : State :=
  if decide (68 ≤ x.1.toNat) then s else s.onPort x.1.toNat fun p => { p with fec := p.fec + BitVec.ofNat 64 x.2 }

/-- Flits that a host port has replayed, for REPLAYS (R391). -/
def replaysSeen (s : State) (x : BitVec 2 × Nat) : State :=
  s.onPort (64 + x.1.toNat) fun p => { p with replays := p.replays + BitVec.ofNat 64 x.2 }

/-- What the health monitor finds: corrected errors, unreadable words and pages, failed flits, parity failures of the Ledgers' SRAM, and
what ports have corrected and replayed; events older than their windows no longer count (R351, R352, R391, R429, R434). -/
def healthSeen (r : RiskIn) (s : State) : State :=
  let s := r.links.foldl flitFailed (r.struck.foldl strike (r.ecc.foldl eccSeen s))
  let s := r.replays.foldl replaysSeen (r.fec.foldl fecSeen (r.ledgers.foldl ledgerSeen (r.ckpts.foldl ckptStruck s)))
  let f := s.ft
  let seen := f.corrected.filter fun x => decide (s.mtime.toNat < x.1.toNat + 10000000000)
  { s with ft := { f with corrected := seen, detected := s.recent 10000000000 f.detected, retrains := s.recent 60000000000 f.retrains,
                          retired := s.recent 600000000000 f.retired } }

/-- A compute die that has run out of spare rows is lost, once (R354, R449). -/
def loseOut (s : State) : State :=
  ((List.range 8).filter fun d => (s.dieMem d).dieOut && (s.unit 1 d).mgmt != 1).foldl (fun s d => loseUnit 1 d s) s

/-- RISK_UPDATE: the health monitor's findings are taken, the components and the risk are computed again, and every account's
threshold is tried (R351, R352, R429 to R431, R449). -/
def execRiskUpdate (r : RiskIn) (s : State) : Result State :=
  let t := loseOut (healthSeen r s)
  let xs := riskOf r t
  .next (s.whenOn (t.enabledAll.foldl (riskAccount xs) { t with ft := { t.ft with risk := xs } }))

/-- FT_RISK_QUERY (R432). -/
def execFtRiskQuery (c : Cmd) (s : State) : Result State :=
  runCmd 0x701 c s fun s =>
    let a := s.acct (cmdA c)
    let r := fun (i : Nat) => leBytes 1 (s.ft.risk.getD i 0)
    if !cmdTail c 0 then fail .badArg s
    else .done .ok (r 5 ++ r 0 ++ r 1 ++ r 2 ++ r 3 ++ r 4 ++ leBytes 1 a.thresh ++ [if a.armed then 1 else 0]) s

/-- FT_THRESH_SET (R431, R432). -/
def execFtThreshSet (c : Cmd) (s : State) : Result State :=
  runCmd 0x702 c s fun s =>
    if !cmdTail c 8 || !cmdZ c 1 7 then fail .badArg s
    else fail .ok (s.onAcct (cmdA c) fun a => { a with thresh := cmdU c 0 1, belowSince := none })

/-! ## Plans (R439, R440) -/

/-- The chains of R439. -/
def planChainOk (l1 l2 l3 : Nat) : Bool :=
  [(1, 0, 0), (1, 2, 0), (1, 2, 3), (1, 3, 0), (2, 0, 0), (2, 3, 0)].contains (l1, l2, l3)

/-- The fields of a plan block follow R439. (Log entry 113, DEDUCED.) -/
def planOk (num : Nat) (b : Bytes) : Bool :=
  let u := fieldAt b
  u 0 2 == num && planChainOk (u 2 1) (u 3 1) (u 4 1) && decide (1 ≤ u 5 1) && decide (u 5 1 ≤ 4) && decide (1000 ≤ u 0xC 4) &&
  decide (u 0xC 4 ≤ 600000) && addrOk (u 0x10 8) && decide (u 0x20 4 ≤ u 0x24 4) && zeroAt b 0x28 24

/-- A layer of a plan block writes to host memory, or to the Strongbox. -/
def planHas (b : Bytes) (layer : Nat) : Bool := (List.range 3).any fun i => fieldAt b (2 + i) 1 == layer

/-- The Strongbox bytes assigned to an account: 1 GiB of each section for a unit (R434). -/
def strongboxBytes (s : State) (a : Nat) : Nat := (s.ten.grants.filter fun g => g.acct == a && g.pool == 3).length * 2 ^ 32

/-- A copy of a model is in progress. (Log entry 114, DEDUCED.) -/
def copying (s : State) (slot : Nat) (m : Model) : Bool :=
  !m.ft.later.isEmpty || s.allMoves.any fun o => o.slot == slot && o.kind == .drain

/-- A model under a plan block, or none. -/
def Model.planned (m : Model) (b : Option Bytes) : Model := { m with ft := { m.ft with plan := b } }

/-- FT_PLAN_SET (R439, R440). -/
def execFtPlanSet (c : Cmd) (s : State) : Result State :=
  runCmd 0x703 c s fun s =>
    let a := cmdU c 8 8
    onModelCmd c (cmdU c 0 2) (cmdTail c 16 && cmdZ c 2 6 && addrOk a) s fun slot m =>
      if a == 0 then
        if copying s slot m then fail .busy s
        else
          let clear := fun (m : Model) =>
            { m with ft := { m.ft with plan := none, crossing := false, request := false, deferred := false } }
          .done .ok (leBytes 8 (ckptBytes s slot (m.planned none))) (finishWait (.secure slot) .aborted [] (s.onModel slot clear))
      else readFor c a 64 s fun b =>
        let (partner, n) := (fieldAt b 6 2, m.map.parts.length)
        let size := ckptBytes s slot (m.planned (some b))
        let (base, len) := (fieldAt b 0x10 8, fieldAt b 0x18 8)
        if !planOk m.map.num b then fail .badArg s
        else if fieldAt b 2 1 == 1 && (decide (256 < n) || partner == m.map.part || decide (n ≤ partner)) then fail .badArg s
        else if planHas b 3 && (len == 0 || decide (2 ^ 52 < base + len) || !inHostSpace (cmdA c) base len) then fail .denied s
        else if copying s slot m then fail .busy s
        else if planHas b 2 && decide (strongboxBytes s (cmdA c) < (fieldAt b 5 1 + 1) * size) then fail .noResource s
        else .done .ok (leBytes 8 size) (s.onModel slot fun m => m.planned (some b))

/-- FT_DEPOSIT_SET (R437). (Log entry 117, DEDUCED.) -/
def execFtDepositSet (c : Cmd) (s : State) : Result State :=
  runCmd 0x704 c s fun s =>
    let (src, die, base, len) := (cmdU c 2 2, cmdU c 4 1, cmdU c 8 8, cmdU c 16 4 * 2 ^ 24)
    let a := cmdA c
    let ok := cmdTail c 20 && cmdZ c 5 3 && addrOk base && base % 64 == 0 && decide (die < (s.acctDies a).length)
    onModelCmd c (cmdU c 0 2) ok s fun _ m =>
      let mine := fun (d : Deposit) => d.acct == a && d.model == m.map.num && d.src == src && d.die == die
      let without := { s with ft := { s.ft with deposits := s.ft.deposits.filter fun d => !mine d } }
      let onDie := locOf base == some (.vault ((s.acctDies a).getD die 8) (base % 2 ^ 37))
      if decide (m.map.parts.length ≤ src) || src == m.map.part then fail .badArg s
      else if len != 0 && !(onDie && without.inAccount a base len) then fail .denied s
      else if s.ft.deposits.any fun d => mine d && d.busy then fail .busy s
      else if len == 0 then fail .ok without
      else fail .ok { without with ft := { without.ft with
        deposits := without.ft.deposits ++ [⟨a, m.map.num, src, die, base, len, false, false⟩] } }

/-! ## Requests (R446) -/

/-- FT_SECURE: at the next flip, or at once to the Strongbox as a moving operation (R446). (Log entry 112, DEDUCED.) -/
def execFtSecure (c : Cmd) (s : State) : Result State :=
  runCmd 0x705 c s fun s =>
    let mode := cmdU c 2 1
    onModelCmd c (cmdU c 0 2) (cmdTail c 8 && decide (mode ≤ 1) && cmdZ c 3 5) s fun slot m =>
      let held := (s.ft.ckpts.filter fun k => k.acct == m.map.acct && k.model == m.map.num).length
      let idle := m.w.ready && !m.w.staged && m.led.ustate == .idle
      if m.ft.plan.isNone then fail .refusedState s
      else if mode == 0 then
        .wait (.secure slot) (s.onModel slot fun m => { m with ft := { m.ft with request := true } })
      else if !idle || s.chip.power.partReset.contains (s.partOf m.map.acct) then fail .refusedState s
      else if decide (strongboxBytes s m.map.acct < (held + 1) * ckptBytes s slot m) then fail .noResource s
      else requestMove c slot m .drain (m.ft.planU 0xC 4) id s

/-! ## Checkpoints and exports (R432, R434) -/

/-- The committed checkpoints of a model, oldest first. -/
def State.ckptsOf (s : State) (m : ModelMap) : List Ckpt := s.ft.ckpts.filter fun k => k.acct == m.acct && k.model == m.num
/-- SEQNO of a record. -/
def recSeq (r : Bytes) : Nat := fieldAt r 0xC 4
/-- STEP of a record. -/
def recStep (r : Bytes) : Nat := fieldAt r 0x10 4
/-- A read of the checkpoint fails: it is BAD, or holds what the NAND's code cannot correct (R434). -/
def Ckpt.fails (k : Ckpt) : Bool := k.bad || k.failing

/-- A read of a model's checkpoint has failed, and the part marks it BAD (R434, R454). -/
def markBad (m : ModelMap) (seqno : Nat) (s : State) : State :=
  let it := fun (k : Ckpt) => k.acct == m.acct && k.model == m.num && recSeq k.record == seqno
  { s with ft := { s.ft with ckpts := s.ft.ckpts.map fun k => if it k then { k with bad := true } else k } }

/-- FT_CKPT_LIST (R432). -/
def execFtCkptList (c : Cmd) (s : State) : Result State :=
  runCmd 0x706 c s fun s =>
    let a := cmdU c 8 8
    onModelCmd c (cmdU c 0 2) (cmdTail c 16 && cmdZ c 2 6 && addrOk a) s fun _ m =>
      let recs := (s.ckptsOf m.map).map (·.record) ++ ((s.sentOf m.map).map (·.record)).toList
      if recs.isEmpty then .done .ok (leBytes 2 0) s
      else writeFor c a (128 * recs.length) s fun put => .done .ok (leBytes 2 recs.length) (put recs.flatten)

/-- FT_CKPT_DROP (R432, R434). -/
def execFtCkptDrop (c : Cmd) (s : State) : Result State :=
  runCmd 0x707 c s fun s =>
    let n := cmdU c 4 4
    onModelCmd c (cmdU c 0 2) (cmdTail c 8 && cmdZ c 2 2) s fun _ m =>
      let it := fun (k : Ckpt) => k.acct == m.map.acct && k.model == m.map.num && recSeq k.record == n
      let source := m.ft.later.any fun x => x.2.toNat == n
      if !(s.ft.ckpts.any it) then fail .notFound s
      else if source then fail .busy s
      else fail .ok { s with ft := { s.ft with ckpts := s.ft.ckpts.filter fun k => !it k } }

/-- A record under another KIND, with CFLAGS bits added, a SEQNO and a time of commit. (Log entry 115, DEDUCED.) -/
def recordAs (r : Bytes) (kind flags seqno : Nat) (t : DWord) : Bytes :=
  let f := fieldAt r 0x15 1 ||| flags
  stampRecord (r.take 0xC ++ leBytes 4 seqno ++ (r.drop 0x10).take 5 ++ leBytes 1 f ++ leBytes 1 kind ++ r.drop 0x17) t

/-- An export image: the record's page, then the contents. -/
def exportImage (record image : Bytes) : Bytes := padTo 4096 record ++ image

/-- FT_EXPORT (R432, R454). -/
def execFtExport (c : Cmd) (s : State) : Result State :=
  runCmd 0x708 c s fun s =>
    let (n, a) := (cmdU c 4 4, cmdU c 8 8)
    onModelCmd c (cmdU c 0 2) (cmdTail c 16 && cmdZ c 2 2 && addrOk a) s fun _ m =>
      match (s.ckptsOf m.map).find? fun k => recSeq k.record == n with
      | none => fail .notFound s
      | some k =>
        let b := exportImage (recordAs k.record 3 0 n (BitVec.ofNat 64 (fieldAt k.record 0x50 8))) k.image
        if decide (2 ^ 52 < a + b.length) || !inHostSpace (cmdA c) a b.length then fail .denied s
        else if s.hostWaits a then .hold
        else if k.fails then fail .dataError (markBad m.map n s)
        else if s.hostDead a then fail .dataError s
        else .done .ok (leBytes 8 b.length) ((s.write a b).meter (cmdA c) 8 b.length 0)

/-- FT_STATUS (R432). -/
def execFtStatus (c : Cmd) (s : State) : Result State :=
  runCmd 0x70A c s fun s =>
    onModelCmd c (cmdU c 0 2) (cmdTail c 2) s fun slot m =>
      let drain := s.movingNow slot (· == .drain)
      let f := m.ft
      let layer := if drain then 1 else (f.later.map (·.1)).headD 0
      let state := if drain || !f.later.isEmpty then 1 else if f.deferred then 2 else 0
      .done .ok (leBytes 1 state ++ leBytes 1 layer ++ [if f.wants then 1 else 0, 0] ++ f.newest.flatMap fun w => leBytes 4 w.toNat) s

/-! ## The end of a copy (R442 to R445) -/

/-- The arguments of SECURED and SECURE_FAILED. (Log entry 116, DEDUCED.) -/
def copyArgs (m : Model) (layer kind seqno step : Nat) : Bytes :=
  leBytes 2 m.map.num ++ leBytes 1 layer ++ leBytes 1 kind ++ leBytes 4 seqno ++ leBytes 4 step

/-- A checkpoint is committed, and the oldest beyond KEEP are freed (R436). -/
def commitCkpt (m : Model) (record image : Bytes) (s : State) : State :=
  let ks := s.ckptsOf m.map ++ [⟨m.map.acct, m.map.num, record, image, false, false⟩]
  let others := s.ft.ckpts.filter fun k => !(k.acct == m.map.acct && k.model == m.map.num)
  { s with ft := { s.ft with ckpts := others ++ ks.drop (ks.length - max 1 (m.ft.planU 5 1)) } }

/-- The layer that follows a layer-1 copy: the next of the chain; a copy to the Strongbox in place of a deposit stands for the Strongbox
layer. -/
def layerAfter (f : FtModel) (kind : Nat) : Nat :=
  if kind == 2 || f.planU 2 1 == 2 then (if f.planU 3 1 == 0 then 0 else 2)
  else if f.planU 3 1 == 2 && f.planU 4 1 != 0 then 3 else 0

/-- The newest deposit of a model is the one that its partner has acknowledged (R432, R436). -/
def keepSent (m : ModelMap) (record image : Bytes) (s : State) : State :=
  let s := dropSent m.acct m.num s
  { s with ft := { s.ft with sent := s.ft.sent ++ [⟨m.acct, m.num, record, image⟩] } }

/-- A layer-1 copy has committed: its record, SECURED, the end of the moving operation, and the start of a later layer, behind the
later copies that are still in progress (R442). -/
def drainDone (p slot : Nat) (m : Model) (o : MoveOp) (c : CopyJob) (s : State) : State :=
  let r := stampRecord c.record s.mtime
  let s := if c.kind == 2 then keepSent m.map r c.image (sendDeposit m c true s.mtime s) else commitCkpt m r c.image s
  let due := c.crossing || c.request || (m.ft.planU 0xA 2 != 0 && decide (m.ft.planU 0xA 2 ≤ m.ft.copies + 1))
  let next := layerAfter m.ft c.kind
  let note := fun (f : FtModel) =>
    { f with newest := f.newest.set 0 c.step, copies := if due then 0 else f.copies + 1 }
  let s := s.onModel slot fun m => { m with ft := note m.ft }
  let s := if due && next != 0 then setLater slot m (m.ft.later ++ [(next, BitVec.ofNat 32 (recSeq r))]) s else s
  let s := post m.map.acct 6 .ok (copyArgs m 1 c.kind (recSeq r) c.step.toNat) s
  finishWait (.move o.id) .ok (leBytes 4 (recSeq r) ++ leBytes 4 c.step.toNat) (dropRunning p s)

/-- A message that ends a deposit without a record. -/
def abandonDeposit (m : Model) (s : State) : State := match s.jobOf m.map.acct m.map.job with
  | none => s
  | some j => (List.range (s.acctDies m.map.acct).length).foldl (fun s d =>
      sendPart (some (s.dieOfPart m.map d)) j (m.ft.planU 6 2) 13 (leBytes 2 m.map.num ++ leBytes 1 d ++ List.replicate 128 0) s) s

/-- A layer-1 copy has failed: SECURE_FAILED; a deposit that served a crossing runs again to the Strongbox from the same snapshot where
the plan has that layer, and otherwise the operation ends (R445). -/
def drainFailed (p : Nat) (m : Model) (o : MoveOp) (c : CopyJob) (st : Status) (s : State) : State :=
  let s := post m.map.acct 7 st (copyArgs m 1 c.kind (recSeq c.record) c.step.toNat) s
  let s := if c.kind == 2 then abandonDeposit m s else s
  if c.kind == 2 && c.crossing && m.ft.planU 3 1 == 2 then
    let q := nextSeqno s m.map
    let again := { c with kind := 1, record := recordAs c.record 1 0 q.toNat 0, read := [] }
    let s := { s with ft := { s.ft with seqnos := tset s.ft.seqnos (seqnoKey m.map) q } }
    onRunning p (fun o => { o with copy := some again, t0 := some s.mtime }) s
  else finishWait (.move o.id) st [] (dropRunning p s)

/-- The status of a copy's end. -/
def copyStatus : CopyEnd → Status
  | .committed => .ok
  | .noResource => .noResource
  | .dataError => .dataError

/-- The drain that runs on a model. -/
def drainOf (s : State) (slot : Nat) : Option (Nat × MoveOp × CopyJob) := match s.runningMove slot with
  | some (p, o) => if o.kind != .drain then none else o.copy.map fun c => (p, o, c)
  | none => none

/-- A deposit of a model that waits for a route. -/
def FabMsg.deposits (x : FabMsg) (m : ModelMap) : Bool := x.kind == 13 && x.job == m.job && fieldAt x.data 0 2 == m.num

/-- The model's partner is reached by each of its dies, and nothing of the deposit waits for a route (R24, R408, R442). -/
def depositOpen (s : State) (m : Model) : Bool := match s.jobOf m.map.acct m.map.job with
  | none => false
  | some j => ((List.range (s.acctDies m.map.acct).length).all fun d =>
      s.dieReaches (s.dieOfPart m.map d) (j.table.getD (m.ft.planU 6 2) 8192)) && !s.chip.fabric.waits.any fun w => w.msg.deposits m.map

/-- DRAIN_COMMIT: the running layer-1 copy of a model reads what it has not read yet, and commits; or it fails, with DATA_ERROR where
a read fails. A deposit waits for a route to its partner (R408, R442, R445). -/
def execDrainCommit (slot : BitVec 6) (result : CopyEnd) (s : State) : Result State :=
  let k := slot.toNat
  match s.model k, drainOf s k with
  | some m, some (p, o, c) =>
    if result != .committed then .next (drainFailed p m o c (copyStatus result) s)
    else if c.kind == 2 && !depositOpen s m then .next s
    else
      let (read, s) := readLayers k m (layersLeft m c) s
      .next (if read then drainDone p k m o c s else drainFailed p m o c .dataError s)
  | _, _ => .next s

/-- The record and contents that a later layer's copy reads (R442). -/
def laterSource (s : State) (m : Model) (layer : Nat) (seqno : Word) : Option (Bytes × Bytes) :=
  if m.ft.planU layer 1 == 1 then match s.sentOf m.map with
    | some x => if recSeq x.record == seqno.toNat then some (x.record, x.image) else none
    | none => none
  else match (s.ckptsOf m.map).find? fun k => recSeq k.record == seqno.toNat with
    | some k => if k.fails then none else some (k.record, k.image)
    | none => none

/-- The Strongbox read of a later layer's copy has failed: its checkpoint is BAD (R454). -/
def laterUnread (m : Model) (layer : Nat) (seqno : Word) (s : State) : State :=
  if m.ft.planU layer 1 == 2 then markBad m.map seqno.toNat s else s

/-- The later layer's copy in progress has failed, and the layers after it are abandoned; those of a later boundary go on (R445). -/
def laterFailed (slot : Nat) (m : Model) (layer : Nat) (seqno : Word) (st : Status) (s : State) : State :=
  let step := match laterSource s m layer seqno with
    | some x => recStep x.1
    | none => 0
  let kind := if m.ft.planU (layer + 1) 1 == 3 then 3 else 1
  let s := setLater slot m (m.ft.later.drop 1) s
  post m.map.acct 7 st (copyArgs m layer kind seqno.toNat step) s

/-- A later layer's copy has committed in its target, and the layer after it starts (R442). -/
def laterDone (slot : Nat) (m : Model) (layer : Nat) (src : Bytes × Bytes) (s : State) : State :=
  let q := nextSeqno s m.map
  let host := m.ft.planU (layer + 1) 1 == 3
  let r := recordAs src.1 (if host then 3 else 1) 8 q.toNat s.mtime
  let b := exportImage r src.2
  let s := { s with ft := { s.ft with seqnos := tset s.ft.seqnos (seqnoKey m.map) q } }
  let s := if host then (s.write (m.ft.planU 0x10 8) b).meter m.map.acct 8 b.length 0 else commitCkpt m r src.2 s
  let next := if layer == 2 && m.ft.planU 4 1 != 0 then [(3, q)] else []
  let note := fun (f : FtModel) => { f with newest := f.newest.set (layer - 1) (BitVec.ofNat 32 (recStep r)) }
  let s := setLater slot m (next ++ m.ft.later.drop 1) (s.onModel slot fun m => { m with ft := note m.ft })
  post m.map.acct 6 .ok (copyArgs m layer (if host then 3 else 1) q.toNat (recStep r)) s

/-- LATER_LAYER_COPY: the copy to the next layer of the chain commits, or fails; a copy whose source is gone or cannot be read, or that
host memory has no room for, fails. An integrity failure of a read of the Strongbox marks the checkpoint BAD. A later copy pauses while the
Ledger's microcode is activated (R442, R445, R454). -/
def execLaterLayerCopy (slot : BitVec 6) (result : CopyEnd) (s : State) : Result State :=
  let k := slot.toNat
  match s.model k with
  | none => .next s
  | some m => match m.ft.later with
    | [] => .next s
    | (layer, seqno) :: _ =>
      let unread := laterUnread m layer seqno
      if ledgerPaused s then .next s
      else if result != .committed then
        .next (laterFailed k m layer seqno (copyStatus result) (if result == .dataError then unread s else s))
      else match laterSource s m layer seqno with
        | none => .next (laterFailed k m layer seqno .dataError (unread s))
        | some src =>
          let host := m.ft.planU (layer + 1) 1 == 3
          if host && decide (m.ft.planU 0x18 8 < 4096 + src.2.length) then .next (laterFailed k m layer seqno .noResource s)
          else if host && s.hostWaits (m.ft.planU 0x10 8) then .next s
          else if host && s.hostDead (m.ft.planU 0x10 8) then .next (laterFailed k m layer seqno .dataError s)
          else .next (laterDone k m layer src s)

/-- DRAIN_LIMIT_EXPIRY: the copy in progress fails with TIMEOUT (R444, R445). -/
def execDrainLimitExpiry (slot : BitVec 6) (s : State) : Result State :=
  let k := slot.toNat
  match s.model k with
  | none => .next s
  | some m => match drainOf s k, m.ft.later with
    | some (p, o, c), _ => .next (drainFailed p m o c .timeout s)
    | none, (layer, seqno) :: _ => .next (laterFailed k m layer seqno .timeout s)
    | none, [] => .next s

/-! ## Restoring (R447, R448) -/

/-- The length of an image whose copies of eight dies follow each other, each after its length. -/
def imageLen (s : State) (a : Nat) : Nat → Nat → Nat
  | 0, n => n
  | d + 1, n => imageLen s a d (n + 8 + s.readNat (a + n) 8)

/-- An export image at an address lies in the account's host space, from its record's page to the end of its contents (R447, R598). -/
def imageInSpace (s : State) (acct a : Nat) : Bool :=
  inHostSpace acct a 4096 && (s.hostDead a || (
    let n := 4096 + imageLen s (a + 4096) 8 0
    decide (a + n ≤ 2 ^ 52) && inHostSpace acct a n))

/-- A part holds, as OWNER or TWIN, the rectangle of each shard that this part owns (R447). -/
def peerHolds (m : ModelMap) (peer : Nat) : Bool :=
  m.ownedShards.all fun x => m.shards.any fun y => y.part == peer && y.role != 1 && y.sameRect x.1

/-- FT_RESTORE (R447, R448, R598). -/
def execFtRestore (c : Cmd) (s : State) : Result State :=
  runCmd 0x709 c s fun s =>
    let (src, step, peer, a) := (cmdU c 2 1, cmdU c 4 4, cmdU c 8 2, cmdU c 16 8)
    let ok := cmdTail c 24 && decide (1 ≤ src) && decide (src ≤ 4) && cmdZ c 3 1 && cmdZ c 10 6 && addrOk a && (src == 4 || a == 0)
    onModelCmd c (cmdU c 0 2) ok s fun slot m =>
      let held := (s.ckptsOf m.map).filter fun k => recStep k.record == step
      let job : CopyJob := { kind := 0, record := [], image := [], crossing := false, request := false, read := [], source := src,
                             step := BitVec.ofNat 32 step, peer := peer, addr := a }
      if src == 1 && held.any fun k => fieldAt k.record 0x28 8 != m.map.layout.toNat then fail .badArg s
      else if src == 4 && inHostSpace (cmdA c) a 4096 && s.hostWaits a then .hold
      else if src == 4 && !imageInSpace s (cmdA c) a then fail .denied s
      else if (src == 1 && held.isEmpty) || (src == 3 && !peerHolds m.map peer) then fail .notFound s
      else if !m.w.ready || m.led.ustate == .open || m.led.ustate == .held || s.chip.power.partReset.contains (s.partOf m.map.acct) then
        fail .refusedState s
      else requestMove c slot m .restore 0 (fun o => { o with copy := some job }) s

/-- What a restore reads: a record and contents, or the status with which it ends. (Log entry 118, DEDUCED.) -/
def restoreSource (s : State) (m : Model) (c : CopyJob) (data : Option Bytes) : Except Status (Bytes × Bytes) :=
  let step := c.step.toNat
  let checked := fun (r b : Bytes) =>
    if c.source != 3 && fieldAt r 0x28 8 != m.map.layout.toNat then .error .badArg
    else if recStep r != step then .error .notFound else .ok (r, b)
  if c.source == 1 then
    match ((s.ckptsOf m.map).filter fun k => recStep k.record == step).getLast? with
    | none => .error .notFound
    | some k => if k.fails then .error .dataError else checked k.record k.image
  else if c.source == 4 then
    let n := imageLen s (c.addr + 4096) 8 0
    if s.hostDead c.addr then .error .dataError
    else if !imageInSpace s m.map.acct c.addr then .error .denied
    else if s.readNat c.addr 2 != 1 then .error .badArg
    else checked (s.read c.addr 128) (s.read (c.addr + 4096) n)
  else match data with
    | none => .error .notFound
    | some b => checked (b.take 128) (b.drop 128)

/-- Mirrors on this part whose owner is on this part take the restored rows, and the other parts' mirrors are sent theirs (R448). -/
def restoreMirrors (slot : Nat) (m : Model) (s : State) : State :=
  let owners := m.map.ownedShards.filter fun x => x.1.role == 0
  let near := fun (s : State) (x : Shard × Nat) =>
    (m.map.shards.zipIdx.filter fun y => y.1.role == 1 && m.map.mine y.1 && y.1.sameRect x.1).foldl (fun s y =>
      landMirror slot m y (newRows s slot m x) s) (sendMirrors slot m x s)
  owners.foldl near s

/-- What a restore writes: the high halves of the inactive buffer, the low halves and the state. -/
def restoreKeys (s : State) (slot : Nat) (m : Model) : List (Nat × Nat) :=
  ((m.map.ownedShards.map fun x => m.map.layerOf x.1).dedup).flatMap fun l =>
    (List.range 4).flatMap fun d => layerOut s slot m d l

/-- The Strongbox read of a restore has failed: the checkpoint that it read is BAD (R454). -/
def restoreUnread (m : Model) (c : CopyJob) (s : State) : State :=
  if c.source != 1 then s
  else match ((s.ckptsOf m.map).filter fun k => recStep k.record == c.step.toNat).getLast? with
    | some k => markBad m.map (recSeq k.record) s
    | none => s

/-- CKPT_RESTORE_DONE: a restore has read its copy, or has failed; it writes the inactive buffer once nothing reads it, and it completes
when the transfers to its mirrors have landed; a fenced unit that it writes fails it (R190, R448, R502). -/
def execCkptRestoreDone (slot : BitVec 6) (data : Option Bytes) (ok : Bool) (s : State) : Result State :=
  let k := slot.toNat
  match s.model k, s.runningMove k with
  | some m, some (p, o) => match o.copy with
    | none => .next s
    | some c =>
      let stop := fun (st : Status) =>
        finishWait (.move o.id) st [] (dropRunning p (if st == .dataError then restoreUnread m c s else s))
      if o.kind != .restore || o.stage != .moving then .next s
      else if !ok then .next (stop .dataError)
      else if c.source == 4 && s.hostWaits c.addr then .next s
      else match restoreSource s m c data with
        | .error st => .next (stop st)
        | .ok (r, b) =>
          if bufferRead s m then .next s
          else if s.keysFail (restoreKeys s k m) then .next (finishWait (.move o.id) .dataError [] (dropRunning p s))
          else
            let s := restoreMirrors k m (restoreCopy k m b (s.chargeKeys .restore m.map.acct (restoreKeys s k m)))
            .next (tryRestoreEnd p k (onRunning p (fun o => { o with stage := .barrier, copy := some { c with record := r } }) s))
  | _, _ => .next s

/-! ## Routes that do not come back (R408) -/

/-- A started collective or PUT that needs a part at a fabric address, on a die that no candidate port takes there (R24, R408, R428).
-/
def waitsRoute (s : State) (p : Pkg) (d : Desc) (dst : Nat) : Bool :=
  let c := collOf d.raw
  d.kind == 5 && d.state == .started && !s.dieReaches (p.die d) dst && match s.jobSlot p.id.acct.toNat c.jslot with
  | none => false
  | some js =>
    if c.op == 1 then js.table.getD c.peer 8192 == dst && c.peer != js.part
    else match tget js.groups c.group with
      | none => false
      | some ms => ms.any fun x => x.part != js.part && js.table.getD x.part 8192 == dst

/-- Messages for transfers to an address still wait for a route there, and those that wait without one fail now: all that stay are the
messages of CTL, which wait on (R408, R426, R428). -/
def dropRouteWaits (dst : Nat) (s : State) : State :=
  s.onFabric fun f => { f with waits := f.waits.filter fun w => w.msg.dst != dst || w.msg.vc == 3 || w.open s }

/-- A restore of a model ends with DATA_ERROR: it reads from a part at a fabric address to which no route is left, or rows that it has
sent to a mirror there wait for one (R408, R448). -/
def restoreUnreached (dst : Nat) (mirrors : Bool) (m : Model) (p : Nat) (o : MoveOp) (s : State) : State :=
  match o.copy, s.jobOf m.map.acct m.map.job with
  | some c, some j =>
    let reads := o.stage == .moving && (c.source == 2 || c.source == 3) && j.table.getD c.peer 8192 == dst && noRoute s dst
    if o.kind == .restore && (reads || mirrors) then finishWait (.move o.id) .dataError [] (dropRunning p s) else s
  | _, _ => s

/-- What a model still needs a route to a fabric address for fails: a copy to its partner there or from a deposit there, a restore from
there, and rows and feeds for mirrors and twins (R231, R408, R454). -/
def copyUnreached (dst : Nat) (waits : List Waiter) (s : State) (x : Nat × Model) : State :=
  let m := x.2
  let partner := match s.jobOf m.map.acct m.map.job with
    | some j => j.table.getD (m.ft.planU 6 2) 8192 == dst
    | none => false
  let mirrors := waits.any fun w => w.msg.mirrors m.map
  let deposit := waits.any fun w => w.msg.deposits m.map
  let s := match s.runningMove x.1 with
    | some (p, o) => restoreUnreached dst mirrors m p o s
    | none => s
  let s := if mirrors then failStep x.1 s else s
  match drainOf s x.1, m.ft.later with
  | some (p, o, c), _ => if partner && c.kind == 2 && (deposit || !depositOpen s m) then drainFailed p m o c .dataError s else s
  | none, (layer, seqno) :: _ =>
    if partner && m.ft.planU layer 1 == 1 && noRoute s dst then laterFailed x.1 m layer seqno .dataError s else s
  | none, [] => s

/-- ROUTE_WAIT_TIMEOUT: 50 ms after a destination became unreachable, for one die or for all, what waits for a route to it fails (R24,
R408). -/
def execRouteWaitTimeout (dst : BitVec 13) (s : State) : Result State :=
  let a := dst.toNat
  let hit := s.pkgs.filterMap fun p => if !p.running then none else
    (p.descs.find? fun d => waitsRoute s p d a).map fun d => (p.id, p.die d)
  let lost := s.chip.fabric.waits.filter fun w => w.msg.dst == a && w.msg.vc != 3 && !w.open s
  let s := dropRouteWaits a (hit.foldl (fun s x => structFail x.1 x.2 s) s)
  .next (s.models.foldl (copyUnreached a lost) s)

end Sys2Proof.Machine
end

