-- ==== Sys2Proof/Machine/LedgerCmds.lean ====
section
/-!
DEFINITION. The mailbox commands of family 0x06xx: programs, groups, and the steps of a model's Ledger (07 R218 to R223, R231, R232,
R243, R245).
-/
namespace Sys2Proof.Machine

/-! ## Programs (R235, R236, R243) -/

/-- An instruction from its doubleword (R235). -/
def ldgDecode (w : Nat) : LdgIns :=
  let f := fun (lo : Nat) => bitField w lo 8
  ⟨f 56, f 48, f 40, f 32, f 24, f 16, bitField w 0 16⟩

/-- An element register. -/
def ledElem (r : Nat) : Bool := decide (r ≤ 0x10)
/-- A scalar register. -/
def ledScalar (r : Nat) : Bool := decide (0x20 ≤ r) && decide (r ≤ 0x3F)
/-- A matrix register. -/
def ledMat (r : Nat) : Bool := decide (0x40 ≤ r) && decide (r ≤ 0x43)

/-- The sources that an instruction names, in the order A, B, C; a field that it does not use is zero (R237). -/
def LdgIns.sources (i : LdgIns) : List Nat :=
  let n := match i.op with
    | 0x02 | 0x03 | 0x04 | 0x06 | 0x08 | 0x09 | 0x21 | 0x27 | 0x29 => 2
    | 0x05 | 0x0C | 0x24 => 3
    | _ => 1
  if i.op == 0x25 || i.op == 0x26 then [i.a, i.c] else [i.a, i.b, i.c].take n

/-- The fields that an instruction does not use are zero. -/
def LdgIns.restZero (i : LdgIns) : Bool :=
  let one := [0x01, 0x07, 0x0A, 0x0B, 0x0D, 0x20, 0x22, 0x23, 0x28].contains i.op
  let three := [0x05, 0x0C, 0x24].contains i.op
  if i.op == 0x25 || i.op == 0x26 then i.b == 0
  else if one then i.b == 0 && i.c == 0 else three || i.c == 0

/-- MOD holds an FN code, a scope, a transpose bit, or zero (R237). -/
def LdgIns.modOk (i : LdgIns) : Bool :=
  if i.op == 0x0A then decide (i.md < 32) && (Fn.ofCode i.md).isSome
  else if i.op == 0x20 || i.op == 0x21 || i.op == 0x22 then decide (i.md ≤ 2)
  else if i.op == 0x23 || i.op == 0x25 || i.op == 0x26 then decide (i.md ≤ 1)
  else i.md == 0

/-- IMM holds an anchor for a reduction, and zero otherwise (R235). (Log entry 102, DEDUCED.) -/
def LdgIns.immOk (i : LdgIns) : Bool :=
  if [0x20, 0x21, 0x22, 0x23, 0x25, 0x26, 0x28, 0x29].contains i.op then decide (i.imm < 2 ^ 13) else i.imm == 0

/-- D and the sources are of the kinds that R236 and R237 allow, and D may be written. -/
def LdgIns.kindsOk (i : LdgIns) : Bool :=
  let dst := (ledElem i.d && i.d != 0xA && i.d != 0xB) || (ledScalar i.d && decide (0x32 ≤ i.d))
  let src := fun (r : Nat) => ledScalar r || (ledElem i.d && ledElem r)
  let elems := dst && ledElem i.d
  match i.op with
  | 0x20 | 0x22 => dst && ledScalar i.d && ledElem i.a
  | 0x21 => dst && ledScalar i.d && ledElem i.a && ledElem i.b
  | 0x23 => ledMat i.d && ledElem i.a
  | 0x24 => ledMat i.d && ledMat i.a && ledScalar i.b && ledScalar i.c
  | 0x25 | 0x26 => elems && ledMat i.a && ledElem i.c
  | 0x27 => ledMat i.d && ledMat i.a && ledScalar i.b
  | 0x28 => elems && ledElem i.a
  | 0x29 => elems && ledElem i.a && ledScalar i.b && decide (i.b ≤ 0x3D)
  | _ => dst && i.sources.all src

/-- An instruction that UPD_PROG_LOAD accepts (R243). (Log entry 101, DEDUCED.) -/
def LdgIns.ok (i : LdgIns) : Bool :=
  ((decide (1 ≤ i.op) && decide (i.op ≤ 0xD)) || (decide (0x20 ≤ i.op) && decide (i.op ≤ 0x29))) &&
  i.restZero && i.modOk && i.immOk && i.kindsOk

/-- The program slots that an account holds. -/
def progsHeld (s : State) (a : Nat) : Nat := (s.led.slots.filter fun x => x.2.acct == a).length

/-- UPD_PROG_LOAD: a program takes the lowest free slot of the sixteen (R243). -/
def execUpdProgLoad (c : Cmd) (s : State) : Result State :=
  runCmd 0x601 c s fun s =>
    let (a, n) := (cmdU c 0 8, cmdU c 8 1)
    if !cmdTail c 16 || !cmdZ c 9 7 || !addrOk a || a % 64 != 0 || n == 0 || decide (64 < n) then fail .badArg s
    else readFor c a (8 * n) s fun b =>
      let prog := (chunks 8 b).map fun w => ldgDecode (leNat w)
      if !(prog.all LdgIns.ok) then fail .badArg s
      else
        let free := (List.range 16).find? fun k => (tget s.led.slots k).isNone
        match free with
        | none => fail .noResource s
        | some k =>
          if decide ((s.acct (cmdA c)).quota.pslots ≤ progsHeld s (cmdA c)) then fail .noResource s
          else .done .ok (leBytes 1 k) { s with led := { s.led with slots := tset s.led.slots k ⟨cmdA c, prog⟩ } }

/-- UPD_PROG_FREE: BUSY while a group names the slot (R243). -/
def execUpdProgFree (c : Cmd) (s : State) : Result State :=
  runCmd 0x602 c s fun s =>
    let k := cmdU c 0 1
    if !cmdTail c 1 || decide (15 < k) then fail .badArg s
    else match tget s.led.slots k with
      | none => fail .notFound s
      | some p =>
        let named := s.led.groups.any fun g => g.2.slot == k || g.2.fallback == k
        if p.acct != cmdA c then fail .notFound s
        else if named then fail .busy s
        else fail .ok { s with led := { s.led with slots := terase s.led.slots k } }

/-! ## Groups (R220 to R222, R243) -/

/-- An FP32 value that is finite and positive. -/
def positiveF32 (w : Nat) : Bool := decide (0 < w) && decide (w < 0x7F800000)

/-- A curve record follows R222; an OFF curve's other fields are ignored. -/
def curveOk (b : Bytes) : Bool :=
  let kind := fieldAt b 0 1
  let (warm, total) := (fieldAt b 0xC 4, fieldAt b 0x10 4)
  kind == 0 || (decide (kind ≤ 4) && decide (fieldAt b 1 1 < 16) && zeroAt b 2 2 &&
    (decide (kind != 2 && kind != 3) || decide (warm < total)) && (kind != 4 || decide (1 ≤ warm)))

/-- The values of a group entry follow R221. -/
def groupEntryOk (b : Bytes) : Bool :=
  let blk := fieldAt b 6 2
  let br := blk % 64
  fieldAt b 2 1 / 8 == 0 && zeroAt b 5 1 && blk / 4096 == 0 &&
  (blk == 0 || (decide (1 ≤ br) && decide (br ≤ 32) && decide (32 * br * (32 * (blk / 64 + 1)) ≤ 262144))) &&
  positiveF32 (fieldAt b 8 4) && positiveF32 (fieldAt b 0xC 4) && curveOk ((b.drop 0x50).take 20) && curveOk ((b.drop 0x64).take 20) &&
  zeroAt b 0x78 8

/-- The shape of a matrix register as a program goes on: none while it is not known. -/
abbrev QShapes := List (Option (Nat × Nat))

/-- The shape that an instruction gives its matrix destination. -/
def LdgIns.shape (i : LdgIns) (g : Group) (qs : QShapes) : Option (Nat × Nat) :=
  if i.op == 0x23 then some (if i.md % 2 == 1 then (g.bc, g.bc) else (g.br, g.br)) else qs.getD (i.a - 0x40) none

/-- Q3 keeps the shape BR × BR through a program (R243). -/
def q3Kept (g : Group) (p : List LdgIns) : Bool :=
  (p.foldl (fun (a : QShapes × Bool) i =>
    if ledMat i.d then
      let sh := i.shape g a.1
      (a.1.set (i.d - 0x40) sh, a.2 && (i.d != 0x43 || sh == some (g.br, g.br)))
    else a) ([none, none, none, some (g.br, g.br)], true)).2

/-- A matrix operation: it needs a block shape (R243). -/
def LdgIns.isMatrix (i : LdgIns) : Bool := (decide (0x23 ≤ i.op) && decide (i.op ≤ 0x27)) || i.op == 0x29

/-- A program may run in a group (R243). -/
def progFits (g : Group) (p : List LdgIns) : Bool :=
  let off := fun (r : Nat) => decide (0xC ≤ r) && decide (r ≤ 0xF) && g.stateFmt (r - 0xC) == 0
  (p.all fun i => !(off i.d || i.sources.any off) && (!i.isMatrix || !g.noBlock) &&
    !(((i.op == 0x23 && i.md % 2 == 1) || i.op == 0x26) && decide (1024 < g.bc))) && (!g.qsave || q3Kept g p)

/-- The programs of a group are the caller's and fit it, and that of the fallback slot has no CIR or NSNORM (R240, R243). -/
def groupProgs (s : State) (acct : Nat) (g : Group) : Bool :=
  (match tget s.led.slots g.slot with
    | some p => p.acct == acct && progFits g p.prog
    | none => false) &&
  (match tget s.led.slots g.fallback with
    | some p => p.acct == acct && progFits g p.prog && !(p.prog.any LdgIns.mayFail)
    | none => false)

/-- Every training shard of a group's tensors lies on block boundaries (R221). -/
def shardsOnBlocks (s : State) (acct num : Nat) (g : Group) : Bool :=
  g.noBlock || match s.modelOf acct g.model with
  | none => true
  | some m => m.map.shards.all fun x => (m.map.tensor x.tensor).group != num ||
      (x.row0 % g.br == 0 && (x.row1 + 1) % g.br == 0 && x.col0 % g.bc == 0 && (x.col1 + 1) % g.bc == 0)

/-- A model of the account is loaded; one that is being loaded counts as loaded. (Log entry 176, DESIGN CHOICE.) -/
def loadedNow (s : State) (acct : Nat) (x : Nat × Model) : Bool := x.2.map.acct == acct && (x.2.w.ready || s.movingNow x.1 (· == .load))

/-- A loaded model of the account has a map that names a group. -/
def groupLoaded (s : State) (acct num : Nat) : Bool := s.models.any fun x => loadedNow s acct x && x.2.map.tensors.any fun t => t.group == num

/-- A change that an entry does not allow while its model is loaded, whatever the model's map names (R221). -/
def groupFixed (s : State) (acct num : Nat) (old new : Group) : Bool :=
  let thawed := old.frozen && !new.frozen && s.models.any fun x => x.2.map.acct == acct && x.2.map.num == old.model && x.2.w.ready &&
    x.2.map.tensors.any fun t => t.group == num && t.frozen
  (groupLoaded s acct num || s.models.any fun x => loadedNow s acct x && x.2.map.num == old.model) &&
    (old.sr16 != new.sr16 || old.qsave != new.qsave || old.u 4 1 != new.u 4 1 || thawed)

/-- A step of a model of the account is OPEN. -/
def stepOpen (s : State) (acct num : Nat) : Bool := match s.modelOf acct num with
  | some m => m.led.ustate == .open
  | none => false

/-- UPD_GROUP_SET (R220, R221, R243). -/
def execUpdGroupSet (c : Cmd) (s : State) : Result State :=
  runCmd 0x603 c s fun s =>
    let (n, a) := (cmdU c 0 2, cmdU c 8 8)
    let acct := cmdA c
    if !cmdTail c 16 || !cmdZ c 2 6 || !addrOk a || decide (4095 < n) then fail .badArg s
    else
      let old := tget s.led.groups n
      let other := match old with
        | some g => g.acct != acct
        | none => false
      if other then fail .denied s
      else readFor c a 128 s fun b =>
        let g : Group := ⟨acct, b⟩
        let mine := (s.led.groups.filter fun x => x.2.acct == acct).length
        let busy := stepOpen s acct g.model || match old with
          | some o => stepOpen s acct o.model
          | none => false
        let fixed := match old with
          | some o => groupFixed s acct n o g
          | none => false
        if !groupEntryOk b then fail .badArg s
        else if old.isNone && decide ((s.acct acct).quota.groups ≤ mine) then fail .noResource s
        else if busy then fail .busy s
        else if fixed then fail .refusedState s
        else if !shardsOnBlocks s acct n g || !groupProgs s acct g then fail .badArg s
        else fail .ok { s with led := { s.led with groups := tset s.led.groups n g } }

/-- UPD_GROUP_READ (R218). -/
def execUpdGroupRead (c : Cmd) (s : State) : Result State :=
  runCmd 0x604 c s fun s =>
    let (n, a) := (cmdU c 0 2, cmdU c 8 8)
    if !cmdTail c 16 || !cmdZ c 2 6 || !addrOk a || decide (4095 < n) then fail .badArg s
    else match tget s.led.groups n with
      | none => fail .notFound s
      | some g => if g.acct != cmdA c then fail .notFound s
        else writeFor c a 128 s fun put => .done .ok [] (put (padTo 128 g.raw))

/-- UPD_GROUP_FREE: BUSY while a loaded model's map names the group (R220). -/
def execUpdGroupFree (c : Cmd) (s : State) : Result State :=
  runCmd 0x60B c s fun s =>
    let n := cmdU c 0 2
    if !cmdTail c 2 || decide (4095 < n) then fail .badArg s
    else match tget s.led.groups n with
      | none => fail .notFound s
      | some g =>
        if g.acct != cmdA c then fail .notFound s
        else if groupLoaded s (cmdA c) n then fail .busy s
        else fail .ok { s with led := { s.led with groups := terase s.led.groups n } }

/-! ## Steps (R219, R223, R231, R232, R245) -/

/-- A learning-phase package bound to a model is resident (R199, R219). -/
def learningResident (s : State) (m : ModelMap) : Bool :=
  s.pkgs.any fun p => p.resident && p.phase == .learning && p.id.acct.toNat == m.acct && p.model == m.num

/-- UPD_MODEL_SET; a change of GRADMODE that meets both rows is REFUSED_STATE (R199, R219, log entry 174, DESIGN CHOICE). -/
def execUpdModelSet (c : Cmd) (s : State) : Result State :=
  runCmd 0x605 c s fun s =>
    let (f, v) := (cmdU c 2 1, cmdU c 8 8)
    let ok := cmdTail c 16 && cmdZ c 3 5 &&
      (match f with
        | 1 => decide (v ≤ 1)
        | 2 => true
        | 3 => decide (v < 2 ^ 32)
        | _ => false)
    onModelCmd c (cmdU c 0 2) ok s fun slot m =>
      if m.led.ustate != .idle then fail .refusedState s
      else if f == 1 && learningResident s m.map then fail .busy s
      else
        let set := fun (l : LedModel) =>
          if f == 1 then { l with calibrate := v == 1 }
          else if f == 2 then { l with seed := BitVec.ofNat 64 v }
          else { l with nextStep := BitVec.ofNat 32 v }
        fail .ok (s.onModel slot fun m => { m with led := set m.led })

/-- UPD_BEGIN: the rows of R223, in order; during a turn it is HELD. -/
def execUpdBegin (c : Cmd) (s : State) : Result State :=
  runCmd 0x606 c s fun s =>
    let limit := cmdU c 16 4
    let ok := cmdTail c 20 && decide (cmdU c 2 1 < 2) && cmdZ c 3 1 && decide (1 ≤ limit) && decide (limit ≤ 600000)
    onModelCmd c (cmdU c 0 2) ok s fun slot m =>
      if m.led.ustate == .open || m.led.ustate == .held then fail .busy s
      else if !m.w.ready || m.led.ustate == .torn || cmdU c 4 4 != m.led.nextStep.toNat then fail .refusedState s
      else if s.movingNow slot (· == .turn) then
        .wait (.held slot) (s.onModel slot fun m => { m with led := { m.led with ustate := .held, heldCmd := some c } })
      else if beginRefused m c then fail .refusedState s
      else fail .ok (openStep slot c s)

/-- The open step that a command names by its STEP. -/
def namedStep (m : Model) (step : Nat) : Option LedStep := match m.led.step with
  | some st => if m.led.ustate == .open && st.step.toNat == step then some st else none
  | none => none

/-- UPD_COMMIT (R231). -/
def execUpdCommit (c : Cmd) (s : State) : Result State :=
  runCmd 0x607 c s fun s =>
    onModelCmd c (cmdU c 0 2) (cmdTail c 8 && cmdZ c 2 2) s fun slot m =>
      match namedStep m (cmdU c 4 4) with
      | none => fail .refusedState s
      | some st =>
        if st.denied then fail .denied s
        else
          let s := onStep slot (fun st => { st with commit := true }) s
          if stepWritten s m.map st then .done .ok (commitBytes s m.map st) (tryCommit slot s)
          else .wait (.commit slot) s

/-- UPD_ABORT: the step is abandoned, CLEAN or TORN, and an UPD_COMMIT that waits completes with ABORTED (R232).
(Log entry 103, DEDUCED.) -/
def execUpdAbort (c : Cmd) (s : State) : Result State :=
  runCmd 0x608 c s fun s =>
    onModelCmd c (cmdU c 0 2) (cmdTail c 8 && cmdZ c 2 2) s fun slot m =>
      match namedStep m (cmdU c 4 4) with
      | none => fail .refusedState s
      | some st =>
        let s := finishWait (.commit slot) .aborted [] s
        .done .ok [if st.begun2 then 1 else 0] (s.onModel slot fun m => { m with led := m.led.abandon })

/-- The codes of USTATE (R218). -/
def UState.code : UState → Nat
  | .idle => 0 | .open => 1 | .held => 2 | .torn => 3

/-- UPD_STATUS; with no step open no layer is written and none is ready (R218, log entry 175, DESIGN CHOICE). -/
def execUpdStatus (c : Cmd) (s : State) : Result State :=
  runCmd 0x609 c s fun s =>
    onModelCmd c (cmdU c 0 2) (cmdTail c 2) s fun _ m =>
      let (w, r) := match m.led.step with
        | some st => (layersWritten s m.map st, layersReady s m.map st)
        | none => (0, 0)
      .done .ok (leBytes 1 m.led.ustate.code ++ [0, 0, 0] ++ leBytes 4 m.led.nextStep.toNat ++ leBytes 4 w ++ leBytes 4 r) s

/-- UPD_MON_READ: the records of one of the last four committed steps (R245). (Log entry 135, DESIGN CHOICE.) -/
def execUpdMonRead (c : Cmd) (s : State) : Result State :=
  runCmd 0x60A c s fun s =>
    let a := cmdU c 8 8
    onModelCmd c (cmdU c 0 2) (cmdTail c 16 && cmdZ c 2 2 && addrOk a) s fun _ m =>
      match m.led.mon.reverse.find? fun x => x.1.toNat == cmdU c 4 4 with
      | none => fail .notFound s
      | some x =>
        if x.2.isEmpty then .done .ok (leBytes 2 0) s
        else writeFor c a (192 * x.2.length) s fun put => .done .ok (leBytes 2 x.2.length) (put x.2.flatten)

end Sys2Proof.Machine
end

