-- ==== Sys2Proof/Machine/Links.lean ====
section
/-!
DEFINITION. FUNCTION resets and the coming and going of virtual functions (12 R382, 15 R456, 16 R506, 17 R526).
-/
namespace Sys2Proof.Machine

/-- Every command of a function that is taken, and every one that waits, is forgotten: it completes without a response (R506). -/
def forgetCmds (fn : Nat) (s : State) : State :=
  { s with mail := { s.mail with waiting := s.mail.waiting.filter (fun w => cmdA w.cmd != fn),
                                 heldWake := s.mail.heldWake.filter fun t => cmdA t.cmd != fn } }

/-- A FUNCTION reset: the mailbox, slots, ring, aperture and MSI-X table return to their reset values at once, and an ENABLED
account starts the stop procedure under cause RESET. An account that is NONE has nothing to stop, and its mailbox is ready
again (R382, R456, R477, R506). (Log entry 71, DEDUCED.) -/
def functionReset (fn : Nat) (s : State) : State :=
  if !s.fnExists fn then s
  else
    let s := forgetCmds fn ((s.onFunc fn fun _ => Func.reset).onAper fn fun _ => Aper.reset)
    match (s.acct fn).state with
    | .enabled | .stopping => disableCause fn (fun c => { c with reset := true }) s
    | .none => if s.chip.power.mailboxReady then s.onFunc fn fun f => { f with ready := true } else s
    | .disabled => s

/-- FUNCTION resets of every function of a host port. -/
def portReset (p : Nat) (s : State) : State := (List.range 256).foldl (fun s f => functionReset (256 * p + f) s) (beforeReset s)

/-- FUNCTION_LEVEL_RESET (R382). -/
def execFunctionLevelReset (fn : BitVec 10) (s : State) : Result State :=
  .next (if s.fnExists fn.toNat && !s.off then functionReset fn.toNat (beforeReset s) else s)

/-- HOT_RESET (R382). -/
def execHotReset (port : BitVec 2) (s : State) : Result State := .next (s.whenOn (portReset port.toNat s))

/-- LINK_DISABLE: the port's functions are reset; the port stays lit and waits for the host to retrain it (R382, R383). -/
def execLinkDisable (port : BitVec 2) (s : State) : Result State :=
  let t := hostDown port.toNat (portReset port.toNat s)
  .next (s.whenOn <| t.onPort (64 + port.toNat) fun x => if x.cause == 0 then Port.lit (64 + port.toNat) { x with state := .seeking } else x)

/-- VF_DISABLE: virtual functions above `num` cease to exist, and cause ABSENT comes into force for their accounts (R456). -/
def execVfDisable (port : BitVec 2) (num : BitVec 8) (s : State) : Result State :=
  let (p, n) := (port.toNat, num.toNat)
  let old := (s.link p).numVfs
  let gone := (List.range (old - n)).map fun i => 256 * p + n + 1 + i
  let t := s.onLink p fun l => { l with numVfs := min old n }
  .next (s.whenOn <| gone.foldl (fun s a => (disableCause a (fun c => { c with absent := true }) s).onFunc a fun f => { f with ready := false }) t)

/-- A virtual function comes into existence: ABSENT is over, its account is ENABLED again where no other cause holds it, and its
mailbox is ready (R456, R471, R531). (Log entry 84, DEDUCED.) -/
def functionAppears (a : Nat) (s : State) : State :=
  let s := s.onAcct a fun x => { x with causes := { x.causes with absent := false } }
  let x := s.acct a
  let s := if x.state == .disabled && !x.causes.admin then enterEnabled a s else s
  if s.chip.power.mailboxReady && (s.acct a).state != .stopping then s.onFunc a fun f => { f with ready := true } else s

/-- VF_ENABLE: virtual functions up to `num` exist (R456). -/
def execVfEnable (port : BitVec 2) (num : BitVec 8) (s : State) : Result State :=
  let (p, n) := (port.toNat, num.toNat)
  let old := (s.link p).numVfs
  let come := (List.range (n - old)).map fun i => 256 * p + old + 1 + i
  .next (s.whenOn <| come.foldl (fun s a => functionAppears a s) (s.onLink p fun l => { l with numVfs := max old n }))

end Sys2Proof.Machine
end

