-- ==== Sys2Proof/Machine/Dispatch.lean ====
section
/-!
DEFINITION. The dispatch of commands to their meanings: one arm per constructor of Instr.
-/
namespace Sys2Proof.Machine

def exec (i : Instr) (s : State) : Host.Outcome State Fault Refusal :=
  match i with
  | .cmdDb fn value => Sys2Proof.Machine.execCmdDb fn value s
  | .commandTake port => Sys2Proof.Machine.execCommandTake port s
  | .firmwareAccept => Sys2Proof.Machine.execFirmwareAccept s
  | .ntfTail fn value => Sys2Proof.Machine.execNtfTail fn value s
  | .registerWrite fn off data => Sys2Proof.Machine.execRegisterWrite fn off data s
  | .mtimeLoRead fn => Sys2Proof.Machine.execMtimeLoRead fn s
  | .cntValLowRead fn scope index => Sys2Proof.Machine.execCntValLowRead fn scope index s
  | .apertureRead fn off len => Sys2Proof.Machine.execApertureRead fn off len s
  | .apertureWrite fn off data => Sys2Proof.Machine.execApertureWrite fn off data s
  | .msixUnmask fn vector => Sys2Proof.Machine.execMsixUnmask fn vector s
  | .negotiate c => Sys2Proof.Machine.execNegotiate c s
  | .identify c => Sys2Proof.Machine.execIdentify c s
  | .unitQuery c => Sys2Proof.Machine.execUnitQuery c s
  | .unitReconcile c => Sys2Proof.Machine.execUnitReconcile c s
  | .notifyMask c => Sys2Proof.Machine.execNotifyMask c s
  | .acctCreate c => Sys2Proof.Machine.execAcctCreate c s
  | .acctModify c => Sys2Proof.Machine.execAcctModify c s
  | .acctDisable c => Sys2Proof.Machine.execAcctDisable c s
  | .acctEnable c => Sys2Proof.Machine.execAcctEnable c s
  | .acctDestroy c => Sys2Proof.Machine.execAcctDestroy c s
  | .acctQuery c => Sys2Proof.Machine.execAcctQuery c s
  | .acctMemGrant c => Sys2Proof.Machine.execAcctMemGrant c s
  | .acctMemRevoke c => Sys2Proof.Machine.execAcctMemRevoke c s
  | .partSet c => Sys2Proof.Machine.execPartSet c s
  | .rightSet c => Sys2Proof.Machine.execRightSet c s
  | .acctFlagsSet c => Sys2Proof.Machine.execAcctFlagsSet c s
  | .memMapQuery c => Sys2Proof.Machine.execMemMapQuery c s
  | .memCreditSet c => Sys2Proof.Machine.execMemCreditSet c s
  | .memCreditQuery c => Sys2Proof.Machine.execMemCreditQuery c s
  | .memErrQuery c => Sys2Proof.Machine.execMemErrQuery c s
  | .kvModelSet c => Sys2Proof.Machine.execKvModelSet c s
  | .kvPoolSet c => Sys2Proof.Machine.execKvPoolSet c s
  | .kvVaultSet c => Sys2Proof.Machine.execKvVaultSet c s
  | .kvDomainCreate c => Sys2Proof.Machine.execKvDomainCreate c s
  | .kvDomainGrant c => Sys2Proof.Machine.execKvDomainGrant c s
  | .kvDomainJoin c => Sys2Proof.Machine.execKvDomainJoin c s
  | .kvDomainLeave c => Sys2Proof.Machine.execKvDomainLeave c s
  | .kvFlush c => Sys2Proof.Machine.execKvFlush c s
  | .kvPoolQuery c => Sys2Proof.Machine.execKvPoolQuery c s
  | .wpSubmit c => Sys2Proof.Machine.execWpSubmit c s
  | .wpCancel c => Sys2Proof.Machine.execWpCancel c s
  | .wpQuery c => Sys2Proof.Machine.execWpQuery c s
  | .semRead c => Sys2Proof.Machine.execSemRead c s
  | .semSet c => Sys2Proof.Machine.execSemSet c s
  | .semSignal c => Sys2Proof.Machine.execSemSignal c s
  | .wtCreate c => Sys2Proof.Machine.execWtCreate c s
  | .wtLoad c => Sys2Proof.Machine.execWtLoad c s
  | .wtTurn c => Sys2Proof.Machine.execWtTurn c s
  | .wtLearn c => Sys2Proof.Machine.execWtLearn c s
  | .wtRebuild c => Sys2Proof.Machine.execWtRebuild c s
  | .wtQuery c => Sys2Proof.Machine.execWtQuery c s
  | .wtAnchorSet c => Sys2Proof.Machine.execWtAnchorSet c s
  | .wtGenDrop c => Sys2Proof.Machine.execWtGenDrop c s
  | .wtUnload c => Sys2Proof.Machine.execWtUnload c s
  | .seqAdmit c => Sys2Proof.Machine.execSeqAdmit c s
  | .seqCancel c => Sys2Proof.Machine.execSeqCancel c s
  | .seqQuery c => Sys2Proof.Machine.execSeqQuery c s
  | .seqPause c => Sys2Proof.Machine.execSeqPause c s
  | .seqResume c => Sys2Proof.Machine.execSeqResume c s
  | .seqPark c => Sys2Proof.Machine.execSeqPark c s
  | .seqRelease c => Sys2Proof.Machine.execSeqRelease c s
  | .seqDraft c => Sys2Proof.Machine.execSeqDraft c s
  | .seqModelSet c => Sys2Proof.Machine.execSeqModelSet c s
  | .seqPrefillSet c => Sys2Proof.Machine.execSeqPrefillSet c s
  | .seqDecodeSet c => Sys2Proof.Machine.execSeqDecodeSet c s
  | .updProgLoad c => Sys2Proof.Machine.execUpdProgLoad c s
  | .updProgFree c => Sys2Proof.Machine.execUpdProgFree c s
  | .updGroupSet c => Sys2Proof.Machine.execUpdGroupSet c s
  | .updGroupRead c => Sys2Proof.Machine.execUpdGroupRead c s
  | .updModelSet c => Sys2Proof.Machine.execUpdModelSet c s
  | .updBegin c => Sys2Proof.Machine.execUpdBegin c s
  | .updCommit c => Sys2Proof.Machine.execUpdCommit c s
  | .updAbort c => Sys2Proof.Machine.execUpdAbort c s
  | .updStatus c => Sys2Proof.Machine.execUpdStatus c s
  | .updMonRead c => Sys2Proof.Machine.execUpdMonRead c s
  | .updGroupFree c => Sys2Proof.Machine.execUpdGroupFree c s
  | .ftRiskQuery c => Sys2Proof.Machine.execFtRiskQuery c s
  | .ftThreshSet c => Sys2Proof.Machine.execFtThreshSet c s
  | .ftPlanSet c => Sys2Proof.Machine.execFtPlanSet c s
  | .ftDepositSet c => Sys2Proof.Machine.execFtDepositSet c s
  | .ftSecure c => Sys2Proof.Machine.execFtSecure c s
  | .ftCkptList c => Sys2Proof.Machine.execFtCkptList c s
  | .ftCkptDrop c => Sys2Proof.Machine.execFtCkptDrop c s
  | .ftExport c => Sys2Proof.Machine.execFtExport c s
  | .ftRestore c => Sys2Proof.Machine.execFtRestore c s
  | .ftStatus c => Sys2Proof.Machine.execFtStatus c s
  | .pwrStateSet c => Sys2Proof.Machine.execPwrStateSet c s
  | .pwrQuery c => Sys2Proof.Machine.execPwrQuery c s
  | .pwrBoundsSet c => Sys2Proof.Machine.execPwrBoundsSet c s
  | .pwrReset c => Sys2Proof.Machine.execPwrReset c s
  | .fwWrite c => Sys2Proof.Machine.execFwWrite c s
  | .fwActivate c => Sys2Proof.Machine.execFwActivate c s
  | .fwQuery c => Sys2Proof.Machine.execFwQuery c s
  | .fwFloorRaise c => Sys2Proof.Machine.execFwFloorRaise c s
  | .fwLock c => Sys2Proof.Machine.execFwLock c s
  | .lcNonce c => Sys2Proof.Machine.execLcNonce c s
  | .lcChange c => Sys2Proof.Machine.execLcChange c s
  | .tallyRead c => Sys2Proof.Machine.execTallyRead c s
  | .tallyReadAll c => Sys2Proof.Machine.execTallyReadAll c s
  | .cntSet c => Sys2Proof.Machine.execCntSet c s
  | .cntSnap c => Sys2Proof.Machine.execCntSnap c s
  | .cntSample c => Sys2Proof.Machine.execCntSample c s
  | .cntCatalog c => Sys2Proof.Machine.execCntCatalog c s
  | .numRead c => Sys2Proof.Machine.execNumRead c s
  | .numAmaxRead c => Sys2Proof.Machine.execNumAmaxRead c s
  | .numAmaxSet c => Sys2Proof.Machine.execNumAmaxSet c s
  | .numAmaxRoll c => Sys2Proof.Machine.execNumAmaxRoll c s
  | .portQuery c => Sys2Proof.Machine.execPortQuery c s
  | .portBoundsSet c => Sys2Proof.Machine.execPortBoundsSet c s
  | .portEnable c => Sys2Proof.Machine.execPortEnable c s
  | .beaconStatus c => Sys2Proof.Machine.execBeaconStatus c s
  | .beaconSend c => Sys2Proof.Machine.execBeaconSend c s
  | .fabOrigin c => Sys2Proof.Machine.execFabOrigin c s
  | .fabAddrQuery c => Sys2Proof.Machine.execFabAddrQuery c s
  | .fabRouteSet c => Sys2Proof.Machine.execFabRouteSet c s
  | .fabRouteQuery c => Sys2Proof.Machine.execFabRouteQuery c s
  | .fabJobJoin c => Sys2Proof.Machine.execFabJobJoin c s
  | .fabJobLeave c => Sys2Proof.Machine.execFabJobLeave c s
  | .fabGroupSet c => Sys2Proof.Machine.execFabGroupSet c s
  | .fabDropSet c => Sys2Proof.Machine.execFabDropSet c s
  | .fabJobQuery c => Sys2Proof.Machine.execFabJobQuery c s
  | .packageStart p => Sys2Proof.Machine.execPackageStart p s
  | .descriptorStart d => Sys2Proof.Machine.execDescriptorStart d s
  | .tile d => Sys2Proof.Machine.execTile d s
  | .tilePassEnd d => Sys2Proof.Machine.execTilePassEnd d s
  | .vectorProgram d => Sys2Proof.Machine.execVectorProgram d s
  | .xfer d => Sys2Proof.Machine.execXfer d s
  | .sync d => Sys2Proof.Machine.execSync d s
  | .prefetch d => Sys2Proof.Machine.execPrefetch d s
  | .lfeed d => Sys2Proof.Machine.execLfeed d s
  | .put d => Sys2Proof.Machine.execPut d s
  | .allreduce d => Sys2Proof.Machine.execAllreduce d s
  | .reduce d => Sys2Proof.Machine.execReduce d s
  | .broadcast d => Sys2Proof.Machine.execBroadcast d s
  | .allgather d => Sys2Proof.Machine.execAllgather d s
  | .barrier d => Sys2Proof.Machine.execBarrier d s
  | .roundComplete d others => Sys2Proof.Machine.execRoundComplete d others s
  | .descriptorComplete d => Sys2Proof.Machine.execDescriptorComplete d s
  | .runLimitExpiry p => Sys2Proof.Machine.execRunLimitExpiry p s
  | .vectorTimeLimit core => Sys2Proof.Machine.execVectorTimeLimit core s
  | .budgetExhausted h => Sys2Proof.Machine.execBudgetExhausted h s
  | .forcedStop p => Sys2Proof.Machine.execForcedStop p s
  | .add h d a b => Sys2Proof.Machine.execAdd h d a b s
  | .sub h d a b => Sys2Proof.Machine.execSub h d a b s
  | .and h d a b => Sys2Proof.Machine.execAnd h d a b s
  | .or h d a b => Sys2Proof.Machine.execOr h d a b s
  | .xor h d a b => Sys2Proof.Machine.execXor h d a b s
  | .sll h d a b => Sys2Proof.Machine.execSll h d a b s
  | .srl h d a b => Sys2Proof.Machine.execSrl h d a b s
  | .sra h d a b => Sys2Proof.Machine.execSra h d a b s
  | .slt h d a b => Sys2Proof.Machine.execSlt h d a b s
  | .sltu h d a b => Sys2Proof.Machine.execSltu h d a b s
  | .min h d a b => Sys2Proof.Machine.execMin h d a b s
  | .max h d a b => Sys2Proof.Machine.execMax h d a b s
  | .mul h d a b => Sys2Proof.Machine.execMul h d a b s
  | .addi h d a imm => Sys2Proof.Machine.execAddi h d a imm s
  | .andi h d a imm => Sys2Proof.Machine.execAndi h d a imm s
  | .ori h d a imm => Sys2Proof.Machine.execOri h d a imm s
  | .xori h d a imm => Sys2Proof.Machine.execXori h d a imm s
  | .shi h d a kind amt => Sys2Proof.Machine.execShi h d a kind amt s
  | .lui h d imm => Sys2Proof.Machine.execLui h d imm s
  | .slti h d a imm => Sys2Proof.Machine.execSlti h d a imm s
  | .fadd h d a b => Sys2Proof.Machine.execFadd h d a b s
  | .fsub h d a b => Sys2Proof.Machine.execFsub h d a b s
  | .fmul h d a b => Sys2Proof.Machine.execFmul h d a b s
  | .fdiv h d a b => Sys2Proof.Machine.execFdiv h d a b s
  | .fsqrt h d a => Sys2Proof.Machine.execFsqrt h d a s
  | .fmin h d a b => Sys2Proof.Machine.execFmin h d a b s
  | .fmax h d a b => Sys2Proof.Machine.execFmax h d a b s
  | .ffma h d a b => Sys2Proof.Machine.execFfma h d a b s
  | .feq h d a b => Sys2Proof.Machine.execFeq h d a b s
  | .flt h d a b => Sys2Proof.Machine.execFlt h d a b s
  | .fle h d a b => Sys2Proof.Machine.execFle h d a b s
  | .funord h d a b => Sys2Proof.Machine.execFunord h d a b s
  | .fcvt h d a op => Sys2Proof.Machine.execFcvt h d a op s
  | .br h cond a off => Sys2Proof.Machine.execBr h cond a off s
  | .halt h => Sys2Proof.Machine.execHalt h s
  | .semwait h imm a => Sys2Proof.Machine.execSemwait h imm a s
  | .semsignal h imm => Sys2Proof.Machine.execSemsignal h imm s
  | .xpost h d a w => Sys2Proof.Machine.execXpost h d a w s
  | .ld h d a w size sx disp => Sys2Proof.Machine.execLd h d a w size sx disp s
  | .st h d a w size disp => Sys2Proof.Machine.execSt h d a w size disp s
  | .vadd h fmt d a b pm => Sys2Proof.Machine.execVadd h fmt d a b pm s
  | .vsub h fmt d a b pm => Sys2Proof.Machine.execVsub h fmt d a b pm s
  | .vmul h fmt d a b pm => Sys2Proof.Machine.execVmul h fmt d a b pm s
  | .vfma h fmt d a b pm => Sys2Proof.Machine.execVfma h fmt d a b pm s
  | .vmin h fmt d a b pm => Sys2Proof.Machine.execVmin h fmt d a b pm s
  | .vmax h fmt d a b pm => Sys2Proof.Machine.execVmax h fmt d a b pm s
  | .vdiv h fmt d a b pm => Sys2Proof.Machine.execVdiv h fmt d a b pm s
  | .vsqrt h fmt d a pm => Sys2Proof.Machine.execVsqrt h fmt d a pm s
  | .vcmp h op d a b pm => Sys2Proof.Machine.execVcmp h op d a b pm s
  | .pand h d a b pm => Sys2Proof.Machine.execPand h d a b pm s
  | .por h d a b pm => Sys2Proof.Machine.execPor h d a b pm s
  | .pxor h d a b pm => Sys2Proof.Machine.execPxor h d a b pm s
  | .pandn h d a b pm => Sys2Proof.Machine.execPandn h d a b pm s
  | .pnot h d a pm => Sys2Proof.Machine.execPnot h d a pm s
  | .vsel h d a b pm => Sys2Proof.Machine.execVsel h d a b pm s
  | .vintOp h op d a b pm => Sys2Proof.Machine.execVintOp h op d a b pm s
  | .viota h d pm => Sys2Proof.Machine.execViota h d pm s
  | .vcvt h d a src dst cvt pm => Sys2Proof.Machine.execVcvt h d a src dst cvt pm s
  | .vmxPack h d a fmt pm => Sys2Proof.Machine.execVmxPack h d a fmt pm s
  | .vmxUnpack h d a fmt pm => Sys2Proof.Machine.execVmxUnpack h d a fmt pm s
  | .vfn h d a f pm => Sys2Proof.Machine.execVfn h d a f pm s
  | .vact h d a b act pm => Sys2Proof.Machine.execVact h d a b act pm s
  | .vdact h d a b act pm => Sys2Proof.Machine.execVdact h d a b act pm s
  | .apset h a => Sys2Proof.Machine.execApset h a s
  | .vperm h d a b pm => Sys2Proof.Machine.execVperm h d a b pm s
  | .vbcast h d a pm => Sys2Proof.Machine.execVbcast h d a pm s
  | .vrot h d a b pm => Sys2Proof.Machine.execVrot h d a b pm s
  | .vlane h d a b pm => Sys2Proof.Machine.execVlane h d a b pm s
  | .vrclr h d => Sys2Proof.Machine.execVrclr h d s
  | .vrsum h d a pm => Sys2Proof.Machine.execVrsum h d a pm s
  | .vrdot h d a b pm => Sys2Proof.Machine.execVrdot h d a b pm s
  | .vrfin h d a b => Sys2Proof.Machine.execVrfin h d a b s
  | .vrmax h d a pm merge => Sys2Proof.Machine.execVrmax h d a pm merge s
  | .vrmin h d a pm merge => Sys2Proof.Machine.execVrmin h d a pm merge s
  | .vrarg h d a b pm => Sys2Proof.Machine.execVrarg h d a b pm s
  | .vrput h d a w => Sys2Proof.Machine.execVrput h d a w s
  | .vrget h d a w => Sys2Proof.Machine.execVrget h d a w s
  | .vld h fmt d a w pm => Sys2Proof.Machine.execVld h fmt d a w pm s
  | .vst h fmt d a w pm => Sys2Proof.Machine.execVst h fmt d a w pm s
  | .vgather h d a b w pm => Sys2Proof.Machine.execVgather h d a b w pm s
  | .vscatter h d a b w pm => Sys2Proof.Machine.execVscatter h d a b w pm s
  | .vsample h a w => Sys2Proof.Machine.execVsample h a w s
  | .vrand h d a b pm => Sys2Proof.Machine.execVrand h d a b pm s
  | .ldgMov ld d a => Sys2Proof.Machine.execLdgMov ld d a s
  | .ldgAdd ld d a b => Sys2Proof.Machine.execLdgAdd ld d a b s
  | .ldgSub ld d a b => Sys2Proof.Machine.execLdgSub ld d a b s
  | .ldgMul ld d a b => Sys2Proof.Machine.execLdgMul ld d a b s
  | .ldgFma ld d a b c => Sys2Proof.Machine.execLdgFma ld d a b c s
  | .ldgDiv ld d a b => Sys2Proof.Machine.execLdgDiv ld d a b s
  | .ldgSqrt ld d a => Sys2Proof.Machine.execLdgSqrt ld d a s
  | .ldgMin ld d a b => Sys2Proof.Machine.execLdgMin ld d a b s
  | .ldgMax ld d a b => Sys2Proof.Machine.execLdgMax ld d a b s
  | .ldgFn ld d a f => Sys2Proof.Machine.execLdgFn ld d a f s
  | .sign ld d a => Sys2Proof.Machine.execSign ld d a s
  | .sel ld d a b c => Sys2Proof.Machine.execSel ld d a b c s
  | .abs ld d a => Sys2Proof.Machine.execAbs ld d a s
  | .rsum ld d a scope imm => Sys2Proof.Machine.execRsum ld d a scope imm s
  | .rdot ld d a b scope imm => Sys2Proof.Machine.execRdot ld d a b scope imm s
  | .rmax ld d a scope => Sys2Proof.Machine.execRmax ld d a scope s
  | .gram ld d a tp imm => Sys2Proof.Machine.execGram ld d a tp imm s
  | .qema ld d a b c => Sys2Proof.Machine.execQema ld d a b c s
  | .mml ld d a c tp imm => Sys2Proof.Machine.execMml ld d a c tp imm s
  | .mmr ld d a c tp imm => Sys2Proof.Machine.execMmr ld d a c tp imm s
  | .cir ld d a b => Sys2Proof.Machine.execCir ld d a b s
  | .nsnorm ld d a imm => Sys2Proof.Machine.execNsnorm ld d a imm s
  | .nsstep ld d a b imm => Sys2Proof.Machine.execNsstep ld d a b imm s
  | .layerPass1 slot ld layer => Sys2Proof.Machine.execLayerPass1 slot ld layer s
  | .ledgerCombine slot layer others failed => Sys2Proof.Machine.execLedgerCombine slot layer others failed s
  | .layerPass2 slot ld layer => Sys2Proof.Machine.execLayerPass2 slot ld layer s
  | .mirrorTransfer slot shard data => Sys2Proof.Machine.execMirrorTransfer slot shard data s
  | .feedLimitExpiry slot => Sys2Proof.Machine.execFeedLimitExpiry slot s
  | .admitGrant slot => Sys2Proof.Machine.execAdmitGrant slot s
  | .importDone seq ok => Sys2Proof.Machine.execImportDone seq ok s
  | .prefillLaunch seq => Sys2Proof.Machine.execPrefillLaunch seq s
  | .firstTokenCommit seq => Sys2Proof.Machine.execFirstTokenCommit seq s
  | .frameStart slot => Sys2Proof.Machine.execFrameStart slot s
  | .waveStart slot => Sys2Proof.Machine.execWaveStart slot s
  | .waveCommit slot bad => Sys2Proof.Machine.execWaveCommit slot bad s
  | .frameEnd slot => Sys2Proof.Machine.execFrameEnd slot s
  | .admitWaitExpiry seq => Sys2Proof.Machine.execAdmitWaitExpiry seq s
  | .lifetimeExpiry seq => Sys2Proof.Machine.execLifetimeExpiry seq s
  | .pauseLimitExpiry seq => Sys2Proof.Machine.execPauseLimitExpiry seq s
  | .parkTtlExpiry seq => Sys2Proof.Machine.execParkTtlExpiry seq s
  | .entryAutoRelease seq => Sys2Proof.Machine.execEntryAutoRelease seq s
  | .parkDone seq ok => Sys2Proof.Machine.execParkDone seq ok s
  | .restoreDone seq ok => Sys2Proof.Machine.execRestoreDone seq ok s
  | .demotion slot member => Sys2Proof.Machine.execDemotion slot member s
  | .movingOpStart part => Sys2Proof.Machine.execMovingOpStart part s
  | .loadSegment slot ok => Sys2Proof.Machine.execLoadSegment slot ok s
  | .loadLimitExpiry slot => Sys2Proof.Machine.execLoadLimitExpiry slot s
  | .reshardSegment slot data ok => Sys2Proof.Machine.execReshardSegment slot data ok s
  | .mintLayer slot => Sys2Proof.Machine.execMintLayer slot s
  | .turnLimitExpiry slot => Sys2Proof.Machine.execTurnLimitExpiry slot s
  | .inplaceDrainEnd slot => Sys2Proof.Machine.execInplaceDrainEnd slot s
  | .oldEpochFree slot => Sys2Proof.Machine.execOldEpochFree slot s
  | .barrierReport r => Sys2Proof.Machine.execBarrierReport r s
  | .barrierDecision r => Sys2Proof.Machine.execBarrierDecision r s
  | .amaxRoll slot tid others => Sys2Proof.Machine.execAmaxRoll slot tid others s
  | .drainCommit slot result => Sys2Proof.Machine.execDrainCommit slot result s
  | .laterLayerCopy slot result => Sys2Proof.Machine.execLaterLayerCopy slot result s
  | .drainLimitExpiry slot => Sys2Proof.Machine.execDrainLimitExpiry slot s
  | .riskUpdate r => Sys2Proof.Machine.execRiskUpdate r s
  | .unitLost kind index => Sys2Proof.Machine.execUnitLost kind index s
  | .jobFault src job => Sys2Proof.Machine.execJobFault src job s
  | .partLostTimeout job part => Sys2Proof.Machine.execPartLostTimeout job part s
  | .depositLost src job model die => Sys2Proof.Machine.execDepositLost src job model die s
  | .joinMessage job part digest table => Sys2Proof.Machine.execJoinMessage job part digest table s
  | .rerunRequest src job rkey pass => Sys2Proof.Machine.execRerunRequest src job rkey pass s
  | .fabricMessage src job body => Sys2Proof.Machine.execFabricMessage src job body s
  | .putLanded src job drop off data => Sys2Proof.Machine.execPutLanded src job drop off data s
  | .flitCrcFail port => Sys2Proof.Machine.execFlitCrcFail port s
  | .portRetrain port => Sys2Proof.Machine.execPortRetrain port s
  | .portTrained port good peer peerPort tx rx => Sys2Proof.Machine.execPortTrained port good peer peerPort tx rx s
  | .portDown port => Sys2Proof.Machine.execPortDown port s
  | .seekingRetry port => Sys2Proof.Machine.execSeekingRetry port s
  | .routeWaitTimeout dst => Sys2Proof.Machine.execRouteWaitTimeout dst s
  | .laserProtect port lambda off => Sys2Proof.Machine.execLaserProtect port lambda off s
  | .laserFault port lambda => Sys2Proof.Machine.execLaserFault port lambda s
  | .hostLinkDown port => Sys2Proof.Machine.execHostLinkDown port s
  | .hostLinkUp port rate width flit sris => Sys2Proof.Machine.execHostLinkUp port rate width flit sris s
  | .hostOutageTimeout port => Sys2Proof.Machine.execHostOutageTimeout port s
  | .functionLevelReset fn => Sys2Proof.Machine.execFunctionLevelReset fn s
  | .hotReset port => Sys2Proof.Machine.execHotReset port s
  | .linkDisable port => Sys2Proof.Machine.execLinkDisable port s
  | .vfDisable port num => Sys2Proof.Machine.execVfDisable port num s
  | .functionStopDone acct => Sys2Proof.Machine.execFunctionStopDone acct s
  | .beaconEnum frame => Sys2Proof.Machine.execBeaconEnum frame s
  | .enumTimeout => Sys2Proof.Machine.execEnumTimeout s
  | .beaconHealth frame => Sys2Proof.Machine.execBeaconHealth frame s
  | .beaconWake frame => Sys2Proof.Machine.execBeaconWake frame s
  | .beaconSleep frame => Sys2Proof.Machine.execBeaconSleep frame s
  | .healthSend => Sys2Proof.Machine.execHealthSend s
  | .beaconEntryAge addr => Sys2Proof.Machine.execBeaconEntryAge addr s
  | .beaconBreak => Sys2Proof.Machine.execBeaconBreak s
  | .wakeOnLight port => Sys2Proof.Machine.execWakeOnLight port s
  | .wake => Sys2Proof.Machine.execWake s
  | .powerEntryDone => Sys2Proof.Machine.execPowerEntryDone s
  | .governorEval arrays vectors inputW => Sys2Proof.Machine.execGovernorEval arrays vectors inputW s
  | .dividerStep die => Sys2Proof.Machine.execDividerStep die s
  | .thermalOverride what => Sys2Proof.Machine.execThermalOverride what s
  | .currentOverride => Sys2Proof.Machine.execCurrentOverride s
  | .overrideClear what => Sys2Proof.Machine.execOverrideClear what s
  | .supplyDroop rail => Sys2Proof.Machine.execSupplyDroop rail s
  | .thermalTrip => Sys2Proof.Machine.execThermalTrip s
  | .powerInputEnter => Sys2Proof.Machine.execPowerInputEnter s
  | .powerInputLoss => Sys2Proof.Machine.execPowerInputLoss s
  | .mailboxReady => Sys2Proof.Machine.execMailboxReady s
  | .firmwareReady ok => Sys2Proof.Machine.execFirmwareReady ok s
  | .opticsGroupRelit => Sys2Proof.Machine.execOpticsGroupRelit s
  | .mailboxResumed => Sys2Proof.Machine.execMailboxResumed s
  | .unitFence kind index data tag => Sys2Proof.Machine.execUnitFence kind index data tag s
  | .reconciliation kind index passed data tag => Sys2Proof.Machine.execReconciliation kind index passed data tag s
  | .creditPeriod reqs => Sys2Proof.Machine.execCreditPeriod reqs s
  | .tallyCopy => Sys2Proof.Machine.execTallyCopy s
  | .sampleLatch scope => Sys2Proof.Machine.execSampleLatch scope s
  | .vfEnable port num => Sys2Proof.Machine.execVfEnable port num s
  | .learnLimitExpiry slot => Sys2Proof.Machine.execLearnLimitExpiry slot s
  | .ckptRestoreDone slot data ok => Sys2Proof.Machine.execCkptRestoreDone slot data ok s
  | .powerExitDone => Sys2Proof.Machine.execPowerExitDone s
  | .beaconLightRestored => Sys2Proof.Machine.execBeaconLightRestored s
  | .beaconFrameDropped => Sys2Proof.Machine.execBeaconFrameDropped s
  | .hostLinkTrainFail port => Sys2Proof.Machine.execHostLinkTrainFail port s

end Sys2Proof.Machine
end

