-- ==== Sys2Proof/Safety.lean ====
section
/-!
DEFINITION. What counts as a safe run, and the words that statements about commands use: a command reaches its own rules,
and a command waits.
-/
namespace Sys2Proof.Machine

/-- A step answers a next state. -/
def Goes (s : State) : Prop := ∃ t, step s = .next t

/-- The state after `n` steps, if every one of them goes. -/
def runN : Nat → State → Option State
  | 0, s => some s
  | n + 1, s => match step s with
    | .next t => runN n t
    | _ => none

/-- Every one of the first `n` steps goes. -/
def Safe (n : Nat) (s : State) : Prop := (runN n s).isSome

/-- A mailbox command of opcode `op` reaches its own rules in the state `u`: no earlier command of its path stands before it (R486), it has
left the lists of commands taken, the checks of R485, R547 and R539 pass it, and the module is in P0 and stays there (R515). -/
def Runs (op : Nat) (c : Cmd) (s u : State) : Prop :=
  u = dropTaken c s ∧ outOfTurn op c s = false ∧ stateGate (cmdA c) c.abi op u = none ∧ lifeGate op u = none ∧
    u.chip.power.pstate = 0 ∧ u.chip.power.target = none

/-- The state in which a command that a gate turns away completes: it has left the lists of commands taken, and has woken the module
where it is not quiet (R485, R515). -/
def turnedAway (op : Nat) (c : Cmd) (s : State) : State :=
  if s.chip.power.low && !quiet op c then wakeUp (dropTaken c s) else dropTaken c s

/-- The state in which a command of opcode `op` waits for an event. -/
def waitsFor (c : Cmd) (op : Nat) (key : WaitKey) (s : State) : State :=
  { s with mail := { s.mail with waiting := s.mail.waiting ++ [⟨c, op, key⟩] } }

/-- The state whose network the messages of an access have crossed (R368). -/
def crossed (s : State) (n : Noc) : State := { s with chip := { s.chip with noc := n } }

/-- An instruction issues: it is the one that its thread issues next, the thread being next in turn on its core, and its word reads
without error (R122, R126, R127, R152). -/
def Issues (h : Hart) (i : Instr) (s : State) : Prop := s.issues h i = true ∧ s.meets [(s.codeAddr h, 4)] = .clear

/-- The program of a hart has read ranges of memory. -/
def readBy (h : Hart) (rs : List (Nat × Nat)) (s : State) : State :=
  match s.prog h with
  | some p => s.charge .compute p.desc.pkg.acct.toNat rs
  | none => s

/-- A hart has issued an instruction with effect `k`: its word has been read, the count against BUDGET, the instruction number and
the turn of its core have advanced, and a vector instruction has passed through the issue queue (R121, R122, R126). -/
def ran (h : Hart) (s : State) (k : State → State) : State :=
  let t := k ((readBy h [(s.codeAddr h, 4)] s).issue h)
  if isVector (s.fetch h) then t.leaveQueue h else t

/-- A hart has issued an instruction that changes its thread. -/
def wroteThread (h : Hart) (f : Thread → Thread) (s : State) : State := ran h s fun t => t.onThread h f

/-- A hart has issued an instruction that writes `v` to Xd: X0 ignores it (R121). -/
def wroteX (h : Hart) (d : BitVec 5) (v : DWord) (s : State) : State := wroteThread h (fun u => u.set d v) s

/-- A hart has issued an instruction that changes its core's vector registers (R121). -/
def wroteCore (h : Hart) (f : Core → Core) (s : State) : State := ran h s fun t => t.onCore h.core.toNat f

/-- The registers of the block in progress on a Ledger die have changed, and the next instruction follows (R235, R236);
free values come from the state's counter. -/
def ledNext (ld : BitVec 2) (f : LedRegs → LedRegs) (s : State) : State :=
  let r := f { s.ledRegs ld with free := s.freeCtr }
  { s with freeCtr := r.free, led := { s.led with regs := lmod s.led.regs ld.toNat fun _ => r.bump } }

end Sys2Proof.Machine

namespace Sys2Proof

/-- The mailbox command that a row of the table is, with its opcode (R490, R518, R536, R559); none for the rows that are
register accesses, engine operations and events. -/
def Instr.command : Instr → Option (Nat × Cmd)
  | .negotiate c => some (0x101, c)
  | .identify c => some (0x102, c)
  | .unitQuery c => some (0x103, c)
  | .unitReconcile c => some (0x104, c)
  | .notifyMask c => some (0x105, c)
  | .acctCreate c => some (0x120, c)
  | .acctModify c => some (0x121, c)
  | .acctDisable c => some (0x122, c)
  | .acctEnable c => some (0x123, c)
  | .acctDestroy c => some (0x124, c)
  | .acctQuery c => some (0x125, c)
  | .acctMemGrant c => some (0x126, c)
  | .acctMemRevoke c => some (0x127, c)
  | .partSet c => some (0x128, c)
  | .rightSet c => some (0x129, c)
  | .acctFlagsSet c => some (0x12A, c)
  | .memMapQuery c => some (0x201, c)
  | .memCreditSet c => some (0x202, c)
  | .memCreditQuery c => some (0x203, c)
  | .memErrQuery c => some (0x204, c)
  | .kvModelSet c => some (0x210, c)
  | .kvPoolSet c => some (0x211, c)
  | .kvVaultSet c => some (0x212, c)
  | .kvDomainCreate c => some (0x213, c)
  | .kvDomainGrant c => some (0x214, c)
  | .kvDomainJoin c => some (0x215, c)
  | .kvDomainLeave c => some (0x216, c)
  | .kvFlush c => some (0x217, c)
  | .kvPoolQuery c => some (0x218, c)
  | .wpSubmit c => some (0x301, c)
  | .wpCancel c => some (0x302, c)
  | .wpQuery c => some (0x303, c)
  | .semRead c => some (0x304, c)
  | .semSet c => some (0x305, c)
  | .semSignal c => some (0x306, c)
  | .wtCreate c => some (0x401, c)
  | .wtLoad c => some (0x402, c)
  | .wtTurn c => some (0x403, c)
  | .wtLearn c => some (0x404, c)
  | .wtRebuild c => some (0x405, c)
  | .wtQuery c => some (0x406, c)
  | .wtAnchorSet c => some (0x407, c)
  | .wtGenDrop c => some (0x408, c)
  | .wtUnload c => some (0x409, c)
  | .seqAdmit c => some (0x501, c)
  | .seqCancel c => some (0x502, c)
  | .seqQuery c => some (0x503, c)
  | .seqPause c => some (0x504, c)
  | .seqResume c => some (0x505, c)
  | .seqPark c => some (0x506, c)
  | .seqRelease c => some (0x507, c)
  | .seqDraft c => some (0x508, c)
  | .seqModelSet c => some (0x509, c)
  | .seqPrefillSet c => some (0x50A, c)
  | .seqDecodeSet c => some (0x50B, c)
  | .updProgLoad c => some (0x601, c)
  | .updProgFree c => some (0x602, c)
  | .updGroupSet c => some (0x603, c)
  | .updGroupRead c => some (0x604, c)
  | .updModelSet c => some (0x605, c)
  | .updBegin c => some (0x606, c)
  | .updCommit c => some (0x607, c)
  | .updAbort c => some (0x608, c)
  | .updStatus c => some (0x609, c)
  | .updMonRead c => some (0x60A, c)
  | .updGroupFree c => some (0x60B, c)
  | .ftRiskQuery c => some (0x701, c)
  | .ftThreshSet c => some (0x702, c)
  | .ftPlanSet c => some (0x703, c)
  | .ftDepositSet c => some (0x704, c)
  | .ftSecure c => some (0x705, c)
  | .ftCkptList c => some (0x706, c)
  | .ftCkptDrop c => some (0x707, c)
  | .ftExport c => some (0x708, c)
  | .ftRestore c => some (0x709, c)
  | .ftStatus c => some (0x70A, c)
  | .pwrStateSet c => some (0x801, c)
  | .pwrQuery c => some (0x802, c)
  | .pwrBoundsSet c => some (0x803, c)
  | .pwrReset c => some (0x804, c)
  | .fwWrite c => some (0x901, c)
  | .fwActivate c => some (0x902, c)
  | .fwQuery c => some (0x903, c)
  | .fwFloorRaise c => some (0x904, c)
  | .fwLock c => some (0x905, c)
  | .lcNonce c => some (0x906, c)
  | .lcChange c => some (0x907, c)
  | .tallyRead c => some (0xA01, c)
  | .tallyReadAll c => some (0xA02, c)
  | .cntSet c => some (0xA10, c)
  | .cntSnap c => some (0xA11, c)
  | .cntSample c => some (0xA12, c)
  | .cntCatalog c => some (0xA13, c)
  | .numRead c => some (0xA18, c)
  | .numAmaxRead c => some (0xA19, c)
  | .numAmaxSet c => some (0xA1A, c)
  | .numAmaxRoll c => some (0xA1B, c)
  | .portQuery c => some (0xB01, c)
  | .portBoundsSet c => some (0xB02, c)
  | .portEnable c => some (0xB03, c)
  | .beaconStatus c => some (0xB04, c)
  | .beaconSend c => some (0xB05, c)
  | .fabOrigin c => some (0xB10, c)
  | .fabAddrQuery c => some (0xB11, c)
  | .fabRouteSet c => some (0xB12, c)
  | .fabRouteQuery c => some (0xB13, c)
  | .fabJobJoin c => some (0xB14, c)
  | .fabJobLeave c => some (0xB15, c)
  | .fabGroupSet c => some (0xB16, c)
  | .fabDropSet c => some (0xB17, c)
  | .fabJobQuery c => some (0xB18, c)
  | _ => none

end Sys2Proof
end

