-- ==== Sys2Proof/Certificates/Slice0/Obligations.lean ====
section
/-!
DEFINITION. The statements for the provers, family by family; OBLIGATIONS.json lists them with the rules they rest on.
-/
open Sys2Proof Sys2Proof.Machine

/-- For every command and every state, the step of the state with that command in front is exec of the command on the
state with the rest of the queue: the first in is the first out. () -/
def Obligations.StepRunsFrontCommand : Prop :=
  ∀ (i : Instr) (rest : List Instr) (s : State),
    step { s with pending := i :: rest } = exec i { s with pending := rest }

/-- Where the queue is empty, step answers a next state in which module time has advanced by 10 ns (modulo 2^64), and
the queue, memory, cores, packages, models, moving operations, Ledger, generation state, secure copies, rights, grants
and the chip's units are as before: only page-time meters, owed NTF_VEC messages and module time move. That a step on
an empty queue is a cycle is log entry 12. (R508, R479, R473) -/
def Obligations.IdleStepIsReferenceCycle : Prop :=
  ∀ s : State, s.pending = [] →
    ∃ t, step s = .next t ∧ t.mtime = s.mtime + 10 ∧ t.pending = [] ∧ t.mem = s.mem ∧ t.cores = s.cores ∧ t.pkgs = s.pkgs ∧
      t.models = s.models ∧ t.moves = s.moves ∧ t.led = s.led ∧ t.gens = s.gens ∧ t.ft = s.ft ∧ t.chip = s.chip ∧
      t.demand = s.demand ∧
      t.ten.grants = s.ten.grants ∧ t.ten.parts = s.ten.parts ∧ t.ten.modRight = s.ten.modRight ∧
      t.ten.partRights = s.ten.partRights

/-- At reset the queue is empty, module time is 0, memory lists nothing, every mailbox, aperture, counter, port and
core is at its reset value, the accounts of the four physical functions are ENABLED with the default quota and every
other account is NONE, no partition has dies and no right is held, the bounds are those of a COLD reset, and start-up
is still to end. The moment (start-up before MAILBOX_READY), the fuses, divider 4 and INPUT_W 0 are the model's
choices (log entries 5 to 7). (R456, R458, R479, R520, R526, R530, R557, R390) -/
def Obligations.ResetState : Prop :=
  State.reset.pending = [] ∧ State.reset.out = [] ∧ State.reset.mtime = 0 ∧ State.reset.mem = [] ∧ State.reset.mem.wf ∧
  (∀ fn < 1024, State.reset.func fn = Func.reset ∧ State.reset.aper fn = Aper.reset) ∧
  (∀ a < 1024, (State.reset.acct a).state = (if a % 256 = 0 then AcctState.enabled else AcctState.none)) ∧
  (∀ a < 1024, a % 256 = 0 → (State.reset.acct a).quota = Quota.default) ∧
  (∀ p < 8, State.reset.partDies p = [] ∧ State.reset.ten.partRights.getD p none = none) ∧ State.reset.ten.modRight = none ∧
  (∀ i < 128, State.reset.core i = Core.reset) ∧ (∀ p < 69, State.reset.port p = Port.reset) ∧
  (∀ sc < 9, ∀ i < 32, State.reset.counter sc i = Counter.reset) ∧
  State.reset.chip.power.bounds = Bounds.cold ∧ State.reset.chip.power.resetting = some .cold ∧
  State.reset.chip.power.mailboxReady = false ∧ State.reset.models = [] ∧ State.reset.pkgs = []

/-- For every command and every state exec answers a next state. The spec gives every row an effect, and where a row's
conditions do not hold it gives a status or nothing happens. (R18, R485) -/
def Obligations.EveryCommandAnswersNext : Prop :=
  ∀ (i : Instr) (s : State), ∃ t, exec i s = .next t

/-- For every mailbox command of the table. A command that an earlier one of its function and path stands before
changes nothing at all (that its row then has no effect is log entry 165). In its turn, where the check of the
account's state, version and opcode answers a status, or that passes and the check of the life cycle and recovery
does, exec answers the state with the command completed under that status, with an empty payload (WP_SUBMIT's holds
check code 0x01 under DENIED and FUNCTION_DISABLED), and no other effect than its leaving the lists of commands taken,
and the wake event of a command that is not quiet where the power state is low. In the life-cycle state DECOMMISSIONED
every command but NEGOTIATE, IDENTIFY, ACCT_QUERY, FW_QUERY and PWR_QUERY is so turned away under some status other
than OK, and memory, accounts and the whole chip but that wake are as before. Where the gates pass and the command is
not one of the quiet commands of R516, while the module is not in P0 or a change of power state is under way, exec
answers the state with the command held until P0 and the wake event applied, and no response is written. (R485, R547,
R539, R18, R515, R516, R153, R168) -/
def Obligations.GatedCommandsChangeNothing : Prop :=
  (∀ (i : Instr) (op : Nat) (c : Cmd) (s : State), i.command = some (op, c) → outOfTurn op c s = true →
    (s.chip.power.tripped && s.chip.power.inputPresent) = false → exec i s = .next s) ∧
  (∀ (i : Instr) (op : Nat) (c : Cmd) (s : State) (st : Status), i.command = some (op, c) → outOfTurn op c s = false →
    (stateGate (cmdA c) c.abi op (dropTaken c s) = some st ∨
      (stateGate (cmdA c) c.abi op (dropTaken c s) = none ∧ lifeGate op (dropTaken c s) = some st)) →
    exec i s = .next (complete c op st (gatePayload op st) (turnedAway op c s))) ∧
  (∀ (i : Instr) (op : Nat) (c : Cmd) (s : State), i.command = some (op, c) → outOfTurn op c s = false →
    s.chip.fw.lifecycle = .decommissioned → op ∉ [0x101, 0x102, 0x125, 0x802, 0x903] →
    ∃ st, st ≠ .ok ∧ exec i s = .next (complete c op st (gatePayload op st) (turnedAway op c s)) ∧
      ∀ t, exec i s = .next t → t.mem = s.mem ∧ t.ten = s.ten ∧ { t.chip with power := s.chip.power } = s.chip ∧
        t.cores = s.cores ∧ t.models = s.models) ∧
  (∀ (i : Instr) (op : Nat) (c : Cmd) (s u : State), i.command = some (op, c) → outOfTurn op c s = false → u = dropTaken c s →
    stateGate (cmdA c) c.abi op u = none → lifeGate op u = none → quiet op c = false →
    (u.chip.power.pstate ≠ 0 ∨ u.chip.power.target.isSome) →
    exec i s = .next (wakeUp { u with mail := { u.mail with heldWake := u.mail.heldWake ++ [⟨c, op⟩] } })) ∧
  (∀ (op : Nat) (st : Status), gatePayload op st =
    if op = 0x301 ∧ (st = .denied ∨ st = .functionDisabled) then leBytes 4 0 ++ leBytes 4 0xFFFFFF01 else [])

/-- In a function that exists and is not PAUSED, completing a command leaves in its slot a response with RSTATE DONE,
the command's opcode, version and SEQNO, the status, the payload and its length, and module time; sets that slot's
DONE bit and no other; leaves every other response slot and every other function's mailbox, and memory, accounts,
units, cores, packages and models as before. (R481, R496, R578) -/
def Obligations.CompletionWritesResponse : Prop :=
  ∀ (c : Cmd) (op : Nat) (st : Status) (p : Bytes) (s : State), cmdA c < s.mail.funcs.length →
    (s.func (cmdA c)).paused = false →
    let t := complete c op st p s
    tget (t.func (cmdA c)).resp c.slot.toNat = some ⟨op, c.abi, st, c.seqno, 2, p.length, s.mtime, p⟩ ∧
    (t.func (cmdA c)).done = (s.func (cmdA c)).done ||| (1 <<< c.slot.toNat) ∧
    (∀ k, k ≠ c.slot.toNat → tget (t.func (cmdA c)).resp k = tget (s.func (cmdA c)).resp k) ∧
    (∀ g, g ≠ cmdA c → t.func g = s.func g) ∧
    t.mem = s.mem ∧ t.ten = s.ten ∧ t.chip = s.chip ∧ t.cores = s.cores ∧ t.pkgs = s.pkgs ∧ t.models = s.models ∧
    t.mtime = s.mtime ∧ t.pending = s.pending

/-- CMD_DB, where BAR0 answers: a slot (the value's bits 5:0) that is neither queued nor TAKEN joins the end of the
function's doorbells, and wakes a module in a low power state where its command is not quiet; for one that is, the
doorbell has no effect but CMD_ERR. In P3 or with the domains off it has no effect. An aligned 4-byte REGISTER_WRITE
at offset 0 does the same. (R482, R569) -/
def Obligations.DoorbellsAreQueuedOrIgnored : Prop :=
  ∀ (fn : BitVec 10) (value : Word) (s : State),
    let i := value.toNat % 64
    let f := s.func fn.toNat
    (s.barDark = false → i ∉ f.doorbells ∧ (tgetD f.resp i Resp.empty).rstate ≠ 1 →
      exec (.cmdDb fn value) s =
        .next (wakeFor fn.toNat i (s.onFunc fn.toNat fun g => { g with doorbells := g.doorbells ++ [i] }))) ∧
    (∀ t : State, t.chip.power.low = false → wakeFor fn.toNat i t = t) ∧
    (s.barDark = true → exec (.cmdDb fn value) s = .next s) ∧
    (s.barDark = false → i ∈ f.doorbells ∨ (tgetD f.resp i Resp.empty).rstate = 1 →
      exec (.cmdDb fn value) s = .next (s.onFunc fn.toNat fun g => { g with cmdErr := true })) ∧
    exec (.registerWrite fn 0 (leBytes 4 value.toNat)) s = exec (.cmdDb fn value) s

/-- Where the turn of a front end is at a ready function that is not PAUSED with slot k oldest among its doorbells,
the slot's header passes, its FUNCTION field names the function, and the account's state, version and opcode pass:
exec answers a state in which the doorbell has left the queue, the slot's response reads TAKEN, SEQNO is the last
taken, and the command is on its path (the firmware queue, or taken at once for families 0x03xx and 0x05xx). Where
Neriv's turn is at a function of the module that is not PAUSED with command k at the head of its firmware queue: exec
answers a state in which k has left the queue for the end of the commands taken, and the turn has passed to the next
function. (R483, R484, R485) -/
def Obligations.CommandTakeMarksTaken : Prop :=
  (∀ (port : BitVec 2) (s : State) (i slot : Nat) (rest : List Nat),
    let fn := 256 * port.toNat + i
    let f := s.func fn
    let bs := padTo 64 (tgetD f.cmdSlots slot [])
    let c := cmdOf fn slot bs
    let op := fieldAt bs 0 2
    s.mail.turns.getD port.toNat 0 = i → i < 256 → fn < s.mail.funcs.length → f.doorbells = slot :: rest →
    f.paused = false → f.ready = true → headerGate bs f.lastSeq = none → fieldAt bs 8 2 = fn →
    stateGate fn c.abi op s = none →
    ∃ t, exec (.commandTake port) s = .next t ∧ (t.func fn).doorbells = rest ∧
      tget (t.func fn).resp slot = some ⟨op, c.abi, .ok, c.seqno, 1, 0, 0, []⟩ ∧
      (t.func fn).lastSeq = some c.seqno ∧
      (t.func fn).taken = (if op / 256 = 3 ∨ op / 256 = 5 then f.taken ++ [⟨c, op⟩] else f.taken) ∧
      (t.func fn).fwQueue = (if op / 256 = 3 ∨ op / 256 = 5 then f.fwQueue else f.fwQueue ++ [⟨c, op⟩]) ∧
      t.mem = s.mem ∧ (s.chip.power.low = false → t.chip = s.chip) ∧ t.ten = s.ten) ∧
  (∀ (s : State) (k : Taken) (rest : List Taken), s.mail.fwTurn < 1024 → s.mail.fwTurn < s.mail.funcs.length →
    (s.func s.mail.fwTurn).fwQueue = k :: rest → (s.func s.mail.fwTurn).paused = false →
    ∃ t, exec .firmwareAccept s = .next t ∧ (t.func s.mail.fwTurn).fwQueue = rest ∧
      (t.func s.mail.fwTurn).taken = (s.func s.mail.fwTurn).taken ++ [k] ∧
      t.mail.fwTurn = (s.mail.fwTurn + 1) % 1024 ∧ t.mem = s.mem ∧ t.chip = s.chip ∧ t.ten = s.ten)

/-! ## The mailbox and the registers (16, 20) -/

/-- Where BAR0 and BAR2 answer (not in P3, and with the domains on; there none of these rows has an effect): NTF_TAIL
holds the value written, which the part takes as NTF_HEAD where it is not within 1,024 behind it, an owed OVERFLOW
entry is then posted, and what a pause kept follows as far as the ring has room. A low-word read of a counter by the
holder of the module's right returns the low word and latches the counter (a counter of a source that the model does
not see has first gone on by a free value: log entry 8); by any other function it returns zero and latches nothing. A
BAR2 access that meets every condition of R574, and whose messages cross the network, reads or writes the account's
memory at AP_BASE plus the offset (a write at a fenced unit is discarded, and what a failing read returns is log entry
39's), asks for its credits in the account's name, and counts its bytes in HOST_BYTES; one that fails a condition
returns zeros or is discarded, and only AP_STAT changes. Unmasking a vector clears its mask, and sends its message
where its pending bit is set. MTIME_LO_READ returns the low 32 bits of module time and latches all 64 for the
function; however much time passes, MTIME_HI of that function then reads the high word of the latched value. (R495,
R499, R570, R573, R574, R575, R578, R579, R580) -/
def Obligations.RegisterAccessesTakeEffect : Prop :=
  (∀ (fn : BitVec 10) (v : Word) (s : State), s.barDark = false →
    exec (.ntfTail fn v) s =
      .next (flushHeld fn.toNat (flushOverflow fn.toNat (s.onFunc fn.toNat fun f => { f with tail := v })))) ∧
  (∀ (fn : BitVec 10) (v : Word) (scope : BitVec 4) (index : BitVec 5) (off : BitVec 36) (len : Nat) (data : Bytes)
      (vec : BitVec 6) (s : State), s.barDark = true →
    exec (.ntfTail fn v) s = .next s ∧ exec (.cntValLowRead fn scope index) s = .next s ∧
    exec (.mtimeLoRead fn) s = .next s ∧ exec (.apertureRead fn off len) s = .next s ∧
    exec (.apertureWrite fn off data) s = .next s ∧ exec (.msixUnmask fn vec) s = .next s) ∧
  (∀ f : Func, f.tailAt = if (f.head - f.tail).toNat ≤ 1024 then f.tail else f.head) ∧
  (∀ (fn : BitVec 10) (scope : BitVec 4) (index : BitVec 5) (s : State), s.barDark = false →
    let u := countUnseen scope.toNat s
    let v : DWord := (u.counter scope.toNat index.toNat).value.setWidth 64
    (s.hasModRight fn.toNat = true → scope.toNat ≤ 8 →
      exec (.cntValLowRead fn scope index) s = .next ((u.onAper fn.toNat fun a => { a with cntLatch := some v }).emit
        (.read fn.toNat (leBytes 4 v.toNat)))) ∧
    (s.hasModRight fn.toNat = false →
      exec (.cntValLowRead fn scope index) s = .next (s.emit (.read fn.toNat (leBytes 4 0))))) ∧
  (∀ (fn : BitVec 10) (off : BitVec 36) (len : Nat) (s : State) (n : Noc), s.barDark = false →
    let a := (s.aper fn.toNat).base.toNat + off.toNat
    (apCheck s fn.toNat off.toNat len = none → s.chip.noc.crossAll (readMsgs (2 * (fn.toNat / 256)) [(a, len)]) = some n →
      s.readFails a len = false →
      exec (.apertureRead fn off len) s = .next ((((crossed s n).charge .host fn.toNat [(a, len)]).meter fn.toNat 8 len 0).emit
        (.read fn.toNat (s.read a len)))) ∧
    (∀ r, apCheck s fn.toNat off.toNat len = some r →
      exec (.apertureRead fn off len) s =
        .next ((apRefuse fn.toNat r s).emit (.read fn.toNat (List.replicate len 0))))) ∧
  (∀ (fn : BitVec 10) (off : BitVec 36) (data : Bytes) (s : State) (n : Noc), s.barDark = false →
    let a := (s.aper fn.toNat).base.toNat + off.toNat
    (apCheck s fn.toNat off.toNat data.length = none →
      s.chip.noc.crossAll (writeMsgs (2 * (fn.toNat / 256)) [(a, data.length)]) = some n →
      let t := ((crossed s n).charge .host fn.toNat [(a, data.length)]).meter fn.toNat 8 data.length 0
      exec (.apertureWrite fn off data) s = .next (if s.rangeFails a data.length then t else t.write a data)) ∧
    (∀ r, apCheck s fn.toNat off.toNat data.length = some r →
      exec (.apertureWrite fn off data) s = .next (apRefuse fn.toNat r s))) ∧
  (∀ (fn : BitVec 10) (off n : Nat) (s : State), 0 < n →
    (apCheck s fn.toNat off n = none ↔
      ((s.aper fn.toNat).en = true ∧ off + n ≤ 2 ^ (30 + (s.aper fn.toNat).size.toNat) ∧
        s.inGrants fn.toNat ((s.aper fn.toNat).base.toNat + off) n = true ∧
        (s.acct fn.toNat).state = .enabled ∧ s.chip.power.pstate = 0))) ∧
  (∀ (fn : BitVec 10) (v : BitVec 6) (s : State), s.barDark = false → fn.toNat < s.mail.apers.length →
    ∃ t, exec (.msixUnmask fn v) s = .next t ∧
      tget (t.aper fn.toNat).msix v.toNat =
        some { (tgetD (s.aper fn.toNat).msix v.toNat ⟨0, 0, true⟩) with masked := false } ∧
      (t.aper fn.toNat).msixPend.getLsbD v.toNat = false ∧
      t.out = s.out ++ (if (s.aper fn.toNat).msixPend.getLsbD v.toNat then [.msix fn.toNat v.toNat] else [])) ∧
  (∀ (fn : BitVec 10) (s : State), s.barDark = false → fn.toNat < s.mail.apers.length →
    ∃ t, exec (.mtimeLoRead fn) s = .next t ∧ t.out = s.out ++ [.read fn.toNat (leBytes 4 s.mtime.toNat)] ∧
      (∀ m, funcWord { t with mtime := m } fn.toNat 0x34 = (s.mtime >>> 32).setWidth 32) ∧
      (∀ g, g ≠ fn.toNat → t.aper g = s.aper g) ∧
      t.mem = s.mem ∧ t.chip = s.chip ∧ t.ten = s.ten ∧ t.mail.funcs = s.mail.funcs)

/-- A NOTIFY_MASK that runs with bits 0 and 16 to 31 of MASK zero completes OK with the function's mask set to MASK;
with any of those bits set it completes with BAD_ARG and the mask is as it was. A notification of kind k from 1 to 15
whose bit is set in the mask changes nothing: it is neither posted nor counted as lost. The mask is zero in the
mailbox after every reset that covers it. When they run: NEGOTIATE with a range of versions that the part serves and
no other command outstanding sets the function's version to the highest common one and returns it with the profile;
IDENTIFY returns the identity record and changes nothing; UNIT_QUERY of 1 to 28 existing units by a holder of the
module's right, or of units of the caller's partition, returns their records and changes nothing; UNIT_RECONCILE by a
holder of the right puts a FENCED unit in RECONCILING, leaves a RECONCILING one as it is, and waits for the end of its
reconciliation. (R498) -/
def Obligations.MailboxCommandsComplete : Prop :=
  (∀ (c : Cmd) (s u : State), Runs 0x105 c s u → cmdTail c 4 = true →
    (cmdU c 0 4 % 2 = 0 ∧ cmdU c 0 4 < 2 ^ 16 →
      exec (.notifyMask c) s = .next (complete c 0x105 .ok (leBytes 4 (cmdU c 0 4))
        (u.onFunc (cmdA c) fun f => { f with mask := BitVec.ofNat 32 (cmdU c 0 4) }))) ∧
    (cmdU c 0 4 % 2 = 1 ∨ 2 ^ 16 ≤ cmdU c 0 4 →
      exec (.notifyMask c) s = .next (complete c 0x105 .badArg [] u))) ∧
  (∀ (fn kind : Nat) (st : Status) (args : Bytes) (s : State), 1 ≤ kind → kind ≤ 15 →
    (s.func fn).mask.getLsbD kind = true → post fn kind st args s = s) ∧
  Func.reset.mask = 0 ∧
  (∀ (c : Cmd) (s u : State), Runs 0x101 c s u → cmdTail c 2 = true → 0 < cmdU c 0 1 → cmdU c 0 1 ≤ cmdU c 1 1 →
    cmdU c 0 1 ≤ 3 → otherOutstanding c u = false →
    exec (.negotiate c) s = .next (complete c 0x101 .ok
      (leBytes 1 (min (cmdU c 1 1) 3) ++ [0x0E] ++ leBytes 2 (cmdA c) ++ leBytes 1 (cmdA c / 256) ++
        leBytes 1 (cmdA c % 256) ++ [64, 0])
      (u.onFunc (cmdA c) fun f => { f with abi := BitVec.ofNat 8 (min (cmdU c 1 1) 3) }))) ∧
  (∀ (c : Cmd) (s u : State), Runs 0x102 c s u → cmdTail c 0 = true →
    exec (.identify c) s = .next (complete c 0x102 .ok (identity u (cmdA c)) u)) ∧
  (∀ (c : Cmd) (s u : State), Runs 0x103 c s u → cmdTail c 3 = true →
    0 < cmdU c 2 1 → cmdU c 2 1 ≤ 28 → cmdU c 1 1 + cmdU c 2 1 ≤ unitCount (cmdU c 0 1) →
    (u.hasModRight (cmdA c) = true ∨ ∀ i < cmdU c 2 1,
      (u.acct (cmdA c)).quota.partition ∈ unitParts u (cmdU c 0 1) (cmdU c 1 1 + i)) →
    exec (.unitQuery c) s = .next (complete c 0x103 .ok
      ((List.range (cmdU c 2 1)).flatMap fun i => unitRecord u (cmdU c 0 1) (cmdU c 1 1 + i)) u)) ∧
  (∀ (c : Cmd) (s u : State), Runs 0x104 c s u → cmdTail c 2 = true → cmdU c 1 1 < unitCount (cmdU c 0 1) →
    (u.hasModRight (cmdA c) = true ∨ ∃ p ∈ unitParts u (cmdU c 0 1) (cmdU c 1 1), u.hasPartRight (cmdA c) p = true) →
    ((u.unit (cmdU c 0 1) (cmdU c 1 1)).mgmt = 2 →
      exec (.unitReconcile c) s = .next (waitsFor c 0x104 (.unit (cmdU c 0 1) (cmdU c 1 1))
        (u.onUnit (cmdU c 0 1) (cmdU c 1 1) fun r => { r with mgmt := 3 }))) ∧
    ((u.unit (cmdU c 0 1) (cmdU c 1 1)).mgmt = 3 →
      exec (.unitReconcile c) s = .next (waitsFor c 0x104 (.unit (cmdU c 0 1) (cmdU c 1 1)) u)))

/-! ## Accounts, partitions and rights (15) -/

/-- When they run for the holder of the module's right (QUERY for the account itself too, FLAGS_SET for the caller's
account): CREATE of an account that is NONE, with a readable, legal quota that the pools cover, gives it that quota
(its read asking the Tellers for credits in the caller's name) and the cause ABSENT exactly where its function does
not exist; MODIFY of a created account within the pools and its use sets the quota; DISABLE and DESTROY of an ENABLED
account start the stop procedure and wait for its end, and of a DISABLED one complete at once, DESTROY returning what
it holds; ENABLE ends the cause ADMIN, and the account enters ENABLED where no cause is left; QUERY (outside the
life-cycle state OWNED of the caller's account alone) writes the quota and usage blocks to the caller's range;
FLAGS_SET sets and clears the named flags and returns them. (R456, R459, R460, R463, R464, R470, R477) -/
def Obligations.AccountCommandsComplete : Prop :=
  (∀ (c : Cmd) (s u : State), u.hasModRight (cmdA c) = true → cmdTail c 16 = true → cmdZ c 2 6 = true →
    addrOk (cmdU c 8 8) = true → namedAcct c < 1024 → u.inAccount (cmdA c) (cmdU c 8 8) 64 = true →
    u.reads (cmdU c 8 8) 64 = true → quotaOk u (u.read (cmdU c 8 8) 64) = true →
    let q := quotaOf (u.read (cmdU c 8 8) 64)
    let x := u.acct (namedAcct c)
    poolsCover u (namedAcct c) q = true →
    (Runs 0x120 c s u → x.state = .none →
      let causes := { Causes.clear with absent := !u.fnExists (namedAcct c) }
      let made := u.onAcct (namedAcct c) fun x =>
        { x with state := .disabled, causes := causes, quota := q, thresh := 0, armed := true, belowSince := none }
      exec (.acctCreate c) s = .next (complete c 0x120 .ok []
        ((if u.fnExists (namedAcct c) then enterEnabled (namedAcct c) made else made).took (cmdA c) [(cmdU c 8 8, 64)]))) ∧
    (Runs 0x121 c s u → x.state ∈ [.enabled, .disabled] → belowUse u (namedAcct c) q = false →
      q.partition = x.quota.partition → q.classB = x.quota.classB → loadFails u (namedAcct c) q = false →
      exec (.acctModify c) s = .next (complete c 0x121 .ok []
        ((u.onAcct (namedAcct c) fun x => { x with quota := q }).took (cmdA c) [(cmdU c 8 8, 64)])))) ∧
  (∀ (c : Cmd) (s u : State), u.hasModRight (cmdA c) = true → cmdTail c 2 = true → namedAcct c < 1024 →
    u.hasModRight (namedAcct c) = false →
    (Runs 0x122 c s u → (u.acct (namedAcct c)).state = .enabled → exec (.acctDisable c) s = .next
      (waitsFor c 0x122 (.acctStop (namedAcct c)) (disableCause (namedAcct c) (fun x => { x with admin := true }) u))) ∧
    (Runs 0x122 c s u → (u.acct (namedAcct c)).state = .disabled → exec (.acctDisable c) s = .next
      (complete c 0x122 .ok [] (disableCause (namedAcct c) (fun x => { x with admin := true }) u))) ∧
    (Runs 0x124 c s u → (u.acct (namedAcct c)).state = .enabled → exec (.acctDestroy c) s = .next
      (waitsFor c 0x124 (.acctStop (namedAcct c)) (disableCause (namedAcct c) (fun x => { x with destroy := true }) u))) ∧
    (Runs 0x124 c s u → (u.acct (namedAcct c)).state = .disabled → exec (.acctDestroy c) s = .next
      (complete c 0x124 .ok [] (releaseAcct (namedAcct c) u)))) ∧
  (∀ (c : Cmd) (s u : State), Runs 0x123 c s u → u.hasModRight (cmdA c) = true → cmdTail c 2 = true →
    namedAcct c < u.ten.accts.length → namedAcct c < 1024 →
    (u.acct (namedAcct c)).state = .disabled → (u.acct (namedAcct c)).causes.absent = false →
    exec (.acctEnable c) s = .next (complete c 0x123 .ok [] (enterEnabled (namedAcct c)
      (u.onAcct (namedAcct c) fun x => { x with causes := { x.causes with admin := false } })))) ∧
  (∀ (c : Cmd) (s u : State), Runs 0x125 c s u → cmdTail c 16 = true → cmdZ c 2 6 = true → addrOk (cmdU c 8 8) = true →
    namedAcct c < 1024 →
    (namedAcct c = cmdA c ∨ (u.chip.fw.lifecycle = .owned ∧ u.hasModRight (cmdA c) = true)) →
    u.inAccount (cmdA c) (cmdU c 8 8) 128 = true → u.writes (cmdU c 8 8) 128 = true →
    exec (.acctQuery c) s = .next (complete c 0x125 .ok
      (leBytes 1 (u.acct (namedAcct c)).state.code ++ leBytes 1 (u.acct (namedAcct c)).causes.bits)
      (u.give (cmdA c) (cmdU c 8 8) ((u.acct (namedAcct c)).quota.bytes ++ (usageOf u (namedAcct c)).bytes)))) ∧
  (∀ (c : Cmd) (s u : State), Runs 0x12A c s u → cmdTail c 8 = true → cmdZ c 2 6 = true →
    cmdU c 0 1 < 8 → cmdU c 1 1 < 8 → cmdU c 0 1 &&& cmdU c 1 1 = 0 → u.slotsOf (cmdA c) = [] →
    cmdA c < u.ten.accts.length →
    let put := fun (i : Nat) (b : Bool) => (b || (cmdU c 0 1).testBit i) && !(cmdU c 1 1).testBit i
    let v := u.onAcct (cmdA c) fun x =>
      { x with epochPin := put 0 x.epochPin, strictFreeze := put 1 x.strictFreeze, remoteSleep := put 2 x.remoteSleep }
    exec (.acctFlagsSet c) s = .next (complete c 0x12A .ok (leBytes 1 (v.acct (cmdA c)).flags) v))

/-- When they run for the holder of the module's right: GRANT of legal, free units of the account's dies wipes those
units and adds their grants to the table; REVOKE of units that the account holds and nothing uses wipes them and
removes exactly their grants; PART_SET with dies that no other partition has, no die leaving, gives the partition
those dies, wipes the dies that it gains and retags the units; RIGHT_SET passes the module's right to the account of
an ENABLED physical function, and a partition's right to an ENABLED account of that partition, or to nobody. (R458,
R461, R465, R466, R599, R528) -/
def Obligations.GrantsPartitionsAndRightsComplete : Prop :=
  (∀ (c : Cmd) (s u : State) (gs : List Grant), Runs 0x126 c s u → u.hasModRight (cmdA c) = true →
    namedUnits c (namedAcct c) = some gs → (u.acct (namedAcct c)).state ≠ .none →
    (∀ g ∈ gs, g.pool = 3 ∨ g.die ∈ u.acctDies (namedAcct c)) →
    (∀ g ∈ gs, u.unitOwner g.pool g.die g.unit = none ∧ (g.pool ≠ 2 ∨ inDecodeGroup u g.die (g.unit / 16) = false)) →
    exec (.acctMemGrant c) s = .next (complete c 0x126 .ok []
      { (u.wipeWhere (inUnits fun x => gs.any fun g => g.isUnit x)) with
        ten := { u.ten with grants := (u.ten.grants ++ gs).mergeSort grantOrder } })) ∧
  (∀ (c : Cmd) (s u : State) (gs : List Grant), Runs 0x127 c s u → u.hasModRight (cmdA c) = true →
    namedUnits c (namedAcct c) = some gs →
    (∀ g ∈ gs, u.unitOwner g.pool g.die g.unit = some (namedAcct c) ∧ g.pool ≠ 3 ∧
      ∀ r ∈ busyRanges u (namedAcct c), rangeInUnit r g = false) →
    exec (.acctMemRevoke c) s = .next (complete c 0x127 .ok []
      { (u.wipeWhere (inUnits fun x => gs.any fun g => g.isUnit x)) with
        ten := { u.ten with grants := u.ten.grants.filter fun g => !gs.contains g } })) ∧
  (∀ (c : Cmd) (s u : State), Runs 0x128 c s u → u.hasModRight (cmdA c) = true → cmdTail c 2 = true → cmdU c 0 1 < 8 →
    let n := cmdU c 0 1
    let dies := (List.range 8).filter fun d => (cmdU c 1 1).testBit d
    (∀ d ∈ dies, u.dieOwner d = none ∨ u.dieOwner d = some n) → (∀ d ∈ u.partDies n, d ∈ dies) → dies ≠ [] →
    exec (.partSet c) s = .next (complete c 0x128 .ok [] (retag
      ((dies.filter fun d => !(u.partDies n).contains d).foldl (fun s d => wipeDie d s)
        { u with ten := { u.ten with parts := lmod u.ten.parts n fun _ => dies } })))) ∧
  (∀ (c : Cmd) (s u : State), Runs 0x129 c s u → u.hasModRight (cmdA c) = true → cmdTail c 4 = true →
    let p := cmdU c 1 1
    let a := cmdU c 2 2
    (cmdU c 0 1 = 0 → p = 0 → a < 1024 → a % 256 = 0 → (u.acct a).state = .enabled →
      exec (.rightSet c) s = .next (complete c 0x129 .ok []
        (stopSamplers (fun _ x => x.byModule && x.acct != a) { u with ten := { u.ten with modRight := some a } }))) ∧
    (cmdU c 0 1 = 1 → p < 8 → u.partDies p ≠ [] → a < 1024 → (u.acct a).state = .enabled →
      (u.acct a).quota.partition = p →
      ∃ t, exec (.rightSet c) s = .next (complete c 0x129 .ok [] t) ∧
        t.ten = { u.ten with partRights := lmod u.ten.partRights p fun _ => some a } ∧ t.mem = u.mem) ∧
    (cmdU c 0 1 = 1 → p < 8 → u.partDies p ≠ [] → a = 0xFFFF →
      ∃ t, exec (.rightSet c) s = .next (complete c 0x129 .ok [] t) ∧
        t.ten = { u.ten with partRights := lmod u.ten.partRights p fun _ => none } ∧ t.mem = u.mem))

/-! ## Memory, credits and monitors (11, 19) -/

/-- When they run with legal operands: MAP_QUERY writes the caller's runs of memory to its range (asking for the
credits of the write) and returns their number; CREDIT_SET by a holder of the partition's right, of a class other than
the decode class of HBM, whose sum of floors stays within 100 on each named die, stages the floor and cap for the next
period and changes none in force; CREDIT_QUERY and ERR_QUERY return the floors and caps in force and the error record
of a die of the caller's partition and change nothing. After a CREDIT_PERIOD the floors and caps of every pool are the
staged ones where there were any, nothing is staged, and memory, accounts' states, grants, cores and models are as
before. (R359, R361, R365, R366, R367) -/
def Obligations.MemoryCommandsComplete : Prop :=
  (∀ (c : Cmd) (s u : State), Runs 0x201 c s u → cmdTail c 8 = true → addrOk (cmdU c 0 8) = true → cmdU c 0 8 % 64 = 0 →
    (memoryMap u (cmdA c) = [] ∨ u.inAccount (cmdA c) (cmdU c 0 8) (16 * (memoryMap u (cmdA c)).length) = true ∧
      u.writes (cmdU c 0 8) (16 * (memoryMap u (cmdA c)).length) = true) →
    exec (.memMapQuery c) s = .next (complete c 0x201 .ok (leBytes 4 (memoryMap u (cmdA c)).length)
      (if memoryMap u (cmdA c) = [] then u else u.give (cmdA c) (cmdU c 0 8) (memoryMap u (cmdA c)).flatten))) ∧
  (∀ (c : Cmd) (s u : State) (d : Nat), Runs 0x202 c s u → cmdTail c 8 = true → cmdZ c 5 3 = true →
    let vault := decide (cmdU c 1 1 = 1)
    cmdU c 1 1 < 2 → cmdU c 2 1 < (if vault then 3 else 6) → (vault = true ∨ cmdU c 2 1 ≠ 0) →
    (u.partDies (u.acct (cmdA c)).quota.partition)[cmdU c 0 1]? = some d → cmdU c 0 1 ≠ 0xFF →
    (floorRange vault (cmdU c 2 1)).1 ≤ cmdU c 3 1 → cmdU c 3 1 ≤ (floorRange vault (cmdU c 2 1)).2 →
    0 < cmdU c 4 1 → cmdU c 4 1 ≤ 100 → cmdU c 3 1 ≤ cmdU c 4 1 →
    u.hasPartRight (cmdA c) (u.acct (cmdA c)).quota.partition = true →
    ((u.credits vault d).change (cmdU c 2 1) (cmdU c 3 1) (cmdU c 4 1)).1.sum ≤ 100 →
    exec (.memCreditSet c) s = .next (complete c 0x202 .ok [] (u.onCredits vault d fun x =>
      { x with staged := some (x.change (cmdU c 2 1) (cmdU c 3 1) (cmdU c 4 1)) }))) ∧
  (∀ (c : Cmd) (s u : State) (d : Nat), Runs 0x203 c s u → cmdTail c 8 = true → cmdZ c 2 6 = true → cmdU c 1 1 < 2 →
    (u.acctDies (cmdA c))[cmdU c 0 1]? = some d →
    exec (.memCreditQuery c) s = .next (complete c 0x203 .ok
      (padTo 6 ((u.credits (cmdU c 1 1 == 1) d).floors.flatMap (leBytes 1)) ++
        padTo 6 ((u.credits (cmdU c 1 1 == 1) d).caps.flatMap (leBytes 1))) u)) ∧
  (∀ (c : Cmd) (s u : State) (d : Nat), Runs 0x204 c s u → cmdTail c 8 = true → cmdZ c 1 7 = true →
    (u.acctDies (cmdA c))[cmdU c 0 1]? = some d →
    exec (.memErrQuery c) s = .next (complete c 0x204 .ok (errorRecord u d) u)) ∧
  (∀ (reqs : List CreditReq) (s : State), ∃ t, exec (.creditPeriod reqs) s = .next t ∧
    (∀ d < 8, ∀ v, d < s.chip.hbmCred.length → d < s.chip.vaultCred.length →
      (t.credits v d).floors = ((s.credits v d).staged.getD ((s.credits v d).floors, (s.credits v d).caps)).1 ∧
      (t.credits v d).caps = ((s.credits v d).staged.getD ((s.credits v d).floors, (s.credits v d).caps)).2 ∧
      (t.credits v d).staged = none) ∧
    t.mem = s.mem ∧ t.ten.grants = s.ten.grants ∧ t.cores = s.cores ∧ t.models = s.models ∧ t.mail = s.mail ∧
    t.pkgs = s.pkgs)

/-- When they run with legal operands: TALLY_READ returns the caller's record and changes nothing; READ_ALL by the
holder of the module's right writes the records of its accounts; TALLY_COPY, with the domains on, copies every
account's meters; CNT_SET by one who may count, of a source that indexes the UNIT it names, sets the counter's control
fields, clears OVF and the value where asked, and marks it CHANGED; CNT_SET, CNT_SNAP and SAMPLE_LATCH first let the
scope's counters of a source that the model does not see go on by free values (log entry 8); CNT_SNAP writes the
record of the scope and, with CLEAR, zeroes values and OVF; CNT_SAMPLE starts the scope's sampler on a range of the
caller's, and with PERIOD 0 stops it; a SAMPLE_LATCH of a running sampler in P0 writes the next record in its ring,
and one in a low power state skips it and counts it in MISSED, which is the scope's and survives a new sampler;
CNT_CATALOG writes the entries of a group. (R475, R476, R553, R556, R557, R559, R560, R561) -/
def Obligations.TallyAndCounterCommandsComplete : Prop :=
  (∀ (c : Cmd) (s u : State), Runs 0xA01 c s u → cmdTail c 0 = true →
    exec (.tallyRead c) s = .next (complete c 0xA01 .ok (tallyRecord u (cmdA c)) u)) ∧
  (∀ (c : Cmd) (s u : State), Runs 0xA02 c s u → cmdTail c 16 = true → cmdZ c 4 4 = true → 0 < cmdU c 2 2 →
    cmdU c 0 2 + cmdU c 2 2 ≤ 1024 → addrOk (cmdU c 8 8) = true → u.hasModRight (cmdA c) = true →
    u.inAccount (cmdA c) (cmdU c 8 8) (128 * cmdU c 2 2) = true → u.writes (cmdU c 8 8) (128 * cmdU c 2 2) = true →
    exec (.tallyReadAll c) s = .next (complete c 0xA02 .ok []
      (u.give (cmdA c) (cmdU c 8 8) ((List.range (cmdU c 2 2)).flatMap fun i => tallyRecord u (cmdU c 0 2 + i))))) ∧
  (∀ s : State, s.off = false → exec .tallyCopy s = .next { s with ten := { s.ten with
    accts := s.ten.accts.map fun a => { a with copied := s.mtime, copy := a.meters } } }) ∧
  (∀ (c : Cmd) (s u : State), Runs 0xA10 c s u → cmdTail c 16 = true → cmdZ c 2 2 = true → cmdZ c 9 7 = true →
    let ctl := cmdU c 4 4
    let src := ctl % 2 ^ 12
    cmdU c 0 1 ≤ 8 → cmdU c 1 1 ≤ 31 → cmdU c 8 1 ≤ 1 → ctl.testBit 29 = false → ctl.testBit 31 = false →
    src / 256 < 12 → src % 256 < groupEvents (src / 256) → (cmdU c 0 1 = 8 ∨ moduleOnly (src / 256) = false) →
    (ctl.testBit 28 = false ∧ bitField ctl 24 4 = 0 ∨ sourceIndexes src (bitField ctl 24 4) = true) → mayCount c (cmdU c 0 1) u = true →
    exec (.cntSet c) s = .next (complete c 0xA10 .ok [] ((countUnseen (cmdU c 0 1) u).onCounters (cmdU c 0 1) fun l => lmod l (cmdU c 1 1) fun k =>
      { k with src := BitVec.ofNat 12 src, en := ctl.testBit 12, afilt := ctl.testBit 13,
               account := BitVec.ofNat 10 (ctl / 2 ^ 14), unit := BitVec.ofNat 4 (bitField ctl 24 4),
               ufilt := ctl.testBit 28, ovf := k.ovf && !ctl.testBit 30,
               value := if cmdU c 8 1 = 1 then 0 else k.value, changed := true, dead := false }))) ∧
  (∀ (c : Cmd) (s u : State), Runs 0xA11 c s u → cmdTail c 16 = true → cmdZ c 2 6 = true → cmdU c 0 1 ≤ 8 →
    cmdU c 1 1 ≤ 1 → addrOk (cmdU c 8 8) = true → mayCount c (cmdU c 0 1) u = true →
    u.inAccount (cmdA c) (cmdU c 8 8) 320 = true → u.writes (cmdU c 8 8) 320 = true →
    let v := countUnseen (cmdU c 0 1) u
    exec (.cntSnap c) s = .next (complete c 0xA11 .ok [] (latchClear (cmdU c 0 1) (cmdU c 1 1 == 1)
      (recordWritten (cmdU c 0 1) (v.give (cmdA c) (cmdU c 8 8) (cntRecord v (cmdU c 0 1) (cmdU c 1 1 == 1) 0)))))) ∧
  (∀ (c : Cmd) (s u : State), Runs 0xA12 c s u → cmdTail c 24 = true → cmdZ c 2 2 = true → cmdZ c 20 4 = true →
    cmdU c 0 1 ≤ 8 → cmdU c 1 1 ≤ 1 → addrOk (cmdU c 8 8) = true → mayCount c (cmdU c 0 1) u = true →
    (cmdU c 4 4 = 0 → exec (.cntSample c) s = .next (complete c 0xA12 .ok []
      { u with chip := { u.chip with samplers := terase u.chip.samplers (cmdU c 0 1) } })) ∧
    (0 < cmdU c 4 4 → cmdU c 4 4 ≤ 60000 → 0 < cmdU c 16 4 → cmdU c 16 4 ≤ 65536 → cmdU c 0 1 = 8 →
      u.inAccount (cmdA c) (cmdU c 8 8) (320 * cmdU c 16 4) = true →
      let x : Sampler := ⟨cmdA c, cmdU c 1 1 == 1, cmdU c 4 4, cmdU c 8 8, cmdU c 16 4, 0, true⟩
      exec (.cntSample c) s = .next (complete c 0xA12 .ok []
        { u with chip := { u.chip with samplers := tset u.chip.samplers 8 x } }))) ∧
  (∀ (k : BitVec 4) (s : State) (x : Sampler), tget s.chip.samplers k.toNat = some x → s.chip.power.pstate = 0 →
    let a := x.base + x.next % x.nrec * 320
    s.writes a 320 = true → s.inAccount x.acct a 320 = true →
    let v := countUnseen k.toNat s
    let w := v.give x.acct a (cntRecord v k.toNat x.clear x.next)
    exec (.sampleLatch k) s = .next (latchClear k.toNat x.clear (recordWritten k.toNat
      { w with chip :=
        { w.chip with
          samplers := tset s.chip.samplers k.toNat { x with next := x.next + 1 } } }))) ∧
  (∀ (k : BitVec 4) (s : State) (x : Sampler), tget s.chip.samplers k.toNat = some x → s.chip.power.pstate ≠ 0 →
    exec (.sampleLatch k) s = .next { s with chip := { s.chip with
      missed := tset s.chip.missed k.toNat (tgetD s.chip.missed k.toNat 0 + 1),
      samplers := tset s.chip.samplers k.toNat { x with next := x.next + 1 } } }) ∧
  (∀ (c : Cmd) (s u : State), Runs 0xA13 c s u → cmdTail c 16 = true → cmdZ c 1 7 = true → cmdU c 0 1 < 12 →
    addrOk (cmdU c 8 8) = true → u.inAccount (cmdA c) (cmdU c 8 8) (16 * groupEvents (cmdU c 0 1)) = true →
    u.writes (cmdU c 8 8) (16 * groupEvents (cmdU c 0 1)) = true →
    exec (.cntCatalog c) s = .next (complete c 0xA13 .ok (leBytes 2 (groupEvents (cmdU c 0 1)))
      (u.give (cmdA c) (cmdU c 8 8) ((List.range (groupEvents (cmdU c 0 1))).flatMap fun i => catalogBytes (256 * cmdU c 0 1 + i)))))

/-- When they run with legal operands: NUM_READ returns module time and the caller's numerics meters and changes
nothing; AMAX_READ writes the records of the account's entries in a range of tensors and returns their number;
AMAX_SET changes PREV of an entry of the account that no resident package uses, and leaves its CUR; AMAX_ROLL of the
account moves CUR to PREV and zeroes CUR in every entry. An AMAX_ROLL of a model's entry that is still to roll, with
no resident package of an old epoch naming it, sets PREV to the largest of the part's CUR and what joined parts of the
job sent, and CUR to zero; what a part that is not joined sent is left out. A counter that is enabled for a source,
and whose filter's account has not been destroyed since it was set, and whose filters the event passes takes its value
plus the number of events, modulo 2^48; OVF is set where the sum reaches 2^48 and is otherwise as it was, and SRC, EN,
the filters and CHANGED are as they were. A counter that is not enabled, whose filter's account is gone, that counts
another source, or whose ACCOUNT or UNIT filter the event does not pass is unchanged. Where every counter of a scope
is disabled, dead or of a source the model sees, looking at the scope changes no counter of it and uses no free value
(log entry 8). (R424, R552, R557, R558, R563, R565, R566) -/
def Obligations.NumericsMonitorsTakeEffect : Prop :=
  (∀ (c : Cmd) (s u : State), Runs 0xA18 c s u → cmdTail c 0 = true →
    exec (.numRead c) s = .next (complete c 0xA18 .ok
      (leBytes 8 u.mtime.toNat ++ (u.acct (cmdA c)).num.flatMap fun m => leBytes 8 m.toNat) u)) ∧
  (∀ (c : Cmd) (s u : State), Runs 0xA19 c s u → cmdTail c 24 = true → cmdZ c 2 2 = true → cmdZ c 12 4 = true →
    cmdU c 0 2 = 0 → 0 < cmdU c 8 4 → cmdU c 8 4 ≤ 16384 → addrOk (cmdU c 16 8) = true →
    u.inAccount (cmdA c) (cmdU c 16 8) (16 * cmdU c 8 4) = true → u.writes (cmdU c 16 8) (16 * cmdU c 8 4) = true →
    let rs := (u.acct (cmdA c)).amax.filter fun x => decide (cmdU c 4 4 ≤ x.1) && decide (x.1 < cmdU c 4 4 + cmdU c 8 4)
    exec (.numAmaxRead c) s = .next (complete c 0xA19 .ok (leBytes 4 rs.length)
      (u.give (cmdA c) (cmdU c 16 8) (rs.flatMap amaxRecord)))) ∧
  (∀ (c : Cmd) (s u : State) (e : Amax), Runs 0xA1A c s u → cmdTail c 16 = true → cmdZ c 2 2 = true → cmdZ c 12 4 = true →
    cmdU c 0 2 = 0 → cmdU c 8 4 < 0x7F800000 → tget (u.acct (cmdA c)).amax (cmdU c 4 4) = some e →
    modelBusy u (cmdA c) 0 = false → cmdA c < u.ten.accts.length →
    ∃ t, exec (.numAmaxSet c) s = .next (complete c 0xA1A .ok [] t) ∧
      tget (t.acct (cmdA c)).amax (cmdU c 4 4) = some { e with prev := BitVec.ofNat 32 (cmdU c 8 4) } ∧
      (∀ k, k ≠ cmdU c 4 4 → tget (t.acct (cmdA c)).amax k = tget (u.acct (cmdA c)).amax k) ∧ t.mem = u.mem) ∧
  (∀ (c : Cmd) (s u : State), Runs 0xA1B c s u → cmdTail c 0 = true → modelBusy u (cmdA c) 0 = false →
    exec (.numAmaxRoll c) s = .next (complete c 0xA1B .ok (leBytes 4 (u.acct (cmdA c)).amax.length)
      (u.onAcct (cmdA c) fun a => { a with amax := (u.acct (cmdA c)).amax.map fun x =>
        (x.1, { x.2 with prev := x.2.cur, cur := 0 }) }))) ∧
  (∀ (slot : BitVec 6) (tid : Word) (others : List (BitVec 13 × Word)) (s : State) (m : Model), s.model slot.toNat = some m → tid.toNat ∈ m.unrolled →
    (∀ p ∈ s.pkgs, p.resident = true → p.model = m.map.num → p.id.acct.toNat = m.map.acct → p.epoch ≠ 0 →
      p.epoch.toNat ≠ m.w.epoch → tid.toNat ∉ p.tensors) →
    ∃ t mt, exec (.amaxRoll slot tid others) s = .next t ∧ t.model slot.toNat = some mt ∧
      (let heard := (others.filter fun x => (s.joinedBy m.map.job x.1).isSome).map (·.2)
       let cur := (tgetD m.amax tid.toNat ⟨0, 0, 0⟩).cur
       ∃ e, tget mt.amax tid.toNat = some e ∧ e.cur = 0 ∧ e.epoch = BitVec.ofNat 64 m.w.epoch ∧
         (e.prev = cur ∨ e.prev ∈ heard) ∧ cur.toNat ≤ e.prev.toNat ∧ ∀ x ∈ heard, x.toNat ≤ e.prev.toNat) ∧
      tid.toNat ∉ mt.unrolled ∧ t.mem = s.mem) ∧
  (∀ (k : Counter) (src n : Nat) (acct unit : Option Nat),
    let passes := k.en = true ∧ k.dead = false ∧ k.src.toNat = src ∧ (k.afilt = true → acct = some k.account.toNat) ∧
      (k.ufilt = true → unit = some k.unit.toNat)
    (passes → (k.see src acct unit n).value.toNat = (k.value.toNat + n) % 2 ^ 48 ∧
      ((k.see src acct unit n).ovf = true ↔ k.ovf = true ∨ 2 ^ 48 ≤ k.value.toNat + n) ∧
      k.see src acct unit n = { k with value := (k.see src acct unit n).value, ovf := (k.see src acct unit n).ovf }) ∧
    (¬ passes → k.see src acct unit n = k)) ∧
  (∀ (scope : Nat) (s : State),
    (∀ k ∈ s.countersOf scope, k.en = false ∨ k.dead = true ∨ unseenSource k.src.toNat = false) →
    (countUnseen scope s).countersOf scope = s.countersOf scope ∧ (countUnseen scope s).freeCtr = s.freeCtr)

/-- Between any two dies of the part: the route takes at most two hops, each along a link of R22 (to the die one
above, one below or four away, modulo 8), the first on level 0 and the second on level 1; from source a to destination
b it passes, for (b - a) mod 8 = 1 to 7, the dies +1; +1, +1; +4, -1; +4; +4, +1; -1, -1; -1; and a die's traffic with
its Ledger die uses that one link. Where no input buffer of the network holds a flit, the messages of any reads,
transfers and writes from a die of the part find their credits, and leave every buffer empty; where a message finds no
credit its work does not go on (log entry 159). Of a quarter's credits the KV movements take at most 200 and at most
what the STREAM floor gives, each at most what it asks for (R360); lending gives out at most the pool, and to a class
at least what it has and at most its room more (R361). (R369) -/
def Obligations.RoutesAndCreditsKeepTheirBounds : Prop :=
  (∀ a < 8, ∀ b < 8, (dieHops a b).length ≤ 2 ∧ (dieHops a b).map (·.level) = List.range (dieHops a b).length ∧
    (∀ h ∈ dieHops a b, h.src < 8 ∧ (h.dst = (h.src + 1) % 8 ∨ h.dst = (h.src + 7) % 8 ∨ h.dst = (h.src + 4) % 8)) ∧
    (dieHops a b).map (·.dst) = match (b + 8 - a) % 8 with
      | 0 => [] | 1 => [(a + 1) % 8] | 2 => [(a + 1) % 8, (a + 2) % 8] | 3 => [(a + 4) % 8, (a + 3) % 8]
      | 4 => [(a + 4) % 8] | 5 => [(a + 4) % 8, (a + 5) % 8] | 6 => [(a + 7) % 8, (a + 6) % 8] | _ => [(a + 7) % 8]) ∧
  (∀ (die x d o : Nat), die < 8 → locOf x = some (.vault d o) →
    hopsTo die x = dieHops die d ++ [⟨d, 8 + d / 2, 0⟩] ∧ hopsFrom die x = [⟨8 + d / 2, d, 0⟩] ++ dieHops d die) ∧
  (∀ (die : Nat) (rs : List (Nat × Nat)) (n : Noc), die < 8 → n.held = [] →
    n.crossAll (readMsgs die rs) = some n ∧ n.crossAll (dataMsgs die rs) = some n ∧ n.crossAll (writeMsgs die rs) = some n) ∧
  (∀ (ms : List (Vc × List Hop)) (s : State) (k : State → State), s.chip.noc.crossAll ms = none → s.carry ms k = s) ∧
  (∀ (s : State) (die quarter floor : Nat), ((kvGrants s die quarter floor).map (·.2)).sum ≤ min 200 floor ∧
    ∀ g ∈ kvGrants s die quarter floor, g.1 ∈ s.demand ∧ g.1.kv = true ∧ g.2 ≤ g.1.count) ∧
  (∀ (pool turn : Nat) (room got : List Nat), room.length = got.length →
    let r := (lend pool turn room got).1
    r.length = got.length ∧ r.sum ≤ got.sum + pool ∧
    ∀ i < got.length, got.getD i 0 ≤ r.getD i 0 ∧ r.getD i 0 ≤ got.getD i 0 + room.getD i 0)

/-! ## KV pages and sharing domains (09) -/

/-- When they run on the caller's model with legal operands: KV_MODEL_SET sets the field of an idle model's settings;
KV_POOL_SET and KV_VAULT_SET of an idle model record a pool of granted frames for a member or die; FLUSH removes the
caller's entries of the model and returns their number; POOL_QUERY returns the frame counts and changes nothing. A
DEMOTION where a member's cached frames exceed CACHE_HI removes the least recently matched entry that no lookup's
reference keeps, or moves it to a free Vault frame of the die where its bytes read without error. (R286, R287, R288,
R303, R305) -/
def Obligations.KvCommandsComplete : Prop :=
  (∀ (c : Cmd) (s u : State) (k : Nat), Runs 0x210 c s u → cmdTail c 16 = true → cmdZ c 3 5 = true →
    kvValueOk (cmdU c 2 1) (cmdU c 8 8) = true → u.slotOf (cmdA c) (cmdU c 0 2) = some k →
    (3 < cmdU c 2 1 ∨ (u.modelBusy k = false ∧ u.modelPages k = false)) →
    exec (.kvModelSet c) s = .next (complete c 0x210 .ok []
      (u.onModel k fun m => { m with kv := m.kv.put (cmdU c 2 1) (cmdU c 8 8) }))) ∧
  (∀ (c : Cmd) (s u : State) (k : Nat) (m : Model), Runs 0x211 c s u → cmdTail c 16 = true → cmdZ c 3 1 = true →
    let die := cmdU c 2 1 % 8
    let se := cmdU c 2 1 / 8 % 4
    cmdU c 2 1 < 32 → die < (u.acctDies (cmdA c)).length → addrOk (cmdU c 8 8) = true → cmdU c 8 8 % 64 = 0 →
    u.slotOf (cmdA c) (cmdU c 0 2) = some k → u.model k = some m → m.kv.kvRow ≠ 0 → 4 * die + se ∈ m.map.members →
    0 < cmdU c 4 4 → u.inGrants (cmdA c) (cmdU c 8 8) (cmdU c 4 4 * m.frameBytes) = true →
    inQuarter (u.physDie (cmdA c) die) se (cmdU c 8 8) (cmdU c 4 4 * m.frameBytes) = true →
    u.modelBusy k = false →
    (∀ l ∈ framesOf u k false (4 * die + se), u.frameHeld l = false ∧ u.frameIndexed l = false ∧ u.frameWanted l = false) →
    exec (.kvPoolSet c) s = .next (complete c 0x211 .ok [] (u.onModel k fun m =>
      { m with kv := { m.kv with pools := tset m.kv.pools (4 * die + se) ⟨cmdU c 8 8, cmdU c 4 4⟩ } }))) ∧
  (∀ (c : Cmd) (s u : State) (k off off' : Nat) (m : Model), Runs 0x212 c s u → cmdTail c 16 = true → cmdZ c 3 1 = true →
    let die := cmdU c 2 1
    die < (u.acctDies (cmdA c)).length → addrOk (cmdU c 8 8) = true → cmdU c 8 8 % 64 = 0 →
    u.slotOf (cmdA c) (cmdU c 0 2) = some k → u.model k = some m → m.kv.kvRow ≠ 0 → 0 < cmdU c 4 4 →
    u.inGrants (cmdA c) (cmdU c 8 8) (cmdU c 4 4 * m.frameBytes) = true →
    locOf (cmdU c 8 8) = some (.vault (u.physDie (cmdA c) die) off) →
    locOf (cmdU c 8 8 + cmdU c 4 4 * m.frameBytes - 1) = some (.vault (u.physDie (cmdA c) die) off') →
    u.modelBusy k = false →
    (∀ l ∈ framesOf u k true die, u.frameHeld l = false ∧ u.frameIndexed l = false ∧ u.frameWanted l = false) →
    exec (.kvVaultSet c) s = .next (complete c 0x212 .ok [] (u.onModel k fun m =>
      { m with kv := { m.kv with vaults := tset m.kv.vaults die ⟨cmdU c 8 8, cmdU c 4 4⟩ } }))) ∧
  (∀ (c : Cmd) (s u : State) (k : Nat), Runs 0x217 c s u → cmdTail c 2 = true → u.slotOf (cmdA c) (cmdU c 0 2) = some k →
    ∃ t, exec (.kvFlush c) s = .next (complete c 0x217 .ok
        (leBytes 4 (u.gens.index.filter fun e => e.acct == cmdA c && e.slot == k).length) t) ∧
      (∀ e, e ∈ t.gens.index ↔ e ∈ u.gens.index ∧ ¬(e.acct = cmdA c ∧ e.slot = k)) ∧ t.mem = u.mem) ∧
  (∀ (c : Cmd) (s u : State) (k : Nat), Runs 0x218 c s u → cmdTail c 2 = true → u.slotOf (cmdA c) (cmdU c 0 2) = some k →
    ∃ p, exec (.kvPoolQuery c) s = .next (complete c 0x218 .ok p u) ∧ p.length = 28) ∧
  (∀ (slot : BitVec 6) (member : BitVec 5) (s : State) (m : Model) (e : IdxEntry), s.model slot.toNat = some m →
    let cached := cachedFrames s slot.toNat false member.toNat
    m.kv.cacheHi * (framesOf s slot.toNat false member.toNat).length < cached.length * 100 →
    oldestEntry s (cached.filter fun l => !s.frameWanted l) = some e →
    (freeFrames s slot.toNat true (member.toNat / 4) = [] →
      exec (.demotion slot member) s = .next (dropEntries (fun x => x.id == e.id) s)) ∧
    (freeFrames s slot.toNat true (member.toNat / 4) ≠ [] →
      ((cachedFrames s slot.toNat true (member.toNat / 4)).length + 1) * 100 ≤
        m.kv.vcacheHi * (framesOf s slot.toNat true (member.toNat / 4)).length →
      s.meets [(s.pageAddr e.loc, (s.frameBytes e.loc).length)] = .clear →
      ∃ l ∈ freeFrames s slot.toNat true (member.toNat / 4), ∃ t, exec (.demotion slot member) s = .next t ∧
        t.gens.index = s.gens.index.map fun x => if x.id == e.id then { x with loc := l } else x))

/-- When they run with legal operands: DOMAIN_CREATE within the quota makes the lowest free domain (log entry 28),
with the caller its member; GRANT by a member records the grant; JOIN by a grantee makes it a member and ends its
grants; LEAVE by a member removes its membership, its grants and its entries there. A sequence that was admitted under
a membership publishes in the domain while that membership stands, and has nowhere to publish once its account has
left the domain, has joined it anew, or the domain was created anew. (R296) -/
def Obligations.KvDomainCommandsComplete : Prop :=
  (∀ (c : Cmd) (s u : State) (n : Nat), Runs 0x213 c s u → cmdTail c 0 = true → 1 ≤ n → n ≤ 1023 →
    tget u.gens.domains n = none → (∀ k, 1 ≤ k → k < n → (tget u.gens.domains k).isSome) →
    (u.gens.domains.filter fun x => x.2.creator == cmdA c).length < (u.acct (cmdA c)).quota.domains →
    exec (.kvDomainCreate c) s = .next (complete c 0x213 .ok (leBytes 2 n) { u with gens := { u.gens with
      domCtr := u.gens.domCtr + 1, domains := tset u.gens.domains n ⟨u.gens.domCtr, cmdA c, [cmdA c], [], 1, [(cmdA c, 0)]⟩ } })) ∧
  (∀ (c : Cmd) (s u : State) (d : Domain), Runs 0x214 c s u → cmdTail c 4 = true → 1 ≤ cmdU c 0 2 → cmdU c 0 2 ≤ 1023 →
    cmdU c 2 2 ≤ 1023 → tget u.gens.domains (cmdU c 0 2) = some d → cmdA c ∈ d.members →
    exec (.kvDomainGrant c) s = .next (complete c 0x214 .ok [] { u with gens := { u.gens with
      domains := tset u.gens.domains (cmdU c 0 2) { d with grants := if (cmdA c, cmdU c 2 2) ∈ d.grants then d.grants
        else d.grants ++ [(cmdA c, cmdU c 2 2)] } } })) ∧
  (∀ (c : Cmd) (s u : State) (d : Domain) (by_ : Nat), Runs 0x215 c s u → cmdTail c 2 = true → 1 ≤ cmdU c 0 2 →
    cmdU c 0 2 ≤ 1023 → tget u.gens.domains (cmdU c 0 2) = some d → (by_, cmdA c) ∈ d.grants →
    let left := d.grants.filter fun g => g.2 != cmdA c
    exec (.kvDomainJoin c) s = .next (complete c 0x215 .ok [] { u with gens := { u.gens with
      domains := tset u.gens.domains (cmdU c 0 2) (if cmdA c ∈ d.members then { d with grants := left }
        else ⟨d.inst, d.creator, d.members ++ [cmdA c], left, d.joins + 1, tset d.stamps (cmdA c) d.joins⟩) } })) ∧
  (∀ (c : Cmd) (s u : State) (d : Domain), Runs 0x216 c s u → cmdTail c 2 = true → 1 ≤ cmdU c 0 2 → cmdU c 0 2 ≤ 1023 →
    tget u.gens.domains (cmdU c 0 2) = some d → cmdA c ∈ d.members →
    ∃ t, exec (.kvDomainLeave c) s = .next (complete c 0x216 .ok [] t) ∧
      (∀ x ∈ t.gens.domains, x.1 = cmdU c 0 2 → cmdA c ∉ x.2.members ∧ ∀ g ∈ x.2.grants, g.1 ≠ cmdA c) ∧
      (∀ e, e ∈ t.gens.index ↔ e ∈ u.gens.index ∧ ¬(e.dom = cmdU c 0 2 ∧ e.acct = cmdA c)) ∧ t.mem = u.mem) ∧
  (∀ (q : Seq) (s : State) (d : Domain) (inst stamp : Nat), q.domain ≠ 0 → tget s.gens.domains q.domain = some d →
    q.joined = some (inst, stamp) →
    (q.acct ∈ d.members → d.inst = inst → tget d.stamps q.acct = some stamp → publishInst q s = (some inst, s)) ∧
    (q.acct ∉ d.members ∨ d.inst ≠ inst ∨ tget d.stamps q.acct ≠ some stamp → publishInst q s = (none, s)))

/-! ## Work packages (05) -/

/-- When they run: a SUBMIT whose image passes every check of the loader, outside a PARTITION reset of the account,
completes with the package's handle, and the package is accepted, the loader's reads asking for their credits; a
CANCEL of a package that has not ended and does not stop for another cause starts its stop procedure and completes OK
where that has ended it, and otherwise waits for its end; a QUERY returns the state code and, once the package has
ended, its record; SEM_READ returns an account semaphore within the quota, SEM_SET sets it, and SEM_SIGNAL adds one to
it modulo 2^32 and returns the new value. A running package whose run limit expires, or one that waits at its prologue
for a copy, starts its stop procedure under TIMEOUT, and a HELD one completes OK with LINK_EXPIRED. A program that has
run its time has every thread spent and its package stopping under TIMEOUT. A running thread that has issued BUDGET
instructions is spent. A stopping package that is forced to stop ends with its status. Afterwards the package of a run
limit is STOPPING or DONE. (R126, R153, R164, R168, R173, R177, R178, R179, R180, R185, R338, R462) -/
def Obligations.PackageCommandsComplete : Prop :=
  (∀ (c : Cmd) (s u : State) (im : PkgImage), Runs 0x301 c s u → cmdTail c 8 = true → addrOk (cmdU c 0 8) = true →
    loadImage u c.fn (cmdU c 0 8) = .image im → u.acctResetting (cmdA c) = false →
    firstFail (packageChecks u im) = none → codeFails u im.pkg = false →
    exec (.wpSubmit c) s = .next (complete c 0x301 .ok (leBytes 4 im.pkg.id.handle.toNat ++ leBytes 4 0)
      ((acceptPkg im.pkg u).took (cmdA c) (imageReads u (cmdU c 0 8) im.pkg)))) ∧
  (∀ (c : Cmd) (s u : State) (p : Pkg), Runs 0x302 c s u → cmdTail c 4 = true →
    let id : PkgId := ⟨c.fn, BitVec.ofNat 32 (cmdU c 0 4)⟩
    u.pkg id = some p → p.state ≠ .done → (p.state = .stopping → p.status = .cancelled) →
    (∀ q, (beginStop id .cancelled u).pkg id = some q → q.state ≠ .done → exec (.wpCancel c) s =
      .next (waitsFor c 0x302 (.package (cmdA c) id.handle) (beginStop id .cancelled u))) ∧
    (∀ q, (beginStop id .cancelled u).pkg id = some q → q.state = .done → exec (.wpCancel c) s =
      .next (complete c 0x302 .ok [] (beginStop id .cancelled u)))) ∧
  (∀ (c : Cmd) (s u : State) (p : Pkg), Runs 0x303 c s u → cmdTail c 4 = true →
    u.pkg ⟨c.fn, BitVec.ofNat 32 (cmdU c 0 4)⟩ = some p → p.state = .done →
    exec (.wpQuery c) s = .next (complete c 0x303 .ok ([6, 0, 0, 0] ++ p.record) u)) ∧
  (∀ (c : Cmd) (s u : State), cmdU c 0 2 < (u.acct (cmdA c)).quota.sems → cmdA c < u.ten.accts.length →
    let i := cmdU c 0 2
    let v := tgetD (u.acct (cmdA c)).sems i 0
    (Runs 0x304 c s u → cmdTail c 2 = true →
      exec (.semRead c) s = .next (complete c 0x304 .ok (leBytes 4 v.toNat) u)) ∧
    (Runs 0x305 c s u → cmdTail c 8 = true → cmdZ c 2 2 = true →
      exec (.semSet c) s = .next (complete c 0x305 .ok []
        (u.onAcct (cmdA c) fun a => { a with sems := tset a.sems i (BitVec.ofNat 32 (cmdU c 4 4)) }))) ∧
    (Runs 0x306 c s u → cmdTail c 2 = true →
      exec (.semSignal c) s = .next (complete c 0x306 .ok (leBytes 4 (v + 1).toNat)
        (u.onAcct (cmdA c) fun a => { a with sems := tset a.sems i (v + 1) })))) ∧
  (∀ (id : PkgId) (s : State) (q : Pkg), s.pkg id = some q →
    (q.running = true ∨ (q.state ≠ .held ∧ q.atPrologue s = true) →
      exec (.runLimitExpiry id) s = .next (beginStop id .timeout s)) ∧
    (q.state = .held → exec (.runLimitExpiry id) s = .next (endPkg id .ok (s.onPkg id fun q =>
      { q with linkExpired := true, outFlags := q.outFlags ||| 0x20 }))) ∧
    (q.running = true → ∀ t, exec (.runLimitExpiry id) s = .next t → ∀ r, t.pkg id = some r →
      (r.state = .stopping ∨ r.state = .done) ∧ r.status = .timeout)) ∧
  (∀ (core : BitVec 7) (s : State) (v : VProg), (s.core core.toNat).prog = some v →
    let spent := fun (t : Thread) => { t with state := ThreadState.spent }
    exec (.vectorTimeLimit core) s = .next (progEnd core.toNat ((beginStop v.desc.pkg .timeout
      (spendThreads core.toNat s)).onCore core.toNat fun c => { c with threads := c.threads.map spent }))) ∧
  (∀ (h : Hart) (s : State) (v : VProg), s.prog h = some v → (s.thread h).state = .running →
    v.budget ≤ (s.thread h).issued →
    exec (.budgetExhausted h) s = .next (progEnd h.core.toNat (s.onThread h fun u => { u with state := .spent }))) ∧
  (∀ (id : PkgId) (s : State) (q : Pkg), s.pkg id = some q → q.state = .stopping →
    exec (.forcedStop id) s = .next (endPkg id q.status s))

/-- A loaded package whose cores are in its phase, whose model lets it bind, and whose prologue's reads go through,
starts in P0: its prologue runs on memory, its cores take its phase, and it is RUNNING from module time on with its
epoch bound. A queued descriptor that is ready (R160), and that its engine chooses or that follows in a chain, starts;
a SYNC completes with result 0 as it starts, its signal crossing the network. An engine chooses, where some descriptor
is eligible, one of the account next in turn, and among those of the package accepted first. A started vector program
launches on its core where no program runs: its threads named by TMASK run at instruction 0, X1 holds the thread
number and every other register of R121 is cleared. A started descriptor other than a tile whose work is done, and
whose program has ended, completes with its result, its signal crossing the network. (R121, R123, R124, R160, R162,
R165, R171, R172, R174) -/
def Obligations.PackagesStartAndDescriptorsRun : Prop :=
  (∀ (id : PkgId) (s : State) (q : Pkg), s.pkg id = some q → (q.state = .loaded ∨ q.state = .phaseWait) →
    s.chip.power.pstate = 0 → q.phaseOpen s = true → q.waitsRoll s = false → q.modelOpen s = true →
    s.meets (prologueReads q true) = .clear →
    let u := s.charge .compute id.acct.toNat (prologueReads q true)
    ∃ t, exec (.packageStart id) s = .next t ∧ t.mem = (prologue q true u).mem ∧
      (∃ q', t.pkg id = some q' ∧ q'.state = .running ∧ q'.shadowed = true ∧ q'.tStart = s.mtime ∧ q'.epoch = q.bind s ∧
        q'.descs = q.descs ∧ q'.regions = q.regions ∧ q'.sems = q.sems) ∧
      (∀ i ∈ q.cores, i < s.cores.length → (t.core i).phase = some q.phase) ∧ t.ten = s.ten ∧ t.models = s.models ∧ t.mail = s.mail) ∧
  (∀ (d : DescId) (s : State) (p : Pkg) (x : Desc), s.desc d = some (p, x) → descReady s p d.idx.toNat x = true →
    x.kind ≠ 4 → (2 ≤ x.pos ∨ s.serves (p.engine x) (rivals s p x) d = true) →
    ∃ t y, exec (.descriptorStart d) s = .next t ∧ s.mem = t.mem ∧ t.desc d = some y ∧ y.2.state = .started ∧
      y.2.tStart = s.mtime ∧ y.2.raw = x.raw) ∧
  (∀ (d : DescId) (s : State) (p : Pkg) (x : Desc), s.desc d = some (p, x) → x.kind = 4 →
    ∀ n, s.chip.noc.crossAll (signalMsgs s d.pkg.acct.toNat (p.die x) x.signal) = some n →
    (x.state = .started → exec (.sync d) s = .next (completeDesc d 0 (crossed s n))) ∧
    (descReady s p d.idx.toNat x = true →
      exec (.descriptorStart d) s = .next (completeDesc d 0 (crossed (startDesc p d.idx.toNat x s) n)) ∧
      exec (.sync d) s = .next (completeDesc d 0 (crossed (startDesc p d.idx.toNat x s) n)))) ∧
  (∀ (turn : Nat) (cs : List (Nat × Nat × DescId)), (cs ≠ [] → (chooseDesc turn cs).isSome = true) ∧
    ∀ d, chooseDesc turn cs = some d → ∃ a o, (a, o, d) ∈ cs ∧ (∀ c ∈ cs, c.1 = a → o ≤ c.2.1) ∧
      ∀ c ∈ cs, (turn ≤ a → turn ≤ c.1 → a ≤ c.1) ∧ (a < turn → c.1 < turn ∧ a ≤ c.1)) ∧
  (∀ (d : DescId) (s : State) (p : Pkg) (x : Desc), s.desc d = some (p, x) → x.kind = 2 → x.state = .started →
    x.progress = 0 → (s.core (p.core x)).prog = none → p.core x < s.cores.length →
    ∃ t, exec (.vectorProgram d) s = .next t ∧ t.mem = s.mem ∧
      (t.core (p.core x)).v = Core.reset.v ∧ (t.core (p.core x)).pm = Core.reset.pm ∧
      (t.core (p.core x)).lacc = Core.reset.lacc ∧
      (∃ v, (t.core (p.core x)).prog = some v ∧ v.desc = d ∧ v.plen = bitField (x.u 0x14 4) 0 15 ∧ v.budget = x.u 0x1C 4) ∧
      ∀ k < 16, ∃ r, (t.core (p.core x)).threads[k]? = some r ∧ r.x = 0 :: BitVec.ofNat 64 k :: List.replicate 30 0 ∧
        r.pc = 0 ∧ r.issued = 0 ∧ r.apr = 0 ∧ r.state = if (x.u 0x18 4).testBit k then .running else .idle) ∧
  (∀ (d : DescId) (s : State) (p : Pkg) (x : Desc), s.desc d = some (p, x) → x.state = .started → x.kind ≠ 1 →
    x.finished = true → (s.core (p.core x)).prog = none →
    ∀ n, s.chip.noc.crossAll (signalMsgs s d.pkg.acct.toNat (p.die x) x.signal) = some n →
    exec (.descriptorComplete d) s = .next (completeDesc d x.result (crossed s n)))

/-! ## Tiles, transfers and collectives (03, 05, 13) -/

/-- The next descriptor of a chain whose run holds its arrays, or whose arrays take it, and whose operands read
without error, accumulates its products, at the anchor of the pass, into the accumulators of its run, in row order,
and memory is as before. At the end of a pass whose output is an image of partial sums, without bias, residual or
images to add, whose message crosses the network, the image of the accumulators is written at OUT and the operation
ends with the anchor in its result word. A transfer whose turn it is at its die's engine, whose destination's buffer
is reserved, whose messages cross the network, whose source reads without error and whose destination can be written,
copies its next segment, asks for its credits and meters its host bytes. A prefetch of the package's model, under the
same conditions, copies its next segment. (R61, R63, R87, R107, R110, R112, R118, R161, R163, R172, R186, R358) -/
def Obligations.TilesAndTransfersRun : Prop :=
  (∀ (d : DescId) (s : State) (p : Pkg) (x last : Desc) (r : TileRun), s.desc d = some (p, x) → x.kind = 1 →
    x.state = .started → p.descs[(p.chain d.idx.toNat).getLastD 0]? = some last →
    let core := p.core x
    let first : DescId := ⟨d.pkg, BitVec.ofNat 14 ((p.chain d.idx.toNat).headD 0)⟩
    s.tileRun core first = some r → r.awaiting = false → (p.chain d.idx.toNat)[r.descs.length]? = some d.idx.toNat →
    (r.holds = true ∨ s.arraysOpen core first x.arrays = true) → s.meets (x.operandSpans core) = .clear →
    core < s.cores.length →
    let acc := accumulate (passAnchor r.base r.pass) ((x.opnd false).values s core x.tileM x.tileK)
      ((x.opnd true).values s core x.tileN x.tileK) r.acc
    ∃ t, exec (.tile d) s = .next t ∧ t.mem = s.mem ∧
      t.tileRun core first = some ⟨r.first, r.descs ++ [d.idx.toNat], r.base, r.pass, acc, r.fixed, r.awaiting, r.asked,
        if r.holds then r.acc1 else s.pickAcc core first⟩) ∧
  (∀ (d : DescId) (s : State) (p : Pkg) (x last : Desc) (r : TileRun) (n : Noc), s.desc d = some (p, x) →
    let chain := p.chain d.idx.toNat
    let first : DescId := ⟨d.pkg, BitVec.ofNat 14 (chain.headD 0)⟩
    let A := passAnchor r.base r.pass
    let acct := d.pkg.acct.toNat
    let out := bitField (last.u 0x38 8) 0 52
    let img := tileImage last A r.acc
    s.tileRun (p.core x) first = some r → p.descs[chain.getLastD 0]? = some last → r.descs = chain → r.awaiting = false →
    bitField (last.u 0x44 4) 0 2 = 0 → last.pinCount = 0 → last.ofmt = 0xA → s.writes out img.length = true →
    s.chip.noc.crossAll (dataMsgs (p.core x / 16) [(out, img.length)]) = some n →
    exec (.tilePassEnd d) s = .next (finishTile p (p.core x) first chain 0 (unsigned 10 A * 2 ^ 16)
      (((((crossed s n).charge .compute acct [(out, img.length)]).num acct 7 (longCount r.acc)).bump 0x504 (p.core x / 16) (some acct)
        (some (p.core x % 16)) (longCount r.acc)).write out img))) ∧
  (∀ (d : DescId) (s : State) (p : Pkg) (x : Desc), s.desc d = some (p, x) → x.kind = 3 → x.state = .started →
    let f := xfOf x.raw
    let t := if f.hostBytes x.progress = 0 then Traffic.compute else Traffic.host
    let src := (f.runs f.src f.ss x.progress).flatMap fun r => s.spotsFor p.epoch.toNat r.1 r.2
    let dst := f.runs f.dst f.ds x.progress
    s.serves (1256 + p.die x) (hasSegment s (p.die x)) d = true → s.reserved d f.dst = true →
    s.chip.noc.crossAll (readMsgs (p.die x) src ++ dataMsgs (p.die x) dst) = some s.chip.noc →
    s.meets src = .clear → (∀ r ∈ dst, s.writes r.1 r.2 = true) →
    exec (.xfer d) s = .next (((f.copy p.epoch.toNat x.progress
        (((s.served (1256 + p.die x) d.pkg.acct.toNat).charge t p.id.acct.toNat src).charge t p.id.acct.toNat dst)).meter
          p.id.acct.toNat 8 (f.hostBytes x.progress) 0).onDesc d fun x => { x with progress := x.progress + 1 })) ∧
  (∀ (d : DescId) (s : State) (p : Pkg) (x : Desc) (k : Nat) (m : Model), s.desc d = some (p, x) → x.kind = 7 →
    s.slotOf p.id.acct.toNat p.model = some k → s.model k = some m →
    let f := pfOf x.raw
    let src := s.keySpots (f.source k m (x.unit % 8) p.epoch.toNat x.progress).1
      (f.source k m (x.unit % 8) p.epoch.toNat x.progress).2
    let dst := (f.dst + 65536 * x.progress, (f.source k m (x.unit % 8) p.epoch.toNat x.progress).2)
    s.serves (1256 + p.die x) (hasSegment s (p.die x)) d = true → s.reserved d f.dst = true →
    s.chip.noc.crossAll (readMsgs (p.die x) src ++ dataMsgs (p.die x) [dst]) = some s.chip.noc →
    s.meets src = .clear → s.writes dst.1 dst.2 = true →
    exec (.prefetch d) s = .next ((f.copySeg k m (x.unit % 8) p.epoch.toNat x.progress
      (((s.served (1256 + p.die x) d.pkg.acct.toNat).charge .compute d.pkg.acct.toNat src).charge .compute d.pkg.acct.toNat
        [dst])).onDesc d fun x => { x with progress := x.progress + 1 }))

/-- A PUT to this part itself, within the drop, whose messages cross the network and whose source reads without error,
copies the source's bytes into the drop and signals the drop's semaphore, and its work is done. A started ALLREDUCE,
REDUCE, BROADCAST, ALLGATHER or BARRIER whose seat exists, whose die reaches the other parts of the group, and whose
round this member has not joined, joins the round and contributes to it. A round that this member has joined and
completed delivers its kept result. A BARRIER round whose every member is on this part and has contributed completes
with result 0. A PUT of a joined part within a drop lands, signals the semaphore and wakes the module; one of no
joined part, and a rerun request of none, is discarded and counted. A rerun request of a joined part for an RKEY that
one package here produces under, all of whose producers have run, runs them again at the anchor of the pass that their
own anchor word gives (how the end is told to the part that asked is log entry 111); where no package here produces
under it, the part that asked is told so. (R411, R414, R417, R418, R419, R420, R424) -/
def Obligations.CollectivesTakeEffect : Prop :=
  (∀ (d : DescId) (s : State) (p : Pkg) (x : Desc) (js : JobSlot) (r : Drop) (nn : Noc), s.desc d = some (p, x) → x.kind = 5 →
    let c := collOf x.raw
    let n := 64 * c.count
    let acct := d.pkg.acct.toNat
    c.op = 1 → x.state = .started → x.progress = 0 → p.running = true → s.jobSlot d.pkg.acct.toNat c.jslot = some js →
    c.peer = js.part → tget js.drops c.drop = some r → (s.readFor p.epoch.toNat c.src n).length = n →
    c.dst + n ≤ 64 * r.len → s.meets (s.spotsFor p.epoch.toNat c.src n) = .clear →
    s.writes (r.base + c.dst) n = true → s.chip.noc.crossAll (dataMsgs (p.die x) [(r.base + c.dst, n)]) = some nn →
    exec (.put d) s = .next ((signalAcct acct r.sem ((((((crossed s nn).charge .fabric acct (s.spotsFor p.epoch.toNat c.src n)).meter
      acct 8 (hostLen c.src n) (p.die x))).charge .fabric acct [(r.base + c.dst, n)]).write
        (r.base + c.dst) (s.readFor p.epoch.toNat c.src n))).onDesc d fun x => { x with progress := 1 })) ∧
  (∀ (d : DescId) (s : State) (p : Pkg) (x : Desc) (t : Seat), s.desc d = some (p, x) → x.kind = 5 → x.state = .started →
    x.progress = 0 → p.running = true →
    let c := collOf x.raw
    let base := if c.arith = 1 then p.anchor s c.anchor c.tensor else 0
    let r : Round := ⟨t.slot.job, c.group, c.cid, c.round, p.die x, d, base, 0,
      List.replicate (if c.arith = 1 then c.count else 0) none, [], none, false, [], .none⟩
    let v := contribute p x c t r (s.onFabric fun f => { f with rounds := f.rounds ++ [r] })
    seatOf s p x c = some t → s.roundOf t.slot.job c (p.die x) = none →
    t.reaches (p.die x) s = true →
    (c.op = 2 → exec (.allreduce d) s = .next v) ∧ (c.op = 3 → exec (.reduce d) s = .next v) ∧
    (c.op = 4 → exec (.broadcast d) s = .next v) ∧ (c.op = 5 → exec (.allgather d) s = .next v) ∧
    (c.op = 6 → exec (.barrier d) s = .next v)) ∧
  (∀ (d : DescId) (others : List (Nat × Bytes)) (s : State) (p : Pkg) (x : Desc) (t : Seat) (r : Round), s.desc d = some (p, x) →
    x.kind = 5 → p.resident = true → p.state ≠ .stopping → seatOf s p x (collOf x.raw) = some t →
    s.roundOf t.slot.job (collOf x.raw) (p.die x) = some r →
    (∀ b, r.result = some b → x.state = .started → x.progress = 0 →
      exec (.roundComplete d others) s = .next (deliver d (collOf x.raw) b s)) ∧
    (r.result = none → (collOf x.raw).op = 6 → (collOf x.raw).arith = 0 → r.pass < r.sent.length →
      gather s p (collOf x.raw) t r others =
        some (t.members.map fun _ => roundTag (collOf x.raw) t.members (passAnchor r.base r.pass)) →
      exec (.roundComplete d others) s = .next (finishRound d (collOf x.raw) t (p.die x) 0 [] s))) ∧
  (∀ (src : BitVec 13) (job : Word) (drop : BitVec 6) (off : Nat) (data : Bytes) (s : State),
    (∀ acct js r, s.recipient src.toNat job = some (acct, js) → tget js.drops drop.toNat = some r →
      off + data.length ≤ 64 * r.len → s.writes (r.base + off) data.length = true →
      exec (.putLanded src job drop off data) s =
        .next (wakeUp (signalAcct acct r.sem ((s.charge .fabric acct [(r.base + off, data.length)]).write (r.base + off) data)))) ∧
    (s.recipient src.toNat job = none → exec (.putLanded src job drop off data) s = .next (discardMsg s))) ∧
  (∀ (src : BitVec 13) (job rkey : Word) (pass : BitVec 2) (s : State),
    (s.recipient src.toNat job = none → exec (.rerunRequest src job rkey pass) s = .next (discardMsg s)) ∧
    (∀ acct js q g y, s.recipient src.toNat job = some (acct, js) →
      let u := wakeUp s
      let o : Owed := ⟨src.toNat, job, rkey, pass.toNat⟩
      o ∉ u.chip.fabric.owed → linkedProducers u (BitVec.ofNat 10 acct) rkey = [(q, g)] →
      producerGone u (BitVec.ofNat 10 acct) rkey = false → q.produced g = true →
      (q.descs.find? fun y => y.produces g) = some y → y.kind = 1 →
      let r := rerunGroup q g pass.toNat (passAnchor (q.anchor u y.anchorWord y.tensorId) pass.toNat) ⟨u, false, true⟩
      exec (.rerunRequest src job rkey pass) s = .next (if r.ok then
        answerOne (r.state.onFabric fun f => { f with owed := f.owed ++ [o] }) o else r.state)) ∧
    (∀ acct js, s.recipient src.toNat job = some (acct, js) →
      let u := wakeUp s
      let o : Owed := ⟨src.toNat, job, rkey, pass.toNat⟩
      o ∉ u.chip.fabric.owed → linkedProducers u (BitVec.ofNat 10 acct) rkey = [] →
      exec (.rerunRequest src job rkey pass) s = .next (tellRerun o false u)))

/-! ## Scalar instructions (04) -/

/-- Where the instruction is the one that issues next (R122), ADD to MUL, ADDI to XORI, SHI, LUI and SLTI answer the
state in which Xd holds the 64-bit result (X0 ignoring it) and the thread's instruction number and issue count have
advanced: sums, differences and products modulo 2^64; shifts by the amount modulo 64, SRA copying the sign; SLT, MIN
and MAX signed, SLTU unsigned, each test giving 1 or 0; ADDI and SLTI with the sign-extended immediate, ANDI, ORI and
XORI with the zero-extended one; LUI the sign-extended immediate shifted left by 16. (R121, R122, R126, R129) -/
def Obligations.IntegerInstructionsWriteXd : Prop :=
  ∀ (h : Hart) (d a b : BitVec 5) (imm : BitVec 16) (amt : BitVec 6) (s : State),
    let x := (s.thread h).get a
    let y := (s.thread h).get b
    (Issues h (.add h d a b) s → exec (.add h d a b) s = .next (wroteX h d (x + y) s)) ∧
    (Issues h (.sub h d a b) s → exec (.sub h d a b) s = .next (wroteX h d (x - y) s)) ∧
    (Issues h (.and h d a b) s → exec (.and h d a b) s = .next (wroteX h d (x &&& y) s)) ∧
    (Issues h (.or h d a b) s → exec (.or h d a b) s = .next (wroteX h d (x ||| y) s)) ∧
    (Issues h (.xor h d a b) s → exec (.xor h d a b) s = .next (wroteX h d (x ^^^ y) s)) ∧
    (Issues h (.sll h d a b) s → exec (.sll h d a b) s = .next (wroteX h d (x <<< (y.toNat % 64)) s)) ∧
    (Issues h (.srl h d a b) s → exec (.srl h d a b) s = .next (wroteX h d (x >>> (y.toNat % 64)) s)) ∧
    (Issues h (.sra h d a b) s → exec (.sra h d a b) s = .next (wroteX h d (x.sshiftRight (y.toNat % 64)) s)) ∧
    (Issues h (.slt h d a b) s → exec (.slt h d a b) s = .next (wroteX h d (if x.toInt < y.toInt then 1 else 0) s)) ∧
    (Issues h (.sltu h d a b) s → exec (.sltu h d a b) s = .next (wroteX h d (if x.toNat < y.toNat then 1 else 0) s)) ∧
    (Issues h (.min h d a b) s → exec (.min h d a b) s = .next (wroteX h d (if y.toInt < x.toInt then y else x) s)) ∧
    (Issues h (.max h d a b) s → exec (.max h d a b) s = .next (wroteX h d (if x.toInt < y.toInt then y else x) s)) ∧
    (Issues h (.mul h d a b) s → exec (.mul h d a b) s = .next (wroteX h d (x * y) s)) ∧
    (Issues h (.addi h d a imm) s → exec (.addi h d a imm) s = .next (wroteX h d (x + imm.signExtend 64) s)) ∧
    (Issues h (.andi h d a imm) s → exec (.andi h d a imm) s = .next (wroteX h d (x &&& imm.setWidth 64) s)) ∧
    (Issues h (.ori h d a imm) s → exec (.ori h d a imm) s = .next (wroteX h d (x ||| imm.setWidth 64) s)) ∧
    (Issues h (.xori h d a imm) s → exec (.xori h d a imm) s = .next (wroteX h d (x ^^^ imm.setWidth 64) s)) ∧
    (Issues h (.shi h d a .sll amt) s → exec (.shi h d a .sll amt) s = .next (wroteX h d (x <<< amt.toNat) s)) ∧
    (Issues h (.shi h d a .srl amt) s → exec (.shi h d a .srl amt) s = .next (wroteX h d (x >>> amt.toNat) s)) ∧
    (Issues h (.shi h d a .sra amt) s → exec (.shi h d a .sra amt) s = .next (wroteX h d (x.sshiftRight amt.toNat) s)) ∧
    (Issues h (.lui h d imm) s → exec (.lui h d imm) s = .next (wroteX h d (imm.signExtend 64 <<< 16) s)) ∧
    (Issues h (.slti h d a imm) s → exec (.slti h d a imm) s = .next (wroteX h d (if x.toInt < (imm.signExtend 64).toInt then 1 else 0) s))

/-- Where the instruction is the one that issues next (R122): FADD, FSUB, FMUL, FDIV, FSQRT, FMIN, FMAX and FFMA write
to Xd[31:0], with [63:32] zero, the exact result on the FP32 values of the sources' low words rounded once (FFMA adds
Xd's own value); FEQ, FLT, FLE and FUNORD write 1 or 0, FUNORD 1 exactly where a source is a NaN; FCVT converts the
integer in Xa to FP32, Xa's FP32 to an integer or to BF16 in the low half, and a BF16 to FP32; a finite value beyond
the integers' or BF16's range, or an infinity that saturates to an integer, sets CVT_SAT in the program's result word.
(R121, R122, R126, R129, R131, R151) -/
def Obligations.FloatInstructionsWriteXd : Prop :=
  ∀ (h : Hart) (d a b : BitVec 5) (s : State),
    let lo := fun (i : BitVec 5) => ((s.thread h).get i).setWidth 32
    let x := ofF32 (lo a)
    let y := ofF32 (lo b)
    let z := ofF32 (lo d)
    let w := fun (v : Val) => (toF32 v).setWidth 64
    let sat := fun (op : FcvtOp) (t : State) =>
      if fcvtOvf op (lo a) then progConds h 0 { Conds.zero with cvtSat := 1 } t else t
    (Issues h (.fadd h d a b) s → exec (.fadd h d a b) s = .next (wroteX h d (w (x.add y)) s)) ∧
    (Issues h (.fsub h d a b) s → exec (.fsub h d a b) s = .next (wroteX h d (w (x.add y.neg)) s)) ∧
    (Issues h (.fmul h d a b) s → exec (.fmul h d a b) s = .next (wroteX h d (w (x.mul y)) s)) ∧
    (Issues h (.fdiv h d a b) s → exec (.fdiv h d a b) s = .next (wroteX h d (w (x.div y)) s)) ∧
    (Issues h (.fsqrt h d a) s → exec (.fsqrt h d a) s = .next (wroteX h d (w x.sqrt) s)) ∧
    (Issues h (.fmin h d a b) s → exec (.fmin h d a b) s = .next (wroteX h d (w (x.min y)) s)) ∧
    (Issues h (.fmax h d a b) s → exec (.fmax h d a b) s = .next (wroteX h d (w (x.max y)) s)) ∧
    (Issues h (.ffma h d a b) s → exec (.ffma h d a b) s = .next (wroteX h d (w (Val.fma x y z)) s)) ∧
    (Issues h (.feq h d a b) s → exec (.feq h d a b) s = .next (wroteX h d (if x.eq y then 1 else 0) s)) ∧
    (Issues h (.flt h d a b) s → exec (.flt h d a b) s = .next (wroteX h d (if x.lt y then 1 else 0) s)) ∧
    (Issues h (.fle h d a b) s → exec (.fle h d a b) s = .next (wroteX h d (if x.le y then 1 else 0) s)) ∧
    (Issues h (.funord h d a b) s → exec (.funord h d a b) s = .next (wroteX h d (if x.isNan ∨ y.isNan then 1 else 0) s)) ∧
    (Issues h (.fcvt h d a .s64ToF32) s → exec (.fcvt h d a .s64ToF32) s = .next (wroteX h d (w (Val.ofInt ((s.thread h).get a).toInt)) s)) ∧
    (Issues h (.fcvt h d a .f32ToS64) s → exec (.fcvt h d a .f32ToS64) s = .next (ran h s fun t =>
      sat .f32ToS64 (t.onThread h fun u => u.set d (f32ToS64 (lo a))))) ∧
    (Issues h (.fcvt h d a .f32ToBf16) s → exec (.fcvt h d a .f32ToBf16) s = .next (ran h s fun t =>
      sat .f32ToBf16 (t.onThread h fun u => u.set d ((toBf16 x).setWidth 64)))) ∧
    (Issues h (.fcvt h d a .bf16ToF32) s → exec (.fcvt h d a .bf16ToF32) s = .next (wroteX h d (w (ofBf16 (((s.thread h).get a).setWidth 16))) s))

/-- Where the instruction is the one that issues next (R122): a branch whose condition holds of Xa goes to its own
word plus the offset, and otherwise to the next word; HALT ends the thread, and its program if it was the last;
SEMWAIT leaves the thread waiting until the entry reaches Xa[31:0]; SEMSIGNAL, whose message crosses the network,
issues the signal; XPOST, for an image that reads without error, passes its checks and whose package is not stopping,
queues it and Xd reads 0, and for one that fails its checks Xd reads 2; LD of bytes that read without error writes Xd
with the bytes at the access's place in the window, zero- or sign-extended; ST stores the low bytes of Xd there, and
every byte outside them reads as before; APSET sets APR. (R122, R124, R126, R127, R130, R144, R152, R175, R183) -/
def Obligations.ControlAndScalarMemoryInstructions : Prop :=
  ∀ (h : Hart) (d a : BitVec 5) (s : State),
    let x := (s.thread h).get a
    (∀ (c : Cond) (off : BitVec 16), Issues h (.br h c a off) s → exec (.br h c a off) s = .next (wroteThread h (fun u =>
      if condHolds c x then { u with pc := (((s.thread h).pc : Int) + off.toInt).toNat } else u) s)) ∧
    (Issues h (.halt h) s → exec (.halt h) s = .next (ran h s fun t =>
      progEnd h.core.toNat (t.onThread h fun u => { u with state := .halted }))) ∧
    (∀ imm : BitVec 8, Issues h (.semwait h imm a) s → exec (.semwait h imm a) s = .next (wroteThread h (fun u =>
      { u with state := .waiting imm.toNat (x.setWidth 32) }) s)) ∧
    (∀ (imm : BitVec 8) (p : VProg), s.prog h = some p → (s.chip.noc.crossAll (signalSent h imm s)).isSome = true →
      Issues h (.semsignal h imm) s →
      exec (.semsignal h imm) s = .next (ran h s (issueSignal p.desc imm.toNat))) ∧
    (∀ (w : BitVec 3) (v : VProg) (p : Pkg), s.prog h = some v → x.toNat % 64 = 0 → s.pkg v.desc.pkg = some p →
      let rs := winRanges h.core.toNat (s.win h w) x 1
      let img := winRead s h.core.toNat (s.win h w) x 1
      Issues h (.xpost h d a w) s → s.meets rs = .clear →
      (postOk p v img = true → p.state ≠ .stopping → exec (.xpost h d a w) s = .next (ran h s fun t =>
        ((readBy h rs t).onThread h fun u => u.set d 0).onCore h.core.toNat fun c =>
          { c with prog := some { v with posted := v.posted ++ [img] } })) ∧
      (postOk p v img = false → exec (.xpost h d a w) s = .next (ran h s fun t =>
        (readBy h rs t).onThread h fun u => u.set d 2))) ∧
    (∀ (w : BitVec 3) (size : BitVec 2) (sx : Bool) (disp : BitVec 10),
      let o := scalarOff s h w x size disp
      let n := 2 ^ size.toNat
      let v := s.readNat o n
      Issues h (.ld h d a w size sx disp) s → s.meets [(o, n)] = .clear →
      exec (.ld h d a w size sx disp) s = .next (ran h s fun t => (readBy h [(o, n)] t).onThread h fun u =>
        u.set d (if sx then BitVec.ofInt 64 (signed (8 * n) v) else BitVec.ofNat 64 v))) ∧
    (∀ (w : BitVec 3) (size : BitVec 2) (disp : BitVec 10),
      let o := scalarOff s h w x size disp
      Issues h (.st h d a w size disp) s →
      exec (.st h d a w size disp) s =
        .next (ran h s fun t => t.write o (leBytes (2 ^ size.toNat) ((s.thread h).get d).toNat)) ∧
      ∀ t, exec (.st h d a w size disp) s = .next t → ∀ k, (k < o ∨ o + 2 ^ size.toNat ≤ k) →
        Memory.get t.mem k = Memory.get s.mem k) ∧
    (Issues h (.apset h a) s → exec (.apset h a) s = .next (wroteThread h (fun u => { u with apr := x.setWidth 32 }) s))

/-! ## Vector instructions (04) -/

/-- Where the instruction is the one that issues next (R122): VADD, VSUB, VMUL, VMIN, VMAX and VDIV give in each lane
of the format the operation on Va and the second source (a register, or a scalar broadcast), VFMA adds Vd's own lane,
VSQRT takes the root; VCMP writes comparison results, and PAND, POR, PXOR, PANDN and PNOT mask logic, to a PM
register; VSEL takes Va's lane where the mask is 1 and Vb's elsewhere, in every lane; the integer members work on
32-bit lanes; VIOTA gives the lane number. Every result but VSEL's is written where the mask is 1. (R121, R122, R127,
R129, R131, R132) -/
def Obligations.ElementwiseVectorResults : Prop :=
  ∀ (h : Hart) (fmt : VFmt) (d a b : BitVec 5) (src : VSrc) (m p q : BitVec 3) (pm : BitVec 3) (s : State),
    let two := fun (op : Val → Val → Val) => wroteCore h (fun c => c.setV d pm (List.zipWith
      (fun x y => laneOp fmt (fun vs => op (vs.getD 0 .nan) (vs.getD 1 .nan)) [x, y]) (c.vreg a)
      (srcLanes src (s.thread h) c))) s
    let mask := fun (f : Bool → Bool → Bool) => wroteCore h (fun c => c.setPm m pm (List.zipWith f (c.pmask p) (c.pmask q))) s
    (Issues h (.vadd h fmt d a src pm) s → exec (.vadd h fmt d a src pm) s = .next (two Val.add)) ∧
    (Issues h (.vsub h fmt d a src pm) s → exec (.vsub h fmt d a src pm) s = .next (two fun x y => x.add y.neg)) ∧
    (Issues h (.vmul h fmt d a src pm) s → exec (.vmul h fmt d a src pm) s = .next (two Val.mul)) ∧
    (Issues h (.vmin h fmt d a src pm) s → exec (.vmin h fmt d a src pm) s = .next (two Val.min)) ∧
    (Issues h (.vmax h fmt d a src pm) s → exec (.vmax h fmt d a src pm) s = .next (two Val.max)) ∧
    (Issues h (.vdiv h fmt d a src pm) s → exec (.vdiv h fmt d a src pm) s = .next (two Val.div)) ∧
    (Issues h (.vfma h fmt d a src pm) s → exec (.vfma h fmt d a src pm) s = .next (wroteCore h (fun c => c.setV d pm (List.zipWith
      (fun (xy : Word × Word) z => laneOp fmt (fun vs => Val.fma (vs.getD 0 .nan) (vs.getD 1 .nan) (vs.getD 2 .nan))
        [xy.1, xy.2, z]) ((c.vreg a).zip (srcLanes src (s.thread h) c)) (c.vreg d))) s)) ∧
    (Issues h (.vsqrt h fmt d a pm) s → exec (.vsqrt h fmt d a pm) s = .next (wroteCore h (fun c => c.setV d pm ((c.vreg a).map fun x =>
      laneOp fmt (fun vs => (vs.getD 0 .nan).sqrt) [x])) s)) ∧
    (∀ op, Issues h (.vcmp h op m a b pm) s → exec (.vcmp h op m a b pm) s = .next (wroteCore h (fun c => c.setPm m pm
      (List.zipWith (cmpLane op) (c.vreg a) (c.vreg b))) s)) ∧
    (Issues h (.pand h m p q pm) s → exec (.pand h m p q pm) s = .next (mask (· && ·))) ∧
    (Issues h (.por h m p q pm) s → exec (.por h m p q pm) s = .next (mask (· || ·))) ∧
    (Issues h (.pxor h m p q pm) s → exec (.pxor h m p q pm) s = .next (mask fun x y => x != y)) ∧
    (Issues h (.pandn h m p q pm) s → exec (.pandn h m p q pm) s = .next (mask fun x y => x && !y)) ∧
    (Issues h (.pnot h m p pm) s → exec (.pnot h m p pm) s = .next (wroteCore h (fun c => c.setPm m pm ((c.pmask p).map not)) s)) ∧
    (Issues h (.vsel h d a b pm) s → exec (.vsel h d a b pm) s = .next (wroteCore h (fun c => c.setV d 0 (merge (c.pmask pm) (c.vreg b) (c.vreg a))) s)) ∧
    (∀ op, Issues h (.vintOp h op d a b pm) s → exec (.vintOp h op d a b pm) s = .next (wroteCore h (fun c => c.setV d pm
      (List.zipWith (intOp op) (c.vreg a) (c.vreg b))) s)) ∧
    (Issues h (.viota h d pm) s → exec (.viota h d pm) s = .next (wroteCore h (fun c => c.setV d pm ((List.range 4096).map (BitVec.ofNat 32))) s))

/-- Where the instruction is the one that issues next (R122): VMX UNPACK writes the exact values of the packed blocks
and sets CVT_SAT for active ones beyond FP32, VFN, VACT and VDACT the library and activation functions of each lane,
VPERM the lane that Vb names, VBCAST Xa[31:0] in every lane, VROT Va rotated by Xb lanes modulo 4,096, VLANE Va's lane
Xb modulo 4,096 in every lane, VRAND the Coin words of the key in Xb and Xb+1 at the counter Xa plus the lane; all
under the mask. VCVT answers a state in which Vd holds the codes of the converted elements under the mask, and VMX
PACK one in which, under the mask, Vd holds the element bits and V(d+1) the scale bytes from lane 0 (that the mask
holds for the lanes of its results is log entry 18); both leave memory as it was. (R49, R54, R56, R122, R129, R151,
R141, R143, R144, R145, R146) -/
def Obligations.ConversionFunctionAndLaneResults : Prop :=
  ∀ (h : Hart) (d a b : BitVec 5) (pm : BitVec 3) (s : State),
    let t := s.thread h
    let put := fun (f : Core → List Word) => wroteCore h (fun c => c.setV d pm (f c)) s
    (∀ fmt : MFmt, Issues h (.vmxUnpack h d a fmt pm) s →
      let c := s.core h.core.toNat
      let vals := (List.zipWith (fun sc el => mxUnpack (mfmt fmt) ⟨sc, el⟩)
        (unpackBits 8 128 (lanesToBits ((c.vreg (a + 1)).take 32)))
        (chunks 32 (unpackBits (mfmt fmt).width 4096 (lanesToBits (c.vreg a))))).flatten
      exec (.vmxUnpack h d a fmt pm) s = .next (ran h s fun u => progConds h 0 { Conds.zero with cvtSat :=
          ((c.active pm vals).filter fun v => (convert .fp32 .rne false v).ovf).length }
        (u.onCore h.core.toNat fun c => c.setV d pm (vals.map toF32)))) ∧
    (∀ f, Issues h (.vfn h d a f pm) s → exec (.vfn h d a f pm) s = .next (put fun c => (c.vreg a).map (libFn f))) ∧
    (∀ act, Issues h (.vact h d a b act pm) s → exec (.vact h d a b act pm) s = .next (put fun c => (c.vreg a).map (actFn act ((c.vreg b).getD 0 0)))) ∧
    (∀ act, Issues h (.vdact h d a b act pm) s → exec (.vdact h d a b act pm) s = .next (put fun c => List.zipWith (dactFn act t.apr) (c.vreg a) (c.vreg b))) ∧
    (Issues h (.vperm h d a b pm) s → exec (.vperm h d a b pm) s = .next (put fun c => (c.vreg b).map fun i => (c.vreg a).getD (i.toNat % 4096) 0)) ∧
    (Issues h (.vbcast h d a pm) s → exec (.vbcast h d a pm) s = .next (put fun _ => List.replicate 4096 ((t.get a).setWidth 32))) ∧
    (Issues h (.vrot h d a b pm) s → exec (.vrot h d a b pm) s = .next (put fun c => (c.vreg a).rotateLeft ((t.get b).toNat % 4096))) ∧
    (Issues h (.vlane h d a b pm) s → exec (.vlane h d a b pm) s = .next (put fun c => List.replicate 4096 ((c.vreg a).getD ((t.get b).toNat % 4096) 0))) ∧
    (Issues h (.vrand h d a b pm) s → exec (.vrand h d a b pm) s = .next (put fun _ => (List.range 4096).map fun i => coinHigh (t.get b)
      (((t.get (b + 1)).setWidth 48).setWidth 64 <<< 16 ||| 3) (t.get a + BitVec.ofNat 64 i))) ∧
    (h.core.toNat < s.cores.length →
      (∀ (src dst : SFmt) (cvt : BitVec 4), Issues h (.vcvt h d a src dst cvt pm) s →
        ∃ u, exec (.vcvt h d a src dst cvt pm) s = .next u ∧ u.mem = s.mem ∧
        (u.core h.core.toNat).v = ((s.core h.core.toNat).setV d pm (((s.core h.core.toNat).vreg a).map fun w =>
          BitVec.ofNat 32 (convert (sfmt dst) ((cvtOf cvt.toNat).getD (.rne, false)).1 ((cvtOf cvt.toNat).getD (.rne, false)).2
            ((sfmt src).layout.decode (w.toNat % 2 ^ (sfmt src).width))).code)).v) ∧
      (∀ fmt : MFmt, Issues h (.vmxPack h d a fmt pm) s → ∃ u, exec (.vmxPack h d a fmt pm) s = .next u ∧ u.mem = s.mem ∧
        let blocks := (chunks 32 ((s.core h.core.toNat).vreg a)).map fun b => mxPack (mfmt fmt) (b.map ofF32)
        let c := s.core h.core.toNat
        (u.core h.core.toNat).v = ((c.setV d pm (overLanes (c.vreg d)
            (bitsToLanes ((mfmt fmt).width * 4096) (packBits (mfmt fmt).width (blocks.flatMap (·.elems)))))).setV (d + 1) pm
          (overLanes (c.vreg (d + 1)) (bitsToLanes 1024 (packBits 8 (blocks.map (·.scale)))))).v))

/-- An instruction that writes Xd of an existing thread: Xd reads the value where d is not 0; X0 reads 0; every other
X register of the thread, its APR, every other thread of the core, every other core, the core's V, PM and LACC
registers, program and tiles, and memory, packages, accounts, units, models and module time are as before; the
instruction number and the issue count are one higher, and the thread is running. Writing Vd under a mask of 4,096
bits: each lane takes the new value where its mask bit is 1 and keeps the old one where it is 0; every other V
register, every PM register, the LACCs, threads, program and tiles are as before. Writing PMd under a mask does the
same on mask bits, PM0 is unchanged by it, and PM0 reads all ones in every lane. (R121, R122, R126, R127) -/
def Obligations.RegisterWritesKeepTheRest : Prop :=
  (∀ (h : Hart) (d : BitVec 5) (v : DWord) (s : State), h.core.toNat < s.cores.length → (s.prog h).isSome = true →
      h.thread.toNat < (s.core h.core.toNat).threads.length → (s.thread h).x.length = 32 →
      let t := wroteX h d v s
      (t.thread h).get d = (if d = 0 then 0 else v) ∧ (t.thread h).get 0 = 0 ∧
      (∀ i, i ≠ d → (t.thread h).get i = (s.thread h).get i) ∧
      (t.thread h).apr = (s.thread h).apr ∧ (t.thread h).pc = (s.thread h).pc + 1 ∧
      (t.thread h).issued = (s.thread h).issued + 1 ∧ (t.thread h).state = .running ∧
      (∀ g, g ≠ h → t.thread g = s.thread g) ∧ (∀ i, i ≠ h.core.toNat → t.core i = s.core i) ∧
      (t.core h.core.toNat).v = (s.core h.core.toNat).v ∧ (t.core h.core.toNat).pm = (s.core h.core.toNat).pm ∧
      (t.core h.core.toNat).lacc = (s.core h.core.toNat).lacc ∧ (t.core h.core.toNat).prog = (s.core h.core.toNat).prog ∧
      (t.core h.core.toNat).tiles = (s.core h.core.toNat).tiles ∧
      t.mem = s.mem ∧ t.pkgs = s.pkgs ∧ t.ten = s.ten ∧ t.chip = s.chip ∧ t.models = s.models ∧ t.mtime = s.mtime) ∧
  (∀ (c : Core) (d : BitVec 5) (pm : BitVec 3) (new : List Word), d.toNat < c.v.length →
    (c.pmask pm).length = 4096 → (c.vreg d).length = 4096 → new.length = 4096 →
    (∀ i < 4096, ((c.setV d pm new).vreg d)[i]? = if (c.pmask pm)[i]? = some true then new[i]? else (c.vreg d)[i]?) ∧
    (∀ e, e ≠ d → (c.setV d pm new).vreg e = c.vreg e) ∧ (c.setV d pm new).pm = c.pm ∧ (c.setV d pm new).lacc = c.lacc ∧
    (c.setV d pm new).threads = c.threads ∧ (c.setV d pm new).prog = c.prog ∧ (c.setV d pm new).tiles = c.tiles) ∧
  (∀ (c : Core) (d : BitVec 3) (pm : BitVec 3) (new : List Bool), d.toNat < c.pm.length → d ≠ 0 →
    (c.pmask pm).length = 4096 → (c.pmask d).length = 4096 → new.length = 4096 →
    (∀ i < 4096, ((c.setPm d pm new).pmask d)[i]? = if (c.pmask pm)[i]? = some true then new[i]? else (c.pmask d)[i]?) ∧
    (∀ e, e ≠ d → (c.setPm d pm new).pmask e = c.pmask e) ∧ (c.setPm d pm new).v = c.v) ∧
  (∀ (c : Core) (pm : BitVec 3) (new : List Bool), c.setPm 0 pm new = c ∧ c.pmask 0 = List.replicate 4096 true)

/-- Where the instruction is the one that issues next (R122), and what it reads meets no error: VRCLR zeroes LACCd;
VRSUM and VRDOT add every active lane, or product of lanes, at each present anchor of the slot; VRMAX and VRMIN of a
first active lane give the maximum or minimum in Xd; VRARG of one active lane that is no NaN gives its Vb value; at an
aligned offset VRPUT writes the image of LACCd to the window, VRGET adds a valid image's shadows, VLD loads Vd under
the mask, VST stores the active lanes unit by unit, VGATHER loads the named elements under the mask, VSCATTER with a
single active lane stores it, and VRFIN writes the chosen shadow's value to Xd; VSAMPLE at an aligned offset with
legal parameters writes the sampled token, its log probability, the number kept and the fault flag after its block.
(R122, R124, R127, R129, R135, R136, R138, R139, R147, R149, R152) -/
def Obligations.ReductionsAndVectorMemory : Prop :=
  ∀ (h : Hart) (d a b : BitVec 5) (n w pm : BitVec 3) (fmt : VFmt) (s : State), h.core.toNat < s.cores.length →
    h.thread.toNat < (s.core h.core.toNat).threads.length → (s.thread h).x.length = 32 →
    let i := h.core.toNat
    let c := s.core i
    let x := (s.thread h).get a
    let A := (s.anchorSlot h n).anchor
    let rd := fun (k : Nat) => winRead s i (s.win h w) x k
    let clear := fun (k : Nat) => s.meets (winRanges i (s.win h w) x k) = .clear
    let got := fun (k : Nat) (f : Core → Core) =>
      ran h s fun t => (readBy h (winRanges i (s.win h w) x k) t).onCore i f
    (Issues h (.vrclr h n) s → exec (.vrclr h n) s = .next (wroteCore h (fun c => c.onAcc n fun _ => Shadows.zero) s)) ∧
    (Issues h (.vrsum h n a pm) s → exec (.vrsum h n a pm) s = .next (wroteCore h (fun c => c.onAcc n fun sh =>
      Shadows.addVals A sh ((c.active pm (c.vreg a)).map ofF32)) s)) ∧
    (Issues h (.vrdot h n a b pm) s → exec (.vrdot h n a b pm) s = .next (wroteCore h (fun c => c.onAcc n fun sh =>
      Shadows.addVals A sh ((c.active pm ((c.vreg a).zip (c.vreg b))).map fun p => (ofF32 p.1).mul (ofF32 p.2))) s)) ∧
    (Issues h (.vrfin h d n b) s → ∃ t, exec (.vrfin h d n b) s = .next t ∧ t.mem = s.mem ∧
      (t.thread h).get32 d = (if d = 0 then 0 else (La.choose (Shadows.present A (c.acc n)) 0).2.word)) ∧
    (∀ z zs, c.active pm (c.vreg a) = z :: zs →
      (Issues h (.vrmax h d a pm false) s → exec (.vrmax h d a pm false) s =
        .next (wroteX h d ((toF32 ((zs.map ofF32).foldl Val.max (ofF32 z))).setWidth 64) s)) ∧
      (Issues h (.vrmin h d a pm false) s → exec (.vrmin h d a pm false) s =
        .next (wroteX h d ((toF32 ((zs.map ofF32).foldl Val.min (ofF32 z))).setWidth 64) s))) ∧
    (∀ z, c.active pm ((c.vreg a).zip (c.vreg b)) = [z] → (ofF32 z.1).isNan = false → Issues h (.vrarg h d a b pm) s →
      exec (.vrarg h d a b pm) s = .next (wroteX h d (z.2.setWidth 64) s)) ∧
    (x.toNat % 64 = 0 →
      (Issues h (.vrput h n a w) s → exec (.vrput h n a w) s =
        .next (ran h s (winWrite i (s.win h w) x (shadowImage (s.anchorSlot h n) (c.acc n))))) ∧
      (∀ sh, shadowRead (s.anchorSlot h n) (rd 4) = some sh → Issues h (.vrget h n a w) s → clear 4 →
        exec (.vrget h n a w) s = .next (got 4 fun c => c.onAcc n fun old => List.zipWith La.merge old sh)) ∧
      (Issues h (.vld h fmt d a w pm) s → clear 256 →
        exec (.vld h fmt d a w pm) s = .next (got 256 fun c => c.setV d pm (lanesOf (rd 256)))) ∧
      (Issues h (.vst h fmt d a w pm) s → exec (.vst h fmt d a w pm) s = .next (ran h s fun t =>
        ((winUnits (s.win h w) x 256).zip (chunks 16 ((c.pmask pm).zip (c.vreg d)))).foldl
          (fun t p => storeUnit (coreAddr i p.1) p.2 t) t))) ∧
    (x.toNat % 4 = 0 →
      let at_ := fun (k : Word) => elemAddr i (s.win h w) x k
      let rs := (c.active pm (c.vreg b)).map fun k => (at_ k, 4)
      (Issues h (.vgather h d a b w pm) s → s.meets rs = .clear → exec (.vgather h d a b w pm) s =
        .next (ran h s fun t => (readBy h rs t).onCore i fun c =>
          c.setV d pm ((c.vreg b).map fun k => BitVec.ofNat 32 (s.readNat (at_ k) 4)))) ∧
      (∀ z, c.active pm ((c.vreg b).zip (c.vreg d)) = [z] → Issues h (.vscatter h d a b w pm) s →
        exec (.vscatter h d a b w pm) s = .next (ran h s fun t => t.write (at_ z.1) (leBytes 4 z.2.toNat)))) ∧
    (x.toNat % 64 = 0 →
      let blk := rd 1
      let u := fieldAt blk
      let lw := s.win h (BitVec.ofNat 3 (u 0x24 4 / 2 ^ 17))
      let lo := BitVec.ofNat 64 (64 * (u 0x24 4 % 2 ^ 17))
      let units := (u 0x14 4 + 15) / 16
      let o := sampleLogits false (BitVec.ofNat 64 (u 0 8)) (u 8 8) (u 0x10 4) (BitVec.ofNat 32 (u 0x18 4))
        (BitVec.ofNat 32 (u 0x1C 4)) (u 0x20 4) (u 0x30 4) ((lanesOf (winRead s i lw lo units)).take (u 0x14 4))
      sampleParamsOk blk = true → u 0x28 4 = 0 →
      (∃ v, s.prog h = some v ∧ (v.wins.getD (u 0x24 4 / 2 ^ 17) (0, 0)).2 ≠ 0) →
      Issues h (.vsample h a w) s → clear 1 → s.meets (winRanges i lw lo units) = .clear →
      exec (.vsample h a w) s = .next (ran h s fun t =>
        progConds h 0 { Conds.zero with sampleFault := if o.fault = 0 then 0 else 1 }
          (winWrite i (s.win h w) x (blk.take 0x30 ++ (leBytes 4 o.token ++ leBytes 4 o.logp.toNat ++ leBytes 4 o.kept ++
            leBytes 4 o.fault)) (readBy h (winRanges i lw lo units) (readBy h (winRanges i (s.win h w) x 1) t)))))

/-! ## The Ledger's instructions (07) -/

/-- With the domains on (and with no effect otherwise), on the block in progress on a Ledger die, LDG_MOV, ADD, SUB,
MUL, FMA, DIV, SQRT, MIN, MAX, FN, SIGN, SEL and ABS answer the state in which the next instruction follows and
register D, where programs may write it, holds: for an element register, the operation on each element of the sources,
a scalar source standing for every element; for a scalar register, the operation on the scalars. Each arithmetic
result is rounded once; SIGN, SEL and ABS follow the signs and NaNs of R237. A register that programs may not write is
as it was, and so is everything outside the block's registers but the counter of free values. (R131, R235, R236, R237)
-/
def Obligations.LedgerLaneInstructionResults : Prop :=
  ∀ (ld : BitVec 2) (d a b c : BitVec 8) (s : State), s.off = false →
    let write := fun (lane : LedRegs → List Word) (one : LedRegs → Word) => ledNext ld (fun r =>
      if ledWritable d.toNat then
        (if d.toNat < 0x20 then { r with el := r.el.set d.toNat (lane r) } else { r with sc := r.sc.set (d.toNat - 0x20) (one r) })
      else r) s
    let op1 := fun (f : Word → Word) => write (fun r => (r.lanes a.toNat).map f) (fun r => f (r.scalar a.toNat))
    let op2 := fun (f : Word → Word → Word) => write (fun r => List.zipWith f (r.lanes a.toNat) (r.lanes b.toNat))
      (fun r => f (r.scalar a.toNat) (r.scalar b.toNat))
    let op3 := fun (f : Word → Word → Word → Word) => write
      (fun r => List.zipWith (fun (x : Word × Word) z => f x.1 x.2 z) ((r.lanes a.toNat).zip (r.lanes b.toNat)) (r.lanes c.toNat))
      (fun r => f (r.scalar a.toNat) (r.scalar b.toNat) (r.scalar c.toNat))
    let two := fun (f : Val → Val → Val) => op2 fun x y => toF32 (f (ofF32 x) (ofF32 y))
    exec (.ldgMov ld d a) s = .next (op1 id) ∧ exec (.ldgAdd ld d a b) s = .next (two Val.add) ∧
    exec (.ldgSub ld d a b) s = .next (two fun x y => x.add y.neg) ∧ exec (.ldgMul ld d a b) s = .next (two Val.mul) ∧
    exec (.ldgFma ld d a b c) s = .next (op3 fun x y z => toF32 ((ofF32 x).fma (ofF32 y) (ofF32 z))) ∧
    exec (.ldgDiv ld d a b) s = .next (two Val.div) ∧
    exec (.ldgSqrt ld d a) s = .next (op1 fun x => toF32 (ofF32 x).sqrt) ∧
    exec (.ldgMin ld d a b) s = .next (two Val.min) ∧ exec (.ldgMax ld d a b) s = .next (two Val.max) ∧
    (∀ f, exec (.ldgFn ld d a f) s = .next (op1 (libFn f))) ∧
    exec (.sign ld d a) s = .next (op1 fun x => if (ofF32 x).isNan then 0x7FC00000 else if (ofF32 x).isZero then 0
      else if (ofF32 x).sign then 0xBF800000 else 0x3F800000) ∧
    exec (.sel ld d a b c) s = .next (op3 fun x y z => if Val.zero.le (ofF32 x) then y else z) ∧
    exec (.abs ld d a) s = .next (op1 fun x => if (ofF32 x).isNan then 0x7FC00000 else x &&& 0x7FFFFFFF)

/-- With the domains on, on the block in progress on a Ledger die: RSUM and RDOT within a block write the sum of the
elements, or of the products, rounded once at the reduction's anchor, and note it in the anchor record; over a wider
scope pass 2 writes the combined value that has arrived; RMAX within a block writes the largest magnitude. GRAM, QEMA,
MML, MMR, CIR, NSNORM and NSSTEP act on the block's registers as their definitions say. Each answers the state with
the next instruction following, and changes nothing outside the block's registers but the counter of free values. A
combined value replaces the destination only. On any block's registers: GRAM, QEMA and CIR leave every element and
scalar register, and every Q register but D's, as they were; MML, MMR, NSNORM and NSSTEP leave every scalar and Q
register, and every element register but D, as they were, and where programs may not write D, D too. None changes the
block's shape or the instruction number. (R65, R67, R136, R235, R236, R237, R238, R239, R240) -/
def Obligations.LedgerReductionAndMatrixResults : Prop :=
  (∀ (ld : BitVec 2) (d a b c : BitVec 8) (imm : BitVec 16) (tp : Bool) (s : State), s.off = false →
      exec (.rsum ld d a .block imm) s = .next (ledNext ld (fun r =>
        let o := laSum (r.anchor 0 imm.toNat) ((r.elemReg a.toNat).map ofF32)
        (r.note 0 o).setScalar d.toNat o.word) s) ∧
      exec (.rdot ld d a b .block imm) s = .next (ledNext ld (fun r =>
        let o := laSum (r.anchor 0 imm.toNat)
          (List.zipWith (fun x y => (ofF32 x).mul (ofF32 y)) (r.elemReg a.toNat) (r.elemReg b.toNat))
        (r.note 0 o).setScalar d.toNat o.word) s) ∧
      exec (.rmax ld d a .block) s = .next (ledNext ld (fun r => r.setScalar d.toNat (ledMax (r.elemReg a.toNat))) s) ∧
      (∀ (w : Word) (scope : Scope), scope ≠ .block → (s.ledRegs ld).pass1 = false →
        tget (s.ledRegs ld).comb (s.ledRegs ld).pc = some w → ld.toNat < s.led.regs.length →
        exec (.rsum ld d a scope imm) s = .next (ledNext ld (fun r => r.setScalar d.toNat w) s) ∧
        exec (.rdot ld d a b scope imm) s = .next (ledNext ld (fun r => r.setScalar d.toNat w) s) ∧
        exec (.rmax ld d a scope) s = .next (ledNext ld (fun r => r.setScalar d.toNat w) s)) ∧
      exec (.gram ld d a tp imm) s = .next (ledNext ld (ledGram d.toNat a.toNat tp imm.toNat) s) ∧
      exec (.qema ld d a b c) s = .next (ledNext ld (ledQema d.toNat a.toNat b.toNat c.toNat) s) ∧
      exec (.mml ld d a c tp imm) s = .next (ledNext ld (ledMml d.toNat a.toNat c.toNat tp imm.toNat) s) ∧
      exec (.mmr ld d a c tp imm) s = .next (ledNext ld (ledMmr d.toNat a.toNat c.toNat tp imm.toNat) s) ∧
      exec (.cir ld d a b) s = .next (ledNext ld (ledCir d.toNat a.toNat b.toNat) s) ∧
      exec (.nsnorm ld d a imm) s = .next (ledNext ld (ledNsnorm d.toNat a.toNat imm.toNat) s) ∧
      exec (.nsstep ld d a b imm) s = .next (ledNext ld (ledNsstep d.toNat a.toNat b.toNat imm.toNat) s)) ∧
  (∀ (d a b c imm : Nat) (tp : Bool) (r : LedRegs),
      let shape := fun (u : LedRegs) => u.rows = r.rows ∧ u.cols = r.cols ∧ u.pc = r.pc
      (∀ u ∈ [ledGram d a tp imm r, ledQema d a b c r, ledCir d a b r],
        u.el = r.el ∧ u.sc = r.sc ∧ (∀ k, k ≠ d - 0x40 → u.q[k]? = r.q[k]?) ∧ shape u) ∧
      (∀ u ∈ [ledMml d a c tp imm r, ledMmr d a c tp imm r, ledNsnorm d a imm r, ledNsstep d a b imm r],
        u.sc = r.sc ∧ u.q = r.q ∧ (∀ k, k ≠ d → u.el[k]? = r.el[k]?) ∧ (ledWritable d = false → u.el = r.el) ∧ shape u))

/-! ## The Ledger's steps (07) -/

/-- When they run with legal operands and their buffers are read and written without error, every access asking for
its credits: PROG_LOAD puts an accepted program in the lowest free slot and returns it; PROG_FREE, of the caller's
slot that no group names, as its program or its fallback, frees it; GROUP_SET stores the group's 128 bytes; GROUP_READ
writes them; GROUP_FREE, with no loaded model naming the group, removes it. (R218, R220, R221, R243) -/
def Obligations.LedgerProgramAndGroupCommandsComplete : Prop :=
  (∀ (c : Cmd) (s u : State) (k : Nat), Runs 0x601 c s u → cmdTail c 16 = true → cmdZ c 9 7 = true →
    addrOk (cmdU c 0 8) = true → cmdU c 0 8 % 64 = 0 → 0 < cmdU c 8 1 → cmdU c 8 1 ≤ 64 →
    u.inAccount (cmdA c) (cmdU c 0 8) (8 * cmdU c 8 1) = true → u.reads (cmdU c 0 8) (8 * cmdU c 8 1) = true →
    let prog := (chunks 8 (u.read (cmdU c 0 8) (8 * cmdU c 8 1))).map fun w => ldgDecode (leNat w)
    prog.all LdgIns.ok = true → k < 16 → tget u.led.slots k = none → (∀ j < k, tget u.led.slots j ≠ none) →
    progsHeld u (cmdA c) < (u.acct (cmdA c)).quota.pslots →
    exec (.updProgLoad c) s = .next (complete c 0x601 .ok (leBytes 1 k)
      (({ u with led := { u.led with slots := tset u.led.slots k ⟨cmdA c, prog⟩ } } : State).took (cmdA c)
        [(cmdU c 0 8, 8 * cmdU c 8 1)]))) ∧
  (∀ (c : Cmd) (s u : State) (p : ProgSlot), Runs 0x602 c s u → cmdTail c 1 = true → cmdU c 0 1 < 16 →
    tget u.led.slots (cmdU c 0 1) = some p → p.acct = cmdA c →
    (∀ g ∈ u.led.groups, g.2.slot ≠ cmdU c 0 1 ∧ g.2.fallback ≠ cmdU c 0 1) →
    exec (.updProgFree c) s = .next (complete c 0x602 .ok []
      { u with led := { u.led with slots := terase u.led.slots (cmdU c 0 1) } })) ∧
  (∀ (c : Cmd) (s u : State), Runs 0x603 c s u → cmdTail c 16 = true → cmdZ c 2 6 = true → addrOk (cmdU c 8 8) = true →
    cmdU c 0 2 < 4096 → tget u.led.groups (cmdU c 0 2) = none →
    u.inAccount (cmdA c) (cmdU c 8 8) 128 = true → u.reads (cmdU c 8 8) 128 = true →
    let g : Group := ⟨cmdA c, u.read (cmdU c 8 8) 128⟩
    groupEntryOk g.raw = true → (u.led.groups.filter fun x => x.2.acct == cmdA c).length < (u.acct (cmdA c)).quota.groups →
    stepOpen u (cmdA c) g.model = false → shardsOnBlocks u (cmdA c) (cmdU c 0 2) g = true → groupProgs u (cmdA c) g = true →
    exec (.updGroupSet c) s = .next (complete c 0x603 .ok []
      (({ u with led := { u.led with groups := tset u.led.groups (cmdU c 0 2) g } } : State).took (cmdA c)
        [(cmdU c 8 8, 128)]))) ∧
  (∀ (c : Cmd) (s u : State) (g : Group), Runs 0x604 c s u → cmdTail c 16 = true → cmdZ c 2 6 = true →
    addrOk (cmdU c 8 8) = true → cmdU c 0 2 < 4096 → tget u.led.groups (cmdU c 0 2) = some g → g.acct = cmdA c →
    u.inAccount (cmdA c) (cmdU c 8 8) 128 = true → u.writes (cmdU c 8 8) 128 = true →
    exec (.updGroupRead c) s = .next (complete c 0x604 .ok [] (u.give (cmdA c) (cmdU c 8 8) (padTo 128 g.raw)))) ∧
  (∀ (c : Cmd) (s u : State) (g : Group), Runs 0x60B c s u → cmdTail c 2 = true → cmdU c 0 2 < 4096 →
    tget u.led.groups (cmdU c 0 2) = some g → g.acct = cmdA c → groupLoaded u (cmdA c) (cmdU c 0 2) = false →
    exec (.updGroupFree c) s = .next (complete c 0x60B .ok []
      { u with led := { u.led with groups := terase u.led.groups (cmdU c 0 2) } }))

/-- When they run with legal operands: MODEL_SET in IDLE sets SEED; BEGIN in IDLE, outside a turn, with the next
step's number and the current epoch, opens a step with its limit, and during a turn it is held; COMMIT of the open
step that no feed has marked DENY in time (before a pass 2 of it began, log entry 187) marks it committed, and
completes where every layer is written and every mirror has landed, here and on the job's other parts, and waits
otherwise; ABORT abandons the step and answers whether it tore the weights; STATUS returns the state, the next step,
and the layers written and ready; MON_READ writes the records of a step it still has. (R218, R219, R223, R231, R232,
R245) -/
def Obligations.LedgerStepCommandsComplete : Prop :=
  (∀ (c : Cmd) (s u : State) (k : Nat) (m : Model), u.slotOf (cmdA c) (cmdU c 0 2) = some k → u.model k = some m →
    (Runs 0x605 c s u → cmdTail c 16 = true → cmdZ c 3 5 = true → cmdU c 2 1 = 2 → m.led.ustate = .idle →
      exec (.updModelSet c) s = .next (complete c 0x605 .ok [] (u.onModel k fun m =>
        { m with led := { m.led with seed := BitVec.ofNat 64 (cmdU c 8 8) } }))) ∧
    (Runs 0x606 c s u → cmdTail c 20 = true → cmdU c 2 1 < 2 → cmdZ c 3 1 = true → 1 ≤ cmdU c 16 4 →
      cmdU c 16 4 ≤ 600000 → m.led.ustate = .idle → m.w.ready = true → cmdU c 4 4 = m.led.nextStep.toNat →
      (u.movingNow k (· == .turn) = true → exec (.updBegin c) s = .next (waitsFor c 0x606 (.held k) (u.onModel k fun m =>
        { m with led := { m.led with ustate := .held, heldCmd := some c } }))) ∧
      (u.movingNow k (· == .turn) = false → m.w.staged = false → cmdU c 8 8 = m.w.epoch →
        exec (.updBegin c) s = .next (complete c 0x606 .ok [] (openStep k c u)) ∧
        ∃ m' st, (openStep k c u).model k = some m' ∧ m'.led.ustate = .open ∧ m'.led.step = some st ∧
          st.step.toNat = cmdU c 4 4 ∧ st.gepoch = cmdU c 8 8 ∧ st.pass2 = [] ∧ st.commit = false)) ∧
    (∀ st, m.led.step = some st → m.led.ustate = .open → st.step.toNat = cmdU c 4 4 →
      (Runs 0x607 c s u → cmdTail c 8 = true → cmdZ c 2 2 = true → st.denied = false →
        let v := onStep k (fun st => { st with commit := true }) u
        (stepWritten v m.map st = true → exec (.updCommit c) s = .next (complete c 0x607 .ok (commitBytes v m.map st) (tryCommit k v))) ∧
        (stepWritten v m.map st = false → exec (.updCommit c) s = .next (waitsFor c 0x607 (.commit k) v))) ∧
      (Runs 0x608 c s u → cmdTail c 8 = true → cmdZ c 2 2 = true →
        exec (.updAbort c) s = .next (complete c 0x608 .ok [if st.begun2 then 1 else 0]
          ((finishWait (.commit k) .aborted [] u).onModel k fun m => { m with led := m.led.abandon }))) ∧
      (Runs 0x609 c s u → cmdTail c 2 = true → exec (.updStatus c) s = .next (complete c 0x609 .ok
        ([1, 0, 0, 0] ++ leBytes 4 m.led.nextStep.toNat ++ leBytes 4 (layersWritten u m.map st) ++
          leBytes 4 (layersReady u m.map st)) u))) ∧
    (Runs 0x60A c s u → cmdTail c 16 = true → cmdZ c 2 2 = true → addrOk (cmdU c 8 8) = true →
      ∀ x, (m.led.mon.reverse.find? fun x => x.1.toNat == cmdU c 4 4) = some x → x.2 ≠ [] →
      u.inAccount (cmdA c) (cmdU c 8 8) (192 * x.2.length) = true → u.writes (cmdU c 8 8) (192 * x.2.length) = true →
      exec (.updMonRead c) s = .next (complete c 0x60A .ok (leBytes 2 x.2.length)
        (u.give (cmdA c) (cmdU c 8 8) x.2.flatten))))

/-- A started feed, its Ledger die in service, whose epoch is not the step's, or whose format is not the model's, is
discarded whole with the bit of its reason; one that both allow, of a tensor that is not frozen, that the round robin
of its die's Ledger port serves, and whose rows meet no error, stages its next segment in the shard that holds it and
asks for the credits of what it read. Pass 1 of a released ready layer whose weights and state meet no error marks the
layer and the die as done, writes no memory, and leaves the weights' record. Combining what joined parts sent, whose
anchors and transport words are right, marks the layer as combined once. Pass 2, with no reader of the other buffer
and no drain of the model's checkpoint, marks the step as begun and the layer and die as written. A mirror's rows,
from a joined part, land in its inactive buffer and are counted once; those from a part that is not joined are
discarded and counted. FEED_LIMIT abandons the step, and a waiting commit completes with TIMEOUT, except where the
commit waits for writing alone or the step is marked DENY in time. (R225, R226, R227, R229, R230, R231, R234, R239,
R240, R241) -/
def Obligations.LedgerOperationsTakeEffect : Prop :=
  (∀ (d : DescId) (s : State) (p : Pkg) (x : Desc) (k : Nat) (m : Model) (st : LedStep), s.desc d = some (p, x) → x.kind = 6 →
    x.state = .started → p.running = true → x.progress < (feedOf x.raw).segments →
    s.slotOf p.id.acct.toNat p.model = some k → s.model k = some m → m.led.step = some st →
    s.unitServes 4 (p.die x / 2) = true →
    let f := feedOf x.raw
    let t := m.map.tensor f.tensor
    (p.epoch.toNat ≠ st.gepoch → exec (.lfeed d) s = .next (discardFeed d k m f 2 s)) ∧
    (p.epoch.toNat = st.gepoch → f.fmt ≠ feedFormat m t → exec (.lfeed d) s = .next (discardFeed d k m f 3 s)) ∧
    (∀ (g : Group) (y : Shard × Nat), p.epoch.toNat = st.gepoch → f.fmt = feedFormat m t → t.frozen = false →
      s.groupOf m.map t = some g → g.frozen = false →
      (m.map.shards.zipIdx.find? fun y => y.1.tensor == f.tensor && m.map.mine y.1 && y.1.die == x.unit % 8 &&
        y.1.role == 0 && decide (y.1.row0 ≤ f.row0) && decide (f.row0 + f.nrows ≤ y.1.row1 + 1) &&
        decide (y.1.col0 ≤ f.col0) && decide (f.col0 + f.ncols ≤ y.1.col1 + 1)) = some y →
      s.serves (1264 + p.die x) (hasFeed s (p.die x)) d = true → s.meets (f.runs x.progress) = .clear →
      exec (.lfeed d) s = .next (stageRows d k m f y x.progress
        ((s.served (1264 + p.die x) d.pkg.acct.toNat).charge .ledger p.id.acct.toNat (f.runs x.progress))))) ∧
  (∀ (slot : BitVec 6) (ld : BitVec 2) (layer : BitVec 16) (s : State) (m : Model) (st : LedStep),
    s.model slot.toNat = some m → m.led.step = some st →
    s.meets ((layerKeys s slot.toNat m ld.toNat layer.toNat).flatMap fun x => s.keySpots x.1 x.2) = .clear →
    (passOpen s m st ld.toNat layer.toNat = true → (ld.toNat, layer.toNat) ∉ st.pass1 → layerTwoPass s m.map layer.toNat = true →
      ∃ t m' st', exec (.layerPass1 slot ld layer) s = .next t ∧ t.mem = s.mem ∧ t.model slot.toNat = some m' ∧ m'.w = m.w ∧
        m'.led.step = some st' ∧ st'.pass1 = st.pass1 ++ [(ld.toNat, layer.toNat)] ∧ st'.pass2 = st.pass2 ∧
        st'.begun2 = st.begun2) ∧
    (passOpen s m st ld.toNat layer.toNat = true → (ld.toNat, layer.toNat) ∉ st.pass2 →
      passTwoOpen s m st ld.toNat layer.toNat = true → bufferRead s m = false → st.commit = false →
      s.runningMove slot.toNat = none →
      ∃ t m' st', exec (.layerPass2 slot ld layer) s = .next t ∧ t.model slot.toNat = some m' ∧ m'.w = m.w ∧
        m'.led.step = some st' ∧ st'.pass2 = st.pass2 ++ [(ld.toNat, layer.toNat)] ∧ st'.begun2 = true ∧
        st'.pass1 = st.pass1)) ∧
  (∀ (slot : BitVec 6) (layer : BitVec 16) (others : List WideMsg) (failed : List (BitVec 13 × BitVec 12)) (ws : List Wide) (s : State)
      (m : Model) (st : LedStep), s.model slot.toNat = some m → m.led.step = some st →
    (others.filter fun w => (s.joinedBy m.map.job w.part).isSome).mapM (WideMsg.take s m) = some ws →
    (∀ w ∈ ws, w.scope ≠ .block) →
    (∀ p ∈ stepPairs s m.map, p.2 = layer.toNat → p ∈ st.pass1) → layerTwoPass s m.map layer.toNat = true →
    layer.toNat ∉ st.combLayers →
    ∃ t m' st', exec (.ledgerCombine slot layer others failed) s = .next t ∧ t.mem = s.mem ∧ t.model slot.toNat = some m' ∧
      m'.led.step = some st' ∧ st'.combLayers = st.combLayers ++ [layer.toNat] ∧ st'.pass1 = st.pass1 ∧ st'.amax = st.amax) ∧
  (∀ (slot : BitVec 6) (shard : Nat) (part : BitVec 13) (b : Bytes) (s : State) (m : Model) (st : LedStep) (x : Shard),
    s.model slot.toNat = some m → m.map.shards[shard]? = some x →
    ((s.joinedBy m.map.job part).isNone → exec (.mirrorTransfer slot shard (some (part, b))) s = .next (discardMsg s)) ∧
    ((s.joinedBy m.map.job part).isSome → m.led.step = some st → m.map.mine x = true → x.role = 1 →
    (m.map.tensor x.tensor).frozen = false → shard ∉ st.mirrors → bufferRead s m = false → b.length = 2 * x.elems →
    s.keysFail [(trainKey slot.toNat (!m.w.activeB) x.die (trainOff m.map shard), trainSize x)] = false →
    exec (.mirrorTransfer slot shard (some (part, b))) s = .next (tryCommit slot.toNat
      (onStep slot.toNat (fun st => { st with mirrors := st.mirrors ++ [shard] }) (landMirror slot.toNat m (x, shard) b s))))) ∧
  (∀ (slot : BitVec 6) (s : State) (m : Model) (st : LedStep), s.model slot.toNat = some m → m.led.step = some st →
    (st.denied = true ∨ (st.commit = true ∧ allReady s m.map st = true) → exec (.feedLimitExpiry slot) s = .next s) ∧
    (st.denied = false → st.commit = false ∨ allReady s m.map st = false → exec (.feedLimitExpiry slot) s =
      .next (finishWait (.commit slot.toNat) .timeout []
        (s.onModel slot.toNat fun m => { m with led := m.led.abandon }))))

/-! ## Sequences and generation (08, 09) -/

/-- When they run with legal operands and their buffers are read and written without error, every access asking for
its credits: ADMIT of a request that the model can serve enters it in the lowest free entry under its handle and its
account's membership of the domain named, and it is granted at once or waits; CANCEL ends a sequence that runs no
chunk as CANCELLED, and waits for a running chunk to stop; QUERY writes the entry's image; PAUSE of a sequence outside
the running wave leaves it PAUSED, and inside the wave waits for its step; RESUME returns a PAUSED one to DECODE, and
queues a PARKED one; PARK starts the copy; RELEASE frees a final entry; DRAFT appends the drafts and returns their
count. (R257, R259, R260, R261, R262, R267, R277, R280, R282, R296, R306) -/
def Obligations.SequenceCommandsComplete : Prop :=
  (∀ (c : Cmd) (s u : State) (k i : Nat) (m : Model), Runs 0x501 c s u → cmdTail c 8 = true → addrOk (cmdU c 0 8) = true →
    cmdU c 0 8 % 64 = 0 → u.inAccount (cmdA c) (cmdU c 0 8) 128 = true → u.reads (cmdU c 0 8) 128 = true →
    let b := u.read (cmdU c 0 8) 128
    let n := fieldAt b 4 4
    let prompt := (List.range n).map fun j => fieldAt (u.read (fieldAt b 0x10 8) (4 * n)) (4 * j) 4
    let q := seqOf b (cmdA c) k (freeHandle u (cmdA c)) (u.acct (cmdA c)).quota.classB u.mtime u.gens.order prompt
      (membership (cmdA c) (fieldAt b 0x3E 2) u)
    let v := (u.onGens fun g => { g with order := g.order + 1, seqs := tset g.seqs i q }).onAcct (cmdA c) fun x =>
      { x with nextSeq := q.handle + 1 }
    admitOk b = true → u.acctResetting (cmdA c) = false → cmdSlot c (fieldAt b 0 2) u = some k → u.model k = some m →
    n < m.gen.maxCtx → n + fieldAt b 8 4 ≤ m.gen.maxCtx → u.inAccount (cmdA c) (fieldAt b 0x10 8) (4 * n) = true →
    u.reads (fieldAt b 0x10 8) (4 * n) = true → (∀ t ∈ prompt ++ q.stops, t < m.map.vocab) → m.admits = true →
    (q.domain = 0 ∨ q.joined.isSome = true) → (u.gens.seqs.filter fun x => x.2.acct == cmdA c).length < (u.acct (cmdA c)).quota.seqs →
    i < 16384 → tget u.gens.seqs i = none → (∀ j < i, tget u.gens.seqs j ≠ none) → fitsAlone u m q = true →
    ((queueSeq i k v).2 = true ∨ q.admitWait ≠ 0) →
    exec (.seqAdmit c) s = .next (complete c 0x501 .ok
      (leBytes 4 q.handle.toNat ++ leBytes 1 (if (queueSeq i k v).2 = true then 2 else 1))
      (((queueSeq i k v).1.took (cmdA c) [(fieldAt b 0x10 8, 4 * n)]).took (cmdA c) [(cmdU c 0 8, 128)]))) ∧
  (∀ (c : Cmd) (s u : State) (i : Nat) (q : Seq), handleSeq c u = some (i, q) →
    (Runs 0x502 c s u → cmdTail c 4 = true → q.state.final = false →
      let v := u.onSeq i fun q => { q with cancelBy := some (q.cancelBy.getD c.seqno) }
      (q.chunk = none → exec (.seqCancel c) s = .next (complete c 0x502 .ok (leBytes 1 7 ++ [0, 0, 0] ++ leBytes 4 q.pos)
        (endSeq i .cancelled 3 v))) ∧
      (∀ x, q.chunk = some x → exec (.seqCancel c) s = .next (waitsFor c 0x502 (.seq i) (beginStop x.1 .cancelled v)))) ∧
    (Runs 0x503 c s u → cmdTail c 16 = true → cmdZ c 4 4 = true → addrOk (cmdU c 8 8) = true →
      u.inAccount (cmdA c) (cmdU c 8 8) 128 = true → u.writes (cmdU c 8 8) 128 = true → ∀ m, u.model q.slot = some m →
      exec (.seqQuery c) s = .next (complete c 0x503 .ok [] (u.give (cmdA c) (cmdU c 8 8) (seqImage q m.map.num)))) ∧
    (Runs 0x504 c s u → cmdTail c 4 = true → q.state = .decode →
      (inWave u i q.slot = false → exec (.seqPause c) s =
        .next (complete c 0x504 .ok [] (setSeqState i .paused (leaveWaves i q.slot u)))) ∧
      (inWave u i q.slot = true → exec (.seqPause c) s =
        .next (waitsFor c 0x504 (.seqPause i) (u.onSeq i fun q => { q with pausing := true })))) ∧
    (Runs 0x505 c s u → cmdTail c 4 = true →
      (q.state = .paused → q.parking = false →
        exec (.seqResume c) s = .next (complete c 0x505 .ok (leBytes 1 3) (enterDecode i u))) ∧
      (q.state = .parked →
        let v := (u.onGens fun g => { g with order := g.order + 1 }).onSeq i fun q =>
          { q with state := .admitted, tLast := u.mtime, since := u.mtime, order := u.gens.order }
        exec (.seqResume c) s = .next (complete c 0x505 .ok
          (leBytes 1 (if (queueSeq i q.slot v).2 = true then 2 else 1)) (queueSeq i q.slot v).1))) ∧
    (Runs 0x506 c s u → cmdTail c 8 = true → 1 ≤ cmdU c 4 4 → cmdU c 4 4 ≤ 86400 → q.state = .paused → q.parking = false →
      (u.acct q.acct).epochPin = false → q.pages.length ≤ vaultRoom u q →
      exec (.seqPark c) s = .next (waitsFor c 0x506 (.seqPause i) (startPark i (cmdU c 4 4) u))) ∧
    (Runs 0x507 c s u → cmdTail c 4 = true → q.state.final = true →
      exec (.seqRelease c) s = .next (complete c 0x507 .ok [] (freeEntry i u))) ∧
    (∀ m, Runs 0x508 c s u → u.model q.slot = some m → 1 ≤ cmdU c 4 1 → cmdU c 4 1 ≤ 4 →
      cmdTail c (8 + 8 * cmdU c 4 1) = true → cmdZ c 5 3 = true → q.state = .decode → q.spec ≠ 0 →
      q.drafts.length + cmdU c 4 1 ≤ q.draftMax →
      let pairs := (List.range (cmdU c 4 1)).map fun i => (cmdU c (8 + 8 * i) 4, BitVec.ofNat 32 (cmdU c (12 + 8 * i) 4))
      (∀ p ∈ pairs, p.1 < m.map.vocab) →
      exec (.seqDraft c) s = .next (complete c 0x508 .ok (leBytes 1 (q.drafts.length + cmdU c 4 1))
        (u.onSeq i fun q => { q with drafts := q.drafts ++ pairs }))))

/-- When they run with legal operands and their buffers are read without error, every read asking for its credits:
MODEL_SET stages PAUSE_LIMIT for the next frame of a group whose grid runs, and sets it at once where the grid stands
still; it sets MAX_CTX of an idle model at once; PREFILL_SET stores the template and the chunk; DECODE_SET stores a
plan that fits the model. (R251, R252, R260, R263, R269) -/
def Obligations.GenerationSettingsComplete : Prop :=
  (∀ (c : Cmd) (s u : State) (k : Nat) (m : Model), cmdSlot c (cmdU c 0 2) u = some k → u.model k = some m →
    (Runs 0x509 c s u → cmdTail c 16 = true → cmdZ c 3 5 = true → genValueOk (cmdU c 2 1) (cmdU c 8 8) = true →
      (cmdU c 2 1 = 5 → m.gen.grid ≠ none → exec (.seqModelSet c) s = .next (complete c 0x509 .ok []
        (u.onModel k fun x => { x with gen := { m.gen with staged := m.gen.staged ++ [(5, cmdU c 8 8)] } }))) ∧
      (cmdU c 2 1 = 5 → m.gen.grid = none → exec (.seqModelSet c) s = .next (complete c 0x509 .ok []
        (u.onModel k fun x => { x with gen := { m.gen with pauseLimit := cmdU c 8 8 } }))) ∧
      (cmdU c 2 1 = 3 → u.modelBusy k = false → exec (.seqModelSet c) s = .next (complete c 0x509 .ok []
        (u.onModel k fun x => { x with gen := { m.gen with maxCtx := cmdU c 8 8 } })))) ∧
    (∀ im, Runs 0x50A c s u → cmdTail c 16 = true → cmdZ c 4 4 = true → 256 ≤ cmdU c 2 2 → cmdU c 2 2 ≤ 8192 →
      addrOk (cmdU c 8 8) = true → cmdU c 2 2 % m.kv.ptok = 0 → u.prefilling k = false →
      loadImage u c.fn (cmdU c 8 8) = .image im → im.pkg.phase = .generation → im.pkg.model = cmdU c 0 2 →
      (im.pkg.regions.headD ⟨0, 0, 0, 0, 0, 0⟩).role = 4 → templateFail u im = none → codeFails u im.pkg = false →
      exec (.seqPrefillSet c) s = .next (complete c 0x50A .ok []
        ((u.onModel k fun m => { m with gen := { m.gen with template := some im.pkg, chunk := cmdU c 2 2 } }).took (cmdA c)
          (imageReads u (cmdU c 8 8) im.pkg)))) ∧
    (let a := cmdU c 8 8
     let n := 64 + 64 * planU (u.read a 64) 2 2
     Runs 0x50B c s u → cmdTail c 16 = true → cmdZ c 2 6 = true → addrOk a = true → a % 64 = 0 →
      u.inAccount (cmdA c) a 64 = true → u.reads a 64 = true → u.inAccount (cmdA c) a n = true →
      u.reads a n = true → planHeaderOk m (u.read a n) = true →
      (∀ l < m.map.layers, planLayerOk m (u.read a n) l = true) → u.modelBusy k = false → u.prefilling k = false →
      exec (.seqDecodeSet c) s = .next (complete c 0x50B .ok []
        (((u.onModel k fun m => { m with gen := { m.gen with plan := some (u.read a n) } }).took (cmdA c) [(a, n)]).took
          (cmdA c) [(a, 64)]))))

/-- A launchable sequence of a serving account whose template is free launches its next chunk as a package. The end of
a chunk of a serving account before the last commits its slots, and the end of the last, its ring held by no host link
that is away, commits the first token, which starts DECODE unless it meets a stop condition. FRAME_START, its ring
held by no host link that is away, forms waves of at most WAVE sequences, moves the grid by the period and writes no
memory. WAVE_START runs the first waiting wave with sequences of that wave alone. WAVE_COMMIT, of a group that runs
and serves, and whose ring no host link that is away holds, and FRAME_END leave no wave running, and FRAME_END none
waiting and the grid as it was, or stopped. (R269, R270, R271, R272, R273, R274, R276, R279, R283, R295) -/
def Obligations.GenerationRuns : Prop :=
  (∀ (seq : BitVec 14) (s : State) (q q1 q2 : Seq) (m : Model) (p : Pkg), s.seq seq.toNat = some q → s.model q.slot = some m →
    m.gen.template = some p → q.launchable = true →
    (∀ x ∈ s.seqsOf q.slot, x.2.launchable = true → q.order ≤ x.2.order) →
    (let y : Pkg := { p with id := ⟨BitVec.ofNat 10 q.acct, 0⟩, order := s.pkgOrder }
     poolsOk s y = true ∧ (∀ r ∈ p.regions, noConflict s y r = true) ∧ y.phaseOpen s = true ∧ y.modelOpen s = true ∧
      y.waitsRoll s = false) → s.acctServes q.acct = true →
    s.chip.power.pstate = 0 → m.w.ready = true → m.w.gencopy = true → p.dies.any s.chip.power.override.halts = false →
    let v1 := bindChunk seq.toNat m (s.acct q.acct).epochPin s
    v1.seq seq.toNat = some q1 →
    let v2 := drawPages seq.toNat (((q1.chunkEnd m).1 - 1) / m.kv.ptok + 1) v1
    v2.seq seq.toNat = some q2 →
    (launchPkg v2 q2 m p).2.length ≤ (p.regions.headD ⟨0, 0, 0, 0, 0, 0⟩).len →
    ∃ t x, exec (.prefillLaunch seq) s = .next t ∧ t.seq seq.toNat = some x ∧
      x.chunk = some ((launchPkg v2 q2 m p).1.id, q2.chunkPos, (q1.chunkEnd m).1 - q2.chunkPos) ∧ x.state = .prefill ∧
      (∀ c ∈ p.cores, c < v2.cores.length → (t.core c).phase = some p.phase)) ∧
  (∀ (seq : BitVec 14) (s : State) (q : Seq) (m : Model) (p : Pkg) (id : PkgId) (pos len : Nat), s.seq seq.toNat = some q →
    q.chunk = some (id, pos, len) → s.model q.slot = some m → s.pkg id = some p → p.state = .done → p.status = .ok →
    q.cancelBy = none → q.expired = false → s.acctServes q.acct = true →
    let v := s.onSeq seq.toNat fun q => { q with chunk := none, chunkPos := pos + len }
    (pos + len < q.pos → exec (.firstTokenCommit seq) s =
      .next (publishSeq seq.toNat (tagSlots seq.toNat pos (pos + len) 2 v))) ∧
    (q.pos ≤ pos + len → s.hostWaits m.gen.ring = false → fieldAt p.sampled 0x3C 4 = 0 →
      let r := commitStep seq.toNat pos [⟨fieldAt p.sampled 0x30 4, BitVec.ofNat 32 (fieldAt p.sampled 0x34 4), false⟩]
        p.epoch.toNat true v
      (r.2.2 = none → exec (.firstTokenCommit seq) s = .next (enterDecode seq.toNat (writeRing q.slot r.2.1 r.1))) ∧
      (∀ c, r.2.2 = some c →
        exec (.firstTokenCommit seq) s = .next (endSeq seq.toNat .done c (writeRing q.slot r.2.1 r.1))))) ∧
  (∀ (slot : BitVec 6) (s : State) (m : Model), s.model slot.toNat = some m →
    (∀ g, m.gen.grid = some g → (∃ x ∈ s.seqsOf slot.toNat, x.2.loads = true) → m.gen.running = none →
      s.acctServes m.map.acct = true → s.hostWaits m.gen.ring = false →
      ∃ t m', exec (.frameStart slot) s = .next t ∧ t.mem = s.mem ∧ t.model slot.toNat = some m' ∧ m'.gen.staged = [] ∧
        m'.gen.grid = some (g.1 + g.2, m'.gen.period) ∧ m'.gen.running = none ∧ m'.w = m.w ∧
        ∀ w ∈ m'.gen.waves, w.seqs.length ≤ max 1 m'.gen.wave) ∧
    (∀ w rest, m.gen.waves = w :: rest → m.gen.running = none → m.w.waveShut = false → m.w.gencopy = true →
      groupServes s m = true → s.acctServes m.map.acct = true → s.chip.power.pstate = 0 →
      ∃ t m', exec (.waveStart slot) s = .next t ∧ t.model slot.toNat = some m' ∧ m'.gen.waves = rest ∧ m'.w = m.w ∧
        ∀ w', m'.gen.running = some w' → w'.seqs ≠ [] ∧ ∀ x ∈ w'.seqs, ∃ y ∈ w.seqs, y.1 = x.1) ∧
    (∀ w bad, m.gen.running = some w → groupRuns s m = true → s.acctServes m.map.acct = true → s.hostWaits m.gen.ring = false →
      ∃ t m', exec (.waveCommit slot bad) s = .next t ∧ t.model slot.toNat = some m' ∧ m'.gen.running = none ∧ m'.w = m.w) ∧
    (∃ t m', exec (.frameEnd slot) s = .next t ∧ t.model slot.toNat = some m' ∧ m'.gen.running = none ∧ m'.gen.waves = [] ∧
      m'.w = m.w ∧ (m'.gen.grid = m.gen.grid ∨ m'.gen.grid = none)))

/-- ADMIT_GRANT gives the head request of a serving account that fits its home and its reservation, in PREFILL. An
ADMIT_WAIT ends EXPIRED with cause 4; a sequence without a running chunk whose LIFETIME elapses ends with cause 5, and
one with a chunk stops it first; a PAUSED one at PAUSE_LIMIT, its account serving, is parked where PARK_TTL and the
Vault allow it and ends with cause 7 otherwise; a PARKED one at PARK_TTL ends with cause 8; a final entry is freed
after its time. The park of a serving account whose turn it is on its die, once its pages have been copied, leaves the
sequence PARKED without drafts; a failed one leaves it PAUSED and completes the command with DATA_ERROR; a restore of
a serving account leaves its chunks bound. An end sets the state and the cause, and the entry holds no page, draft,
import, chunk or reservation; other entries keep their pages. (R259, R266, R267, R268, R280, R295, R300, R306, R308,
R309, R310) -/
def Obligations.SequencesAreGrantedExpireAndEnd : Prop :=
  (∀ (slot : BitVec 6) (s : State) (i h : Nat) (q : Seq) (m : Model), headRequest s slot.toNat = some (i, q) →
    s.model slot.toNat = some m → s.seq i = some q → s.acctServes q.acct = true → placeSeq s slot.toNat m q = some h →
    exec (.admitGrant slot) s = .next (grantSeq i h s) ∧
    (s.model q.slot = some m → ∃ x, (grantSeq i h s).seq i = some x ∧ x.state = .prefill ∧ x.home = h ∧ x.reserved = q.need m ∧
      x.handle = q.handle)) ∧
  (∀ (seq : BitVec 14) (s v : State) (q : Seq) (m : Model) (x : Import) (rest : List Import) (l : FrameLoc),
    s.seq seq.toNat = some q → q.imports = x :: rest → s.model q.slot = some m → s.acctServes q.acct = true →
    let r := match x.kept with
      | some b => (true, b, s)
      | none => readPage q.acct x.loc s
    r.1 = true → r.2.1 ≠ [] → drawFrame q.slot false q.home r.2.2 = some (l, v) →
    exec (.importDone seq true) s = .next ((writePage q.acct l r.2.1 v).onSeq seq.toNat fun q =>
      { q with imports := rest, pages := q.pages.modify x.page fun p => { p with loc := l, shared := false, own := false } })) ∧
  (∀ (seq : BitVec 14) (s : State) (q : Seq), s.seq seq.toNat = some q →
    (q.state = .admitted → exec (.admitWaitExpiry seq) s = .next (endSeq seq.toNat .expired 4 s)) ∧
    (q.state.final = false → q.lifetime ≠ 0 →
      (q.chunk = none → exec (.lifetimeExpiry seq) s = .next (endSeq seq.toNat .expired 5 s)) ∧
      (∀ x, q.chunk = some x → exec (.lifetimeExpiry seq) s =
        .next (beginStop x.1 .cancelled (s.onSeq seq.toNat fun q => { q with expired := true })))) ∧
    (q.state = .paused → q.parking = false → s.acctServes q.acct = true →
      (q.parkTtl ≠ 0 → (s.acct q.acct).epochPin = false → q.pages.length ≤ vaultRoom s q →
        exec (.pauseLimitExpiry seq) s = .next (startPark seq.toNat q.parkTtl s)) ∧
      (q.parkTtl = 0 ∨ (s.acct q.acct).epochPin = true ∨ vaultRoom s q < q.pages.length →
        exec (.pauseLimitExpiry seq) s = .next (endSeq seq.toNat .expired 7 s))) ∧
    (q.state = .parked → exec (.parkTtlExpiry seq) s = .next (endSeq seq.toNat .expired 8 s)) ∧
    (q.state.final = true → exec (.entryAutoRelease seq) s = .next (freeEntry seq.toNat s)) ∧
    (q.state = .paused → q.parking = true → s.acctServes q.acct = true → parkTurn s (s.physDie q.acct (q.home / 4)) = some seq.toNat →
      (∀ v, movePages seq.toNat q true (q.home / 4) s = .done v → exec (.parkDone seq true) s =
        .next (finishWait (.seqPause seq.toNat) .ok [] (setSeqState seq.toNat .parked
          (v.onSeq seq.toNat fun q => { q with parking := false, reserved := 0, drafts := [] })))) ∧
      exec (.parkDone seq false) s = .next (finishWait (.seqPause seq.toNat) .dataError []
        ((s.onSeq seq.toNat fun q => { q with parking := false }).onSeq seq.toNat fun q => { q with drafts := [] }))) ∧
    (q.state = .prefill → q.restoring = true → s.acctServes q.acct = true → ∀ v, movePages seq.toNat q false q.home s = .done v →
      exec (.restoreDone seq true) s = .next (v.onSeq seq.toNat fun q => { q with restoring := false, bound := true }))) ∧
  (∀ (i cause : Nat) (st : SeqState) (s : State) (q : Seq), s.seq i = some q →
    (∃ x, (endSeq i st cause s).seq i = some x ∧ x.state = st ∧ x.endCause = cause ∧ x.pages = [] ∧ x.drafts = [] ∧
      x.imports = [] ∧ x.chunk = none ∧ x.reserved = 0 ∧ x.handle = q.handle ∧ x.pos = q.pos) ∧
    ∀ j, j ≠ i → ((endSeq i st cause s).seq j).map (·.pages) = (s.seq j).map (·.pages))

/-! ## Weights (10, 13) -/

/-- When it runs with a map whose block, tables and rows pass every check and are read without error, whose arenas are
the account's and whose engines are free, WT_CREATE completes OK and enters a model that is not loaded, with that map,
in the lowest free window slot, and changes nothing else but the credits that its reads ask for. (R312, R313, R314,
R315, R316) -/
def Obligations.WtCreateCompletes : Prop :=
  ∀ (c : Cmd) (s u : State) (slot part : Nat), Runs 0x401 c s u → cmdTail c 8 = true → addrOk (cmdU c 0 8) = true →
    cmdU c 0 8 % 64 = 0 → u.inAccount (cmdA c) (cmdU c 0 8) 128 = true → u.reads (cmdU c 0 8) 128 = true →
    let f := mapU (u.read (cmdU c 0 8) 128)
    let traw := chunks 64 (u.read (f 0x10 8) (64 * f 4 4))
    let sraw := chunks 32 (u.read (f 0x18 8) (32 * f 8 4))
    let graw := if f 0xC 4 = 0 then [] else chunks 32 (u.read (f 0x20 8) (32 * f 0xC 4))
    let praw := chunks 4 (u.read (f 0x28 8) (4 * f 0x38 2))
    let araw := chunks 32 (u.read (f 0x30 8) 256)
    let ts := traw.map tensorOf
    let ss := sraw.map trainShardOf
    let gs := graw.map genShardOf
    let dies := u.acctDies (cmdA c)
    blockOk (u.read (cmdU c 0 8) 128) = true →
    (u.inAccount (cmdA c) (f 0x10 8) (64 * f 4 4) = true ∧ u.reads (f 0x10 8) (64 * f 4 4) = true) →
    (u.inAccount (cmdA c) (f 0x18 8) (32 * f 8 4) = true ∧ u.reads (f 0x18 8) (32 * f 8 4) = true) →
    (f 0xC 4 = 0 ∨ u.inAccount (cmdA c) (f 0x20 8) (32 * f 0xC 4) = true ∧ u.reads (f 0x20 8) (32 * f 0xC 4) = true) →
    (u.inAccount (cmdA c) (f 0x28 8) (4 * f 0x38 2) = true ∧ u.reads (f 0x28 8) (4 * f 0x38 2) = true) →
    (u.inAccount (cmdA c) (f 0x30 8) 256 = true ∧ u.reads (f 0x30 8) 256 = true) →
    firstRow [firstBadAt 0 traw (tensorOk (f 2 2)), firstBadAt ts.length sraw (trainShardOk ts praw.length),
      firstBadAt (ts.length + ss.length) graw (genShardOk ts praw.length)] = none →
    (∀ p ∈ praw, leNat p < 8192) → araw.all arenaOk = true → firstRow (mapRows ts ss gs) = none →
    (gs = [] ∨ f 0x40 4 ≠ 0) → (praw.map leNat).findIdx? (fun p => some p == u.chip.fabric.addr) = some part →
    u.slotOf (cmdA c) (f 0 2) = none → ((araw.map arenaOf).zipIdx.all fun a => arenaHeld u (cmdA c) a.2 a.1) = true →
    (∀ x ∈ ss ++ gs, x.part = part → x.die < dies.length) →
    (u.models.filter fun m => m.2.map.acct == cmdA c).length < (u.acct (cmdA c)).quota.models →
    mapsHeld u + mapBytes ts.length ss.length gs.length ≤ 2 ^ 28 →
    (∀ x ∈ gs, x.part = part → engineTaken u (dies.getD x.die 8) x.se = false) →
    slot < 64 → u.model slot = none → (∀ j < slot, u.model j ≠ none) →
    ∃ m v, exec (.wtCreate c) s = .next (complete c 0x401 .ok (leBytes 4 0xFFFFFFFF) v) ∧
      v.models = tset u.models slot m ∧ ({ v with models := u.models, demand := u.demand } : State) = u ∧
      m.map.acct = cmdA c ∧ m.map.num = f 0 2 ∧ m.map.tensors = ts ∧ m.map.shards = ss ∧ m.map.gshards = gs ∧
      m.map.part = part ∧ m.w.ready = false ∧ m.led = LedModel.create

/-- When they run with legal operands: LOAD of a model that is not loaded nor being loaded, TURN, LEARN and REBUILD
(with and without a new map) join their partition's queue of moving operations, before the first that their account
asked for with a later SEQNO, and wait for their end; QUERY writes the model record and its layout entries and returns
their number; ANCHOR_SET stages the word; GEN_DROP withdraws the copy; UNLOAD of an idle model zeroes its arenas and
removes it. (R39, R321, R323, R331, R335, R338, R339, R340, R341) -/
def Obligations.WeightCommandsComplete : Prop :=
  ∀ (c : Cmd) (s u : State) (k : Nat) (m : Model), u.slotOf (cmdA c) (cmdU c 0 2) = some k → u.model k = some m →
    let p := u.partOf m.map.acct
    let wait := fun (op : Nat) (kind : MoveKind) (f : MoveOp → MoveOp) (took : State → State) =>
      let o := f { MoveOp.new k u.moveCtr kind (cmdU c 4 4) with inst := nextInst u m.map.job kind, seqno := some c.seqno }
      let earlier := fun (x : MoveOp) => !asksLater u m.map.acct c.seqno x
      waitsFor c op (.move u.moveCtr) (took ({ u with moveCtr := u.moveCtr + 1 }.onMoves p fun x =>
        { x with queue := x.queue.takeWhile earlier ++ o :: x.queue.dropWhile earlier }))
    (Runs 0x402 c s u → cmdTail c 40 = true → cmdZ c 2 2 = true → limitOk 1 (cmdU c 4 4) = true →
      let imgs := (List.range 4).map fun i => cmdU c (8 + 8 * i) 8
      imgs.all addrOk = true → (∀ t ∈ m.map.tensors, imgs.getD t.img 0 ≠ 0) → m.w.ready = false →
      u.movingNow k MoveKind.lays = false → groupsHeld u m.map = true → frozenAgrees u m.map = true → imagesHeld m.map imgs = true →
      arenasFit u m.map = true → moveRefused u m = false → movesFull u p = false →
      exec (.wtLoad c) s = .next (wait 0x402 .load (fun o => { o with imgs := imgs }) id)) ∧
    (Runs 0x403 c s u → cmdTail c 16 = true → cmdZ c 2 2 = true → limitOk 250 (cmdU c 4 4) = true → m.w.ready = true →
      m.led.ustate = .idle → m.w.staged = true → cmdU c 8 8 = m.w.epoch → moveRefused u m = false → movesFull u p = false →
      exec (.wtTurn c) s = .next (wait 0x403 .turn (fun o => { o with imgs := [cmdU c 8 8] }) id)) ∧
    (Runs 0x404 c s u → cmdTail c 8 = true → cmdZ c 2 2 = true → limitOk 1 (cmdU c 4 4) = true → moveRefused u m = false →
      movesFull u p = false → exec (.wtLearn c) s = .next (wait 0x404 .learn id id)) ∧
    (Runs 0x405 c s u → cmdTail c 16 = true → cmdZ c 2 2 = true → limitOk 250 (cmdU c 4 4) = true →
      addrOk (cmdU c 8 8) = true → m.w.ready = true → m.map.gshards ≠ [] → m.w.staged = false → moveRefused u m = false →
      movesFull u p = false →
      (cmdU c 8 8 = 0 → exec (.wtRebuild c) s = .next (wait 0x405 .rebuild id id)) ∧
      (cmdU c 8 8 ≠ 0 → let n := 32 * m.map.gshards.length
        let rows := chunks 32 (u.read (cmdU c 8 8) n)
        let gs := rows.map genShardOf
        u.inAccount (cmdA c) (cmdU c 8 8) n = true → u.reads (cmdU c 8 8) n = true →
        rows.all (genShardOk m.map.tensors m.map.parts.length) = true → firstRow (genRows m.map.tensors gs 0) = none →
        (∀ x ∈ gs, x.part = m.map.part → x.die < (u.acctDies m.map.acct).length ∧
          engineTaken { u with models := terase u.models k } ((u.acctDies m.map.acct).getD x.die 8) x.se = false) →
        u.modelBusy k = false → genBound u m.map (fun _ => true) = false → arenasFit u { m.map with gshards := gs } = true →
        exec (.wtRebuild c) s = .next (wait 0x405 .rebuild (fun o => { o with newMap := some (gs, []) })
          (State.took (cmdA c) [(cmdU c 8 8, n)])))) ∧
    (Runs 0x406 c s u → cmdTail c 16 = true → cmdZ c 2 6 = true → addrOk (cmdU c 8 8) = true →
      u.inAccount (cmdA c) (cmdU c 8 8) (128 + 16 * (layoutEntries m.map).length) = true →
      u.writes (cmdU c 8 8) (128 + 16 * (layoutEntries m.map).length) = true →
      exec (.wtQuery c) s = .next (complete c 0x406 .ok (leBytes 4 (layoutEntries m.map).length)
        (u.give (cmdA c) (cmdU c 8 8) (modelRecord u k m ++ (layoutEntries m.map).flatten)))) ∧
    (∀ t, Runs 0x407 c s u → cmdTail c 8 = true → anchorReserved (cmdU c 2 2) = false → anchorAuto (cmdU c 2 2) = false →
      m.map.tensors[cmdU c 4 4]? = some t → t.nogen = false → (u.movingNow k fun k => k == .turn || k == .rebuild) = false →
      exec (.wtAnchorSet c) s = .next (complete c 0x407 .ok [] (u.onModel k fun m =>
        { m with w := { m.w with stagedAnch := tset m.w.stagedAnch (cmdU c 4 4) (cmdU c 2 2) } }))) ∧
    (Runs 0x408 c s u → cmdTail c 2 = true → u.movingNow k MoveKind.lays = false →
      exec (.wtGenDrop c) s = .next (complete c 0x408 .ok [] (withdrawCopy k u))) ∧
    (Runs 0x409 c s u → cmdTail c 2 = true → u.runningMove k = none → u.moveWaits k = false → m.led.ustate ≠ .open →
      m.led.ustate ≠ .held → m.ft.later = [] → boundTo u m.map = false → u.modelBusy k = false →
      ∃ v, exec (.wtUnload c) s = .next (complete c 0x409 .ok [] v) ∧ v.model k = none ∧ ∀ j, j ≠ k → v.model j = u.model j)

/-- MOVING_OP_START begins the operation at the head of its partition's queue where nothing forbids it; a load keeps
what it found in the model's storage, to put it back if it fails without a change. A LOAD_SEGMENT over a link that is
up whose elements convert takes the load to its next segment; one that failed its check is fetched again. A
RESHARD_SEGMENT lands the next rectangle, or the first that is fetched again, in units that are not fenced, from this
part where its rows are read without error and cross between its dies, or as it arrived; MINT_LAYER converts the
lowest landed layer, where it is read without error, is not to be fetched again and its copy lies in no fenced unit.
(R18, R39, R324, R325, R326, R328, R329, R333) -/
def Obligations.MovingOperationsStartAndMove : Prop :=
  (∀ (part : BitVec 3) (s : State) (o : MoveOp) (rest : List MoveOp) (m : Model), (s.movesOf part.toNat).running = none →
    (s.movesOf part.toNat).queue = o :: rest → s.chip.fw.activation = none → s.chip.power.pstate = 0 →
    part.toNat ∉ s.chip.power.partReset → s.model o.slot = some m →
    let v := s.onMoves part.toNat fun x => { x with queue := rest }
    (startRefused v m o = false → exec (.movingOpStart part) s = .next (beginMove part.toNat m o v)) ∧
    (startRefused v m o = false → o.kind = .load → failedBefore v m o = none → part.toNat < s.moves.length →
      ((beginMove part.toNat m o v).movesOf part.toNat).running =
        some { o with toSlot1 := false, stage := .moving, t0 := some s.mtime,
                      undo := s.mem.filter fun x => inModel o.slot x.1 })) ∧
  (∀ (slot : BitVec 6) (s : State) (p : Nat) (o : MoveOp) (m : Model),
    let k := slot.toNat
    let i := firstMine m.map o.shard
    let o' := { o with shard := i }
    runningAt s k .moving (fun k => k == .load) = some (p, o, m) →
    ∀ x, m.map.shards[i]? = some x → o.imgs ≠ [] →
      let t := m.map.tensor x.tensor
      let a := o.seg * segElems t
      let runs := elemRuns x.cols a (min x.elems (a + segElems t))
      let place := fun (r c : Nat) => o.imgs.getD t.img 0 + t.srcOff + (x.row0 + r) * t.srcStride + (x.col0 + c) * t.srcBytes
      (loadFenced s k m i x o' = false → (∀ u ∈ runs, s.hostWaits (place u.1 u.2.1) = false ∧ s.hostDead (place u.1 u.2.1) = false) →
        (∀ u ∈ runs, ∀ b ∈ chunks t.srcBytes (s.read (place u.1 u.2.1) (u.2.2 * t.srcBytes)), ∀ split,
          loadElem t.srcBf16 split b ≠ none) →
        (nextLoadSeg m o').shard < m.map.shards.length →
        ∃ v, exec (.loadSegment slot true) s = .next v ∧ (v.movesOf p).running = some (nextLoadSeg m o') ∧
          v.gens = s.gens ∧ v.pkgs = s.pkgs ∧ v.cores = s.cores ∧ v.led = s.led) ∧
      (o.tries < 3 → ∃ v, exec (.loadSegment slot false) s = .next v ∧ v.mem = s.mem ∧
        (v.movesOf p).running = some { o' with tries := o.tries + 1, refetched := o.refetched + 1 })) ∧
  (∀ (slot : BitVec 6) (s : State) (p : Nat) (o : MoveOp) (m : Model) (g : MoveSeg), building s slot.toNat = some (p, o, m) →
    (opSegments m o)[o.redo.headD o.seg]? = some g → landRoom m o g = true → s.keysFail (landKeys slot.toNat m o g) = false →
    let last := match (opSegments m o)[o.seg + 1]? with
      | some h => h.layer m != g.layer m
      | none => true
    let step := onRunning p fun o =>
      if o.redo.isEmpty then { o with seg := o.seg + 1, landed := if last = true then o.landed ++ [g.layer m] else o.landed }
      else { o with redo := o.redo.drop 1 }
    let width := 2 * (g.c1 + 1 - g.c0)
    let lines := landLines slot.toNat m o g
    let keys := g.keys slot.toNat m (opBuffer m o)
    (∀ n, g.here = true → s.meets (keys.flatMap fun x => s.keySpots x.1 x.2) = .clear →
      s.chip.noc.crossAll (moveMsgs (s.dieOfPart m.map g.src.die) (s.dieOfPart m.map g.dst.die)) = some n →
      exec (.reshardSegment slot none true) s = .next (step (landRows m.map.acct
        (lines (g.rows s slot.toNat m (opBuffer m o))) (crossed (s.chargeKeys .turn m.map.acct keys) n)))) ∧
    (∀ b, g.here = false → b.length = width * (g.r1 + 1 - g.r0) → exec (.reshardSegment slot (some b) true) s =
      .next (step ((landRows m.map.acct (lines (chunks width b)) s).meter m.map.acct 7 (width * (g.r1 + 1 - g.r0)) 0)))) ∧
  (∀ (slot : BitVec 6) (s : State) (p l : Nat) (o : MoveOp) (m : Model), building s slot.toNat = some (p, o, m) →
    (o.landed.find? fun l => !o.minted.contains l) = some l → (o.kind = .load ∨ m.map.swap = true ∨ o.drained ≠ none) →
    (o.seg ≠ (opSegments m o).length ∨ o.minted.length + 1 < o.landed.length) →
    (o.redo.any fun i => ((opSegments m o)[i]?).any fun g => g.layer m == l) = false →
    let xs := (opShards m o).filter fun x => (m.map.tensor x.1.tensor).layer == l
    let copy := xs.map fun x => (genKey slot.toNat o.toSlot1 x.1.die (genOff (opMap m o) x.2), genSize (m.map.tensor x.1.tensor) x.1)
    let land := xs.map fun x => (landKey slot.toNat x.1.die (landOff m o x.2 x.1.die), 2 * x.1.elems)
    s.meets (land.flatMap fun x => s.keySpots x.1 x.2) = .clear → s.keysFail copy = false →
    ∃ v, exec (.mintLayer slot) s = .next v ∧
      (v.movesOf p).running = some { o with minted := o.minted ++ [l], wrote := o.wrote || !m.map.swap } ∧ v.models = s.models)

/-- The limit of a moving operation or of a learn barrier fails a part that is not waiting for a decision, naming the
tensor that a load, turn or rebuild is at, and leaves one that waits as it is. The end of an INPLACE drain starts the
counted time; a superseded copy that nothing holds is freed. A coordinator takes a joined part's report and wakes;
another part acknowledges each decision and takes the first; what no joined part has sent is discarded. The flip of a
turn makes the other buffer active, advances the epoch by one, clears the staged update, and writes no memory. (R326,
R332, R333, R334, R337, R340, R425, R426) -/
def Obligations.MovingOperationsEnd : Prop :=
  (∀ (slot : BitVec 6) (s : State) (p : Nat) (o : MoveOp) (m : Model), s.runningMove slot.toNat = some (p, o) →
    s.model slot.toNat = some m →
    let free := o.again = true ∨ awaitsDecision s m o = false
    (o.kind = .load → (free → exec (.loadLimitExpiry slot) s = .next (failHere p slot.toNat m o .timeout (o.tensor m) s)) ∧
      (¬ free → exec (.loadLimitExpiry slot) s = .next s)) ∧
    (o.kind = .turn ∨ o.kind = .rebuild →
      (free → exec (.turnLimitExpiry slot) s = .next (failHere p slot.toNat m o .timeout (o.tensor m) s)) ∧
      (¬ free → exec (.turnLimitExpiry slot) s = .next s)) ∧
    (o.kind = .learn → (free → exec (.learnLimitExpiry slot) s = .next (failHere p slot.toNat m o .timeout noEntry s)) ∧
      (¬ free → exec (.learnLimitExpiry slot) s = .next s)) ∧
    (o.kind = .turn ∨ o.kind = .rebuild → o.t0 ≠ none → o.drained = none → m.gen.running = none →
      exec (.inplaceDrainEnd slot) s =
        .next (onRunning p (fun o => { o with drained := some s.mtime, ovr0 := s.ovrTotal }) s))) ∧
  (∀ (slot : BitVec 6) (s : State) (m : Model), s.model slot.toNat = some m → m.w.oldEpoch ≠ 0 → oldHolders s slot.toNat m = 0 →
    exec (.oldEpochFree slot) s =
      .next (s.onModel slot.toNat fun m => { m with w := { m.w with oldEpoch := 0, oldAnchors := [] } })) ∧
  (∀ (r : Report) (s : State),
    (∀ j, s.joinedBy r.job r.part = some j → j.part = 0 → exec (.barrierReport r) s = .next (takeWith applyDecision r (wakeUp s))) ∧
    (s.joinedBy r.job r.part = none → exec (.barrierReport r) s = .next (discardMsg s))) ∧
  (∀ (d : Decision) (s : State),
    (∀ j, s.joinedBy d.job d.src = some j → j.part ≠ 0 →
      let u := sendPart none j 0 15 (barrierName d.kind d.inst) (wakeUp s)
      ((barrierOf u d.job d.kind d.inst).decision = none → exec (.barrierDecision d) s = .next (applyDecision d
        (onBarrier d.job d.kind d.inst (fun b => { b with decision := some d }) u))) ∧
      ((barrierOf u d.job d.kind d.inst).decision ≠ none → exec (.barrierDecision d) s = .next u)) ∧
    (s.joinedBy d.job d.src = none → exec (.barrierDecision d) s = .next (discardMsg s))) ∧
  (∀ (p slot : Nat) (m : Model) (o : MoveOp) (d : Decision) (s : State), s.model slot = some m →
    ∃ x, (flipTurn p slot m o d s).model slot = some x ∧ x.w.epoch = m.w.epoch + 1 ∧ x.w.activeB = !m.w.activeB ∧
      x.w.staged = false ∧ x.w.turns = m.w.turns + 1 ∧ x.w.waveShut = false ∧ x.map = m.map ∧
      (flipTurn p slot m o d s).mem = s.mem)

/-! ## Surviving failure (14, 16) -/

/-- After a RISK_UPDATE of any inputs the state holds what the measurements and the part's own counts of retirements,
retrains, droops and dark lasers give: five components of at most 255 and, after them, RISK = min(255, m + (s - m)/4)
rounded down, where m is their largest and s their sum. FT_RISK_QUERY returns RISK and the five components to any
account that runs it, whatever the account, with that account's own threshold and arming, and changes nothing. A
HEALTH frame that a module with an address and its input present sends carries RISK in its byte 14. Where no link has
failed a flit and no die has run out of spare rows, a RISK_UPDATE changes no memory, package or core. (R430) -/
def Obligations.RiskEstimate : Prop :=
  (∀ (r : RiskIn) (s : State), s.off = false → ∃ t c th o l d, exec (.riskUpdate r) s = .next t ∧
    (let m := max c (max th (max o (max l d)))
     t.ft.risk = [c, th, o, l, d, min 255 (m + (c + th + o + l + d - m) / 4)] ∧ m ≤ 255) ∧ t.ft.risk = riskOf r (loseOut (healthSeen r s)) ∧
    (r.links = [] → loseOut (healthSeen r s) = healthSeen r s → t.mem = s.mem ∧ t.pkgs = s.pkgs ∧ t.cores = s.cores)) ∧
  (∀ (c : Cmd) (s u : State) (x0 x1 x2 x3 x4 risk : Nat), Runs 0x701 c s u → cmdTail c 0 = true →
    u.ft.risk = [x0, x1, x2, x3, x4, risk] →
    exec (.ftRiskQuery c) s = .next (complete c 0x701 .ok (leBytes 1 risk ++ leBytes 1 x0 ++ leBytes 1 x1 ++ leBytes 1 x2 ++
      leBytes 1 x3 ++ leBytes 1 x4 ++ leBytes 1 (u.acct (cmdA c)).thresh ++ [if (u.acct (cmdA c)).armed then 1 else 0]) u)) ∧
  (∀ (s : State) (a : Nat), s.chip.fabric.addr = some a → s.chip.power.inputPresent = true → s.ft.risk.getD 5 0 ≤ 255 →
    ∃ t fr more, exec .healthSend s = .next t ∧ t.out = s.out ++ .beacon fr :: more ∧ fr.length = 64 ∧
      fieldAt fr 14 1 = s.ft.risk.getD 5 0)

/-- When they run with legal operands: THRESH_SET sets the threshold; PLAN_SET stores a plan that is read without
error and whose layers the account can hold and returns CKPT_BYTES, and address 0 clears the plan; DEPOSIT_SET assigns
a range of the account's Vault and LEN 0 withdraws it; SECURE of a model with a plan sets a want and waits for the
flip (MODE 0), or queues a drain of a READY idle model in the order of mailbox sequence numbers (MODE 1). (R39, R432,
R434, R437, R439, R440, R446) -/
def Obligations.SecuringCommandsComplete : Prop :=
  (∀ (c : Cmd) (s u : State), Runs 0x702 c s u → cmdTail c 8 = true → cmdZ c 1 7 = true →
    exec (.ftThreshSet c) s = .next (complete c 0x702 .ok []
      (u.onAcct (cmdA c) fun a => { a with thresh := cmdU c 0 1, belowSince := none }))) ∧
  (∀ (c : Cmd) (s u : State) (k : Nat) (m : Model), u.slotOf (cmdA c) (cmdU c 0 2) = some k → u.model k = some m →
    (Runs 0x703 c s u → cmdTail c 16 = true → cmdZ c 2 6 = true → addrOk (cmdU c 8 8) = true → copying u k m = false →
      (cmdU c 8 8 = 0 → exec (.ftPlanSet c) s = .next (complete c 0x703 .ok (leBytes 8 (ckptBytes u k (m.planned none)))
        (finishWait (.secure k) .aborted [] (u.onModel k fun m =>
          { m with ft := { m.ft with plan := none, crossing := false, request := false, deferred := false } })))) ∧
      (cmdU c 8 8 ≠ 0 → let b := u.read (cmdU c 8 8) 64
        let size := ckptBytes u k (m.planned (some b))
        u.inAccount (cmdA c) (cmdU c 8 8) 64 = true → u.reads (cmdU c 8 8) 64 = true → planOk m.map.num b = true →
        (fieldAt b 2 1 = 1 → m.map.parts.length ≤ 256 ∧ fieldAt b 6 2 ≠ m.map.part ∧ fieldAt b 6 2 < m.map.parts.length) →
        (planHas b 3 = true → fieldAt b 0x18 8 ≠ 0 ∧ fieldAt b 0x10 8 + fieldAt b 0x18 8 ≤ 2 ^ 52 ∧
          inHostSpace (cmdA c) (fieldAt b 0x10 8) (fieldAt b 0x18 8) = true) →
        (planHas b 2 = true → (fieldAt b 5 1 + 1) * size ≤ strongboxBytes u (cmdA c)) →
        exec (.ftPlanSet c) s = .next (complete c 0x703 .ok (leBytes 8 size)
          ((u.onModel k fun m => m.planned (some b)).took (cmdA c) [(cmdU c 8 8, 64)])))) ∧
    (Runs 0x704 c s u → cmdTail c 20 = true → cmdZ c 5 3 = true → addrOk (cmdU c 8 8) = true → cmdU c 8 8 % 64 = 0 →
      cmdU c 4 1 < (u.acctDies (cmdA c)).length → cmdU c 2 2 < m.map.parts.length → cmdU c 2 2 ≠ m.map.part →
      let mine := fun (d : Deposit) => d.acct == cmdA c && d.model == m.map.num && d.src == cmdU c 2 2 && d.die == cmdU c 4 1
      let len := cmdU c 16 4 * 2 ^ 24
      let v := { u with ft := { u.ft with deposits := u.ft.deposits.filter fun d => !mine d } }
      (∀ d ∈ u.ft.deposits, mine d = true → d.busy = false) →
      (len = 0 → exec (.ftDepositSet c) s = .next (complete c 0x704 .ok [] v)) ∧
      (len ≠ 0 → locOf (cmdU c 8 8) = some (.vault ((u.acctDies (cmdA c)).getD (cmdU c 4 1) 8) (cmdU c 8 8 % 2 ^ 37)) →
        v.inAccount (cmdA c) (cmdU c 8 8) len = true →
        exec (.ftDepositSet c) s = .next (complete c 0x704 .ok [] { v with ft := { v.ft with deposits := v.ft.deposits ++
          [⟨cmdA c, m.map.num, cmdU c 2 2, cmdU c 4 1, cmdU c 8 8, len, false, false⟩] } }))) ∧
    (Runs 0x705 c s u → cmdTail c 8 = true → cmdZ c 3 5 = true → m.ft.plan ≠ none →
      (cmdU c 2 1 = 0 → exec (.ftSecure c) s = .next (waitsFor c 0x705 (.secure k)
        (u.onModel k fun m => { m with ft := { m.ft with request := true } }))) ∧
      (cmdU c 2 1 = 1 → m.w.ready = true → m.w.staged = false → m.led.ustate = .idle →
        u.partOf m.map.acct ∉ u.chip.power.partReset → movesFull u (u.partOf m.map.acct) = false →
        ((u.ckptsOf m.map).length + 1) * ckptBytes u k m ≤ strongboxBytes u m.map.acct →
        let o := { MoveOp.new k u.moveCtr .drain (m.ft.planU 0xC 4) with inst := nextInst u m.map.job .drain, seqno := some c.seqno }
        let earlier := fun (x : MoveOp) => !asksLater u m.map.acct c.seqno x
        exec (.ftSecure c) s = .next (waitsFor c 0x705 (.move u.moveCtr)
          ({ u with moveCtr := u.moveCtr + 1 }.onMoves (u.partOf m.map.acct) fun x =>
            { x with queue := x.queue.takeWhile earlier ++ o :: x.queue.dropWhile earlier })))))

/-- When they run with legal operands and their buffers are written without error: CKPT_LIST writes the records;
CKPT_DROP removes the checkpoint; EXPORT writes its image and returns its length; RESTORE queues the restore in the
order of mailbox sequence numbers; STATUS of a model that copies nothing says so and returns the newest steps. (R39,
R432, R434, R435, R447, R448) -/
def Obligations.CheckpointCommandsComplete : Prop :=
  ∀ (c : Cmd) (s u : State) (k : Nat) (m : Model), u.slotOf (cmdA c) (cmdU c 0 2) = some k → u.model k = some m →
    (Runs 0x706 c s u → cmdTail c 16 = true → cmdZ c 2 6 = true → addrOk (cmdU c 8 8) = true →
      let recs := (u.ckptsOf m.map).map (·.record) ++ ((u.sentOf m.map).map (·.record)).toList
      recs ≠ [] → u.inAccount (cmdA c) (cmdU c 8 8) (128 * recs.length) = true →
      u.writes (cmdU c 8 8) (128 * recs.length) = true →
      exec (.ftCkptList c) s = .next (complete c 0x706 .ok (leBytes 2 recs.length) (u.give (cmdA c) (cmdU c 8 8) recs.flatten))) ∧
    (let it := fun (k : Ckpt) => k.acct == m.map.acct && k.model == m.map.num && recSeq k.record == cmdU c 4 4
     Runs 0x707 c s u → cmdTail c 8 = true → cmdZ c 2 2 = true → u.ft.ckpts.any it = true →
      (∀ x ∈ m.ft.later, x.2.toNat ≠ cmdU c 4 4) →
      exec (.ftCkptDrop c) s = .next (complete c 0x707 .ok []
        { u with ft := { u.ft with ckpts := u.ft.ckpts.filter fun k => !it k } })) ∧
    (∀ k', Runs 0x708 c s u → cmdTail c 16 = true → cmdZ c 2 2 = true → addrOk (cmdU c 8 8) = true →
      ((u.ckptsOf m.map).find? fun k => recSeq k.record == cmdU c 4 4) = some k' →
      let b := exportImage (recordAs k'.record 3 0 (cmdU c 4 4) (BitVec.ofNat 64 (fieldAt k'.record 0x50 8))) k'.image
      cmdU c 8 8 + b.length ≤ 2 ^ 52 → inHostSpace (cmdA c) (cmdU c 8 8) b.length = true → k'.fails = false →
      u.hostWaits (cmdU c 8 8) = false → u.hostDead (cmdU c 8 8) = false →
      exec (.ftExport c) s = .next (complete c 0x708 .ok (leBytes 8 b.length)
        ((u.write (cmdU c 8 8) b).meter (cmdA c) 8 b.length 0))) ∧
    (let src := cmdU c 2 1
     let job : CopyJob := ⟨0, [], [], false, false, [], src, BitVec.ofNat 32 (cmdU c 4 4), cmdU c 8 2, cmdU c 16 8⟩
     Runs 0x709 c s u → cmdTail c 24 = true → 1 ≤ src → src ≤ 4 → cmdZ c 3 1 = true → cmdZ c 10 6 = true →
      addrOk (cmdU c 16 8) = true → (src ≠ 4 → cmdU c 16 8 = 0) → (src = 4 → imageInSpace u (cmdA c) (cmdU c 16 8) = true ∧ u.hostWaits (cmdU c 16 8) = false) →
      (src = 3 → peerHolds m.map (cmdU c 8 2) = true) →
      (src = 1 → (∃ x ∈ u.ckptsOf m.map, recStep x.record = cmdU c 4 4) ∧ ∀ x ∈ u.ckptsOf m.map,
        recStep x.record = cmdU c 4 4 → fieldAt x.record 0x28 8 = m.map.layout.toNat) → m.w.ready = true → m.led.ustate ≠ .open →
      m.led.ustate ≠ .held → u.partOf m.map.acct ∉ u.chip.power.partReset → movesFull u (u.partOf m.map.acct) = false →
      let o := { MoveOp.new k u.moveCtr .restore 0 with
                 inst := nextInst u m.map.job .restore, seqno := some c.seqno, copy := some job }
      let earlier := fun (x : MoveOp) => !asksLater u m.map.acct c.seqno x
      exec (.ftRestore c) s = .next (waitsFor c 0x709 (.move u.moveCtr)
        ({ u with moveCtr := u.moveCtr + 1 }.onMoves (u.partOf m.map.acct) fun x =>
          { x with queue := x.queue.takeWhile earlier ++ o :: x.queue.dropWhile earlier }))) ∧
    (Runs 0x70A c s u → cmdTail c 2 = true → u.movingNow k (· == .drain) = false → m.ft.later = [] → m.ft.deferred = false →
      exec (.ftStatus c) s = .next (complete c 0x70A .ok
        ([0, 0] ++ [if m.ft.wants then 1 else 0, 0] ++ m.ft.newest.flatMap fun w => leBytes 4 w.toNat) u))

/-- A layer-1 copy to the Strongbox that reads what it has left without error and commits is a checkpoint with its
record stamped with module time, and its moving operation ends; one that fails, or whose limit ends, posts
SECURE_FAILED with its status. A later layer's copy whose source is held commits in its target, and pauses while the
Ledger's microcode is activated. A deposit waits for a route to its partner. A restore from a checkpoint of this
layout writes its copy where no unit is fenced and waits for its mirrors, and once it has none left it stages the
model at the record's STEP and RUN_SEED. A DEPOSIT_LOST forgets the deposit and leaves a want; JOB_FAULT raises
PART_LOST, and so does a joined part that the Beacon shows in FAULT or not at all while no route reaches it; one that
the Beacon shows running is not lost. A failed read of the Strongbox marks the checkpoint BAD. (R435, R436, R437,
R442, R444, R445, R448, R450) -/
def Obligations.CopiesCommitFailAndRestore : Prop :=
  (∀ (slot : BitVec 6) (s : State) (m : Model) (p : Nat) (o : MoveOp) (c : CopyJob), s.model slot.toNat = some m →
    drainOf s slot.toNat = some (p, o, c) →
    (∀ u, (c.kind = 2 → depositOpen s m = true) → readLayers slot.toNat m (layersLeft m c) s = (true, u) →
      exec (.drainCommit slot .committed) s = .next (drainDone p slot.toNat m o c u)) ∧
    (c.kind = 1 → (⟨m.map.acct, m.map.num, stampRecord c.record s.mtime, c.image, false, false⟩ : Ckpt) ∈
        (drainDone p slot.toNat m o c s).ft.ckpts ∧
      ((drainDone p slot.toNat m o c s).movesOf p).running = none ∧
      ∀ k ∈ s.ft.ckpts, (k.acct ≠ m.map.acct ∨ k.model ≠ m.map.num) → k ∈ (drainDone p slot.toNat m o c s).ft.ckpts) ∧
    (∀ r, r ≠ .committed → exec (.drainCommit slot r) s = .next (drainFailed p m o c (copyStatus r) s)) ∧
    exec (.drainLimitExpiry slot) s = .next (drainFailed p m o c .timeout s) ∧
    (c.kind = 1 → ((drainFailed p m o c .timeout s).movesOf p).running = none ∧
      (drainFailed p m o c .timeout s).ft.ckpts = s.ft.ckpts)) ∧
  (∀ (slot : BitVec 6) (s : State) (m : Model) (layer : Nat) (q : Word) (others : List (Nat × Word)), s.model slot.toNat = some m →
    m.ft.later = (layer, q) :: others →
    (ledgerPaused s = true → ∀ r, exec (.laterLayerCopy slot r) s = .next s) ∧
    (ledgerPaused s = false → ∀ src, laterSource s m layer q = some src → (m.ft.planU (layer + 1) 1 = 3 →
        4096 + src.2.length ≤ m.ft.planU 0x18 8 ∧ s.hostWaits (m.ft.planU 0x10 8) = false ∧
        s.hostDead (m.ft.planU 0x10 8) = false) →
      exec (.laterLayerCopy slot .committed) s = .next (laterDone slot.toNat m layer src s)) ∧
    (ledgerPaused s = false →
      exec (.laterLayerCopy slot .noResource) s = .next (laterFailed slot.toNat m layer q .noResource s) ∧
      exec (.laterLayerCopy slot .dataError) s = .next (laterFailed slot.toNat m layer q .dataError (laterUnread m layer q s))) ∧
    (m.ft.planU layer 1 = 2 → ∀ k ∈ (laterUnread m layer q s).ft.ckpts,
      k.acct = m.map.acct → k.model = m.map.num → recSeq k.record = q.toNat → k.bad = true) ∧
    (drainOf s slot.toNat = none →
      exec (.drainLimitExpiry slot) s = .next (laterFailed slot.toNat m layer q .timeout s))) ∧
  (∀ (slot : BitVec 6) (s : State) (m : Model) (p : Nat) (o : MoveOp) (c : CopyJob) (k : Ckpt), s.model slot.toNat = some m →
    s.runningMove slot.toNat = some (p, o) → o.copy = some c → o.kind = .restore → o.stage = .moving → c.source = 1 →
    ((s.ckptsOf m.map).filter fun k => recStep k.record == c.step.toNat).getLast? = some k → k.fails = false →
    fieldAt k.record 0x28 8 = m.map.layout.toNat → bufferRead s m = false → s.keysFail (restoreKeys s slot.toNat m) = false →
    exec (.ckptRestoreDone slot none true) s = .next (tryRestoreEnd p slot.toNat (onRunning p (fun o =>
      { o with stage := .barrier, copy := some { c with record := k.record } })
      (restoreMirrors slot.toNat m (restoreCopy slot.toNat m k.image
        (s.chargeKeys .restore m.map.acct (restoreKeys s slot.toNat m)))))) ∧
    let x := m.restored k.record
    x.w.staged = true ∧ x.led.ustate = .idle ∧ x.led.calibrate = true ∧ x.led.nextStep.toNat = recStep k.record % 2 ^ 32 ∧
      x.led.seed.toNat = fieldAt k.record 0x20 8 % 2 ^ 64 ∧ x.w.epoch = m.w.epoch) ∧
  (∀ (p slot : Nat) (s : State) (m : Model) (o : MoveOp) (c : CopyJob), s.model slot = some m → (s.movesOf p).running = some o →
    o.copy = some c → o.kind = .restore → o.stage = .barrier → awaitsPeer s m.map = false → mirrorShards m.map = [] →
    tryRestoreEnd p slot s = finishWait (.move o.id) .ok (leBytes 4 (fieldAt c.record 0xC 4))
      (dropRunning p (s.onModel slot (Model.restored c.record)))) ∧
  (∀ (src part : BitVec 13) (job : Word) (s : State) (a : Nat) (js : JobSlot),
    (s.recipient src.toNat job = some (a, js) →
      exec (.jobFault src job) s = .next (losePart a job (js.partOf src.toNat) 1 (wakeUp s)) ∧
      ∀ (model : BitVec 16) (die : BitVec 3) (k : Nat) (m : Model), s.slotOf a model.toNat = some k → s.model k = some m →
        ∃ t x, exec (.depositLost src job model die) s = .next t ∧ t.model k = some x ∧
          t.ft.sent = (s.ft.sent.filter fun x => !(x.acct == a && x.model == model.toNat)) ∧
          (m.ft.plan ≠ none → x.ft.wants = true) ∧ t.mem = s.mem) ∧
    (∀ k, (s.chip.fabric.slots.find? fun x => x.2.job == job) = some (k, js) → part.toNat ∈ js.joined →
      part.toNat ≠ js.part → let a := js.table.getD part.toNat 8192
      (noRoute s a = true → beaconIll s a = true →
        exec (.partLostTimeout job part) s = .next (losePart (k / 16) job part.toNat 2 s)) ∧
      (∀ e, tget s.chip.beacon.table a = some e → e.known = true → e.mstate = 0 →
        exec (.partLostTimeout job part) s = .next s)))

/-- A unit in service that presents another state or tag on the data path than Neriv holds is FENCED, counted once and
to be reconciled; one that agrees keeps its state. The reconciliation that Neriv starts on its own shows the unit
RECONCILING. One that fails retires a unit whose views then agree; one of a port that passes with the values Neriv
wants puts it back in service; commands that wait for it complete. A lost compute die, Ledger die or HBM stack is out
of service on both views and the module shows FAULT. (R449, R501, R502, R504) -/
def Obligations.UnitsFenceReconcileAndFail : Prop :=
  (∀ (kind index data tag : BitVec 8) (s : State), s.off = false → index.toNat < unitCount kind.toNat → data.toNat < 3 →
    let u := s.unit kind.toNat index.toNat
    let u' := { u with data := data.toNat, dTag := tag.toNat }
    u.mgmt < 2 →
    (u'.disagrees = true → ∃ t, exec (.unitFence kind index data tag) s = .next t ∧
      t.unit kind.toNat index.toNat = { u' with mgmt := 2, fences := u.fences + 1, auto := true }) ∧
    (u'.disagrees = false → ∃ t, exec (.unitFence kind index data tag) s = .next t ∧ t.unit kind.toNat index.toNat = u' ∧
      t.mem = s.mem ∧ t.pkgs = s.pkgs)) ∧
  (∀ (kind index data tag : BitVec 8) (passed : Bool) (s : State), s.off = false → index.toNat < unitCount kind.toNat →
    let u := s.unit kind.toNat index.toNat
    u.mgmt = 2 → u.auto = true → ∃ t, exec (.reconciliation kind index passed data tag) s = .next t ∧
      t.unit kind.toNat index.toNat = { u with mgmt := 3, auto := false }) ∧
  (∀ (kind index data tag : BitVec 8) (s : State), s.off = false → index.toNat < unitCount kind.toNat →
    (s.unit kind.toNat index.toNat).mgmt = 3 →
    (∀ d, unitDies kind.toNat index.toNat = [d] → tag.toNat = (s.dieOwner d).getD 0xFF → data.toNat ≠ 2 →
      ∃ t, exec (.reconciliation kind index false data tag) s = .next t ∧ (t.unit kind.toNat index.toNat).mgmt = 1) ∧
    (kind = 6 → data = 0 → tag.toNat = (s.dieOwner (index.toNat / 8)).getD 0xFF → ∃ t, exec (.reconciliation kind index true data tag) s = .next t ∧
      (t.unit 6 index.toNat).mgmt = 0 ∧ (t.unit 6 index.toNat).data = 0)) ∧
  (∀ (kind index : BitVec 8) (s : State), s.off = false → index.toNat < unitCount kind.toNat → (kind = 1 ∨ kind = 4 ∨ kind = 5) →
    ∃ t, exec (.unitLost kind index) s = .next t ∧ (t.unit kind.toNat index.toNat).mgmt = 1 ∧
      (t.unit kind.toNat index.toNat).data = 1 ∧ t.chip.beacon.mstate = .fault)

/-! ## Power, resets, firmware and the life cycle (17, 18) -/

/-- When they run by a holder of the module's right: STATE_SET to another state, with nothing of R513 engaged, starts
the entry and waits; to the current state, in P0 or in a lower one, it completes OK and changes nothing, and above 3
it is BAD_ARG; QUERY returns the power record; BOUNDS_SET of legal bounds that the module can meet brings them into
force in P0; RESET COLD and WARM reset the module without a response, PARTITION resets a partition with dies and waits
for its units where any reconciles, and COLD of a module that has tripped starts it again once every sensor reads
below its limit. (R512, R514, R518, R519, R520, R521, R526, R527, R588) -/
def Obligations.PowerCommandsComplete : Prop :=
  (∀ (c : Cmd) (s u : State), Runs 0x801 c s u → cmdTail c 1 = true → 1 ≤ cmdU c 0 1 → cmdU c 0 1 ≤ 3 →
    u.hasModRight (cmdA c) = true → u.chip.power.exiting = false → u.engaged = false →
    exec (.pwrStateSet c) s = .next (waitsFor c 0x801 .power (enterPower (cmdU c 0 1) u)) ∧
    (enterPower (cmdU c 0 1) u).chip.power.target = some (cmdU c 0 1)) ∧
  (∀ (c : Cmd) (s u : State), u = dropTaken c s → outOfTurn 0x801 c s = false → stateGate (cmdA c) c.abi 0x801 u = none → lifeGate 0x801 u = none →
    cmdTail c 1 = true → u.chip.power.target = none → u.chip.power.exiting = false →
    (cmdU c 0 1 = u.chip.power.pstate → cmdU c 0 1 ≤ 3 → u.hasModRight (cmdA c) = true →
      exec (.pwrStateSet c) s = .next (complete c 0x801 .ok (leBytes 1 (cmdU c 0 1)) u)) ∧
    (3 < cmdU c 0 1 → exec (.pwrStateSet c) s = .next (complete c 0x801 .badArg [] u))) ∧
  (∀ (c : Cmd) (s u : State), Runs 0x802 c s u → cmdTail c 0 = true →
    exec (.pwrQuery c) s = .next (complete c 0x802 .ok (powerRecord u) u)) ∧
  (∀ (c : Cmd) (s u : State), Runs 0x803 c s u → cmdTail c 16 = true → cmdZ c 5 3 = true →
    let b : Bounds := ⟨cmdU c 0 2, cmdU c 2 1, cmdU c 3 1, BitVec.ofNat 4 (cmdU c 4 1), (List.range 8).map fun i => cmdU c (8 + i) 1⟩
    let full := { u.chip.power with arrBusy := List.replicate 8 1000000, vecBusy := List.replicate 8 1000000 }
    b.divFast ∈ [4, 5, 6, 8] → b.divSlow ∈ [4, 5, 6, 8] → b.divFast ≤ b.divSlow → cmdU c 4 1 < 16 → 2400 ≤ b.envelope →
    b.envelope ≤ 6000 → (∀ p ∈ b.prio, p ≤ 7) → u.hasModRight (cmdA c) = true →
    inputEstimate full (List.replicate 8 b.divSlow) ≤ b.envelope * 100000000 → b.divSlow ≤ u.chip.power.bounds.divSlow →
    exec (.pwrBoundsSet c) s = .next (complete c 0x803 .ok [] (applyBounds b u)) ∧ (applyBounds b u).chip.power.bounds = b ∧
      (applyBounds b u).chip.power.staged = none ∧ ∀ d ∈ (applyBounds b u).chip.power.div, b.divFast ≤ d) ∧
  (∀ (c : Cmd) (s u : State), Runs 0x804 c s u → s.chip.power.tripped = false → cmdTail c 2 = true → cmdU c 1 1 ≤ 7 →
    (cmdU c 0 1 = 2 → cmdU c 1 1 = 0 → u.hasModRight (cmdA c) = true →
      ∃ t, exec (.pwrReset c) s = .next t ∧ t = resetModule .cold u ∧ t.mail = Mail.reset ∧ t.pkgs = [] ∧ t.models = [] ∧
        t.cores = List.replicate 128 Core.reset ∧ t.chip.power.resetting = some .cold ∧ t.chip.fabric.addr = none ∧
        t.ft.ckpts = u.ft.ckpts ∧ t.chip.fw.floor = u.chip.fw.floor ∧ t.mtime = u.mtime) ∧
    (cmdU c 0 1 = 1 → cmdU c 1 1 = 0 → u.hasModRight (cmdA c) = true →
      ∃ t, exec (.pwrReset c) s = .next t ∧ t = resetModule .warm u ∧ t.mail = Mail.reset ∧ t.pkgs = [] ∧ t.models = [] ∧
        t.chip.power.resetting = some .warm ∧ t.chip.fabric.addr = u.chip.fabric.addr ∧ t.ten.grants = u.ten.grants ∧
        t.ft.ckpts = u.ft.ckpts ∧ t.mtime = u.mtime) ∧
    (cmdU c 0 1 = 3 → (u.hasModRight (cmdA c) = true ∨ u.hasPartRight (cmdA c) (cmdU c 1 1) = true) →
      u.partDies (cmdU c 1 1) ≠ [] → cmdU c 1 1 ∉ u.chip.power.partReset →
      (cmdU c 1 1 ∈ (resetPartition (cmdU c 1 1) u).chip.power.partReset → exec (.pwrReset c) s =
        .next (waitsFor c 0x804 (.partition (cmdU c 1 1)) (resetPartition (cmdU c 1 1) u))) ∧
      (cmdU c 1 1 ∉ (resetPartition (cmdU c 1 1) u).chip.power.partReset → exec (.pwrReset c) s =
        .next (complete c 0x804 .ok [] (resetPartition (cmdU c 1 1) u))))) ∧
  (∀ (c : Cmd) (s : State), s.chip.power.tripped = true → s.chip.power.inputPresent = true → cmdTail c 2 = true →
    cmdU c 0 1 = 2 → cmdU c 1 1 = 0 →
    (s.chip.power.cool = true → ∃ t, exec (.pwrReset c) s = .next t ∧ t.chip.power.tripped = false ∧
      t.chip.power.resetting = some .cold ∧ t.mtime = s.mtime) ∧
    (s.chip.power.cool = false → exec (.pwrReset c) s = .next s))

/-- When they run by a holder of the module's right where one is needed: FW_WRITE of an image that passes every check
programs it in both mirrors, where it is CURRENT and the old CURRENT copy PREVIOUS; FW_ACTIVATE of stale types starts
the activation and waits; FW_QUERY returns the record; FW_FLOOR_RAISE above the floor and not above an image blows the
floor; FW_LOCK sets OWNER_LOCK in OWNED, answers ALREADY_DONE where it is set, and FW_WRITE, FW_ACTIVATE and
FW_FLOOR_RAISE of legal fields are then DENIED; LC_NONCE gives a fresh nonce; LC_CHANGE with a token that verifies
under the key of R548 clears OWNER_LOCK (UNLOCK), or changes the state, clears the lock and every right, and ends
without a response. (R537, R538, R540, R541, R543, R546, R548, R549, R550, R551) -/
def Obligations.FirmwareAndLifeCycleCommandsComplete : Prop :=
  (∀ (c : Cmd) (s u : State), Runs 0x901 c s u → cmdTail c 12 = true → addrOk (cmdU c 0 8) = true → 320 ≤ cmdU c 8 4 →
    u.hasModRight (cmdA c) = true → inHostSpace (cmdA c) (cmdU c 0 8) (cmdU c 8 4) = true →
    u.reads (cmdU c 0 8) (cmdU c 8 4) = true →
    let h := u.read (cmdU c 0 8) 256
    headerOk h (cmdU c 8 4) = true →
    (u.chip.fw.lock = true → exec (.fwWrite c) s = .next (complete c 0x901 .denied [] u)) ∧
    (u.chip.fw.lock = false → u.chip.fw.busy = false → u.unsettled = false →
      Config.sha384 (u.read (cmdU c 0 8 + 256) (cmdU c 8 4 - 256)) = (h.drop 0x10).take 48 →
      Config.sigVerifies Config.vendorKey (h.take 128) ((h.drop 0x80).take 96) = true → u.chip.fw.floor ≤ fieldAt h 8 2 →
      exec (.fwWrite c) s = .next (complete c 0x901 .ok
        (leBytes 1 (fieldAt h 2 1) ++ [0] ++ leBytes 2 (fieldAt h 8 2) ++ leBytes 4 (fieldAt h 4 4))
        (u.onFwType (fieldAt h 2 1 - 1) fun t =>
          let i : Image := ⟨h, u.read (cmdU c 0 8 + 256) (cmdU c 8 4 - 256), BitVec.ofNat 32 (fieldAt h 4 4), fieldAt h 8 2⟩
          { t with cur := some i, prev := t.cur, cur2 := some i, prev2 := t.cur2 })))) ∧
  (∀ (c : Cmd) (s u : State), Runs 0x902 c s u → cmdTail c 1 = true → 1 ≤ cmdU c 0 1 → cmdU c 0 1 < 8 →
    u.hasModRight (cmdA c) = true →
    let left := [1, 2, 0].filter fun t => (cmdU c 0 1).testBit t && (u.fwType t).cur != some (u.fwType t).run
    (u.chip.fw.lock = true → exec (.fwActivate c) s = .next (complete c 0x902 .denied [] u)) ∧
    (u.chip.fw.lock = false → u.chip.fw.busy = false → u.unsettled = false → left ≠ [] →
      ∃ v, exec (.fwActivate c) s = .next (waitsFor c 0x902 .activate v) ∧ v.chip.beacon.mstate = .maintenance ∧
        ∃ x, v.chip.fw.activation = some x ∧ x.left = left ∧ x.done = [])) ∧
  (∀ (c : Cmd) (s u : State), Runs 0x903 c s u → cmdTail c 0 = true →
    exec (.fwQuery c) s = .next (complete c 0x903 .ok (fwRecord u) u)) ∧
  (∀ (c : Cmd) (s u : State), Runs 0x904 c s u → cmdTail c 2 = true → 1 ≤ cmdU c 0 2 → cmdU c 0 2 ≤ 64 →
    u.hasModRight (cmdA c) = true →
    (u.chip.fw.lock = true → exec (.fwFloorRaise c) s = .next (complete c 0x904 .denied [] u)) ∧
    (u.chip.fw.lock = false → cmdU c 0 2 ≤ u.chip.fw.floor →
      exec (.fwFloorRaise c) s = .next (complete c 0x904 .alreadyDone [] u)) ∧
    (u.chip.fw.lock = false → u.chip.fw.floor < cmdU c 0 2 →
      (∀ t ∈ u.chip.fw.types, cmdU c 0 2 ≤ t.run.svn ∧ ∀ i, t.cur = some i → cmdU c 0 2 ≤ i.svn) →
      exec (.fwFloorRaise c) s = .next (complete c 0x904 .ok (leBytes 2 (cmdU c 0 2))
        (u.onFw fun f => { f with floor := cmdU c 0 2 })))) ∧
  (∀ (c : Cmd) (s u : State), Runs 0x905 c s u → cmdTail c 0 = true → u.hasModRight (cmdA c) = true →
    (u.chip.fw.lifecycle ≠ .owned → exec (.fwLock c) s = .next (complete c 0x905 .refusedState [] u)) ∧
    (u.chip.fw.lifecycle = .owned → u.chip.fw.lock = true → exec (.fwLock c) s = .next (complete c 0x905 .alreadyDone [] u)) ∧
    (u.chip.fw.lifecycle = .owned → u.chip.fw.lock = false →
      exec (.fwLock c) s = .next (complete c 0x905 .ok [] (u.onFw fun f => { f with lock := true })))) ∧
  (∀ (c : Cmd) (s u : State), Runs 0x906 c s u → cmdTail c 0 = true →
    exec (.lcNonce c) s = .next (complete c 0x906 .ok (leBytes 8 (Config.nonce u.freeCtr).toNat)
      ({ u with freeCtr := u.freeCtr + 1 }.onFw fun f => { f with nonce := some (Config.nonce u.freeCtr) }))) ∧
  (∀ (c : Cmd) (s u : State) (to_ : LifeCycle) (key : Bytes), Runs 0x907 c s u → cmdTail c 8 = true →
    addrOk (cmdU c 0 8) = true → inHostSpace (cmdA c) (cmdU c 0 8) 256 = true → u.reads (cmdU c 0 8) 256 = true →
    let t := u.read (cmdU c 0 8) 256
    tokenOk t = true → transition (fieldAt t 2 1) u.chip.fw.lifecycle t u.chip.fw.ownerKey = some (to_, key) →
    fieldAt t 8 8 = Config.serial.toNat → u.chip.fw.nonce = some (BitVec.ofNat 64 (fieldAt t 0x10 8)) →
    Config.sigVerifies key (t.take 128) ((t.drop 0x80).take 96) = true → (fieldAt t 2 1 = 2 → u.chip.fw.claims ≠ 0) →
    u.chip.fw.busy = false → u.moving = false →
    (fieldAt t 2 1 = 5 → exec (.lcChange c) s = .next (complete c 0x907 .ok []
      (u.onFw fun f => { f with lock := false, nonce := none }))) ∧
    (fieldAt t 2 1 ≠ 5 → ∃ v, exec (.lcChange c) s = .next v ∧ v.chip.fw.lifecycle = to_ ∧ v.chip.fw.lock = false ∧
      v.chip.fw.nonce = none ∧ v.chip.fw.claims = u.chip.fw.claims - (if fieldAt t 2 1 = 2 then 1 else 0) ∧
      v.ten.grants = [] ∧ v.ten.modRight = none ∧ v.chip.fabric.addr = none ∧ v.ft.ckpts = [] ∧ v.mail = Mail.reset ∧
      v.chip.fw.floor = u.chip.fw.floor ∧ v.mtime = u.mtime ∧ v.ten.gaps = 0))

/-- A wake in a low power state starts the exit, and one during an entry is latched; light wakes from P3 through an
enabled dark host port. The end of an entry is the state, and the end of an exit is P0 with every held command taken
again. The governor outside P0 only notes its measures; in P0 above the envelope it slows dies, makes none faster, and
leaves to rise only dies that are slower than DIV_SLOW. A divider step moves one die one step. A hot die and an
over-current go to divider 8 under an override, and a sensor that is hot again at divider 8 halts its die; once an
over-current has cleared the dividers stand until they rise. A droop is counted with its time where the last was 10 µs
ago. (R397, R509, R512, R514, R515, R522, R523, R525, R585) -/
def Obligations.PowerEventsTakeEffect : Prop :=
  (∀ s : State,
    (s.chip.power.pstate ≠ 0 → s.chip.power.target = none → ∃ t, exec .wake s = .next t ∧ t.chip.power.exiting = true ∧
      t.chip.power.target = some 0 ∧ t.chip.power.pstate = s.chip.power.pstate) ∧
    (∀ x, s.chip.power.target = some x → s.chip.power.exiting = false → ∃ t, exec .wake s = .next t ∧
      t.chip.power = { s.chip.power with wakeLatch := true }) ∧
    (∀ port : BitVec 2, s.chip.power.pstate = 3 → s.chip.power.target = none → (s.port (64 + port.toNat)).state = .dark →
      s.chip.power.bounds.wake.getLsbD port.toNat = true → ∃ t, exec (.wakeOnLight port) s = .next t ∧
      t.chip.power.exiting = true ∧ t.chip.power.target = some 0) ∧
    (∀ x, s.chip.power.target = some x → s.chip.power.exiting = false → s.chip.power.wakeLatch = false →
      ∃ t, exec .powerEntryDone s = .next t ∧ t.chip.power.pstate = x ∧ t.chip.power.target = none ∧
        ∀ w ∈ t.mail.waiting, w.key ≠ .power) ∧
    (s.chip.power.exiting = true → ∃ t, exec .powerExitDone s = .next t ∧ t.chip.power.pstate = 0 ∧
      t.chip.power.target = none ∧ t.chip.power.exiting = false ∧ t.chip.power.staged = none ∧ t.mail.heldWake = [] ∧
      ∀ h ∈ s.mail.heldWake, cmdA h.cmd < s.mail.funcs.length → h ∈ (t.func (cmdA h.cmd)).taken)) ∧
  (∀ (arrays vectors : List Nat) (w : Nat) (s : State), s.off = false →
    (s.chip.power.pstate ≠ 0 → ∃ t, exec (.governorEval arrays vectors w) s = .next t ∧
      t.chip.power.inputs = (w :: s.chip.power.inputs).take 100 ∧
      t.chip.power.div = s.chip.power.div ∧ t.chip.power.rising = s.chip.power.rising) ∧
    (s.chip.power.pstate = 0 → s.chip.power.bounds.envelope < w → ∃ t, exec (.governorEval arrays vectors w) s = .next t ∧
      t.chip.power.inputs = (w :: s.chip.power.inputs).take 100 ∧
      t.chip.power.rising = ((s.chip.power.rising.filter fun x =>
        decide (s.chip.power.bounds.divSlow < s.chip.power.div.getD x.1 4)).map fun x => (x.1, s.chip.power.bounds.divSlow)) ∧
      t.chip.power.div.length = s.chip.power.div.length ∧
      ∀ (d x y : Nat), s.chip.power.div[d]? = some x → x ∈ [4, 5, 6, 8] → t.chip.power.div[d]? = some y → x ≤ y)) ∧
  (∀ (die : BitVec 3) (s : State) (x to_ : Nat), s.off = false → tget s.chip.power.rising die.toNat = some to_ →
    s.chip.power.div[die.toNat]? = some x → ∃ t, exec (.dividerStep die) s = .next t ∧
      t.chip.power.div[die.toNat]? = some (faster x) ∧ (∀ d, d ≠ die.toNat → t.chip.power.div[d]? = s.chip.power.div[d]?) ∧
      (faster x ≤ to_ → tget t.chip.power.rising die.toNat = none)) ∧
  (∀ (i : BitVec 3) (n : BitVec 2) (s : State), s.off = false → i.toNat < s.chip.power.div.length →
    ((∀ x ∈ s.chip.power.override.dies, x.1 ≠ i.toNat) →
      ∃ t, exec (.thermalOverride (.die i n)) s = .next t ∧ t.chip.power.div[i.toNat]? = some 8 ∧
        (i.toNat, n.toNat) ∈ t.chip.power.override.dies ∧ t.chip.power.ovrSince ≠ none) ∧
    ((i.toNat, n.toNat) ∈ s.chip.power.override.dies → ∃ t, exec (.thermalOverride (.die i n)) s = .next t ∧
      (i.toNat, n.toNat) ∈ t.chip.power.override.halted ∧ t.chip.power.div = s.chip.power.div)) ∧
  (∀ s : State, s.off = false → s.chip.power.override.current = false → s.chip.power.div.length = 8 →
    ∃ t, exec .currentOverride s = .next t ∧ t.chip.power.override.current = true ∧ t.chip.power.ovrSince ≠ none ∧
      ∀ d ∈ t.chip.power.div, d = 8) ∧
  (∀ s : State, s.off = false → s.chip.power.override.current = true → ∃ t, exec (.overrideClear .current) s = .next t ∧
    t.chip.power.override.current = false ∧ t.chip.power.override.dies = s.chip.power.override.dies ∧
    t.chip.power.div = s.chip.power.div) ∧
  (∀ s : State, s.off = false → ∃ t, exec (.supplyDroop false) s = .next t ∧ t.chip.power.droopAt = some s.mtime ∧
    ((∀ x, s.chip.power.droopAt = some x → x.toNat + 10000 ≤ s.mtime.toNat) → s.mtime ∈ t.chip.power.droops) ∧
    t.chip.power.div = s.chip.power.div ∧ t.chip.power.override = s.chip.power.override)

/-- The loss of the input and a thermal trip leave what a COLD reset keeps; the return of the input after a loss
starts a COLD reset at module time 0. MAILBOX_READY ends a start-up: READY is set on every function that exists, and a
type whose CURRENT copy did not report ready in time falls back to its PREVIOUS copy. A ready image ends its type, a
failed one ends the activation and puts the old image back, and a relit group lets the next go dark. MAILBOX_RESUMED
ends every pause. A FUNCTION reset gives a function's registers their reset values and forgets its commands; a hot
reset and a link disable do so for the port's. VF_DISABLE lowers and VF_ENABLE raises the number of virtual functions.
The end of a stop procedure completes the commands that wait for it. (R382, R456, R471, R487, R506, R526, R531, R539,
R543, R544, R588) -/
def Obligations.ResetsStartUpAndFunctionsTakeEffect : Prop :=
  (∀ s : State,
    (s.chip.power.inputPresent = true → ∃ t, exec .powerInputLoss s = .next t ∧ t.chip.power.inputPresent = false ∧
      t.pkgs = [] ∧ t.models = [] ∧ t.mail = Mail.reset ∧ t.ft.ckpts = s.ft.ckpts ∧ t.chip.fw.floor = s.chip.fw.floor) ∧
    (s.chip.power.inputPresent = true → s.chip.power.tripped = false → ∃ t, exec .thermalTrip s = .next t ∧
      t.chip.power.tripped = true ∧ t.chip.beacon.mstate = .fault ∧ t.pkgs = [] ∧ t.mail = Mail.reset ∧
      t.chip.fabric.addr = s.chip.fabric.addr ∧ t.mtime = s.mtime) ∧
    (s.chip.power.inputPresent = false → ∃ t, exec .powerInputEnter s = .next t ∧ t.mtime = 0 ∧
      t.chip.power.inputPresent = true ∧ t.chip.power.resetting = some .cold ∧ t.ft.ckpts = s.ft.ckpts) ∧
    (∀ k, s.chip.power.resetting = some k → ∃ t, exec .mailboxReady s = .next t ∧ t.chip.power.resetting = none ∧
      t.chip.power.mailboxReady = true ∧ t.chip.fw = ((lateTypes (Config.freeValue s.freeCtr)).foldl fallBack (finishWipe s)).chip.fw ∧
      ∀ fn < s.mail.funcs.length, s.fnExists fn = true → (t.func fn).ready = true) ∧
    (∀ x, s.chip.fw.activation = some x →
      (x.left.headD 0 ≠ 2 → exec (.firmwareReady true) s = .next (typeDone s)) ∧
      (exec (.firmwareReady false) s = .next (typeFails s) ∧ (typeFails s).chip.fw.activation = none) ∧
      (∀ g g' rest, x.left.headD 0 = 2 → x.groups = g :: g' :: rest → ∃ t, exec .opticsGroupRelit s = .next t ∧
        ∃ y, t.chip.fw.activation = some y ∧ y.groups = g' :: rest ∧ y.groupsDone = x.groupsDone ++ [g] ∧ y.left = x.left)) ∧
    (∃ t, exec .mailboxResumed s = .next t ∧ ∀ fn < 1024, (t.func fn).paused = false)) ∧
  (∀ (fn : BitVec 10) (s : State), s.off = false → s.fnExists fn.toNat = true → (s.acct fn.toNat).state = .enabled →
    fn.toNat < s.mail.funcs.length → ∃ t, exec (.functionLevelReset fn) s = .next t ∧
      t.func fn.toNat = Func.reset ∧ (∀ w ∈ t.mail.waiting, cmdA w.cmd ≠ fn.toNat) ∧
      (t.acct fn.toNat).state = .stopping ∧ (t.acct fn.toNat).causes.reset = true) ∧
  (∀ (port : BitVec 2) (s : State), s.off = false →
    exec (.hotReset port) s = .next (portReset port.toNat s) ∧
    (port.toNat < s.chip.links.length → (s.link port.toNat).up = true → ∃ t, exec (.linkDisable port) s = .next t ∧
      (t.link port.toNat).up = false ∧ (t.link port.toNat).numVfs = (s.link port.toNat).numVfs) ∧
    (∀ num : BitVec 8, port.toNat < s.chip.links.length →
      (∃ t, exec (.vfDisable port num) s = .next t ∧
        (t.link port.toNat).numVfs = min (s.link port.toNat).numVfs num.toNat) ∧
      (∃ t, exec (.vfEnable port num) s = .next t ∧
        (t.link port.toNat).numVfs = max (s.link port.toNat).numVfs num.toNat))) ∧
  (∀ (a : BitVec 10) (s : State), (s.acct a.toNat).state = .stopping → a.toNat < s.ten.accts.length →
    ∃ t, exec (.functionStopDone a) s = .next t ∧ (t.acct a.toNat).state ≠ .stopping ∧
      (∀ w ∈ t.mail.waiting, w.key ≠ .acctStop a.toNat) ∧ (∀ p ∈ t.pkgs, p.id.acct.toNat ≠ a.toNat))

/-! ## Ports, the Beacon and the fabric (12, 13) -/

/-- When they run with legal operands by a caller that may: QUERY writes the port's record; BOUNDS_SET sets the
bounds, and the launch power of a lit port under no protection lies in them; ENABLE 0 of a lit port darkens it under
cause 2 with a HEALTH frame, one of a port dark for other causes adds cause 2 to them, with a HEALTH frame where LIT
changes, and ENABLE 1 of a port dark under cause 2 alone lights it again; STATUS writes the entries of a range of
addresses; SEND by a module that has an address emits a frame of the kind asked for. (R377, R390, R391, R393, R395,
R396) -/
def Obligations.PortAndBeaconCommandsComplete : Prop :=
  (∀ (c : Cmd) (s u : State), Runs 0xB01 c s u → cmdTail c 16 = true → cmdZ c 1 7 = true → cmdU c 0 1 < 69 →
    addrOk (cmdU c 8 8) = true →
    (if cmdU c 0 1 < 64 then mayPort c (cmdU c 0 1) u
      else if cmdU c 0 1 < 68 then portOf (cmdA c) == cmdU c 0 1 - 64 else mayBeacon c u) = true →
    u.inAccount (cmdA c) (cmdU c 8 8) 64 = true → u.writes (cmdU c 8 8) 64 = true →
    exec (.portQuery c) s = .next (complete c 0xB01 .ok [] (u.give (cmdA c) (cmdU c 8 8) (portRecord u (cmdU c 0 1))))) ∧
  (∀ (c : Cmd) (s u : State), Runs 0xB02 c s u → cmdTail c 8 = true → cmdZ c 1 1 = true → cmdZ c 6 2 = true → cmdU c 0 1 < 68 →
    let lo := BitVec.ofNat 16 (cmdU c 2 2)
    let hi := BitVec.ofNat 16 (cmdU c 4 2)
    boundOk lo = true → boundOk hi = true → lo.toInt ≤ hi.toInt → mayPort c (cmdU c 0 1) u = true →
    cmdU c 0 1 < u.chip.ports.length →
    ∃ t, exec (.portBoundsSet c) s = .next (complete c 0xB02 .ok [] t) ∧ (t.port (cmdU c 0 1)).lo = lo ∧
      (t.port (cmdU c 0 1)).hi = hi ∧
      ((u.port (cmdU c 0 1)).lamA ≠ 0 → (u.port (cmdU c 0 1)).override = false → lo.toInt ≤ (t.port (cmdU c 0 1)).tx.toInt ∧ (t.port (cmdU c 0 1)).tx.toInt ≤ hi.toInt) ∧
      (∀ p, p ≠ cmdU c 0 1 → t.port p = u.port p)) ∧
  (∀ (c : Cmd) (s u : State), Runs 0xB03 c s u → cmdTail c 8 = true → cmdZ c 2 6 = true → cmdU c 0 1 < 64 →
    mayPort c (cmdU c 0 1) u = true → cmdU c 0 1 < u.chip.ports.length →
    (cmdU c 1 1 = 0 → portMoving u (cmdU c 0 1) = false → (u.port (cmdU c 0 1)).causes = [] →
      ∃ t, exec (.portEnable c) s = .next (complete c 0xB03 .ok [] t) ∧ (t.port (cmdU c 0 1)).state = .dark ∧
        (t.port (cmdU c 0 1)).cause = 2 ∧ (∀ r ∈ t.chip.fabric.routes, cmdU c 0 1 ∉ r.2.ports) ∧
        ∀ p, p ≠ cmdU c 0 1 → t.port p = u.port p) ∧
    (cmdU c 1 1 = 0 → portMoving u (cmdU c 0 1) = false → (u.port (cmdU c 0 1)).causes ≠ [] →
      2 ∉ (u.port (cmdU c 0 1)).causes → exec (.portEnable c) s = .next (complete c 0xB03 .ok []
        (tellLit u (u.onPort (cmdU c 0 1) fun x => { x with causes := x.causes ++ [2] })))) ∧
    (cmdU c 1 1 = 1 → (u.port (cmdU c 0 1)).causes = [2] →
      ∃ t, exec (.portEnable c) s = .next (complete c 0xB03 .ok [] t) ∧ (t.port (cmdU c 0 1)).state = .seeking ∧
        (t.port (cmdU c 0 1)).causes = [])) ∧
  (∀ (c : Cmd) (s u : State), Runs 0xB04 c s u → cmdTail c 16 = true → cmdZ c 4 4 = true → addrRange c = true →
    addrOk (cmdU c 8 8) = true → mayBeacon c u = true → u.inAccount (cmdA c) (cmdU c 8 8) (16 * cmdU c 2 2) = true →
    u.writes (cmdU c 8 8) (16 * cmdU c 2 2) = true →
    exec (.beaconStatus c) s = .next (complete c 0xB04 .ok (leBytes 2 (cmdU c 2 2))
      (u.give (cmdA c) (cmdU c 8 8) ((List.range (cmdU c 2 2)).flatMap fun i => entryBytes u (cmdU c 0 2 + i))))) ∧
  (∀ (c : Cmd) (s u : State), Runs 0xB05 c s u → cmdTail c 4 = true → cmdU c 0 2 / 2 ^ 13 % 4 = 0 → mayBeacon c u = true →
    u.chip.fabric.addr ≠ none →
    (cmdU c 2 1 = 1 ∧ cmdU c 3 1 = 0 ∨ cmdU c 2 1 = 2 ∧ 1 ≤ cmdU c 3 1 ∧ cmdU c 3 1 ≤ 3) →
    exec (.beaconSend c) s = .next (complete c 0xB05 .ok []
      (sendFrame (cmdU c 2 1 + 2) (cmdU c 0 2) (leBytes 1 (cmdU c 3 1)) u)))

/-- A failed FLIT of a lit port counts a replay; more than 16 within 1 ms retrain the port, and a lost lock retrains
it at once; a retrain counts for the risk estimate. A lit port of an addressed module under no protection whose eight
wavelengths train to an addressed peer comes UP, with half of them DEGRADED; during a start-up, what trains shows that
the ports are lit. A port that is down seeks on all its wavelengths and leaves every route, and a retry lights them
all again. A laser that is held under its bound puts its port in SAFETY; a laser fault darkens its port under cause 6
and counts for the risk estimate. A host link that goes down loses its rate and begins an outage, which fails after 50
ms; a link that trains, in Flit Mode at 64 and 128 GT/s alone, is UP with its rate, its width's wavelengths and no
outage; a failed attempt counts a retrain. After 50 ms what waits, for one die or for all, for a route that no
candidate port takes there fails. (R24, R375, R376, R379, R380, R383, R387, R388, R390, R404, R408, R458) -/
def Obligations.PortEventsTakeEffect : Prop :=
  (∀ (port : BitVec 6) (s : State), port.toNat < s.chip.ports.length →
    let p := port.toNat
    let x := s.port p
    let recent := (x.recent.filter fun t => decide (s.mtime.toNat < t.toNat + 1000000)) ++ [s.mtime]
    (recent.length ≤ 16 → x.cause = 0 → ∃ t, exec (.flitCrcFail port) s = .next t ∧
      t.port p = { x with replays := x.replays + 1, recent := recent }) ∧
    (16 < recent.length → x.cause = 0 → ∃ t, exec (.flitCrcFail port) s = .next t ∧
      t.port p = Port.goes { x with replays := x.replays + 1, retrains := x.retrains + 1, recent := [] } .seeking) ∧
    (x.cause = 0 → ∃ t, exec (.portRetrain port) s = .next t ∧
      t.port p = Port.goes { x with retrains := x.retrains + 1, recent := [] } .seeking ∧ s.mtime ∈ t.ft.retrains) ∧
    (Port.goes x .seeking).before = .seeking ∧ (Port.goes x .seeking).state = (if x.override = true then .safety else .seeking) ∧
    (x.cause = 0 → ∃ t, exec (.portDown port) s = .next t ∧ (t.port p).state = (x.goes .seeking).state ∧
      (t.port p).lamA = 0xFF &&& ~~~x.offA ∧
      ∀ r ∈ t.chip.fabric.routes, p ∉ r.2.ports) ∧
    (x.cause = 0 → x.state = .seeking → ∃ t, exec (.seekingRetry port) s = .next t ∧ t.port p = x.shine 0xFF 0) ∧
    (∀ (peer : BitVec 13) (pp : BitVec 6) (tx rx : BitVec 16), let x := (lightUp s).port p
      x.cause = 0 → x.override = false → x.offA = 0 → x.offB = 0 → s.chip.fabric.addr ≠ none →
      (∃ t, exec (.portTrained port 0xFF (some peer) pp tx rx) s = .next t ∧
        t.port p = { x with state := .up, before := .up, lamA := 0xFF, lamB := 0, tx := x.held tx, rx := rx,
                            peer := some peer.toNat, peerPort := pp.toNat }) ∧
      (∃ t, exec (.portTrained port 0x1F (some peer) pp tx rx) s = .next t ∧
        t.port p = { x with state := .degraded, before := .degraded, lamA := 0x0F, lamB := 0, tx := x.held tx, rx := rx,
                            peer := some peer.toNat, peerPort := pp.toNat }) ∧
      (x.lo.toInt ≤ x.hi.toInt → x.lo.toInt ≤ (x.held tx).toInt ∧ (x.held tx).toInt ≤ x.hi.toInt) ∧
      (∃ t, exec (.portTrained port 0xF3 (some peer) pp tx rx) s = .next t ∧ (t.port p).lamA = 0xF0) ∧
      (∃ t, exec (.portTrained port 0x77 (some peer) pp tx rx) s = .next t ∧ (t.port p).state = .seeking))) ∧
  (∀ (port : BitVec 7) (l : BitVec 4) (s : State), port.toNat < 68 → port.toNat < s.chip.ports.length →
    (∀ off, (s.port port.toNat).cause = 0 → ∃ t, exec (.laserProtect port l off) s = .next t ∧
      (t.port port.toNat).state = .safety ∧ (t.port port.toNat).override = true ∧
      port.toNat ∈ t.chip.power.override.lasers ∧ t.freeCtr = s.freeCtr + 1) ∧
    (s.off = false → ∃ t, exec (.laserFault port l) s = .next t ∧ 6 ∈ (t.port port.toNat).causes ∧ t.ft.laserDark = some s.mtime ∧
      ((s.port port.toNat).causes = [] → (t.port port.toNat).state = .dark))) ∧
  (∀ (port : BitVec 2) (s : State), port.toNat < s.chip.links.length → 64 + port.toNat < s.chip.ports.length →
    let n := port.toNat
    ((s.link n).up = true → ∃ t, exec (.hostLinkDown port) s = .next t ∧ (t.link n).up = false ∧ (t.link n).rate = 0 ∧
      (t.link n).outage = some (s.mtime, false) ∧ ∀ f < 256, 256 * n + f ∈ t.mail.downSeen) ∧
    (∀ (rate : BitVec 3) (width : BitVec 2) (flit sris : Bool), 1 ≤ rate.toNat → rate.toNat ≤ 4 → width ≠ 0 → flit = decide (3 ≤ rate.toNat) →
      let x := (lightUp s).port (64 + n)
      x.cause = 0 → x.override = false → x.offA = 0 → x.offB = 0 → ∃ t, exec (.hostLinkUp port rate width flit sris) s = .next t ∧ (t.link n).up = true ∧
        (t.link n).rate = rate.toNat ∧ (t.link n).width = width.toNat ∧ (t.link n).outage = none ∧
        (t.port (64 + n)).state = .up ∧ (t.port (64 + n)).lamA = (if width = 1 then 0x0F else 0xFF) ∧
        (t.port (64 + n)).lamB = (if width = 3 then 0xFF else 0) ∧ (s.ten.modRight = none → s.chip.power.mailboxReady = true → t.ten.modRight ≠ none) ∧
        (∀ a, s.ten.modRight = some a → t.ten.modRight = some a)) ∧
    (∀ x, (s.link n).outage = some x → ∃ t, exec (.hostOutageTimeout port) s = .next t ∧
      (t.link n).outage = some (x.1, true)) ∧
    (((lightUp s).port (64 + n)).cause = 0 → ∃ t, exec (.hostLinkTrainFail port) s = .next t ∧ (t.port (64 + n)).retrains = (s.port (64 + n)).retrains + 1 ∧
      ((s.link n).retrains ≠ 0xFF → (t.link n).retrains = (s.link n).retrains + 1))) ∧
  (∀ (dst : BitVec 13) (s : State),
    let v := (s.pkgs.filterMap fun p => if !p.running then none else
      (p.descs.find? fun d => waitsRoute s p d dst.toNat).map fun d => (p.id, p.die d)).foldl (fun s x => structFail x.1 x.2 s) s
    let lost := s.chip.fabric.waits.filter fun w => w.msg.dst == dst.toNat && w.msg.vc != 3 && !w.open s
    let w := dropRouteWaits dst.toNat v
    exec (.routeWaitTimeout dst) s = .next (w.models.foldl (copyUnreached dst.toNat lost) w) ∧
    (∀ x ∈ w.chip.fabric.waits, x.msg.dst = dst.toNat → x.msg.vc = 3 ∨ x.open v = true))

/-- A frame with a bad CRC or a reserved value is dropped and counted. An ENUM frame gives a module without an address
VALUE + 1 and goes on; one with an address keeps it. A HEALTH frame of another module is entered in the status table.
A WAKE frame for the module wakes it, its own frame come round included. A SLEEP frame that the module's right does
not allow is counted. An aged entry is UNKNOWN; a break makes every entry UNKNOWN and posts BEACON_BREAK, and light
posts the end. ENUM_TIMEOUT ends the round with TIMEOUT, and addresses stand. (R392, R393, R395, R396, R400, R401) -/
def Obligations.BeaconFramesTakeEffect : Prop :=
  (∀ (frame : BitVec 512) (s : State), s.chip.power.inputPresent = true →
    let b := leBytes 64 frame.toNat
    (frameCrcOk b = false ∨ frameFieldsOk b = false →
      exec (.beaconHealth frame) s = .next (dropFrame s) ∧ (dropFrame s).chip.beacon.dropped = s.chip.beacon.dropped + 1) ∧
    (frameCrcOk b = true → frameFieldsOk b = true → s.chip.fabric.addr ≠ some (fieldAt b 4 2) →
      (fieldAt b 0 1 = 1 → s.chip.fabric.addr = none → fieldAt b 0xC 2 < 8191 →
        ∃ t, exec (.beaconEnum frame) s = .next t ∧ t.chip.fabric.addr = some (fieldAt b 0xC 2 + 1) ∧
          t.chip.fabric.lastRound.toNat = fieldAt b 0x10 4 ∧ t.mem = s.mem) ∧
      (∀ a, fieldAt b 0 1 = 1 → s.chip.fabric.addr = some a → ∃ t, exec (.beaconEnum frame) s = .next t ∧
        t.chip.fabric.addr = some a ∧ t.mem = s.mem) ∧
      (fieldAt b 0 1 = 2 → ∃ t, exec (.beaconHealth frame) s = .next t ∧
        tget t.chip.beacon.table (fieldAt b 4 2) = some ⟨fieldAt b 0xC 1, fieldAt b 0xD 1, fieldAt b 0xE 1, fieldAt b 0xF 1,
          fieldAt b 0x10 2, fieldAt b 0x12 2, s.mtime, true⟩ ∧ t.chip.fabric = s.chip.fabric) ∧
      (fieldAt b 0 1 = 3 → frameForUs s b = true → ∃ t, exec (.beaconWake frame) s = .next t ∧
        t.chip.power = (wakeUp s).chip.power) ∧
      (fieldAt b 0 1 = 4 → frameForUs s b = true → s.ten.modRight = none → ∃ t, exec (.beaconSleep frame) s = .next t ∧
        t.chip.beacon.sleepIgnored = s.chip.beacon.sleepIgnored + 1 ∧ t.chip.power = s.chip.power) ∧
      (∀ a, fieldAt b 0 1 = 4 → frameForUs s b = true → s.ten.modRight = some a → (s.acct a).remoteSleep = true →
        (s.acct a).state = .enabled → 1 ≤ fieldAt b 0xC 1 → fieldAt b 0xC 1 ≤ 3 → s.chip.power.exiting = false →
        s.engaged = false → s.chip.power.pstate = 0 → s.chip.power.target = none →
        ∃ t, exec (.beaconSleep frame) s = .next t ∧ t.chip.power = (enterPower (fieldAt b 0xC 1) s).chip.power)) ∧
    (frameCrcOk b = true → frameFieldsOk b = true → s.chip.fabric.addr = some (fieldAt b 4 2) →
      sentRecently s (fieldAt b 8 4) = true → fieldAt b 0 1 = 3 → frameForUs s b = true →
      exec (.beaconWake frame) s = .next (wakeUp s))) ∧
  (∀ s : State, exec .beaconFrameDropped s = .next (dropFrame s)) ∧
  (∀ (addr : BitVec 13) (s : State) (e : BeaconEntry), tget s.chip.beacon.table addr.toNat = some e →
    ∃ t, exec (.beaconEntryAge addr) s = .next t ∧ tget t.chip.beacon.table addr.toNat = some { e with known := false } ∧
      ∀ j, j ≠ addr.toNat → tget t.chip.beacon.table j = tget s.chip.beacon.table j) ∧
  (∀ s : State,
    (s.chip.beacon.broken = false → ∃ t, exec .beaconBreak s = .next t ∧ t.chip.beacon.broken = true ∧
      ∀ x ∈ t.chip.beacon.table, x.2.known = false) ∧
    (s.chip.beacon.broken = true → ∃ t, exec .beaconLightRestored s = .next t ∧ t.chip.beacon.broken = false ∧
      t.chip.beacon.table = s.chip.beacon.table) ∧
    (∀ x, s.chip.fabric.enumSent = some x → ∃ t, exec .enumTimeout s = .next t ∧ t.chip.fabric.enumSent = none ∧
      t.chip.fabric.addr = s.chip.fabric.addr ∧ ∀ w ∈ t.mail.waiting, w.key ≠ .enum))

/-- When they run with legal operands and their buffers are read and written without error: ORIGIN of a module at
address 0 or none takes address 0, begins the next round and waits; ADDR_QUERY returns the address and the last round;
ROUTE_SET by the module's right sets the entries of a range and leaves the others and memory; ROUTE_QUERY writes them.
A join with an equal key digest and table counts the part as joined; a message of a job that is not joined here is
discarded and counted, and one of a joined part wakes the module. A flit in transit that is not addressed to this
module goes on one level up where a port takes it; one on level 7 is discarded and counts a ROUTE_LOOP. (R400, R404,
R406, R409, R410, R411, R436, R437) -/
def Obligations.FabricRoutesAndMessages : Prop :=
  (∀ (c : Cmd) (s u : State), Runs 0xB10 c s u → cmdTail c 0 = true → u.hasModRight (cmdA c) = true →
    (u.chip.fabric.addr = none ∨ u.chip.fabric.addr = some 0) →
    ∃ v, exec (.fabOrigin c) s = .next (waitsFor c 0xB10 .enum v) ∧ v.chip.fabric.addr = some 0 ∧
      v.chip.fabric.round = u.chip.fabric.round + 1 ∧ v.chip.fabric.enumSent = some u.mtime ∧
      ∃ fr, v.out = u.out ++ [.beacon fr] ∧ fieldAt fr 0 1 = 1) ∧
  (∀ (c : Cmd) (s u : State), Runs 0xB11 c s u → cmdTail c 0 = true →
    exec (.fabAddrQuery c) s = .next (complete c 0xB11 .ok
      (leBytes 2 (addrWord u.chip.fabric.addr) ++ [0, 0] ++ leBytes 4 u.chip.fabric.lastRound.toNat) u)) ∧
  (∀ (c : Cmd) (s u : State), cmdTail c 16 = true → cmdZ c 4 4 = true → addrRange c = true → addrOk (cmdU c 8 8) = true →
    u.inAccount (cmdA c) (cmdU c 8 8) (8 * cmdU c 2 2) = true →
    (Runs 0xB12 c s u → u.hasModRight (cmdA c) = true → u.reads (cmdU c 8 8) (8 * cmdU c 2 2) = true →
      (∀ b ∈ chunks 8 (u.read (cmdU c 8 8) (8 * cmdU c 2 2)), routeOf b ≠ none) →
      ∃ t, exec (.fabRouteSet c) s = .next (complete c 0xB12 .ok [] t) ∧
        (∀ i b, (chunks 8 (u.read (cmdU c 8 8) (8 * cmdU c 2 2)))[i]? = some b →
          tget t.chip.fabric.routes (cmdU c 0 2 + i) = routeOf b) ∧
        (∀ d, (d < cmdU c 0 2 ∨ cmdU c 0 2 + cmdU c 2 2 ≤ d) → tget t.chip.fabric.routes d = tget u.chip.fabric.routes d) ∧
        t.mem = u.mem) ∧
    (Runs 0xB13 c s u → u.writes (cmdU c 8 8) (8 * cmdU c 2 2) = true → exec (.fabRouteQuery c) s = .next (complete c 0xB13 .ok (leBytes 2 (cmdU c 2 2))
      (u.give (cmdA c) (cmdU c 8 8) ((List.range (cmdU c 2 2)).flatMap fun i =>
        (tgetD u.chip.fabric.routes (cmdU c 0 2 + i) Route.none).bytes))))) ∧
  (∀ (job : Word) (part : BitVec 13) (digest : DWord) (table : List (BitVec 13)) (s : State) (k : Nat) (js : JobSlot),
    s.off = false → tget s.chip.fabric.slots k = some js → js.job = job → Config.jkeyDigest js.jkey = digest →
    js.table = table.map (·.toNat) → ∃ t, exec (.joinMessage job part digest table) s = .next t ∧
      (∃ x, tget t.chip.fabric.slots k = some x ∧ part.toNat ∈ x.joined ∧ ∀ p ∈ js.joined, p ∈ x.joined) ∧
      t.mem = s.mem) ∧
  (∀ (src : BitVec 13) (job : Word) (s : State), s.off = false →
    (∀ body : FabBody, (∀ d v l b, body ≠ .transit d v l b) → s.recipient src.toNat job = none →
      exec (.fabricMessage src job body) s = .next (discardMsg s) ∧
      (discardMsg s).chip.fabric.discarded = s.chip.fabric.discarded + 1) ∧
    (∀ (d : BitVec 13) (v : BitVec 2) (l : BitVec 3) (data : Bytes), s.chip.fabric.addr ≠ some d.toNat →
      (l = 7 → ∃ t, exec (.fabricMessage src job (.transit d v l data)) s = .next t ∧
        t.chip.fabric.routeLoops = s.chip.fabric.routeLoops + 1 ∧ t.out = s.out) ∧
      (l ≠ 7 → noRoute s d.toNat = false → exec (.fabricMessage src job (.transit d v l data)) s =
        .next (s.emit (.fabric ⟨src.toNat, d.toNat, job, v.toNat, l.toNat + 1, 0, data⟩)))) ∧
    (∀ (a : Nat) (js : JobSlot), s.recipient src.toNat job = some (a, js) →
      exec (.fabricMessage src job .other) s = .next (wakeUp s) ∧
      ∀ model die data, exec (.fabricMessage src job (.deposit model die data)) s =
        .next (landDeposit a (js.partOf src.toNat) model.toNat die.toNat data (wakeUp s))))

/-- When they run with legal operands and their buffers are read without error: JOB_JOIN puts the job in the account's
lowest free slot with itself as joined and tells the other parts; LEAVE of an unused slot frees it; GROUP_SET and
DROP_SET set and remove the slot's group and drop; JOB_QUERY returns how many parts have joined, and how many no port
that carries traffic reaches. (R24, R406, R410, R413, R414) -/
def Obligations.FabricJobCommandsComplete : Prop :=
  (∀ (c : Cmd) (s u : State) (i : Nat), Runs 0xB14 c s u → cmdTail c 24 = true → cmdU c 0 4 ≠ 0 → 1 ≤ cmdU c 6 2 →
    cmdU c 6 2 ≤ 8192 → addrOk (cmdU c 8 8) = true → cmdU c 16 8 ≠ 0 → cmdU c 4 2 < cmdU c 6 2 →
    u.inAccount (cmdA c) (cmdU c 8 8) (4 * cmdU c 6 2) = true → u.reads (cmdU c 8 8) (4 * cmdU c 6 2) = true →
    let job := BitVec.ofNat 32 (cmdU c 0 4)
    let jkey := BitVec.ofNat 64 (cmdU c 16 8)
    let table := (chunks 4 (u.read (cmdU c 8 8) (4 * cmdU c 6 2))).map leNat
    let digest := Config.jkeyDigest jkey
    let joined := cmdU c 4 2 :: (joinedParts u.chip.fabric job digest table).filter fun p => p != cmdU c 4 2
    let js : JobSlot := ⟨job, cmdU c 4 2, table, jkey, joined, [], []⟩
    (∀ x ∈ table, x < 8192) → u.chip.fabric.addr = some (table.getD (cmdU c 4 2) 0) →
    (∀ x ∈ u.chip.fabric.slots, x.2.job ≠ job) → i < 16 → tget u.chip.fabric.slots (cmdA c * 16 + i) = none →
    (∀ j < i, tget u.chip.fabric.slots (cmdA c * 16 + j) ≠ none) →
    exec (.fabJobJoin c) s = .next (complete c 0xB14 .ok (leBytes 1 i)
      ((sendParts js 8 (leBytes 2 (cmdU c 4 2) ++ leBytes 8 digest.toNat ++ table.flatMap (leBytes 4))
        (u.onFabric fun f => { f with slots := tset f.slots (cmdA c * 16 + i) js,
                                      barriers := f.barriers.filter fun b => b.job != job })).took (cmdA c)
        [(cmdU c 8 8, 4 * cmdU c 6 2)]))) ∧
  (∀ (c : Cmd) (s u : State) (js : JobSlot),
    let key := cmdA c * 16 + cmdU c 0 1
    cmdU c 0 1 < 16 → tget u.chip.fabric.slots key = some js →
    (Runs 0xB15 c s u → cmdTail c 1 = true → (∀ x ∈ u.models, x.2.map.acct = cmdA c → x.2.map.job ≠ js.job) →
      slotUsed u (cmdA c) (key % 16) = false →
      exec (.fabJobLeave c) s =
        .next (complete c 0xB15 .ok [] (u.onFabric fun f =>
          { f with slots := terase f.slots key, rounds := f.rounds.filter fun r => r.job != js.job }))) ∧
    (Runs 0xB16 c s u → cmdTail c 16 = true → cmdZ c 4 4 = true → 1 ≤ cmdU c 2 2 → cmdU c 2 2 ≤ 8192 →
      addrOk (cmdU c 8 8) = true → u.inAccount (cmdA c) (cmdU c 8 8) (4 * cmdU c 2 2) = true →
      u.reads (cmdU c 8 8) (4 * cmdU c 2 2) = true →
      let es := chunks 4 (u.read (cmdU c 8 8) (4 * cmdU c 2 2))
      (∀ b ∈ es, fieldAt b 3 1 = 0 ∧ fieldAt b 0 2 < js.table.length ∧ fieldAt b 2 1 < 8) →
      (∀ r ∈ u.chip.fabric.rounds, r.job = js.job → r.group = cmdU c 1 1 → r.live u = true → r.result ≠ none) →
      let js' := { js with groups := tset js.groups (cmdU c 1 1) (es.map fun b => ⟨fieldAt b 0 2, fieldAt b 2 1⟩) }
      exec (.fabGroupSet c) s =
        .next (complete c 0xB16 .ok [] ((u.onFabric fun f =>
          { f with slots := tset f.slots key js',
                   rounds := f.rounds.filter fun r => !(r.job == js.job && r.group == cmdU c 1 1) || r.live u }).took (cmdA c)
          [(cmdU c 8 8, 4 * cmdU c 2 2)]))) ∧
    (Runs 0xB17 c s u → cmdTail c 20 = true → cmdZ c 3 1 = true → cmdZ c 6 2 = true → cmdU c 1 1 < 64 →
      cmdU c 2 1 < (u.acctDies (cmdA c)).length → addrOk (cmdU c 12 8) = true →
      cmdU c 4 2 < (u.acct (cmdA c)).quota.sems →
      (cmdU c 8 4 = 0 → let js' := { js with drops := terase js.drops (cmdU c 1 1) }
        exec (.fabDropSet c) s =
          .next (complete c 0xB17 .ok [] (u.onFabric fun f => { f with slots := tset f.slots key js' }))) ∧
      (∀ o, cmdU c 8 4 ≠ 0 → (locOf (cmdU c 12 8) = some (.hbm (u.physDie (cmdA c) (cmdU c 2 1)) o) ∨
          locOf (cmdU c 12 8) = some (.dieSram (u.physDie (cmdA c) (cmdU c 2 1)) o)) →
        u.inGrants (cmdA c) (cmdU c 12 8) (64 * cmdU c 8 4) = true →
        let js' := { js with drops := tset js.drops (cmdU c 1 1) ⟨cmdU c 2 1, cmdU c 4 2, cmdU c 8 4, cmdU c 12 8⟩ }
        exec (.fabDropSet c) s =
          .next (complete c 0xB17 .ok [] (u.onFabric fun f => { f with slots := tset f.slots key js' })))) ∧
    (Runs 0xB18 c s u → cmdTail c 1 = true →
      let lost := (List.range js.table.length).filter fun n => n != js.part && noRoute u (js.table.getD n 0)
      exec (.fabJobQuery c) s = .next (complete c 0xB18 .ok (leBytes 2 js.joined.length ++ leBytes 2 lost.length) u)))

/-! ## Of every step and every command -/

/-- From every state whose memory lists rising addresses and no zero byte, a step of any command, and an idle step,
ends in a state whose memory has that form again; whatever the state, the queue that the step leaves is the old one
without its front, so no command is lost, added or served out of turn. The canonical form is the model's, and the
queue is the model's (log entries 4 and 12). (R343, R345, R346) -/
def Obligations.MemoryStaysCanonicalAndQueueServed : Prop :=
  ∀ s t : State, step s = .next t → (s.mem.wf → t.mem.wf) ∧ t.pending = s.pending.drop 1

/-- An idle step, the model's reference cycle, adds 10 to module time, modulo 2^64. No command, reset, power state,
firmware activation or event changes it, but for POWER_INPUT_ENTER after a loss of the input, which starts it at 0; a
POWER_INPUT_ENTER that follows no loss leaves it. (R508) -/
def Obligations.ModuleTimeRuns : Prop :=
  (∀ s : State, s.pending = [] → ∃ t, step s = .next t ∧ t.mtime = s.mtime + 10) ∧
  (∀ (i : Instr) (s t : State), exec i s = .next t → i ≠ .powerInputEnter → t.mtime = s.mtime) ∧
  (∀ s : State, ∃ t, exec .powerInputEnter s = .next t ∧
    t.mtime = if s.chip.power.inputPresent = true then s.mtime else 0)

/-- Over a step of any command from any state: the floor does not fall, CLAIMS does not rise, a blown start fuse stays
blown, a module that is DECOMMISSIONED stays so, the life-cycle state changes by LC_CHANGE alone, and OWNER_LOCK once
set stays set but for LC_CHANGE and for the end of a wipe that a start-up finishes. (R540, R541, R548, R550) -/
def Obligations.FusesAndOwnerLockHold : Prop :=
  ∀ (i : Instr) (s t : State), exec i s = .next t →
    s.chip.fw.floor ≤ t.chip.fw.floor ∧ t.chip.fw.claims ≤ s.chip.fw.claims ∧
    (s.chip.fw.startFuse = true → t.chip.fw.startFuse = true) ∧
    (s.chip.fw.lifecycle = .decommissioned → t.chip.fw.lifecycle = .decommissioned) ∧
    ((∀ c, i ≠ .lcChange c) → t.chip.fw.lifecycle = s.chip.fw.lifecycle ∧
      (s.chip.fw.lock = true → t.chip.fw.lock = true ∨
        (i = .mailboxReady ∧ s.chip.fw.startFuse = true ∧ s.chip.fw.doneFuse = false)))

/-- For every byte of a quarter view there is one byte of the striped view of the same die with the same channel and
the same address within the channel, and the two read the same; a byte written through the quarter view reads back
through both, and every byte of the striped view at another offset is unchanged. (R345) -/
def Obligations.HbmViewsReachTheSameBytes : Prop :=
  ∀ (s : State) (n m o : Nat) (b : Byte), n < 8 → m < 4 → o < 24 * 2 ^ 30 →
    let q := quarterBase + n * 2 ^ 37 + m * 2 ^ 35 + o
    let g := o / 512 % 2 ^ 15
    ∃ o', o' < 96 * 2 ^ 30 ∧
      (o' / 512 % 2 ^ 17 % 64 = 16 * m + g % 16 ∧
        o' / 2 ^ 26 * 2 ^ 20 + o' / 512 % 2 ^ 17 / 64 * 512 + o' % 512 = o / 2 ^ 24 * 2 ^ 20 + g / 16 * 512 + o % 512) ∧
      s.read q 1 = s.read (n * 2 ^ 37 + o') 1 ∧
      (s.write q [b]).read q 1 = [b] ∧ (s.write q [b]).read (n * 2 ^ 37 + o') 1 = [b] ∧
      ∀ x, x < 96 * 2 ^ 30 → x ≠ o' → (s.write q [b]).read (n * 2 ^ 37 + x) 1 = s.read (n * 2 ^ 37 + x) 1
end

