-- ==== Sys2Proof/Laws/Mailbox.lean ====
section
/-!
SUPPORT. What the common course of a mailbox command can do: one lemma for a command that reaches its own rules, and one
for each way in which it does not.
-/
namespace Sys2Proof.Machine

/-- A command that reaches its own rules does what they answer. -/
theorem runCmd_runs {op : Nat} {c : Cmd} {s u : State} (h : Runs op c s u) (body : State → Res) :
    runCmd op c s body = match body u with
      | .done st payload s' => .next (complete c op st payload (if st.keeps then u else s'))
      | .wait key s' => .next (waitsFor c op key s')
      | .gone s' => .next s'
      | .hold => .next s := by
  obtain ⟨rfl, h0, h1, h2, h3, h4⟩ := h
  have low : s.chip.power.low = false := by
    have h3 : s.chip.power.pstate = 0 := h3
    have h4 : s.chip.power.target = none := h4
    simp [Power.low, h3, h4]
  simp only [runCmd, h0, h1, h2, low, waitsFor]
  simp only [Bool.false_and, Bool.false_eq_true, if_false]
  all_goals (cases body (dropTaken c s) <;> rfl)

/-- A completion of a command that reaches its own rules. -/
theorem runCmd_done {op : Nat} {c : Cmd} {s u v : State} {body : State → Res} {st : Status} {p : Bytes}
    (h : Runs op c s u) (hb : body u = .done st p v) :
    runCmd op c s body = .next (complete c op st p (if st.keeps then u else v)) := by
  rw [runCmd_runs h, hb]

/-- A wait of a command that reaches its own rules. -/
theorem runCmd_wait {op : Nat} {c : Cmd} {s u v : State} {body : State → Res} {key : WaitKey}
    (h : Runs op c s u) (hb : body u = .wait key v) : runCmd op c s body = .next (waitsFor c op key v) := by
  rw [runCmd_runs h, hb]

/-- A command that ends without a response. -/
theorem runCmd_gone {op : Nat} {c : Cmd} {s u v : State} {body : State → Res}
    (h : Runs op c s u) (hb : body u = .gone v) : runCmd op c s body = .next v := by
  rw [runCmd_runs h, hb]

/-- A command whose access waits for a host link stays taken. -/
theorem runCmd_hold {op : Nat} {c : Cmd} {s u : State} {body : State → Res}
    (h : Runs op c s u) (hb : body u = .hold) : runCmd op c s body = .next s := by
  rw [runCmd_runs h, hb]

/-- A command that a gate turns away completes with the gate's status, and changes nothing else. -/
theorem runCmd_gate {op : Nat} {c : Cmd} {s : State} {st : Status} (body : State → Res)
    (h0 : outOfTurn op c s = false) (h : stateGate (cmdA c) c.abi op (dropTaken c s) = some st) :
    runCmd op c s body = .next (complete c op st (gatePayload op st) (turnedAway op c s)) := by
  simp [runCmd, h0, h, turnedAway]

/-- A command that the life cycle or recovery turns away. -/
theorem runCmd_life {op : Nat} {c : Cmd} {s : State} {st : Status} (body : State → Res)
    (h0 : outOfTurn op c s = false) (h1 : stateGate (cmdA c) c.abi op (dropTaken c s) = none)
    (h : lifeGate op (dropTaken c s) = some st) :
    runCmd op c s body = .next (complete c op st (gatePayload op st) (turnedAway op c s)) := by
  simp [runCmd, h0, h1, h, turnedAway]

/-- A command that an earlier one of its path stands before has no effect. -/
theorem runCmd_turn {op : Nat} {c : Cmd} {s : State} (body : State → Res) (h : outOfTurn op c s = true) :
    runCmd op c s body = .next s := by
  simp [runCmd, h]

/-- Every course of a mailbox command ends in a next state. -/
theorem runCmd_next (op : Nat) (c : Cmd) (s : State) (body : State → Res) : ∃ t, runCmd op c s body = .next t := by
  simp only [runCmd]
  repeat' split
  all_goals exact ⟨_, rfl⟩

/-! ## What a body answers, and the credits of its accesses -/

@[simp] theorem Res.after_done (f : State → State) (st : Status) (p : Bytes) (s : State) : (Res.done st p s).after f = .done st p (f s) := rfl
@[simp] theorem Res.after_wait (f : State → State) (key : WaitKey) (s : State) : (Res.wait key s).after f = .wait key (f s) := rfl
@[simp] theorem Res.after_gone (f : State → State) (s : State) : (Res.gone s).after f = .gone (f s) := rfl
@[simp] theorem Res.after_hold (f : State → State) : Res.hold.after f = .hold := rfl

@[simp] theorem State.took_pending (a : Nat) (rs : List (Nat × Nat)) (s : State) : (s.took a rs).pending = s.pending := rfl
@[simp] theorem State.took_out (a : Nat) (rs : List (Nat × Nat)) (s : State) : (s.took a rs).out = s.out := rfl
@[simp] theorem State.took_freeCtr (a : Nat) (rs : List (Nat × Nat)) (s : State) : (s.took a rs).freeCtr = s.freeCtr := rfl
@[simp] theorem State.took_mtime (a : Nat) (rs : List (Nat × Nat)) (s : State) : (s.took a rs).mtime = s.mtime := rfl
@[simp] theorem State.took_mem (a : Nat) (rs : List (Nat × Nat)) (s : State) : (s.took a rs).mem = s.mem := rfl
@[simp] theorem State.took_mail (a : Nat) (rs : List (Nat × Nat)) (s : State) : (s.took a rs).mail = s.mail := rfl
@[simp] theorem State.took_ten (a : Nat) (rs : List (Nat × Nat)) (s : State) : (s.took a rs).ten = s.ten := rfl
@[simp] theorem State.took_chip (a : Nat) (rs : List (Nat × Nat)) (s : State) : (s.took a rs).chip = s.chip := rfl
@[simp] theorem State.took_cores (a : Nat) (rs : List (Nat × Nat)) (s : State) : (s.took a rs).cores = s.cores := rfl
@[simp] theorem State.took_pkgs (a : Nat) (rs : List (Nat × Nat)) (s : State) : (s.took a rs).pkgs = s.pkgs := rfl
@[simp] theorem State.took_pkgOrder (a : Nat) (rs : List (Nat × Nat)) (s : State) : (s.took a rs).pkgOrder = s.pkgOrder := rfl
@[simp] theorem State.took_svcTurn (a : Nat) (rs : List (Nat × Nat)) (s : State) : (s.took a rs).svcTurn = s.svcTurn := rfl
@[simp] theorem State.took_models (a : Nat) (rs : List (Nat × Nat)) (s : State) : (s.took a rs).models = s.models := rfl
@[simp] theorem State.took_moves (a : Nat) (rs : List (Nat × Nat)) (s : State) : (s.took a rs).moves = s.moves := rfl
@[simp] theorem State.took_moveCtr (a : Nat) (rs : List (Nat × Nat)) (s : State) : (s.took a rs).moveCtr = s.moveCtr := rfl
@[simp] theorem State.took_led (a : Nat) (rs : List (Nat × Nat)) (s : State) : (s.took a rs).led = s.led := rfl
@[simp] theorem State.took_gens (a : Nat) (rs : List (Nat × Nat)) (s : State) : (s.took a rs).gens = s.gens := rfl
@[simp] theorem State.took_ft (a : Nat) (rs : List (Nat × Nat)) (s : State) : (s.took a rs).ft = s.ft := rfl

@[simp] theorem State.give_pending (a x : Nat) (bs : Bytes) (s : State) : (s.give a x bs).pending = s.pending := rfl
@[simp] theorem State.give_out (a x : Nat) (bs : Bytes) (s : State) : (s.give a x bs).out = s.out := rfl
@[simp] theorem State.give_freeCtr (a x : Nat) (bs : Bytes) (s : State) : (s.give a x bs).freeCtr = s.freeCtr := rfl
@[simp] theorem State.give_mtime (a x : Nat) (bs : Bytes) (s : State) : (s.give a x bs).mtime = s.mtime := rfl
@[simp] theorem State.give_mail (a x : Nat) (bs : Bytes) (s : State) : (s.give a x bs).mail = s.mail := rfl
@[simp] theorem State.give_ten (a x : Nat) (bs : Bytes) (s : State) : (s.give a x bs).ten = s.ten := rfl
@[simp] theorem State.give_cores (a x : Nat) (bs : Bytes) (s : State) : (s.give a x bs).cores = s.cores := rfl
@[simp] theorem State.give_pkgs (a x : Nat) (bs : Bytes) (s : State) : (s.give a x bs).pkgs = s.pkgs := rfl
@[simp] theorem State.give_pkgOrder (a x : Nat) (bs : Bytes) (s : State) : (s.give a x bs).pkgOrder = s.pkgOrder := rfl
@[simp] theorem State.give_svcTurn (a x : Nat) (bs : Bytes) (s : State) : (s.give a x bs).svcTurn = s.svcTurn := rfl
@[simp] theorem State.give_models (a x : Nat) (bs : Bytes) (s : State) : (s.give a x bs).models = s.models := rfl
@[simp] theorem State.give_moves (a x : Nat) (bs : Bytes) (s : State) : (s.give a x bs).moves = s.moves := rfl
@[simp] theorem State.give_moveCtr (a x : Nat) (bs : Bytes) (s : State) : (s.give a x bs).moveCtr = s.moveCtr := rfl
@[simp] theorem State.give_led (a x : Nat) (bs : Bytes) (s : State) : (s.give a x bs).led = s.led := rfl
@[simp] theorem State.give_gens (a x : Nat) (bs : Bytes) (s : State) : (s.give a x bs).gens = s.gens := rfl
@[simp] theorem State.give_ft (a x : Nat) (bs : Bytes) (s : State) : (s.give a x bs).ft = s.ft := rfl
@[simp] theorem State.give_mem (a x : Nat) (bs : Bytes) (s : State) : (s.give a x bs).mem = s.mem.store x bs := rfl

/-! ## With the domains on and off (R588) -/

theorem State.whenOn_on {s : State} (t : State) (h : s.off = false) : s.whenOn t = t := by simp [State.whenOn, h]
theorem State.whenOn_off {s : State} (t : State) (h : s.off = true) : s.whenOn t = s := by simp [State.whenOn, h]

/-- A read that goes through answers what follows. -/
theorem readHeld_ok {a n : Nat} {s : State} (failed : State → Res) (k : Res) (h : s.reads a n = true) :
    readHeld a n s failed k = k := by
  simp only [State.reads, Bool.and_eq_true, Bool.not_eq_true'] at h
  simp [readHeld, h.1, h.2]

/-- A read of a range of the caller's that goes through. -/
theorem readFor_ok {c : Cmd} {a n : Nat} {s : State} (k : Bytes → Res) (h1 : s.inAccount (cmdA c) a n = true)
    (h2 : s.reads a n = true) : readFor c a n s k = (k (s.read a n)).after (State.took (cmdA c) [(a, n)]) := by
  rw [readFor, h1, readHeld_ok _ _ h2]; rfl

/-- A write to a range of the caller's that goes through. -/
theorem writeFor_ok {c : Cmd} {a n : Nat} {s : State} (k : (Bytes → State) → Res)
    (h1 : s.inAccount (cmdA c) a n = true) (h2 : s.writes a n = true) :
    writeFor c a n s k = k fun bs => s.give (cmdA c) a bs := by
  simp only [State.writes, Bool.and_eq_true, Bool.not_eq_true'] at h2
  simp [writeFor, h1, h2]

end Sys2Proof.Machine
end

