-- ==== Sys2Proof/Laws/State.lean ====
section
/-!
SUPPORT. What each named update of the state leaves alone, and what it puts in place.
-/
namespace Sys2Proof.Machine

variable (s : State)

/-! ## `onFunc` -/

@[simp] theorem State.onFunc_pending (i : Nat) (f : Func → Func) : (s.onFunc i f).pending = s.pending := rfl
@[simp] theorem State.onFunc_out (i : Nat) (f : Func → Func) : (s.onFunc i f).out = s.out := rfl
@[simp] theorem State.onFunc_freeCtr (i : Nat) (f : Func → Func) : (s.onFunc i f).freeCtr = s.freeCtr := rfl
@[simp] theorem State.onFunc_mtime (i : Nat) (f : Func → Func) : (s.onFunc i f).mtime = s.mtime := rfl
@[simp] theorem State.onFunc_mem (i : Nat) (f : Func → Func) : (s.onFunc i f).mem = s.mem := rfl
@[simp] theorem State.onFunc_ten (i : Nat) (f : Func → Func) : (s.onFunc i f).ten = s.ten := rfl
@[simp] theorem State.onFunc_chip (i : Nat) (f : Func → Func) : (s.onFunc i f).chip = s.chip := rfl
@[simp] theorem State.onFunc_cores (i : Nat) (f : Func → Func) : (s.onFunc i f).cores = s.cores := rfl
@[simp] theorem State.onFunc_pkgs (i : Nat) (f : Func → Func) : (s.onFunc i f).pkgs = s.pkgs := rfl
@[simp] theorem State.onFunc_pkgOrder (i : Nat) (f : Func → Func) : (s.onFunc i f).pkgOrder = s.pkgOrder := rfl
@[simp] theorem State.onFunc_svcTurn (i : Nat) (f : Func → Func) : (s.onFunc i f).svcTurn = s.svcTurn := rfl
@[simp] theorem State.onFunc_demand (i : Nat) (f : Func → Func) : (s.onFunc i f).demand = s.demand := rfl
@[simp] theorem State.onFunc_models (i : Nat) (f : Func → Func) : (s.onFunc i f).models = s.models := rfl
@[simp] theorem State.onFunc_moves (i : Nat) (f : Func → Func) : (s.onFunc i f).moves = s.moves := rfl
@[simp] theorem State.onFunc_moveCtr (i : Nat) (f : Func → Func) : (s.onFunc i f).moveCtr = s.moveCtr := rfl
@[simp] theorem State.onFunc_led (i : Nat) (f : Func → Func) : (s.onFunc i f).led = s.led := rfl
@[simp] theorem State.onFunc_gens (i : Nat) (f : Func → Func) : (s.onFunc i f).gens = s.gens := rfl
@[simp] theorem State.onFunc_ft (i : Nat) (f : Func → Func) : (s.onFunc i f).ft = s.ft := rfl
@[simp] theorem State.onFunc_mail_apers (i : Nat) (f : Func → Func) : (s.onFunc i f).mail.apers = s.mail.apers := rfl
@[simp] theorem State.onFunc_mail_downSeen (i : Nat) (f : Func → Func) : (s.onFunc i f).mail.downSeen = s.mail.downSeen := rfl
@[simp] theorem State.onFunc_mail_waiting (i : Nat) (f : Func → Func) : (s.onFunc i f).mail.waiting = s.mail.waiting := rfl
@[simp] theorem State.onFunc_mail_heldWake (i : Nat) (f : Func → Func) : (s.onFunc i f).mail.heldWake = s.mail.heldWake := rfl
@[simp] theorem State.onFunc_mail_turns (i : Nat) (f : Func → Func) : (s.onFunc i f).mail.turns = s.mail.turns := rfl
@[simp] theorem State.onFunc_mail_fwTurn (i : Nat) (f : Func → Func) : (s.onFunc i f).mail.fwTurn = s.mail.fwTurn := rfl

/-! ## `onAper` -/

@[simp] theorem State.onAper_pending (i : Nat) (f : Aper → Aper) : (s.onAper i f).pending = s.pending := rfl
@[simp] theorem State.onAper_out (i : Nat) (f : Aper → Aper) : (s.onAper i f).out = s.out := rfl
@[simp] theorem State.onAper_freeCtr (i : Nat) (f : Aper → Aper) : (s.onAper i f).freeCtr = s.freeCtr := rfl
@[simp] theorem State.onAper_mtime (i : Nat) (f : Aper → Aper) : (s.onAper i f).mtime = s.mtime := rfl
@[simp] theorem State.onAper_mem (i : Nat) (f : Aper → Aper) : (s.onAper i f).mem = s.mem := rfl
@[simp] theorem State.onAper_ten (i : Nat) (f : Aper → Aper) : (s.onAper i f).ten = s.ten := rfl
@[simp] theorem State.onAper_chip (i : Nat) (f : Aper → Aper) : (s.onAper i f).chip = s.chip := rfl
@[simp] theorem State.onAper_cores (i : Nat) (f : Aper → Aper) : (s.onAper i f).cores = s.cores := rfl
@[simp] theorem State.onAper_pkgs (i : Nat) (f : Aper → Aper) : (s.onAper i f).pkgs = s.pkgs := rfl
@[simp] theorem State.onAper_pkgOrder (i : Nat) (f : Aper → Aper) : (s.onAper i f).pkgOrder = s.pkgOrder := rfl
@[simp] theorem State.onAper_svcTurn (i : Nat) (f : Aper → Aper) : (s.onAper i f).svcTurn = s.svcTurn := rfl
@[simp] theorem State.onAper_demand (i : Nat) (f : Aper → Aper) : (s.onAper i f).demand = s.demand := rfl
@[simp] theorem State.onAper_models (i : Nat) (f : Aper → Aper) : (s.onAper i f).models = s.models := rfl
@[simp] theorem State.onAper_moves (i : Nat) (f : Aper → Aper) : (s.onAper i f).moves = s.moves := rfl
@[simp] theorem State.onAper_moveCtr (i : Nat) (f : Aper → Aper) : (s.onAper i f).moveCtr = s.moveCtr := rfl
@[simp] theorem State.onAper_led (i : Nat) (f : Aper → Aper) : (s.onAper i f).led = s.led := rfl
@[simp] theorem State.onAper_gens (i : Nat) (f : Aper → Aper) : (s.onAper i f).gens = s.gens := rfl
@[simp] theorem State.onAper_ft (i : Nat) (f : Aper → Aper) : (s.onAper i f).ft = s.ft := rfl
@[simp] theorem State.onAper_mail_funcs (i : Nat) (f : Aper → Aper) : (s.onAper i f).mail.funcs = s.mail.funcs := rfl
@[simp] theorem State.onAper_mail_downSeen (i : Nat) (f : Aper → Aper) : (s.onAper i f).mail.downSeen = s.mail.downSeen := rfl
@[simp] theorem State.onAper_mail_waiting (i : Nat) (f : Aper → Aper) : (s.onAper i f).mail.waiting = s.mail.waiting := rfl
@[simp] theorem State.onAper_mail_heldWake (i : Nat) (f : Aper → Aper) : (s.onAper i f).mail.heldWake = s.mail.heldWake := rfl
@[simp] theorem State.onAper_mail_turns (i : Nat) (f : Aper → Aper) : (s.onAper i f).mail.turns = s.mail.turns := rfl
@[simp] theorem State.onAper_mail_fwTurn (i : Nat) (f : Aper → Aper) : (s.onAper i f).mail.fwTurn = s.mail.fwTurn := rfl

/-! ## `onAcct` -/

@[simp] theorem State.onAcct_pending (i : Nat) (f : Account → Account) : (s.onAcct i f).pending = s.pending := rfl
@[simp] theorem State.onAcct_out (i : Nat) (f : Account → Account) : (s.onAcct i f).out = s.out := rfl
@[simp] theorem State.onAcct_freeCtr (i : Nat) (f : Account → Account) : (s.onAcct i f).freeCtr = s.freeCtr := rfl
@[simp] theorem State.onAcct_mtime (i : Nat) (f : Account → Account) : (s.onAcct i f).mtime = s.mtime := rfl
@[simp] theorem State.onAcct_mem (i : Nat) (f : Account → Account) : (s.onAcct i f).mem = s.mem := rfl
@[simp] theorem State.onAcct_mail (i : Nat) (f : Account → Account) : (s.onAcct i f).mail = s.mail := rfl
@[simp] theorem State.onAcct_chip (i : Nat) (f : Account → Account) : (s.onAcct i f).chip = s.chip := rfl
@[simp] theorem State.onAcct_cores (i : Nat) (f : Account → Account) : (s.onAcct i f).cores = s.cores := rfl
@[simp] theorem State.onAcct_pkgs (i : Nat) (f : Account → Account) : (s.onAcct i f).pkgs = s.pkgs := rfl
@[simp] theorem State.onAcct_pkgOrder (i : Nat) (f : Account → Account) : (s.onAcct i f).pkgOrder = s.pkgOrder := rfl
@[simp] theorem State.onAcct_svcTurn (i : Nat) (f : Account → Account) : (s.onAcct i f).svcTurn = s.svcTurn := rfl
@[simp] theorem State.onAcct_demand (i : Nat) (f : Account → Account) : (s.onAcct i f).demand = s.demand := rfl
@[simp] theorem State.onAcct_models (i : Nat) (f : Account → Account) : (s.onAcct i f).models = s.models := rfl
@[simp] theorem State.onAcct_moves (i : Nat) (f : Account → Account) : (s.onAcct i f).moves = s.moves := rfl
@[simp] theorem State.onAcct_moveCtr (i : Nat) (f : Account → Account) : (s.onAcct i f).moveCtr = s.moveCtr := rfl
@[simp] theorem State.onAcct_led (i : Nat) (f : Account → Account) : (s.onAcct i f).led = s.led := rfl
@[simp] theorem State.onAcct_gens (i : Nat) (f : Account → Account) : (s.onAcct i f).gens = s.gens := rfl
@[simp] theorem State.onAcct_ft (i : Nat) (f : Account → Account) : (s.onAcct i f).ft = s.ft := rfl
@[simp] theorem State.onAcct_ten_grants (i : Nat) (f : Account → Account) : (s.onAcct i f).ten.grants = s.ten.grants := rfl
@[simp] theorem State.onAcct_ten_parts (i : Nat) (f : Account → Account) : (s.onAcct i f).ten.parts = s.ten.parts := rfl
@[simp] theorem State.onAcct_ten_modRight (i : Nat) (f : Account → Account) : (s.onAcct i f).ten.modRight = s.ten.modRight := rfl
@[simp] theorem State.onAcct_ten_partRights (i : Nat) (f : Account → Account) : (s.onAcct i f).ten.partRights = s.ten.partRights := rfl
@[simp] theorem State.onAcct_ten_stops (i : Nat) (f : Account → Account) : (s.onAcct i f).ten.stops = s.ten.stops := rfl
@[simp] theorem State.onAcct_ten_gaps (i : Nat) (f : Account → Account) : (s.onAcct i f).ten.gaps = s.ten.gaps := rfl

/-! ## `onPower` -/

@[simp] theorem State.onPower_pending (f : Power → Power) : (s.onPower f).pending = s.pending := rfl
@[simp] theorem State.onPower_out (f : Power → Power) : (s.onPower f).out = s.out := rfl
@[simp] theorem State.onPower_freeCtr (f : Power → Power) : (s.onPower f).freeCtr = s.freeCtr := rfl
@[simp] theorem State.onPower_mtime (f : Power → Power) : (s.onPower f).mtime = s.mtime := rfl
@[simp] theorem State.onPower_mem (f : Power → Power) : (s.onPower f).mem = s.mem := rfl
@[simp] theorem State.onPower_mail (f : Power → Power) : (s.onPower f).mail = s.mail := rfl
@[simp] theorem State.onPower_ten (f : Power → Power) : (s.onPower f).ten = s.ten := rfl
@[simp] theorem State.onPower_cores (f : Power → Power) : (s.onPower f).cores = s.cores := rfl
@[simp] theorem State.onPower_pkgs (f : Power → Power) : (s.onPower f).pkgs = s.pkgs := rfl
@[simp] theorem State.onPower_pkgOrder (f : Power → Power) : (s.onPower f).pkgOrder = s.pkgOrder := rfl
@[simp] theorem State.onPower_svcTurn (f : Power → Power) : (s.onPower f).svcTurn = s.svcTurn := rfl
@[simp] theorem State.onPower_demand (f : Power → Power) : (s.onPower f).demand = s.demand := rfl
@[simp] theorem State.onPower_models (f : Power → Power) : (s.onPower f).models = s.models := rfl
@[simp] theorem State.onPower_moves (f : Power → Power) : (s.onPower f).moves = s.moves := rfl
@[simp] theorem State.onPower_moveCtr (f : Power → Power) : (s.onPower f).moveCtr = s.moveCtr := rfl
@[simp] theorem State.onPower_led (f : Power → Power) : (s.onPower f).led = s.led := rfl
@[simp] theorem State.onPower_gens (f : Power → Power) : (s.onPower f).gens = s.gens := rfl
@[simp] theorem State.onPower_ft (f : Power → Power) : (s.onPower f).ft = s.ft := rfl
@[simp] theorem State.onPower_chip_dieMem (f : Power → Power) : (s.onPower f).chip.dieMem = s.chip.dieMem := rfl
@[simp] theorem State.onPower_chip_hbmCred (f : Power → Power) : (s.onPower f).chip.hbmCred = s.chip.hbmCred := rfl
@[simp] theorem State.onPower_chip_vaultCred (f : Power → Power) : (s.onPower f).chip.vaultCred = s.chip.vaultCred := rfl
@[simp] theorem State.onPower_chip_units (f : Power → Power) : (s.onPower f).chip.units = s.chip.units := rfl
@[simp] theorem State.onPower_chip_counters (f : Power → Power) : (s.onPower f).chip.counters = s.chip.counters := rfl
@[simp] theorem State.onPower_chip_samplers (f : Power → Power) : (s.onPower f).chip.samplers = s.chip.samplers := rfl
@[simp] theorem State.onPower_chip_missed (f : Power → Power) : (s.onPower f).chip.missed = s.chip.missed := rfl
@[simp] theorem State.onPower_chip_srcRem (f : Power → Power) : (s.onPower f).chip.srcRem = s.chip.srcRem := rfl
@[simp] theorem State.onPower_chip_links (f : Power → Power) : (s.onPower f).chip.links = s.chip.links := rfl
@[simp] theorem State.onPower_chip_ports (f : Power → Power) : (s.onPower f).chip.ports = s.chip.ports := rfl
@[simp] theorem State.onPower_chip_fw (f : Power → Power) : (s.onPower f).chip.fw = s.chip.fw := rfl
@[simp] theorem State.onPower_chip_beacon (f : Power → Power) : (s.onPower f).chip.beacon = s.chip.beacon := rfl
@[simp] theorem State.onPower_chip_fabric (f : Power → Power) : (s.onPower f).chip.fabric = s.chip.fabric := rfl
@[simp] theorem State.onPower_chip_noc (f : Power → Power) : (s.onPower f).chip.noc = s.chip.noc := rfl

/-! ## `onFw` -/

@[simp] theorem State.onFw_pending (f : Firmware → Firmware) : (s.onFw f).pending = s.pending := rfl
@[simp] theorem State.onFw_out (f : Firmware → Firmware) : (s.onFw f).out = s.out := rfl
@[simp] theorem State.onFw_freeCtr (f : Firmware → Firmware) : (s.onFw f).freeCtr = s.freeCtr := rfl
@[simp] theorem State.onFw_mtime (f : Firmware → Firmware) : (s.onFw f).mtime = s.mtime := rfl
@[simp] theorem State.onFw_mem (f : Firmware → Firmware) : (s.onFw f).mem = s.mem := rfl
@[simp] theorem State.onFw_mail (f : Firmware → Firmware) : (s.onFw f).mail = s.mail := rfl
@[simp] theorem State.onFw_ten (f : Firmware → Firmware) : (s.onFw f).ten = s.ten := rfl
@[simp] theorem State.onFw_cores (f : Firmware → Firmware) : (s.onFw f).cores = s.cores := rfl
@[simp] theorem State.onFw_pkgs (f : Firmware → Firmware) : (s.onFw f).pkgs = s.pkgs := rfl
@[simp] theorem State.onFw_pkgOrder (f : Firmware → Firmware) : (s.onFw f).pkgOrder = s.pkgOrder := rfl
@[simp] theorem State.onFw_svcTurn (f : Firmware → Firmware) : (s.onFw f).svcTurn = s.svcTurn := rfl
@[simp] theorem State.onFw_demand (f : Firmware → Firmware) : (s.onFw f).demand = s.demand := rfl
@[simp] theorem State.onFw_models (f : Firmware → Firmware) : (s.onFw f).models = s.models := rfl
@[simp] theorem State.onFw_moves (f : Firmware → Firmware) : (s.onFw f).moves = s.moves := rfl
@[simp] theorem State.onFw_moveCtr (f : Firmware → Firmware) : (s.onFw f).moveCtr = s.moveCtr := rfl
@[simp] theorem State.onFw_led (f : Firmware → Firmware) : (s.onFw f).led = s.led := rfl
@[simp] theorem State.onFw_gens (f : Firmware → Firmware) : (s.onFw f).gens = s.gens := rfl
@[simp] theorem State.onFw_ft (f : Firmware → Firmware) : (s.onFw f).ft = s.ft := rfl
@[simp] theorem State.onFw_chip_dieMem (f : Firmware → Firmware) : (s.onFw f).chip.dieMem = s.chip.dieMem := rfl
@[simp] theorem State.onFw_chip_hbmCred (f : Firmware → Firmware) : (s.onFw f).chip.hbmCred = s.chip.hbmCred := rfl
@[simp] theorem State.onFw_chip_vaultCred (f : Firmware → Firmware) : (s.onFw f).chip.vaultCred = s.chip.vaultCred := rfl
@[simp] theorem State.onFw_chip_units (f : Firmware → Firmware) : (s.onFw f).chip.units = s.chip.units := rfl
@[simp] theorem State.onFw_chip_counters (f : Firmware → Firmware) : (s.onFw f).chip.counters = s.chip.counters := rfl
@[simp] theorem State.onFw_chip_samplers (f : Firmware → Firmware) : (s.onFw f).chip.samplers = s.chip.samplers := rfl
@[simp] theorem State.onFw_chip_missed (f : Firmware → Firmware) : (s.onFw f).chip.missed = s.chip.missed := rfl
@[simp] theorem State.onFw_chip_srcRem (f : Firmware → Firmware) : (s.onFw f).chip.srcRem = s.chip.srcRem := rfl
@[simp] theorem State.onFw_chip_links (f : Firmware → Firmware) : (s.onFw f).chip.links = s.chip.links := rfl
@[simp] theorem State.onFw_chip_ports (f : Firmware → Firmware) : (s.onFw f).chip.ports = s.chip.ports := rfl
@[simp] theorem State.onFw_chip_power (f : Firmware → Firmware) : (s.onFw f).chip.power = s.chip.power := rfl
@[simp] theorem State.onFw_chip_beacon (f : Firmware → Firmware) : (s.onFw f).chip.beacon = s.chip.beacon := rfl
@[simp] theorem State.onFw_chip_fabric (f : Firmware → Firmware) : (s.onFw f).chip.fabric = s.chip.fabric := rfl
@[simp] theorem State.onFw_chip_noc (f : Firmware → Firmware) : (s.onFw f).chip.noc = s.chip.noc := rfl

/-! ## `onBeacon` -/

@[simp] theorem State.onBeacon_pending (f : Beacon → Beacon) : (s.onBeacon f).pending = s.pending := rfl
@[simp] theorem State.onBeacon_out (f : Beacon → Beacon) : (s.onBeacon f).out = s.out := rfl
@[simp] theorem State.onBeacon_freeCtr (f : Beacon → Beacon) : (s.onBeacon f).freeCtr = s.freeCtr := rfl
@[simp] theorem State.onBeacon_mtime (f : Beacon → Beacon) : (s.onBeacon f).mtime = s.mtime := rfl
@[simp] theorem State.onBeacon_mem (f : Beacon → Beacon) : (s.onBeacon f).mem = s.mem := rfl
@[simp] theorem State.onBeacon_mail (f : Beacon → Beacon) : (s.onBeacon f).mail = s.mail := rfl
@[simp] theorem State.onBeacon_ten (f : Beacon → Beacon) : (s.onBeacon f).ten = s.ten := rfl
@[simp] theorem State.onBeacon_cores (f : Beacon → Beacon) : (s.onBeacon f).cores = s.cores := rfl
@[simp] theorem State.onBeacon_pkgs (f : Beacon → Beacon) : (s.onBeacon f).pkgs = s.pkgs := rfl
@[simp] theorem State.onBeacon_pkgOrder (f : Beacon → Beacon) : (s.onBeacon f).pkgOrder = s.pkgOrder := rfl
@[simp] theorem State.onBeacon_svcTurn (f : Beacon → Beacon) : (s.onBeacon f).svcTurn = s.svcTurn := rfl
@[simp] theorem State.onBeacon_demand (f : Beacon → Beacon) : (s.onBeacon f).demand = s.demand := rfl
@[simp] theorem State.onBeacon_models (f : Beacon → Beacon) : (s.onBeacon f).models = s.models := rfl
@[simp] theorem State.onBeacon_moves (f : Beacon → Beacon) : (s.onBeacon f).moves = s.moves := rfl
@[simp] theorem State.onBeacon_moveCtr (f : Beacon → Beacon) : (s.onBeacon f).moveCtr = s.moveCtr := rfl
@[simp] theorem State.onBeacon_led (f : Beacon → Beacon) : (s.onBeacon f).led = s.led := rfl
@[simp] theorem State.onBeacon_gens (f : Beacon → Beacon) : (s.onBeacon f).gens = s.gens := rfl
@[simp] theorem State.onBeacon_ft (f : Beacon → Beacon) : (s.onBeacon f).ft = s.ft := rfl
@[simp] theorem State.onBeacon_chip_dieMem (f : Beacon → Beacon) : (s.onBeacon f).chip.dieMem = s.chip.dieMem := rfl
@[simp] theorem State.onBeacon_chip_hbmCred (f : Beacon → Beacon) : (s.onBeacon f).chip.hbmCred = s.chip.hbmCred := rfl
@[simp] theorem State.onBeacon_chip_vaultCred (f : Beacon → Beacon) : (s.onBeacon f).chip.vaultCred = s.chip.vaultCred := rfl
@[simp] theorem State.onBeacon_chip_units (f : Beacon → Beacon) : (s.onBeacon f).chip.units = s.chip.units := rfl
@[simp] theorem State.onBeacon_chip_counters (f : Beacon → Beacon) : (s.onBeacon f).chip.counters = s.chip.counters := rfl
@[simp] theorem State.onBeacon_chip_samplers (f : Beacon → Beacon) : (s.onBeacon f).chip.samplers = s.chip.samplers := rfl
@[simp] theorem State.onBeacon_chip_missed (f : Beacon → Beacon) : (s.onBeacon f).chip.missed = s.chip.missed := rfl
@[simp] theorem State.onBeacon_chip_srcRem (f : Beacon → Beacon) : (s.onBeacon f).chip.srcRem = s.chip.srcRem := rfl
@[simp] theorem State.onBeacon_chip_links (f : Beacon → Beacon) : (s.onBeacon f).chip.links = s.chip.links := rfl
@[simp] theorem State.onBeacon_chip_ports (f : Beacon → Beacon) : (s.onBeacon f).chip.ports = s.chip.ports := rfl
@[simp] theorem State.onBeacon_chip_power (f : Beacon → Beacon) : (s.onBeacon f).chip.power = s.chip.power := rfl
@[simp] theorem State.onBeacon_chip_fw (f : Beacon → Beacon) : (s.onBeacon f).chip.fw = s.chip.fw := rfl
@[simp] theorem State.onBeacon_chip_fabric (f : Beacon → Beacon) : (s.onBeacon f).chip.fabric = s.chip.fabric := rfl
@[simp] theorem State.onBeacon_chip_noc (f : Beacon → Beacon) : (s.onBeacon f).chip.noc = s.chip.noc := rfl

/-! ## `onFabric` -/

@[simp] theorem State.onFabric_pending (f : Fabric → Fabric) : (s.onFabric f).pending = s.pending := rfl
@[simp] theorem State.onFabric_out (f : Fabric → Fabric) : (s.onFabric f).out = s.out := rfl
@[simp] theorem State.onFabric_freeCtr (f : Fabric → Fabric) : (s.onFabric f).freeCtr = s.freeCtr := rfl
@[simp] theorem State.onFabric_mtime (f : Fabric → Fabric) : (s.onFabric f).mtime = s.mtime := rfl
@[simp] theorem State.onFabric_mem (f : Fabric → Fabric) : (s.onFabric f).mem = s.mem := rfl
@[simp] theorem State.onFabric_mail (f : Fabric → Fabric) : (s.onFabric f).mail = s.mail := rfl
@[simp] theorem State.onFabric_ten (f : Fabric → Fabric) : (s.onFabric f).ten = s.ten := rfl
@[simp] theorem State.onFabric_cores (f : Fabric → Fabric) : (s.onFabric f).cores = s.cores := rfl
@[simp] theorem State.onFabric_pkgs (f : Fabric → Fabric) : (s.onFabric f).pkgs = s.pkgs := rfl
@[simp] theorem State.onFabric_pkgOrder (f : Fabric → Fabric) : (s.onFabric f).pkgOrder = s.pkgOrder := rfl
@[simp] theorem State.onFabric_svcTurn (f : Fabric → Fabric) : (s.onFabric f).svcTurn = s.svcTurn := rfl
@[simp] theorem State.onFabric_demand (f : Fabric → Fabric) : (s.onFabric f).demand = s.demand := rfl
@[simp] theorem State.onFabric_models (f : Fabric → Fabric) : (s.onFabric f).models = s.models := rfl
@[simp] theorem State.onFabric_moves (f : Fabric → Fabric) : (s.onFabric f).moves = s.moves := rfl
@[simp] theorem State.onFabric_moveCtr (f : Fabric → Fabric) : (s.onFabric f).moveCtr = s.moveCtr := rfl
@[simp] theorem State.onFabric_led (f : Fabric → Fabric) : (s.onFabric f).led = s.led := rfl
@[simp] theorem State.onFabric_gens (f : Fabric → Fabric) : (s.onFabric f).gens = s.gens := rfl
@[simp] theorem State.onFabric_ft (f : Fabric → Fabric) : (s.onFabric f).ft = s.ft := rfl
@[simp] theorem State.onFabric_chip_dieMem (f : Fabric → Fabric) : (s.onFabric f).chip.dieMem = s.chip.dieMem := rfl
@[simp] theorem State.onFabric_chip_hbmCred (f : Fabric → Fabric) : (s.onFabric f).chip.hbmCred = s.chip.hbmCred := rfl
@[simp] theorem State.onFabric_chip_vaultCred (f : Fabric → Fabric) : (s.onFabric f).chip.vaultCred = s.chip.vaultCred := rfl
@[simp] theorem State.onFabric_chip_units (f : Fabric → Fabric) : (s.onFabric f).chip.units = s.chip.units := rfl
@[simp] theorem State.onFabric_chip_counters (f : Fabric → Fabric) : (s.onFabric f).chip.counters = s.chip.counters := rfl
@[simp] theorem State.onFabric_chip_samplers (f : Fabric → Fabric) : (s.onFabric f).chip.samplers = s.chip.samplers := rfl
@[simp] theorem State.onFabric_chip_missed (f : Fabric → Fabric) : (s.onFabric f).chip.missed = s.chip.missed := rfl
@[simp] theorem State.onFabric_chip_srcRem (f : Fabric → Fabric) : (s.onFabric f).chip.srcRem = s.chip.srcRem := rfl
@[simp] theorem State.onFabric_chip_links (f : Fabric → Fabric) : (s.onFabric f).chip.links = s.chip.links := rfl
@[simp] theorem State.onFabric_chip_ports (f : Fabric → Fabric) : (s.onFabric f).chip.ports = s.chip.ports := rfl
@[simp] theorem State.onFabric_chip_power (f : Fabric → Fabric) : (s.onFabric f).chip.power = s.chip.power := rfl
@[simp] theorem State.onFabric_chip_fw (f : Fabric → Fabric) : (s.onFabric f).chip.fw = s.chip.fw := rfl
@[simp] theorem State.onFabric_chip_beacon (f : Fabric → Fabric) : (s.onFabric f).chip.beacon = s.chip.beacon := rfl
@[simp] theorem State.onFabric_chip_noc (f : Fabric → Fabric) : (s.onFabric f).chip.noc = s.chip.noc := rfl

/-! ## `onPort` -/

@[simp] theorem State.onPort_pending (i : Nat) (f : Port → Port) : (s.onPort i f).pending = s.pending := rfl
@[simp] theorem State.onPort_out (i : Nat) (f : Port → Port) : (s.onPort i f).out = s.out := rfl
@[simp] theorem State.onPort_freeCtr (i : Nat) (f : Port → Port) : (s.onPort i f).freeCtr = s.freeCtr := rfl
@[simp] theorem State.onPort_mtime (i : Nat) (f : Port → Port) : (s.onPort i f).mtime = s.mtime := rfl
@[simp] theorem State.onPort_mem (i : Nat) (f : Port → Port) : (s.onPort i f).mem = s.mem := rfl
@[simp] theorem State.onPort_mail (i : Nat) (f : Port → Port) : (s.onPort i f).mail = s.mail := rfl
@[simp] theorem State.onPort_ten (i : Nat) (f : Port → Port) : (s.onPort i f).ten = s.ten := rfl
@[simp] theorem State.onPort_cores (i : Nat) (f : Port → Port) : (s.onPort i f).cores = s.cores := rfl
@[simp] theorem State.onPort_pkgs (i : Nat) (f : Port → Port) : (s.onPort i f).pkgs = s.pkgs := rfl
@[simp] theorem State.onPort_pkgOrder (i : Nat) (f : Port → Port) : (s.onPort i f).pkgOrder = s.pkgOrder := rfl
@[simp] theorem State.onPort_svcTurn (i : Nat) (f : Port → Port) : (s.onPort i f).svcTurn = s.svcTurn := rfl
@[simp] theorem State.onPort_demand (i : Nat) (f : Port → Port) : (s.onPort i f).demand = s.demand := rfl
@[simp] theorem State.onPort_models (i : Nat) (f : Port → Port) : (s.onPort i f).models = s.models := rfl
@[simp] theorem State.onPort_moves (i : Nat) (f : Port → Port) : (s.onPort i f).moves = s.moves := rfl
@[simp] theorem State.onPort_moveCtr (i : Nat) (f : Port → Port) : (s.onPort i f).moveCtr = s.moveCtr := rfl
@[simp] theorem State.onPort_led (i : Nat) (f : Port → Port) : (s.onPort i f).led = s.led := rfl
@[simp] theorem State.onPort_gens (i : Nat) (f : Port → Port) : (s.onPort i f).gens = s.gens := rfl
@[simp] theorem State.onPort_ft (i : Nat) (f : Port → Port) : (s.onPort i f).ft = s.ft := rfl
@[simp] theorem State.onPort_chip_dieMem (i : Nat) (f : Port → Port) : (s.onPort i f).chip.dieMem = s.chip.dieMem := rfl
@[simp] theorem State.onPort_chip_hbmCred (i : Nat) (f : Port → Port) : (s.onPort i f).chip.hbmCred = s.chip.hbmCred := rfl
@[simp] theorem State.onPort_chip_vaultCred (i : Nat) (f : Port → Port) : (s.onPort i f).chip.vaultCred = s.chip.vaultCred := rfl
@[simp] theorem State.onPort_chip_units (i : Nat) (f : Port → Port) : (s.onPort i f).chip.units = s.chip.units := rfl
@[simp] theorem State.onPort_chip_counters (i : Nat) (f : Port → Port) : (s.onPort i f).chip.counters = s.chip.counters := rfl
@[simp] theorem State.onPort_chip_samplers (i : Nat) (f : Port → Port) : (s.onPort i f).chip.samplers = s.chip.samplers := rfl
@[simp] theorem State.onPort_chip_missed (i : Nat) (f : Port → Port) : (s.onPort i f).chip.missed = s.chip.missed := rfl
@[simp] theorem State.onPort_chip_srcRem (i : Nat) (f : Port → Port) : (s.onPort i f).chip.srcRem = s.chip.srcRem := rfl
@[simp] theorem State.onPort_chip_links (i : Nat) (f : Port → Port) : (s.onPort i f).chip.links = s.chip.links := rfl
@[simp] theorem State.onPort_chip_power (i : Nat) (f : Port → Port) : (s.onPort i f).chip.power = s.chip.power := rfl
@[simp] theorem State.onPort_chip_fw (i : Nat) (f : Port → Port) : (s.onPort i f).chip.fw = s.chip.fw := rfl
@[simp] theorem State.onPort_chip_beacon (i : Nat) (f : Port → Port) : (s.onPort i f).chip.beacon = s.chip.beacon := rfl
@[simp] theorem State.onPort_chip_fabric (i : Nat) (f : Port → Port) : (s.onPort i f).chip.fabric = s.chip.fabric := rfl
@[simp] theorem State.onPort_chip_noc (i : Nat) (f : Port → Port) : (s.onPort i f).chip.noc = s.chip.noc := rfl

/-! ## `onLink` -/

@[simp] theorem State.onLink_pending (i : Nat) (f : HostLink → HostLink) : (s.onLink i f).pending = s.pending := rfl
@[simp] theorem State.onLink_out (i : Nat) (f : HostLink → HostLink) : (s.onLink i f).out = s.out := rfl
@[simp] theorem State.onLink_freeCtr (i : Nat) (f : HostLink → HostLink) : (s.onLink i f).freeCtr = s.freeCtr := rfl
@[simp] theorem State.onLink_mtime (i : Nat) (f : HostLink → HostLink) : (s.onLink i f).mtime = s.mtime := rfl
@[simp] theorem State.onLink_mem (i : Nat) (f : HostLink → HostLink) : (s.onLink i f).mem = s.mem := rfl
@[simp] theorem State.onLink_mail (i : Nat) (f : HostLink → HostLink) : (s.onLink i f).mail = s.mail := rfl
@[simp] theorem State.onLink_ten (i : Nat) (f : HostLink → HostLink) : (s.onLink i f).ten = s.ten := rfl
@[simp] theorem State.onLink_cores (i : Nat) (f : HostLink → HostLink) : (s.onLink i f).cores = s.cores := rfl
@[simp] theorem State.onLink_pkgs (i : Nat) (f : HostLink → HostLink) : (s.onLink i f).pkgs = s.pkgs := rfl
@[simp] theorem State.onLink_pkgOrder (i : Nat) (f : HostLink → HostLink) : (s.onLink i f).pkgOrder = s.pkgOrder := rfl
@[simp] theorem State.onLink_svcTurn (i : Nat) (f : HostLink → HostLink) : (s.onLink i f).svcTurn = s.svcTurn := rfl
@[simp] theorem State.onLink_demand (i : Nat) (f : HostLink → HostLink) : (s.onLink i f).demand = s.demand := rfl
@[simp] theorem State.onLink_models (i : Nat) (f : HostLink → HostLink) : (s.onLink i f).models = s.models := rfl
@[simp] theorem State.onLink_moves (i : Nat) (f : HostLink → HostLink) : (s.onLink i f).moves = s.moves := rfl
@[simp] theorem State.onLink_moveCtr (i : Nat) (f : HostLink → HostLink) : (s.onLink i f).moveCtr = s.moveCtr := rfl
@[simp] theorem State.onLink_led (i : Nat) (f : HostLink → HostLink) : (s.onLink i f).led = s.led := rfl
@[simp] theorem State.onLink_gens (i : Nat) (f : HostLink → HostLink) : (s.onLink i f).gens = s.gens := rfl
@[simp] theorem State.onLink_ft (i : Nat) (f : HostLink → HostLink) : (s.onLink i f).ft = s.ft := rfl
@[simp] theorem State.onLink_chip_dieMem (i : Nat) (f : HostLink → HostLink) : (s.onLink i f).chip.dieMem = s.chip.dieMem := rfl
@[simp] theorem State.onLink_chip_hbmCred (i : Nat) (f : HostLink → HostLink) : (s.onLink i f).chip.hbmCred = s.chip.hbmCred := rfl
@[simp] theorem State.onLink_chip_vaultCred (i : Nat) (f : HostLink → HostLink) : (s.onLink i f).chip.vaultCred = s.chip.vaultCred := rfl
@[simp] theorem State.onLink_chip_units (i : Nat) (f : HostLink → HostLink) : (s.onLink i f).chip.units = s.chip.units := rfl
@[simp] theorem State.onLink_chip_counters (i : Nat) (f : HostLink → HostLink) : (s.onLink i f).chip.counters = s.chip.counters := rfl
@[simp] theorem State.onLink_chip_samplers (i : Nat) (f : HostLink → HostLink) : (s.onLink i f).chip.samplers = s.chip.samplers := rfl
@[simp] theorem State.onLink_chip_missed (i : Nat) (f : HostLink → HostLink) : (s.onLink i f).chip.missed = s.chip.missed := rfl
@[simp] theorem State.onLink_chip_srcRem (i : Nat) (f : HostLink → HostLink) : (s.onLink i f).chip.srcRem = s.chip.srcRem := rfl
@[simp] theorem State.onLink_chip_ports (i : Nat) (f : HostLink → HostLink) : (s.onLink i f).chip.ports = s.chip.ports := rfl
@[simp] theorem State.onLink_chip_power (i : Nat) (f : HostLink → HostLink) : (s.onLink i f).chip.power = s.chip.power := rfl
@[simp] theorem State.onLink_chip_fw (i : Nat) (f : HostLink → HostLink) : (s.onLink i f).chip.fw = s.chip.fw := rfl
@[simp] theorem State.onLink_chip_beacon (i : Nat) (f : HostLink → HostLink) : (s.onLink i f).chip.beacon = s.chip.beacon := rfl
@[simp] theorem State.onLink_chip_fabric (i : Nat) (f : HostLink → HostLink) : (s.onLink i f).chip.fabric = s.chip.fabric := rfl
@[simp] theorem State.onLink_chip_noc (i : Nat) (f : HostLink → HostLink) : (s.onLink i f).chip.noc = s.chip.noc := rfl

/-! ## `onDieMem` -/

@[simp] theorem State.onDieMem_pending (i : Nat) (f : DieMem → DieMem) : (s.onDieMem i f).pending = s.pending := rfl
@[simp] theorem State.onDieMem_out (i : Nat) (f : DieMem → DieMem) : (s.onDieMem i f).out = s.out := rfl
@[simp] theorem State.onDieMem_freeCtr (i : Nat) (f : DieMem → DieMem) : (s.onDieMem i f).freeCtr = s.freeCtr := rfl
@[simp] theorem State.onDieMem_mtime (i : Nat) (f : DieMem → DieMem) : (s.onDieMem i f).mtime = s.mtime := rfl
@[simp] theorem State.onDieMem_mem (i : Nat) (f : DieMem → DieMem) : (s.onDieMem i f).mem = s.mem := rfl
@[simp] theorem State.onDieMem_mail (i : Nat) (f : DieMem → DieMem) : (s.onDieMem i f).mail = s.mail := rfl
@[simp] theorem State.onDieMem_ten (i : Nat) (f : DieMem → DieMem) : (s.onDieMem i f).ten = s.ten := rfl
@[simp] theorem State.onDieMem_cores (i : Nat) (f : DieMem → DieMem) : (s.onDieMem i f).cores = s.cores := rfl
@[simp] theorem State.onDieMem_pkgs (i : Nat) (f : DieMem → DieMem) : (s.onDieMem i f).pkgs = s.pkgs := rfl
@[simp] theorem State.onDieMem_pkgOrder (i : Nat) (f : DieMem → DieMem) : (s.onDieMem i f).pkgOrder = s.pkgOrder := rfl
@[simp] theorem State.onDieMem_svcTurn (i : Nat) (f : DieMem → DieMem) : (s.onDieMem i f).svcTurn = s.svcTurn := rfl
@[simp] theorem State.onDieMem_demand (i : Nat) (f : DieMem → DieMem) : (s.onDieMem i f).demand = s.demand := rfl
@[simp] theorem State.onDieMem_models (i : Nat) (f : DieMem → DieMem) : (s.onDieMem i f).models = s.models := rfl
@[simp] theorem State.onDieMem_moves (i : Nat) (f : DieMem → DieMem) : (s.onDieMem i f).moves = s.moves := rfl
@[simp] theorem State.onDieMem_moveCtr (i : Nat) (f : DieMem → DieMem) : (s.onDieMem i f).moveCtr = s.moveCtr := rfl
@[simp] theorem State.onDieMem_led (i : Nat) (f : DieMem → DieMem) : (s.onDieMem i f).led = s.led := rfl
@[simp] theorem State.onDieMem_gens (i : Nat) (f : DieMem → DieMem) : (s.onDieMem i f).gens = s.gens := rfl
@[simp] theorem State.onDieMem_ft (i : Nat) (f : DieMem → DieMem) : (s.onDieMem i f).ft = s.ft := rfl
@[simp] theorem State.onDieMem_chip_hbmCred (i : Nat) (f : DieMem → DieMem) : (s.onDieMem i f).chip.hbmCred = s.chip.hbmCred := rfl
@[simp] theorem State.onDieMem_chip_vaultCred (i : Nat) (f : DieMem → DieMem) : (s.onDieMem i f).chip.vaultCred = s.chip.vaultCred := rfl
@[simp] theorem State.onDieMem_chip_units (i : Nat) (f : DieMem → DieMem) : (s.onDieMem i f).chip.units = s.chip.units := rfl
@[simp] theorem State.onDieMem_chip_counters (i : Nat) (f : DieMem → DieMem) : (s.onDieMem i f).chip.counters = s.chip.counters := rfl
@[simp] theorem State.onDieMem_chip_samplers (i : Nat) (f : DieMem → DieMem) : (s.onDieMem i f).chip.samplers = s.chip.samplers := rfl
@[simp] theorem State.onDieMem_chip_missed (i : Nat) (f : DieMem → DieMem) : (s.onDieMem i f).chip.missed = s.chip.missed := rfl
@[simp] theorem State.onDieMem_chip_srcRem (i : Nat) (f : DieMem → DieMem) : (s.onDieMem i f).chip.srcRem = s.chip.srcRem := rfl
@[simp] theorem State.onDieMem_chip_links (i : Nat) (f : DieMem → DieMem) : (s.onDieMem i f).chip.links = s.chip.links := rfl
@[simp] theorem State.onDieMem_chip_ports (i : Nat) (f : DieMem → DieMem) : (s.onDieMem i f).chip.ports = s.chip.ports := rfl
@[simp] theorem State.onDieMem_chip_power (i : Nat) (f : DieMem → DieMem) : (s.onDieMem i f).chip.power = s.chip.power := rfl
@[simp] theorem State.onDieMem_chip_fw (i : Nat) (f : DieMem → DieMem) : (s.onDieMem i f).chip.fw = s.chip.fw := rfl
@[simp] theorem State.onDieMem_chip_beacon (i : Nat) (f : DieMem → DieMem) : (s.onDieMem i f).chip.beacon = s.chip.beacon := rfl
@[simp] theorem State.onDieMem_chip_fabric (i : Nat) (f : DieMem → DieMem) : (s.onDieMem i f).chip.fabric = s.chip.fabric := rfl
@[simp] theorem State.onDieMem_chip_noc (i : Nat) (f : DieMem → DieMem) : (s.onDieMem i f).chip.noc = s.chip.noc := rfl

/-! ## `onUnit` -/

@[simp] theorem State.onUnit_pending (k i : Nat) (f : UnitRec → UnitRec) : (s.onUnit k i f).pending = s.pending := rfl
@[simp] theorem State.onUnit_out (k i : Nat) (f : UnitRec → UnitRec) : (s.onUnit k i f).out = s.out := rfl
@[simp] theorem State.onUnit_freeCtr (k i : Nat) (f : UnitRec → UnitRec) : (s.onUnit k i f).freeCtr = s.freeCtr := rfl
@[simp] theorem State.onUnit_mtime (k i : Nat) (f : UnitRec → UnitRec) : (s.onUnit k i f).mtime = s.mtime := rfl
@[simp] theorem State.onUnit_mem (k i : Nat) (f : UnitRec → UnitRec) : (s.onUnit k i f).mem = s.mem := rfl
@[simp] theorem State.onUnit_mail (k i : Nat) (f : UnitRec → UnitRec) : (s.onUnit k i f).mail = s.mail := rfl
@[simp] theorem State.onUnit_ten (k i : Nat) (f : UnitRec → UnitRec) : (s.onUnit k i f).ten = s.ten := rfl
@[simp] theorem State.onUnit_cores (k i : Nat) (f : UnitRec → UnitRec) : (s.onUnit k i f).cores = s.cores := rfl
@[simp] theorem State.onUnit_pkgs (k i : Nat) (f : UnitRec → UnitRec) : (s.onUnit k i f).pkgs = s.pkgs := rfl
@[simp] theorem State.onUnit_pkgOrder (k i : Nat) (f : UnitRec → UnitRec) : (s.onUnit k i f).pkgOrder = s.pkgOrder := rfl
@[simp] theorem State.onUnit_svcTurn (k i : Nat) (f : UnitRec → UnitRec) : (s.onUnit k i f).svcTurn = s.svcTurn := rfl
@[simp] theorem State.onUnit_demand (k i : Nat) (f : UnitRec → UnitRec) : (s.onUnit k i f).demand = s.demand := rfl
@[simp] theorem State.onUnit_models (k i : Nat) (f : UnitRec → UnitRec) : (s.onUnit k i f).models = s.models := rfl
@[simp] theorem State.onUnit_moves (k i : Nat) (f : UnitRec → UnitRec) : (s.onUnit k i f).moves = s.moves := rfl
@[simp] theorem State.onUnit_moveCtr (k i : Nat) (f : UnitRec → UnitRec) : (s.onUnit k i f).moveCtr = s.moveCtr := rfl
@[simp] theorem State.onUnit_led (k i : Nat) (f : UnitRec → UnitRec) : (s.onUnit k i f).led = s.led := rfl
@[simp] theorem State.onUnit_gens (k i : Nat) (f : UnitRec → UnitRec) : (s.onUnit k i f).gens = s.gens := rfl
@[simp] theorem State.onUnit_ft (k i : Nat) (f : UnitRec → UnitRec) : (s.onUnit k i f).ft = s.ft := rfl
@[simp] theorem State.onUnit_chip_dieMem (k i : Nat) (f : UnitRec → UnitRec) : (s.onUnit k i f).chip.dieMem = s.chip.dieMem := rfl
@[simp] theorem State.onUnit_chip_hbmCred (k i : Nat) (f : UnitRec → UnitRec) : (s.onUnit k i f).chip.hbmCred = s.chip.hbmCred := rfl
@[simp] theorem State.onUnit_chip_vaultCred (k i : Nat) (f : UnitRec → UnitRec) : (s.onUnit k i f).chip.vaultCred = s.chip.vaultCred := rfl
@[simp] theorem State.onUnit_chip_counters (k i : Nat) (f : UnitRec → UnitRec) : (s.onUnit k i f).chip.counters = s.chip.counters := rfl
@[simp] theorem State.onUnit_chip_samplers (k i : Nat) (f : UnitRec → UnitRec) : (s.onUnit k i f).chip.samplers = s.chip.samplers := rfl
@[simp] theorem State.onUnit_chip_missed (k i : Nat) (f : UnitRec → UnitRec) : (s.onUnit k i f).chip.missed = s.chip.missed := rfl
@[simp] theorem State.onUnit_chip_srcRem (k i : Nat) (f : UnitRec → UnitRec) : (s.onUnit k i f).chip.srcRem = s.chip.srcRem := rfl
@[simp] theorem State.onUnit_chip_links (k i : Nat) (f : UnitRec → UnitRec) : (s.onUnit k i f).chip.links = s.chip.links := rfl
@[simp] theorem State.onUnit_chip_ports (k i : Nat) (f : UnitRec → UnitRec) : (s.onUnit k i f).chip.ports = s.chip.ports := rfl
@[simp] theorem State.onUnit_chip_power (k i : Nat) (f : UnitRec → UnitRec) : (s.onUnit k i f).chip.power = s.chip.power := rfl
@[simp] theorem State.onUnit_chip_fw (k i : Nat) (f : UnitRec → UnitRec) : (s.onUnit k i f).chip.fw = s.chip.fw := rfl
@[simp] theorem State.onUnit_chip_beacon (k i : Nat) (f : UnitRec → UnitRec) : (s.onUnit k i f).chip.beacon = s.chip.beacon := rfl
@[simp] theorem State.onUnit_chip_fabric (k i : Nat) (f : UnitRec → UnitRec) : (s.onUnit k i f).chip.fabric = s.chip.fabric := rfl
@[simp] theorem State.onUnit_chip_noc (k i : Nat) (f : UnitRec → UnitRec) : (s.onUnit k i f).chip.noc = s.chip.noc := rfl

/-! ## `onCore` -/

@[simp] theorem State.onCore_pending (i : Nat) (f : Core → Core) : (s.onCore i f).pending = s.pending := rfl
@[simp] theorem State.onCore_out (i : Nat) (f : Core → Core) : (s.onCore i f).out = s.out := rfl
@[simp] theorem State.onCore_freeCtr (i : Nat) (f : Core → Core) : (s.onCore i f).freeCtr = s.freeCtr := rfl
@[simp] theorem State.onCore_mtime (i : Nat) (f : Core → Core) : (s.onCore i f).mtime = s.mtime := rfl
@[simp] theorem State.onCore_mem (i : Nat) (f : Core → Core) : (s.onCore i f).mem = s.mem := rfl
@[simp] theorem State.onCore_mail (i : Nat) (f : Core → Core) : (s.onCore i f).mail = s.mail := rfl
@[simp] theorem State.onCore_ten (i : Nat) (f : Core → Core) : (s.onCore i f).ten = s.ten := rfl
@[simp] theorem State.onCore_chip (i : Nat) (f : Core → Core) : (s.onCore i f).chip = s.chip := rfl
@[simp] theorem State.onCore_pkgs (i : Nat) (f : Core → Core) : (s.onCore i f).pkgs = s.pkgs := rfl
@[simp] theorem State.onCore_pkgOrder (i : Nat) (f : Core → Core) : (s.onCore i f).pkgOrder = s.pkgOrder := rfl
@[simp] theorem State.onCore_svcTurn (i : Nat) (f : Core → Core) : (s.onCore i f).svcTurn = s.svcTurn := rfl
@[simp] theorem State.onCore_demand (i : Nat) (f : Core → Core) : (s.onCore i f).demand = s.demand := rfl
@[simp] theorem State.onCore_models (i : Nat) (f : Core → Core) : (s.onCore i f).models = s.models := rfl
@[simp] theorem State.onCore_moves (i : Nat) (f : Core → Core) : (s.onCore i f).moves = s.moves := rfl
@[simp] theorem State.onCore_moveCtr (i : Nat) (f : Core → Core) : (s.onCore i f).moveCtr = s.moveCtr := rfl
@[simp] theorem State.onCore_led (i : Nat) (f : Core → Core) : (s.onCore i f).led = s.led := rfl
@[simp] theorem State.onCore_gens (i : Nat) (f : Core → Core) : (s.onCore i f).gens = s.gens := rfl
@[simp] theorem State.onCore_ft (i : Nat) (f : Core → Core) : (s.onCore i f).ft = s.ft := rfl

/-! ## `onModel` -/

@[simp] theorem State.onModel_pending (i : Nat) (f : Model → Model) : (s.onModel i f).pending = s.pending := rfl
@[simp] theorem State.onModel_out (i : Nat) (f : Model → Model) : (s.onModel i f).out = s.out := rfl
@[simp] theorem State.onModel_freeCtr (i : Nat) (f : Model → Model) : (s.onModel i f).freeCtr = s.freeCtr := rfl
@[simp] theorem State.onModel_mtime (i : Nat) (f : Model → Model) : (s.onModel i f).mtime = s.mtime := rfl
@[simp] theorem State.onModel_mem (i : Nat) (f : Model → Model) : (s.onModel i f).mem = s.mem := rfl
@[simp] theorem State.onModel_mail (i : Nat) (f : Model → Model) : (s.onModel i f).mail = s.mail := rfl
@[simp] theorem State.onModel_ten (i : Nat) (f : Model → Model) : (s.onModel i f).ten = s.ten := rfl
@[simp] theorem State.onModel_chip (i : Nat) (f : Model → Model) : (s.onModel i f).chip = s.chip := rfl
@[simp] theorem State.onModel_cores (i : Nat) (f : Model → Model) : (s.onModel i f).cores = s.cores := rfl
@[simp] theorem State.onModel_pkgs (i : Nat) (f : Model → Model) : (s.onModel i f).pkgs = s.pkgs := rfl
@[simp] theorem State.onModel_pkgOrder (i : Nat) (f : Model → Model) : (s.onModel i f).pkgOrder = s.pkgOrder := rfl
@[simp] theorem State.onModel_svcTurn (i : Nat) (f : Model → Model) : (s.onModel i f).svcTurn = s.svcTurn := rfl
@[simp] theorem State.onModel_demand (i : Nat) (f : Model → Model) : (s.onModel i f).demand = s.demand := rfl
@[simp] theorem State.onModel_moves (i : Nat) (f : Model → Model) : (s.onModel i f).moves = s.moves := rfl
@[simp] theorem State.onModel_moveCtr (i : Nat) (f : Model → Model) : (s.onModel i f).moveCtr = s.moveCtr := rfl
@[simp] theorem State.onModel_led (i : Nat) (f : Model → Model) : (s.onModel i f).led = s.led := rfl
@[simp] theorem State.onModel_gens (i : Nat) (f : Model → Model) : (s.onModel i f).gens = s.gens := rfl
@[simp] theorem State.onModel_ft (i : Nat) (f : Model → Model) : (s.onModel i f).ft = s.ft := rfl

/-! ## `emit` -/

@[simp] theorem State.emit_pending (o : Out) : (s.emit o).pending = s.pending := rfl
@[simp] theorem State.emit_freeCtr (o : Out) : (s.emit o).freeCtr = s.freeCtr := rfl
@[simp] theorem State.emit_mtime (o : Out) : (s.emit o).mtime = s.mtime := rfl
@[simp] theorem State.emit_mem (o : Out) : (s.emit o).mem = s.mem := rfl
@[simp] theorem State.emit_mail (o : Out) : (s.emit o).mail = s.mail := rfl
@[simp] theorem State.emit_ten (o : Out) : (s.emit o).ten = s.ten := rfl
@[simp] theorem State.emit_chip (o : Out) : (s.emit o).chip = s.chip := rfl
@[simp] theorem State.emit_cores (o : Out) : (s.emit o).cores = s.cores := rfl
@[simp] theorem State.emit_pkgs (o : Out) : (s.emit o).pkgs = s.pkgs := rfl
@[simp] theorem State.emit_pkgOrder (o : Out) : (s.emit o).pkgOrder = s.pkgOrder := rfl
@[simp] theorem State.emit_svcTurn (o : Out) : (s.emit o).svcTurn = s.svcTurn := rfl
@[simp] theorem State.emit_demand (o : Out) : (s.emit o).demand = s.demand := rfl
@[simp] theorem State.emit_models (o : Out) : (s.emit o).models = s.models := rfl
@[simp] theorem State.emit_moves (o : Out) : (s.emit o).moves = s.moves := rfl
@[simp] theorem State.emit_moveCtr (o : Out) : (s.emit o).moveCtr = s.moveCtr := rfl
@[simp] theorem State.emit_led (o : Out) : (s.emit o).led = s.led := rfl
@[simp] theorem State.emit_gens (o : Out) : (s.emit o).gens = s.gens := rfl
@[simp] theorem State.emit_ft (o : Out) : (s.emit o).ft = s.ft := rfl

/-! ## What an update puts in place -/

@[simp] theorem State.onPower_power (f : Power → Power) : (s.onPower f).chip.power = f s.chip.power := rfl
@[simp] theorem State.onFw_fw (f : Firmware → Firmware) : (s.onFw f).chip.fw = f s.chip.fw := rfl
@[simp] theorem State.onBeacon_beacon (f : Beacon → Beacon) : (s.onBeacon f).chip.beacon = f s.chip.beacon := rfl
@[simp] theorem State.onFabric_fabric (f : Fabric → Fabric) : (s.onFabric f).chip.fabric = f s.chip.fabric := rfl
@[simp] theorem State.emit_out (o : Out) : (s.emit o).out = s.out ++ [o] := rfl

/-- An element that a list holds, after a change at an index. -/
theorem getD_lmod {α : Type} (l : List α) (i j : Nat) (f : α → α) (d : α) :
    (lmod l i f).getD j d = if i = j ∧ j < l.length then f (l.getD j d) else l.getD j d := by
  simp only [lmod, List.getD_eq_getElem?_getD, List.getElem?_modify]
  by_cases h : i = j
  · subst h
    by_cases hl : i < l.length <;> simp [hl]
  · simp [h]

@[simp] theorem length_lmod {α : Type} (l : List α) (i : Nat) (f : α → α) : (lmod l i f).length = l.length := by simp [lmod]

/-- The mailbox of a function after a change. -/
theorem State.func_onFunc (i j : Nat) (f : Func → Func) :
    (s.onFunc i f).func j = if i = j ∧ j < s.mail.funcs.length then f (s.func j) else s.func j := by
  simp only [State.func, State.onFunc, getD_lmod]

/-- A change of one function leaves every other alone. -/
@[simp] theorem State.func_onFunc_ne {i j : Nat} (h : i ≠ j) (f : Func → Func) : (s.onFunc i f).func j = s.func j := by
  simp [State.func_onFunc, h]

/-- An account after a change. -/
theorem State.acct_onAcct (i j : Nat) (f : Account → Account) :
    (s.onAcct i f).acct j = if i = j ∧ j < s.ten.accts.length then f (s.acct j) else s.acct j := by
  simp only [State.acct, State.onAcct, getD_lmod]

/-- A port after a change. -/
theorem State.port_onPort (i j : Nat) (f : Port → Port) :
    (s.onPort i f).port j = if i = j ∧ j < s.chip.ports.length then f (s.port j) else s.port j := by
  simp only [State.port, State.onPort, getD_lmod]

/-- A core after a change. -/
theorem State.core_onCore (i j : Nat) (f : Core → Core) :
    (s.onCore i f).core j = if i = j ∧ j < s.cores.length then f (s.core j) else s.core j := by
  simp only [State.core, State.onCore, getD_lmod]

/-- Keys below `k` do not hide it. -/
theorem lookup_below {α : Type} (t rest : Tbl α) (k : Nat) (v : α) :
    List.lookup k (t.filter (fun p => decide (p.1 < k)) ++ (k, v) :: rest) = some v := by
  induction t with
  | nil => simp
  | cons p t ih =>
    by_cases h : p.1 < k
    · have : (k == p.1) = false := by simp; omega
      simpa [h, List.lookup, this] using ih
    · simpa [h] using ih

/-- The value at a key after it is set. -/
@[simp] theorem tget_tset_same {α : Type} (t : Tbl α) (k : Nat) (v : α) : tget (tset t k v) k = some v :=
  lookup_below _ _ _ _

/-! ## `countUnseen` -/

@[simp] theorem countUnseen_pending (k : Nat) : (countUnseen k s).pending = s.pending := rfl
@[simp] theorem countUnseen_out (k : Nat) : (countUnseen k s).out = s.out := rfl
@[simp] theorem countUnseen_mtime (k : Nat) : (countUnseen k s).mtime = s.mtime := rfl
@[simp] theorem countUnseen_mem (k : Nat) : (countUnseen k s).mem = s.mem := rfl
@[simp] theorem countUnseen_mail (k : Nat) : (countUnseen k s).mail = s.mail := rfl
@[simp] theorem countUnseen_ten (k : Nat) : (countUnseen k s).ten = s.ten := rfl
@[simp] theorem countUnseen_cores (k : Nat) : (countUnseen k s).cores = s.cores := rfl
@[simp] theorem countUnseen_pkgs (k : Nat) : (countUnseen k s).pkgs = s.pkgs := rfl
@[simp] theorem countUnseen_pkgOrder (k : Nat) : (countUnseen k s).pkgOrder = s.pkgOrder := rfl
@[simp] theorem countUnseen_svcTurn (k : Nat) : (countUnseen k s).svcTurn = s.svcTurn := rfl
@[simp] theorem countUnseen_demand (k : Nat) : (countUnseen k s).demand = s.demand := rfl
@[simp] theorem countUnseen_models (k : Nat) : (countUnseen k s).models = s.models := rfl
@[simp] theorem countUnseen_moves (k : Nat) : (countUnseen k s).moves = s.moves := rfl
@[simp] theorem countUnseen_moveCtr (k : Nat) : (countUnseen k s).moveCtr = s.moveCtr := rfl
@[simp] theorem countUnseen_led (k : Nat) : (countUnseen k s).led = s.led := rfl
@[simp] theorem countUnseen_gens (k : Nat) : (countUnseen k s).gens = s.gens := rfl
@[simp] theorem countUnseen_ft (k : Nat) : (countUnseen k s).ft = s.ft := rfl

/-- Looking at counters changes nothing of the chip but its counters. -/
theorem countUnseen_chip (k : Nat) :
    (countUnseen k s).chip = { s.chip with counters := (countUnseen k s).chip.counters } := rfl

end Sys2Proof.Machine
end

