-- ==== Sys2Proof/Laws/Memory.lean ====
section
/-!
SUPPORT. Memory: every operation keeps the canonical form, a read after a write gives what was written, and a write leaves every
other key alone.
-/
namespace Sys2Proof.Machine

/-! ## The canonical form -/

theorem Memory.wf_nil : Memory.wf [] := by simp [Memory.wf]

/-- Leaving cells out keeps the form. -/
theorem Memory.wf_filter {m : Memory} (h : m.wf) (p : Host.Cell → Bool) : Memory.wf (m.filter p) :=
  ⟨h.1.filter _, fun c hc => h.2 c (List.mem_of_mem_filter hc)⟩

/-- Cells come from their range and are not zero. -/
theorem mem_cellsOf {bs : Bytes} {k : Nat} {c : Host.Cell} (h : c ∈ cellsOf k bs) :
    k ≤ c.1 ∧ c.1 < k + bs.length ∧ c.2 ≠ 0 := by
  induction bs generalizing k with
  | nil => simp [cellsOf] at h
  | cons b bs ih =>
    simp only [cellsOf] at h
    split at h
    · obtain ⟨h1, h2, h3⟩ := ih h
      simp only [List.length_cons]; exact ⟨by omega, by omega, h3⟩
    · rename_i hb
      simp only [List.mem_cons] at h
      rcases h with rfl | h
      · simp only [List.length_cons]; exact ⟨by omega, by omega, by simpa using hb⟩
      · obtain ⟨h1, h2, h3⟩ := ih h
        simp only [List.length_cons]; exact ⟨by omega, by omega, h3⟩

/-- The cells of bytes are in canonical form. -/
theorem cellsOf_wf (k : Nat) (bs : Bytes) : Memory.wf (cellsOf k bs) := by
  refine ⟨?_, fun c hc => (mem_cellsOf hc).2.2⟩
  induction bs generalizing k with
  | nil => simp [cellsOf]
  | cons b bs ih =>
    simp only [cellsOf]
    split
    · exact ih _
    · refine List.pairwise_cons.2 ⟨fun c hc => ?_, ih _⟩
      have := (mem_cellsOf hc).1
      simp only; omega

/-- A write keeps the form. -/
theorem Memory.put_wf {m : Memory} (h : m.wf) (k : Nat) (bs : Bytes) : (m.put k bs).wf := by
  have hl := Memory.wf_filter h (fun c => decide (c.1 < k))
  have hr := Memory.wf_filter h (fun c => decide (k + bs.length ≤ c.1))
  have hc := cellsOf_wf k bs
  unfold Memory.put
  refine ⟨?_, ?_⟩
  · refine List.pairwise_append.2 ⟨List.pairwise_append.2 ⟨hl.1, hc.1, ?_⟩, hr.1, ?_⟩
    · intro x hx y hy
      have h1 : x.1 < k := by simpa using (List.mem_filter.1 hx).2
      have := (mem_cellsOf hy).1
      omega
    · intro x hx y hy
      have h2 : k + bs.length ≤ y.1 := by simpa using (List.mem_filter.1 hy).2
      rcases List.mem_append.1 hx with hx | hx
      · have h1 : x.1 < k := by simpa using (List.mem_filter.1 hx).2
        omega
      · have := (mem_cellsOf hx).2.1
        omega
  · intro c hcm
    rcases List.mem_append.1 hcm with hcm | hcm
    · rcases List.mem_append.1 hcm with hcm | hcm
      · exact hl.2 c hcm
      · exact hc.2 c hcm
    · exact hr.2 c hcm

/-- Zeroing a range keeps the form. -/
theorem Memory.clear_wf {m : Memory} (h : m.wf) (k n : Nat) : (m.clear k n).wf := Memory.wf_filter h _

/-- Writing runs keeps the form. -/
theorem Memory.putRuns_wf {m : Memory} (h : m.wf) (ps : List (Nat × Nat)) (bs : Bytes) : (m.putRuns ps bs).wf := by
  induction ps generalizing m bs with
  | nil => exact h
  | cons p ps ih => exact ih (Memory.put_wf h _ _) _

/-- A write at an internal address keeps the form. -/
theorem Memory.store_wf {m : Memory} (h : m.wf) (a : Nat) (bs : Bytes) : (m.store a bs).wf := Memory.putRuns_wf h _ _

/-- Zeroing a range of internal addresses keeps the form. -/
theorem Memory.wipe_wf {m : Memory} (h : m.wf) (a n : Nat) : (m.wipe a n).wf := by
  unfold Memory.wipe
  generalize pieces a n = ps
  induction ps generalizing m with
  | nil => exact h
  | cons p ps ih => exact ih (Memory.clear_wf h _ _)

/-! ## Reads after writes -/

theorem lookup_filter_eq {α : Type} (t : Tbl α) (p : Nat × α → Bool) (j : Nat) (h : ∀ v, p (j, v) = true) :
    List.lookup j (t.filter p) = List.lookup j t := by
  induction t with
  | nil => rfl
  | cons c t ih =>
    obtain ⟨k, v⟩ := c
    by_cases hk : j = k
    · subst hk; simp [List.filter, h, List.lookup]
    · have hk' : (j == k) = false := by simpa using hk
      by_cases hp : p (k, v) = true <;> simp [List.filter, hp, List.lookup, hk', ih]

theorem lookup_filter_none {α : Type} (t : Tbl α) (p : Nat × α → Bool) (j : Nat) (h : ∀ v, p (j, v) = false) :
    List.lookup j (t.filter p) = none := by
  induction t with
  | nil => rfl
  | cons c t ih =>
    obtain ⟨k, v⟩ := c
    by_cases hk : j = k
    · subst hk; simp [List.filter, h, ih]
    · have hk' : (j == k) = false := by simpa using hk
      by_cases hp : p (k, v) = true <;> simp [List.filter, hp, List.lookup, hk', ih]

theorem lookup_append {α : Type} (t u : Tbl α) (j : Nat) :
    List.lookup j (t ++ u) = (List.lookup j t).or (List.lookup j u) := by
  induction t with
  | nil => simp
  | cons c t ih =>
    obtain ⟨k, v⟩ := c
    by_cases hk : (j == k) = true
    · simp [List.lookup, hk]
    · have hk' : (j == k) = false := by simpa using hk
      simp [List.lookup, hk', ih]

theorem lookup_cellsOf_out (bs : Bytes) (k j : Nat) (h : j < k ∨ k + bs.length ≤ j) : List.lookup j (cellsOf k bs) = none := by
  induction bs generalizing k with
  | nil => rfl
  | cons b bs ih =>
    simp only [List.length_cons] at h
    have := ih (k + 1) (by omega)
    have hk : (j == k) = false := by simp; omega
    simp only [cellsOf]
    split
    · exact this
    · simp [List.lookup, hk, this]

theorem get_cellsOf (bs : Bytes) (k i : Nat) (h : i < bs.length) :
    (List.lookup (k + i) (cellsOf k bs)).getD 0 = bs[i] := by
  induction bs generalizing k i with
  | nil => simp at h
  | cons b bs ih =>
    cases i with
    | zero =>
      simp only [cellsOf, Nat.add_zero, List.getElem_cons_zero]
      split
      · rename_i hb
        rw [lookup_cellsOf_out _ _ _ (by omega)]
        simpa using (by simpa using hb : b = 0).symm
      · simp [List.lookup]
    | succ i =>
      have h' : i < bs.length := by simpa using h
      have e : k + (i + 1) = k + 1 + i := by omega
      have hk : (k + 1 + i == k) = false := by simp; omega
      simp only [cellsOf, List.getElem_cons_succ, e]
      split
      · exact ih _ _ h'
      · simp only [List.lookup, hk]; exact ih _ _ h'

/-- A write leaves every key outside its range alone. -/
theorem Memory.get_put_out (m : Memory) (k j : Nat) (bs : Bytes) (h : j < k ∨ k + bs.length ≤ j) :
    (m.put k bs).get j = m.get j := by
  unfold Memory.get Memory.put
  congr 1
  simp only [lookup_append, lookup_cellsOf_out _ _ _ h, Option.or_none]
  rcases h with h | h
  · rw [lookup_filter_eq _ _ _ (by simpa using h), lookup_filter_none _ _ _ (by intro v; simp; omega), Option.or_none]
  · rw [lookup_filter_none _ _ _ (by intro v; simp; omega), lookup_filter_eq _ _ _ (by simpa using h), Option.none_or]

/-- A read of a written key gives the byte written. -/
theorem Memory.get_put_in (m : Memory) (k i : Nat) (bs : Bytes) (h : i < bs.length) : (m.put k bs).get (k + i) = bs[i] := by
  unfold Memory.get Memory.put
  have e := get_cellsOf bs k i h
  rw [lookup_append, lookup_append, lookup_filter_none _ _ _ (by intro v; simp), Option.none_or,
    lookup_filter_none (p := fun c => decide (k + bs.length ≤ c.1)) _ _ (by intro v; simp; omega), Option.or_none]
  exact e

theorem Memory.get_filter (m : Memory) (p : Host.Cell → Bool) (j : Nat) (h : ∀ v, p (j, v) = true) :
    Memory.get (m.filter p) j = m.get j := by
  unfold Memory.get; rw [lookup_filter_eq m p j h]

/-- The bytes of a range are the bytes at its keys. -/
theorem Memory.bytes_eq (m : Memory) (k n : Nat) : m.bytes k n = (List.range n).map fun i => m.get (k + i) := by
  unfold Memory.bytes
  apply List.map_congr_left
  intro i hi
  have := List.mem_range.1 hi
  exact Memory.get_filter _ _ _ (by intro v; simp; omega)

/-- A read after a write to the same range gives what was written. -/
theorem Memory.bytes_put_same (m : Memory) (k : Nat) (bs : Bytes) : (m.put k bs).bytes k bs.length = bs := by
  rw [Memory.bytes_eq]
  apply List.ext_getElem
  · simp
  · intro i h1 h2
    simp only [List.getElem_map, List.getElem_range]
    exact Memory.get_put_in _ _ _ _ h2

/-- A write leaves every range beside its own alone. -/
theorem Memory.bytes_put_apart (m : Memory) (k j n : Nat) (bs : Bytes) (h : j + n ≤ k ∨ k + bs.length ≤ j) :
    (m.put k bs).bytes j n = m.bytes j n := by
  rw [Memory.bytes_eq, Memory.bytes_eq]
  apply List.map_congr_left
  intro i hi
  have := List.mem_range.1 hi
  exact Memory.get_put_out _ _ _ _ (by omega)

/-- A zeroed range reads zero. -/
theorem Memory.get_clear_in (m : Memory) (k n j : Nat) (h : k ≤ j ∧ j < k + n) : (m.clear k n).get j = 0 := by
  unfold Memory.get Memory.clear
  rw [lookup_filter_none _ _ _ (by intro v; simp; omega)]; rfl

/-- Zeroing a range leaves every other key alone. -/
theorem Memory.get_clear_out (m : Memory) (k n j : Nat) (h : j < k ∨ k + n ≤ j) : (m.clear k n).get j = m.get j :=
  Memory.get_filter _ _ _ (by intro v; simp; omega)

/-! ## Reads and writes at internal addresses -/

/-- Outside the quarter view a range is one run of keys. -/
theorem pieces_plain {a n : Nat} (h : ¬(quarterBase ≤ a ∧ a < vaultBase)) : pieces a n = [(a, n)] := by
  unfold pieces; rw [if_neg h]

/-- What a write at an internal address does to memory. -/
theorem State.write_mem (s : State) (a : Nat) (bs : Bytes) : (s.write a bs).mem = s.mem.store a bs := rfl

/-- A write at an internal address keeps the form. -/
theorem State.write_wf {s : State} (h : s.mem.wf) (a : Nat) (bs : Bytes) : (s.write a bs).mem.wf := Memory.store_wf h _ _

/-- A range that takes unspecified values keeps the form. -/
theorem State.scramble_wf {s : State} (h : s.mem.wf) (a n : Nat) : (s.scramble a n).mem.wf := Memory.store_wf h _ _

/-- A read after a write gives what was written, outside the quarter view. -/
theorem State.read_write (s : State) (a : Nat) (bs : Bytes) (h : ¬(quarterBase ≤ a ∧ a < vaultBase)) :
    (s.write a bs).read a bs.length = bs := by
  simp only [State.read, Memory.load, State.write_mem, Memory.store, pieces_plain h, Memory.putRuns, List.flatMap_cons,
    List.flatMap_nil, List.append_nil, List.take_length]
  exact Memory.bytes_put_same _ _ _

end Sys2Proof.Machine
end

