-- ==== Sys2Proof/Laws/Noc.lean ====
section
/-!
SUPPORT. The network between the dies: a route ends at its destination in at most two hops over the links of R22, on rising levels,
and from empty buffers a message crosses it and leaves them empty.
-/
namespace Sys2Proof.Machine

/-- Two dies with a link between them (R22). -/
def linked (a b : Nat) : Bool := (b + 8 - a) % 8 == 1 || (b + 8 - a) % 8 == 7 || (b + 8 - a) % 8 == 4

/-- A route takes at most two hops, each over a link of R22, on levels 0 and 1 (R22, R369). -/
theorem dieHops_ok : ∀ a < 8, ∀ b < 8,
    (dieHops a b).length ≤ 2 ∧ (dieHops a b).all (fun h => linked h.src h.dst) ∧ ((dieHops a b).map (·.level)) <+: [0, 1] := by
  decide

/-- A route ends at its destination (R369). -/
theorem dieHops_ends : ∀ a < 8, ∀ b < 8, (dieHops a b).getLast?.map (·.dst) = if a = b then none else some b := by decide

/-- A buffer that a flit enters and leaves holds what it held before, where it held nothing. -/
theorem hold_hold (k : Nat) (n : Noc) (h : n.held = []) : ((n.hold k true).hold k false) = n := by
  cases n
  simp_all [Noc.hold, tgetD, tset, terase]

/-- Over one link a message crosses from empty buffers, and leaves them empty. -/
theorem cross_one (vc : Vc) (x : Hop) (n : Noc) (h : n.held = []) : Noc.cross vc none [x] n = some n := by
  have c : n.credit vc x = true := by simp [Noc.credit, h, tgetD]
  simp [Noc.cross, c, hold_hold _ _ h]

/-- Over two links, the same: the second credit is taken before the first returns (R370). -/
theorem cross_two (vc : Vc) (x y : Hop) (n : Noc) (h : n.held = []) (hk : x.key vc ≠ y.key vc) :
    Noc.cross vc none [x, y] n = some n := by
  obtain ⟨l, r⟩ := n
  obtain rfl : l = [] := h
  have e : (x.key vc == y.key vc) = false := by simpa using hk
  have f : (y.key vc == x.key vc) = false := by simpa using Ne.symm hk
  rcases Nat.lt_or_gt_of_ne hk with g | g <;>
    simp [Noc.cross, Noc.credit, Noc.hold, tgetD, tset, terase, List.lookup, e, f, Ne.symm hk, g, Nat.le_of_lt g]

/-- A message's crossing changes nothing but the network. -/
theorem carry_rest (ms : List (Vc × List Hop)) (s : State) (k : State → State) :
    s.carry ms k = s ∨ ∃ n, s.carry ms k = k { s with chip := { s.chip with noc := n } } := by
  unfold State.carry
  split
  · exact .inr ⟨_, rfl⟩
  · exact .inl rfl

/-! ## Writes mend, and charge nothing else -/

@[simp] theorem State.charge_pending (t : Traffic) (a : Nat) (rs : List (Nat × Nat)) (s : State) : (s.charge t a rs).pending = s.pending := rfl
@[simp] theorem State.charge_out (t : Traffic) (a : Nat) (rs : List (Nat × Nat)) (s : State) : (s.charge t a rs).out = s.out := rfl
@[simp] theorem State.charge_freeCtr (t : Traffic) (a : Nat) (rs : List (Nat × Nat)) (s : State) : (s.charge t a rs).freeCtr = s.freeCtr := rfl
@[simp] theorem State.charge_mtime (t : Traffic) (a : Nat) (rs : List (Nat × Nat)) (s : State) : (s.charge t a rs).mtime = s.mtime := rfl
@[simp] theorem State.charge_mem (t : Traffic) (a : Nat) (rs : List (Nat × Nat)) (s : State) : (s.charge t a rs).mem = s.mem := rfl
@[simp] theorem State.charge_mail (t : Traffic) (a : Nat) (rs : List (Nat × Nat)) (s : State) : (s.charge t a rs).mail = s.mail := rfl
@[simp] theorem State.charge_ten (t : Traffic) (a : Nat) (rs : List (Nat × Nat)) (s : State) : (s.charge t a rs).ten = s.ten := rfl
@[simp] theorem State.charge_chip (t : Traffic) (a : Nat) (rs : List (Nat × Nat)) (s : State) : (s.charge t a rs).chip = s.chip := rfl
@[simp] theorem State.charge_cores (t : Traffic) (a : Nat) (rs : List (Nat × Nat)) (s : State) : (s.charge t a rs).cores = s.cores := rfl
@[simp] theorem State.charge_pkgs (t : Traffic) (a : Nat) (rs : List (Nat × Nat)) (s : State) : (s.charge t a rs).pkgs = s.pkgs := rfl
@[simp] theorem State.charge_pkgOrder (t : Traffic) (a : Nat) (rs : List (Nat × Nat)) (s : State) : (s.charge t a rs).pkgOrder = s.pkgOrder := rfl
@[simp] theorem State.charge_svcTurn (t : Traffic) (a : Nat) (rs : List (Nat × Nat)) (s : State) : (s.charge t a rs).svcTurn = s.svcTurn := rfl
@[simp] theorem State.charge_models (t : Traffic) (a : Nat) (rs : List (Nat × Nat)) (s : State) : (s.charge t a rs).models = s.models := rfl
@[simp] theorem State.charge_moves (t : Traffic) (a : Nat) (rs : List (Nat × Nat)) (s : State) : (s.charge t a rs).moves = s.moves := rfl
@[simp] theorem State.charge_moveCtr (t : Traffic) (a : Nat) (rs : List (Nat × Nat)) (s : State) : (s.charge t a rs).moveCtr = s.moveCtr := rfl
@[simp] theorem State.charge_led (t : Traffic) (a : Nat) (rs : List (Nat × Nat)) (s : State) : (s.charge t a rs).led = s.led := rfl
@[simp] theorem State.charge_gens (t : Traffic) (a : Nat) (rs : List (Nat × Nat)) (s : State) : (s.charge t a rs).gens = s.gens := rfl
@[simp] theorem State.charge_ft (t : Traffic) (a : Nat) (rs : List (Nat × Nat)) (s : State) : (s.charge t a rs).ft = s.ft := rfl

/-- A written word of SRAM reads again (R353). -/
theorem DieMem.mend_corrupt (a n : Nat) (m : DieMem) (k : Nat) :
    k ∈ (m.mend a n).corrupt ↔ k ∈ m.corrupt ∧ ¬(a ≤ k ∧ k + 4 ≤ a + n) := by
  simp only [DieMem.mend, List.mem_filter, Bool.not_eq_true', Bool.and_eq_false_iff, decide_eq_false_iff_not]
  constructor <;> rintro ⟨h, g⟩ <;> exact ⟨h, by omega⟩

end Sys2Proof.Machine
end

