-- ==== Sys2Proof/Tests/Slice0.lean ====
section
/-!
SUPPORT. Tests on small states: each check of WellFormed refuses an ill-formed command, and the hypotheses of each statement
hold together, clause by clause, in a state and operands named here.
-/
open Sys2Proof.Machine

namespace Sys2Proof.Tests

set_option Elab.async false
set_option exponentiation.threshold 400
set_option linter.unusedVariables false

/-- A payload window from its fields: byte offset and value. -/
def pay (fs : List (Nat × Nat)) : BitVec 384 := BitVec.ofNat 384 ((fs.map fun f => f.2 * 2 ^ (8 * f.1)).sum)

/-- A command of ABI 3 in slot 0 of a function. -/
def cmd (fn : BitVec 10) (fs : List (Nat × Nat)) : Cmd := ⟨fn, 0, 5, 3, false, pay fs⟩

/-- A quota that is generous and legal. -/
def quota : Quota := ⟨0, true, 1, 4, 64, 64, 4096, 64, 16, 16, 8, 4, 16⟩

/-- An enabled account with that quota. -/
def acct : Account := { Account.fresh with state := .enabled, quota := quota }

/-- A mailbox that is ready, of ABI 3. -/
def func : Func := { Func.reset with ready := true, abi := 3 }

/-- The module in P0: account 0 holds the module's right, two bands of HBM and four Vault units of die 0, and partition 0 is
dies 0 and 1. -/
def demo : State :=
  { State.reset with
    mtime := 1000
    mail := { Mail.reset with funcs := [func, func], apers := [Aper.reset, Aper.reset] }
    ten := { Tenancy.cold with
      accts := [acct, acct], modRight := some 0, parts := [[0, 1], [], [], [], [], [], [], []],
      grants := (List.range 8).map (fun u => ⟨0, 0, u, 0⟩) ++ (List.range 4).map (fun u => ⟨1, 0, u, 0⟩) }
    chip := { Chip.cold with
      power := { Power.cold with resetting := none, mailboxReady := true },
      fw := { Firmware.delivered with lifecycle := .owned } } }

/-- The same with host port 0's link up. -/
def up0 : State := demo.onLink 0 fun l => { l with up := true }

/-- Bytes in memory. -/
def wr (s : State) (a : Nat) (b : Bytes) : State := s.write a b

theorem runs_of {op : Nat} {c : Cmd} {s : State}
    (h : outOfTurn op c s = false ∧ stateGate (cmdA c) c.abi op (dropTaken c s) = none ∧ lifeGate op (dropTaken c s) = none ∧
      (dropTaken c s).chip.power.pstate = 0 ∧ (dropTaken c s).chip.power.target = none) : Runs op c s (dropTaken c s) := ⟨rfl, h⟩

/-- The header of an IDENTIFY of function 0, as it lies in a slot. -/
def header : Bytes := leBytes 2 0x102 ++ leBytes 1 3 ++ leBytes 1 0 ++ leBytes 4 5 ++ leBytes 56 0

/-- The aperture of function 0 at 0, enabled, of 1 GiB. -/
def window : State := demo.onAper 0 fun a => { a with en := true }

/-- A quota block at 0x2000. -/
def block : State := wr demo 0x2000 quota.bytes

/-- Account 1 disabled. -/
def disabled : State := demo.onAcct 1 fun a => { a with state := .disabled }

/-- A trainable tensor of 4 rows of 32 elements, and a part's shard of it. -/
def tensor : Tensor := ⟨0, 0, 1, 1, false, false, false, true, 0, 0, 4, 32, 0, 64⟩
def shard : Shard := ⟨0, 0, 0, 0, 0, 0, 3, 0, 31⟩

/-- A model of one layer with one tensor, held and generated on die 0 of this part. -/
def map : ModelMap :=
  { acct := 0, num := 1, layers := 1, vocab := 100, job := 7, part := 0, parts := [5], tensors := [tensor], shards := [shard],
    gshards := [shard], arenas := ⟨0x100000, 256, 0x1000000000, 64⟩ :: List.replicate 7 ⟨0, 0, 0, 0⟩, layout := 3, swap := true }

/-- That model loaded, with a pool of one frame. -/
def model : Model :=
  { map := map, w := { Weights.create [0x1000] with ready := true, gencopy := true, epoch := 1 }, led := LedModel.create,
    kv := { KvSet.create with kvRow := 64, pools := [(0, ⟨quarterBase + 0x800000, 1⟩)] }, gen := GenSet.create true,
    ft := FtModel.create, amax := [(9, ⟨5, 0, 1⟩)], unrolled := [9] }

/-- The module with that model in slot 0. -/
def loaded : State := { demo with models := [(0, model)] }

/-- One frame of its pool holds the page of an Index entry. -/
def entry : IdxEntry := ⟨0, 0, 0, 0, 0, 1, 0, none, [], ⟨0, false, 0, 0⟩, 0⟩
def cached : State := { loaded with gens := { loaded.gens with index := [entry] } }

/-- A package of one SYNC on die 0, with one OUT region. -/
def packed : State :=
  wr (wr (wr demo 0x4000 (leBytes 4 1 ++ leBytes 4 1 ++ leBytes 4 1 ++ leBytes 4 1000 ++ leBytes 8 0x4080 ++ leBytes 16 0 ++
    leBytes 8 0x4100 ++ leBytes 8 0x5000)) 0x4080 (leBytes 8 0x8000 ++ leBytes 4 1 ++ leBytes 2 2)) 0x4100
    (leBytes 2 4 ++ leBytes 2 0x100 ++ leBytes 12 0)

/-- The image that the loader reads there. -/
def image : Option PkgImage := match loadImage packed 0 0x4000 with
  | .image im => some im
  | _ => none

/-- A descriptor of 256 bytes in a state of its own. -/
def desc (st : DescState) (b : Bytes) : Desc := ⟨padTo 256 b, st, .ok, 0, 0, 0, false, [], [], 0⟩

/-- A package of account 0 on die 0. -/
def pkg (st : PkgState) (ds : List Desc) : Pkg :=
  { id := ⟨0, 1⟩, order := 0, phase := .learning, runLimit := 1, compl := 0x5000, model := 0, tag := 0, regions := [], implicit := [], sems := [],
    links := [], descs := ds, dies := [0, 1], state := st, status := .ok, replays := 0, outFlags := 0, epoch := 1, tStart := 0,
    tEnd := 0, shadowed := false, linkExpired := false, record := [], endOrder := 0, endMark := 0, block := [], sampleAt := 0, sampled := [] }

/-- The module with one package. -/
def withPkg (st : PkgState) (ds : List Desc) : State := { demo with pkgs := [pkg st ds] }

/-- A SYNC of die 0's transfer engine. -/
def sync : Bytes := leBytes 2 4 ++ leBytes 2 0x100
/-- A transfer of one row of one unit from 0x2000 to 0x8000 by die 0's engine. -/
def xfer : Bytes := leBytes 2 3 ++ leBytes 2 0x100 ++ leBytes 12 0 ++ leBytes 8 0x2000 ++ leBytes 8 0x8000 ++ leBytes 4 1 ++ leBytes 4 1

/-- A tile of one row, one column and K = 1 on core 0, and its run. -/
def tile : Bytes := leBytes 4 1 ++ leBytes 12 0 ++ leBytes 4 0x10000 ++ leBytes 4 1
def tileRun : TileRun := ⟨⟨⟨0, 1⟩, 0⟩, [0], 0, 0, [La.zero], [], false, ⟨[], []⟩, [false]⟩
def tiled (st : PkgState) : State :=
  { withPkg st [desc .started tile] with cores := [{ Core.reset with tiles := [tileRun] }] }

/-- 256 bytes from fields: byte offset and value. -/
def flds (fs : List (Nat × Nat)) : Bytes := leBytes 256 ((fs.map fun f => f.2 * 2 ^ (8 * f.1)).sum)

/-- A single tile whose output is an image of partial sums. -/
def tileOut : Bytes := flds [(0, 1), (0x10, 0x10000), (0x14, 1), (0x40, 0xA), (0x78, 3 * 2 ^ 52)]

/-- One package and core 0 with the tile's run in it. -/
def running (x : Bytes) (ds : List Nat) : State :=
  { withPkg .running [desc .started x] with cores := [{ Core.reset with tiles := [{ tileRun with descs := ds }] }] }

/-- A job of this part alone, with one group and one drop. -/
def job : JobSlot := ⟨7, 0, [5], 1, [0], [(0, [⟨0, 0⟩])], [(0, ⟨0, 1, 1, 0x8000⟩)]⟩

/-- A collective of die 0 by its OP, ARITH and COUNT. -/
def coll (op : Nat) : Bytes := flds [(0, 5), (2, 0x180), (0x10, op), (0x20, 0x2000), (0x28, if op = 1 then 0 else 0x8000), (0x30, 1)]

/-- Its round, joined. -/
def round (sent : List Bytes) (r : Option Bytes) : Round := ⟨7, 0, 0, 0, 0, ⟨⟨0, 1⟩, 0⟩, 0, 0, [], sent, r, false, [], ⟨[], []⟩⟩

def tag6 : Bytes := roundTag (collOf (coll 6)) [⟨0, 0⟩] 0

/-- The module in the job, with a package of one collective and its rounds. -/
def inJob (x : Bytes) (rs : List Round) : State :=
  (withPkg .running [desc .started x]).onFabric fun f => { f with addr := some 5, slots := [(0, job)], rounds := rs }

/-- A package that links its image to another, and its tile. -/
def linked : State := { inJob [] [] with pkgs := [{ pkg .held [desc .done tileOut] with links := [⟨9, 3, false⟩] }] }

/-- A vector program on core 0 with one active lane, in a package with an IN and an OUT region. -/
def prog : VProg := ⟨⟨⟨0, 1⟩, 0⟩, 0x20000, 100, 100, List.replicate 8 (0, 0x10000), List.replicate 8 ⟨0x1000, 0, 0⟩, 0, []⟩
def hart : Hart := ⟨0, 0⟩
def vcore : Core :=
  { Core.reset with v := [[0x3F800000], [2]], threads := [{ Thread.reset with state := .running }], prog := some prog }
def vpkg : Pkg :=
  { pkg .running [desc .started (flds [(0, 2), (2, 0x80)])] with
    regions := [⟨0x2000, 64, 0, 1, 0, 0⟩, ⟨0x8000, 64, 0, 2, 0, 0⟩] }
def vstate : State := { demo with pkgs := [vpkg], cores := [vcore] }

/-- The same with an instruction word where the program's thread 0 comes to next. -/
def vat (w : Nat) : State := wr vstate (coreSramBase + 0x20000) (leBytes 4 w)
/-- Words of R127: register and immediate forms. -/
def rword (op d a b pm hi lo : Nat) : Nat :=
  op * 2 ^ 26 + d * 2 ^ 21 + a * 2 ^ 16 + b * 2 ^ 11 + pm * 2 ^ 8 + hi * 2 ^ 4 + lo
def iword (op d a imm : Nat) : Nat := op * 2 ^ 26 + d * 2 ^ 21 + a * 2 ^ 16 + imm

/-- A vector program as a descriptor, started and not yet launched. -/
def vdesc : Desc := desc .started (flds [(0, 2), (2, 0x80), (0x14, 1), (0x18, 1), (0x1C, 10)])

/-- The next state of an outcome. -/
def nextOf (r : Result State) : State := match r with
  | .next t => t
  | _ => demo

/-- The outcome is a next state. -/
def isNext (r : Result State) : Bool := match r with
  | .next _ => true
  | _ => false

theorem next_of {r : Result State} (h : isNext r = true) : r = .next (nextOf r) := by
  cases r <;> first | rfl | cases h

/-- Sampling parameters: one logit, temperature and TOP_P of one. -/
def params : Bytes := flds [(0x14, 1), (0x18, 0x3F800000), (0x1C, 0x3F800000)]

/-- A message over one link, and a network in which that link has no credit left. -/
def full : List (Vc × List Hop) := [(.req, [⟨0, 1, 0⟩])]
def crowded : State :=
  { demo with chip := { demo.chip with noc := { demo.chip.noc with held := [(8, Config.nocDepth 1 0 0 + 1)] } } }
theorem crowded_stops : crowded.chip.noc.crossAll full = none := by
  simp [crowded, full, Noc.crossAll, Noc.cross, Noc.credit, Hop.key, Hop.link, Vc.code, tgetD]

theorem issues_of {i : Instr} {s : State} (h : (s.issues hart i && decide (s.meets [(s.codeAddr hart, 4)] = .clear)) = true) :
    Issues hart i s := by
  rw [Bool.and_eq_true, decide_eq_true_iff] at h
  exact h

/-- Instructions with the words that stand for them. -/
def Spells (xs : List (Instr × Nat)) : Prop := ∀ x ∈ xs, Issues hart x.1 (vat x.2)
theorem spells_of {xs : List (Instr × Nat)}
    (h : (xs.all fun x => (vat x.2).issues hart x.1 && decide ((vat x.2).meets [((vat x.2).codeAddr hart, 4)] = .clear)) = true) :
    Spells xs := fun x hx => issues_of (List.all_eq_true.mp h x hx)

/-- An XPOST, a VRGET and a VSAMPLE with what they read through window 7. -/
def vpost (b : Bytes) : State := wr (vat (iword 0xF 31 2 0x4007)) coreSramBase b
def vgot : State := wr (vat (rword 0x33 0 2 7 0 1 0)) coreSramBase (shadowImage ⟨0x1000, 0, 0⟩ (List.replicate 3 La.zero))
def vsamp : State := wr (vat (rword 0x36 0 2 0 0 0 7)) coreSramBase params

/-- A started prefetch of one unit from die 0's training window to the core SRAM. -/
def prefetch : Desc := desc .started (flds [(0, 7), (2, 0x100), (0x10, 0), (0x18, 0), (0x20, 1)])

/-- An open step of that model, its shard's four units staged. -/
def opened : LedStep :=
  { step := 0, gepoch := 1, isSealed := false, deny := false, limit := 1000,
    stage := [(0, (List.range 4).map fun i => (i, List.replicate 32 0))], pass1 := [], pass2 := [], begun2 := false, partials := [],
    combined := [], combLayers := [], combStep := false, damp := [], failedOwn := [], failed := [], amax := [], mon := [],
    commit := false, mirrors := [], skips := 0, fallbacks := 0, discards := 0 }

/-- The group of its tensor, and a program of one reduction of tensor scope. -/
def group : Group := ⟨0, leBytes 128 (1 + 0x10 * 2 ^ 24 + 0x3F800000 * 2 ^ 64 + 0x3F800000 * 2 ^ 96)⟩
def reduction : LdgIns := ⟨0x20, 0x32, 0xA, 0, 0, 1, 0⟩

/-- The model in an update state, with a step or none. -/
def updating (us : UState) (st : Option LedStep) : Model := { model with led := { model.led with ustate := us, step := st } }
def ledger (us : UState) (st : Option LedStep) : State :=
  { demo with models := [(0, updating us st)], led := { demo.led with slots := [(0, ⟨0, [reduction]⟩), (1, ⟨0, [reduction]⟩)], groups := [(0, group)] } }

/-- A feed of the whole tensor to Ledger die 0, in a format, from 0x2000. -/
def feed (fmt : Nat) : Bytes :=
  flds [(0, 6), (2, 0x100), (0x10, 0x2000), (0x20, 4), (0x28, 32), (0x2C, fmt), (0x38, 1)]

/-- A turn of the model that waits for its first barrier. -/
def move (k : MoveKind) : MoveOp := ⟨0, 1, k, 60000, .entry, 0, 0, 0, [], [], [], 0, [], [], false, false, false, none, none, 0, none, none, [0x1000], none, 0, none, none, []⟩
def turn : MoveOp := move .turn

/-- A sequence of one prompt token and ten more, in a state. -/
def seq (st : SeqState) : Seq := { seqOf (flds [(4, 1), (8, 10)]) 0 0 1 true 1000 0 [7] none with state := st }
/-- The loaded model with that sequence. -/
def serve (q : Seq) : State := { loaded with gens := { loaded.gens with seqs := [(0, q)] } }
def withSeq (st : SeqState) : State := serve (seq st)

/-- A prefill template with a scratch region of 64 KiB. -/
def launch : Pkg := { pkg .loaded [] with phase := .generation, model := 1, regions := [⟨dieSramBase, 0x10000, 2, 4, 0, 0⟩] }

/-- A decode plan of one layer of width 32, and the tensors that it names. -/
def plan : Bytes :=
  leBytes 64 (1 + 2 ^ 16 + 32 * 2 ^ 32 + 2 ^ 96 + 0xFFFFFFFF * 2 ^ 128 + 2 ^ 192 + 2 ^ 200 + 0x3F800000 * 2 ^ 224) ++
  leBytes 64 (1 + 0xFFFFFFFF * 2 ^ 32 + 2 * 2 ^ 64 + 3 * 2 ^ 96 + 2 ^ 128 + 0xFFFFFFFF * 2 ^ 160 + 3 * 2 ^ 192 + 3 * 2 ^ 224 +
    2 ^ 256 + 2 ^ 272 + 32 * 2 ^ 288)
def planned : Model :=
  { model with
    map := { map with tensors := [(100, 32), (1, 32), (96, 32), (32, 32)].map fun d => { tensor with rows := d.1, cols := d.2 } }
    w := { model.w with anchors := [0, 0, 0, 0] }
    gen := { model.gen with plan := some plan, template := some launch, ring := 0x9000, ringSize := 6 } }
def planState : State := wr { demo with models := [(0, planned)] } 0x6000 plan

/-- The same with an admit block of one token at 0x7000. -/
def asks : State :=
  wr (wr planState 0x7000 (leBytes 128 (1 + 2 ^ 32 + 10 * 2 ^ 64 + 1000 * 2 ^ 96 + 0x7080 * 2 ^ 128 + 0x3F800000 * 2 ^ 416))) 0x7080 (leBytes 4 7)

/-- A generation package of that model at 0x4000: one SYNC, and one scratch region in die SRAM. -/
def template : State :=
  wr (wr (wr { loaded with ten := { demo.ten with grants := demo.ten.grants ++ [⟨2, 0, 0, 0⟩] } } 0x4000 (leBytes 128 (1 + 2 ^ 16 + 2 ^ 32 + 2 ^ 64 + 1000 * 2 ^ 96 + 0x4080 * 2 ^ 128 + 0x4100 * 2 ^ 320 +
    0x5000 * 2 ^ 384 + 2 ^ 448))) 0x4080 (leBytes 8 (dieSramBase + 2 ^ 53) ++ leBytes 4 16 ++ leBytes 4 4 ++ leBytes 16 0)) 0x4100
    (padTo 64 sync)
def templateImage : Option PkgImage := match loadImage template 0 0x4000 with
  | .image im => some im
  | _ => none

theorem wave_one (x : Load_) : waveOrder [x] = [x] := List.mergeSort_singleton x

/-- The planned model with a sequence. -/
def asked (q : Seq) : State := { planState with gens := { planState.gens with seqs := [(0, q)] } }

/-- A committed page in the frame of its pool. -/
def page : Page := ⟨⟨0, false, 0, 0⟩, false, true, List.replicate 32 2⟩
/-- The loaded model with one Vault frame on die 0. -/
def vaulted : Model := { model with kv := { model.kv with vaults := [(0, ⟨vaultBase + 0x800000, 1⟩)] } }

/-- The model in its job, its group held. -/
def inTurn (m : Model) : State :=
  ({ demo with models := [(0, m)], led := { demo.led with groups := [(0, group)] } } : State).onFabric fun f =>
    { f with addr := some 5, slots := [(0, job)] }
/-- The job with a second part at address 9, and what the Beacon shows of it. -/
def duo : JobSlot := { job with table := [5, 9], joined := [0, 1] }
def neighbour : BeaconEntry := ⟨0, 0, 0, 0, 0, 0, 0, true⟩
def paired (e : Option BeaconEntry) : State :=
  ((inTurn model).onFabric fun f => { f with slots := [(0, duo)] }).onBeacon fun b => { b with table := e.toList.map fun x => (9, x) }
def staged : Model := { model with w := { model.w with staged := true } }
def unloaded : Model := { model with w := Weights.create [0] }
/-- With a moving operation that runs. -/
def moving (m : Model) (o : MoveOp) : State := { inTurn m with moves := ⟨some o, []⟩ :: List.replicate 7 ⟨none, []⟩ }

/-- A shard entry of the whole tensor, and a model block with its tables. -/
def shardRow : Bytes := leBytes 32 (3 * 2 ^ 96 + 31 * 2 ^ 160)
def created : State :=
  (wr (wr (wr (wr (wr (wr demo 0x2000 (flds [(0, 2), (2, 1), (4, 1), (8, 1), (0xC, 1), (0x10, 0x2200), (0x18, 0x2300),
    (0x20, 0x2400), (0x28, 0x2500), (0x30, 0x2600), (0x38, 1), (0x3C, 7), (0x40, 100)])) 0x2200 (leBytes 64 (2 ^ 32 + 2 ^ 40 + 2 ^ 56 +
    4 * 2 ^ 128 + 32 * 2 ^ 160 + 64 * 2 ^ 320))) 0x2300 shardRow) 0x2400 shardRow) 0x2500 (leBytes 4 5)) 0x2600
    (leBytes 32 (0x100000 + 256 * 2 ^ 64))).onFabric fun f => { f with addr := some 5 }

/-- A Vault page of the Index, and a sequence that imports it. -/
def imported : IdxEntry := { entry with loc := ⟨0, true, 0, 0⟩ }
def importing : State × Seq :=
  let q := { seq .prefill with imports := [⟨0, 0, ⟨0, true, 0, 0⟩, none⟩], pages := [{ page with loc := imported.loc }] }
  ({ serve q with models := [(0, vaulted)], gens := { (serve q).gens with index := [imported] } }, q)

def imp : Import := ⟨0, 0, imported.loc, none⟩
def impFrame : Option (FrameLoc × State) :=
  drawFrame importing.2.slot false importing.2.home (match imp.kept with
    | some b => (true, b, importing.1)
    | none => readPage importing.2.acct imp.loc importing.1).2.2
theorem imp_some : impFrame.isSome = true := by decide +kernel
set_option maxRecDepth 20000 in
theorem imp_draw : (let r := match imp.kept with
      | some b => (true, b, importing.1)
      | none => readPage importing.2.acct imp.loc importing.1
    drawFrame importing.2.slot false importing.2.home r.2.2) = some ((impFrame.get imp_some).1, (impFrame.get imp_some).2) :=
  (Option.some_get imp_some).symm

/-- A sequence that parks its one page, and one that restores it, with the outcome of the movement. -/
def parker : Seq := { seq .paused with parking := true, pages := [page] }
def parkState : State :=
  { serve parker with models := [(0, vaulted)], gens := { (serve parker).gens with parks := [0] } }
def restorer : Seq := { seq .prefill with restoring := true, pages := [{ page with loc := ⟨0, true, 0, 0⟩ }] }
def restoreState : State := { serve restorer with models := [(0, vaulted)] }
def movedOf (r : Moved) : Bool × State := match r with
  | .done v => (true, v)
  | _ => (false, demo)
theorem moved_of {r : Moved} (h : (movedOf r).1 = true) : r = .done (movedOf r).2 := by
  cases r <;> first | rfl | cases h
def parkMoved : Bool × State := movedOf (movePages 0 parker true 0 parkState)
def restoreMoved : Bool × State := movedOf (movePages 0 restorer false 0 restoreState)
theorem parked_moves : movePages 0 parker true 0 parkState = .done parkMoved.2 := moved_of (by decide +kernel)
theorem restored_moves : movePages 0 restorer false 0 restoreState = .done restoreMoved.2 := moved_of (by decide +kernel)

theorem place_first : placeSeq (asked (seq .admitted)) (BitVec.toNat (0 : BitVec 6)) planned (seq .admitted) = some 0 := by
  simp only [placeSeq, show (asked (seq .admitted)).loads (BitVec.toNat (0 : BitVec 6)) planned = [] by decide +kernel,
    List.nil_append, frameFits, frameCost, wave_one]
  decide +kernel

/-- A tactic step: the request fits alone once its frame is one wave. -/
theorem fits_of {s : State} {m : Model} {q : Seq} (hm : m.map.members = [0]) (hp : q.need m ≤ (tgetD m.kv.pools 0 ⟨0, 0⟩).frames)
    (hf : frameFits m (s.costParams m) [q.load m 0 (q.need m)] = true) : fitsAlone s m q = true := by
  simp [fitsAlone, hm, hp, hf]

theorem frame_of {m : Model} {c : CostParams} {x : Load_} (h : (let (C, P) := m.map.copySize
    let S := max 1 m.map.groupSize
    let q := m.macs
    let D := S * 12800000000 * c.share * q * 6000000000
    let t := ((chunks (max 1 c.wave) [x]).map fun w =>
      let K := maxNat ((List.range 32).map fun h => ((w.filter fun x => x.home == h).map (·.bytes)).sum)
      let T := (w.map (·.tokens)).sum
      max ((C + K * S) * q * 6000000000) (T * P * c.div * 12800000000 * c.share) * 1000000 + (3 * m.map.layers + 20) * D).sum
    decide (100 * t ≤ c.util * c.period * 1000 * D)) = true) : frameFits m c [x] = true := by
  simpa only [frameFits, frameCost, wave_one] using h

def binding : State := bindChunk 0 planned false (asked (seq .prefill))
theorem binding_some : (binding.seq 0).isSome = true := by decide +kernel
def drawn : State := drawPages 0 1 (bindChunk 0 planned false (asked (seq .prefill)))
theorem drawn_some : (drawn.seq 0).isSome = true := by decide +kernel

/-- The model on two shards of this part, and as part 1 of two whose part 0 holds the training shard. -/
def halves : Model := { unloaded with map := { map with shards := [{ shard with row1 := 1 }, { shard with row0 := 2 }] } }
def away : Model :=
  { staged with map := { map with part := 1, parts := [4, 5], shards := [{ shard with part := 0 }], gshards := [{ shard with part := 1 }] } }

theorem segment_here : (opSegments staged { turn with stage := .moving })[0]? = some ⟨shard, 0, shard, 0, true, 0, 3, 0, 31⟩ := by
  simp only [opSegments]
  decide +kernel

theorem segment_away : (opSegments away { turn with stage := .moving })[0]? =
    some ⟨{ shard with part := 1 }, 0, shard, 0, false, 0, 3, 0, 31⟩ := by
  simp only [opSegments]
  decide +kernel

/-- A committed checkpoint of the model: sequence number 9, step 3. -/
def ckpt : Ckpt := ⟨0, 1, flds [(0xC, 9), (0x10, 3), (0x28, 3)], [], false, false⟩
/-- The module with one Strongbox unit. -/
def strongbox (m : Model) : State :=
  { demo with models := [(0, m)], ten := { demo.ten with grants := demo.ten.grants ++ [⟨3, 0, 0, 0⟩] } }

/-- The secure copy of a moving operation: its record is that of step 3. -/
def copyJob (kind : Nat) : CopyJob := ⟨kind, flds [(0xC, 9), (0x10, 3)], [], false, true, [], 1, 3, 0, 0⟩

/-- What a drain reads of the model. -/
def drained : Bool × State :=
  readLayers (0 : BitVec 6).toNat model (layersLeft model (copyJob 1)) (moving model { move .drain with copy := some (copyJob 1) })
theorem drain_reads : drained = (true, drained.2) := Prod.ext (by decide +kernel) rfl

/-- A partition of which no unit is in service. -/
def dead : State := (partUnits demo 0).foldl (fun s u => s.onUnit u.1 u.2 fun r => { r with mgmt := 1 }) demo

/-- A firmware type that runs its stored image of security version 2. -/
def fwType : FwType := FwType.keep ⟨[], [], 9, 2⟩ (some ⟨[], [], 9, 2⟩) none
theorem svn_ok : ∀ t ∈ [fwType], 2 ≤ t.run.svn ∧ ∀ i, t.cur = some i → 2 ≤ i.svn := by
  intro t ht
  rw [List.mem_singleton] at ht
  subst ht
  exact ⟨by decide, fun i hi => by cases hi; decide⟩

/-- A Beacon frame from fields, sealed. -/
def frame (fs : List (Nat × Nat)) : BitVec 512 := BitVec.ofNat 512 (leNat (sealFrame ((flds fs).take 60)))
/-- Changes of one field of the firmware, of the fabric and of the Beacon. -/
def power (f : Power → Power) : State := demo.onPower f
def fabric (f : Fabric → Fabric) : State := demo.onFabric f
def beacon (f : Beacon → Beacon) : State := demo.onBeacon f

/-- An optics activation with two groups to go. -/
def activating : Activation := ⟨[2], [], [0, 1], [], ⟨[], [], 1, 1⟩⟩

/-- A port that is lit. -/
def lit (p : Nat) (f : Port → Port) : State := demo.onPort p fun x => f { x with causes := [], state := .up, lamA := 0xFF }

/-- The hypotheses of IdleStepIsReferenceCycle hold together. -/
theorem test_meets_idleStepIsReferenceCycle :
    ∃ s : State, s.pending = [] :=
  ⟨demo, by decide +kernel⟩

/-- The hypotheses of ResetState hold together. -/
theorem test_meets_resetState :
    ∃ a < 1024, a % 256 = 0 :=
  ⟨256, by decide +kernel, by decide +kernel⟩

/-- The hypotheses of GatedCommandsChangeNothing hold together, clause by clause. -/
theorem test_meets_gatedCommandsChangeNothing :
    (∃ i : Instr, ∃ op : Nat, ∃ c : Cmd, ∃ s : State, i.command = some (op, c) ∧ outOfTurn op c s = true ∧
      (s.chip.power.tripped && s.chip.power.inputPresent) = false) ∧
    (∃ i : Instr, ∃ op : Nat, ∃ c : Cmd, ∃ s : State, ∃ st : Status, i.command = some (op, c) ∧ outOfTurn op c s = false ∧
      (stateGate (cmdA c) c.abi op (dropTaken c s) = some st ∨ (stateGate (cmdA c) c.abi op (dropTaken c s) = none ∧ lifeGate
      op (dropTaken c s) = some st))) ∧
    (∃ i : Instr, ∃ op : Nat, ∃ c : Cmd, ∃ s : State, i.command = some (op, c) ∧ outOfTurn op c s = false ∧
      s.chip.fw.lifecycle = .decommissioned ∧ op ∉ [0x101, 0x102, 0x125, 0x802, 0x903]) ∧
    (∃ i : Instr, ∃ op : Nat, ∃ c : Cmd, ∃ s : State, ∃ u : State, i.command = some (op, c) ∧ outOfTurn op c s = false ∧ u =
      dropTaken c s ∧ stateGate (cmdA c) c.abi op u = none ∧ lifeGate op u = none ∧ quiet op c = false ∧ (u.chip.power.pstate
      ≠ 0 ∨ u.chip.power.target.isSome)) :=
  ⟨⟨.identify (cmd 0 []), 0x102, cmd 0 [], demo.onFunc 0 fun f => { f with taken := [⟨{ cmd 0 [] with slot := 9 }, 0x102⟩] },
      by decide +kernel⟩,
   ⟨.identify (cmd 0 []), 0x102, cmd 0 [], { demo with mail := { demo.mail with funcs := [Func.reset] } }, .version,
      by decide +kernel⟩,
   ⟨.acctEnable (cmd 0 []), 0x123, cmd 0 [], demo.onFw fun f => { f with lifecycle := .decommissioned }, by decide +kernel⟩,
   ⟨.acctEnable (cmd 0 []), 0x123, cmd 0 [], demo.onPower fun p => { p with pstate := 1 }, dropTaken (cmd 0 []) (demo.onPower
      fun p => { p with pstate := 1 }), by decide +kernel, by decide +kernel, rfl, by decide +kernel⟩⟩

/-- The hypotheses of CompletionWritesResponse hold together, clause by clause. -/
theorem test_meets_completionWritesResponse :
    (∃ c : Cmd, ∃ s : State, cmdA c < s.mail.funcs.length ∧ (s.func (cmdA c)).paused = false ∧ ∃ k, k ≠ c.slot.toNat) ∧
    (∃ c : Cmd, ∃ s : State, cmdA c < s.mail.funcs.length ∧ (s.func (cmdA c)).paused = false ∧ ∃ g, g ≠ cmdA c) :=
  ⟨⟨cmd 0 [], demo, by decide +kernel, by decide +kernel, 63, by decide +kernel⟩,
   ⟨cmd 0 [], demo, by decide +kernel, by decide +kernel, 1, by decide +kernel⟩⟩

/-- The hypotheses of DoorbellsAreQueuedOrIgnored hold together, clause by clause. -/
theorem test_meets_doorbellsAreQueuedOrIgnored :
    (∃ fn : BitVec 10, ∃ value : Word, ∃ s : State, 
    let i := value.toNat % 64
    
    let f := s.func fn.toNat
    s.barDark = false ∧ i ∉ f.doorbells ∧ (tgetD f.resp i Resp.empty).rstate ≠ 1) ∧
    (∃ t : State, t.chip.power.low = false) ∧
    (∃ s : State, s.barDark = true) ∧
    (∃ fn : BitVec 10, ∃ value : Word, ∃ s : State, 
    let i := value.toNat % 64
    
    let f := s.func fn.toNat
    s.barDark = false ∧ (i ∈ f.doorbells ∨ (tgetD f.resp i Resp.empty).rstate = 1)) :=
  ⟨⟨0, 63, demo, by decide +kernel⟩,
   ⟨demo, by decide +kernel⟩,
   ⟨demo.onPower fun p => { p with pstate := 3 }, by decide +kernel⟩,
   ⟨0, 64, demo.onFunc 0 fun f => { f with doorbells := [0] }, by decide +kernel⟩⟩

/-- The hypotheses of CommandTakeMarksTaken hold together, clause by clause. -/
theorem test_meets_commandTakeMarksTaken :
    (∃ port : BitVec 2, ∃ s : State, ∃ i : Nat, ∃ slot : Nat, ∃ rest : List Nat, 
    let fn := 256 * port.toNat + i
    
    let f := s.func fn
    
    let bs := padTo 64 (tgetD f.cmdSlots slot [])
    
    let c := cmdOf fn slot bs
    
    let op := fieldAt bs 0 2
    s.mail.turns.getD port.toNat 0 = i ∧ i < 256 ∧ fn < s.mail.funcs.length ∧ f.doorbells = slot :: rest ∧ f.paused = false ∧
      f.ready = true ∧ headerGate bs f.lastSeq = none ∧ fieldAt bs 8 2 = fn ∧ stateGate fn c.abi op s = none) ∧
    (∃ s : State, ∃ k : Taken, ∃ rest : List Taken, s.mail.fwTurn < 1024 ∧ s.mail.fwTurn < s.mail.funcs.length ∧ (s.func
      s.mail.fwTurn).fwQueue = k :: rest ∧ (s.func s.mail.fwTurn).paused = false) :=
  ⟨⟨0, demo.onFunc 0 fun f => { f with doorbells := [2], cmdSlots := [(2, header)] }, 0, 2, [], by decide +kernel⟩,
   ⟨demo.onFunc 0 fun f => { f with fwQueue := [⟨cmd 0 [], 0x102⟩] }, ⟨cmd 0 [], 0x102⟩, [], by decide +kernel⟩⟩

/-- The hypotheses of RegisterAccessesTakeEffect hold together, clause by clause. -/
theorem test_meets_registerAccessesTakeEffect :
    (∃ s : State, s.barDark = false) ∧
    (∃ s : State, s.barDark = true) ∧
    (∃ fn : BitVec 10, ∃ scope : BitVec 4, ∃ s : State, s.barDark = false ∧ s.hasModRight fn.toNat = true ∧ scope.toNat ≤ 8) ∧
    (∃ fn : BitVec 10, ∃ s : State, s.barDark = false ∧ s.hasModRight fn.toNat = false) ∧
    (∃ fn : BitVec 10, ∃ off : BitVec 36, ∃ len : Nat, ∃ s : State, ∃ n : Noc, s.barDark = false ∧ 
    let a := (s.aper fn.toNat).base.toNat + off.toNat
    apCheck s fn.toNat off.toNat len = none ∧ s.chip.noc.crossAll (readMsgs (2 * (fn.toNat / 256)) [(a, len)]) = some n ∧
      s.readFails a len = false) ∧
    (∃ fn : BitVec 10, ∃ off : BitVec 36, ∃ len : Nat, ∃ s : State, s.barDark = false ∧ ∃ r, apCheck s fn.toNat off.toNat len
      = some r) ∧
    (∃ fn : BitVec 10, ∃ off : BitVec 36, ∃ data : Bytes, ∃ s : State, ∃ n : Noc, s.barDark = false ∧ 
    let a := (s.aper fn.toNat).base.toNat + off.toNat
    apCheck s fn.toNat off.toNat data.length = none ∧ s.chip.noc.crossAll (writeMsgs (2 * (fn.toNat / 256)) [(a,
      data.length)]) = some n) ∧
    (∃ fn : BitVec 10, ∃ off : BitVec 36, ∃ data : Bytes, ∃ s : State, s.barDark = false ∧ ∃ r, apCheck s fn.toNat off.toNat
      data.length = some r) ∧
    (∃ n : Nat, 0 < n) ∧
    (∃ fn : BitVec 10, ∃ s : State, s.barDark = false ∧ fn.toNat < s.mail.apers.length) ∧
    (∃ fn : BitVec 10, ∃ s : State, s.barDark = false ∧ fn.toNat < s.mail.apers.length) :=
  ⟨⟨demo, by decide +kernel⟩,
   ⟨demo.onPower fun p => { p with pstate := 3 }, by decide +kernel⟩,
   ⟨0, 8, demo, by decide +kernel⟩,
   ⟨1, demo, by decide +kernel⟩,
   ⟨0, 0x3FFFFC0, 64, window, (window.chip.noc.crossAll (readMsgs 0 [(0x3FFFFC0, 64)])).get (by decide +kernel),
      by decide +kernel, by decide +kernel, (Option.some_get (by decide +kernel)).symm, by decide +kernel⟩,
   ⟨0, 0x3FFFFFFF, 2, window, by decide +kernel, (apCheck window 0 0x3FFFFFFF 2).get (by decide +kernel), by decide +kernel⟩,
   ⟨0, 0, [1, 2, 3], window, (window.chip.noc.crossAll (writeMsgs 0 [(0, 3)])).get (by decide +kernel), by decide +kernel,
      by decide +kernel, (Option.some_get (by decide +kernel)).symm⟩,
   ⟨0, 0, [1], demo, by decide +kernel, (apCheck demo 0 0 1).get (by decide +kernel), by decide +kernel⟩,
   ⟨1, by decide +kernel⟩,
   ⟨1, demo, by decide +kernel⟩,
   ⟨1, demo, by decide +kernel⟩⟩

/-- The hypotheses of MailboxCommandsComplete hold together, clause by clause. -/
theorem test_meets_mailboxCommandsComplete :
    (∃ c : Cmd, ∃ s : State, ∃ u : State, Runs 0x105 c s u ∧ cmdTail c 4 = true ∧ cmdU c 0 4 % 2 = 0 ∧ cmdU c 0 4 < 2 ^ 16) ∧
    (∃ c : Cmd, ∃ s : State, ∃ u : State, Runs 0x105 c s u ∧ cmdTail c 4 = true ∧ (cmdU c 0 4 % 2 = 1 ∨ 2 ^ 16 ≤ cmdU c 0 4))
      ∧
    (∃ fn : Nat, ∃ kind : Nat, ∃ s : State, 1 ≤ kind ∧ kind ≤ 15 ∧ (s.func fn).mask.getLsbD kind = true) ∧
    (∃ c : Cmd, ∃ s : State, ∃ u : State, Runs 0x101 c s u ∧ cmdTail c 2 = true ∧ 0 < cmdU c 0 1 ∧ cmdU c 0 1 ≤ cmdU c 1 1 ∧
      cmdU c 0 1 ≤ 3 ∧ otherOutstanding c u = false) ∧
    (∃ c : Cmd, ∃ s : State, ∃ u : State, Runs 0x102 c s u ∧ cmdTail c 0 = true) ∧
    (∃ c : Cmd, ∃ s : State, ∃ u : State, Runs 0x103 c s u ∧ cmdTail c 3 = true ∧ 0 < cmdU c 2 1 ∧ cmdU c 2 1 ≤ 28 ∧ cmdU c 1
      1 + cmdU c 2 1 ≤ unitCount (cmdU c 0 1) ∧ (u.hasModRight (cmdA c) = true ∨ ∀ i < cmdU c 2 1, (u.acct (cmdA
      c)).quota.partition ∈ unitParts u (cmdU c 0 1) (cmdU c 1 1 + i))) ∧
    (∃ c : Cmd, ∃ s : State, ∃ u : State, Runs 0x104 c s u ∧ cmdTail c 2 = true ∧ cmdU c 1 1 < unitCount (cmdU c 0 1) ∧
      (u.hasModRight (cmdA c) = true ∨ ∃ p ∈ unitParts u (cmdU c 0 1) (cmdU c 1 1), u.hasPartRight (cmdA c) p = true) ∧
      (u.unit (cmdU c 0 1) (cmdU c 1 1)).mgmt = 2) ∧
    (∃ c : Cmd, ∃ s : State, ∃ u : State, Runs 0x104 c s u ∧ cmdTail c 2 = true ∧ cmdU c 1 1 < unitCount (cmdU c 0 1) ∧
      (u.hasModRight (cmdA c) = true ∨ ∃ p ∈ unitParts u (cmdU c 0 1) (cmdU c 1 1), u.hasPartRight (cmdA c) p = true) ∧
      (u.unit (cmdU c 0 1) (cmdU c 1 1)).mgmt = 3) :=
  ⟨⟨cmd 0 [(0, 0xFFFE)], demo, dropTaken (cmd 0 [(0, 0xFFFE)]) demo, runs_of (by decide +kernel), by decide +kernel⟩,
   ⟨cmd 0 [(0, 0x10000)], demo, dropTaken (cmd 0 [(0, 0x10000)]) demo, runs_of (by decide +kernel), by decide +kernel⟩,
   ⟨0, 15, demo.onFunc 0 fun f => { f with mask := 0x8000 }, by decide +kernel⟩,
   ⟨cmd 0 [(0, 3), (1, 255)], demo, dropTaken (cmd 0 [(0, 3), (1, 255)]) demo, runs_of (by decide +kernel),
      by decide +kernel⟩,
   ⟨cmd 0 [], demo, dropTaken (cmd 0 []) demo, runs_of (by decide +kernel), by decide +kernel⟩,
   ⟨cmd 0 [(0, 6), (1, 36), (2, 28)], demo, dropTaken (cmd 0 [(0, 6), (1, 36), (2, 28)]) demo, runs_of (by decide +kernel),
      by decide +kernel⟩,
   ⟨cmd 0 [(0, 6), (1, 63)], demo.onUnit 6 63 fun r => { r with mgmt := 2 }, dropTaken (cmd 0 [(0, 6), (1, 63)]) (demo.onUnit
      6 63 fun r => { r with mgmt := 2 }), runs_of (by decide +kernel), by decide +kernel⟩,
   ⟨cmd 0 [(0, 6), (1, 63)], demo.onUnit 6 63 fun r => { r with mgmt := 3 }, dropTaken (cmd 0 [(0, 6), (1, 63)]) (demo.onUnit
      6 63 fun r => { r with mgmt := 3 }), runs_of (by decide +kernel), by decide +kernel⟩⟩

/-- The hypotheses of AccountCommandsComplete hold together, clause by clause. -/
theorem test_meets_accountCommandsComplete :
    (∃ c : Cmd, ∃ s : State, ∃ u : State, u.hasModRight (cmdA c) = true ∧ cmdTail c 16 = true ∧ cmdZ c 2 6 = true ∧ addrOk
      (cmdU c 8 8) = true ∧ namedAcct c < 1024 ∧ u.inAccount (cmdA c) (cmdU c 8 8) 64 = true ∧ u.reads (cmdU c 8 8) 64 = true
      ∧ quotaOk u (u.read (cmdU c 8 8) 64) = true ∧
    let q := quotaOf (u.read (cmdU c 8 8) 64)
    
    let x := u.acct (namedAcct c)
    poolsCover u (namedAcct c) q = true ∧ Runs 0x120 c s u ∧ x.state = .none) ∧
    (∃ c : Cmd, ∃ s : State, ∃ u : State, u.hasModRight (cmdA c) = true ∧ cmdTail c 16 = true ∧ cmdZ c 2 6 = true ∧ addrOk
      (cmdU c 8 8) = true ∧ namedAcct c < 1024 ∧ u.inAccount (cmdA c) (cmdU c 8 8) 64 = true ∧ u.reads (cmdU c 8 8) 64 = true
      ∧ quotaOk u (u.read (cmdU c 8 8) 64) = true ∧
    let q := quotaOf (u.read (cmdU c 8 8) 64)
    
    let x := u.acct (namedAcct c)
    poolsCover u (namedAcct c) q = true ∧ Runs 0x121 c s u ∧ x.state ∈ [.enabled, .disabled] ∧ belowUse u (namedAcct c) q =
      false ∧ q.partition = x.quota.partition ∧ q.classB = x.quota.classB ∧ loadFails u (namedAcct c) q = false) ∧
    (∃ c : Cmd, ∃ s : State, ∃ u : State, u.hasModRight (cmdA c) = true ∧ cmdTail c 2 = true ∧ namedAcct c < 1024 ∧
      u.hasModRight (namedAcct c) = false ∧ Runs 0x122 c s u ∧ (u.acct (namedAcct c)).state = .enabled) ∧
    (∃ c : Cmd, ∃ s : State, ∃ u : State, u.hasModRight (cmdA c) = true ∧ cmdTail c 2 = true ∧ namedAcct c < 1024 ∧
      u.hasModRight (namedAcct c) = false ∧ Runs 0x122 c s u ∧ (u.acct (namedAcct c)).state = .disabled) ∧
    (∃ c : Cmd, ∃ s : State, ∃ u : State, u.hasModRight (cmdA c) = true ∧ cmdTail c 2 = true ∧ namedAcct c < 1024 ∧
      u.hasModRight (namedAcct c) = false ∧ Runs 0x124 c s u ∧ (u.acct (namedAcct c)).state = .enabled) ∧
    (∃ c : Cmd, ∃ s : State, ∃ u : State, u.hasModRight (cmdA c) = true ∧ cmdTail c 2 = true ∧ namedAcct c < 1024 ∧
      u.hasModRight (namedAcct c) = false ∧ Runs 0x124 c s u ∧ (u.acct (namedAcct c)).state = .disabled) ∧
    (∃ c : Cmd, ∃ s : State, ∃ u : State, Runs 0x123 c s u ∧ u.hasModRight (cmdA c) = true ∧ cmdTail c 2 = true ∧ namedAcct c
      < u.ten.accts.length ∧ namedAcct c < 1024 ∧ (u.acct (namedAcct c)).state = .disabled ∧ (u.acct (namedAcct
      c)).causes.absent = false) ∧
    (∃ c : Cmd, ∃ s : State, ∃ u : State, Runs 0x125 c s u ∧ cmdTail c 16 = true ∧ cmdZ c 2 6 = true ∧ addrOk (cmdU c 8 8) =
      true ∧ namedAcct c < 1024 ∧ (namedAcct c = cmdA c ∨ (u.chip.fw.lifecycle = .owned ∧ u.hasModRight (cmdA c) = true)) ∧
      u.inAccount (cmdA c) (cmdU c 8 8) 128 = true ∧ u.writes (cmdU c 8 8) 128 = true) ∧
    (∃ c : Cmd, ∃ s : State, ∃ u : State, Runs 0x12A c s u ∧ cmdTail c 8 = true ∧ cmdZ c 2 6 = true ∧ cmdU c 0 1 < 8 ∧ cmdU c
      1 1 < 8 ∧ cmdU c 0 1 &&& cmdU c 1 1 = 0 ∧ u.slotsOf (cmdA c) = [] ∧ cmdA c < u.ten.accts.length) :=
  ⟨by refine ⟨cmd 0 [(0, 1023), (8, 0x2000)], block, dropTaken (cmd 0 [(0, 1023), (8, 0x2000)]) block, ?_, ?_, ?_, ?_, ?_, ?_,
      ?_, ?_, ?_, runs_of (by decide +kernel), ?_⟩ <;> decide +kernel,
   by refine ⟨cmd 0 [(0, 1), (8, 0x2000)], block, dropTaken (cmd 0 [(0, 1), (8, 0x2000)]) block, ?_, ?_, ?_, ?_, ?_, ?_, ?_,
      ?_, ?_, runs_of (by decide +kernel), ?_⟩ <;> decide +kernel,
   ⟨cmd 0 [(0, 1)], demo, dropTaken (cmd 0 [(0, 1)]) demo, by decide +kernel, by decide +kernel, by decide +kernel,
      by decide +kernel, runs_of (by decide +kernel), by decide +kernel⟩,
   ⟨cmd 0 [(0, 1)], disabled, dropTaken (cmd 0 [(0, 1)]) disabled, by decide +kernel, by decide +kernel, by decide +kernel,
      by decide +kernel, runs_of (by decide +kernel), by decide +kernel⟩,
   ⟨cmd 0 [(0, 1)], demo, dropTaken (cmd 0 [(0, 1)]) demo, by decide +kernel, by decide +kernel, by decide +kernel,
      by decide +kernel, runs_of (by decide +kernel), by decide +kernel⟩,
   ⟨cmd 0 [(0, 1)], disabled, dropTaken (cmd 0 [(0, 1)]) disabled, by decide +kernel, by decide +kernel, by decide +kernel,
      by decide +kernel, runs_of (by decide +kernel), by decide +kernel⟩,
   ⟨cmd 0 [(0, 1)], disabled, dropTaken (cmd 0 [(0, 1)]) disabled, runs_of (by decide +kernel), by decide +kernel⟩,
   ⟨cmd 0 [(8, 0x2000)], demo, dropTaken (cmd 0 [(8, 0x2000)]) demo, runs_of (by decide +kernel), by decide +kernel⟩,
   ⟨cmd 0 [(0, 5), (1, 2)], demo, dropTaken (cmd 0 [(0, 5), (1, 2)]) demo, runs_of (by decide +kernel), by decide +kernel⟩⟩

/-- The hypotheses of GrantsPartitionsAndRightsComplete hold together, clause by clause. -/
theorem test_meets_grantsPartitionsAndRightsComplete :
    (∃ c : Cmd, ∃ s : State, ∃ u : State, ∃ gs : List Grant, Runs 0x126 c s u ∧ u.hasModRight (cmdA c) = true ∧ namedUnits c
      (namedAcct c) = some gs ∧ (u.acct (namedAcct c)).state ≠ .none ∧ (∀ g ∈ gs, g.pool = 3 ∨ g.die ∈ u.acctDies (namedAcct
      c)) ∧ (∀ g ∈ gs, u.unitOwner g.pool g.die g.unit = none ∧ (g.pool ≠ 2 ∨ inDecodeGroup u g.die (g.unit / 16) = false))) ∧
    (∃ c : Cmd, ∃ s : State, ∃ u : State, ∃ gs : List Grant, Runs 0x127 c s u ∧ u.hasModRight (cmdA c) = true ∧ namedUnits c
      (namedAcct c) = some gs ∧ (∀ g ∈ gs, u.unitOwner g.pool g.die g.unit = some (namedAcct c) ∧ g.pool ≠ 3 ∧ ∀ r ∈
      busyRanges u (namedAcct c), rangeInUnit r g = false)) ∧
    (∃ c : Cmd, ∃ s : State, ∃ u : State, Runs 0x128 c s u ∧ u.hasModRight (cmdA c) = true ∧ cmdTail c 2 = true ∧ cmdU c 0 1 <
      8 ∧
    let n := cmdU c 0 1
    
    let dies := (List.range 8).filter fun d => (cmdU c 1 1).testBit d
    (∀ d ∈ dies, u.dieOwner d = none ∨ u.dieOwner d = some n) ∧ (∀ d ∈ u.partDies n, d ∈ dies) ∧ dies ≠ []) ∧
    (∃ c : Cmd, ∃ s : State, ∃ u : State, Runs 0x129 c s u ∧ u.hasModRight (cmdA c) = true ∧ cmdTail c 4 = true ∧ 
    let p := cmdU c 1 1
    
    let a := cmdU c 2 2
    cmdU c 0 1 = 0 ∧ p = 0 ∧ a < 1024 ∧ a % 256 = 0 ∧ (u.acct a).state = .enabled) ∧
    (∃ c : Cmd, ∃ s : State, ∃ u : State, Runs 0x129 c s u ∧ u.hasModRight (cmdA c) = true ∧ cmdTail c 4 = true ∧ 
    let p := cmdU c 1 1
    
    let a := cmdU c 2 2
    cmdU c 0 1 = 1 ∧ p < 8 ∧ u.partDies p ≠ [] ∧ a < 1024 ∧ (u.acct a).state = .enabled ∧ (u.acct a).quota.partition = p) ∧
    (∃ c : Cmd, ∃ s : State, ∃ u : State, Runs 0x129 c s u ∧ u.hasModRight (cmdA c) = true ∧ cmdTail c 4 = true ∧ 
    let p := cmdU c 1 1
    
    let a := cmdU c 2 2
    cmdU c 0 1 = 1 ∧ p < 8 ∧ u.partDies p ≠ [] ∧ a = 0xFFFF) :=
  ⟨⟨cmd 0 [(0, 1), (3, 1), (4, 6139), (8, 1)], demo, dropTaken (cmd 0 [(0, 1), (3, 1), (4, 6139), (8, 1)]) demo, [⟨0, 1, 6139,
      1⟩], runs_of (by decide +kernel), by decide +kernel⟩,
   ⟨cmd 0 [(2, 1), (4, 3), (8, 1)], demo, dropTaken (cmd 0 [(2, 1), (4, 3), (8, 1)]) demo, [⟨1, 0, 3, 0⟩], runs_of
      (by decide +kernel), by decide +kernel⟩,
   ⟨cmd 0 [(0, 7), (1, 0x80)], demo, dropTaken (cmd 0 [(0, 7), (1, 0x80)]) demo, runs_of (by decide +kernel),
      by decide +kernel, by decide +kernel, by decide +kernel, by decide +kernel⟩,
   ⟨cmd 0 [(2, 0)], demo, dropTaken (cmd 0 [(2, 0)]) demo, runs_of (by decide +kernel), by decide +kernel, by decide +kernel,
      by decide +kernel⟩,
   ⟨cmd 0 [(0, 1), (2, 1)], demo, dropTaken (cmd 0 [(0, 1), (2, 1)]) demo, runs_of (by decide +kernel), by decide +kernel,
      by decide +kernel, by decide +kernel⟩,
   ⟨cmd 0 [(0, 1), (2, 0xFFFF)], demo, dropTaken (cmd 0 [(0, 1), (2, 0xFFFF)]) demo, runs_of (by decide +kernel),
      by decide +kernel, by decide +kernel, by decide +kernel⟩⟩

/-- The hypotheses of MemoryCommandsComplete hold together, clause by clause. -/
theorem test_meets_memoryCommandsComplete :
    (∃ c : Cmd, ∃ s : State, ∃ u : State, Runs 0x201 c s u ∧ cmdTail c 8 = true ∧ addrOk (cmdU c 0 8) = true ∧ cmdU c 0 8 % 64
      = 0 ∧ (memoryMap u (cmdA c) = [] ∨ u.inAccount (cmdA c) (cmdU c 0 8) (16 * (memoryMap u (cmdA c)).length) = true ∧
      u.writes (cmdU c 0 8) (16 * (memoryMap u (cmdA c)).length) = true)) ∧
    (∃ c : Cmd, ∃ s : State, ∃ u : State, ∃ d : Nat, Runs 0x202 c s u ∧ cmdTail c 8 = true ∧ cmdZ c 5 3 = true ∧ 
    let vault := decide (cmdU c 1 1 = 1)
    cmdU c 1 1 < 2 ∧ cmdU c 2 1 < (if vault then 3 else 6) ∧ (vault = true ∨ cmdU c 2 1 ≠ 0) ∧ (u.partDies (u.acct (cmdA
      c)).quota.partition)[cmdU c 0 1]? = some d ∧ cmdU c 0 1 ≠ 0xFF ∧ (floorRange vault (cmdU c 2 1)).1 ≤ cmdU c 3 1 ∧ cmdU c
      3 1 ≤ (floorRange vault (cmdU c 2 1)).2 ∧ 0 < cmdU c 4 1 ∧ cmdU c 4 1 ≤ 100 ∧ cmdU c 3 1 ≤ cmdU c 4 1 ∧ u.hasPartRight
      (cmdA c) (u.acct (cmdA c)).quota.partition = true ∧ ((u.credits vault d).change (cmdU c 2 1) (cmdU c 3 1) (cmdU c 4
      1)).1.sum ≤ 100) ∧
    (∃ c : Cmd, ∃ s : State, ∃ u : State, ∃ d : Nat, Runs 0x203 c s u ∧ cmdTail c 8 = true ∧ cmdZ c 2 6 = true ∧ cmdU c 1 1 <
      2 ∧ (u.acctDies (cmdA c))[cmdU c 0 1]? = some d) ∧
    (∃ c : Cmd, ∃ s : State, ∃ u : State, ∃ d : Nat, Runs 0x204 c s u ∧ cmdTail c 8 = true ∧ cmdZ c 1 7 = true ∧ (u.acctDies
      (cmdA c))[cmdU c 0 1]? = some d) :=
  ⟨⟨cmd 0 [(0, 0x2000)], { demo with ten := { demo.ten with grants := [] } }, dropTaken (cmd 0 [(0, 0x2000)])
      ({ demo with ten := { demo.ten with grants := [] } }), runs_of (by decide +kernel), by decide +kernel,
      by decide +kernel, by decide +kernel, .inl (by decide +kernel)⟩,
   ⟨cmd 0 [(0, 1), (2, 1), (3, 20), (4, 100)], demo, dropTaken (cmd 0 [(0, 1), (2, 1), (3, 20), (4, 100)]) demo, 1, runs_of
      (by decide +kernel), by decide +kernel, by decide +kernel, by decide +kernel⟩,
   ⟨cmd 0 [(0, 1), (1, 1)], demo, dropTaken (cmd 0 [(0, 1), (1, 1)]) demo, 1, runs_of (by decide +kernel), by decide +kernel⟩,
   ⟨cmd 0 [(0, 1)], demo, dropTaken (cmd 0 [(0, 1)]) demo, 1, runs_of (by decide +kernel), by decide +kernel⟩⟩

/-- The hypotheses of TallyAndCounterCommandsComplete hold together, clause by clause. -/
theorem test_meets_tallyAndCounterCommandsComplete :
    (∃ c : Cmd, ∃ s : State, ∃ u : State, Runs 0xA01 c s u ∧ cmdTail c 0 = true) ∧
    (∃ c : Cmd, ∃ s : State, ∃ u : State, Runs 0xA02 c s u ∧ cmdTail c 16 = true ∧ cmdZ c 4 4 = true ∧ 0 < cmdU c 2 2 ∧ cmdU c
      0 2 + cmdU c 2 2 ≤ 1024 ∧ addrOk (cmdU c 8 8) = true ∧ u.hasModRight (cmdA c) = true ∧ u.inAccount (cmdA c) (cmdU c 8 8)
      (128 * cmdU c 2 2) = true ∧ u.writes (cmdU c 8 8) (128 * cmdU c 2 2) = true) ∧
    (∃ s : State, s.off = false) ∧
    (∃ c : Cmd, ∃ s : State, ∃ u : State, Runs 0xA10 c s u ∧ cmdTail c 16 = true ∧ cmdZ c 2 2 = true ∧ cmdZ c 9 7 = true ∧ 
    let ctl := cmdU c 4 4
    
    let src := ctl % 2 ^ 12
    cmdU c 0 1 ≤ 8 ∧ cmdU c 1 1 ≤ 31 ∧ cmdU c 8 1 ≤ 1 ∧ ctl.testBit 29 = false ∧ ctl.testBit 31 = false ∧ src / 256 < 12 ∧ src
      % 256 < groupEvents (src / 256) ∧ (cmdU c 0 1 = 8 ∨ moduleOnly (src / 256) = false) ∧ (ctl.testBit 28 = false ∧ bitField
      ctl 24 4 = 0 ∨ sourceIndexes src (bitField ctl 24 4) = true) ∧ mayCount c (cmdU c 0 1) u = true) ∧
    (∃ c : Cmd, ∃ s : State, ∃ u : State, Runs 0xA11 c s u ∧ cmdTail c 16 = true ∧ cmdZ c 2 6 = true ∧ cmdU c 0 1 ≤ 8 ∧ cmdU c
      1 1 ≤ 1 ∧ addrOk (cmdU c 8 8) = true ∧ mayCount c (cmdU c 0 1) u = true ∧ u.inAccount (cmdA c) (cmdU c 8 8) 320 = true ∧
      u.writes (cmdU c 8 8) 320 = true) ∧
    (∃ c : Cmd, ∃ s : State, ∃ u : State, Runs 0xA12 c s u ∧ cmdTail c 24 = true ∧ cmdZ c 2 2 = true ∧ cmdZ c 20 4 = true ∧
      cmdU c 0 1 ≤ 8 ∧ cmdU c 1 1 ≤ 1 ∧ addrOk (cmdU c 8 8) = true ∧ mayCount c (cmdU c 0 1) u = true ∧ cmdU c 4 4 = 0) ∧
    (∃ c : Cmd, ∃ s : State, ∃ u : State, Runs 0xA12 c s u ∧ cmdTail c 24 = true ∧ cmdZ c 2 2 = true ∧ cmdZ c 20 4 = true ∧
      cmdU c 0 1 ≤ 8 ∧ cmdU c 1 1 ≤ 1 ∧ addrOk (cmdU c 8 8) = true ∧ mayCount c (cmdU c 0 1) u = true ∧ 0 < cmdU c 4 4 ∧ cmdU
      c 4 4 ≤ 60000 ∧ 0 < cmdU c 16 4 ∧ cmdU c 16 4 ≤ 65536 ∧ cmdU c 0 1 = 8 ∧ u.inAccount (cmdA c) (cmdU c 8 8) (320 * cmdU c
      16 4) = true) ∧
    (∃ k : BitVec 4, ∃ s : State, ∃ x : Sampler, tget s.chip.samplers k.toNat = some x ∧ s.chip.power.pstate = 0 ∧ 
    let a := x.base + x.next % x.nrec * 320
    s.writes a 320 = true ∧ s.inAccount x.acct a 320 = true) ∧
    (∃ k : BitVec 4, ∃ s : State, ∃ x : Sampler, tget s.chip.samplers k.toNat = some x ∧ s.chip.power.pstate ≠ 0) ∧
    (∃ c : Cmd, ∃ s : State, ∃ u : State, Runs 0xA13 c s u ∧ cmdTail c 16 = true ∧ cmdZ c 1 7 = true ∧ cmdU c 0 1 < 12 ∧
      addrOk (cmdU c 8 8) = true ∧ u.inAccount (cmdA c) (cmdU c 8 8) (16 * groupEvents (cmdU c 0 1)) = true ∧ u.writes (cmdU c
      8 8) (16 * groupEvents (cmdU c 0 1)) = true) :=
  ⟨⟨cmd 0 [], demo, dropTaken (cmd 0 []) demo, runs_of (by decide +kernel), by decide +kernel⟩,
   ⟨cmd 0 [(0, 1023), (2, 1), (8, 0x2000)], demo, dropTaken (cmd 0 [(0, 1023), (2, 1), (8, 0x2000)]) demo, runs_of
      (by decide +kernel), by decide +kernel⟩,
   ⟨demo, by decide +kernel⟩,
   ⟨cmd 0 [(0, 8), (1, 31), (4, 0xB13 + 2 ^ 12), (8, 1)], demo, dropTaken (cmd 0 [(0, 8), (1, 31), (4, 0xB13 + 2 ^ 12), (8,
      1)]) demo, runs_of (by decide +kernel), by decide +kernel, by decide +kernel, by decide +kernel, by decide +kernel⟩,
   ⟨cmd 0 [(0, 8), (1, 1), (8, 0x2000)], demo, dropTaken (cmd 0 [(0, 8), (1, 1), (8, 0x2000)]) demo, runs_of
      (by decide +kernel), by decide +kernel⟩,
   ⟨cmd 0 [(0, 8)], demo, dropTaken (cmd 0 [(0, 8)]) demo, runs_of (by decide +kernel), by decide +kernel⟩,
   ⟨cmd 0 [(0, 8), (4, 60000), (8, 0x2000), (16, 1)], demo, dropTaken (cmd 0 [(0, 8), (4, 60000), (8, 0x2000), (16, 1)]) demo,
      runs_of (by decide +kernel), by decide +kernel⟩,
   ⟨8, { demo with chip := { demo.chip with samplers := [(8, ⟨0, true, 1, 0x2000, 1, 7, true⟩)] } }, ⟨0, true, 1, 0x2000, 1,
      7, true⟩, by decide +kernel, by decide +kernel, by decide +kernel⟩,
   ⟨8,
      { (demo.onPower fun p => { p with pstate := 3 }) with chip := { (demo.onPower fun p => { p with pstate := 3 }).chip with samplers := [(8, ⟨0, true, 1, 0x2000, 1, 7, true⟩)] } },
      ⟨0, true, 1, 0x2000, 1, 7, true⟩, by decide +kernel⟩,
   ⟨cmd 0 [(0, 11), (8, 0x2000)], demo, dropTaken (cmd 0 [(0, 11), (8, 0x2000)]) demo, runs_of (by decide +kernel),
      by decide +kernel⟩⟩

/-- The hypotheses of NumericsMonitorsTakeEffect hold together, clause by clause. -/
theorem test_meets_numericsMonitorsTakeEffect :
    (∃ c : Cmd, ∃ s : State, ∃ u : State, Runs 0xA18 c s u ∧ cmdTail c 0 = true) ∧
    (∃ c : Cmd, ∃ s : State, ∃ u : State, Runs 0xA19 c s u ∧ cmdTail c 24 = true ∧ cmdZ c 2 2 = true ∧ cmdZ c 12 4 = true ∧
      cmdU c 0 2 = 0 ∧ 0 < cmdU c 8 4 ∧ cmdU c 8 4 ≤ 16384 ∧ addrOk (cmdU c 16 8) = true ∧ u.inAccount (cmdA c) (cmdU c 16 8)
      (16 * cmdU c 8 4) = true ∧ u.writes (cmdU c 16 8) (16 * cmdU c 8 4) = true) ∧
    (∃ c : Cmd, ∃ s : State, ∃ u : State, ∃ e : Amax, Runs 0xA1A c s u ∧ cmdTail c 16 = true ∧ cmdZ c 2 2 = true ∧ cmdZ c 12 4
      = true ∧ cmdU c 0 2 = 0 ∧ cmdU c 8 4 < 0x7F800000 ∧ tget (u.acct (cmdA c)).amax (cmdU c 4 4) = some e ∧ modelBusy u
      (cmdA c) 0 = false ∧ cmdA c < u.ten.accts.length) ∧
    (∃ c : Cmd, ∃ s : State, ∃ u : State, Runs 0xA1B c s u ∧ cmdTail c 0 = true ∧ modelBusy u (cmdA c) 0 = false) ∧
    (∃ slot : BitVec 6, ∃ tid : Word, ∃ s : State, ∃ m : Model, s.model slot.toNat = some m ∧ tid.toNat ∈ m.unrolled ∧ (∀ p ∈
      s.pkgs, p.resident = true → p.model = m.map.num → p.id.acct.toNat = m.map.acct → p.epoch ≠ 0 → p.epoch.toNat ≠ m.w.epoch
      → tid.toNat ∉ p.tensors)) ∧
    (∃ k : Counter, ∃ src : Nat, ∃ acct : Option Nat, ∃ unit : Option Nat, 
    let passes := k.en = true ∧ k.dead = false ∧ k.src.toNat = src ∧ (k.afilt = true → acct = some k.account.toNat) ∧
      (k.ufilt = true → unit = some k.unit.toNat)
    passes) ∧
    (∃ k : Counter, ∃ src : Nat, ∃ acct : Option Nat, ∃ unit : Option Nat, 
    let passes := k.en = true ∧ k.dead = false ∧ k.src.toNat = src ∧ (k.afilt = true → acct = some k.account.toNat) ∧
      (k.ufilt = true → unit = some k.unit.toNat)
    ¬ passes) ∧
    (∃ scope : Nat, ∃ s : State, (∀ k ∈ s.countersOf scope, k.en = false ∨ k.dead = true ∨ unseenSource k.src.toNat = false)) :=
  ⟨⟨cmd 0 [], demo, dropTaken (cmd 0 []) demo, runs_of (by decide +kernel), by decide +kernel⟩,
   ⟨cmd 0 [(8, 16384), (16, 0x2000)], demo, dropTaken (cmd 0 [(8, 16384), (16, 0x2000)]) demo, runs_of (by decide +kernel),
      by decide +kernel⟩,
   ⟨cmd 0 [(4, 9), (8, 0x7F7FFFFF)], demo.onAcct 0 fun a => { a with amax := [(9, ⟨5, 0, 0⟩)] }, dropTaken (cmd 0 [(4, 9), (8,
      0x7F7FFFFF)]) (demo.onAcct 0 fun a => { a with amax := [(9, ⟨5, 0, 0⟩)] }), ⟨5, 0, 0⟩, runs_of (by decide +kernel),
      by decide +kernel⟩,
   ⟨cmd 0 [], demo, dropTaken (cmd 0 []) demo, runs_of (by decide +kernel), by decide +kernel⟩,
   ⟨0, 9, loaded, model, by decide +kernel, by decide +kernel, fun _ h => (by cases h)⟩,
   ⟨{ Counter.reset with en := true, src := 5, value := 0xFFFFFFFFFFFF }, 5, none, none, by decide +kernel⟩,
   ⟨Counter.reset, 0, none, none, by decide +kernel⟩,
   ⟨8, demo, by decide +kernel⟩⟩

/-- The hypotheses of RoutesAndCreditsKeepTheirBounds hold together, clause by clause. -/
theorem test_meets_routesAndCreditsKeepTheirBounds :
    (∃ die : Nat, ∃ x : Nat, ∃ d : Nat, ∃ o : Nat, die < 8 ∧ locOf x = some (.vault d o)) ∧
    (∃ die : Nat, ∃ n : Noc, die < 8 ∧ n.held = []) ∧
    (∃ ms : List (Vc × List Hop), ∃ s : State, s.chip.noc.crossAll ms = none) ∧
    (∃ room : List Nat, ∃ got : List Nat, room.length = got.length) :=
  ⟨⟨7, vaultBase, 0, 0, by decide +kernel⟩,
   ⟨7, demo.chip.noc, by decide +kernel⟩,
   ⟨full, crowded, crowded_stops⟩,
   ⟨[1], [0], by decide +kernel⟩⟩

/-- The hypotheses of KvCommandsComplete hold together, clause by clause. -/
theorem test_meets_kvCommandsComplete :
    (∃ c : Cmd, ∃ s : State, ∃ u : State, ∃ k : Nat, Runs 0x210 c s u ∧ cmdTail c 16 = true ∧ cmdZ c 3 5 = true ∧ kvValueOk
      (cmdU c 2 1) (cmdU c 8 8) = true ∧ u.slotOf (cmdA c) (cmdU c 0 2) = some k ∧ (3 < cmdU c 2 1 ∨ (u.modelBusy k = false ∧
      u.modelPages k = false))) ∧
    (∃ c : Cmd, ∃ s : State, ∃ u : State, ∃ k : Nat, ∃ m : Model, Runs 0x211 c s u ∧ cmdTail c 16 = true ∧ cmdZ c 3 1 = true ∧
    let die := cmdU c 2 1 % 8
    
    let se := cmdU c 2 1 / 8 % 4
    cmdU c 2 1 < 32 ∧ die < (u.acctDies (cmdA c)).length ∧ addrOk (cmdU c 8 8) = true ∧ cmdU c 8 8 % 64 = 0 ∧ u.slotOf (cmdA
      c) (cmdU c 0 2) = some k ∧ u.model k = some m ∧ m.kv.kvRow ≠ 0 ∧ 4 * die + se ∈ m.map.members ∧ 0 < cmdU c 4 4 ∧
      u.inGrants (cmdA c) (cmdU c 8 8) (cmdU c 4 4 * m.frameBytes) = true ∧ inQuarter (u.physDie (cmdA c) die) se (cmdU c 8 8)
      (cmdU c 4 4 * m.frameBytes) = true ∧ u.modelBusy k = false ∧ (∀ l ∈ framesOf u k false (4 * die + se), u.frameHeld l =
      false ∧ u.frameIndexed l = false ∧ u.frameWanted l = false)) ∧
    (∃ c : Cmd, ∃ s : State, ∃ u : State, ∃ k : Nat, ∃ off : Nat, ∃ off' : Nat, ∃ m : Model, Runs 0x212 c s u ∧ cmdTail c 16 =
      true ∧ cmdZ c 3 1 = true ∧
    let die := cmdU c 2 1
    die < (u.acctDies (cmdA c)).length ∧ addrOk (cmdU c 8 8) = true ∧ cmdU c 8 8 % 64 = 0 ∧ u.slotOf (cmdA c) (cmdU c 0 2) =
      some k ∧ u.model k = some m ∧ m.kv.kvRow ≠ 0 ∧ 0 < cmdU c 4 4 ∧ u.inGrants (cmdA c) (cmdU c 8 8) (cmdU c 4 4 *
      m.frameBytes) = true ∧ locOf (cmdU c 8 8) = some (.vault (u.physDie (cmdA c) die) off) ∧ locOf (cmdU c 8 8 + cmdU c 4 4
      * m.frameBytes - 1) = some (.vault (u.physDie (cmdA c) die) off') ∧ u.modelBusy k = false ∧ (∀ l ∈ framesOf u k true
      die, u.frameHeld l = false ∧ u.frameIndexed l = false ∧ u.frameWanted l = false)) ∧
    (∃ c : Cmd, ∃ s : State, ∃ u : State, ∃ k : Nat, Runs 0x217 c s u ∧ cmdTail c 2 = true ∧ u.slotOf (cmdA c) (cmdU c 0 2) =
      some k) ∧
    (∃ c : Cmd, ∃ s : State, ∃ u : State, ∃ k : Nat, Runs 0x218 c s u ∧ cmdTail c 2 = true ∧ u.slotOf (cmdA c) (cmdU c 0 2) =
      some k) ∧
    (∃ slot : BitVec 6, ∃ member : BitVec 5, ∃ s : State, ∃ m : Model, ∃ e : IdxEntry, s.model slot.toNat = some m ∧ 
    let cached := cachedFrames s slot.toNat false member.toNat
    m.kv.cacheHi * (framesOf s slot.toNat false member.toNat).length < cached.length * 100 ∧ oldestEntry s (cached.filter fun
      l => !s.frameWanted l) = some e ∧ freeFrames s slot.toNat true (member.toNat / 4) = []) ∧
    (∃ slot : BitVec 6, ∃ member : BitVec 5, ∃ s : State, ∃ m : Model, ∃ e : IdxEntry, s.model slot.toNat = some m ∧ 
    let cached := cachedFrames s slot.toNat false member.toNat
    m.kv.cacheHi * (framesOf s slot.toNat false member.toNat).length < cached.length * 100 ∧ oldestEntry s (cached.filter fun
      l => !s.frameWanted l) = some e ∧ freeFrames s slot.toNat true (member.toNat / 4) ≠ [] ∧ ((cachedFrames s slot.toNat
      true (member.toNat / 4)).length + 1) * 100 ≤ m.kv.vcacheHi * (framesOf s slot.toNat true (member.toNat / 4)).length ∧
      s.meets [(s.pageAddr e.loc, (s.frameBytes e.loc).length)] = .clear) :=
  ⟨⟨cmd 0 [(0, 1), (2, 8), (8, 200)], loaded, dropTaken (cmd 0 [(0, 1), (2, 8), (8, 200)]) loaded, 0, runs_of
      (by decide +kernel), by decide +kernel⟩,
   ⟨cmd 0 [(0, 1), (4, 2), (8, quarterBase + 0x800000)], loaded, dropTaken (cmd 0 [(0, 1), (4, 2), (8, quarterBase +
      0x800000)]) loaded, 0, model, runs_of (by decide +kernel), by decide +kernel, by decide +kernel, by decide +kernel⟩,
   ⟨cmd 0 [(0, 1), (4, 2), (8, vaultBase + 0x100000)], loaded, dropTaken (cmd 0 [(0, 1), (4, 2), (8, vaultBase + 0x100000)])
      loaded, 0, 0x100000, 0x101FFF, model, runs_of (by decide +kernel), by decide +kernel, by decide +kernel,
      by decide +kernel⟩,
   ⟨cmd 0 [(0, 1)], loaded, dropTaken (cmd 0 [(0, 1)]) loaded, 0, runs_of (by decide +kernel), by decide +kernel⟩,
   ⟨cmd 0 [(0, 1)], loaded, dropTaken (cmd 0 [(0, 1)]) loaded, 0, runs_of (by decide +kernel), by decide +kernel⟩,
   ⟨0, 0, cached, model, entry, by decide +kernel, by decide +kernel⟩,
   ⟨0, 0, cached.onModel 0 fun m => { m with kv := { m.kv with vaults := [(0, ⟨0x1000100000, 2⟩)] } },
      { model with kv := { model.kv with vaults := [(0, ⟨0x1000100000, 2⟩)] } }, entry, by decide +kernel, by decide +kernel⟩⟩

/-- The hypotheses of KvDomainCommandsComplete hold together, clause by clause. -/
theorem test_meets_kvDomainCommandsComplete :
    (∃ c : Cmd, ∃ s : State, ∃ u : State, ∃ n : Nat, Runs 0x213 c s u ∧ cmdTail c 0 = true ∧ 1 ≤ n ∧ n ≤ 1023 ∧ tget
      u.gens.domains n = none ∧ (∀ k, 1 ≤ k → k < n → (tget u.gens.domains k).isSome) ∧ (u.gens.domains.filter fun x =>
      x.2.creator == cmdA c).length < (u.acct (cmdA c)).quota.domains) ∧
    (∃ c : Cmd, ∃ s : State, ∃ u : State, ∃ d : Domain, Runs 0x214 c s u ∧ cmdTail c 4 = true ∧ 1 ≤ cmdU c 0 2 ∧ cmdU c 0 2 ≤
      1023 ∧ cmdU c 2 2 ≤ 1023 ∧ tget u.gens.domains (cmdU c 0 2) = some d ∧ cmdA c ∈ d.members) ∧
    (∃ c : Cmd, ∃ s : State, ∃ u : State, ∃ d : Domain, ∃ by_ : Nat, Runs 0x215 c s u ∧ cmdTail c 2 = true ∧ 1 ≤ cmdU c 0 2 ∧
      cmdU c 0 2 ≤ 1023 ∧ tget u.gens.domains (cmdU c 0 2) = some d ∧ (by_, cmdA c) ∈ d.grants) ∧
    (∃ c : Cmd, ∃ s : State, ∃ u : State, ∃ d : Domain, Runs 0x216 c s u ∧ cmdTail c 2 = true ∧ 1 ≤ cmdU c 0 2 ∧ cmdU c 0 2 ≤
      1023 ∧ tget u.gens.domains (cmdU c 0 2) = some d ∧ cmdA c ∈ d.members) ∧
    (∃ q : Seq, ∃ s : State, ∃ d : Domain, ∃ inst : Nat, ∃ stamp : Nat, q.domain ≠ 0 ∧ tget s.gens.domains q.domain = some d ∧
      q.joined = some (inst, stamp) ∧ q.acct ∈ d.members ∧ d.inst = inst ∧ tget d.stamps q.acct = some stamp) ∧
    (∃ q : Seq, ∃ s : State, ∃ d : Domain, ∃ inst : Nat, ∃ stamp : Nat, q.domain ≠ 0 ∧ tget s.gens.domains q.domain = some d ∧
      q.joined = some (inst, stamp) ∧ (q.acct ∉ d.members ∨ d.inst ≠ inst ∨ tget d.stamps q.acct ≠ some stamp)) :=
  ⟨⟨cmd 0 [], demo, dropTaken (cmd 0 []) demo, 1, runs_of (by decide +kernel), by decide +kernel, by decide +kernel,
      by decide +kernel, by decide +kernel, fun _ _ _ => by omega, by decide +kernel⟩,
   ⟨cmd 0 [(0, 1023), (2, 1023)], { demo with gens := { demo.gens with domains := [(1023, ⟨0, 0, [0], [], 0, [(0, 0)]⟩)] } },
      dropTaken (cmd 0 [(0, 1023), (2, 1023)])
      ({ demo with gens := { demo.gens with domains := [(1023, ⟨0, 0, [0], [], 0, [(0, 0)]⟩)] } }), ⟨0, 0, [0], [], 0, [(0,
      0)]⟩, runs_of (by decide +kernel), by decide +kernel⟩,
   ⟨cmd 0 [(0, 1023)], { demo with gens := { demo.gens with domains := [(1023, ⟨0, 1, [1], [(1, 0)], 0, [(1, 0)]⟩)] } },
      dropTaken (cmd 0 [(0, 1023)])
      ({ demo with gens := { demo.gens with domains := [(1023, ⟨0, 1, [1], [(1, 0)], 0, [(1, 0)]⟩)] } }), ⟨0, 1, [1], [(1,
      0)], 0, [(1, 0)]⟩, 1, runs_of (by decide +kernel), by decide +kernel⟩,
   ⟨cmd 0 [(0, 1023)], { demo with gens := { demo.gens with domains := [(1023, ⟨0, 0, [0], [], 0, [(0, 0)]⟩)] } }, dropTaken
      (cmd 0 [(0, 1023)]) ({ demo with gens := { demo.gens with domains := [(1023, ⟨0, 0, [0], [], 0, [(0, 0)]⟩)] } }), ⟨0, 0,
      [0], [], 0, [(0, 0)]⟩, runs_of (by decide +kernel), by decide +kernel⟩,
   ⟨{ seq .decode with domain := 1023, joined := some (0, 0) },
      { demo with gens := { demo.gens with domains := [(1023, ⟨0, 0, [0], [], 0, [(0, 0)]⟩)] } }, ⟨0, 0, [0], [], 0, [(0,
      0)]⟩, 0, 0, by decide +kernel⟩,
   ⟨{ seq .decode with domain := 1023, joined := some (0, 1) },
      { demo with gens := { demo.gens with domains := [(1023, ⟨0, 0, [0], [], 0, [(0, 0)]⟩)] } }, ⟨0, 0, [0], [], 0, [(0,
      0)]⟩, 0, 1, by decide +kernel⟩⟩

/-- The hypotheses of PackageCommandsComplete hold together, clause by clause. -/
theorem test_meets_packageCommandsComplete :
    (∃ c : Cmd, ∃ s : State, ∃ u : State, ∃ im : PkgImage, Runs 0x301 c s u ∧ cmdTail c 8 = true ∧ addrOk (cmdU c 0 8) = true
      ∧ loadImage u c.fn (cmdU c 0 8) = .image im ∧ u.acctResetting (cmdA c) = false ∧ firstFail (packageChecks u im) = none ∧
      codeFails u im.pkg = false) ∧
    (∃ c : Cmd, ∃ s : State, ∃ u : State, ∃ p : Pkg, Runs 0x302 c s u ∧ cmdTail c 4 = true ∧ 
    let id : PkgId := ⟨c.fn, BitVec.ofNat 32 (cmdU c 0 4)⟩
    u.pkg id = some p ∧ p.state ≠ .done ∧ (p.state = .stopping → p.status = .cancelled) ∧ ∃ q, (beginStop id .cancelled u).pkg
      id = some q ∧ q.state ≠ .done) ∧
    (∃ c : Cmd, ∃ s : State, ∃ u : State, ∃ p : Pkg, Runs 0x302 c s u ∧ cmdTail c 4 = true ∧ 
    let id : PkgId := ⟨c.fn, BitVec.ofNat 32 (cmdU c 0 4)⟩
    u.pkg id = some p ∧ p.state ≠ .done ∧ (p.state = .stopping → p.status = .cancelled) ∧ ∃ q, (beginStop id .cancelled u).pkg
      id = some q ∧ q.state = .done) ∧
    (∃ c : Cmd, ∃ s : State, ∃ u : State, ∃ p : Pkg, Runs 0x303 c s u ∧ cmdTail c 4 = true ∧ u.pkg ⟨c.fn, BitVec.ofNat 32
      (cmdU c 0 4)⟩ = some p ∧ p.state = .done) ∧
    (∃ c : Cmd, ∃ s : State, ∃ u : State, cmdU c 0 2 < (u.acct (cmdA c)).quota.sems ∧ cmdA c < u.ten.accts.length ∧ Runs 0x304
      c s u ∧ cmdTail c 2 = true) ∧
    (∃ c : Cmd, ∃ s : State, ∃ u : State, cmdU c 0 2 < (u.acct (cmdA c)).quota.sems ∧ cmdA c < u.ten.accts.length ∧ Runs 0x305
      c s u ∧ cmdTail c 8 = true ∧ cmdZ c 2 2 = true) ∧
    (∃ c : Cmd, ∃ s : State, ∃ u : State, cmdU c 0 2 < (u.acct (cmdA c)).quota.sems ∧ cmdA c < u.ten.accts.length ∧ Runs 0x306
      c s u ∧ cmdTail c 2 = true) ∧
    (∃ id : PkgId, ∃ s : State, ∃ q : Pkg, s.pkg id = some q ∧ (q.running = true ∨ (q.state ≠ .held ∧ q.atPrologue s = true)))
      ∧
    (∃ id : PkgId, ∃ s : State, ∃ q : Pkg, s.pkg id = some q ∧ q.state = .held) ∧
    (∃ id : PkgId, ∃ s : State, ∃ q : Pkg, s.pkg id = some q ∧ q.running = true ∧ ∃ t, exec (.runLimitExpiry id) s = .next t ∧
      ∃ r, t.pkg id = some r) ∧
    (∃ core : BitVec 7, ∃ s : State, ∃ v : VProg, (s.core core.toNat).prog = some v) ∧
    (∃ h : Hart, ∃ s : State, ∃ v : VProg, s.prog h = some v ∧ (s.thread h).state = .running ∧ v.budget ≤ (s.thread h).issued)
      ∧
    (∃ id : PkgId, ∃ s : State, ∃ q : Pkg, s.pkg id = some q ∧ q.state = .stopping) :=
  ⟨⟨cmd 0 [(0, 0x4000)], packed, dropTaken (cmd 0 [(0, 0x4000)]) packed, image.get (by decide +kernel), runs_of
      (by decide +kernel), by decide +kernel⟩,
   ⟨cmd 0 [(0, 1)], tiled .running, dropTaken (cmd 0 [(0, 1)]) (tiled .running), pkg .running [desc .started tile], runs_of
      (by decide +kernel), by decide +kernel, by decide +kernel, by decide +kernel, by decide +kernel, ((beginStop ⟨0, 1⟩
      .cancelled (tiled .running)).pkg ⟨0, 1⟩).get (by decide +kernel), by decide +kernel⟩,
   ⟨cmd 0 [(0, 1)], withPkg .running [desc .queued sync], dropTaken (cmd 0 [(0, 1)]) (withPkg .running [desc .queued sync]),
      pkg .running [desc .queued sync], runs_of (by decide +kernel), by decide +kernel, by decide +kernel, by decide +kernel,
      by decide +kernel, ((beginStop ⟨0, 1⟩ .cancelled (withPkg .running [desc .queued sync])).pkg ⟨0, 1⟩).get
      (by decide +kernel), by decide +kernel⟩,
   ⟨cmd 0 [(0, 1)], withPkg .done [], dropTaken (cmd 0 [(0, 1)]) (withPkg .done []), pkg .done [], runs_of
      (by decide +kernel), by decide +kernel⟩,
   ⟨cmd 0 [(0, 63)], demo, dropTaken (cmd 0 [(0, 63)]) demo, by decide +kernel, by decide +kernel, runs_of
      (by decide +kernel), by decide +kernel⟩,
   ⟨cmd 0 [(0, 63), (4, 7)], demo, dropTaken (cmd 0 [(0, 63), (4, 7)]) demo, by decide +kernel, by decide +kernel, runs_of
      (by decide +kernel), by decide +kernel⟩,
   ⟨cmd 0 [(0, 63)], demo, dropTaken (cmd 0 [(0, 63)]) demo, by decide +kernel, by decide +kernel, runs_of
      (by decide +kernel), by decide +kernel⟩,
   ⟨⟨0, 1⟩, withPkg .running [], pkg .running [], by decide +kernel, .inl (by decide +kernel)⟩,
   ⟨⟨0, 1⟩, withPkg .held [], pkg .held [], by decide +kernel⟩,
   ⟨⟨0, 1⟩, withPkg .running [], pkg .running [], by decide +kernel, by decide +kernel, nextOf (exec (.runLimitExpiry ⟨0, 1⟩)
      (withPkg .running [])), next_of (by decide +kernel), ((nextOf (exec (.runLimitExpiry ⟨0, 1⟩) (withPkg .running []))).pkg
      ⟨0, 1⟩).get (by decide +kernel), by decide +kernel⟩,
   ⟨0, vstate, prog, by decide +kernel⟩,
   ⟨hart, vstate.onThread hart fun t => { t with issued := 100 }, prog, by decide +kernel⟩,
   ⟨⟨0, 1⟩, withPkg .stopping [], pkg .stopping [], by decide +kernel⟩⟩

/-- The hypotheses of PackagesStartAndDescriptorsRun hold together, clause by clause. -/
theorem test_meets_packagesStartAndDescriptorsRun :
    (∃ id : PkgId, ∃ s : State, ∃ q : Pkg, s.pkg id = some q ∧ (q.state = .loaded ∨ q.state = .phaseWait) ∧
      s.chip.power.pstate = 0 ∧ q.phaseOpen s = true ∧ q.waitsRoll s = false ∧ q.modelOpen s = true ∧ s.meets (prologueReads q
      true) = .clear) ∧
    (∃ d : DescId, ∃ s : State, ∃ p : Pkg, ∃ x : Desc, s.desc d = some (p, x) ∧ descReady s p d.idx.toNat x = true ∧ x.kind ≠
      4 ∧ (2 ≤ x.pos ∨ s.serves (p.engine x) (rivals s p x) d = true)) ∧
    (∃ d : DescId, ∃ s : State, ∃ p : Pkg, ∃ x : Desc, s.desc d = some (p, x) ∧ x.kind = 4 ∧ ∃ n, s.chip.noc.crossAll
      (signalMsgs s d.pkg.acct.toNat (p.die x) x.signal) = some n ∧ x.state = .started) ∧
    (∃ d : DescId, ∃ s : State, ∃ p : Pkg, ∃ x : Desc, s.desc d = some (p, x) ∧ x.kind = 4 ∧ ∃ n, s.chip.noc.crossAll
      (signalMsgs s d.pkg.acct.toNat (p.die x) x.signal) = some n ∧ descReady s p d.idx.toNat x = true) ∧
    (∃ cs : List (Nat × Nat × DescId), cs ≠ []) ∧
    (∃ turn : Nat, ∃ cs : List (Nat × Nat × DescId), ∃ d : DescId, chooseDesc turn cs = some d) ∧
    (∃ d : DescId, ∃ s : State, ∃ p : Pkg, ∃ x : Desc, s.desc d = some (p, x) ∧ x.kind = 2 ∧ x.state = .started ∧ x.progress =
      0 ∧ (s.core (p.core x)).prog = none ∧ p.core x < s.cores.length) ∧
    (∃ d : DescId, ∃ s : State, ∃ p : Pkg, ∃ x : Desc, s.desc d = some (p, x) ∧ x.state = .started ∧ x.kind ≠ 1 ∧ x.finished =
      true ∧ (s.core (p.core x)).prog = none ∧ ∃ n, s.chip.noc.crossAll (signalMsgs s d.pkg.acct.toNat (p.die x) x.signal) =
      some n) :=
  ⟨⟨⟨0, 1⟩, withPkg .loaded [], pkg .loaded [], by decide +kernel, .inl (by decide +kernel), by decide +kernel⟩,
   ⟨⟨⟨0, 1⟩, 0⟩, withPkg .running [desc .queued xfer], pkg .running [desc .queued xfer], desc .queued xfer, by decide +kernel,
      by decide +kernel, by decide +kernel, .inr (by decide +kernel)⟩,
   ⟨⟨⟨0, 1⟩, 0⟩, withPkg .running [desc .started sync], pkg .running [desc .started sync], desc .started sync,
      by decide +kernel, by decide +kernel, ((withPkg .running [desc .started sync]).chip.noc.crossAll (signalMsgs (withPkg
      .running [desc .started sync]) 0 ((pkg .running []).die (desc .started sync)) (desc .started sync).signal)).get
      (by decide +kernel), (Option.some_get (by decide +kernel)).symm, by decide +kernel⟩,
   ⟨⟨⟨0, 1⟩, 0⟩, withPkg .running [desc .queued sync], pkg .running [desc .queued sync], desc .queued sync, by decide +kernel,
      by decide +kernel, ((withPkg .running [desc .queued sync]).chip.noc.crossAll (signalMsgs (withPkg .running [desc .queued
      sync]) 0 ((pkg .running []).die (desc .queued sync)) (desc .queued sync).signal)).get (by decide +kernel),
      (Option.some_get (by decide +kernel)).symm, by decide +kernel⟩,
   ⟨[(0, 0, ⟨⟨0, 1⟩, 0⟩)], by decide +kernel⟩,
   ⟨0, [(0, 0, ⟨⟨0, 1⟩, 0⟩)], ⟨⟨0, 1⟩, 0⟩, by decide +kernel⟩,
   ⟨⟨⟨0, 1⟩, 0⟩, withPkg .running [vdesc], pkg .running [vdesc], vdesc, by decide +kernel⟩,
   ⟨⟨⟨0, 1⟩, 0⟩, withPkg .running [desc .started sync], pkg .running [desc .started sync], desc .started sync,
      by decide +kernel, by decide +kernel, by decide +kernel, by decide +kernel, by decide +kernel, ((withPkg .running [desc
      .started sync]).chip.noc.crossAll (signalMsgs (withPkg .running [desc .started sync]) 0 ((pkg .running []).die (desc
      .started sync)) (desc .started sync).signal)).get (by decide +kernel), (Option.some_get (by decide +kernel)).symm⟩⟩

/-- The hypotheses of TilesAndTransfersRun hold together, clause by clause. -/
theorem test_meets_tilesAndTransfersRun :
    (∃ d : DescId, ∃ s : State, ∃ p : Pkg, ∃ x : Desc, ∃ last : Desc, ∃ r : TileRun, s.desc d = some (p, x) ∧ x.kind = 1 ∧
      x.state = .started ∧ p.descs[(p.chain d.idx.toNat).getLastD 0]? = some last ∧
    let core := p.core x
    
    let first : DescId := ⟨d.pkg, BitVec.ofNat 14 ((p.chain d.idx.toNat).headD 0)⟩
    s.tileRun core first = some r ∧ r.awaiting = false ∧ (p.chain d.idx.toNat)[r.descs.length]? = some d.idx.toNat ∧ (r.holds
      = true ∨ s.arraysOpen core first x.arrays = true) ∧ s.meets (x.operandSpans core) = .clear ∧ core < s.cores.length) ∧
    (∃ d : DescId, ∃ s : State, ∃ p : Pkg, ∃ x : Desc, ∃ last : Desc, ∃ r : TileRun, ∃ n : Noc, s.desc d = some (p, x) ∧ 
    let chain := p.chain d.idx.toNat
    
    let first : DescId := ⟨d.pkg, BitVec.ofNat 14 (chain.headD 0)⟩
    
    let A := passAnchor r.base r.pass
    
    let out := bitField (last.u 0x38 8) 0 52
    
    let img := tileImage last A r.acc
    s.tileRun (p.core x) first = some r ∧ p.descs[chain.getLastD 0]? = some last ∧ r.descs = chain ∧ r.awaiting = false ∧
      bitField (last.u 0x44 4) 0 2 = 0 ∧ last.pinCount = 0 ∧ last.ofmt = 0xA ∧ s.writes out img.length = true ∧
      s.chip.noc.crossAll (dataMsgs (p.core x / 16) [(out, img.length)]) = some n) ∧
    (∃ d : DescId, ∃ s : State, ∃ p : Pkg, ∃ x : Desc, s.desc d = some (p, x) ∧ x.kind = 3 ∧ x.state = .started ∧ 
    let f := xfOf x.raw
    
    let src := (f.runs f.src f.ss x.progress).flatMap fun r => s.spotsFor p.epoch.toNat r.1 r.2
    
    let dst := f.runs f.dst f.ds x.progress
    s.serves (1256 + p.die x) (hasSegment s (p.die x)) d = true ∧ s.reserved d f.dst = true ∧ s.chip.noc.crossAll (readMsgs
      (p.die x) src ++ dataMsgs (p.die x) dst) = some s.chip.noc ∧ s.meets src = .clear ∧ (∀ r ∈ dst, s.writes r.1 r.2 =
      true)) ∧
    (∃ d : DescId, ∃ s : State, ∃ p : Pkg, ∃ x : Desc, ∃ k : Nat, ∃ m : Model, s.desc d = some (p, x) ∧ x.kind = 7 ∧ s.slotOf
      p.id.acct.toNat p.model = some k ∧ s.model k = some m ∧
    let f := pfOf x.raw
    
    let src := s.keySpots (f.source k m (x.unit % 8) p.epoch.toNat x.progress).1
      (f.source k m (x.unit % 8) p.epoch.toNat x.progress).2
    
    let dst := (f.dst + 65536 * x.progress, (f.source k m (x.unit % 8) p.epoch.toNat x.progress).2)
    s.serves (1256 + p.die x) (hasSegment s (p.die x)) d = true ∧ s.reserved d f.dst = true ∧ s.chip.noc.crossAll (readMsgs
      (p.die x) src ++ dataMsgs (p.die x) [dst]) = some s.chip.noc ∧ s.meets src = .clear ∧ s.writes dst.1 dst.2 = true) :=
  ⟨⟨⟨⟨0, 1⟩, 0⟩, running tileOut [], pkg .running [desc .started tileOut], desc .started tileOut, desc .started tileOut,
      { tileRun with descs := [] }, by decide +kernel, by decide +kernel, by decide +kernel, by decide +kernel,
      by decide +kernel⟩,
   by refine ⟨⟨⟨0, 1⟩, 0⟩, running tileOut [0], pkg .running [desc .started tileOut], desc .started tileOut, desc .started
      tileOut, tileRun, ((running tileOut [0]).chip.noc.crossAll (dataMsgs ((pkg .running [desc .started tileOut]).core (desc
      .started tileOut) / 16) [(bitField ((desc .started tileOut).u 0x38 8) 0 52, (tileImage (desc .started tileOut)
      (passAnchor tileRun.base tileRun.pass) tileRun.acc).length)])).get (by decide +kernel), ?_, ?_, ?_, ?_, ?_, ?_, ?_, ?_,
      ?_, (Option.some_get (by decide +kernel)).symm⟩ <;> decide +kernel,
   ⟨⟨⟨0, 1⟩, 0⟩, withPkg .running [desc .started xfer], pkg .running [desc .started xfer], desc .started xfer,
      by decide +kernel, by decide +kernel, by decide +kernel, by decide +kernel⟩,
   ⟨⟨⟨0, 1⟩, 0⟩, { loaded with pkgs := [{ pkg .running [prefetch] with model := 1 }] },
      { pkg .running [prefetch] with model := 1 }, prefetch, 0, model, by decide +kernel, by decide +kernel,
      by decide +kernel, by decide +kernel, by decide +kernel⟩⟩

/-- The hypotheses of CollectivesTakeEffect hold together, clause by clause. -/
theorem test_meets_collectivesTakeEffect :
    (∃ d : DescId, ∃ s : State, ∃ p : Pkg, ∃ x : Desc, ∃ js : JobSlot, ∃ r : Drop, ∃ nn : Noc, s.desc d = some (p, x) ∧ x.kind
      = 5 ∧
    let c := collOf x.raw
    
    let n := 64 * c.count
    c.op = 1 ∧ x.state = .started ∧ x.progress = 0 ∧ p.running = true ∧ s.jobSlot d.pkg.acct.toNat c.jslot = some js ∧ c.peer
      = js.part ∧ tget js.drops c.drop = some r ∧ (s.readFor p.epoch.toNat c.src n).length = n ∧ c.dst + n ≤ 64 * r.len ∧
      s.meets (s.spotsFor p.epoch.toNat c.src n) = .clear ∧ s.writes (r.base + c.dst) n = true ∧ s.chip.noc.crossAll (dataMsgs
      (p.die x) [(r.base + c.dst, n)]) = some nn) ∧
    (∃ d : DescId, ∃ s : State, ∃ p : Pkg, ∃ x : Desc, ∃ t : Seat, s.desc d = some (p, x) ∧ x.kind = 5 ∧ x.state = .started ∧
      x.progress = 0 ∧ p.running = true ∧
    let c := collOf x.raw
    seatOf s p x c = some t ∧ s.roundOf t.slot.job c (p.die x) = none ∧ t.reaches (p.die x) s = true ∧ c.op = 2) ∧
    (∃ d : DescId, ∃ s : State, ∃ p : Pkg, ∃ x : Desc, ∃ t : Seat, s.desc d = some (p, x) ∧ x.kind = 5 ∧ x.state = .started ∧
      x.progress = 0 ∧ p.running = true ∧
    let c := collOf x.raw
    seatOf s p x c = some t ∧ s.roundOf t.slot.job c (p.die x) = none ∧ t.reaches (p.die x) s = true ∧ c.op = 3) ∧
    (∃ d : DescId, ∃ s : State, ∃ p : Pkg, ∃ x : Desc, ∃ t : Seat, s.desc d = some (p, x) ∧ x.kind = 5 ∧ x.state = .started ∧
      x.progress = 0 ∧ p.running = true ∧
    let c := collOf x.raw
    seatOf s p x c = some t ∧ s.roundOf t.slot.job c (p.die x) = none ∧ t.reaches (p.die x) s = true ∧ c.op = 4) ∧
    (∃ d : DescId, ∃ s : State, ∃ p : Pkg, ∃ x : Desc, ∃ t : Seat, s.desc d = some (p, x) ∧ x.kind = 5 ∧ x.state = .started ∧
      x.progress = 0 ∧ p.running = true ∧
    let c := collOf x.raw
    seatOf s p x c = some t ∧ s.roundOf t.slot.job c (p.die x) = none ∧ t.reaches (p.die x) s = true ∧ c.op = 5) ∧
    (∃ d : DescId, ∃ s : State, ∃ p : Pkg, ∃ x : Desc, ∃ t : Seat, s.desc d = some (p, x) ∧ x.kind = 5 ∧ x.state = .started ∧
      x.progress = 0 ∧ p.running = true ∧
    let c := collOf x.raw
    seatOf s p x c = some t ∧ s.roundOf t.slot.job c (p.die x) = none ∧ t.reaches (p.die x) s = true ∧ c.op = 6) ∧
    (∃ d : DescId, ∃ s : State, ∃ p : Pkg, ∃ x : Desc, ∃ t : Seat, ∃ r : Round, s.desc d = some (p, x) ∧ x.kind = 5 ∧
      p.resident = true ∧ p.state ≠ .stopping ∧ seatOf s p x (collOf x.raw) = some t ∧ s.roundOf t.slot.job (collOf x.raw)
      (p.die x) = some r ∧ ∃ b, r.result = some b ∧ x.state = .started ∧ x.progress = 0) ∧
    (∃ d : DescId, ∃ others : List (Nat × Bytes), ∃ s : State, ∃ p : Pkg, ∃ x : Desc, ∃ t : Seat, ∃ r : Round, s.desc d = some
      (p, x) ∧ x.kind = 5 ∧ p.resident = true ∧ p.state ≠ .stopping ∧ seatOf s p x (collOf x.raw) = some t ∧ s.roundOf
      t.slot.job (collOf x.raw) (p.die x) = some r ∧ r.result = none ∧ (collOf x.raw).op = 6 ∧ (collOf x.raw).arith = 0 ∧
      r.pass < r.sent.length ∧ gather s p (collOf x.raw) t r others = some (t.members.map fun _ => roundTag (collOf x.raw)
      t.members (passAnchor r.base r.pass))) ∧
    (∃ src : BitVec 13, ∃ job : Word, ∃ drop : BitVec 6, ∃ off : Nat, ∃ data : Bytes, ∃ s : State, ∃ acct, ∃ js, ∃ r,
      s.recipient src.toNat job = some (acct, js) ∧ tget js.drops drop.toNat = some r ∧ off + data.length ≤ 64 * r.len ∧
      s.writes (r.base + off) data.length = true) ∧
    (∃ src : BitVec 13, ∃ job : Word, ∃ s : State, s.recipient src.toNat job = none) ∧
    (∃ src : BitVec 13, ∃ job : Word, ∃ s : State, s.recipient src.toNat job = none) ∧
    (∃ src : BitVec 13, ∃ job : Word, ∃ rkey : Word, ∃ pass : BitVec 2, ∃ s : State, ∃ acct, ∃ js, ∃ q, ∃ g, ∃ y, s.recipient
      src.toNat job = some (acct, js) ∧
    let u := wakeUp s
    
    let o : Owed := ⟨src.toNat, job, rkey, pass.toNat⟩
    o ∉ u.chip.fabric.owed ∧ linkedProducers u (BitVec.ofNat 10 acct) rkey = [(q, g)] ∧ producerGone u (BitVec.ofNat 10 acct)
      rkey = false ∧ q.produced g = true ∧ (q.descs.find? fun y => y.produces g) = some y ∧ y.kind = 1) ∧
    (∃ src : BitVec 13, ∃ job : Word, ∃ rkey : Word, ∃ pass : BitVec 2, ∃ s : State, ∃ acct, ∃ js, s.recipient src.toNat job =
      some (acct, js) ∧
    let u := wakeUp s
    
    let o : Owed := ⟨src.toNat, job, rkey, pass.toNat⟩
    o ∉ u.chip.fabric.owed ∧ linkedProducers u (BitVec.ofNat 10 acct) rkey = []) :=
  ⟨by refine ⟨⟨⟨0, 1⟩, 0⟩, inJob (coll 1) [], pkg .running [desc .started (coll 1)], desc .started (coll 1), job, ⟨0, 1, 1,
      0x8000⟩, ((inJob (coll 1) []).chip.noc.crossAll (dataMsgs 0 [(0x8000, 64)])).get (by decide +kernel), ?_, ?_, ?_, ?_,
      ?_, ?_, ?_, ?_, ?_, ?_, ?_, ?_, ?_, (Option.some_get (by decide +kernel)).symm⟩ <;> decide +kernel,
   ⟨⟨⟨0, 1⟩, 0⟩, inJob (coll 2) [], pkg .running [desc .started (coll 2)], desc .started (coll 2), ⟨job, [⟨0, 0⟩], 0, 0⟩,
      by decide +kernel, by decide +kernel, by decide +kernel, by decide +kernel, by decide +kernel, by decide +kernel⟩,
   ⟨⟨⟨0, 1⟩, 0⟩, inJob (coll 3) [], pkg .running [desc .started (coll 3)], desc .started (coll 3), ⟨job, [⟨0, 0⟩], 0, 0⟩,
      by decide +kernel, by decide +kernel, by decide +kernel, by decide +kernel, by decide +kernel, by decide +kernel⟩,
   ⟨⟨⟨0, 1⟩, 0⟩, inJob (coll 4) [], pkg .running [desc .started (coll 4)], desc .started (coll 4), ⟨job, [⟨0, 0⟩], 0, 0⟩,
      by decide +kernel, by decide +kernel, by decide +kernel, by decide +kernel, by decide +kernel, by decide +kernel⟩,
   ⟨⟨⟨0, 1⟩, 0⟩, inJob (coll 5) [], pkg .running [desc .started (coll 5)], desc .started (coll 5), ⟨job, [⟨0, 0⟩], 0, 0⟩,
      by decide +kernel, by decide +kernel, by decide +kernel, by decide +kernel, by decide +kernel, by decide +kernel⟩,
   ⟨⟨⟨0, 1⟩, 0⟩, inJob (coll 6) [], pkg .running [desc .started (coll 6)], desc .started (coll 6), ⟨job, [⟨0, 0⟩], 0, 0⟩,
      by decide +kernel, by decide +kernel, by decide +kernel, by decide +kernel, by decide +kernel, by decide +kernel⟩,
   ⟨⟨⟨0, 1⟩, 0⟩, inJob (coll 6) [round [[]] (some [])], pkg .running [desc .started (coll 6)], desc .started (coll 6), ⟨job,
      [⟨0, 0⟩], 0, 0⟩, round [[]] (some []), by decide +kernel, by decide +kernel, by decide +kernel, by decide +kernel,
      by decide +kernel, by decide +kernel, [], by decide +kernel⟩,
   ⟨⟨⟨0, 1⟩, 0⟩, [], inJob (coll 6) [round [tag6] none], pkg .running [desc .started (coll 6)], desc .started (coll 6), ⟨job,
      [⟨0, 0⟩], 0, 0⟩, round [tag6] none, by decide +kernel⟩,
   ⟨5, 7, 0, 0, List.replicate 64 1, inJob [] [], 0, job, ⟨0, 1, 1, 0x8000⟩, by decide +kernel⟩,
   ⟨6, 7, inJob [] [], by decide +kernel⟩,
   ⟨6, 7, inJob [] [], by decide +kernel⟩,
   ⟨5, 7, 9, 0, linked, 0, job, { pkg .held [desc .done tileOut] with links := [⟨9, 3, false⟩] }, 3, desc .done tileOut,
      by decide +kernel, by decide +kernel⟩,
   ⟨5, 7, 9, 0, inJob [] [], 0, job, by decide +kernel, by decide +kernel⟩⟩

/-- The hypotheses of IntegerInstructionsWriteXd hold, instruction by instruction. -/
theorem test_meets_integerInstructionsWriteXd :
    Spells [(.add hart 31 2 3, rword 0 31 2 3 0 0 0), (.sub hart 31 2 3, rword 0 31 2 3 0 1 0), (.and hart 31 2 3, rword 0 31
      2 3 0 2 0), (.or hart 31 2 3, rword 0 31 2 3 0 3 0), (.xor hart 31 2 3, rword 0 31 2 3 0 4 0), (.sll hart 31 2 3, rword
      0 31 2 3 0 5 0), (.srl hart 31 2 3, rword 0 31 2 3 0 6 0), (.sra hart 31 2 3, rword 0 31 2 3 0 7 0), (.slt hart 31 2 3,
      rword 0 31 2 3 0 8 0), (.sltu hart 31 2 3, rword 0 31 2 3 0 9 0), (.min hart 31 2 3, rword 0 31 2 3 0 10 0), (.max hart
      31 2 3, rword 0 31 2 3 0 11 0), (.mul hart 31 2 3, rword 0 31 2 3 0 12 0), (.addi hart 31 2 0xFFFF, iword 1 31 2
      0xFFFF), (.andi hart 31 2 0xFFFF, iword 2 31 2 0xFFFF), (.ori hart 31 2 0xFFFF, iword 3 31 2 0xFFFF), (.xori hart 31 2
      0xFFFF, iword 4 31 2 0xFFFF), (.shi hart 31 2 .sll 63, iword 5 31 2 63), (.shi hart 31 2 .srl 63, iword 5 31 2 127),
      (.shi hart 31 2 .sra 63, iword 5 31 2 191), (.lui hart 31 0xFFFF, iword 6 31 0 0xFFFF), (.slti hart 31 2 0xFFFF, iword 7
      31 2 0xFFFF)] ∧ hart.core.toNat < vstate.cores.length :=
  ⟨spells_of (by decide +kernel), by decide⟩

/-- The hypotheses of FloatInstructionsWriteXd hold, instruction by instruction. -/
theorem test_meets_floatInstructionsWriteXd :
    Spells [(.fadd hart 31 2 3, rword 8 31 2 3 0 0 0), (.fsub hart 31 2 3, rword 8 31 2 3 0 1 0), (.fmul hart 31 2 3, rword 8
      31 2 3 0 2 0), (.fdiv hart 31 2 3, rword 8 31 2 3 0 3 0), (.fsqrt hart 31 2, rword 8 31 2 0 0 4 0), (.fmin hart 31 2 3,
      rword 8 31 2 3 0 5 0), (.fmax hart 31 2 3, rword 8 31 2 3 0 6 0), (.ffma hart 31 2 3, rword 9 31 2 3 0 0 0), (.feq hart
      31 2 3, rword 0xA 31 2 3 0 0 0), (.flt hart 31 2 3, rword 0xA 31 2 3 0 1 0), (.fle hart 31 2 3, rword 0xA 31 2 3 0 2 0),
      (.funord hart 31 2 3, rword 0xA 31 2 3 0 3 0), (.fcvt hart 31 2 .s64ToF32, rword 0xB 31 2 0 0 0 0), (.fcvt hart 31 2
      .f32ToS64, rword 0xB 31 2 0 0 1 0), (.fcvt hart 31 2 .f32ToBf16, rword 0xB 31 2 0 0 2 0), (.fcvt hart 31 2 .bf16ToF32,
      rword 0xB 31 2 0 0 3 0)] ∧ hart.core.toNat < vstate.cores.length :=
  ⟨spells_of (by decide +kernel), by decide⟩

/-- The hypotheses of ControlAndScalarMemoryInstructions hold together, clause by clause. -/
theorem test_meets_controlAndScalarMemoryInstructions :
    (∃ h : Hart, ∃ a : BitVec 5, ∃ s : State, ∃ c : Cond, ∃ off : BitVec 16, Issues h (.br h c a off) s) ∧
    (∃ h : Hart, ∃ s : State, Issues h (.halt h) s) ∧
    (∃ h : Hart, ∃ a : BitVec 5, ∃ s : State, ∃ imm : BitVec 8, Issues h (.semwait h imm a) s) ∧
    (∃ h : Hart, ∃ s : State, ∃ imm : BitVec 8, ∃ p : VProg, s.prog h = some p ∧ (s.chip.noc.crossAll (signalSent h imm
      s)).isSome = true ∧ Issues h (.semsignal h imm) s) ∧
    (∃ h : Hart, ∃ d : BitVec 5, ∃ a : BitVec 5, ∃ s : State, 
    let x := (s.thread h).get a
    ∃ w : BitVec 3, ∃ v : VProg, ∃ p : Pkg, s.prog h = some v ∧ x.toNat % 64 = 0 ∧ s.pkg v.desc.pkg = some p ∧ 
    let rs := winRanges h.core.toNat (s.win h w) x 1
    
    let img := winRead s h.core.toNat (s.win h w) x 1
    Issues h (.xpost h d a w) s ∧ s.meets rs = .clear ∧ postOk p v img = true ∧ p.state ≠ .stopping) ∧
    (∃ h : Hart, ∃ d : BitVec 5, ∃ a : BitVec 5, ∃ s : State, 
    let x := (s.thread h).get a
    ∃ w : BitVec 3, ∃ v : VProg, ∃ p : Pkg, s.prog h = some v ∧ x.toNat % 64 = 0 ∧ s.pkg v.desc.pkg = some p ∧ 
    let rs := winRanges h.core.toNat (s.win h w) x 1
    
    let img := winRead s h.core.toNat (s.win h w) x 1
    Issues h (.xpost h d a w) s ∧ s.meets rs = .clear ∧ postOk p v img = false) ∧
    (∃ h : Hart, ∃ d : BitVec 5, ∃ a : BitVec 5, ∃ s : State, 
    let x := (s.thread h).get a
    ∃ w : BitVec 3, ∃ size : BitVec 2, ∃ sx : Bool, ∃ disp : BitVec 10, 
    let o := scalarOff s h w x size disp
    
    let n := 2 ^ size.toNat
    Issues h (.ld h d a w size sx disp) s ∧ s.meets [(o, n)] = .clear) ∧
    (∃ h : Hart, ∃ d : BitVec 5, ∃ a : BitVec 5, ∃ s : State, 
    let x := (s.thread h).get a
    ∃ w : BitVec 3, ∃ size : BitVec 2, ∃ disp : BitVec 10, 
    let o := scalarOff s h w x size disp
    Issues h (.st h d a w size disp) s ∧ ∃ t, exec (.st h d a w size disp) s = .next t ∧ ∃ k, (k < o ∨ o + 2 ^ size.toNat ≤
      k)) ∧
    (∃ h : Hart, ∃ a : BitVec 5, ∃ s : State, Issues h (.apset h a) s) :=
  ⟨⟨hart, 2, vat (iword 0xC 4 2 0xFFFF), .gez, 0xFFFF, issues_of (by decide +kernel)⟩,
   ⟨hart, vat (rword 0xD 0 0 0 0 0 0), issues_of (by decide +kernel)⟩,
   ⟨hart, 2, vat (iword 0xE 0 2 255), 255, issues_of (by decide +kernel)⟩,
   ⟨hart, vat (iword 0xF 0 0 255), 255, prog, by decide +kernel, by decide +kernel, issues_of (by decide +kernel)⟩,
   ⟨hart, 31, 2, vpost xfer, 7, prog, vpkg, by decide +kernel, by decide +kernel, by decide +kernel, issues_of
      (by decide +kernel), by decide +kernel⟩,
   ⟨hart, 31, 2, vpost [], 7, prog, vpkg, by decide +kernel, by decide +kernel, by decide +kernel, issues_of
      (by decide +kernel), by decide +kernel⟩,
   ⟨hart, 31, 2, vat (iword 0x10 31 2 0x7F), 7, 3, true, 1, issues_of (by decide +kernel), by decide +kernel⟩,
   ⟨hart, 31, 2, vat (iword 0x11 31 2 0x5F), 7, 3, 1, issues_of (by decide +kernel), nextOf (exec (.st hart 31 2 7 3 1) (vat
      (iword 0x11 31 2 0x5F))), next_of (by decide +kernel), coreSramBase + 16, by decide +kernel⟩,
   ⟨hart, 2, vat (rword 0x2D 0 2 0 0 0xF 0), issues_of (by decide +kernel)⟩⟩

/-- The hypotheses of ElementwiseVectorResults hold, instruction by instruction. -/
theorem test_meets_elementwiseVectorResults :
    Spells [(.vadd hart .fp16 31 1 (.scalar 2) 3, rword 24 31 1 2 3 1 2), (.vsub hart .fp16 31 1 (.scalar 2) 3, rword 25 31 1
      2 3 1 2), (.vmul hart .fp16 31 1 (.scalar 2) 3, rword 26 31 1 2 3 1 2), (.vmin hart .fp16 31 1 (.scalar 2) 3, rword 28
      31 1 2 3 1 2), (.vmax hart .fp16 31 1 (.scalar 2) 3, rword 29 31 1 2 3 1 2), (.vdiv hart .fp16 31 1 (.scalar 2) 3, rword
      30 31 1 2 3 1 2), (.vfma hart .fp16 31 1 (.scalar 2) 3, rword 27 31 1 2 3 1 2), (.vsqrt hart .fp16 31 1 3, rword 0x1F 31
      1 0 3 0 2), (.vcmp hart .unord 7 1 2 3, rword 0x20 7 1 2 3 4 0), (.pand hart 7 5 6 3, rword 0x21 7 5 6 3 0 0), (.por
      hart 7 5 6 3, rword 0x21 7 5 6 3 1 0), (.pxor hart 7 5 6 3, rword 0x21 7 5 6 3 2 0), (.pandn hart 7 5 6 3, rword 0x21 7
      5 6 3 3 0), (.pnot hart 7 5 3, rword 0x21 7 5 0 3 4 0), (.vsel hart 31 1 2 3, rword 0x22 31 1 2 3 0 0), (.vintOp hart
      .mul 31 1 2 3, rword 0x24 31 1 2 3 0xC 0), (.viota hart 31 3, rword 0x25 31 0 0 3 0 0)] ∧ hart.core.toNat <
      vstate.cores.length :=
  ⟨spells_of (by decide +kernel), by decide⟩

/-- The hypotheses of ConversionFunctionAndLaneResults hold, instruction by instruction. -/
theorem test_meets_conversionFunctionAndLaneResults :
    Spells [(.vmxUnpack hart 30 1 .e2m1 3, rword 0x29 30 1 0 3 1 9), (.vfn hart 30 1 .rcp 3, rword 0x2A 30 1 0 3 7 0), (.vact
      hart 30 1 2 .relu 3, rword 0x2C 30 1 2 3 1 0), (.vdact hart 30 1 2 .relu 3, rword 0x2D 30 1 2 3 1 0), (.vperm hart 30 1
      2 3, rword 0x2E 30 1 2 3 0 0), (.vbcast hart 30 1 3, rword 0x2F 30 1 0 3 0 0), (.vrot hart 30 1 2 3, rword 0x2F 30 1 2 3
      1 0), (.vlane hart 30 1 2 3, rword 0x2F 30 1 2 3 2 0), (.vrand hart 30 1 2 3, rword 0x37 30 1 2 3 0 0), (.vcvt hart 30 1
      .fp32 .e5m2 0 3, rword 0x28 30 1 0 3 0 4), (.vmxPack hart 30 1 .e2m1 3, rword 0x29 30 1 0 3 0 9)] ∧ hart.core.toNat <
      vstate.cores.length :=
  ⟨spells_of (by decide +kernel), by decide⟩

/-- The hypotheses of RegisterWritesKeepTheRest hold together, clause by clause. -/
theorem test_meets_registerWritesKeepTheRest :
    (∃ h : Hart, ∃ d : BitVec 5, ∃ s : State, h.core.toNat < s.cores.length ∧ (s.prog h).isSome = true ∧ h.thread.toNat <
      (s.core h.core.toNat).threads.length ∧ (s.thread h).x.length = 32 ∧ ∃ i, i ≠ d) ∧
    (∃ h : Hart, ∃ s : State, h.core.toNat < s.cores.length ∧ (s.prog h).isSome = true ∧ h.thread.toNat < (s.core
      h.core.toNat).threads.length ∧ (s.thread h).x.length = 32 ∧ ∃ g : Hart, g ≠ h) ∧
    (∃ h : Hart, ∃ s : State, h.core.toNat < s.cores.length ∧ (s.prog h).isSome = true ∧ h.thread.toNat < (s.core
      h.core.toNat).threads.length ∧ (s.thread h).x.length = 32 ∧ ∃ i, i ≠ h.core.toNat) ∧
    (∃ c : Core, ∃ d : BitVec 5, ∃ pm : BitVec 3, ∃ new : List Word, d.toNat < c.v.length ∧ (c.pmask pm).length = 4096 ∧
      (c.vreg d).length = 4096 ∧ new.length = 4096 ∧ ∃ e : BitVec 5, e ≠ d) ∧
    (∃ c : Core, ∃ d : BitVec 3, ∃ pm : BitVec 3, ∃ new : List Bool, d.toNat < c.pm.length ∧ d ≠ 0 ∧ (c.pmask pm).length =
      4096 ∧ (c.pmask d).length = 4096 ∧ new.length = 4096 ∧ ∃ e : BitVec 3, e ≠ d) :=
  ⟨⟨hart, 31, vstate, by decide +kernel, by decide +kernel, by decide +kernel, by decide +kernel, 0, by decide +kernel⟩,
   ⟨hart, vstate, by decide +kernel, by decide +kernel, by decide +kernel, by decide +kernel, ⟨0, 1⟩, by decide +kernel⟩,
   ⟨hart, vstate, by decide +kernel, by decide +kernel, by decide +kernel, by decide +kernel, 1, by decide +kernel⟩,
   ⟨Core.reset, 31, 0, List.replicate 4096 1, by decide +kernel, by decide +kernel, by decide +kernel, by decide +kernel, 0,
      by decide +kernel⟩,
   ⟨Core.reset, 7, 0, List.replicate 4096 true, by decide +kernel, by decide +kernel, by decide +kernel, by decide +kernel,
      by decide +kernel, 0, by decide +kernel⟩⟩

/-- The hypotheses of ReductionsAndVectorMemory hold together, clause by clause. -/
theorem test_meets_reductionsAndVectorMemory :
    (∃ h : Hart, ∃ n : BitVec 3, ∃ s : State, h.core.toNat < s.cores.length ∧ h.thread.toNat < (s.core
      h.core.toNat).threads.length ∧ (s.thread h).x.length = 32 ∧ Issues h (.vrclr h n) s) ∧
    (∃ h : Hart, ∃ a : BitVec 5, ∃ n : BitVec 3, ∃ pm : BitVec 3, ∃ s : State, h.core.toNat < s.cores.length ∧ h.thread.toNat
      < (s.core h.core.toNat).threads.length ∧ (s.thread h).x.length = 32 ∧ Issues h (.vrsum h n a pm) s) ∧
    (∃ h : Hart, ∃ a : BitVec 5, ∃ b : BitVec 5, ∃ n : BitVec 3, ∃ pm : BitVec 3, ∃ s : State, h.core.toNat < s.cores.length ∧
      h.thread.toNat < (s.core h.core.toNat).threads.length ∧ (s.thread h).x.length = 32 ∧ Issues h (.vrdot h n a b pm) s) ∧
    (∃ h : Hart, ∃ d : BitVec 5, ∃ b : BitVec 5, ∃ n : BitVec 3, ∃ s : State, h.core.toNat < s.cores.length ∧ h.thread.toNat <
      (s.core h.core.toNat).threads.length ∧ (s.thread h).x.length = 32 ∧ Issues h (.vrfin h d n b) s) ∧
    (∃ h : Hart, ∃ d : BitVec 5, ∃ a : BitVec 5, ∃ pm : BitVec 3, ∃ s : State, h.core.toNat < s.cores.length ∧ h.thread.toNat
      < (s.core h.core.toNat).threads.length ∧ (s.thread h).x.length = 32 ∧
    let i := h.core.toNat
    
    let c := s.core i
    ∃ z : Word, ∃ zs : List Word, c.active pm (c.vreg a) = z :: zs ∧ Issues h (.vrmax h d a pm false) s) ∧
    (∃ h : Hart, ∃ d : BitVec 5, ∃ a : BitVec 5, ∃ pm : BitVec 3, ∃ s : State, h.core.toNat < s.cores.length ∧ h.thread.toNat
      < (s.core h.core.toNat).threads.length ∧ (s.thread h).x.length = 32 ∧
    let i := h.core.toNat
    
    let c := s.core i
    ∃ z : Word, ∃ zs : List Word, c.active pm (c.vreg a) = z :: zs ∧ Issues h (.vrmin h d a pm false) s) ∧
    (∃ h : Hart, ∃ d : BitVec 5, ∃ a : BitVec 5, ∃ b : BitVec 5, ∃ pm : BitVec 3, ∃ s : State, h.core.toNat < s.cores.length ∧
      h.thread.toNat < (s.core h.core.toNat).threads.length ∧ (s.thread h).x.length = 32 ∧
    let i := h.core.toNat
    
    let c := s.core i
    ∃ z : Word × Word, c.active pm ((c.vreg a).zip (c.vreg b)) = [z] ∧ (ofF32 z.1).isNan = false ∧ Issues h (.vrarg h d a b
      pm) s) ∧
    (∃ h : Hart, ∃ a : BitVec 5, ∃ n : BitVec 3, ∃ w : BitVec 3, ∃ s : State, h.core.toNat < s.cores.length ∧ h.thread.toNat <
      (s.core h.core.toNat).threads.length ∧ (s.thread h).x.length = 32 ∧
    let x := (s.thread h).get a
    x.toNat % 64 = 0 ∧ Issues h (.vrput h n a w) s) ∧
    (∃ h : Hart, ∃ a : BitVec 5, ∃ n : BitVec 3, ∃ w : BitVec 3, ∃ s : State, h.core.toNat < s.cores.length ∧ h.thread.toNat <
      (s.core h.core.toNat).threads.length ∧ (s.thread h).x.length = 32 ∧
    let i := h.core.toNat
    
    let x := (s.thread h).get a
    
    let rd := fun (k : Nat) => winRead s i (s.win h w) x k
    
    let clear := fun (k : Nat) => s.meets (winRanges i (s.win h w) x k) = .clear
    x.toNat % 64 = 0 ∧ ∃ sh : List La, shadowRead (s.anchorSlot h n) (rd 4) = some sh ∧ Issues h (.vrget h n a w) s ∧ clear 4)
      ∧
    (∃ h : Hart, ∃ d : BitVec 5, ∃ a : BitVec 5, ∃ w : BitVec 3, ∃ pm : BitVec 3, ∃ fmt : VFmt, ∃ s : State, h.core.toNat <
      s.cores.length ∧ h.thread.toNat < (s.core h.core.toNat).threads.length ∧ (s.thread h).x.length = 32 ∧
    let i := h.core.toNat
    
    let x := (s.thread h).get a
    
    let clear := fun (k : Nat) => s.meets (winRanges i (s.win h w) x k) = .clear
    x.toNat % 64 = 0 ∧ Issues h (.vld h fmt d a w pm) s ∧ clear 256) ∧
    (∃ h : Hart, ∃ d : BitVec 5, ∃ a : BitVec 5, ∃ w : BitVec 3, ∃ pm : BitVec 3, ∃ fmt : VFmt, ∃ s : State, h.core.toNat <
      s.cores.length ∧ h.thread.toNat < (s.core h.core.toNat).threads.length ∧ (s.thread h).x.length = 32 ∧
    let x := (s.thread h).get a
    x.toNat % 64 = 0 ∧ Issues h (.vst h fmt d a w pm) s) ∧
    (∃ h : Hart, ∃ d : BitVec 5, ∃ a : BitVec 5, ∃ b : BitVec 5, ∃ w : BitVec 3, ∃ pm : BitVec 3, ∃ s : State, h.core.toNat <
      s.cores.length ∧ h.thread.toNat < (s.core h.core.toNat).threads.length ∧ (s.thread h).x.length = 32 ∧
    let i := h.core.toNat
    
    let c := s.core i
    
    let x := (s.thread h).get a
    x.toNat % 4 = 0 ∧ 
    let at_ := fun (k : Word) => elemAddr i (s.win h w) x k
    
    let rs := (c.active pm (c.vreg b)).map fun k => (at_ k, 4)
    Issues h (.vgather h d a b w pm) s ∧ s.meets rs = .clear) ∧
    (∃ h : Hart, ∃ d : BitVec 5, ∃ a : BitVec 5, ∃ b : BitVec 5, ∃ w : BitVec 3, ∃ pm : BitVec 3, ∃ s : State, h.core.toNat <
      s.cores.length ∧ h.thread.toNat < (s.core h.core.toNat).threads.length ∧ (s.thread h).x.length = 32 ∧
    let i := h.core.toNat
    
    let c := s.core i
    
    let x := (s.thread h).get a
    x.toNat % 4 = 0 ∧ ∃ z : Word × Word, c.active pm ((c.vreg b).zip (c.vreg d)) = [z] ∧ Issues h (.vscatter h d a b w pm) s)
      ∧
    (∃ h : Hart, ∃ a : BitVec 5, ∃ w : BitVec 3, ∃ s : State, h.core.toNat < s.cores.length ∧ h.thread.toNat < (s.core
      h.core.toNat).threads.length ∧ (s.thread h).x.length = 32 ∧
    let i := h.core.toNat
    
    let x := (s.thread h).get a
    
    let rd := fun (k : Nat) => winRead s i (s.win h w) x k
    
    let clear := fun (k : Nat) => s.meets (winRanges i (s.win h w) x k) = .clear
    x.toNat % 64 = 0 ∧ 
    let blk := rd 1
    
    let u := fieldAt blk
    
    let lw := s.win h (BitVec.ofNat 3 (u 0x24 4 / 2 ^ 17))
    
    let lo := BitVec.ofNat 64 (64 * (u 0x24 4 % 2 ^ 17))
    
    let units := (u 0x14 4 + 15) / 16
    sampleParamsOk blk = true ∧ u 0x28 4 = 0 ∧ (∃ v, s.prog h = some v ∧ (v.wins.getD (u 0x24 4 / 2 ^ 17) (0, 0)).2 ≠ 0) ∧
      Issues h (.vsample h a w) s ∧ clear 1 ∧ s.meets (winRanges i lw lo units) = .clear) :=
  ⟨⟨hart, 7, vat (rword 0x30 7 0 0 0 0 0), by decide +kernel, by decide +kernel, by decide +kernel, issues_of
      (by decide +kernel)⟩,
   ⟨hart, 1, 7, 3, vat (rword 0x30 7 1 0 3 1 0), by decide +kernel, by decide +kernel, by decide +kernel, issues_of
      (by decide +kernel)⟩,
   ⟨hart, 1, 0, 7, 3, vat (rword 0x30 7 1 0 3 2 0), by decide +kernel, by decide +kernel, by decide +kernel, issues_of
      (by decide +kernel)⟩,
   ⟨hart, 5, 1, 7, vat (rword 0x31 5 7 1 0 0 0), by decide +kernel, by decide +kernel, by decide +kernel, issues_of
      (by decide +kernel)⟩,
   ⟨hart, 5, 0, 0, vat (rword 0x32 5 0 0 0 0 0), by decide +kernel, by decide +kernel, by decide +kernel, 0x3F800000, [],
      by decide +kernel, issues_of (by decide +kernel)⟩,
   ⟨hart, 5, 0, 0, vat (rword 0x32 5 0 0 0 1 0), by decide +kernel, by decide +kernel, by decide +kernel, 0x3F800000, [],
      by decide +kernel, issues_of (by decide +kernel)⟩,
   ⟨hart, 5, 0, 1, 0, vat (rword 0x32 5 0 1 0 2 0), by decide +kernel, by decide +kernel, by decide +kernel, (0x3F800000, 2),
      by decide +kernel, by decide +kernel, issues_of (by decide +kernel)⟩,
   ⟨hart, 2, 7, 7, vat (rword 0x33 7 2 7 0 0 0), by decide +kernel, by decide +kernel, by decide +kernel, by decide +kernel,
      issues_of (by decide +kernel)⟩,
   ⟨hart, 2, 0, 7, vgot, by decide +kernel, by decide +kernel, by decide +kernel, by decide +kernel, List.replicate 3 La.zero,
      by decide +kernel, issues_of (by decide +kernel), by decide +kernel⟩,
   ⟨hart, 5, 2, 7, 3, .fp16, vat (rword 0x34 5 2 7 3 0 2), by decide +kernel, by decide +kernel, by decide +kernel,
      by decide +kernel, issues_of (by decide +kernel), by decide +kernel⟩,
   ⟨hart, 5, 2, 7, 3, .fp16, vat (rword 0x34 5 2 7 3 1 2), by decide +kernel, by decide +kernel, by decide +kernel,
      by decide +kernel, issues_of (by decide +kernel)⟩,
   ⟨hart, 5, 2, 1, 7, 0, vat (rword 0x35 5 2 1 0 0 7), by decide +kernel, by decide +kernel, by decide +kernel,
      by decide +kernel, issues_of (by decide +kernel), by decide +kernel⟩,
   ⟨hart, 1, 2, 0, 7, 0, vat (rword 0x35 1 2 0 0 1 7), by decide +kernel, by decide +kernel, by decide +kernel,
      by decide +kernel, (0x3F800000, 2), by decide +kernel, issues_of (by decide +kernel)⟩,
   ⟨hart, 2, 7, vsamp, by decide +kernel, by decide +kernel, by decide +kernel, by decide +kernel, by decide +kernel,
      by decide +kernel, ⟨prog, by decide +kernel, by decide +kernel⟩, issues_of (by decide +kernel), by decide +kernel⟩⟩

/-- The hypotheses of LedgerLaneInstructionResults hold together. -/
theorem test_meets_ledgerLaneInstructionResults :
    ∃ s : State, s.off = false :=
  ⟨demo, by decide +kernel⟩

/-- The hypotheses of LedgerReductionAndMatrixResults hold together, clause by clause. -/
theorem test_meets_ledgerReductionAndMatrixResults :
    (∃ ld : BitVec 2, ∃ s : State, s.off = false ∧ ∃ w : Word, ∃ scope : Scope, scope ≠ .block ∧ (s.ledRegs ld).pass1 = false
      ∧ tget (s.ledRegs ld).comb (s.ledRegs ld).pc = some w ∧ ld.toNat < s.led.regs.length) ∧
    (∃ d : Nat, ∃ a : Nat, ∃ b : Nat, ∃ c : Nat, ∃ imm : Nat, ∃ tp : Bool, ∃ r : LedRegs, ∃ k, k ≠ d - 0x40) ∧
    (∃ d : Nat, ∃ a : Nat, ∃ b : Nat, ∃ c : Nat, ∃ imm : Nat, ∃ tp : Bool, ∃ r : LedRegs, ∃ k, k ≠ d) ∧
    (∃ d : Nat, ∃ a : Nat, ∃ b : Nat, ∃ c : Nat, ∃ imm : Nat, ∃ tp : Bool, ∃ r : LedRegs, ledWritable d = false) :=
  ⟨⟨3, { demo with led := { demo.led with regs := List.replicate 4 { LedRegs.blank 0 0 with comb := [(0, 5)] } } },
      by decide +kernel, 5, .step, by decide +kernel⟩,
   ⟨0x43, 0, 0, 0, 0, false, LedRegs.blank 0 0, 2, by decide +kernel⟩,
   ⟨5, 0, 0, 0, 0, false, LedRegs.blank 0 0, 6, by decide +kernel⟩,
   ⟨0x47, 0, 0, 0, 0, false, LedRegs.blank 0 0, by decide +kernel⟩⟩

/-- The hypotheses of LedgerProgramAndGroupCommandsComplete hold together, clause by clause. -/
theorem test_meets_ledgerProgramAndGroupCommandsComplete :
    (∃ c : Cmd, ∃ s : State, ∃ u : State, ∃ k : Nat, Runs 0x601 c s u ∧ cmdTail c 16 = true ∧ cmdZ c 9 7 = true ∧ addrOk (cmdU
      c 0 8) = true ∧ cmdU c 0 8 % 64 = 0 ∧ 0 < cmdU c 8 1 ∧ cmdU c 8 1 ≤ 64 ∧ u.inAccount (cmdA c) (cmdU c 0 8) (8 * cmdU c 8
      1) = true ∧ u.reads (cmdU c 0 8) (8 * cmdU c 8 1) = true ∧
    let prog := (chunks 8 (u.read (cmdU c 0 8) (8 * cmdU c 8 1))).map fun w => ldgDecode (leNat w)
    prog.all LdgIns.ok = true ∧ k < 16 ∧ tget u.led.slots k = none ∧ (∀ j < k, tget u.led.slots j ≠ none) ∧ progsHeld u (cmdA
      c) < (u.acct (cmdA c)).quota.pslots) ∧
    (∃ c : Cmd, ∃ s : State, ∃ u : State, ∃ p : ProgSlot, Runs 0x602 c s u ∧ cmdTail c 1 = true ∧ cmdU c 0 1 < 16 ∧ tget
      u.led.slots (cmdU c 0 1) = some p ∧ p.acct = cmdA c ∧ (∀ g ∈ u.led.groups, g.2.slot ≠ cmdU c 0 1 ∧ g.2.fallback ≠ cmdU c
      0 1)) ∧
    (∃ c : Cmd, ∃ s : State, ∃ u : State, Runs 0x603 c s u ∧ cmdTail c 16 = true ∧ cmdZ c 2 6 = true ∧ addrOk (cmdU c 8 8) =
      true ∧ cmdU c 0 2 < 4096 ∧ tget u.led.groups (cmdU c 0 2) = none ∧ u.inAccount (cmdA c) (cmdU c 8 8) 128 = true ∧
      u.reads (cmdU c 8 8) 128 = true ∧
    let g : Group := ⟨cmdA c, u.read (cmdU c 8 8) 128⟩
    groupEntryOk g.raw = true ∧ (u.led.groups.filter fun x => x.2.acct == cmdA c).length < (u.acct (cmdA c)).quota.groups ∧
      stepOpen u (cmdA c) g.model = false ∧ shardsOnBlocks u (cmdA c) (cmdU c 0 2) g = true ∧ groupProgs u (cmdA c) g = true)
      ∧
    (∃ c : Cmd, ∃ s : State, ∃ u : State, ∃ g : Group, Runs 0x604 c s u ∧ cmdTail c 16 = true ∧ cmdZ c 2 6 = true ∧ addrOk
      (cmdU c 8 8) = true ∧ cmdU c 0 2 < 4096 ∧ tget u.led.groups (cmdU c 0 2) = some g ∧ g.acct = cmdA c ∧ u.inAccount (cmdA
      c) (cmdU c 8 8) 128 = true ∧ u.writes (cmdU c 8 8) 128 = true) ∧
    (∃ c : Cmd, ∃ s : State, ∃ u : State, ∃ g : Group, Runs 0x60B c s u ∧ cmdTail c 2 = true ∧ cmdU c 0 2 < 4096 ∧ tget
      u.led.groups (cmdU c 0 2) = some g ∧ g.acct = cmdA c ∧ groupLoaded u (cmdA c) (cmdU c 0 2) = false) :=
  ⟨by refine ⟨cmd 0 [(0, 0x2000), (8, 1)], wr demo 0x2000 (leBytes 8 0x01000A0000000000), dropTaken (cmd 0 [(0, 0x2000), (8,
      1)]) (wr demo 0x2000 (leBytes 8 0x01000A0000000000)), 0, runs_of (by decide +kernel), ?_, ?_, ?_, ?_, ?_, ?_, ?_, ?_,
      ?_⟩ <;> decide +kernel,
   ⟨cmd 0 [(0, 15)], { demo with led := { demo.led with slots := [(15, ⟨0, []⟩)] } }, dropTaken (cmd 0 [(0, 15)])
      ({ demo with led := { demo.led with slots := [(15, ⟨0, []⟩)] } }), ⟨0, []⟩, runs_of (by decide +kernel),
      by decide +kernel⟩,
   ⟨cmd 0 [(0, 4095), (8, 0x2000)], wr (ledger .idle none) 0x2000 group.raw, dropTaken (cmd 0 [(0, 4095), (8, 0x2000)]) (wr
      (ledger .idle none) 0x2000 group.raw), runs_of (by decide +kernel), by decide +kernel, by decide +kernel,
      by decide +kernel, by decide +kernel, by decide +kernel, by decide +kernel, by decide +kernel, by decide +kernel⟩,
   ⟨cmd 0 [(8, 0x2000)], ledger .idle none, dropTaken (cmd 0 [(8, 0x2000)]) (ledger .idle none), group, runs_of
      (by decide +kernel), by decide +kernel⟩,
   ⟨cmd 0 [(0, 4095)], { demo with led := { demo.led with groups := [(4095, group)] } }, dropTaken (cmd 0 [(0, 4095)])
      ({ demo with led := { demo.led with groups := [(4095, group)] } }), group, runs_of (by decide +kernel),
      by decide +kernel⟩⟩

/-- The hypotheses of LedgerStepCommandsComplete hold together, clause by clause. -/
theorem test_meets_ledgerStepCommandsComplete :
    (∃ c : Cmd, ∃ s : State, ∃ u : State, ∃ k : Nat, ∃ m : Model, u.slotOf (cmdA c) (cmdU c 0 2) = some k ∧ u.model k = some m
      ∧ Runs 0x605 c s u ∧ cmdTail c 16 = true ∧ cmdZ c 3 5 = true ∧ cmdU c 2 1 = 2 ∧ m.led.ustate = .idle) ∧
    (∃ c : Cmd, ∃ s : State, ∃ u : State, ∃ k : Nat, ∃ m : Model, u.slotOf (cmdA c) (cmdU c 0 2) = some k ∧ u.model k = some m
      ∧ Runs 0x606 c s u ∧ cmdTail c 20 = true ∧ cmdU c 2 1 < 2 ∧ cmdZ c 3 1 = true ∧ 1 ≤ cmdU c 16 4 ∧ cmdU c 16 4 ≤ 600000 ∧
      m.led.ustate = .idle ∧ m.w.ready = true ∧ cmdU c 4 4 = m.led.nextStep.toNat ∧ u.movingNow k (· == .turn) = true) ∧
    (∃ c : Cmd, ∃ s : State, ∃ u : State, ∃ k : Nat, ∃ m : Model, u.slotOf (cmdA c) (cmdU c 0 2) = some k ∧ u.model k = some m
      ∧ Runs 0x606 c s u ∧ cmdTail c 20 = true ∧ cmdU c 2 1 < 2 ∧ cmdZ c 3 1 = true ∧ 1 ≤ cmdU c 16 4 ∧ cmdU c 16 4 ≤ 600000 ∧
      m.led.ustate = .idle ∧ m.w.ready = true ∧ cmdU c 4 4 = m.led.nextStep.toNat ∧ u.movingNow k (· == .turn) = false ∧
      m.w.staged = false ∧ cmdU c 8 8 = m.w.epoch) ∧
    (∃ c : Cmd, ∃ s : State, ∃ u : State, ∃ k : Nat, ∃ m : Model, u.slotOf (cmdA c) (cmdU c 0 2) = some k ∧ u.model k = some m
      ∧ ∃ st, m.led.step = some st ∧ m.led.ustate = .open ∧ st.step.toNat = cmdU c 4 4 ∧ Runs 0x607 c s u ∧ cmdTail c 8 = true
      ∧ cmdZ c 2 2 = true ∧ st.denied = false ∧
    let v := onStep k (fun st => { st with commit := true }) u
    stepWritten v m.map st = true) ∧
    (∃ c : Cmd, ∃ s : State, ∃ u : State, ∃ k : Nat, ∃ m : Model, u.slotOf (cmdA c) (cmdU c 0 2) = some k ∧ u.model k = some m
      ∧ ∃ st, m.led.step = some st ∧ m.led.ustate = .open ∧ st.step.toNat = cmdU c 4 4 ∧ Runs 0x607 c s u ∧ cmdTail c 8 = true
      ∧ cmdZ c 2 2 = true ∧ st.denied = false ∧
    let v := onStep k (fun st => { st with commit := true }) u
    stepWritten v m.map st = false) ∧
    (∃ c : Cmd, ∃ s : State, ∃ u : State, ∃ k : Nat, ∃ m : Model, u.slotOf (cmdA c) (cmdU c 0 2) = some k ∧ u.model k = some m
      ∧ ∃ st, m.led.step = some st ∧ m.led.ustate = .open ∧ st.step.toNat = cmdU c 4 4 ∧ Runs 0x608 c s u ∧ cmdTail c 8 = true
      ∧ cmdZ c 2 2 = true) ∧
    (∃ c : Cmd, ∃ s : State, ∃ u : State, ∃ k : Nat, ∃ m : Model, u.slotOf (cmdA c) (cmdU c 0 2) = some k ∧ u.model k = some m
      ∧ ∃ st, m.led.step = some st ∧ m.led.ustate = .open ∧ st.step.toNat = cmdU c 4 4 ∧ Runs 0x609 c s u ∧ cmdTail c 2 =
      true) ∧
    (∃ c : Cmd, ∃ s : State, ∃ u : State, ∃ k : Nat, ∃ m : Model, u.slotOf (cmdA c) (cmdU c 0 2) = some k ∧ u.model k = some m
      ∧ Runs 0x60A c s u ∧ cmdTail c 16 = true ∧ cmdZ c 2 2 = true ∧ addrOk (cmdU c 8 8) = true ∧ ∃ x,
      (m.led.mon.reverse.find? fun x => x.1.toNat == cmdU c 4 4) = some x ∧ x.2 ≠ [] ∧ u.inAccount (cmdA c) (cmdU c 8 8) (192
      * x.2.length) = true ∧ u.writes (cmdU c 8 8) (192 * x.2.length) = true) :=
  ⟨⟨cmd 0 [(0, 1), (2, 2), (8, 5)], ledger .idle none, dropTaken (cmd 0 [(0, 1), (2, 2), (8, 5)]) (ledger .idle none), 0,
      updating .idle none, by decide +kernel, by decide +kernel, runs_of (by decide +kernel), by decide +kernel⟩,
   ⟨cmd 0 [(0, 1), (2, 1), (16, 600000)], { ledger .idle none with moves := [⟨some turn, []⟩] }, dropTaken (cmd 0 [(0, 1), (2,
      1), (16, 600000)]) ({ ledger .idle none with moves := [⟨some turn, []⟩] }), 0, updating .idle none, by decide +kernel,
      by decide +kernel, runs_of (by decide +kernel), by decide +kernel⟩,
   ⟨cmd 0 [(0, 1), (8, 1), (16, 1)], ledger .idle none, dropTaken (cmd 0 [(0, 1), (8, 1), (16, 1)]) (ledger .idle none), 0,
      updating .idle none, by decide +kernel, by decide +kernel, runs_of (by decide +kernel), by decide +kernel⟩,
   ⟨cmd 0 [(0, 1)], ledger .open (some { opened with pass2 := [(0, 0)] }), dropTaken (cmd 0 [(0, 1)]) (ledger .open (some
      { opened with pass2 := [(0, 0)] })), 0, updating .open (some { opened with pass2 := [(0, 0)] }), by decide +kernel,
      by decide +kernel, { opened with pass2 := [(0, 0)] }, by decide +kernel, by decide +kernel, by decide +kernel, runs_of
      (by decide +kernel), by decide +kernel, by decide +kernel, by decide +kernel, by decide +kernel⟩,
   ⟨cmd 0 [(0, 1)], ledger .open (some opened), dropTaken (cmd 0 [(0, 1)]) (ledger .open (some opened)), 0, updating .open
      (some opened), by decide +kernel, by decide +kernel, opened, by decide +kernel, by decide +kernel, by decide +kernel,
      runs_of (by decide +kernel), by decide +kernel, by decide +kernel, by decide +kernel, by decide +kernel⟩,
   ⟨cmd 0 [(0, 1)], ledger .open (some opened), dropTaken (cmd 0 [(0, 1)]) (ledger .open (some opened)), 0, updating .open
      (some opened), by decide +kernel, by decide +kernel, opened, by decide +kernel, by decide +kernel, by decide +kernel,
      runs_of (by decide +kernel), by decide +kernel⟩,
   ⟨cmd 0 [(0, 1)], ledger .open (some opened), dropTaken (cmd 0 [(0, 1)]) (ledger .open (some opened)), 0, updating .open
      (some opened), by decide +kernel, by decide +kernel, opened, by decide +kernel, by decide +kernel, by decide +kernel,
      runs_of (by decide +kernel), by decide +kernel⟩,
   ⟨cmd 0 [(0, 1), (8, 0x2000)], { demo with models := [(0, { model with led := { model.led with mon := [(0, [[]])] } })] },
      dropTaken (cmd 0 [(0, 1), (8, 0x2000)])
      ({ demo with models := [(0, { model with led := { model.led with mon := [(0, [[]])] } })] }), 0,
      { model with led := { model.led with mon := [(0, [[]])] } }, by decide +kernel, by decide +kernel, runs_of
      (by decide +kernel), by decide +kernel, by decide +kernel, by decide +kernel, (0, [[]]), by decide +kernel⟩⟩

/-- The hypotheses of LedgerOperationsTakeEffect hold together, clause by clause. -/
theorem test_meets_ledgerOperationsTakeEffect :
    (∃ d : DescId, ∃ s : State, ∃ p : Pkg, ∃ x : Desc, ∃ k : Nat, ∃ m : Model, ∃ st : LedStep, s.desc d = some (p, x) ∧ x.kind
      = 6 ∧ x.state = .started ∧ p.running = true ∧ x.progress < (feedOf x.raw).segments ∧ s.slotOf p.id.acct.toNat p.model =
      some k ∧ s.model k = some m ∧ m.led.step = some st ∧ s.unitServes 4 (p.die x / 2) = true ∧ p.epoch.toNat ≠ st.gepoch) ∧
    (∃ d : DescId, ∃ s : State, ∃ p : Pkg, ∃ x : Desc, ∃ k : Nat, ∃ m : Model, ∃ st : LedStep, s.desc d = some (p, x) ∧ x.kind
      = 6 ∧ x.state = .started ∧ p.running = true ∧ x.progress < (feedOf x.raw).segments ∧ s.slotOf p.id.acct.toNat p.model =
      some k ∧ s.model k = some m ∧ m.led.step = some st ∧ s.unitServes 4 (p.die x / 2) = true ∧
    let f := feedOf x.raw
    
    let t := m.map.tensor f.tensor
    p.epoch.toNat = st.gepoch ∧ f.fmt ≠ feedFormat m t) ∧
    (∃ d : DescId, ∃ s : State, ∃ p : Pkg, ∃ x : Desc, ∃ k : Nat, ∃ m : Model, ∃ st : LedStep, s.desc d = some (p, x) ∧ x.kind
      = 6 ∧ x.state = .started ∧ p.running = true ∧ x.progress < (feedOf x.raw).segments ∧ s.slotOf p.id.acct.toNat p.model =
      some k ∧ s.model k = some m ∧ m.led.step = some st ∧ s.unitServes 4 (p.die x / 2) = true ∧
    let f := feedOf x.raw
    
    let t := m.map.tensor f.tensor
    ∃ g : Group, ∃ y : Shard × Nat, p.epoch.toNat = st.gepoch ∧ f.fmt = feedFormat m t ∧ t.frozen = false ∧ s.groupOf m.map t
      = some g ∧ g.frozen = false ∧ (m.map.shards.zipIdx.find? fun y => y.1.tensor == f.tensor && m.map.mine y.1 && y.1.die ==
      x.unit % 8 && y.1.role == 0 && decide (y.1.row0 ≤ f.row0) && decide (f.row0 + f.nrows ≤ y.1.row1 + 1) && decide
      (y.1.col0 ≤ f.col0) && decide (f.col0 + f.ncols ≤ y.1.col1 + 1)) = some y ∧ s.serves (1264 + p.die x) (hasFeed s (p.die
      x)) d = true ∧ s.meets (f.runs x.progress) = .clear) ∧
    (∃ slot : BitVec 6, ∃ ld : BitVec 2, ∃ layer : BitVec 16, ∃ s : State, ∃ m : Model, ∃ st : LedStep, s.model slot.toNat =
      some m ∧ m.led.step = some st ∧ s.meets ((layerKeys s slot.toNat m ld.toNat layer.toNat).flatMap fun x => s.keySpots x.1
      x.2) = .clear ∧ passOpen s m st ld.toNat layer.toNat = true ∧ (ld.toNat, layer.toNat) ∉ st.pass1 ∧ layerTwoPass s m.map
      layer.toNat = true) ∧
    (∃ slot : BitVec 6, ∃ ld : BitVec 2, ∃ layer : BitVec 16, ∃ s : State, ∃ m : Model, ∃ st : LedStep, s.model slot.toNat =
      some m ∧ m.led.step = some st ∧ s.meets ((layerKeys s slot.toNat m ld.toNat layer.toNat).flatMap fun x => s.keySpots x.1
      x.2) = .clear ∧ passOpen s m st ld.toNat layer.toNat = true ∧ (ld.toNat, layer.toNat) ∉ st.pass2 ∧ passTwoOpen s m st
      ld.toNat layer.toNat = true ∧ bufferRead s m = false ∧ st.commit = false ∧ s.runningMove slot.toNat = none) ∧
    (∃ slot : BitVec 6, ∃ layer : BitVec 16, ∃ others : List WideMsg, ∃ ws : List Wide, ∃ s : State, ∃ m : Model, ∃ st :
      LedStep, s.model slot.toNat = some m ∧ m.led.step = some st ∧ (others.filter fun w => (s.joinedBy m.map.job
      w.part).isSome).mapM (WideMsg.take s m) = some ws ∧ (∀ w ∈ ws, w.scope ≠ .block) ∧ (∀ p ∈ stepPairs s m.map, p.2 =
      layer.toNat → p ∈ st.pass1) ∧ layerTwoPass s m.map layer.toNat = true ∧ layer.toNat ∉ st.combLayers) ∧
    (∃ slot : BitVec 6, ∃ shard : Nat, ∃ part : BitVec 13, ∃ s : State, ∃ m : Model, ∃ x : Shard, s.model slot.toNat = some m
      ∧ m.map.shards[shard]? = some x ∧ (s.joinedBy m.map.job part).isNone) ∧
    (∃ slot : BitVec 6, ∃ shard : Nat, ∃ part : BitVec 13, ∃ b : Bytes, ∃ s : State, ∃ m : Model, ∃ st : LedStep, ∃ x : Shard,
      s.model slot.toNat = some m ∧ m.map.shards[shard]? = some x ∧ (s.joinedBy m.map.job part).isSome ∧ m.led.step = some st
      ∧ m.map.mine x = true ∧ x.role = 1 ∧ (m.map.tensor x.tensor).frozen = false ∧ shard ∉ st.mirrors ∧ bufferRead s m =
      false ∧ b.length = 2 * x.elems ∧ s.keysFail [(trainKey slot.toNat (!m.w.activeB) x.die (trainOff m.map shard), trainSize
      x)] = false) ∧
    (∃ slot : BitVec 6, ∃ s : State, ∃ m : Model, ∃ st : LedStep, s.model slot.toNat = some m ∧ m.led.step = some st ∧
      (st.denied = true ∨ (st.commit = true ∧ allReady s m.map st = true))) ∧
    (∃ slot : BitVec 6, ∃ s : State, ∃ m : Model, ∃ st : LedStep, s.model slot.toNat = some m ∧ m.led.step = some st ∧
      st.denied = false ∧ (st.commit = false ∨ allReady s m.map st = false)) :=
  ⟨⟨⟨⟨0, 1⟩, 0⟩,
      { ledger .open (some opened) with pkgs := [{ pkg .running [desc .started (feed 1)] with model := 1, epoch := 2 }] },
      { pkg .running [desc .started (feed 1)] with model := 1, epoch := 2 }, desc .started (feed 1), 0, updating .open (some
      opened), opened, by decide +kernel⟩,
   by refine ⟨⟨⟨0, 1⟩, 0⟩,
      { ledger .open (some opened) with pkgs := [{ pkg .running [desc .started (feed 0)] with model := 1, epoch := 1 }] },
      { pkg .running [desc .started (feed 0)] with model := 1, epoch := 1 }, desc .started (feed 0), 0, updating .open (some
      opened), opened, ?_, ?_, ?_, ?_, ?_, ?_, ?_, ?_, ?_, ?_⟩ <;> decide +kernel,
   by refine ⟨⟨⟨0, 1⟩, 0⟩,
      { ledger .open (some opened) with pkgs := [{ pkg .running [desc .started (feed 1)] with model := 1, epoch := 1 }] },
      { pkg .running [desc .started (feed 1)] with model := 1, epoch := 1 }, desc .started (feed 1), 0, updating .open (some
      opened), opened, ?_, ?_, ?_, ?_, ?_, ?_, ?_, ?_, ?_, group, (shard, 0), ?_⟩ <;> decide +kernel,
   ⟨0, 0, 0, ledger .open (some opened), updating .open (some opened), opened, by decide +kernel⟩,
   ⟨0, 0, 0, ledger .open (some { opened with pass1 := [(0, 0)], combLayers := [0], combStep := true }), updating .open (some
      { opened with pass1 := [(0, 0)], combLayers := [0], combStep := true }),
      { opened with pass1 := [(0, 0)], combLayers := [0], combStep := true }, by decide +kernel⟩,
   ⟨0, 0, [], [], ledger .open (some { opened with pass1 := [(0, 0)] }), updating .open (some
      { opened with pass1 := [(0, 0)] }), { opened with pass1 := [(0, 0)] }, by decide +kernel⟩,
   ⟨0, 0, 9,
      { demo with models := [(0, { updating .open (some opened) with map := { map with shards := [{ shard with role := 1 }] } })] },
      { updating .open (some opened) with map := { map with shards := [{ shard with role := 1 }] } },
      { shard with role := 1 }, by decide +kernel⟩,
   ⟨0, 0, 0, List.replicate 256 1, inTurn
      { updating .open (some opened) with map := { map with shards := [{ shard with role := 1 }] } },
      { updating .open (some opened) with map := { map with shards := [{ shard with role := 1 }] } }, opened,
      { shard with role := 1 }, by decide +kernel⟩,
   ⟨0, ledger .open (some { opened with commit := true, pass1 := [(0, 0)], pass2 := [(0, 0)] }), updating .open (some
      { opened with commit := true, pass1 := [(0, 0)], pass2 := [(0, 0)] }),
      { opened with commit := true, pass1 := [(0, 0)], pass2 := [(0, 0)] }, by decide +kernel, by decide +kernel, .inr
      (by decide +kernel)⟩,
   ⟨0, ledger .open (some opened), updating .open (some opened), opened, by decide +kernel, by decide +kernel,
      by decide +kernel, .inl rfl⟩⟩

/-- The hypotheses of SequenceCommandsComplete hold together, clause by clause. -/
theorem test_meets_sequenceCommandsComplete :
    (∃ c : Cmd, ∃ s : State, ∃ u : State, ∃ k : Nat, ∃ i : Nat, ∃ m : Model, Runs 0x501 c s u ∧ cmdTail c 8 = true ∧ addrOk
      (cmdU c 0 8) = true ∧ cmdU c 0 8 % 64 = 0 ∧ u.inAccount (cmdA c) (cmdU c 0 8) 128 = true ∧ u.reads (cmdU c 0 8) 128 =
      true ∧
    let b := u.read (cmdU c 0 8) 128
    
    let n := fieldAt b 4 4
    
    let prompt := (List.range n).map fun j => fieldAt (u.read (fieldAt b 0x10 8) (4 * n)) (4 * j) 4
    
    let q := seqOf b (cmdA c) k (freeHandle u (cmdA c)) (u.acct (cmdA c)).quota.classB u.mtime u.gens.order prompt
      (membership (cmdA c) (fieldAt b 0x3E 2) u)
    
    let v := (u.onGens fun g => { g with order := g.order + 1, seqs := tset g.seqs i q }).onAcct (cmdA c) fun x =>
      { x with nextSeq := q.handle + 1 }
    admitOk b = true ∧ u.acctResetting (cmdA c) = false ∧ cmdSlot c (fieldAt b 0 2) u = some k ∧ u.model k = some m ∧ n <
      m.gen.maxCtx ∧ n + fieldAt b 8 4 ≤ m.gen.maxCtx ∧ u.inAccount (cmdA c) (fieldAt b 0x10 8) (4 * n) = true ∧ u.reads
      (fieldAt b 0x10 8) (4 * n) = true ∧ (∀ t ∈ prompt ++ q.stops, t < m.map.vocab) ∧ m.admits = true ∧ (q.domain = 0 ∨
      q.joined.isSome = true) ∧ (u.gens.seqs.filter fun x => x.2.acct == cmdA c).length < (u.acct (cmdA c)).quota.seqs ∧ i <
      16384 ∧ tget u.gens.seqs i = none ∧ (∀ j < i, tget u.gens.seqs j ≠ none) ∧ fitsAlone u m q = true ∧ ((queueSeq i k v).2
      = true ∨ q.admitWait ≠ 0)) ∧
    (∃ c : Cmd, ∃ s : State, ∃ u : State, ∃ i : Nat, ∃ q : Seq, handleSeq c u = some (i, q) ∧ Runs 0x502 c s u ∧ cmdTail c 4 =
      true ∧ q.state.final = false ∧ q.chunk = none) ∧
    (∃ c : Cmd, ∃ s : State, ∃ u : State, ∃ i : Nat, ∃ q : Seq, handleSeq c u = some (i, q) ∧ Runs 0x502 c s u ∧ cmdTail c 4 =
      true ∧ q.state.final = false ∧ ∃ x, q.chunk = some x) ∧
    (∃ c : Cmd, ∃ s : State, ∃ u : State, ∃ i : Nat, ∃ q : Seq, handleSeq c u = some (i, q) ∧ Runs 0x503 c s u ∧ cmdTail c 16
      = true ∧ cmdZ c 4 4 = true ∧ addrOk (cmdU c 8 8) = true ∧ u.inAccount (cmdA c) (cmdU c 8 8) 128 = true ∧ u.writes (cmdU
      c 8 8) 128 = true ∧ ∃ m, u.model q.slot = some m) ∧
    (∃ c : Cmd, ∃ s : State, ∃ u : State, ∃ i : Nat, ∃ q : Seq, handleSeq c u = some (i, q) ∧ Runs 0x504 c s u ∧ cmdTail c 4 =
      true ∧ q.state = .decode ∧ inWave u i q.slot = false) ∧
    (∃ c : Cmd, ∃ s : State, ∃ u : State, ∃ i : Nat, ∃ q : Seq, handleSeq c u = some (i, q) ∧ Runs 0x504 c s u ∧ cmdTail c 4 =
      true ∧ q.state = .decode ∧ inWave u i q.slot = true) ∧
    (∃ c : Cmd, ∃ s : State, ∃ u : State, ∃ i : Nat, ∃ q : Seq, handleSeq c u = some (i, q) ∧ Runs 0x505 c s u ∧ cmdTail c 4 =
      true ∧ q.state = .paused ∧ q.parking = false) ∧
    (∃ c : Cmd, ∃ s : State, ∃ u : State, ∃ i : Nat, ∃ q : Seq, handleSeq c u = some (i, q) ∧ Runs 0x505 c s u ∧ cmdTail c 4 =
      true ∧ q.state = .parked) ∧
    (∃ c : Cmd, ∃ s : State, ∃ u : State, ∃ i : Nat, ∃ q : Seq, handleSeq c u = some (i, q) ∧ Runs 0x506 c s u ∧ cmdTail c 8 =
      true ∧ 1 ≤ cmdU c 4 4 ∧ cmdU c 4 4 ≤ 86400 ∧ q.state = .paused ∧ q.parking = false ∧ (u.acct q.acct).epochPin = false ∧
      q.pages.length ≤ vaultRoom u q) ∧
    (∃ c : Cmd, ∃ s : State, ∃ u : State, ∃ i : Nat, ∃ q : Seq, handleSeq c u = some (i, q) ∧ Runs 0x507 c s u ∧ cmdTail c 4 =
      true ∧ q.state.final = true) ∧
    (∃ c : Cmd, ∃ s : State, ∃ u : State, ∃ i : Nat, ∃ q : Seq, handleSeq c u = some (i, q) ∧ ∃ m, Runs 0x508 c s u ∧ u.model
      q.slot = some m ∧ 1 ≤ cmdU c 4 1 ∧ cmdU c 4 1 ≤ 4 ∧ cmdTail c (8 + 8 * cmdU c 4 1) = true ∧ cmdZ c 5 3 = true ∧ q.state
      = .decode ∧ q.spec ≠ 0 ∧ q.drafts.length + cmdU c 4 1 ≤ q.draftMax ∧
    let pairs := (List.range (cmdU c 4 1)).map fun i => (cmdU c (8 + 8 * i) 4, BitVec.ofNat 32 (cmdU c (12 + 8 * i) 4))
    (∀ p ∈ pairs, p.1 < m.map.vocab)) :=
  ⟨by refine ⟨cmd 0 [(0, 0x7000)], asks, dropTaken (cmd 0 [(0, 0x7000)]) asks, 0, 0, planned, runs_of (by decide +kernel), ?_,
      ?_, ?_, ?_, ?_, ?_, ?_, ?_, ?_, ?_, ?_, ?_, ?_, ?_, ?_, ?_, ?_, ?_, ?_, ?_, fits_of (by decide +kernel)
      (by decide +kernel) (frame_of (by decide +kernel)), .inr (by decide +kernel)⟩ <;> decide +kernel,
   ⟨cmd 0 [(0, 1)], serve (seq .decode), dropTaken (cmd 0 [(0, 1)]) (serve (seq .decode)), 0, (seq .decode),
      by decide +kernel, runs_of (by decide +kernel), by decide +kernel⟩,
   ⟨cmd 0 [(0, 1)], serve { seq .prefill with chunk := some (⟨0, 1⟩, 0, 1) }, dropTaken (cmd 0 [(0, 1)]) (serve
      { seq .prefill with chunk := some (⟨0, 1⟩, 0, 1) }), 0, { seq .prefill with chunk := some (⟨0, 1⟩, 0, 1) },
      by decide +kernel, runs_of (by decide +kernel), by decide +kernel, by decide +kernel, (⟨0, 1⟩, 0, 1),
      by decide +kernel⟩,
   ⟨cmd 0 [(0, 1), (8, 0x2000)], serve (seq .done), dropTaken (cmd 0 [(0, 1), (8, 0x2000)]) (serve (seq .done)), 0, (seq
      .done), by decide +kernel, runs_of (by decide +kernel), by decide +kernel, by decide +kernel, by decide +kernel,
      by decide +kernel, by decide +kernel, model, by decide +kernel⟩,
   ⟨cmd 0 [(0, 1)], serve (seq .decode), dropTaken (cmd 0 [(0, 1)]) (serve (seq .decode)), 0, (seq .decode),
      by decide +kernel, runs_of (by decide +kernel), by decide +kernel⟩,
   ⟨cmd 0 [(0, 1)],
      { withSeq .decode with models := [(0, { model with gen := { model.gen with running := some ⟨[(0, [])], 1⟩ } })] },
      dropTaken (cmd 0 [(0, 1)])
      ({ withSeq .decode with models := [(0, { model with gen := { model.gen with running := some ⟨[(0, [])], 1⟩ } })] }), 0,
      seq .decode, by decide +kernel, runs_of (by decide +kernel), by decide +kernel⟩,
   ⟨cmd 0 [(0, 1)], serve (seq .paused), dropTaken (cmd 0 [(0, 1)]) (serve (seq .paused)), 0, (seq .paused),
      by decide +kernel, runs_of (by decide +kernel), by decide +kernel⟩,
   ⟨cmd 0 [(0, 1)], serve (seq .parked), dropTaken (cmd 0 [(0, 1)]) (serve (seq .parked)), 0, (seq .parked),
      by decide +kernel, runs_of (by decide +kernel), by decide +kernel⟩,
   ⟨cmd 0 [(0, 1), (4, 86400)], serve (seq .paused), dropTaken (cmd 0 [(0, 1), (4, 86400)]) (serve (seq .paused)), 0, (seq
      .paused), by decide +kernel, runs_of (by decide +kernel), by decide +kernel⟩,
   ⟨cmd 0 [(0, 1)], serve (seq .expired), dropTaken (cmd 0 [(0, 1)]) (serve (seq .expired)), 0, (seq .expired),
      by decide +kernel, runs_of (by decide +kernel), by decide +kernel⟩,
   by refine ⟨cmd 0 [(0, 1), (4, 1), (8, 99)], serve { seq .decode with spec := 1, draftMax := 1 }, dropTaken (cmd 0 [(0, 1),
      (4, 1), (8, 99)]) (serve { seq .decode with spec := 1, draftMax := 1 }), 0,
      { seq .decode with spec := 1, draftMax := 1 }, ?_, model, runs_of (by decide +kernel), ?_, ?_, ?_, ?_, ?_, ?_, ?_, ?_,
      ?_⟩ <;> decide +kernel⟩

/-- The hypotheses of GenerationSettingsComplete hold together, clause by clause. -/
theorem test_meets_generationSettingsComplete :
    (∃ c : Cmd, ∃ s : State, ∃ u : State, ∃ k : Nat, ∃ m : Model, cmdSlot c (cmdU c 0 2) u = some k ∧ u.model k = some m ∧
      Runs 0x509 c s u ∧ cmdTail c 16 = true ∧ cmdZ c 3 5 = true ∧ genValueOk (cmdU c 2 1) (cmdU c 8 8) = true ∧ cmdU c 2 1 =
      5 ∧ m.gen.grid ≠ none) ∧
    (∃ c : Cmd, ∃ s : State, ∃ u : State, ∃ k : Nat, ∃ m : Model, cmdSlot c (cmdU c 0 2) u = some k ∧ u.model k = some m ∧
      Runs 0x509 c s u ∧ cmdTail c 16 = true ∧ cmdZ c 3 5 = true ∧ genValueOk (cmdU c 2 1) (cmdU c 8 8) = true ∧ cmdU c 2 1 =
      5 ∧ m.gen.grid = none) ∧
    (∃ c : Cmd, ∃ s : State, ∃ u : State, ∃ k : Nat, ∃ m : Model, cmdSlot c (cmdU c 0 2) u = some k ∧ u.model k = some m ∧
      Runs 0x509 c s u ∧ cmdTail c 16 = true ∧ cmdZ c 3 5 = true ∧ genValueOk (cmdU c 2 1) (cmdU c 8 8) = true ∧ cmdU c 2 1 =
      3 ∧ u.modelBusy k = false) ∧
    (∃ c : Cmd, ∃ s : State, ∃ u : State, ∃ k : Nat, ∃ m : Model, cmdSlot c (cmdU c 0 2) u = some k ∧ u.model k = some m ∧ ∃
      im, Runs 0x50A c s u ∧ cmdTail c 16 = true ∧ cmdZ c 4 4 = true ∧ 256 ≤ cmdU c 2 2 ∧ cmdU c 2 2 ≤ 8192 ∧ addrOk (cmdU c 8
      8) = true ∧ cmdU c 2 2 % m.kv.ptok = 0 ∧ u.prefilling k = false ∧ loadImage u c.fn (cmdU c 8 8) = .image im ∧
      im.pkg.phase = .generation ∧ im.pkg.model = cmdU c 0 2 ∧ (im.pkg.regions.headD ⟨0, 0, 0, 0, 0, 0⟩).role = 4 ∧
      templateFail u im = none ∧ codeFails u im.pkg = false) ∧
    (∃ c : Cmd, ∃ s : State, ∃ u : State, ∃ k : Nat, ∃ m : Model, cmdSlot c (cmdU c 0 2) u = some k ∧ u.model k = some m ∧ 
    let a := cmdU c 8 8
    
    let n := 64 + 64 * planU (u.read a 64) 2 2
    Runs 0x50B c s u ∧ cmdTail c 16 = true ∧ cmdZ c 2 6 = true ∧ addrOk a = true ∧ a % 64 = 0 ∧ u.inAccount (cmdA c) a 64 =
      true ∧ u.reads a 64 = true ∧ u.inAccount (cmdA c) a n = true ∧ u.reads a n = true ∧ planHeaderOk m (u.read a n) = true ∧
      (∀ l < m.map.layers, planLayerOk m (u.read a n) l = true) ∧ u.modelBusy k = false ∧ u.prefilling k = false) :=
  ⟨⟨cmd 0 [(0, 1), (2, 5), (8, 600000)],
      { demo with models := [(0, { model with gen := { model.gen with grid := some (0, 100) } })] }, dropTaken (cmd 0 [(0, 1),
      (2, 5), (8, 600000)]) ({ demo with models := [(0, { model with gen := { model.gen with grid := some (0, 100) } })] }),
      0, { model with gen := { model.gen with grid := some (0, 100) } }, by decide +kernel, by decide +kernel, runs_of
      (by decide +kernel), by decide +kernel⟩,
   ⟨cmd 0 [(0, 1), (2, 5), (8, 600000)], loaded, dropTaken (cmd 0 [(0, 1), (2, 5), (8, 600000)]) loaded, 0, model,
      by decide +kernel, by decide +kernel, runs_of (by decide +kernel), by decide +kernel⟩,
   ⟨cmd 0 [(0, 1), (2, 3), (8, 2)], loaded, dropTaken (cmd 0 [(0, 1), (2, 3), (8, 2)]) loaded, 0, model, by decide +kernel,
      by decide +kernel, runs_of (by decide +kernel), by decide +kernel⟩,
   ⟨cmd 0 [(0, 1), (2, 8192), (8, 0x4000)], template, dropTaken (cmd 0 [(0, 1), (2, 8192), (8, 0x4000)]) template, 0, model,
      by decide +kernel, by decide +kernel, templateImage.get (by decide +kernel), runs_of (by decide +kernel),
      by decide +kernel⟩,
   ⟨cmd 0 [(0, 1), (8, 0x6000)], planState, dropTaken (cmd 0 [(0, 1), (8, 0x6000)]) planState, 0, planned, by decide +kernel,
      by decide +kernel, runs_of (by decide +kernel), by decide +kernel⟩⟩

/-- The hypotheses of GenerationRuns hold together, clause by clause. -/
theorem test_meets_generationRuns :
    (∃ seq : BitVec 14, ∃ s : State, ∃ q : Seq, ∃ q1 : Seq, ∃ q2 : Seq, ∃ m : Model, ∃ p : Pkg, s.seq seq.toNat = some q ∧
      s.model q.slot = some m ∧ m.gen.template = some p ∧ q.launchable = true ∧ (∀ x ∈ s.seqsOf q.slot, x.2.launchable = true
      → q.order ≤ x.2.order) ∧ (let y : Pkg := { p with id := ⟨BitVec.ofNat 10 q.acct, 0⟩, order := s.pkgOrder }
     poolsOk s y = true ∧ (∀ r ∈ p.regions, noConflict s y r = true) ∧ y.phaseOpen s = true ∧ y.modelOpen s = true ∧
      y.waitsRoll s = false) ∧ s.acctServes q.acct = true ∧ s.chip.power.pstate = 0 ∧ m.w.ready = true ∧ m.w.gencopy = true ∧
      p.dies.any s.chip.power.override.halts = false ∧
    let v1 := bindChunk seq.toNat m (s.acct q.acct).epochPin s
    v1.seq seq.toNat = some q1 ∧ 
    let v2 := drawPages seq.toNat (((q1.chunkEnd m).1 - 1) / m.kv.ptok + 1) v1
    v2.seq seq.toNat = some q2 ∧ (launchPkg v2 q2 m p).2.length ≤ (p.regions.headD ⟨0, 0, 0, 0, 0, 0⟩).len) ∧
    (∃ seq : BitVec 14, ∃ s : State, ∃ q : Seq, ∃ m : Model, ∃ p : Pkg, ∃ id : PkgId, ∃ pos : Nat, ∃ len : Nat, s.seq
      seq.toNat = some q ∧ q.chunk = some (id, pos, len) ∧ s.model q.slot = some m ∧ s.pkg id = some p ∧ p.state = .done ∧
      p.status = .ok ∧ q.cancelBy = none ∧ q.expired = false ∧ s.acctServes q.acct = true ∧ pos + len < q.pos) ∧
    (∃ seq : BitVec 14, ∃ s : State, ∃ q : Seq, ∃ m : Model, ∃ p : Pkg, ∃ id : PkgId, ∃ pos : Nat, ∃ len : Nat, s.seq
      seq.toNat = some q ∧ q.chunk = some (id, pos, len) ∧ s.model q.slot = some m ∧ s.pkg id = some p ∧ p.state = .done ∧
      p.status = .ok ∧ q.cancelBy = none ∧ q.expired = false ∧ s.acctServes q.acct = true ∧
    let v := s.onSeq seq.toNat fun q => { q with chunk := none, chunkPos := pos + len }
    q.pos ≤ pos + len ∧ s.hostWaits m.gen.ring = false ∧ fieldAt p.sampled 0x3C 4 = 0 ∧ 
    let r := commitStep seq.toNat pos [⟨fieldAt p.sampled 0x30 4, BitVec.ofNat 32 (fieldAt p.sampled 0x34 4), false⟩]
        p.epoch.toNat true v
    r.2.2 = none) ∧
    (∃ seq : BitVec 14, ∃ s : State, ∃ q : Seq, ∃ m : Model, ∃ p : Pkg, ∃ id : PkgId, ∃ pos : Nat, ∃ len : Nat, s.seq
      seq.toNat = some q ∧ q.chunk = some (id, pos, len) ∧ s.model q.slot = some m ∧ s.pkg id = some p ∧ p.state = .done ∧
      p.status = .ok ∧ q.cancelBy = none ∧ q.expired = false ∧ s.acctServes q.acct = true ∧
    let v := s.onSeq seq.toNat fun q => { q with chunk := none, chunkPos := pos + len }
    q.pos ≤ pos + len ∧ s.hostWaits m.gen.ring = false ∧ fieldAt p.sampled 0x3C 4 = 0 ∧ 
    let r := commitStep seq.toNat pos [⟨fieldAt p.sampled 0x30 4, BitVec.ofNat 32 (fieldAt p.sampled 0x34 4), false⟩]
        p.epoch.toNat true v
    ∃ c : Nat, r.2.2 = some c) ∧
    (∃ slot : BitVec 6, ∃ s : State, ∃ m : Model, s.model slot.toNat = some m ∧ ∃ g, m.gen.grid = some g ∧ (∃ x ∈ s.seqsOf
      slot.toNat, x.2.loads = true) ∧ m.gen.running = none ∧ s.acctServes m.map.acct = true ∧ s.hostWaits m.gen.ring = false)
      ∧
    (∃ slot : BitVec 6, ∃ s : State, ∃ m : Model, s.model slot.toNat = some m ∧ ∃ w, ∃ rest, m.gen.waves = w :: rest ∧
      m.gen.running = none ∧ m.w.waveShut = false ∧ m.w.gencopy = true ∧ groupServes s m = true ∧ s.acctServes m.map.acct =
      true ∧ s.chip.power.pstate = 0) ∧
    (∃ slot : BitVec 6, ∃ s : State, ∃ m : Model, s.model slot.toNat = some m ∧ ∃ w, m.gen.running = some w ∧ groupRuns s m =
      true ∧ s.acctServes m.map.acct = true ∧ s.hostWaits m.gen.ring = false) :=
  ⟨by refine ⟨0, asked (seq .prefill), seq .prefill, (binding.seq 0).get binding_some, (drawn.seq 0).get drawn_some, planned,
      launch, ?_, ?_, ?_, ?_, ?_, ?_, ?_, ?_, ?_, ?_, ?_, (Option.some_get binding_some).symm, (Option.some_get
      drawn_some).symm, ?_⟩ <;> decide +kernel,
   ⟨0, { serve { seq .prefill with pos := 600, chunk := some (⟨0, 1⟩, 0, 512) } with pkgs := [pkg .done []] },
      { seq .prefill with pos := 600, chunk := some (⟨0, 1⟩, 0, 512) }, model, pkg .done [], ⟨0, 1⟩, 0, 512,
      by decide +kernel⟩,
   by refine ⟨0, { serve { seq .prefill with chunk := some (⟨0, 1⟩, 0, 1) } with pkgs := [pkg .done []] },
      { seq .prefill with chunk := some (⟨0, 1⟩, 0, 1) }, model, pkg .done [], ⟨0, 1⟩, 0, 1, ?_, ?_, ?_, ?_, ?_, ?_, ?_, ?_,
      ?_, ?_, ?_, ?_, ?_⟩ <;> decide +kernel,
   by refine ⟨0, { serve { seq .prefill with maxTokens := 1, chunk := some (⟨0, 1⟩, 0, 1) } with pkgs := [pkg .done []] },
      { seq .prefill with maxTokens := 1, chunk := some (⟨0, 1⟩, 0, 1) }, model, pkg .done [], ⟨0, 1⟩, 0, 1, ?_, ?_, ?_, ?_,
      ?_, ?_, ?_, ?_, ?_, ?_, ?_, ?_, 1, ?_⟩ <;> decide +kernel,
   ⟨0, { asked (seq .decode) with models := [(0, { planned with gen := { planned.gen with grid := some (0, 100) } })] },
      { planned with gen := { planned.gen with grid := some (0, 100) } }, by decide +kernel, (0, 100), by decide +kernel⟩,
   ⟨0, { asked (seq .decode) with models := [(0, { planned with gen := { planned.gen with waves := [⟨[(0, [])], 0⟩] } })] },
      { planned with gen := { planned.gen with waves := [⟨[(0, [])], 0⟩] } }, by decide +kernel, ⟨[(0, [])], 0⟩, [],
      by decide +kernel⟩,
   ⟨0,
      { asked (seq .decode) with models := [(0, { planned with gen := { planned.gen with running := some ⟨[(0, [])], 1⟩ } })] },
      { planned with gen := { planned.gen with running := some ⟨[(0, [])], 1⟩ } }, by decide +kernel, ⟨[(0, [])], 1⟩,
      by decide +kernel⟩⟩

/-- The hypotheses of SequencesAreGrantedExpireAndEnd hold together, clause by clause. -/
theorem test_meets_sequencesAreGrantedExpireAndEnd :
    (∃ slot : BitVec 6, ∃ s : State, ∃ i : Nat, ∃ h : Nat, ∃ q : Seq, ∃ m : Model, headRequest s slot.toNat = some (i, q) ∧
      s.model slot.toNat = some m ∧ s.seq i = some q ∧ s.acctServes q.acct = true ∧ placeSeq s slot.toNat m q = some h ∧
      s.model q.slot = some m) ∧
    (∃ seq : BitVec 14, ∃ s : State, ∃ v : State, ∃ q : Seq, ∃ m : Model, ∃ x : Import, ∃ rest : List Import, ∃ l : FrameLoc,
      s.seq seq.toNat = some q ∧ q.imports = x :: rest ∧ s.model q.slot = some m ∧ s.acctServes q.acct = true ∧
    let r := match x.kept with
      | some b => (true, b, s)
      | none => readPage q.acct x.loc s
    r.1 = true ∧ r.2.1 ≠ [] ∧ drawFrame q.slot false q.home r.2.2 = some (l, v)) ∧
    (∃ seq : BitVec 14, ∃ s : State, ∃ q : Seq, s.seq seq.toNat = some q ∧ q.state = .admitted) ∧
    (∃ seq : BitVec 14, ∃ s : State, ∃ q : Seq, s.seq seq.toNat = some q ∧ q.state.final = false ∧ q.lifetime ≠ 0 ∧ q.chunk =
      none) ∧
    (∃ seq : BitVec 14, ∃ s : State, ∃ q : Seq, s.seq seq.toNat = some q ∧ q.state.final = false ∧ q.lifetime ≠ 0 ∧ ∃ x,
      q.chunk = some x) ∧
    (∃ seq : BitVec 14, ∃ s : State, ∃ q : Seq, s.seq seq.toNat = some q ∧ q.state = .paused ∧ q.parking = false ∧
      s.acctServes q.acct = true ∧ q.parkTtl ≠ 0 ∧ (s.acct q.acct).epochPin = false ∧ q.pages.length ≤ vaultRoom s q) ∧
    (∃ seq : BitVec 14, ∃ s : State, ∃ q : Seq, s.seq seq.toNat = some q ∧ q.state = .paused ∧ q.parking = false ∧
      s.acctServes q.acct = true ∧ (q.parkTtl = 0 ∨ (s.acct q.acct).epochPin = true ∨ vaultRoom s q < q.pages.length)) ∧
    (∃ seq : BitVec 14, ∃ s : State, ∃ q : Seq, s.seq seq.toNat = some q ∧ q.state = .parked) ∧
    (∃ seq : BitVec 14, ∃ s : State, ∃ q : Seq, s.seq seq.toNat = some q ∧ q.state.final = true) ∧
    (∃ seq : BitVec 14, ∃ s : State, ∃ q : Seq, s.seq seq.toNat = some q ∧ q.state = .paused ∧ q.parking = true ∧ s.acctServes
      q.acct = true ∧ parkTurn s (s.physDie q.acct (q.home / 4)) = some seq.toNat ∧ ∃ v, movePages seq.toNat q true (q.home /
      4) s = .done v) ∧
    (∃ seq : BitVec 14, ∃ s : State, ∃ q : Seq, s.seq seq.toNat = some q ∧ q.state = .prefill ∧ q.restoring = true ∧
      s.acctServes q.acct = true ∧ ∃ v, movePages seq.toNat q false q.home s = .done v) ∧
    (∃ i : Nat, ∃ s : State, ∃ q : Seq, s.seq i = some q ∧ ∃ j, j ≠ i) :=
  ⟨⟨0, asked (seq .admitted), 0, 0, seq .admitted, planned, by decide +kernel, by decide +kernel, by decide +kernel,
      by decide +kernel, place_first, by decide +kernel⟩,
   ⟨0, importing.1, (impFrame.get imp_some).2, importing.2, vaulted, imp, [], (impFrame.get imp_some).1, by decide +kernel,
      by decide +kernel, by decide +kernel, by decide +kernel, by decide +kernel, by decide +kernel, imp_draw⟩,
   ⟨0, serve (seq .admitted), (seq .admitted), by decide +kernel⟩,
   ⟨0, serve { seq .parked with lifetime := 1 }, { seq .parked with lifetime := 1 }, by decide +kernel⟩,
   ⟨0, serve { seq .prefill with lifetime := 1, chunk := some (⟨0, 1⟩, 0, 1) },
      { seq .prefill with lifetime := 1, chunk := some (⟨0, 1⟩, 0, 1) }, by decide +kernel, by decide +kernel,
      by decide +kernel, (⟨0, 1⟩, 0, 1), by decide +kernel⟩,
   ⟨0, { serve { seq .paused with parkTtl := 1, pages := [page] } with models := [(0, vaulted)] },
      { seq .paused with parkTtl := 1, pages := [page] }, by decide +kernel⟩,
   ⟨0, withSeq .paused, seq .paused, by decide +kernel, by decide +kernel, by decide +kernel, by decide +kernel, .inl
      (by decide +kernel)⟩,
   ⟨0, serve (seq .parked), (seq .parked), by decide +kernel⟩,
   ⟨0, serve (seq .expired), (seq .expired), by decide +kernel⟩,
   ⟨0, parkState, parker, by decide +kernel, by decide +kernel, by decide +kernel, by decide +kernel, by decide +kernel,
      parkMoved.2, parked_moves⟩,
   ⟨0, restoreState, restorer, by decide +kernel, by decide +kernel, by decide +kernel, by decide +kernel, restoreMoved.2,
      restored_moves⟩,
   ⟨0, withSeq .decode, seq .decode, by decide +kernel, 1, by decide +kernel⟩⟩

/-- The hypotheses of WtCreateCompletes hold together. -/
theorem test_meets_wtCreateCompletes :
    ∃ c : Cmd, ∃ s : State, ∃ u : State, ∃ slot : Nat, ∃ part : Nat, Runs 0x401 c s u ∧ cmdTail c 8 = true ∧ addrOk (cmdU c 0
      8) = true ∧ cmdU c 0 8 % 64 = 0 ∧ u.inAccount (cmdA c) (cmdU c 0 8) 128 = true ∧ u.reads (cmdU c 0 8) 128 = true ∧
    let f := mapU (u.read (cmdU c 0 8) 128)
    
    let traw := chunks 64 (u.read (f 0x10 8) (64 * f 4 4))
    
    let sraw := chunks 32 (u.read (f 0x18 8) (32 * f 8 4))
    
    let graw := if f 0xC 4 = 0 then [] else chunks 32 (u.read (f 0x20 8) (32 * f 0xC 4))
    
    let praw := chunks 4 (u.read (f 0x28 8) (4 * f 0x38 2))
    
    let araw := chunks 32 (u.read (f 0x30 8) 256)
    
    let ts := traw.map tensorOf
    
    let ss := sraw.map trainShardOf
    
    let gs := graw.map genShardOf
    
    let dies := u.acctDies (cmdA c)
    blockOk (u.read (cmdU c 0 8) 128) = true ∧ (u.inAccount (cmdA c) (f 0x10 8) (64 * f 4 4) = true ∧ u.reads (f 0x10 8) (64 *
      f 4 4) = true) ∧ (u.inAccount (cmdA c) (f 0x18 8) (32 * f 8 4) = true ∧ u.reads (f 0x18 8) (32 * f 8 4) = true) ∧ (f 0xC
      4 = 0 ∨ u.inAccount (cmdA c) (f 0x20 8) (32 * f 0xC 4) = true ∧ u.reads (f 0x20 8) (32 * f 0xC 4) = true) ∧ (u.inAccount
      (cmdA c) (f 0x28 8) (4 * f 0x38 2) = true ∧ u.reads (f 0x28 8) (4 * f 0x38 2) = true) ∧ (u.inAccount (cmdA c) (f 0x30 8)
      256 = true ∧ u.reads (f 0x30 8) 256 = true) ∧ firstRow [firstBadAt 0 traw (tensorOk (f 2 2)), firstBadAt ts.length sraw
      (trainShardOk ts praw.length), firstBadAt (ts.length + ss.length) graw (genShardOk ts praw.length)] = none ∧ (∀ p ∈
      praw, leNat p < 8192) ∧ araw.all arenaOk = true ∧ firstRow (mapRows ts ss gs) = none ∧ (gs = [] ∨ f 0x40 4 ≠ 0) ∧
      (praw.map leNat).findIdx? (fun p => some p == u.chip.fabric.addr) = some part ∧ u.slotOf (cmdA c) (f 0 2) = none ∧
      ((araw.map arenaOf).zipIdx.all fun a => arenaHeld u (cmdA c) a.2 a.1) = true ∧ (∀ x ∈ ss ++ gs, x.part = part → x.die <
      dies.length) ∧ (u.models.filter fun m => m.2.map.acct == cmdA c).length < (u.acct (cmdA c)).quota.models ∧ mapsHeld u +
      mapBytes ts.length ss.length gs.length ≤ 2 ^ 28 ∧ (∀ x ∈ gs, x.part = part → engineTaken u (dies.getD x.die 8) x.se =
      false) ∧ slot < 64 ∧ u.model slot = none ∧ (∀ j < slot, u.model j ≠ none) :=
  ⟨cmd 0 [(0, 0x2000)], created, dropTaken (cmd 0 [(0, 0x2000)]) created, 0, 0, runs_of (by decide +kernel),
      by decide +kernel, by decide +kernel, by decide +kernel, by decide +kernel, by decide +kernel, by decide +kernel⟩

/-- The hypotheses of WeightCommandsComplete hold together, clause by clause. -/
theorem test_meets_weightCommandsComplete :
    (∃ c : Cmd, ∃ s : State, ∃ u : State, ∃ k : Nat, ∃ m : Model, u.slotOf (cmdA c) (cmdU c 0 2) = some k ∧ u.model k = some m
      ∧
    let p := u.partOf m.map.acct
    Runs 0x402 c s u ∧ cmdTail c 40 = true ∧ cmdZ c 2 2 = true ∧ limitOk 1 (cmdU c 4 4) = true ∧ 
    let imgs := (List.range 4).map fun i => cmdU c (8 + 8 * i) 8
    imgs.all addrOk = true ∧ (∀ t ∈ m.map.tensors, imgs.getD t.img 0 ≠ 0) ∧ m.w.ready = false ∧ u.movingNow k MoveKind.lays =
      false ∧ groupsHeld u m.map = true ∧ frozenAgrees u m.map = true ∧ imagesHeld m.map imgs = true ∧ arenasFit u m.map =
      true ∧ moveRefused u m = false ∧ movesFull u p = false) ∧
    (∃ c : Cmd, ∃ s : State, ∃ u : State, ∃ k : Nat, ∃ m : Model, u.slotOf (cmdA c) (cmdU c 0 2) = some k ∧ u.model k = some m
      ∧
    let p := u.partOf m.map.acct
    Runs 0x403 c s u ∧ cmdTail c 16 = true ∧ cmdZ c 2 2 = true ∧ limitOk 250 (cmdU c 4 4) = true ∧ m.w.ready = true ∧
      m.led.ustate = .idle ∧ m.w.staged = true ∧ cmdU c 8 8 = m.w.epoch ∧ moveRefused u m = false ∧ movesFull u p = false) ∧
    (∃ c : Cmd, ∃ s : State, ∃ u : State, ∃ k : Nat, ∃ m : Model, u.slotOf (cmdA c) (cmdU c 0 2) = some k ∧ u.model k = some m
      ∧
    let p := u.partOf m.map.acct
    Runs 0x404 c s u ∧ cmdTail c 8 = true ∧ cmdZ c 2 2 = true ∧ limitOk 1 (cmdU c 4 4) = true ∧ moveRefused u m = false ∧
      movesFull u p = false) ∧
    (∃ c : Cmd, ∃ s : State, ∃ u : State, ∃ k : Nat, ∃ m : Model, u.slotOf (cmdA c) (cmdU c 0 2) = some k ∧ u.model k = some m
      ∧
    let p := u.partOf m.map.acct
    Runs 0x405 c s u ∧ cmdTail c 16 = true ∧ cmdZ c 2 2 = true ∧ limitOk 250 (cmdU c 4 4) = true ∧ addrOk (cmdU c 8 8) = true
      ∧ m.w.ready = true ∧ m.map.gshards ≠ [] ∧ m.w.staged = false ∧ moveRefused u m = false ∧ movesFull u p = false ∧ cmdU c
      8 8 = 0) ∧
    (∃ c : Cmd, ∃ s : State, ∃ u : State, ∃ k : Nat, ∃ m : Model, u.slotOf (cmdA c) (cmdU c 0 2) = some k ∧ u.model k = some m
      ∧
    let p := u.partOf m.map.acct
    Runs 0x405 c s u ∧ cmdTail c 16 = true ∧ cmdZ c 2 2 = true ∧ limitOk 250 (cmdU c 4 4) = true ∧ addrOk (cmdU c 8 8) = true
      ∧ m.w.ready = true ∧ m.map.gshards ≠ [] ∧ m.w.staged = false ∧ moveRefused u m = false ∧ movesFull u p = false ∧ cmdU c
      8 8 ≠ 0 ∧
    let n := 32 * m.map.gshards.length
    
    let rows := chunks 32 (u.read (cmdU c 8 8) n)
    
    let gs := rows.map genShardOf
    u.inAccount (cmdA c) (cmdU c 8 8) n = true ∧ u.reads (cmdU c 8 8) n = true ∧ rows.all (genShardOk m.map.tensors
      m.map.parts.length) = true ∧ firstRow (genRows m.map.tensors gs 0) = none ∧ (∀ x ∈ gs, x.part = m.map.part → x.die <
      (u.acctDies m.map.acct).length ∧ engineTaken { u with models := terase u.models k } ((u.acctDies m.map.acct).getD x.die
      8) x.se = false) ∧ u.modelBusy k = false ∧ genBound u m.map (fun _ => true) = false ∧ arenasFit u
      { m.map with gshards := gs } = true) ∧
    (∃ c : Cmd, ∃ s : State, ∃ u : State, ∃ k : Nat, ∃ m : Model, u.slotOf (cmdA c) (cmdU c 0 2) = some k ∧ u.model k = some m
      ∧ Runs 0x406 c s u ∧ cmdTail c 16 = true ∧ cmdZ c 2 6 = true ∧ addrOk (cmdU c 8 8) = true ∧ u.inAccount (cmdA c) (cmdU c
      8 8) (128 + 16 * (layoutEntries m.map).length) = true ∧ u.writes (cmdU c 8 8) (128 + 16 * (layoutEntries m.map).length)
      = true) ∧
    (∃ c : Cmd, ∃ s : State, ∃ u : State, ∃ k : Nat, ∃ m : Model, u.slotOf (cmdA c) (cmdU c 0 2) = some k ∧ u.model k = some m
      ∧ ∃ t, Runs 0x407 c s u ∧ cmdTail c 8 = true ∧ anchorReserved (cmdU c 2 2) = false ∧ anchorAuto (cmdU c 2 2) = false ∧
      m.map.tensors[cmdU c 4 4]? = some t ∧ t.nogen = false ∧ (u.movingNow k fun k => k == .turn || k == .rebuild) = false) ∧
    (∃ c : Cmd, ∃ s : State, ∃ u : State, ∃ k : Nat, ∃ m : Model, u.slotOf (cmdA c) (cmdU c 0 2) = some k ∧ u.model k = some m
      ∧ Runs 0x408 c s u ∧ cmdTail c 2 = true ∧ u.movingNow k MoveKind.lays = false) ∧
    (∃ c : Cmd, ∃ s : State, ∃ u : State, ∃ k : Nat, ∃ m : Model, u.slotOf (cmdA c) (cmdU c 0 2) = some k ∧ u.model k = some m
      ∧ Runs 0x409 c s u ∧ cmdTail c 2 = true ∧ u.runningMove k = none ∧ u.moveWaits k = false ∧ m.led.ustate ≠ .open ∧
      m.led.ustate ≠ .held ∧ m.ft.later = [] ∧ boundTo u m.map = false ∧ u.modelBusy k = false) :=
  ⟨⟨cmd 0 [(0, 1), (4, 600000), (8, 281474976710656), (16, 281474976710656), (24, 281474976710656), (32, 281474976710656)],
      inTurn unloaded, dropTaken (cmd 0 [(0, 1), (4, 600000), (8, 281474976710656), (16, 281474976710656), (24,
      281474976710656), (32, 281474976710656)]) (inTurn unloaded), 0, unloaded, by decide +kernel, by decide +kernel, runs_of
      (by decide +kernel), by decide +kernel, by decide +kernel, by decide +kernel, by decide +kernel⟩,
   ⟨cmd 0 [(0, 1), (4, 250), (8, 1)], inTurn staged, dropTaken (cmd 0 [(0, 1), (4, 250), (8, 1)]) (inTurn staged), 0, staged,
      by decide +kernel, by decide +kernel, runs_of (by decide +kernel), by decide +kernel⟩,
   ⟨cmd 0 [(0, 1), (4, 1)], inTurn model, dropTaken (cmd 0 [(0, 1), (4, 1)]) (inTurn model), 0, model, by decide +kernel,
      by decide +kernel, runs_of (by decide +kernel), by decide +kernel⟩,
   ⟨cmd 0 [(0, 1), (4, 600000)], inTurn model, dropTaken (cmd 0 [(0, 1), (4, 600000)]) (inTurn model), 0, model,
      by decide +kernel, by decide +kernel, runs_of (by decide +kernel), by decide +kernel⟩,
   by refine ⟨cmd 0 [(0, 1), (4, 250), (8, 0x2300)], wr (inTurn model) 0x2300 shardRow, dropTaken (cmd 0 [(0, 1), (4, 250),
      (8, 0x2300)]) (wr (inTurn model) 0x2300 shardRow), 0, model, ?_, ?_, runs_of (by decide +kernel), ?_, ?_, ?_, ?_, ?_,
      ?_, ?_, ?_, ?_, ?_, ?_⟩ <;> decide +kernel,
   ⟨cmd 0 [(0, 1), (8, 8192)], inTurn model, dropTaken (cmd 0 [(0, 1), (8, 8192)]) (inTurn model), 0, model,
      by decide +kernel, by decide +kernel, runs_of (by decide +kernel), by decide +kernel⟩,
   ⟨cmd 0 [(0, 1), (2, 16)], inTurn model, dropTaken (cmd 0 [(0, 1), (2, 16)]) (inTurn model), 0, model, by decide +kernel,
      by decide +kernel, tensor, runs_of (by decide +kernel), by decide +kernel⟩,
   ⟨cmd 0 [(0, 1)], inTurn model, dropTaken (cmd 0 [(0, 1)]) (inTurn model), 0, model, by decide +kernel, by decide +kernel,
      runs_of (by decide +kernel), by decide +kernel⟩,
   ⟨cmd 0 [(0, 1)], inTurn model, dropTaken (cmd 0 [(0, 1)]) (inTurn model), 0, model, by decide +kernel, by decide +kernel,
      runs_of (by decide +kernel), by decide +kernel, by decide +kernel, by decide +kernel, by decide +kernel,
      by decide +kernel, rfl, by decide +kernel⟩⟩

/-- The hypotheses of MovingOperationsStartAndMove hold together, clause by clause. -/
theorem test_meets_movingOperationsStartAndMove :
    (∃ part : BitVec 3, ∃ s : State, ∃ o : MoveOp, ∃ rest : List MoveOp, ∃ m : Model, (s.movesOf part.toNat).running = none ∧
      (s.movesOf part.toNat).queue = o :: rest ∧ s.chip.fw.activation = none ∧ s.chip.power.pstate = 0 ∧ part.toNat ∉
      s.chip.power.partReset ∧ s.model o.slot = some m ∧
    let v := s.onMoves part.toNat fun x => { x with queue := rest }
    startRefused v m o = false ∧ o.kind = .load ∧ failedBefore v m o = none ∧ part.toNat < s.moves.length) ∧
    (∃ slot : BitVec 6, ∃ s : State, ∃ p : Nat, ∃ o : MoveOp, ∃ m : Model, 
    let k := slot.toNat
    
    let i := firstMine m.map o.shard
    
    let o' := { o with shard := i }
    runningAt s k .moving (fun k => k == .load) = some (p, o, m) ∧ ∃ x, m.map.shards[i]? = some x ∧ o.imgs ≠ [] ∧ 
    let t := m.map.tensor x.tensor
    
    let a := o.seg * segElems t
    
    let runs := elemRuns x.cols a (min x.elems (a + segElems t))
    
    let place := fun (r c : Nat) => o.imgs.getD t.img 0 + t.srcOff + (x.row0 + r) * t.srcStride + (x.col0 + c) * t.srcBytes
    loadFenced s k m i x o' = false ∧ (∀ u ∈ runs, s.hostWaits (place u.1 u.2.1) = false ∧ s.hostDead (place u.1 u.2.1) =
      false) ∧ (∀ u ∈ runs, ∀ b ∈ chunks t.srcBytes (s.read (place u.1 u.2.1) (u.2.2 * t.srcBytes)), ∀ split, loadElem
      t.srcBf16 split b ≠ none) ∧ (nextLoadSeg m o').shard < m.map.shards.length) ∧
    (∃ slot : BitVec 6, ∃ s : State, ∃ p : Nat, ∃ o : MoveOp, ∃ m : Model, 
    let k := slot.toNat
    
    let i := firstMine m.map o.shard
    runningAt s k .moving (fun k => k == .load) = some (p, o, m) ∧ ∃ x, m.map.shards[i]? = some x ∧ o.imgs ≠ [] ∧ o.tries < 3)
      ∧
    (∃ slot : BitVec 6, ∃ s : State, ∃ p : Nat, ∃ o : MoveOp, ∃ m : Model, ∃ g : MoveSeg, building s slot.toNat = some (p, o,
      m) ∧ (opSegments m o)[o.redo.headD o.seg]? = some g ∧ landRoom m o g = true ∧ s.keysFail (landKeys slot.toNat m o g) =
      false ∧
    let keys := g.keys slot.toNat m (opBuffer m o)
    ∃ n, g.here = true ∧ s.meets (keys.flatMap fun x => s.keySpots x.1 x.2) = .clear ∧ s.chip.noc.crossAll (moveMsgs
      (s.dieOfPart m.map g.src.die) (s.dieOfPart m.map g.dst.die)) = some n) ∧
    (∃ slot : BitVec 6, ∃ s : State, ∃ p : Nat, ∃ o : MoveOp, ∃ m : Model, ∃ g : MoveSeg, building s slot.toNat = some (p, o,
      m) ∧ (opSegments m o)[o.redo.headD o.seg]? = some g ∧ landRoom m o g = true ∧ s.keysFail (landKeys slot.toNat m o g) =
      false ∧
    let width := 2 * (g.c1 + 1 - g.c0)
    ∃ b : Bytes, g.here = false ∧ b.length = width * (g.r1 + 1 - g.r0)) ∧
    (∃ slot : BitVec 6, ∃ s : State, ∃ p : Nat, ∃ l : Nat, ∃ o : MoveOp, ∃ m : Model, building s slot.toNat = some (p, o, m) ∧
      (o.landed.find? fun l => !o.minted.contains l) = some l ∧ (o.kind = .load ∨ m.map.swap = true ∨ o.drained ≠ none) ∧
      (o.seg ≠ (opSegments m o).length ∨ o.minted.length + 1 < o.landed.length) ∧ (o.redo.any fun i => ((opSegments m
      o)[i]?).any fun g => g.layer m == l) = false ∧
    let xs := (opShards m o).filter fun x => (m.map.tensor x.1.tensor).layer == l
    
    let copy := xs.map fun x => (genKey slot.toNat o.toSlot1 x.1.die (genOff (opMap m o) x.2), genSize (m.map.tensor
      x.1.tensor) x.1)
    
    let land := xs.map fun x => (landKey slot.toNat x.1.die (landOff m o x.2 x.1.die), 2 * x.1.elems)
    s.meets (land.flatMap fun x => s.keySpots x.1 x.2) = .clear ∧ s.keysFail copy = false) :=
  ⟨⟨7, { inTurn unloaded with moves := List.replicate 7 ⟨none, []⟩ ++ [⟨none, [move .load]⟩] }, move .load, [], unloaded,
      by decide +kernel, by decide +kernel, by decide +kernel, by decide +kernel, by decide +kernel, by decide +kernel,
      by decide +kernel⟩,
   ⟨0, (moving halves { move .load with stage := .moving, imgs := [281474976710656] }).onLink 0 fun l =>
      { l with up := true }, 0, { move .load with stage := .moving, imgs := [281474976710656] }, halves, by decide +kernel,
      { shard with row1 := 1 }, by decide +kernel, by decide +kernel, by decide +kernel⟩,
   ⟨0, moving halves { move .load with stage := .moving, imgs := [281474976710656] }, 0,
      { move .load with stage := .moving, imgs := [281474976710656] }, halves, by decide +kernel, { shard with row1 := 1 },
      by decide +kernel⟩,
   ⟨0, moving staged { turn with stage := .moving }, 0, { turn with stage := .moving }, staged, ⟨shard, 0, shard, 0, true, 0,
      3, 0, 31⟩, by decide +kernel, segment_here, by decide +kernel, by decide +kernel, ((moving staged
      { turn with stage := .moving }).chip.noc.crossAll (moveMsgs ((moving staged { turn with stage := .moving }).dieOfPart
      staged.map 0) ((moving staged { turn with stage := .moving }).dieOfPart staged.map 0))).get (by decide +kernel),
      by decide +kernel, by decide +kernel, (Option.some_get (by decide +kernel)).symm⟩,
   ⟨0, moving away { turn with stage := .moving }, 0, { turn with stage := .moving }, away, ⟨{ shard with part := 1 }, 0,
      shard, 0, false, 0, 3, 0, 31⟩, by decide +kernel, segment_away, by decide +kernel, by decide +kernel, List.replicate 256
      0, by decide +kernel⟩,
   ⟨0, moving staged { turn with stage := .moving, landed := [0, 1] }, 0, 0, { turn with stage := .moving, landed := [0, 1] },
      staged, by decide +kernel, by decide +kernel, .inr (.inl (by decide +kernel)), .inr (by decide +kernel),
      by decide +kernel, by decide +kernel⟩⟩

/-- The hypotheses of MovingOperationsEnd hold together, clause by clause. -/
theorem test_meets_movingOperationsEnd :
    (∃ slot : BitVec 6, ∃ s : State, ∃ p : Nat, ∃ o : MoveOp, ∃ m : Model, s.runningMove slot.toNat = some (p, o) ∧ s.model
      slot.toNat = some m ∧
    let free := o.again = true ∨ awaitsDecision s m o = false
    o.kind = .load ∧ free) ∧
    (∃ slot : BitVec 6, ∃ s : State, ∃ p : Nat, ∃ o : MoveOp, ∃ m : Model, s.runningMove slot.toNat = some (p, o) ∧ s.model
      slot.toNat = some m ∧
    let free := o.again = true ∨ awaitsDecision s m o = false
    o.kind = .load ∧ ¬ free) ∧
    (∃ slot : BitVec 6, ∃ s : State, ∃ p : Nat, ∃ o : MoveOp, ∃ m : Model, s.runningMove slot.toNat = some (p, o) ∧ s.model
      slot.toNat = some m ∧
    let free := o.again = true ∨ awaitsDecision s m o = false
    (o.kind = .turn ∨ o.kind = .rebuild) ∧ free) ∧
    (∃ slot : BitVec 6, ∃ s : State, ∃ p : Nat, ∃ o : MoveOp, ∃ m : Model, s.runningMove slot.toNat = some (p, o) ∧ s.model
      slot.toNat = some m ∧
    let free := o.again = true ∨ awaitsDecision s m o = false
    (o.kind = .turn ∨ o.kind = .rebuild) ∧ ¬ free) ∧
    (∃ slot : BitVec 6, ∃ s : State, ∃ p : Nat, ∃ o : MoveOp, ∃ m : Model, s.runningMove slot.toNat = some (p, o) ∧ s.model
      slot.toNat = some m ∧
    let free := o.again = true ∨ awaitsDecision s m o = false
    o.kind = .learn ∧ free) ∧
    (∃ slot : BitVec 6, ∃ s : State, ∃ p : Nat, ∃ o : MoveOp, ∃ m : Model, s.runningMove slot.toNat = some (p, o) ∧ s.model
      slot.toNat = some m ∧
    let free := o.again = true ∨ awaitsDecision s m o = false
    o.kind = .learn ∧ ¬ free) ∧
    (∃ slot : BitVec 6, ∃ s : State, ∃ p : Nat, ∃ o : MoveOp, ∃ m : Model, s.runningMove slot.toNat = some (p, o) ∧ s.model
      slot.toNat = some m ∧ (o.kind = .turn ∨ o.kind = .rebuild) ∧ o.t0 ≠ none ∧ o.drained = none ∧ m.gen.running = none) ∧
    (∃ slot : BitVec 6, ∃ s : State, ∃ m : Model, s.model slot.toNat = some m ∧ m.w.oldEpoch ≠ 0 ∧ oldHolders s slot.toNat m =
      0) ∧
    (∃ r : Report, ∃ s : State, ∃ j, s.joinedBy r.job r.part = some j ∧ j.part = 0) ∧
    (∃ r : Report, ∃ s : State, s.joinedBy r.job r.part = none) ∧
    (∃ d : Decision, ∃ s : State, ∃ j, s.joinedBy d.job d.src = some j ∧ j.part ≠ 0 ∧ 
    let u := sendPart none j 0 15 (barrierName d.kind d.inst) (wakeUp s)
    (barrierOf u d.job d.kind d.inst).decision = none) ∧
    (∃ d : Decision, ∃ s : State, ∃ j, s.joinedBy d.job d.src = some j ∧ j.part ≠ 0 ∧ 
    let u := sendPart none j 0 15 (barrierName d.kind d.inst) (wakeUp s)
    (barrierOf u d.job d.kind d.inst).decision ≠ none) ∧
    (∃ d : Decision, ∃ s : State, s.joinedBy d.job d.src = none) ∧
    (∃ slot : Nat, ∃ m : Model, ∃ s : State, s.model slot = some m) :=
  ⟨⟨0, moving unloaded { move .load with stage := .moving }, 0, { move .load with stage := .moving }, unloaded,
      by decide +kernel, by decide +kernel, by decide +kernel, .inr (by decide +kernel)⟩,
   ⟨0, moving away (move .load), 0, (move .load), away, by decide +kernel, by decide +kernel, by decide +kernel⟩,
   ⟨0, moving staged turn, 0, turn, staged, by decide +kernel, by decide +kernel, .inl rfl, .inr (by decide +kernel)⟩,
   ⟨0, moving away turn, 0, turn, away, by decide +kernel, by decide +kernel, .inl rfl, by decide +kernel⟩,
   ⟨0, moving staged (move .learn), 0, (move .learn), staged, by decide +kernel, by decide +kernel, by decide +kernel, .inr
      (by decide +kernel)⟩,
   ⟨0, moving away (move .learn), 0, (move .learn), away, by decide +kernel, by decide +kernel, by decide +kernel⟩,
   ⟨0, moving staged { turn with t0 := some 0 }, 0, { turn with t0 := some 0 }, staged, by decide +kernel, by decide +kernel,
      .inl rfl, by decide +kernel⟩,
   ⟨0, { demo with models := [(0, { model with w := { model.w with oldEpoch := 1, epoch := 2 } })] },
      { model with w := { model.w with oldEpoch := 1, epoch := 2 } }, by decide +kernel⟩,
   ⟨⟨7, .flip, 1, 0, true, 0, 0, false, false, false, false⟩, inTurn model, job, by decide +kernel⟩,
   ⟨⟨7, .flip, 1, 1, true, 0, 0, false, false, false, false⟩, inTurn model, by decide +kernel⟩,
   ⟨⟨0, 7, .flip, 1, true, 0, 0xFFFF, 0xFFFFFFFF, false, false, false⟩, (inTurn away).onFabric fun f =>
      { f with slots := [(0, { job with part := 1 })] }, { job with part := 1 }, by decide +kernel, by decide +kernel,
      by decide +kernel⟩,
   ⟨⟨0, 7, .flip, 1, true, 0, 0xFFFF, 0xFFFFFFFF, false, false, false⟩, (inTurn away).onFabric fun f =>
      { f with slots := [(0, { job with part := 1 })], barriers := [{ Barrier.new 7 .flip 1 with decision := some ⟨0, 7, .flip, 1, true, 0, 0xFFFF, 0xFFFFFFFF, false, false, false⟩ }] },
      { job with part := 1 }, by decide +kernel, by decide +kernel, by decide +kernel⟩,
   ⟨{ (⟨0, 7, .flip, 1, true, 0, 0xFFFF, 0xFFFFFFFF, false, false, false⟩ : Decision) with src := 1 }, inTurn away,
      by decide +kernel⟩,
   ⟨0, staged, moving staged turn, by decide +kernel⟩⟩

/-- The hypotheses of RiskEstimate hold together, clause by clause. -/
theorem test_meets_riskEstimate :
    (∃ s : State, s.off = false) ∧
    (∃ c : Cmd, ∃ s : State, ∃ u : State, ∃ x0 : Nat, ∃ x1 : Nat, ∃ x2 : Nat, ∃ x3 : Nat, ∃ x4 : Nat, ∃ risk : Nat, Runs 0x701
      c s u ∧ cmdTail c 0 = true ∧ u.ft.risk = [x0, x1, x2, x3, x4, risk]) ∧
    (∃ s : State, ∃ a : Nat, s.chip.fabric.addr = some a ∧ s.chip.power.inputPresent = true ∧ s.ft.risk.getD 5 0 ≤ 255) :=
  ⟨⟨demo, by decide +kernel⟩,
   ⟨cmd 0 [], demo, dropTaken (cmd 0 []) demo, 0, 0, 0, 0, 0, 0, runs_of (by decide +kernel), by decide +kernel⟩,
   ⟨demo.onFabric fun f => { f with addr := some 8191 }, 8191, by decide +kernel⟩⟩

/-- The hypotheses of SecuringCommandsComplete hold together, clause by clause. -/
theorem test_meets_securingCommandsComplete :
    (∃ c : Cmd, ∃ s : State, ∃ u : State, Runs 0x702 c s u ∧ cmdTail c 8 = true ∧ cmdZ c 1 7 = true) ∧
    (∃ c : Cmd, ∃ s : State, ∃ u : State, ∃ k : Nat, ∃ m : Model, u.slotOf (cmdA c) (cmdU c 0 2) = some k ∧ u.model k = some m
      ∧ Runs 0x703 c s u ∧ cmdTail c 16 = true ∧ cmdZ c 2 6 = true ∧ addrOk (cmdU c 8 8) = true ∧ copying u k m = false ∧ cmdU
      c 8 8 = 0) ∧
    (∃ c : Cmd, ∃ s : State, ∃ u : State, ∃ k : Nat, ∃ m : Model, u.slotOf (cmdA c) (cmdU c 0 2) = some k ∧ u.model k = some m
      ∧ Runs 0x703 c s u ∧ cmdTail c 16 = true ∧ cmdZ c 2 6 = true ∧ addrOk (cmdU c 8 8) = true ∧ copying u k m = false ∧ cmdU
      c 8 8 ≠ 0 ∧
    let b := u.read (cmdU c 8 8) 64
    
    let size := ckptBytes u k (m.planned (some b))
    u.inAccount (cmdA c) (cmdU c 8 8) 64 = true ∧ u.reads (cmdU c 8 8) 64 = true ∧ planOk m.map.num b = true ∧ (fieldAt b 2 1
      = 1 → m.map.parts.length ≤ 256 ∧ fieldAt b 6 2 ≠ m.map.part ∧ fieldAt b 6 2 < m.map.parts.length) ∧ (planHas b 3 = true
      → fieldAt b 0x18 8 ≠ 0 ∧ fieldAt b 0x10 8 + fieldAt b 0x18 8 ≤ 2 ^ 52 ∧ inHostSpace (cmdA c) (fieldAt b 0x10 8) (fieldAt
      b 0x18 8) = true) ∧ (planHas b 2 = true → (fieldAt b 5 1 + 1) * size ≤ strongboxBytes u (cmdA c))) ∧
    (∃ c : Cmd, ∃ s : State, ∃ u : State, ∃ k : Nat, ∃ m : Model, u.slotOf (cmdA c) (cmdU c 0 2) = some k ∧ u.model k = some m
      ∧ Runs 0x704 c s u ∧ cmdTail c 20 = true ∧ cmdZ c 5 3 = true ∧ addrOk (cmdU c 8 8) = true ∧ cmdU c 8 8 % 64 = 0 ∧ cmdU c
      4 1 < (u.acctDies (cmdA c)).length ∧ cmdU c 2 2 < m.map.parts.length ∧ cmdU c 2 2 ≠ m.map.part ∧
    let mine := fun (d : Deposit) => d.acct == cmdA c && d.model == m.map.num && d.src == cmdU c 2 2 && d.die == cmdU c 4 1
    
    let len := cmdU c 16 4 * 2 ^ 24
    (∀ d ∈ u.ft.deposits, mine d = true → d.busy = false) ∧ len = 0) ∧
    (∃ c : Cmd, ∃ s : State, ∃ u : State, ∃ k : Nat, ∃ m : Model, u.slotOf (cmdA c) (cmdU c 0 2) = some k ∧ u.model k = some m
      ∧ Runs 0x704 c s u ∧ cmdTail c 20 = true ∧ cmdZ c 5 3 = true ∧ addrOk (cmdU c 8 8) = true ∧ cmdU c 8 8 % 64 = 0 ∧ cmdU c
      4 1 < (u.acctDies (cmdA c)).length ∧ cmdU c 2 2 < m.map.parts.length ∧ cmdU c 2 2 ≠ m.map.part ∧
    let mine := fun (d : Deposit) => d.acct == cmdA c && d.model == m.map.num && d.src == cmdU c 2 2 && d.die == cmdU c 4 1
    
    let len := cmdU c 16 4 * 2 ^ 24
    
    let v := { u with ft := { u.ft with deposits := u.ft.deposits.filter fun d => !mine d } }
    (∀ d ∈ u.ft.deposits, mine d = true → d.busy = false) ∧ len ≠ 0 ∧ locOf (cmdU c 8 8) = some (.vault ((u.acctDies (cmdA
      c)).getD (cmdU c 4 1) 8) (cmdU c 8 8 % 2 ^ 37)) ∧ v.inAccount (cmdA c) (cmdU c 8 8) len = true) ∧
    (∃ c : Cmd, ∃ s : State, ∃ u : State, ∃ k : Nat, ∃ m : Model, u.slotOf (cmdA c) (cmdU c 0 2) = some k ∧ u.model k = some m
      ∧ Runs 0x705 c s u ∧ cmdTail c 8 = true ∧ cmdZ c 3 5 = true ∧ m.ft.plan ≠ none ∧ cmdU c 2 1 = 0) ∧
    (∃ c : Cmd, ∃ s : State, ∃ u : State, ∃ k : Nat, ∃ m : Model, u.slotOf (cmdA c) (cmdU c 0 2) = some k ∧ u.model k = some m
      ∧ Runs 0x705 c s u ∧ cmdTail c 8 = true ∧ cmdZ c 3 5 = true ∧ m.ft.plan ≠ none ∧ cmdU c 2 1 = 1 ∧ m.w.ready = true ∧
      m.w.staged = false ∧ m.led.ustate = .idle ∧ u.partOf m.map.acct ∉ u.chip.power.partReset ∧ movesFull u (u.partOf
      m.map.acct) = false ∧ ((u.ckptsOf m.map).length + 1) * ckptBytes u k m ≤ strongboxBytes u m.map.acct) :=
  ⟨⟨cmd 0 [], demo, dropTaken (cmd 0 []) demo, runs_of (by decide +kernel), by decide +kernel⟩,
   ⟨cmd 0 [(0, 1)], loaded, dropTaken (cmd 0 [(0, 1)]) loaded, 0, model, by decide +kernel, by decide +kernel, runs_of
      (by decide +kernel), by decide +kernel⟩,
   ⟨cmd 0 [(0, 1), (8, 8192)], wr (strongbox model) 0x2000 (leBytes 64 (1 + 2 ^ 17 + 2 ^ 40 + 1000 * 2 ^ 96)), dropTaken (cmd
      0 [(0, 1), (8, 8192)]) (wr (strongbox model) 0x2000 (leBytes 64 (1 + 2 ^ 17 + 2 ^ 40 + 1000 * 2 ^ 96))), 0, model,
      by decide +kernel, by decide +kernel, runs_of (by decide +kernel), by decide +kernel, by decide +kernel,
      by decide +kernel, by decide +kernel, by decide +kernel, by decide +kernel⟩,
   ⟨cmd 0 [(0, 1), (2, 1), (8, 8192)], { demo with models := [(0, { model with map := { map with parts := [5, 6] } })] },
      dropTaken (cmd 0 [(0, 1), (2, 1), (8, 8192)])
      ({ demo with models := [(0, { model with map := { map with parts := [5, 6] } })] }), 0,
      { model with map := { map with parts := [5, 6] } }, by decide +kernel, by decide +kernel, runs_of (by decide +kernel),
      by decide +kernel, by decide +kernel, by decide +kernel, by decide +kernel, by decide +kernel, by decide +kernel,
      by decide +kernel, by decide +kernel⟩,
   ⟨cmd 0 [(0, 1), (2, 1), (8, vaultBase), (16, 1)],
      { demo with models := [(0, { model with map := { map with parts := [5, 6] } })] }, dropTaken (cmd 0 [(0, 1), (2, 1), (8,
      vaultBase), (16, 1)]) ({ demo with models := [(0, { model with map := { map with parts := [5, 6] } })] }), 0,
      { model with map := { map with parts := [5, 6] } }, by decide +kernel, by decide +kernel, runs_of (by decide +kernel),
      by decide +kernel, by decide +kernel, by decide +kernel, by decide +kernel, by decide +kernel, by decide +kernel,
      by decide +kernel, by decide +kernel⟩,
   ⟨cmd 0 [(0, 1)], { demo with models := [(0, { model with ft := { model.ft with plan := some [] } })] }, dropTaken (cmd 0
      [(0, 1)]) ({ demo with models := [(0, { model with ft := { model.ft with plan := some [] } })] }), 0,
      { model with ft := { model.ft with plan := some [] } }, by decide +kernel, by decide +kernel, runs_of
      (by decide +kernel), by decide +kernel⟩,
   ⟨cmd 0 [(0, 1), (2, 1)], strongbox { model with ft := { model.ft with plan := some [] } }, dropTaken (cmd 0 [(0, 1), (2,
      1)]) (strongbox { model with ft := { model.ft with plan := some [] } }), 0,
      { model with ft := { model.ft with plan := some [] } }, by decide +kernel, by decide +kernel, runs_of
      (by decide +kernel), by decide +kernel⟩⟩

/-- The hypotheses of CheckpointCommandsComplete hold together, clause by clause. -/
theorem test_meets_checkpointCommandsComplete :
    (∃ c : Cmd, ∃ s : State, ∃ u : State, ∃ k : Nat, ∃ m : Model, u.slotOf (cmdA c) (cmdU c 0 2) = some k ∧ u.model k = some m
      ∧ Runs 0x706 c s u ∧ cmdTail c 16 = true ∧ cmdZ c 2 6 = true ∧ addrOk (cmdU c 8 8) = true ∧
    let recs := (u.ckptsOf m.map).map (·.record) ++ ((u.sentOf m.map).map (·.record)).toList
    recs ≠ [] ∧ u.inAccount (cmdA c) (cmdU c 8 8) (128 * recs.length) = true ∧ u.writes (cmdU c 8 8) (128 * recs.length) =
      true) ∧
    (∃ c : Cmd, ∃ s : State, ∃ u : State, ∃ k : Nat, ∃ m : Model, u.slotOf (cmdA c) (cmdU c 0 2) = some k ∧ u.model k = some m
      ∧
    let it := fun (k : Ckpt) => k.acct == m.map.acct && k.model == m.map.num && recSeq k.record == cmdU c 4 4
    Runs 0x707 c s u ∧ cmdTail c 8 = true ∧ cmdZ c 2 2 = true ∧ u.ft.ckpts.any it = true ∧ (∀ x ∈ m.ft.later, x.2.toNat ≠ cmdU
      c 4 4)) ∧
    (∃ c : Cmd, ∃ s : State, ∃ u : State, ∃ k : Nat, ∃ m : Model, u.slotOf (cmdA c) (cmdU c 0 2) = some k ∧ u.model k = some m
      ∧ ∃ k', Runs 0x708 c s u ∧ cmdTail c 16 = true ∧ cmdZ c 2 2 = true ∧ addrOk (cmdU c 8 8) = true ∧ ((u.ckptsOf
      m.map).find? fun k => recSeq k.record == cmdU c 4 4) = some k' ∧
    let b := exportImage (recordAs k'.record 3 0 (cmdU c 4 4) (BitVec.ofNat 64 (fieldAt k'.record 0x50 8))) k'.image
    cmdU c 8 8 + b.length ≤ 2 ^ 52 ∧ inHostSpace (cmdA c) (cmdU c 8 8) b.length = true ∧ k'.fails = false ∧ u.hostWaits (cmdU
      c 8 8) = false ∧ u.hostDead (cmdU c 8 8) = false) ∧
    (∃ c : Cmd, ∃ s : State, ∃ u : State, ∃ k : Nat, ∃ m : Model, u.slotOf (cmdA c) (cmdU c 0 2) = some k ∧ u.model k = some m
      ∧
    let src := cmdU c 2 1
    Runs 0x709 c s u ∧ cmdTail c 24 = true ∧ 1 ≤ src ∧ src ≤ 4 ∧ cmdZ c 3 1 = true ∧ cmdZ c 10 6 = true ∧ addrOk (cmdU c 16 8)
      = true ∧ (src ≠ 4 → cmdU c 16 8 = 0) ∧ (src = 4 → imageInSpace u (cmdA c) (cmdU c 16 8) = true ∧ u.hostWaits (cmdU c 16
      8) = false) ∧ (src = 3 → peerHolds m.map (cmdU c 8 2) = true) ∧ (src = 1 → (∃ x ∈ u.ckptsOf m.map, recStep x.record =
      cmdU c 4 4) ∧ ∀ x ∈ u.ckptsOf m.map, recStep x.record = cmdU c 4 4 → fieldAt x.record 0x28 8 = m.map.layout.toNat) ∧
      m.w.ready = true ∧ m.led.ustate ≠ .open ∧ m.led.ustate ≠ .held ∧ u.partOf m.map.acct ∉ u.chip.power.partReset ∧
      movesFull u (u.partOf m.map.acct) = false) ∧
    (∃ c : Cmd, ∃ s : State, ∃ u : State, ∃ k : Nat, ∃ m : Model, u.slotOf (cmdA c) (cmdU c 0 2) = some k ∧ u.model k = some m
      ∧ Runs 0x70A c s u ∧ cmdTail c 2 = true ∧ u.movingNow k (· == .drain) = false ∧ m.ft.later = [] ∧ m.ft.deferred = false) :=
  ⟨⟨cmd 0 [(0, 1), (8, 8192)], { loaded with ft := { loaded.ft with ckpts := [ckpt] } }, dropTaken (cmd 0 [(0, 1), (8, 8192)])
      ({ loaded with ft := { loaded.ft with ckpts := [ckpt] } }), 0, model, by decide +kernel, by decide +kernel, runs_of
      (by decide +kernel), by decide +kernel, by decide +kernel, by decide +kernel, by decide +kernel⟩,
   ⟨cmd 0 [(0, 1), (4, 9)], { loaded with ft := { loaded.ft with ckpts := [ckpt] } }, dropTaken (cmd 0 [(0, 1), (4, 9)])
      ({ loaded with ft := { loaded.ft with ckpts := [ckpt] } }), 0, model, by decide +kernel, by decide +kernel, runs_of
      (by decide +kernel), by decide +kernel, by decide +kernel, by decide +kernel, fun _ h => (by cases h)⟩,
   ⟨cmd 0 [(0, 1), (4, 9), (8, 281474976710656)], ({ loaded with ft := { loaded.ft with ckpts := [ckpt] } : State }).onLink 0
      fun l => { l with up := true }, dropTaken (cmd 0 [(0, 1), (4, 9), (8, 281474976710656)])
      (({ loaded with ft := { loaded.ft with ckpts := [ckpt] } : State }).onLink 0 fun l => { l with up := true }), 0, model,
      by decide +kernel, by decide +kernel, ckpt, runs_of (by decide +kernel), by decide +kernel, by decide +kernel,
      by decide +kernel, by decide +kernel, by decide +kernel⟩,
   by refine ⟨cmd 0 [(0, 1), (2, 1), (4, 3)], { loaded with ft := { loaded.ft with ckpts := [ckpt] } }, dropTaken (cmd 0 [(0,
      1), (2, 1), (4, 3)]) ({ loaded with ft := { loaded.ft with ckpts := [ckpt] } }), 0, model, ?_, ?_, runs_of
      (by decide +kernel), ?_, ?_, ?_, ?_, ?_, ?_, ?_, ?_, ?_, fun _ => ⟨⟨ckpt, by decide +kernel, by decide +kernel⟩,
      by decide +kernel⟩, ?_⟩ <;> decide +kernel,
   ⟨cmd 0 [(0, 1)], loaded, dropTaken (cmd 0 [(0, 1)]) loaded, 0, model, by decide +kernel, by decide +kernel, runs_of
      (by decide +kernel), by decide +kernel⟩⟩

/-- The hypotheses of CopiesCommitFailAndRestore hold together, clause by clause. -/
theorem test_meets_copiesCommitFailAndRestore :
    (∃ slot : BitVec 6, ∃ s : State, ∃ m : Model, ∃ p : Nat, ∃ o : MoveOp, ∃ c : CopyJob, s.model slot.toNat = some m ∧
      drainOf s slot.toNat = some (p, o, c) ∧ ∃ u : State, (c.kind = 2 → depositOpen s m = true) ∧ readLayers slot.toNat m
      (layersLeft m c) s = (true, u)) ∧
    (∃ slot : BitVec 6, ∃ s : State, ∃ m : Model, ∃ p : Nat, ∃ o : MoveOp, ∃ c : CopyJob, s.model slot.toNat = some m ∧
      drainOf s slot.toNat = some (p, o, c) ∧ c.kind = 1 ∧ ∃ k ∈ s.ft.ckpts, (k.acct ≠ m.map.acct ∨ k.model ≠ m.map.num)) ∧
    (∃ slot : BitVec 6, ∃ s : State, ∃ m : Model, ∃ p : Nat, ∃ o : MoveOp, ∃ c : CopyJob, s.model slot.toNat = some m ∧
      drainOf s slot.toNat = some (p, o, c) ∧ ∃ r : CopyEnd, r ≠ .committed) ∧
    (∃ slot : BitVec 6, ∃ s : State, ∃ m : Model, ∃ layer : Nat, ∃ q : Word, ∃ others : List (Nat × Word), s.model slot.toNat
      = some m ∧ m.ft.later = (layer, q) :: others ∧ ledgerPaused s = true) ∧
    (∃ slot : BitVec 6, ∃ s : State, ∃ m : Model, ∃ layer : Nat, ∃ q : Word, ∃ others : List (Nat × Word), s.model slot.toNat
      = some m ∧ m.ft.later = (layer, q) :: others ∧ ledgerPaused s = false ∧ ∃ src, laterSource s m layer q = some src ∧
      (m.ft.planU (layer + 1) 1 = 3 → 4096 + src.2.length ≤ m.ft.planU 0x18 8 ∧ s.hostWaits (m.ft.planU 0x10 8) = false ∧
      s.hostDead (m.ft.planU 0x10 8) = false)) ∧
    (∃ slot : BitVec 6, ∃ s : State, ∃ m : Model, ∃ layer : Nat, ∃ q : Word, ∃ others : List (Nat × Word), s.model slot.toNat
      = some m ∧ m.ft.later = (layer, q) :: others ∧ m.ft.planU layer 1 = 2 ∧ ∃ k ∈ (laterUnread m layer q s).ft.ckpts, k.acct
      = m.map.acct ∧ k.model = m.map.num ∧ recSeq k.record = q.toNat) ∧
    (∃ slot : BitVec 6, ∃ s : State, ∃ m : Model, ∃ layer : Nat, ∃ q : Word, ∃ others : List (Nat × Word), s.model slot.toNat
      = some m ∧ m.ft.later = (layer, q) :: others ∧ drainOf s slot.toNat = none) ∧
    (∃ slot : BitVec 6, ∃ s : State, ∃ m : Model, ∃ p : Nat, ∃ o : MoveOp, ∃ c : CopyJob, ∃ k : Ckpt, s.model slot.toNat =
      some m ∧ s.runningMove slot.toNat = some (p, o) ∧ o.copy = some c ∧ o.kind = .restore ∧ o.stage = .moving ∧ c.source = 1
      ∧ ((s.ckptsOf m.map).filter fun k => recStep k.record == c.step.toNat).getLast? = some k ∧ k.fails = false ∧ fieldAt
      k.record 0x28 8 = m.map.layout.toNat ∧ bufferRead s m = false ∧ s.keysFail (restoreKeys s slot.toNat m) = false) ∧
    (∃ p : Nat, ∃ slot : Nat, ∃ s : State, ∃ m : Model, ∃ o : MoveOp, ∃ c : CopyJob, s.model slot = some m ∧ (s.movesOf
      p).running = some o ∧ o.copy = some c ∧ o.kind = .restore ∧ o.stage = .barrier ∧ awaitsPeer s m.map = false ∧
      mirrorShards m.map = []) ∧
    (∃ src : BitVec 13, ∃ job : Word, ∃ s : State, ∃ a : Nat, ∃ js : JobSlot, s.recipient src.toNat job = some (a, js) ∧ ∃
      model : BitVec 16, ∃ k : Nat, ∃ m : Model, s.slotOf a model.toNat = some k ∧ s.model k = some m) ∧
    (∃ part : BitVec 13, ∃ job : Word, ∃ s : State, ∃ a : Nat, ∃ js : JobSlot, ∃ k, (s.chip.fabric.slots.find? fun x =>
      x.2.job == job) = some (k, js) ∧ part.toNat ∈ js.joined ∧ part.toNat ≠ js.part ∧
    let a := js.table.getD part.toNat 8192
    noRoute s a = true ∧ beaconIll s a = true) ∧
    (∃ part : BitVec 13, ∃ job : Word, ∃ s : State, ∃ a : Nat, ∃ js : JobSlot, ∃ k, (s.chip.fabric.slots.find? fun x =>
      x.2.job == job) = some (k, js) ∧ part.toNat ∈ js.joined ∧ part.toNat ≠ js.part ∧
    let a := js.table.getD part.toNat 8192
    ∃ e, tget s.chip.beacon.table a = some e ∧ e.known = true ∧ e.mstate = 0) :=
  ⟨⟨0, moving model { move .drain with copy := some (copyJob 1) }, model, 0, { move .drain with copy := some (copyJob 1) },
      copyJob 1, by decide +kernel, by decide +kernel, drained.2, by decide +kernel, drain_reads⟩,
   ⟨0,
      { moving model { move .drain with copy := some (copyJob 1) } with ft := { demo.ft with ckpts := [{ ckpt with acct := 1 }] } },
      model, 0, { move .drain with copy := some (copyJob 1) }, copyJob 1, by decide +kernel, by decide +kernel,
      by decide +kernel, { ckpt with acct := 1 }, by decide +kernel, .inl (by decide +kernel)⟩,
   ⟨0, moving model { move .drain with copy := some (copyJob 1) }, model, 0, { move .drain with copy := some (copyJob 1) },
      copyJob 1, by decide +kernel, by decide +kernel, .dataError, by decide +kernel⟩,
   ⟨0, ({ demo with models := [(0, { model with ft := { model.ft with later := [(1, 9)], plan := some (leBytes 64 0) } })] } :
      State).onFw fun f => { f with activation := some { activating with left := [1] } },
      { model with ft := { model.ft with later := [(1, 9)], plan := some (leBytes 64 0) } }, 1, 9, [], by decide +kernel⟩,
   ⟨0,
      { demo with models := [(0, { model with ft := { model.ft with later := [(1, 9)], plan := some (leBytes 64 0) } })], ft := { demo.ft with ckpts := [ckpt] } },
      { model with ft := { model.ft with later := [(1, 9)], plan := some (leBytes 64 0) } }, 1, 9, [], by decide +kernel,
      by decide +kernel, by decide +kernel, (ckpt.record, ckpt.image), by decide +kernel⟩,
   ⟨0,
      { demo with models := [(0, { model with ft := { model.ft with later := [(1, 9)], plan := some (leBytes 64 (2 * 2 ^ 8)) } })], ft := { demo.ft with ckpts := [ckpt] } },
      { model with ft := { model.ft with later := [(1, 9)], plan := some (leBytes 64 (2 * 2 ^ 8)) } }, 1, 9, [],
      by decide +kernel, by decide +kernel, by decide +kernel, ((laterUnread
      ({ model with ft := { model.ft with later := [(1, 9)], plan := some (leBytes 64 (2 * 2 ^ 8)) } }) 1 9
      ({ demo with models := [(0, { model with ft := { model.ft with later := [(1, 9)], plan := some (leBytes 64 (2 * 2 ^ 8)) } })], ft := { demo.ft with ckpts := [ckpt] } })).ft.ckpts.getD
      0 ckpt), by decide +kernel, by decide +kernel⟩,
   ⟨0, { demo with models := [(0, { model with ft := { model.ft with later := [(1, 9)], plan := some (leBytes 64 0) } })] },
      { model with ft := { model.ft with later := [(1, 9)], plan := some (leBytes 64 0) } }, 1, 9, [], by decide +kernel⟩,
   ⟨0,
      { moving model { move .restore with stage := .moving, copy := some (copyJob 1) } with ft := { demo.ft with ckpts := [ckpt] } },
      model, 0, { move .restore with stage := .moving, copy := some (copyJob 1) }, copyJob 1, ckpt, by decide +kernel⟩,
   ⟨0, 0, moving model { move .restore with stage := .barrier, copy := some (copyJob 1) }, model,
      { move .restore with stage := .barrier, copy := some (copyJob 1) }, copyJob 1, by decide +kernel⟩,
   ⟨5, 7, inTurn model, 0, job, by decide +kernel, 1, 0, model, by decide +kernel⟩,
   ⟨1, 7, paired none, 0, duo, 0, by decide +kernel, by decide +kernel, by decide +kernel, by decide +kernel⟩,
   ⟨1, 7, paired (some neighbour), 0, duo, 0, by decide +kernel, by decide +kernel, by decide +kernel, neighbour,
      by decide +kernel⟩⟩

/-- The hypotheses of UnitsFenceReconcileAndFail hold together, clause by clause. -/
theorem test_meets_unitsFenceReconcileAndFail :
    (∃ kind : BitVec 8, ∃ index : BitVec 8, ∃ data : BitVec 8, ∃ tag : BitVec 8, ∃ s : State, s.off = false ∧ index.toNat <
      unitCount kind.toNat ∧ data.toNat < 3 ∧
    let u := s.unit kind.toNat index.toNat
    
    let u' := { u with data := data.toNat, dTag := tag.toNat }
    u.mgmt < 2 ∧ u'.disagrees = true) ∧
    (∃ kind : BitVec 8, ∃ index : BitVec 8, ∃ data : BitVec 8, ∃ tag : BitVec 8, ∃ s : State, s.off = false ∧ index.toNat <
      unitCount kind.toNat ∧ data.toNat < 3 ∧
    let u := s.unit kind.toNat index.toNat
    
    let u' := { u with data := data.toNat, dTag := tag.toNat }
    u.mgmt < 2 ∧ u'.disagrees = false) ∧
    (∃ kind : BitVec 8, ∃ index : BitVec 8, ∃ s : State, s.off = false ∧ index.toNat < unitCount kind.toNat ∧ 
    let u := s.unit kind.toNat index.toNat
    u.mgmt = 2 ∧ u.auto = true) ∧
    (∃ kind : BitVec 8, ∃ index : BitVec 8, ∃ data : BitVec 8, ∃ tag : BitVec 8, ∃ s : State, s.off = false ∧ index.toNat <
      unitCount kind.toNat ∧ (s.unit kind.toNat index.toNat).mgmt = 3 ∧ ∃ d, unitDies kind.toNat index.toNat = [d] ∧ tag.toNat
      = (s.dieOwner d).getD 0xFF ∧ data.toNat ≠ 2) ∧
    (∃ kind : BitVec 8, ∃ index : BitVec 8, ∃ data : BitVec 8, ∃ tag : BitVec 8, ∃ s : State, s.off = false ∧ index.toNat <
      unitCount kind.toNat ∧ (s.unit kind.toNat index.toNat).mgmt = 3 ∧ kind = 6 ∧ data = 0 ∧ tag.toNat = (s.dieOwner
      (index.toNat / 8)).getD 0xFF) ∧
    (∃ kind : BitVec 8, ∃ index : BitVec 8, ∃ s : State, s.off = false ∧ index.toNat < unitCount kind.toNat ∧ (kind = 1 ∨ kind
      = 4 ∨ kind = 5)) :=
  ⟨⟨6, 63, 1, 0xFF, demo, by decide +kernel, by decide +kernel, by decide +kernel, by decide +kernel⟩,
   ⟨6, 63, 0, 0xFF, demo, by decide +kernel, by decide +kernel, by decide +kernel, by decide +kernel⟩,
   ⟨6, 63, demo.onUnit 6 63 fun r => { r with mgmt := 2, auto := true }, by decide +kernel, by decide +kernel,
      by decide +kernel⟩,
   ⟨6, 63, 0, 0xFF, demo.onUnit 6 63 fun r => { r with mgmt := 3 }, by decide +kernel, by decide +kernel, by decide +kernel,
      7, by decide +kernel⟩,
   ⟨6, 63, 0, 0xFF, demo.onUnit 6 63 fun r => { r with mgmt := 3 }, by decide +kernel, by decide +kernel, by decide +kernel,
      rfl, rfl, rfl⟩,
   ⟨1, 7, demo, by decide +kernel, by decide +kernel, .inl rfl⟩⟩

/-- The hypotheses of PowerCommandsComplete hold together, clause by clause. -/
theorem test_meets_powerCommandsComplete :
    (∃ c : Cmd, ∃ s : State, ∃ u : State, Runs 0x801 c s u ∧ cmdTail c 1 = true ∧ 1 ≤ cmdU c 0 1 ∧ cmdU c 0 1 ≤ 3 ∧
      u.hasModRight (cmdA c) = true ∧ u.chip.power.exiting = false ∧ u.engaged = false) ∧
    (∃ c : Cmd, ∃ s : State, ∃ u : State, u = dropTaken c s ∧ outOfTurn 0x801 c s = false ∧ stateGate (cmdA c) c.abi 0x801 u =
      none ∧ lifeGate 0x801 u = none ∧ cmdTail c 1 = true ∧ u.chip.power.target = none ∧ u.chip.power.exiting = false ∧ cmdU c
      0 1 = u.chip.power.pstate ∧ cmdU c 0 1 ≤ 3 ∧ u.hasModRight (cmdA c) = true) ∧
    (∃ c : Cmd, ∃ s : State, ∃ u : State, u = dropTaken c s ∧ outOfTurn 0x801 c s = false ∧ stateGate (cmdA c) c.abi 0x801 u =
      none ∧ lifeGate 0x801 u = none ∧ cmdTail c 1 = true ∧ u.chip.power.target = none ∧ u.chip.power.exiting = false ∧ 3 <
      cmdU c 0 1) ∧
    (∃ c : Cmd, ∃ s : State, ∃ u : State, Runs 0x802 c s u ∧ cmdTail c 0 = true) ∧
    (∃ c : Cmd, ∃ s : State, ∃ u : State, Runs 0x803 c s u ∧ cmdTail c 16 = true ∧ cmdZ c 5 3 = true ∧ 
    let b : Bounds := ⟨cmdU c 0 2, cmdU c 2 1, cmdU c 3 1, BitVec.ofNat 4 (cmdU c 4 1), (List.range 8).map fun i => cmdU c (8
      + i) 1⟩
    
    let full := { u.chip.power with arrBusy := List.replicate 8 1000000, vecBusy := List.replicate 8 1000000 }
    b.divFast ∈ [4, 5, 6, 8] ∧ b.divSlow ∈ [4, 5, 6, 8] ∧ b.divFast ≤ b.divSlow ∧ cmdU c 4 1 < 16 ∧ 2400 ≤ b.envelope ∧
      b.envelope ≤ 6000 ∧ (∀ p ∈ b.prio, p ≤ 7) ∧ u.hasModRight (cmdA c) = true ∧ inputEstimate full (List.replicate 8
      b.divSlow) ≤ b.envelope * 100000000 ∧ b.divSlow ≤ u.chip.power.bounds.divSlow) ∧
    (∃ c : Cmd, ∃ s : State, ∃ u : State, Runs 0x804 c s u ∧ s.chip.power.tripped = false ∧ cmdTail c 2 = true ∧ cmdU c 1 1 ≤
      7 ∧ cmdU c 0 1 = 2 ∧ cmdU c 1 1 = 0 ∧ u.hasModRight (cmdA c) = true) ∧
    (∃ c : Cmd, ∃ s : State, ∃ u : State, Runs 0x804 c s u ∧ s.chip.power.tripped = false ∧ cmdTail c 2 = true ∧ cmdU c 1 1 ≤
      7 ∧ cmdU c 0 1 = 1 ∧ cmdU c 1 1 = 0 ∧ u.hasModRight (cmdA c) = true) ∧
    (∃ c : Cmd, ∃ s : State, ∃ u : State, Runs 0x804 c s u ∧ s.chip.power.tripped = false ∧ cmdTail c 2 = true ∧ cmdU c 1 1 ≤
      7 ∧ cmdU c 0 1 = 3 ∧ (u.hasModRight (cmdA c) = true ∨ u.hasPartRight (cmdA c) (cmdU c 1 1) = true) ∧ u.partDies (cmdU c
      1 1) ≠ [] ∧ cmdU c 1 1 ∉ u.chip.power.partReset ∧ cmdU c 1 1 ∈ (resetPartition (cmdU c 1 1) u).chip.power.partReset) ∧
    (∃ c : Cmd, ∃ s : State, ∃ u : State, Runs 0x804 c s u ∧ s.chip.power.tripped = false ∧ cmdTail c 2 = true ∧ cmdU c 1 1 ≤
      7 ∧ cmdU c 0 1 = 3 ∧ (u.hasModRight (cmdA c) = true ∨ u.hasPartRight (cmdA c) (cmdU c 1 1) = true) ∧ u.partDies (cmdU c
      1 1) ≠ [] ∧ cmdU c 1 1 ∉ u.chip.power.partReset ∧ cmdU c 1 1 ∉ (resetPartition (cmdU c 1 1) u).chip.power.partReset) ∧
    (∃ c : Cmd, ∃ s : State, s.chip.power.tripped = true ∧ s.chip.power.inputPresent = true ∧ cmdTail c 2 = true ∧ cmdU c 0 1
      = 2 ∧ cmdU c 1 1 = 0 ∧ s.chip.power.cool = true) ∧
    (∃ c : Cmd, ∃ s : State, s.chip.power.tripped = true ∧ s.chip.power.inputPresent = true ∧ cmdTail c 2 = true ∧ cmdU c 0 1
      = 2 ∧ cmdU c 1 1 = 0 ∧ s.chip.power.cool = false) :=
  ⟨⟨cmd 0 [(0, 3)], demo, dropTaken (cmd 0 [(0, 3)]) demo, runs_of (by decide +kernel), by decide +kernel⟩,
   ⟨cmd 0 [], demo, dropTaken (cmd 0 []) demo, rfl, by decide +kernel⟩,
   ⟨cmd 0 [(0, 255)], demo, dropTaken (cmd 0 [(0, 255)]) demo, rfl, by decide +kernel⟩,
   ⟨cmd 0 [], demo, dropTaken (cmd 0 []) demo, runs_of (by decide +kernel), by decide +kernel⟩,
   ⟨cmd 0 [(0, 6000), (2, 4), (3, 8), (4, 15), (8, 0x0707070707070707)], demo, dropTaken (cmd 0 [(0, 6000), (2, 4), (3, 8),
      (4, 15), (8, 0x0707070707070707)]) demo, runs_of (by decide +kernel), by decide +kernel, by decide +kernel,
      by decide +kernel⟩,
   ⟨cmd 0 [(0, 2)], demo, dropTaken (cmd 0 [(0, 2)]) demo, runs_of (by decide +kernel), by decide +kernel⟩,
   ⟨cmd 0 [(0, 1)], demo, dropTaken (cmd 0 [(0, 1)]) demo, runs_of (by decide +kernel), by decide +kernel⟩,
   ⟨cmd 0 [(0, 3)], demo.onUnit 1 0 fun r => { r with mgmt := 2 }, dropTaken (cmd 0 [(0, 3)]) (demo.onUnit 1 0 fun r =>
      { r with mgmt := 2 }), runs_of (by decide +kernel), by decide +kernel, by decide +kernel, by decide +kernel,
      by decide +kernel, .inl (by decide +kernel), by decide +kernel⟩,
   ⟨cmd 0 [(0, 3)], dead, dropTaken (cmd 0 [(0, 3)]) dead, runs_of (by decide +kernel), by decide +kernel, by decide +kernel,
      by decide +kernel, by decide +kernel, .inl (by decide +kernel), by decide +kernel⟩,
   ⟨cmd 0 [(0, 2)], demo.onPower fun p => { p with tripped := true }, by decide +kernel⟩,
   ⟨cmd 0 [(0, 2)], demo.onPower fun p => { p with tripped := true, override := { Override.none with hbm := [0] } },
      by decide +kernel⟩⟩

/-- The hypotheses of FirmwareAndLifeCycleCommandsComplete hold together, clause by clause. -/
theorem test_meets_firmwareAndLifeCycleCommandsComplete :
    (∃ c : Cmd, ∃ s : State, ∃ u : State, Runs 0x901 c s u ∧ cmdTail c 12 = true ∧ addrOk (cmdU c 0 8) = true ∧ 320 ≤ cmdU c 8
      4 ∧ u.hasModRight (cmdA c) = true ∧ inHostSpace (cmdA c) (cmdU c 0 8) (cmdU c 8 4) = true ∧ u.reads (cmdU c 0 8) (cmdU c
      8 4) = true ∧
    let h := u.read (cmdU c 0 8) 256
    headerOk h (cmdU c 8 4) = true ∧ u.chip.fw.lock = true) ∧
    (∃ c : Cmd, ∃ s : State, ∃ u : State, Runs 0x902 c s u ∧ cmdTail c 1 = true ∧ 1 ≤ cmdU c 0 1 ∧ cmdU c 0 1 < 8 ∧
      u.hasModRight (cmdA c) = true ∧ u.chip.fw.lock = true) ∧
    (∃ c : Cmd, ∃ s : State, ∃ u : State, Runs 0x902 c s u ∧ cmdTail c 1 = true ∧ 1 ≤ cmdU c 0 1 ∧ cmdU c 0 1 < 8 ∧
      u.hasModRight (cmdA c) = true ∧
    let left := [1, 2, 0].filter fun t => (cmdU c 0 1).testBit t && (u.fwType t).cur != some (u.fwType t).run
    u.chip.fw.lock = false ∧ u.chip.fw.busy = false ∧ u.unsettled = false ∧ left ≠ []) ∧
    (∃ c : Cmd, ∃ s : State, ∃ u : State, Runs 0x903 c s u ∧ cmdTail c 0 = true) ∧
    (∃ c : Cmd, ∃ s : State, ∃ u : State, Runs 0x904 c s u ∧ cmdTail c 2 = true ∧ 1 ≤ cmdU c 0 2 ∧ cmdU c 0 2 ≤ 64 ∧
      u.hasModRight (cmdA c) = true ∧ u.chip.fw.lock = true) ∧
    (∃ c : Cmd, ∃ s : State, ∃ u : State, Runs 0x904 c s u ∧ cmdTail c 2 = true ∧ 1 ≤ cmdU c 0 2 ∧ cmdU c 0 2 ≤ 64 ∧
      u.hasModRight (cmdA c) = true ∧ u.chip.fw.lock = false ∧ cmdU c 0 2 ≤ u.chip.fw.floor) ∧
    (∃ c : Cmd, ∃ s : State, ∃ u : State, Runs 0x904 c s u ∧ cmdTail c 2 = true ∧ 1 ≤ cmdU c 0 2 ∧ cmdU c 0 2 ≤ 64 ∧
      u.hasModRight (cmdA c) = true ∧ u.chip.fw.lock = false ∧ u.chip.fw.floor < cmdU c 0 2 ∧ (∀ t ∈ u.chip.fw.types, cmdU c 0
      2 ≤ t.run.svn ∧ ∀ i, t.cur = some i → cmdU c 0 2 ≤ i.svn)) ∧
    (∃ c : Cmd, ∃ s : State, ∃ u : State, Runs 0x905 c s u ∧ cmdTail c 0 = true ∧ u.hasModRight (cmdA c) = true ∧
      u.chip.fw.lifecycle ≠ .owned) ∧
    (∃ c : Cmd, ∃ s : State, ∃ u : State, Runs 0x905 c s u ∧ cmdTail c 0 = true ∧ u.hasModRight (cmdA c) = true ∧
      u.chip.fw.lifecycle = .owned ∧ u.chip.fw.lock = true) ∧
    (∃ c : Cmd, ∃ s : State, ∃ u : State, Runs 0x905 c s u ∧ cmdTail c 0 = true ∧ u.hasModRight (cmdA c) = true ∧
      u.chip.fw.lifecycle = .owned ∧ u.chip.fw.lock = false) ∧
    (∃ c : Cmd, ∃ s : State, ∃ u : State, Runs 0x906 c s u ∧ cmdTail c 0 = true) :=
  ⟨⟨cmd 0 [(0, 281474976710656), (8, 320)], wr (up0.onFw fun f => { f with lock := true }) 281474976710656 (leBytes 256 (1 + 2
      ^ 16 + 0xB0 * 2 ^ 24 + 2 ^ 32 + 2 ^ 64 + 64 * 2 ^ 96)), dropTaken (cmd 0 [(0, 281474976710656), (8, 320)]) (wr (up0.onFw
      fun f => { f with lock := true }) 281474976710656 (leBytes 256 (1 + 2 ^ 16 + 0xB0 * 2 ^ 24 + 2 ^ 32 + 2 ^ 64 + 64 * 2 ^
      96))), runs_of (by decide +kernel), by decide +kernel, by decide +kernel, by decide +kernel, by decide +kernel,
      by decide +kernel, by decide +kernel, by decide +kernel⟩,
   ⟨cmd 0 [(0, 7)], (up0.onFw fun f => { f with lock := true }), dropTaken (cmd 0 [(0, 7)]) ((up0.onFw fun f =>
      { f with lock := true })), runs_of (by decide +kernel), by decide +kernel⟩,
   ⟨cmd 0 [(0, 1)], demo.onFw fun f => { f with types := lmod f.types 0 fun t => { t with cur := some ⟨[], [], 9, 1⟩ } },
      dropTaken (cmd 0 [(0, 1)]) (demo.onFw fun f =>
      { f with types := lmod f.types 0 fun t => { t with cur := some ⟨[], [], 9, 1⟩ } }), runs_of (by decide +kernel),
      by decide +kernel, by decide +kernel, by decide +kernel, by decide +kernel, by decide +kernel⟩,
   ⟨cmd 0 [], demo, dropTaken (cmd 0 []) demo, runs_of (by decide +kernel), by decide +kernel⟩,
   ⟨cmd 0 [(0, 64)], (up0.onFw fun f => { f with lock := true }), dropTaken (cmd 0 [(0, 64)]) ((up0.onFw fun f =>
      { f with lock := true })), runs_of (by decide +kernel), by decide +kernel⟩,
   ⟨cmd 0 [(0, 1)], demo.onFw fun f => { f with floor := 1 }, dropTaken (cmd 0 [(0, 1)]) (demo.onFw fun f =>
      { f with floor := 1 }), runs_of (by decide +kernel), by decide +kernel⟩,
   ⟨cmd 0 [(0, 2)], demo.onFw fun f => { f with floor := 1, types := [fwType] }, dropTaken (cmd 0 [(0, 2)]) (demo.onFw fun f
      => { f with floor := 1, types := [fwType] }), runs_of (by decide +kernel), by decide +kernel, by decide +kernel,
      by decide +kernel, by decide +kernel, by decide +kernel, by decide +kernel, svn_ok⟩,
   ⟨cmd 0 [], demo.onFw fun f => { f with lifecycle := .provisioned }, dropTaken (cmd 0 []) (demo.onFw fun f =>
      { f with lifecycle := .provisioned }), runs_of (by decide +kernel), by decide +kernel⟩,
   ⟨cmd 0 [], (up0.onFw fun f => { f with lock := true }), dropTaken (cmd 0 []) ((up0.onFw fun f => { f with lock := true })),
      runs_of (by decide +kernel), by decide +kernel⟩,
   ⟨cmd 0 [], demo, dropTaken (cmd 0 []) demo, runs_of (by decide +kernel), by decide +kernel⟩,
   ⟨cmd 0 [], demo, dropTaken (cmd 0 []) demo, runs_of (by decide +kernel), by decide +kernel⟩⟩

/-- A further clause of FirmwareAndLifeCycleCommandsComplete, where the opaque Config answers as the premises say. -/
theorem test_meets_firmwareAndLifeCycleCommandsComplete_1 (hd : Config.sha384 (List.replicate 64 0) = List.replicate 48 0) (hs
      : ∀ k h g, Config.sigVerifies k h g = true) :
    ∃ c : Cmd, ∃ s : State, ∃ u : State, Runs 0x901 c s u ∧ cmdTail c 12 = true ∧ addrOk (cmdU c 0 8) = true ∧ 320 ≤ cmdU c 8
      4 ∧ u.hasModRight (cmdA c) = true ∧ inHostSpace (cmdA c) (cmdU c 0 8) (cmdU c 8 4) = true ∧ u.reads (cmdU c 0 8) (cmdU c
      8 4) = true ∧
    let h := u.read (cmdU c 0 8) 256
    headerOk h (cmdU c 8 4) = true ∧ u.chip.fw.lock = false ∧ u.chip.fw.busy = false ∧ u.unsettled = false ∧ Config.sha384
      (u.read (cmdU c 0 8 + 256) (cmdU c 8 4 - 256)) = (h.drop 0x10).take 48 ∧ Config.sigVerifies Config.vendorKey (h.take
      128) ((h.drop 0x80).take 96) = true ∧ u.chip.fw.floor ≤ fieldAt h 8 2 :=
  by refine ⟨cmd 0 [(0, 281474976710656), (8, 320)], wr up0 281474976710656 (leBytes 320 (1 + 2 ^ 16 + 0xB0 * 2 ^ 24 + 2 ^ 32
      + 64 * 2 ^ 64 + 64 * 2 ^ 96)), dropTaken (cmd 0 [(0, 281474976710656), (8, 320)]) (wr up0 281474976710656 (leBytes 320
      (1 + 2 ^ 16 + 0xB0 * 2 ^ 24 + 2 ^ 32 + 64 * 2 ^ 64 + 64 * 2 ^ 96))), runs_of (by decide +kernel), ?_, ?_, ?_, ?_, ?_,
      ?_, ?_, ?_, ?_, ?_, (congrArg Config.sha384 (by decide +kernel)).trans (hd.trans (by decide +kernel)), hs _ _ _, ?_⟩ <;>
      decide +kernel

/-- A further clause of FirmwareAndLifeCycleCommandsComplete, where the opaque Config answers as the premises say. -/
theorem test_meets_firmwareAndLifeCycleCommandsComplete_2 (hn : Config.serial = 9) (hs : ∀ k h g, Config.sigVerifies k h g =
      true) :
    ∃ c : Cmd, ∃ s : State, ∃ u : State, ∃ to_ : LifeCycle, ∃ key : Bytes, Runs 0x907 c s u ∧ cmdTail c 8 = true ∧ addrOk
      (cmdU c 0 8) = true ∧ inHostSpace (cmdA c) (cmdU c 0 8) 256 = true ∧ u.reads (cmdU c 0 8) 256 = true ∧
    let t := u.read (cmdU c 0 8) 256
    tokenOk t = true ∧ transition (fieldAt t 2 1) u.chip.fw.lifecycle t u.chip.fw.ownerKey = some (to_, key) ∧ fieldAt t 8 8 =
      Config.serial.toNat ∧ u.chip.fw.nonce = some (BitVec.ofNat 64 (fieldAt t 0x10 8)) ∧ Config.sigVerifies key (t.take 128)
      ((t.drop 0x80).take 96) = true ∧ (fieldAt t 2 1 = 2 → u.chip.fw.claims ≠ 0) ∧ u.chip.fw.busy = false ∧ u.moving = false
      ∧ fieldAt t 2 1 = 5 :=
  ⟨cmd 0 [(0, 281474976710656)], wr (up0.onFw fun f => { f with nonce := some 7 }) 281474976710656 (flds [(0, 1), (2, 5), (8,
      9), (0x10, 7)]), dropTaken (cmd 0 [(0, 281474976710656)]) (wr (up0.onFw fun f => { f with nonce := some 7 })
      281474976710656 (flds [(0, 1), (2, 5), (8, 9), (0x10, 7)])), .owned, demo.chip.fw.ownerKey, runs_of (by decide +kernel),
      by decide +kernel, by decide +kernel, by decide +kernel, by decide +kernel, by decide +kernel, by decide +kernel, (show
      _ = 9 by decide +kernel).trans (congrArg BitVec.toNat hn).symm, by decide +kernel, hs _ _ _, by decide +kernel⟩

/-- A further clause of FirmwareAndLifeCycleCommandsComplete, where the opaque Config answers as the premises say. -/
theorem test_meets_firmwareAndLifeCycleCommandsComplete_3 (hn : Config.serial = 9) (hs : ∀ k h g, Config.sigVerifies k h g =
      true) :
    ∃ c : Cmd, ∃ s : State, ∃ u : State, ∃ to_ : LifeCycle, ∃ key : Bytes, Runs 0x907 c s u ∧ cmdTail c 8 = true ∧ addrOk
      (cmdU c 0 8) = true ∧ inHostSpace (cmdA c) (cmdU c 0 8) 256 = true ∧ u.reads (cmdU c 0 8) 256 = true ∧
    let t := u.read (cmdU c 0 8) 256
    tokenOk t = true ∧ transition (fieldAt t 2 1) u.chip.fw.lifecycle t u.chip.fw.ownerKey = some (to_, key) ∧ fieldAt t 8 8 =
      Config.serial.toNat ∧ u.chip.fw.nonce = some (BitVec.ofNat 64 (fieldAt t 0x10 8)) ∧ Config.sigVerifies key (t.take 128)
      ((t.drop 0x80).take 96) = true ∧ (fieldAt t 2 1 = 2 → u.chip.fw.claims ≠ 0) ∧ u.chip.fw.busy = false ∧ u.moving = false
      ∧ fieldAt t 2 1 ≠ 5 :=
  ⟨cmd 0 [(0, 281474976710656)], wr (up0.onFw fun f => { f with nonce := some 7 }) 281474976710656 (flds [(0, 1), (2, 3), (8,
      9), (0x10, 7)]), dropTaken (cmd 0 [(0, 281474976710656)]) (wr (up0.onFw fun f => { f with nonce := some 7 })
      281474976710656 (flds [(0, 1), (2, 3), (8, 9), (0x10, 7)])), .provisioned, demo.chip.fw.ownerKey, runs_of
      (by decide +kernel), by decide +kernel, by decide +kernel, by decide +kernel, by decide +kernel, by decide +kernel,
      by decide +kernel, (show _ = 9 by decide +kernel).trans (congrArg BitVec.toNat hn).symm, by decide +kernel, hs _ _ _,
      by decide +kernel⟩

/-- The hypotheses of PowerEventsTakeEffect hold together, clause by clause. -/
theorem test_meets_powerEventsTakeEffect :
    (∃ s : State, s.chip.power.pstate ≠ 0 ∧ s.chip.power.target = none) ∧
    (∃ s : State, ∃ port : BitVec 2, s.chip.power.pstate = 3 ∧ s.chip.power.target = none ∧ (s.port (64 + port.toNat)).state =
      .dark ∧ s.chip.power.bounds.wake.getLsbD port.toNat = true) ∧
    (∃ s : State, ∃ x, s.chip.power.target = some x ∧ s.chip.power.exiting = false ∧ s.chip.power.wakeLatch = false) ∧
    (∃ s : State, s.chip.power.exiting = true) ∧
    (∃ s : State, s.off = false ∧ s.chip.power.pstate ≠ 0) ∧
    (∃ w : Nat, ∃ s : State, s.off = false ∧ s.chip.power.pstate = 0 ∧ s.chip.power.bounds.envelope < w) ∧
    (∃ die : BitVec 3, ∃ s : State, ∃ x : Nat, ∃ to_ : Nat, s.off = false ∧ tget s.chip.power.rising die.toNat = some to_ ∧
      s.chip.power.div[die.toNat]? = some x) ∧
    (∃ i : BitVec 3, ∃ s : State, s.off = false ∧ i.toNat < s.chip.power.div.length ∧ (∀ x ∈ s.chip.power.override.dies, x.1 ≠
      i.toNat)) ∧
    (∃ i : BitVec 3, ∃ n : BitVec 2, ∃ s : State, s.off = false ∧ i.toNat < s.chip.power.div.length ∧ (i.toNat, n.toNat) ∈
      s.chip.power.override.dies) ∧
    (∃ s : State, s.off = false ∧ s.chip.power.override.current = false ∧ s.chip.power.div.length = 8) ∧
    (∃ s : State, s.off = false ∧ s.chip.power.override.current = true) :=
  ⟨⟨demo.onPower fun p => { p with pstate := 1 }, by decide +kernel⟩,
   ⟨(demo.onPower fun p => { p with pstate := 3 }).onPort 67 fun q => { q with state := .dark }, 3, by decide +kernel⟩,
   ⟨demo.onPower fun p => { p with target := some 1 }, 1, by decide +kernel⟩,
   ⟨demo.onPower fun p => { p with exiting := true }, by decide +kernel⟩,
   ⟨demo.onPower fun p => { p with pstate := 1 }, by decide +kernel⟩,
   ⟨6001, demo, by decide +kernel⟩,
   ⟨7, demo.onPower fun p => { p with div := List.replicate 8 5, rising := [(7, 4)] }, 5, 4, by decide +kernel⟩,
   ⟨7, demo, by decide +kernel⟩,
   ⟨7, 3, demo.onPower fun p => { p with override := { Override.none with dies := [(7, 3)] } }, by decide +kernel⟩,
   ⟨demo, by decide +kernel⟩,
   ⟨demo.onPower fun p => { p with override := { Override.none with current := true } }, by decide +kernel⟩⟩

/-- The hypotheses of ResetsStartUpAndFunctionsTakeEffect hold together, clause by clause. -/
theorem test_meets_resetsStartUpAndFunctionsTakeEffect :
    (∃ s : State, s.chip.power.inputPresent = true ∧ s.chip.power.tripped = false) ∧
    (∃ s : State, s.chip.power.inputPresent = false) ∧
    (∃ s : State, ∃ k, s.chip.power.resetting = some k) ∧
    (∃ s : State, ∃ x, s.chip.fw.activation = some x ∧ x.left.headD 0 ≠ 2) ∧
    (∃ s : State, ∃ x, s.chip.fw.activation = some x ∧ ∃ g, ∃ g', ∃ rest, x.left.headD 0 = 2 ∧ x.groups = g :: g' :: rest) ∧
    (∃ fn : BitVec 10, ∃ s : State, s.off = false ∧ s.fnExists fn.toNat = true ∧ (s.acct fn.toNat).state = .enabled ∧ fn.toNat
      < s.mail.funcs.length) ∧
    (∃ port : BitVec 2, ∃ s : State, s.off = false ∧ port.toNat < s.chip.links.length ∧ (s.link port.toNat).up = true) ∧
    (∃ port : BitVec 2, ∃ s : State, s.off = false ∧ port.toNat < s.chip.links.length) ∧
    (∃ a : BitVec 10, ∃ s : State, (s.acct a.toNat).state = .stopping ∧ a.toNat < s.ten.accts.length) :=
  ⟨⟨demo, by decide +kernel⟩,
   ⟨power fun p => { p with inputPresent := false }, by decide +kernel⟩,
   ⟨power fun p => { p with resetting := some .warm }, .warm, by decide +kernel⟩,
   ⟨demo.onFw fun f => { f with activation := some { activating with left := [0], groups := [] } },
      { activating with left := [0], groups := [] }, by decide +kernel⟩,
   ⟨demo.onFw fun f => { f with activation := some activating }, activating, by decide +kernel, 0, 1, [], by decide +kernel⟩,
   ⟨0, demo, by decide +kernel⟩,
   ⟨3, demo.onLink 3 fun l => { l with up := true }, by decide +kernel⟩,
   ⟨3, demo, by decide +kernel, by decide +kernel⟩,
   ⟨1, demo.onAcct 1 fun a => { a with state := .stopping }, by decide +kernel⟩⟩

/-- The hypotheses of PortAndBeaconCommandsComplete hold together, clause by clause. -/
theorem test_meets_portAndBeaconCommandsComplete :
    (∃ c : Cmd, ∃ s : State, ∃ u : State, Runs 0xB01 c s u ∧ cmdTail c 16 = true ∧ cmdZ c 1 7 = true ∧ cmdU c 0 1 < 69 ∧
      addrOk (cmdU c 8 8) = true ∧ (if cmdU c 0 1 < 64 then mayPort c (cmdU c 0 1) u else if cmdU c 0 1 < 68 then portOf (cmdA
      c) == cmdU c 0 1 - 64 else mayBeacon c u) = true ∧ u.inAccount (cmdA c) (cmdU c 8 8) 64 = true ∧ u.writes (cmdU c 8 8)
      64 = true) ∧
    (∃ c : Cmd, ∃ s : State, ∃ u : State, Runs 0xB02 c s u ∧ cmdTail c 8 = true ∧ cmdZ c 1 1 = true ∧ cmdZ c 6 2 = true ∧ cmdU
      c 0 1 < 68 ∧
    let lo := BitVec.ofNat 16 (cmdU c 2 2)
    
    let hi := BitVec.ofNat 16 (cmdU c 4 2)
    boundOk lo = true ∧ boundOk hi = true ∧ lo.toInt ≤ hi.toInt ∧ mayPort c (cmdU c 0 1) u = true ∧ cmdU c 0 1 <
      u.chip.ports.length) ∧
    (∃ c : Cmd, ∃ s : State, ∃ u : State, Runs 0xB03 c s u ∧ cmdTail c 8 = true ∧ cmdZ c 2 6 = true ∧ cmdU c 0 1 < 64 ∧
      mayPort c (cmdU c 0 1) u = true ∧ cmdU c 0 1 < u.chip.ports.length ∧ cmdU c 1 1 = 0 ∧ portMoving u (cmdU c 0 1) = false
      ∧ (u.port (cmdU c 0 1)).causes = []) ∧
    (∃ c : Cmd, ∃ s : State, ∃ u : State, Runs 0xB03 c s u ∧ cmdTail c 8 = true ∧ cmdZ c 2 6 = true ∧ cmdU c 0 1 < 64 ∧
      mayPort c (cmdU c 0 1) u = true ∧ cmdU c 0 1 < u.chip.ports.length ∧ cmdU c 1 1 = 0 ∧ portMoving u (cmdU c 0 1) = false
      ∧ (u.port (cmdU c 0 1)).causes ≠ [] ∧ 2 ∉ (u.port (cmdU c 0 1)).causes) ∧
    (∃ c : Cmd, ∃ s : State, ∃ u : State, Runs 0xB03 c s u ∧ cmdTail c 8 = true ∧ cmdZ c 2 6 = true ∧ cmdU c 0 1 < 64 ∧
      mayPort c (cmdU c 0 1) u = true ∧ cmdU c 0 1 < u.chip.ports.length ∧ cmdU c 1 1 = 1 ∧ (u.port (cmdU c 0 1)).causes =
      [2]) ∧
    (∃ c : Cmd, ∃ s : State, ∃ u : State, Runs 0xB04 c s u ∧ cmdTail c 16 = true ∧ cmdZ c 4 4 = true ∧ addrRange c = true ∧
      addrOk (cmdU c 8 8) = true ∧ mayBeacon c u = true ∧ u.inAccount (cmdA c) (cmdU c 8 8) (16 * cmdU c 2 2) = true ∧
      u.writes (cmdU c 8 8) (16 * cmdU c 2 2) = true) ∧
    (∃ c : Cmd, ∃ s : State, ∃ u : State, Runs 0xB05 c s u ∧ cmdTail c 4 = true ∧ cmdU c 0 2 / 2 ^ 13 % 4 = 0 ∧ mayBeacon c u
      = true ∧ u.chip.fabric.addr ≠ none ∧ (cmdU c 2 1 = 1 ∧ cmdU c 3 1 = 0 ∨ cmdU c 2 1 = 2 ∧ 1 ≤ cmdU c 3 1 ∧ cmdU c 3 1 ≤
      3)) :=
  ⟨⟨cmd 0 [(0, 68), (8, 0x2000)], demo, dropTaken (cmd 0 [(0, 68), (8, 0x2000)]) demo, runs_of (by decide +kernel),
      by decide +kernel⟩,
   ⟨cmd 0 [(0, 67), (2, 0xFF38), (4, 300)], demo, dropTaken (cmd 0 [(0, 67), (2, 0xFF38), (4, 300)]) demo, runs_of
      (by decide +kernel), by decide +kernel, by decide +kernel, by decide +kernel, by decide +kernel, by decide +kernel⟩,
   ⟨cmd 0 [(0, 63)], lit 63 id, dropTaken (cmd 0 [(0, 63)]) (lit 63 id), runs_of (by decide +kernel), by decide +kernel⟩,
   ⟨cmd 0 [(0, 63)], demo.onPort 63 fun x => { x with causes := [3] }, dropTaken (cmd 0 [(0, 63)]) (demo.onPort 63 fun x =>
      { x with causes := [3] }), runs_of (by decide +kernel), by decide +kernel⟩,
   ⟨cmd 0 [(0, 63), (1, 1)], demo.onPort 63 fun x => { x with causes := [2] }, dropTaken (cmd 0 [(0, 63), (1, 1)])
      (demo.onPort 63 fun x => { x with causes := [2] }), runs_of (by decide +kernel), by decide +kernel⟩,
   ⟨cmd 0 [(0, 8191), (2, 1), (8, 0x2000)], demo, dropTaken (cmd 0 [(0, 8191), (2, 1), (8, 0x2000)]) demo, runs_of
      (by decide +kernel), by decide +kernel⟩,
   ⟨cmd 0 [(0, 8191), (2, 2), (3, 3)], fabric fun f => { f with addr := some 5 }, dropTaken (cmd 0 [(0, 8191), (2, 2), (3,
      3)]) (fabric fun f => { f with addr := some 5 }), runs_of (by decide +kernel), by decide +kernel, by decide +kernel,
      by decide +kernel, by decide +kernel, .inr (by decide +kernel)⟩⟩

/-- The hypotheses of PortEventsTakeEffect hold together, clause by clause. -/
theorem test_meets_portEventsTakeEffect :
    (∃ port : BitVec 6, ∃ s : State, port.toNat < s.chip.ports.length ∧ 
    let p := port.toNat
    
    let x := s.port p
    
    let recent := (x.recent.filter fun t => decide (s.mtime.toNat < t.toNat + 1000000)) ++ [s.mtime]
    recent.length ≤ 16 ∧ x.cause = 0) ∧
    (∃ port : BitVec 6, ∃ s : State, port.toNat < s.chip.ports.length ∧ 
    let p := port.toNat
    
    let x := s.port p
    
    let recent := (x.recent.filter fun t => decide (s.mtime.toNat < t.toNat + 1000000)) ++ [s.mtime]
    16 < recent.length ∧ x.cause = 0) ∧
    (∃ port : BitVec 6, ∃ s : State, port.toNat < s.chip.ports.length ∧ 
    let p := port.toNat
    
    let x := s.port p
    x.cause = 0 ∧ x.state = .seeking) ∧
    (∃ port : BitVec 6, ∃ s : State, port.toNat < s.chip.ports.length ∧ 
    let p := port.toNat
    
    let x := s.port p
    
    let x := (lightUp s).port p
    x.cause = 0 ∧ x.override = false ∧ x.offA = 0 ∧ x.offB = 0 ∧ s.chip.fabric.addr ≠ none ∧ x.lo.toInt ≤ x.hi.toInt) ∧
    (∃ port : BitVec 7, ∃ s : State, port.toNat < 68 ∧ port.toNat < s.chip.ports.length ∧ (s.port port.toNat).cause = 0) ∧
    (∃ port : BitVec 7, ∃ s : State, port.toNat < 68 ∧ port.toNat < s.chip.ports.length ∧ s.off = false) ∧
    (∃ port : BitVec 2, ∃ s : State, port.toNat < s.chip.links.length ∧ 64 + port.toNat < s.chip.ports.length ∧ 
    let n := port.toNat
    (s.link n).up = true) ∧
    (∃ port : BitVec 2, ∃ s : State, port.toNat < s.chip.links.length ∧ 64 + port.toNat < s.chip.ports.length ∧ 
    let n := port.toNat
    ∃ rate : BitVec 3, ∃ width : BitVec 2, ∃ flit : Bool, 1 ≤ rate.toNat ∧ rate.toNat ≤ 4 ∧ width ≠ 0 ∧ flit = decide (3 ≤
      rate.toNat) ∧
    let x := (lightUp s).port (64 + n)
    x.cause = 0 ∧ x.override = false ∧ x.offA = 0 ∧ x.offB = 0) ∧
    (∃ port : BitVec 2, ∃ s : State, port.toNat < s.chip.links.length ∧ 64 + port.toNat < s.chip.ports.length ∧ 
    let n := port.toNat
    ∃ x, (s.link n).outage = some x) ∧
    (∃ port : BitVec 2, ∃ s : State, port.toNat < s.chip.links.length ∧ 64 + port.toNat < s.chip.ports.length ∧ 
    let n := port.toNat
    ((lightUp s).port (64 + n)).cause = 0) ∧
    (∃ dst : BitVec 13, ∃ s : State, 
    let v := (s.pkgs.filterMap fun p => if !p.running then none else
      (p.descs.find? fun d => waitsRoute s p d dst.toNat).map fun d => (p.id, p.die d)).foldl (fun s x => structFail x.1 x.2
      s) s
    
    let w := dropRouteWaits dst.toNat v
    ∃ x ∈ w.chip.fabric.waits, x.msg.dst = dst.toNat) :=
  ⟨⟨63, lit 63 id, by decide +kernel, by decide +kernel⟩,
   ⟨63, lit 63 fun x => { x with recent := List.replicate 16 1000 }, by decide +kernel, by decide +kernel⟩,
   ⟨63, lit 63 fun x => { x with state := .seeking }, by decide +kernel, by decide +kernel⟩,
   ⟨63, (lit 63 id).onFabric fun f => { f with addr := some 5 }, by decide +kernel, by decide +kernel⟩,
   ⟨67, lit 67 id, by decide +kernel, by decide +kernel, by decide +kernel⟩,
   ⟨67, lit 67 id, by decide +kernel⟩,
   ⟨3, demo.onLink 3 fun l => { l with up := true }, by decide +kernel, by decide +kernel, by decide +kernel⟩,
   ⟨3, lit 67 id, by decide +kernel, by decide +kernel, 4, 3, true, by decide +kernel, by decide +kernel, by decide +kernel,
      by decide +kernel, by decide +kernel⟩,
   ⟨3, demo.onLink 3 fun l => { l with outage := some (0, false) }, by decide +kernel, by decide +kernel, (0, false),
      by decide +kernel⟩,
   ⟨3, lit 67 id, by decide +kernel, by decide +kernel, by decide +kernel⟩,
   ⟨9, fabric fun f => { f with waits := [⟨none, ⟨5, 9, 7, 3, 0, 15, []⟩, 0⟩] }, ⟨none, ⟨5, 9, 7, 3, 0, 15, []⟩, 0⟩,
      by decide +kernel, by decide +kernel⟩⟩

/-- The hypotheses of BeaconFramesTakeEffect hold together, clause by clause. -/
theorem test_meets_beaconFramesTakeEffect :
    (∃ frame : BitVec 512, ∃ s : State, s.chip.power.inputPresent = true ∧ 
    let b := leBytes 64 frame.toNat
    (frameCrcOk b = false ∨ frameFieldsOk b = false)) ∧
    (∃ frame : BitVec 512, ∃ s : State, s.chip.power.inputPresent = true ∧ 
    let b := leBytes 64 frame.toNat
    frameCrcOk b = true ∧ frameFieldsOk b = true ∧ s.chip.fabric.addr ≠ some (fieldAt b 4 2) ∧ fieldAt b 0 1 = 1 ∧
      s.chip.fabric.addr = none ∧ fieldAt b 0xC 2 < 8191) ∧
    (∃ frame : BitVec 512, ∃ s : State, s.chip.power.inputPresent = true ∧ 
    let b := leBytes 64 frame.toNat
    frameCrcOk b = true ∧ frameFieldsOk b = true ∧ s.chip.fabric.addr ≠ some (fieldAt b 4 2) ∧ ∃ a, fieldAt b 0 1 = 1 ∧
      s.chip.fabric.addr = some a) ∧
    (∃ frame : BitVec 512, ∃ s : State, s.chip.power.inputPresent = true ∧ 
    let b := leBytes 64 frame.toNat
    frameCrcOk b = true ∧ frameFieldsOk b = true ∧ s.chip.fabric.addr ≠ some (fieldAt b 4 2) ∧ fieldAt b 0 1 = 2) ∧
    (∃ frame : BitVec 512, ∃ s : State, s.chip.power.inputPresent = true ∧ 
    let b := leBytes 64 frame.toNat
    frameCrcOk b = true ∧ frameFieldsOk b = true ∧ s.chip.fabric.addr ≠ some (fieldAt b 4 2) ∧ fieldAt b 0 1 = 3 ∧ frameForUs
      s b = true) ∧
    (∃ frame : BitVec 512, ∃ s : State, s.chip.power.inputPresent = true ∧ 
    let b := leBytes 64 frame.toNat
    frameCrcOk b = true ∧ frameFieldsOk b = true ∧ s.chip.fabric.addr ≠ some (fieldAt b 4 2) ∧ fieldAt b 0 1 = 4 ∧ frameForUs
      s b = true ∧ s.ten.modRight = none) ∧
    (∃ frame : BitVec 512, ∃ s : State, s.chip.power.inputPresent = true ∧ 
    let b := leBytes 64 frame.toNat
    frameCrcOk b = true ∧ frameFieldsOk b = true ∧ s.chip.fabric.addr ≠ some (fieldAt b 4 2) ∧ ∃ a, fieldAt b 0 1 = 4 ∧
      frameForUs s b = true ∧ s.ten.modRight = some a ∧ (s.acct a).remoteSleep = true ∧ (s.acct a).state = .enabled ∧ 1 ≤
      fieldAt b 0xC 1 ∧ fieldAt b 0xC 1 ≤ 3 ∧ s.chip.power.exiting = false ∧ s.engaged = false ∧ s.chip.power.pstate = 0 ∧
      s.chip.power.target = none) ∧
    (∃ frame : BitVec 512, ∃ s : State, s.chip.power.inputPresent = true ∧ 
    let b := leBytes 64 frame.toNat
    frameCrcOk b = true ∧ frameFieldsOk b = true ∧ s.chip.fabric.addr = some (fieldAt b 4 2) ∧ sentRecently s (fieldAt b 8 4)
      = true ∧ fieldAt b 0 1 = 3 ∧ frameForUs s b = true) ∧
    (∃ addr : BitVec 13, ∃ s : State, ∃ e : BeaconEntry, tget s.chip.beacon.table addr.toNat = some e) ∧
    (∃ s : State, s.chip.beacon.broken = false) ∧
    (∃ s : State, s.chip.beacon.broken = true) ∧
    (∃ s : State, ∃ x, s.chip.fabric.enumSent = some x) :=
  ⟨⟨0, demo, by decide +kernel, .inl (by decide +kernel)⟩,
   ⟨frame [(0, 1), (4, 1), (0xC, 8190)], demo, by decide +kernel, by decide +kernel⟩,
   ⟨frame [(0, 1), (4, 1), (0xC, 8190)], fabric fun f => { f with addr := some 5 }, by decide +kernel, by decide +kernel,
      by decide +kernel, by decide +kernel, 5, by decide +kernel⟩,
   ⟨frame [(0, 2), (4, 8191)], demo, by decide +kernel, by decide +kernel⟩,
   ⟨frame [(0, 3), (4, 1), (6, 2 ^ 15)], demo, by decide +kernel, by decide +kernel⟩,
   ⟨frame [(0, 4), (4, 1), (6, 2 ^ 15), (0xC, 1)], { demo with ten := { demo.ten with modRight := none } }, by decide +kernel,
      by decide +kernel⟩,
   ⟨frame [(0, 4), (4, 1), (6, 2 ^ 15), (0xC, 3)], demo.onAcct 0 fun a => { a with remoteSleep := true }, by decide +kernel,
      by decide +kernel, by decide +kernel, by decide +kernel, 0, by decide +kernel⟩,
   ⟨frame [(0, 3), (4, 5), (8, 1), (6, 2 ^ 15)], (fabric fun f => { f with addr := some 5 }).onBeacon fun b =>
      { b with sent := [(1, 1000)] }, by decide +kernel, by decide +kernel⟩,
   ⟨8191, beacon fun b => { b with table := [(8191, ⟨0, 0, 0, 0, 0, 0, 0, true⟩)] }, ⟨0, 0, 0, 0, 0, 0, 0, true⟩,
      by decide +kernel⟩,
   ⟨demo, by decide +kernel⟩,
   ⟨beacon fun b => { b with broken := true }, by decide +kernel⟩,
   ⟨fabric fun f => { f with enumSent := some 0 }, 0, by decide +kernel⟩⟩

/-- The hypotheses of FabricRoutesAndMessages hold together, clause by clause. -/
theorem test_meets_fabricRoutesAndMessages :
    (∃ c : Cmd, ∃ s : State, ∃ u : State, Runs 0xB10 c s u ∧ cmdTail c 0 = true ∧ u.hasModRight (cmdA c) = true ∧
      (u.chip.fabric.addr = none ∨ u.chip.fabric.addr = some 0)) ∧
    (∃ c : Cmd, ∃ s : State, ∃ u : State, Runs 0xB11 c s u ∧ cmdTail c 0 = true) ∧
    (∃ c : Cmd, ∃ s : State, ∃ u : State, cmdTail c 16 = true ∧ cmdZ c 4 4 = true ∧ addrRange c = true ∧ addrOk (cmdU c 8 8) =
      true ∧ u.inAccount (cmdA c) (cmdU c 8 8) (8 * cmdU c 2 2) = true ∧ Runs 0xB12 c s u ∧ u.hasModRight (cmdA c) = true ∧
      u.reads (cmdU c 8 8) (8 * cmdU c 2 2) = true ∧ (∀ b ∈ chunks 8 (u.read (cmdU c 8 8) (8 * cmdU c 2 2)), routeOf b ≠
      none)) ∧
    (∃ c : Cmd, ∃ s : State, ∃ u : State, cmdTail c 16 = true ∧ cmdZ c 4 4 = true ∧ addrRange c = true ∧ addrOk (cmdU c 8 8) =
      true ∧ u.inAccount (cmdA c) (cmdU c 8 8) (8 * cmdU c 2 2) = true ∧ Runs 0xB13 c s u ∧ u.writes (cmdU c 8 8) (8 * cmdU c
      2 2) = true) ∧
    (∃ job : Word, ∃ digest : DWord, ∃ table : List (BitVec 13), ∃ s : State, ∃ k : Nat, ∃ js : JobSlot, s.off = false ∧ tget
      s.chip.fabric.slots k = some js ∧ js.job = job ∧ Config.jkeyDigest js.jkey = digest ∧ js.table = table.map (·.toNat)) ∧
    (∃ src : BitVec 13, ∃ job : Word, ∃ s : State, s.off = false ∧ ∃ body : FabBody, (∀ d v l b, body ≠ .transit d v l b) ∧
      s.recipient src.toNat job = none) ∧
    (∃ s : State, s.off = false ∧ ∃ d : BitVec 13, ∃ l : BitVec 3, s.chip.fabric.addr ≠ some d.toNat ∧ l = 7) ∧
    (∃ s : State, s.off = false ∧ ∃ d : BitVec 13, ∃ l : BitVec 3, s.chip.fabric.addr ≠ some d.toNat ∧ l ≠ 7 ∧ noRoute s
      d.toNat = false) ∧
    (∃ src : BitVec 13, ∃ job : Word, ∃ s : State, s.off = false ∧ ∃ a : Nat, ∃ js : JobSlot, s.recipient src.toNat job = some
      (a, js)) :=
  ⟨⟨cmd 0 [], demo, dropTaken (cmd 0 []) demo, runs_of (by decide +kernel), by decide +kernel, by decide +kernel, .inl
      (by decide +kernel)⟩,
   ⟨cmd 0 [], demo, dropTaken (cmd 0 []) demo, runs_of (by decide +kernel), by decide +kernel⟩,
   ⟨cmd 0 [(0, 8191), (2, 1), (8, 0x2000)], wr demo 0x2000 (leBytes 8 0x01FFFFFF3F), dropTaken (cmd 0 [(0, 8191), (2, 1), (8,
      0x2000)]) (wr demo 0x2000 (leBytes 8 0x01FFFFFF3F)), by decide +kernel, by decide +kernel, by decide +kernel,
      by decide +kernel, by decide +kernel, runs_of (by decide +kernel), by decide +kernel⟩,
   ⟨cmd 0 [(0, 8191), (2, 1), (8, 0x2000)], demo, dropTaken (cmd 0 [(0, 8191), (2, 1), (8, 0x2000)]) demo, by decide +kernel,
      by decide +kernel, by decide +kernel, by decide +kernel, by decide +kernel, runs_of (by decide +kernel),
      by decide +kernel⟩,
   ⟨7, Config.jkeyDigest job.jkey, [5], inJob [] [], 0, job, by decide +kernel, by decide +kernel, by decide +kernel, rfl,
      by decide +kernel⟩,
   ⟨6, 7, inJob [] [], by decide +kernel, .other, fun _ _ _ _ h => (by cases h), by decide +kernel⟩,
   ⟨demo, by decide +kernel, 9, 7, by decide +kernel⟩,
   ⟨(lit 3 id).onFabric fun f => { f with routes := [(9, ⟨[3, 0xFF, 0xFF, 0xFF], 1⟩)] }, by decide +kernel, 9, 0,
      by decide +kernel⟩,
   ⟨5, 7, inJob [] [], by decide +kernel, 0, job, by decide +kernel⟩⟩

/-- The hypotheses of FabricJobCommandsComplete hold together, clause by clause. -/
theorem test_meets_fabricJobCommandsComplete :
    (∃ c : Cmd, ∃ s : State, ∃ u : State, ∃ i : Nat, Runs 0xB14 c s u ∧ cmdTail c 24 = true ∧ cmdU c 0 4 ≠ 0 ∧ 1 ≤ cmdU c 6 2
      ∧ cmdU c 6 2 ≤ 8192 ∧ addrOk (cmdU c 8 8) = true ∧ cmdU c 16 8 ≠ 0 ∧ cmdU c 4 2 < cmdU c 6 2 ∧ u.inAccount (cmdA c)
      (cmdU c 8 8) (4 * cmdU c 6 2) = true ∧ u.reads (cmdU c 8 8) (4 * cmdU c 6 2) = true ∧
    let job := BitVec.ofNat 32 (cmdU c 0 4)
    
    let table := (chunks 4 (u.read (cmdU c 8 8) (4 * cmdU c 6 2))).map leNat
    (∀ x ∈ table, x < 8192) ∧ u.chip.fabric.addr = some (table.getD (cmdU c 4 2) 0) ∧ (∀ x ∈ u.chip.fabric.slots, x.2.job ≠
      job) ∧ i < 16 ∧ tget u.chip.fabric.slots (cmdA c * 16 + i) = none ∧ (∀ j < i, tget u.chip.fabric.slots (cmdA c * 16 + j)
      ≠ none)) ∧
    (∃ c : Cmd, ∃ s : State, ∃ u : State, ∃ js : JobSlot, 
    let key := cmdA c * 16 + cmdU c 0 1
    cmdU c 0 1 < 16 ∧ tget u.chip.fabric.slots key = some js ∧ Runs 0xB15 c s u ∧ cmdTail c 1 = true ∧ (∀ x ∈ u.models,
      x.2.map.acct = cmdA c → x.2.map.job ≠ js.job) ∧ slotUsed u (cmdA c) (key % 16) = false) ∧
    (∃ c : Cmd, ∃ s : State, ∃ u : State, ∃ js : JobSlot, 
    let key := cmdA c * 16 + cmdU c 0 1
    cmdU c 0 1 < 16 ∧ tget u.chip.fabric.slots key = some js ∧ Runs 0xB16 c s u ∧ cmdTail c 16 = true ∧ cmdZ c 4 4 = true ∧ 1
      ≤ cmdU c 2 2 ∧ cmdU c 2 2 ≤ 8192 ∧ addrOk (cmdU c 8 8) = true ∧ u.inAccount (cmdA c) (cmdU c 8 8) (4 * cmdU c 2 2) =
      true ∧ u.reads (cmdU c 8 8) (4 * cmdU c 2 2) = true ∧
    let es := chunks 4 (u.read (cmdU c 8 8) (4 * cmdU c 2 2))
    (∀ b ∈ es, fieldAt b 3 1 = 0 ∧ fieldAt b 0 2 < js.table.length ∧ fieldAt b 2 1 < 8) ∧ (∀ r ∈ u.chip.fabric.rounds, r.job =
      js.job → r.group = cmdU c 1 1 → r.live u = true → r.result ≠ none)) ∧
    (∃ c : Cmd, ∃ s : State, ∃ u : State, ∃ js : JobSlot, 
    let key := cmdA c * 16 + cmdU c 0 1
    cmdU c 0 1 < 16 ∧ tget u.chip.fabric.slots key = some js ∧ Runs 0xB17 c s u ∧ cmdTail c 20 = true ∧ cmdZ c 3 1 = true ∧
      cmdZ c 6 2 = true ∧ cmdU c 1 1 < 64 ∧ cmdU c 2 1 < (u.acctDies (cmdA c)).length ∧ addrOk (cmdU c 12 8) = true ∧ cmdU c 4
      2 < (u.acct (cmdA c)).quota.sems ∧ cmdU c 8 4 = 0) ∧
    (∃ c : Cmd, ∃ s : State, ∃ u : State, ∃ js : JobSlot, 
    let key := cmdA c * 16 + cmdU c 0 1
    cmdU c 0 1 < 16 ∧ tget u.chip.fabric.slots key = some js ∧ Runs 0xB17 c s u ∧ cmdTail c 20 = true ∧ cmdZ c 3 1 = true ∧
      cmdZ c 6 2 = true ∧ cmdU c 1 1 < 64 ∧ cmdU c 2 1 < (u.acctDies (cmdA c)).length ∧ addrOk (cmdU c 12 8) = true ∧ cmdU c 4
      2 < (u.acct (cmdA c)).quota.sems ∧ ∃ o, cmdU c 8 4 ≠ 0 ∧ (locOf (cmdU c 12 8) = some (.hbm (u.physDie (cmdA c) (cmdU c 2
      1)) o) ∨ locOf (cmdU c 12 8) = some (.dieSram (u.physDie (cmdA c) (cmdU c 2 1)) o)) ∧ u.inGrants (cmdA c) (cmdU c 12 8)
      (64 * cmdU c 8 4) = true) ∧
    (∃ c : Cmd, ∃ s : State, ∃ u : State, ∃ js : JobSlot, 
    let key := cmdA c * 16 + cmdU c 0 1
    cmdU c 0 1 < 16 ∧ tget u.chip.fabric.slots key = some js ∧ Runs 0xB18 c s u ∧ cmdTail c 1 = true) :=
  ⟨by refine ⟨cmd 0 [(0, 9), (6, 1), (8, 0x2000), (16, 1)], wr (fabric fun f => { f with addr := some 5 }) 0x2000 (leBytes 4
      5), dropTaken (cmd 0 [(0, 9), (6, 1), (8, 0x2000), (16, 1)]) (wr (fabric fun f => { f with addr := some 5 }) 0x2000
      (leBytes 4 5)), 0, runs_of (by decide +kernel), ?_, ?_, ?_, ?_, ?_, ?_, ?_, ?_, ?_, ?_⟩ <;> decide +kernel,
   ⟨cmd 0 [], inJob [] [], dropTaken (cmd 0 []) (inJob [] []), job, by decide +kernel, by decide +kernel, runs_of
      (by decide +kernel), by decide +kernel⟩,
   ⟨cmd 0 [(1, 255), (2, 1), (8, 0x2000)], wr (inJob [] []) 0x2000 (leBytes 4 (7 * 2 ^ 16)), dropTaken (cmd 0 [(1, 255), (2,
      1), (8, 0x2000)]) (wr (inJob [] []) 0x2000 (leBytes 4 (7 * 2 ^ 16))), job, by decide +kernel, by decide +kernel, runs_of
      (by decide +kernel), by decide +kernel, by decide +kernel, by decide +kernel, by decide +kernel, by decide +kernel,
      by decide +kernel, by decide +kernel, by decide +kernel⟩,
   ⟨cmd 0 [(1, 63), (2, 1), (4, 3)], inJob [] [], dropTaken (cmd 0 [(1, 63), (2, 1), (4, 3)]) (inJob [] []), job,
      by decide +kernel, by decide +kernel, runs_of (by decide +kernel), by decide +kernel⟩,
   ⟨cmd 0 [(1, 63), (8, 1), (12, 0x8000)], inJob [] [], dropTaken (cmd 0 [(1, 63), (8, 1), (12, 0x8000)]) (inJob [] []), job,
      by decide +kernel, by decide +kernel, runs_of (by decide +kernel), by decide +kernel, by decide +kernel,
      by decide +kernel, by decide +kernel, by decide +kernel, by decide +kernel, by decide +kernel, 0x8000,
      by decide +kernel, .inl (by decide +kernel), by decide +kernel⟩,
   ⟨cmd 0 [], inJob [] [], dropTaken (cmd 0 []) (inJob [] []), job, by decide +kernel, by decide +kernel, runs_of
      (by decide +kernel), by decide +kernel⟩⟩

/-- The hypotheses of MemoryStaysCanonicalAndQueueServed hold together. -/
theorem test_meets_memoryStaysCanonicalAndQueueServed :
    ∃ s : State, ∃ t : State, step s = .next t ∧ s.mem.wf :=
  ⟨wr demo 0x2000 [1], nextOf (step (wr demo 0x2000 [1])), next_of (by decide +kernel), by decide +kernel⟩

/-- The hypotheses of ModuleTimeRuns hold together, clause by clause. -/
theorem test_meets_moduleTimeRuns :
    (∃ s : State, s.pending = []) ∧
    (∃ i : Instr, ∃ s : State, ∃ t : State, exec i s = .next t ∧ i ≠ .powerInputEnter) :=
  ⟨⟨demo, by decide +kernel⟩,
   ⟨.powerInputLoss, demo, nextOf (exec .powerInputLoss demo), next_of (by decide +kernel), by decide +kernel⟩⟩

/-- The hypotheses of FusesAndOwnerLockHold hold together, clause by clause. -/
theorem test_meets_fusesAndOwnerLockHold :
    (∃ i : Instr, ∃ s : State, ∃ t : State, exec i s = .next t ∧ s.chip.fw.startFuse = true) ∧
    (∃ i : Instr, ∃ s : State, ∃ t : State, exec i s = .next t ∧ s.chip.fw.lifecycle = .decommissioned) ∧
    (∃ i : Instr, ∃ s : State, ∃ t : State, exec i s = .next t ∧ (∀ c, i ≠ .lcChange c) ∧ s.chip.fw.lock = true) :=
  ⟨⟨.acctQuery (cmd 0 []), demo.onFw fun f => { f with startFuse := true }, nextOf (exec (.acctQuery (cmd 0 [])) (demo.onFw
      fun f => { f with startFuse := true })), next_of (by decide +kernel), by decide +kernel⟩,
   ⟨.acctQuery (cmd 0 []), demo.onFw fun f => { f with lifecycle := .decommissioned }, nextOf (exec (.acctQuery (cmd 0 []))
      (demo.onFw fun f => { f with lifecycle := .decommissioned })), next_of (by decide +kernel), by decide +kernel⟩,
   ⟨.acctQuery (cmd 0 []), demo.onFw fun f => { f with lock := true }, nextOf (exec (.acctQuery (cmd 0 [])) (demo.onFw fun f
      => { f with lock := true })), next_of (by decide +kernel), fun _ h => (by cases h), by decide +kernel⟩⟩

/-- The hypotheses of HbmViewsReachTheSameBytes hold together. -/
theorem test_meets_hbmViewsReachTheSameBytes :
    ∃ n : Nat, ∃ m : Nat, ∃ o : Nat, n < 8 ∧ m < 4 ∧ o < 24 * 2 ^ 30 :=
  ⟨7, 3, 24 * 2 ^ 30 - 1, by decide +kernel⟩

/-! ## Ill-formed commands -/

/-- Register and aperture accesses out of range, a latch of a scope that is not there. -/
theorem test_ill_formed_access :
    [Instr.registerWrite 0 0 [], .registerWrite 0 0xFFFFF [0, 0], .cntValLowRead 0 9 0, .apertureRead 0 0 0,
      .apertureRead 0 0 4097, .apertureWrite 0 0 [], .apertureWrite 0 0 (List.replicate 4097 0), .sampleLatch 9].all
      (fun i => !i.wf) = true := by decide +kernel

/-- Semaphore zero, a conversion that is not there, V31 as one of a pair. -/
theorem test_ill_formed_vector :
    [Instr.semwait ⟨0, 0⟩ 0 0, .semsignal ⟨0, 0⟩ 0, .vcvt ⟨0, 0⟩ 0 0 .fp32 .fp32 15 0, .vmxPack ⟨0, 0⟩ 31 0 .e4m3 0,
      .vmxUnpack ⟨0, 0⟩ 0 31 .e4m3 0].all (fun i => !i.wf) = true := by decide +kernel

/-- Ledger registers of the wrong kind, and anchors of more than 13 bits. -/
theorem test_ill_formed_ledger :
    [Instr.ldgMov 0 0x0A 0, .ldgAdd 0 0x31 0x20 0x20, .ldgSub 0 0x32 0 0x20, .ldgMul 0 0x32 0x20 0, .ldgFma 0 0 0 0 0x11,
      .ldgDiv 0 0x40 0 0, .ldgSqrt 0 0 0x40, .ldgMin 0 0x0B 0 0, .ldgMax 0 0x11 0 0, .ldgFn 0 0x0A 0 .exp, .sign 0 0x31 0x20,
      .sel 0 0 0 0 0x40, .abs 0 0x32 0, .rsum 0 0 0 .block 0, .rdot 0 0x32 0 0x20 .block 0, .rmax 0 0x32 0x20 .block,
      .gram 0 0 0 false 0, .qema 0 0x40 0 0x20 0x20, .mml 0 0 0 0 false 0, .mmr 0 0 0x40 0 false 0x2000, .cir 0 0x40 0x40 0,
      .nsnorm 0 0x32 0 0, .nsstep 0 0 0 0x3E 0].all (fun i => !i.wf) = true := by decide +kernel

/-- Units and ports that are not there, link rates and widths, measures, and a member that contributes twice. -/
theorem test_ill_formed_event :
    [Instr.unitLost 1 8, .unitFence 7 0 0 0, .unitFence 1 0 3 0, .reconciliation 0 0 true 0 0, .laserProtect 68 0 false,
      .laserFault 68 0, .hostLinkUp 0 0 1 false false, .hostLinkUp 0 5 1 false false, .hostLinkUp 0 1 0 false false,
      .governorEval [] [] 0, .roundComplete ⟨⟨0, 0⟩, 0⟩ [(0, []), (0, [])]].all (fun i => !i.wf) = true := by decide +kernel

end Sys2Proof.Tests
end

section
/-!
PROOFS. No command ends in a fault or a refusal: the shared forms of a meaning answer a next state, so does every branch of the
meanings that stand alone, and the dispatch has nothing else.
-/
namespace Sys2Proof.Machine

/-! ## Shared forms -/

/-- A word of a vector program issues, or leaves the state as it is. -/
theorem hartOp_next (h : Hart) (i : Instr) (s : State) (k : Thread → State → State) : ∃ t, hartOp h i s k = .next t := by
  fun_cases hartOp h i s k <;> exact ⟨_, rfl⟩

theorem scalarOp_next (h : Hart) (i : Instr) (s : State) (f : Thread → Thread) : ∃ t, scalarOp h i s f = .next t :=
  hartOp_next _ _ _ _

theorem vectorOp_next (h : Hart) (i : Instr) (s : State) (f : Thread → Core → Core) : ∃ t, vectorOp h i s f = .next t :=
  hartOp_next _ _ _ _

theorem intForm_next (op : IntOp) (h : Hart) (i : Instr) (d a b : BitVec 5) (s : State) :
    ∃ t, intForm op h i d a b s = .next t := scalarOp_next _ _ _ _

theorem fpForm_next (op : Val → Val → Val) (h : Hart) (i : Instr) (d a b : BitVec 5) (s : State) :
    ∃ t, fpForm op h i d a b s = .next t := scalarOp_next _ _ _ _

theorem fpTest_next (op : Val → Val → Bool) (h : Hart) (i : Instr) (d a b : BitVec 5) (s : State) :
    ∃ t, fpTest op h i d a b s = .next t := scalarOp_next _ _ _ _

theorem vecBin_next (h : Hart) (i : Instr) (fmt : VFmt) (d a : BitVec 5) (b : VSrc) (pm : BitVec 3) (op : Val → Val → Val)
    (s : State) : ∃ t, vecBin h i fmt d a b pm op s = .next t := vectorOp_next _ _ _ _

theorem maskForm_next (f : Bool → Bool → Bool) (h : Hart) (i : Instr) (d a b pm : BitVec 3) (s : State) :
    ∃ t, maskForm f h i d a b pm s = .next t := vectorOp_next _ _ _ _

theorem reduceMinMax_next (op : Val → Val → Val) (h : Hart) (i : Instr) (d a : BitVec 5) (pm : BitVec 3) (join : Bool)
    (s : State) : ∃ t, reduceMinMax op h i d a pm join s = .next t := hartOp_next _ _ _ _

/-- A row of a collective moves its round on, or leaves the state as it is. -/
theorem collectRow_next (op : Nat) (d : DescId) (s : State) : ∃ t, collectRow op d s = .next t := by
  fun_cases collectRow op d s <;> exact ⟨_, rfl⟩

/-- A signal that finds no room on the network waits; any other is a word that issues. -/
theorem execSemsignal_next (h : Hart) (imm : BitVec 8) (s : State) : ∃ t, execSemsignal h imm s = .next t := by
  fun_cases execSemsignal h imm s
  case case1 => exact ⟨_, rfl⟩
  case case2 => exact hartOp_next _ _ _ _

/-- A conversion is a word that issues. -/
theorem execVcvt_next (h : Hart) (d a : BitVec 5) (src dst : SFmt) (cvt : BitVec 4) (pm : BitVec 3) (s : State) :
    ∃ t, execVcvt h d a src dst cvt pm s = .next t := by
  unfold execVcvt
  exact hartOp_next _ _ _ _

/-- PWR_RESET of a tripped module goes past the mailbox; any other takes the common course. -/
theorem execPwrReset_next (c : Cmd) (s : State) : ∃ t, execPwrReset c s = .next t := by
  fun_cases execPwrReset c s
  case case1 => exact ⟨_, rfl⟩
  case case2 => exact runCmd_next _ _ _ _

/-- The firmware accepts the command whose turn it is, or leaves the state as it is. -/
theorem execFirmwareAccept_next (s : State) : ∃ t, execFirmwareAccept s = .next t := by
  unfold execFirmwareAccept
  split <;> exact ⟨_, rfl⟩

/-! ## The branches of the other rows, chapter by chapter -/

/-! ### Memory, pages and tenancy -/

theorem execDemotion_next (slot : BitVec 6) (member : BitVec 5) (s : State) : ∃ t, execDemotion slot member s = .next t := by
  fun_cases execDemotion slot member s <;> exact ⟨_, rfl⟩

theorem execFunctionStopDone_next (acct : BitVec 10) (s : State) : ∃ t, execFunctionStopDone acct s = .next t := by
  fun_cases execFunctionStopDone acct s <;> exact ⟨_, rfl⟩

/-! ### The mailbox and the registers -/

theorem execCommandTake_next (port : BitVec 2) (s : State) : ∃ t, execCommandTake port s = .next t := by
  fun_cases execCommandTake port s <;> exact ⟨_, rfl⟩

theorem execRegisterWrite_next (fn : BitVec 10) (off : BitVec 20) (data : Bytes) (s : State) :
    ∃ t, execRegisterWrite fn off data s = .next t := by
  fun_cases execRegisterWrite fn off data s <;> exact ⟨_, rfl⟩
theorem execCntValLowRead_next (fn : BitVec 10) (scope : BitVec 4) (index : BitVec 5) (s : State) :
    ∃ t, execCntValLowRead fn scope index s = .next t := by
  fun_cases execCntValLowRead fn scope index s <;> exact ⟨_, rfl⟩
theorem execApertureRead_next (fn : BitVec 10) (off : BitVec 36) (len : Nat) (s : State) :
    ∃ t, execApertureRead fn off len s = .next t := by
  fun_cases execApertureRead fn off len s <;> exact ⟨_, rfl⟩
theorem execApertureWrite_next (fn : BitVec 10) (off : BitVec 36) (data : Bytes) (s : State) :
    ∃ t, execApertureWrite fn off data s = .next t := by
  fun_cases execApertureWrite fn off data s <;> exact ⟨_, rfl⟩

/-! ### Work packages, tiles and collectives -/

theorem execPackageStart_next (p : PkgId) (s : State) : ∃ t, execPackageStart p s = .next t := by
  fun_cases execPackageStart p s <;> exact ⟨_, rfl⟩
theorem execDescriptorStart_next (d : DescId) (s : State) : ∃ t, execDescriptorStart d s = .next t := by
  fun_cases execDescriptorStart d s <;> exact ⟨_, rfl⟩
theorem execVectorProgram_next (d : DescId) (s : State) : ∃ t, execVectorProgram d s = .next t := by
  fun_cases execVectorProgram d s <;> exact ⟨_, rfl⟩
theorem execXfer_next (d : DescId) (s : State) : ∃ t, execXfer d s = .next t := by
  fun_cases execXfer d s <;> exact ⟨_, rfl⟩
theorem execSync_next (d : DescId) (s : State) : ∃ t, execSync d s = .next t := by
  fun_cases execSync d s <;> exact ⟨_, rfl⟩
theorem execPrefetch_next (d : DescId) (s : State) : ∃ t, execPrefetch d s = .next t := by
  fun_cases execPrefetch d s <;> exact ⟨_, rfl⟩
theorem execDescriptorComplete_next (d : DescId) (s : State) : ∃ t, execDescriptorComplete d s = .next t := by
  fun_cases execDescriptorComplete d s <;> exact ⟨_, rfl⟩
theorem execRunLimitExpiry_next (p : PkgId) (s : State) : ∃ t, execRunLimitExpiry p s = .next t := by
  fun_cases execRunLimitExpiry p s <;> exact ⟨_, rfl⟩
theorem execVectorTimeLimit_next (core : BitVec 7) (s : State) : ∃ t, execVectorTimeLimit core s = .next t := by
  fun_cases execVectorTimeLimit core s <;> exact ⟨_, rfl⟩
theorem execBudgetExhausted_next (h : Hart) (s : State) : ∃ t, execBudgetExhausted h s = .next t := by
  fun_cases execBudgetExhausted h s <;> exact ⟨_, rfl⟩
theorem execForcedStop_next (p : PkgId) (s : State) : ∃ t, execForcedStop p s = .next t := by
  fun_cases execForcedStop p s <;> exact ⟨_, rfl⟩

theorem execTile_next (d : DescId) (s : State) : ∃ t, execTile d s = .next t := by
  fun_cases execTile d s <;> exact ⟨_, rfl⟩
theorem execTilePassEnd_next (d : DescId) (s : State) : ∃ t, execTilePassEnd d s = .next t := by
  fun_cases execTilePassEnd d s <;> exact ⟨_, rfl⟩

theorem execPut_next (d : DescId) (s : State) : ∃ t, execPut d s = .next t := by
  fun_cases execPut d s <;> exact ⟨_, rfl⟩
theorem execRoundComplete_next (d : DescId) (others : List (Nat × Bytes)) (s : State) :
    ∃ t, execRoundComplete d others s = .next t := by
  fun_cases execRoundComplete d others s <;> exact ⟨_, rfl⟩
theorem execRerunRequest_next (src : BitVec 13) (job : Word) (rkey : Word) (pass : BitVec 2) (s : State) :
    ∃ t, execRerunRequest src job rkey pass s = .next t := by
  fun_cases execRerunRequest src job rkey pass s <;> exact ⟨_, rfl⟩
theorem execPutLanded_next (src : BitVec 13) (job : Word) (drop : BitVec 6) (off : Nat) (data : Bytes) (s : State) :
    ∃ t, execPutLanded src job drop off data s = .next t := by
  fun_cases execPutLanded src job drop off data s <;> exact ⟨_, rfl⟩

/-! ### Sequences and generation -/

theorem execAdmitGrant_next (slot : BitVec 6) (s : State) : ∃ t, execAdmitGrant slot s = .next t := by
  fun_cases execAdmitGrant slot s <;> exact ⟨_, rfl⟩
theorem execImportDone_next (seq : BitVec 14) (ok : Bool) (s : State) : ∃ t, execImportDone seq ok s = .next t := by
  fun_cases execImportDone seq ok s <;> exact ⟨_, rfl⟩
theorem execPrefillLaunch_next (seq : BitVec 14) (s : State) : ∃ t, execPrefillLaunch seq s = .next t := by
  fun_cases execPrefillLaunch seq s <;> exact ⟨_, rfl⟩
theorem execFirstTokenCommit_next (seq : BitVec 14) (s : State) : ∃ t, execFirstTokenCommit seq s = .next t := by
  fun_cases execFirstTokenCommit seq s <;> exact ⟨_, rfl⟩
theorem execFrameStart_next (slot : BitVec 6) (s : State) : ∃ t, execFrameStart slot s = .next t := by
  fun_cases execFrameStart slot s <;> exact ⟨_, rfl⟩
theorem execFrameEnd_next (slot : BitVec 6) (s : State) : ∃ t, execFrameEnd slot s = .next t := by
  fun_cases execFrameEnd slot s <;> exact ⟨_, rfl⟩

theorem execWaveStart_next (slot : BitVec 6) (s : State) : ∃ t, execWaveStart slot s = .next t := by
  fun_cases execWaveStart slot s <;> exact ⟨_, rfl⟩
theorem execWaveCommit_next (slot : BitVec 6) (bad : List (BitVec 14)) (s : State) :
    ∃ t, execWaveCommit slot bad s = .next t := by
  fun_cases execWaveCommit slot bad s <;> exact ⟨_, rfl⟩
theorem execAdmitWaitExpiry_next (seq : BitVec 14) (s : State) : ∃ t, execAdmitWaitExpiry seq s = .next t := by
  fun_cases execAdmitWaitExpiry seq s <;> exact ⟨_, rfl⟩
theorem execLifetimeExpiry_next (seq : BitVec 14) (s : State) : ∃ t, execLifetimeExpiry seq s = .next t := by
  fun_cases execLifetimeExpiry seq s <;> exact ⟨_, rfl⟩
theorem execPauseLimitExpiry_next (seq : BitVec 14) (s : State) : ∃ t, execPauseLimitExpiry seq s = .next t := by
  fun_cases execPauseLimitExpiry seq s <;> exact ⟨_, rfl⟩
theorem execParkTtlExpiry_next (seq : BitVec 14) (s : State) : ∃ t, execParkTtlExpiry seq s = .next t := by
  fun_cases execParkTtlExpiry seq s <;> exact ⟨_, rfl⟩
theorem execEntryAutoRelease_next (seq : BitVec 14) (s : State) : ∃ t, execEntryAutoRelease seq s = .next t := by
  fun_cases execEntryAutoRelease seq s <;> exact ⟨_, rfl⟩
theorem execParkDone_next (seq : BitVec 14) (ok : Bool) (s : State) : ∃ t, execParkDone seq ok s = .next t := by
  fun_cases execParkDone seq ok s <;> exact ⟨_, rfl⟩
theorem execRestoreDone_next (seq : BitVec 14) (ok : Bool) (s : State) : ∃ t, execRestoreDone seq ok s = .next t := by
  fun_cases execRestoreDone seq ok s <;> exact ⟨_, rfl⟩

/-! ### Moving operations and the ledger -/

theorem execMovingOpStart_next (part : BitVec 3) (s : State) : ∃ t, execMovingOpStart part s = .next t := by
  fun_cases execMovingOpStart part s <;> exact ⟨_, rfl⟩
theorem execLoadSegment_next (slot : BitVec 6) (ok : Bool) (s : State) : ∃ t, execLoadSegment slot ok s = .next t := by
  fun_cases execLoadSegment slot ok s <;> exact ⟨_, rfl⟩
theorem execLoadLimitExpiry_next (slot : BitVec 6) (s : State) : ∃ t, execLoadLimitExpiry slot s = .next t := by
  fun_cases execLoadLimitExpiry slot s <;> exact ⟨_, rfl⟩
theorem execReshardSegment_next (slot : BitVec 6) (data : Option Bytes) (ok : Bool) (s : State) :
    ∃ t, execReshardSegment slot data ok s = .next t := by
  fun_cases execReshardSegment slot data ok s <;> exact ⟨_, rfl⟩
theorem execMintLayer_next (slot : BitVec 6) (s : State) : ∃ t, execMintLayer slot s = .next t := by
  fun_cases execMintLayer slot s <;> exact ⟨_, rfl⟩
theorem execTurnLimitExpiry_next (slot : BitVec 6) (s : State) : ∃ t, execTurnLimitExpiry slot s = .next t := by
  fun_cases execTurnLimitExpiry slot s <;> exact ⟨_, rfl⟩
theorem execInplaceDrainEnd_next (slot : BitVec 6) (s : State) : ∃ t, execInplaceDrainEnd slot s = .next t := by
  fun_cases execInplaceDrainEnd slot s <;> exact ⟨_, rfl⟩
theorem execOldEpochFree_next (slot : BitVec 6) (s : State) : ∃ t, execOldEpochFree slot s = .next t := by
  fun_cases execOldEpochFree slot s <;> exact ⟨_, rfl⟩
theorem execBarrierReport_next (r : Report) (s : State) : ∃ t, execBarrierReport r s = .next t := by
  fun_cases execBarrierReport r s <;> exact ⟨_, rfl⟩
theorem execBarrierDecision_next (d : Decision) (s : State) : ∃ t, execBarrierDecision d s = .next t := by
  fun_cases execBarrierDecision d s <;> exact ⟨_, rfl⟩
theorem execLearnLimitExpiry_next (slot : BitVec 6) (s : State) : ∃ t, execLearnLimitExpiry slot s = .next t := by
  fun_cases execLearnLimitExpiry slot s <;> exact ⟨_, rfl⟩

theorem execLfeed_next (d : DescId) (s : State) : ∃ t, execLfeed d s = .next t := by
  fun_cases execLfeed d s <;> exact ⟨_, rfl⟩
theorem execLayerPass1_next (slot : BitVec 6) (ld : BitVec 2) (layer : BitVec 16) (s : State) :
    ∃ t, execLayerPass1 slot ld layer s = .next t := by
  fun_cases execLayerPass1 slot ld layer s <;> exact ⟨_, rfl⟩
theorem execLedgerCombine_next (slot : BitVec 6) (layer : BitVec 16) (others : List WideMsg) (failed : List (BitVec 13 × BitVec 12))
    (s : State) :
    ∃ t, execLedgerCombine slot layer others failed s = .next t := by
  fun_cases execLedgerCombine slot layer others failed s <;> exact ⟨_, rfl⟩
theorem execLayerPass2_next (slot : BitVec 6) (ld : BitVec 2) (layer : BitVec 16) (s : State) :
    ∃ t, execLayerPass2 slot ld layer s = .next t := by
  fun_cases execLayerPass2 slot ld layer s <;> exact ⟨_, rfl⟩
theorem execMirrorTransfer_next (slot : BitVec 6) (shard : Nat) (data : Option (BitVec 13 × Bytes)) (s : State) :
    ∃ t, execMirrorTransfer slot shard data s = .next t := by
  fun_cases execMirrorTransfer slot shard data s <;> exact ⟨_, rfl⟩
theorem execFeedLimitExpiry_next (slot : BitVec 6) (s : State) : ∃ t, execFeedLimitExpiry slot s = .next t := by
  fun_cases execFeedLimitExpiry slot s <;> exact ⟨_, rfl⟩

/-! ### Secure copies and units -/

theorem execDrainCommit_next (slot : BitVec 6) (result : CopyEnd) (s : State) :
    ∃ t, execDrainCommit slot result s = .next t := by
  fun_cases execDrainCommit slot result s <;> exact ⟨_, rfl⟩
theorem execLaterLayerCopy_next (slot : BitVec 6) (result : CopyEnd) (s : State) :
    ∃ t, execLaterLayerCopy slot result s = .next t := by
  fun_cases execLaterLayerCopy slot result s <;> exact ⟨_, rfl⟩
theorem execDrainLimitExpiry_next (slot : BitVec 6) (s : State) : ∃ t, execDrainLimitExpiry slot s = .next t := by
  fun_cases execDrainLimitExpiry slot s <;> exact ⟨_, rfl⟩
theorem execCkptRestoreDone_next (slot : BitVec 6) (data : Option Bytes) (ok : Bool) (s : State) :
    ∃ t, execCkptRestoreDone slot data ok s = .next t := by
  fun_cases execCkptRestoreDone slot data ok s <;> exact ⟨_, rfl⟩

theorem execUnitLost_next (kind index : BitVec 8) (s : State) : ∃ t, execUnitLost kind index s = .next t := by
  fun_cases execUnitLost kind index s <;> exact ⟨_, rfl⟩
theorem execUnitFence_next (kind index data tag : BitVec 8) (s : State) :
    ∃ t, execUnitFence kind index data tag s = .next t := by
  fun_cases execUnitFence kind index data tag s <;> exact ⟨_, rfl⟩
theorem execReconciliation_next (kind index : BitVec 8) (passed : Bool) (data tag : BitVec 8) (s : State) :
    ∃ t, execReconciliation kind index passed data tag s = .next t := by
  fun_cases execReconciliation kind index passed data tag s <;> exact ⟨_, rfl⟩

/-! ### Ports, fabric and Beacon -/

theorem execPortTrained_next (port : BitVec 6) (good : BitVec 8) (peer : Option (BitVec 13)) (peerPort : BitVec 6) (tx rx : BitVec 16)
    (s : State) :
    ∃ t, execPortTrained port good peer peerPort tx rx s = .next t := by
  fun_cases execPortTrained port good peer peerPort tx rx s <;> exact ⟨_, rfl⟩
theorem execPortDown_next (port : BitVec 6) (s : State) : ∃ t, execPortDown port s = .next t := by
  fun_cases execPortDown port s <;> exact ⟨_, rfl⟩
theorem execLaserProtect_next (port : BitVec 7) (lambda : BitVec 4) (off : Bool) (s : State) :
    ∃ t, execLaserProtect port lambda off s = .next t := by
  fun_cases execLaserProtect port lambda off s <;> exact ⟨_, rfl⟩
theorem execLaserFault_next (port : BitVec 7) (_lambda : BitVec 4) (s : State) :
    ∃ t, execLaserFault port _lambda s = .next t := by
  fun_cases execLaserFault port _lambda s <;> exact ⟨_, rfl⟩
theorem execHostLinkUp_next (port : BitVec 2) (rate : BitVec 3) (width : BitVec 2) (flit sris : Bool) (s : State) :
    ∃ t, execHostLinkUp port rate width flit sris s = .next t := by
  fun_cases execHostLinkUp port rate width flit sris s <;> exact ⟨_, rfl⟩
theorem execHostLinkTrainFail_next (port : BitVec 2) (s : State) : ∃ t, execHostLinkTrainFail port s = .next t := by
  fun_cases execHostLinkTrainFail port s <;> exact ⟨_, rfl⟩

theorem execJobFault_next (src : BitVec 13) (job : Word) (s : State) : ∃ t, execJobFault src job s = .next t := by
  fun_cases execJobFault src job s <;> exact ⟨_, rfl⟩
theorem execPartLostTimeout_next (job : Word) (part : BitVec 13) (s : State) :
    ∃ t, execPartLostTimeout job part s = .next t := by
  fun_cases execPartLostTimeout job part s <;> exact ⟨_, rfl⟩
theorem execDepositLost_next (src : BitVec 13) (job : Word) (model : BitVec 16) (_die : BitVec 3) (s : State) :
    ∃ t, execDepositLost src job model _die s = .next t := by
  fun_cases execDepositLost src job model _die s <;> exact ⟨_, rfl⟩
theorem execFabricMessage_next (src : BitVec 13) (job : Word) (body : FabBody) (s : State) :
    ∃ t, execFabricMessage src job body s = .next t := by
  fun_cases execFabricMessage src job body s <;> exact ⟨_, rfl⟩
theorem execEnumTimeout_next (s : State) : ∃ t, execEnumTimeout s = .next t := by
  fun_cases execEnumTimeout s <;> exact ⟨_, rfl⟩

theorem execBeaconBreak_next (s : State) : ∃ t, execBeaconBreak s = .next t := by
  fun_cases execBeaconBreak s <;> exact ⟨_, rfl⟩
theorem execBeaconLightRestored_next (s : State) : ∃ t, execBeaconLightRestored s = .next t := by
  fun_cases execBeaconLightRestored s <;> exact ⟨_, rfl⟩

/-! ### Power, resets, firmware and counters -/

theorem execPowerEntryDone_next (s : State) : ∃ t, execPowerEntryDone s = .next t := by
  fun_cases execPowerEntryDone s <;> exact ⟨_, rfl⟩
theorem execGovernorEval_next (arrays vectors : List Nat) (inputW : Nat) (s : State) :
    ∃ t, execGovernorEval arrays vectors inputW s = .next t := by
  fun_cases execGovernorEval arrays vectors inputW s <;> exact ⟨_, rfl⟩
theorem execDividerStep_next (die : BitVec 3) (s : State) : ∃ t, execDividerStep die s = .next t := by
  fun_cases execDividerStep die s <;> exact ⟨_, rfl⟩
theorem execThermalOverride_next (what : Sensor) (s : State) : ∃ t, execThermalOverride what s = .next t := by
  fun_cases execThermalOverride what s <;> exact ⟨_, rfl⟩
theorem execSupplyDroop_next (rail : Bool) (s : State) : ∃ t, execSupplyDroop rail s = .next t := by
  fun_cases execSupplyDroop rail s <;> exact ⟨_, rfl⟩
theorem execPowerExitDone_next (s : State) : ∃ t, execPowerExitDone s = .next t := by
  fun_cases execPowerExitDone s <;> exact ⟨_, rfl⟩

theorem execThermalTrip_next (s : State) : ∃ t, execThermalTrip s = .next t := by
  fun_cases execThermalTrip s <;> exact ⟨_, rfl⟩
theorem execPowerInputLoss_next (s : State) : ∃ t, execPowerInputLoss s = .next t := by
  fun_cases execPowerInputLoss s <;> exact ⟨_, rfl⟩
theorem execMailboxReady_next (s : State) : ∃ t, execMailboxReady s = .next t := by
  fun_cases execMailboxReady s <;> exact ⟨_, rfl⟩

theorem execFirmwareReady_next (ok : Bool) (s : State) : ∃ t, execFirmwareReady ok s = .next t := by
  fun_cases execFirmwareReady ok s <;> exact ⟨_, rfl⟩
theorem execOpticsGroupRelit_next (s : State) : ∃ t, execOpticsGroupRelit s = .next t := by
  fun_cases execOpticsGroupRelit s <;> exact ⟨_, rfl⟩

theorem execAmaxRoll_next (slot : BitVec 6) (tid : Word) (others : List (BitVec 13 × Word)) (s : State) :
    ∃ t, execAmaxRoll slot tid others s = .next t := by
  fun_cases execAmaxRoll slot tid others s <;> exact ⟨_, rfl⟩
theorem execSampleLatch_next (scope : BitVec 4) (s : State) : ∃ t, execSampleLatch scope s = .next t := by
  fun_cases execSampleLatch scope s <;> exact ⟨_, rfl⟩

/-- Every command answers a next state: by the common course of mailbox commands, the shared form of its unit, or the branches of
its own meaning. -/
theorem exec_next (i : Instr) (s : State) : ∃ t, exec i s = .next t := by
  cases i
  -- Mailbox commands
  case negotiate | identify | unitQuery | unitReconcile | notifyMask | acctCreate | acctModify | acctDisable | acctEnable |
      acctDestroy | acctQuery | acctMemGrant | acctMemRevoke | partSet | rightSet | acctFlagsSet | memMapQuery | memCreditSet
      | memCreditQuery | memErrQuery | kvModelSet | kvPoolSet | kvVaultSet | kvDomainCreate | kvDomainGrant | kvDomainJoin |
      kvDomainLeave | kvFlush | kvPoolQuery | wpSubmit | wpCancel | wpQuery | semRead | semSet | semSignal | wtCreate |
      wtLoad | wtTurn | wtLearn | wtRebuild | wtQuery | wtAnchorSet | wtGenDrop | wtUnload | seqAdmit | seqCancel | seqQuery
      | seqPause | seqResume | seqPark | seqRelease | seqDraft | seqModelSet | seqPrefillSet | seqDecodeSet | updProgLoad |
      updProgFree | updGroupSet | updGroupRead | updModelSet | updBegin | updCommit | updAbort | updStatus | updMonRead |
      updGroupFree | ftRiskQuery | ftThreshSet | ftPlanSet | ftDepositSet | ftSecure | ftCkptList | ftCkptDrop | ftExport |
      ftRestore | ftStatus | pwrStateSet | pwrQuery | pwrBoundsSet | fwWrite | fwActivate | fwQuery | fwFloorRaise | fwLock |
      lcNonce | lcChange | tallyRead | tallyReadAll | cntSet | cntSnap | cntSample | cntCatalog | numRead | numAmaxRead |
      numAmaxSet | numAmaxRoll | portQuery | portBoundsSet | portEnable | beaconStatus | beaconSend | fabOrigin |
      fabAddrQuery | fabRouteSet | fabRouteQuery | fabJobJoin | fabJobLeave | fabGroupSet | fabDropSet | fabJobQuery =>
    unfold exec
    exact runCmd_next _ _ _ _
  case pwrReset c => exact execPwrReset_next c s
  -- Words of vector programs
  case fcvt | br | halt | semwait | xpost | ld | st | vmxPack | vmxUnpack | vrfin | vrarg | vrput | vrget | vld | vst |
      vgather | vscatter | vsample =>
    unfold exec
    exact hartOp_next _ _ _ _
  case addi | andi | ori | xori | shi | lui | slti | fsqrt | ffma | apset =>
    unfold exec
    exact scalarOp_next _ _ _ _
  case add | sub | and | or | xor | sll | srl | sra | slt | sltu | min | max | mul =>
    unfold exec
    exact intForm_next _ _ _ _ _ _ _
  case fadd | fsub | fmul | fdiv | fmin | fmax =>
    unfold exec
    exact fpForm_next _ _ _ _ _ _ _
  case feq | flt | fle | funord =>
    unfold exec
    exact fpTest_next _ _ _ _ _ _ _
  case vfma | vsqrt | vcmp | pnot | vsel | vintOp | viota | vfn | vact | vdact | vperm | vbcast | vrot | vlane | vrclr |
      vrsum | vrdot | vrand =>
    unfold exec
    exact vectorOp_next _ _ _ _
  case vadd | vsub | vmul | vmin | vmax | vdiv =>
    unfold exec
    exact vecBin_next _ _ _ _ _ _ _ _ _
  case pand | por | pxor | pandn =>
    unfold exec
    exact maskForm_next _ _ _ _ _ _ _ _
  case vrmax | vrmin =>
    unfold exec
    exact reduceMinMax_next _ _ _ _ _ _ _ _
  case semsignal h imm => exact execSemsignal_next h imm s
  case vcvt h d a src dst cvt pm => exact execVcvt_next h d a src dst cvt pm s
  -- Rows of collectives
  case allreduce | reduce | broadcast | allgather | barrier =>
    unfold exec
    exact collectRow_next _ _ _
  -- Instructions of ledger programs, and the rows whose meaning has one outcome
  case ldgMov | ldgAdd | ldgSub | ldgMul | ldgFma | ldgDiv | ldgSqrt | ldgMin | ldgMax | ldgFn | sign | sel | abs | rsum |
      rdot | rmax | gram | qema | mml | mmr | cir | nsnorm | nsstep =>
    exact ⟨_, rfl⟩
  case cmdDb | ntfTail | mtimeLoRead | msixUnmask | portRetrain | seekingRetry | hostOutageTimeout | functionLevelReset |
      hotReset | beaconEnum | beaconHealth | beaconWake | beaconSleep | healthSend | beaconEntryAge | wake | currentOverride
      | tallyCopy | beaconFrameDropped | riskUpdate | joinMessage | flitCrcFail | routeWaitTimeout | hostLinkDown |
      linkDisable | vfDisable | wakeOnLight | overrideClear | powerInputEnter | mailboxResumed | creditPeriod | vfEnable =>
    exact ⟨_, rfl⟩
  -- The other rows, along the branches of their meanings
  case firmwareAccept => exact execFirmwareAccept_next s
  -- Memory, pages and tenancy
  case demotion slot member => exact execDemotion_next slot member s
  case functionStopDone acct => exact execFunctionStopDone_next acct s
  -- The mailbox and the registers
  case commandTake port => exact execCommandTake_next port s
  case registerWrite fn off data => exact execRegisterWrite_next fn off data s
  case cntValLowRead fn scope index => exact execCntValLowRead_next fn scope index s
  case apertureRead fn off len => exact execApertureRead_next fn off len s
  case apertureWrite fn off data => exact execApertureWrite_next fn off data s
  -- Work packages, tiles and collectives
  case packageStart p => exact execPackageStart_next p s
  case descriptorStart d => exact execDescriptorStart_next d s
  case vectorProgram d => exact execVectorProgram_next d s
  case xfer d => exact execXfer_next d s
  case sync d => exact execSync_next d s
  case prefetch d => exact execPrefetch_next d s
  case descriptorComplete d => exact execDescriptorComplete_next d s
  case runLimitExpiry p => exact execRunLimitExpiry_next p s
  case vectorTimeLimit core => exact execVectorTimeLimit_next core s
  case budgetExhausted h => exact execBudgetExhausted_next h s
  case forcedStop p => exact execForcedStop_next p s
  case tile d => exact execTile_next d s
  case tilePassEnd d => exact execTilePassEnd_next d s
  case put d => exact execPut_next d s
  case roundComplete d others => exact execRoundComplete_next d others s
  case rerunRequest src job rkey pass => exact execRerunRequest_next src job rkey pass s
  case putLanded src job drop off data => exact execPutLanded_next src job drop off data s
  -- Sequences and generation
  case admitGrant slot => exact execAdmitGrant_next slot s
  case importDone seq ok => exact execImportDone_next seq ok s
  case prefillLaunch seq => exact execPrefillLaunch_next seq s
  case firstTokenCommit seq => exact execFirstTokenCommit_next seq s
  case frameStart slot => exact execFrameStart_next slot s
  case frameEnd slot => exact execFrameEnd_next slot s
  case waveStart slot => exact execWaveStart_next slot s
  case waveCommit slot bad => exact execWaveCommit_next slot bad s
  case admitWaitExpiry seq => exact execAdmitWaitExpiry_next seq s
  case lifetimeExpiry seq => exact execLifetimeExpiry_next seq s
  case pauseLimitExpiry seq => exact execPauseLimitExpiry_next seq s
  case parkTtlExpiry seq => exact execParkTtlExpiry_next seq s
  case entryAutoRelease seq => exact execEntryAutoRelease_next seq s
  case parkDone seq ok => exact execParkDone_next seq ok s
  case restoreDone seq ok => exact execRestoreDone_next seq ok s
  -- Moving operations and the ledger
  case movingOpStart part => exact execMovingOpStart_next part s
  case loadSegment slot ok => exact execLoadSegment_next slot ok s
  case loadLimitExpiry slot => exact execLoadLimitExpiry_next slot s
  case reshardSegment slot data ok => exact execReshardSegment_next slot data ok s
  case mintLayer slot => exact execMintLayer_next slot s
  case turnLimitExpiry slot => exact execTurnLimitExpiry_next slot s
  case inplaceDrainEnd slot => exact execInplaceDrainEnd_next slot s
  case oldEpochFree slot => exact execOldEpochFree_next slot s
  case barrierReport r => exact execBarrierReport_next r s
  case barrierDecision r => exact execBarrierDecision_next r s
  case learnLimitExpiry slot => exact execLearnLimitExpiry_next slot s
  case lfeed d => exact execLfeed_next d s
  case layerPass1 slot ld layer => exact execLayerPass1_next slot ld layer s
  case ledgerCombine slot layer others failed => exact execLedgerCombine_next slot layer others failed s
  case layerPass2 slot ld layer => exact execLayerPass2_next slot ld layer s
  case mirrorTransfer slot shard data => exact execMirrorTransfer_next slot shard data s
  case feedLimitExpiry slot => exact execFeedLimitExpiry_next slot s
  -- Secure copies and units
  case drainCommit slot result => exact execDrainCommit_next slot result s
  case laterLayerCopy slot result => exact execLaterLayerCopy_next slot result s
  case drainLimitExpiry slot => exact execDrainLimitExpiry_next slot s
  case ckptRestoreDone slot data ok => exact execCkptRestoreDone_next slot data ok s
  case unitLost kind index => exact execUnitLost_next kind index s
  case unitFence kind index data tag => exact execUnitFence_next kind index data tag s
  case reconciliation kind index passed data tag => exact execReconciliation_next kind index passed data tag s
  -- Ports, fabric and Beacon
  case portTrained port good peer peerPort tx rx => exact execPortTrained_next port good peer peerPort tx rx s
  case portDown port => exact execPortDown_next port s
  case laserProtect port lambda off => exact execLaserProtect_next port lambda off s
  case laserFault port lambda => exact execLaserFault_next port lambda s
  case hostLinkUp port rate width flit sris => exact execHostLinkUp_next port rate width flit sris s
  case hostLinkTrainFail port => exact execHostLinkTrainFail_next port s
  case jobFault src job => exact execJobFault_next src job s
  case partLostTimeout job part => exact execPartLostTimeout_next job part s
  case depositLost src job model die => exact execDepositLost_next src job model die s
  case fabricMessage src job body => exact execFabricMessage_next src job body s
  case enumTimeout => exact execEnumTimeout_next s
  case beaconBreak => exact execBeaconBreak_next s
  case beaconLightRestored => exact execBeaconLightRestored_next s
  -- Power, resets, firmware and counters
  case powerEntryDone => exact execPowerEntryDone_next s
  case governorEval arrays vectors inputW => exact execGovernorEval_next arrays vectors inputW s
  case dividerStep die => exact execDividerStep_next die s
  case thermalOverride what => exact execThermalOverride_next what s
  case supplyDroop rail => exact execSupplyDroop_next rail s
  case powerExitDone => exact execPowerExitDone_next s
  case thermalTrip => exact execThermalTrip_next s
  case powerInputLoss => exact execPowerInputLoss_next s
  case mailboxReady => exact execMailboxReady_next s
  case firmwareReady ok => exact execFirmwareReady_next ok s
  case opticsGroupRelit => exact execOpticsGroupRelit_next s
  case amaxRoll slot tid others => exact execAmaxRoll_next slot tid others s
  case sampleLatch scope => exact execSampleLatch_next scope s

/-- Settles O4: every arm of the dispatch answers a next state. -/
theorem everyCommandAnswersNext : Obligations.EveryCommandAnswersNext := by
  unfold Obligations.EveryCommandAnswersNext
  exact exec_next

end Sys2Proof.Machine
end

section
/-!
PROOFS. Moving operations start, fetch, reshard and mint: what accesses to storage leave alone, the running operation of a
partition, and one equation for each way a row goes that O41 speaks of.
-/
namespace Sys2Proof.Machine

/-! ## What an access to storage leaves alone -/

/-- Two states that agree on all the work of the part: they differ at most in memory, in the chip, in the accounts' meters and in
the credits that are asked for. -/
structure SameWork (s t : State) : Prop where
  moves : t.moves = s.moves
  models : t.models = s.models
  gens : t.gens = s.gens
  pkgs : t.pkgs = s.pkgs
  cores : t.cores = s.cores
  led : t.led = s.led

theorem SameWork.refl (s : State) : SameWork s s := ⟨rfl, rfl, rfl, rfl, rfl, rfl⟩

theorem SameWork.trans {s t u : State} (h : SameWork s t) (g : SameWork t u) : SameWork s u :=
  ⟨g.moves.trans h.moves, g.models.trans h.models, g.gens.trans h.gens, g.pkgs.trans h.pkgs, g.cores.trans h.cores,
    g.led.trans h.led⟩

/-- Accesses one after another. -/
theorem SameWork.foldl {α : Type} {f : State → α → State} (h : ∀ s x, SameWork s (f s x)) (l : List α) (s : State) :
    SameWork s (l.foldl f s) := by
  induction l generalizing s with
  | nil => exact .refl s
  | cons x l ih => exact (h s x).trans (ih _)

theorem charge_sameWork (t : Traffic) (a : Nat) (rs : List (Nat × Nat)) (s : State) : SameWork s (s.charge t a rs) :=
  ⟨rfl, rfl, rfl, rfl, rfl, rfl⟩

theorem chargeKeys_sameWork (t : Traffic) (a : Nat) (ks : List (Nat × Nat)) (s : State) : SameWork s (s.chargeKeys t a ks) :=
  charge_sameWork t a _ s

/-- A read that meets nothing goes through, and asks for its credits. -/
theorem State.readKeys_clear {t : Traffic} {a : Nat} {ks : List (Nat × Nat)} {s : State}
    (h : s.meets (ks.flatMap fun x => s.keySpots x.1 x.2) = .clear) : s.readKeys t a ks = (true, s.chargeKeys t a ks) := by
  simp only [State.readKeys, State.engineRead, h, State.chargeKeys]

theorem meter_sameWork (a i n die : Nat) (s : State) : SameWork s (s.meter a i n die) := ⟨rfl, rfl, rfl, rfl, rfl, rfl⟩

theorem clear_sameWork (k n : Nat) (s : State) : SameWork s { s with mem := s.mem.clear k n } := ⟨rfl, rfl, rfl, rfl, rfl, rfl⟩

theorem putKey_sameWork (k : Nat) (bs : Bytes) (s : State) : SameWork s (s.putKey k bs) := by
  unfold State.putKey
  dsimp only
  split <;> exact ⟨rfl, rfl, rfl, rfl, rfl, rfl⟩

theorem crossed_sameWork (s : State) (n : Noc) : SameWork s (crossed s n) := ⟨rfl, rfl, rfl, rfl, rfl, rfl⟩

theorem landRows_sameWork (a : Nat) (lines : List (Nat × Bytes)) (s : State) : SameWork s (landRows a lines s) :=
  (chargeKeys_sameWork ..).trans (.foldl (fun _ _ => putKey_sameWork ..) _ _)

theorem putHigh_sameWork (slot : Nat) (m : ModelMap) (bufB : Bool) (i r c : Nat) (bs : Bytes) (s : State) :
    SameWork s (putHigh slot m bufB i r c bs s) := by
  unfold putHigh
  split
  · exact putKey_sameWork _ _ _
  · exact .refl s

theorem putLow_sameWork (slot : Nat) (m : ModelMap) (i r c : Nat) (bs : Bytes) (s : State) :
    SameWork s (putLow slot m i r c bs s) := by
  unfold putLow
  split
  · exact putKey_sameWork _ _ _
  · exact .refl s

theorem putLoaded_sameWork (slot : Nat) (m : Model) (i r c : Nat) (x : Shard) (split : Bool)
    (hs : List (BitVec 16 × BitVec 16)) (s : State) : SameWork s (putLoaded slot m i r c x split hs s) := by
  have high : ∀ ks bs, SameWork s (putHigh slot m.map true i r c bs (putHigh slot m.map false i r c bs
      (s.chargeKeys .host m.map.acct ks))) := fun ks bs =>
    ((chargeKeys_sameWork .host m.map.acct ks s).trans (putHigh_sameWork slot m.map false i r c bs _)).trans
      (putHigh_sameWork slot m.map true i r c bs _)
  fun_cases putLoaded slot m i r c x split hs s
  · exact (high _ _).trans (putLow_sameWork ..)
  · exact high _ _

theorem mintShard_sameWork (slot : Nat) (m : Model) (o : MoveOp) (slot1 : Bool) (x : Shard × Nat) (s : State) :
    SameWork s (mintShard slot m o slot1 x s) := by
  unfold mintShard
  exact .foldl (fun s r => (putKey_sameWork _ _ s).trans (putKey_sameWork _ _ _)) _ s

theorem mintFor_sameWork (slot : Nat) (m : Model) (o : MoveOp) (x : Shard × Nat) (s : State) :
    SameWork s (mintFor slot m o x s) := by
  unfold mintFor
  split
  · exact (mintShard_sameWork ..).trans (mintShard_sameWork ..)
  · exact mintShard_sameWork ..

/-! ## The running operation of a partition -/

/-- Work that is the same has the same operations. -/
theorem SameWork.movesOf {s t : State} (h : SameWork s t) (p : Nat) : t.movesOf p = s.movesOf p := by
  simp only [State.movesOf, h.moves]

theorem running_of_sameWork {s t : State} {p : Nat} {o : MoveOp} (h : SameWork s t) (hr : (s.movesOf p).running = some o) :
    (t.movesOf p).running = some o := by rw [h.movesOf, hr]

/-- The operations of a partition after a change. -/
theorem State.movesOf_onMoves (s : State) (p : Nat) (f : PartMoves → PartMoves) (h : p < s.moves.length) :
    (s.onMoves p f).movesOf p = f (s.movesOf p) := by
  simp only [State.movesOf, State.onMoves, getD_lmod, h, and_self, if_true]

/-- The running operation after a change of it; there is none beyond the partitions. -/
@[simp] theorem running_onRunning (p : Nat) (f : MoveOp → MoveOp) (s : State) :
    ((onRunning p f s).movesOf p).running = ((s.movesOf p).running).map f := by
  simp only [onRunning, State.movesOf, State.onMoves, getD_lmod]
  by_cases h : p < s.moves.length <;> simp [h]

/-- A change of the running operation is what it does to that operation. -/
theorem onRunning_congr {p : Nat} {s : State} {o : MoveOp} {f g : MoveOp → MoveOp} (h : (s.movesOf p).running = some o)
    (e : f o = g o) : onRunning p f s = onRunning p g s := by
  have hl : lmod s.moves p (fun x => { x with running := x.running.map f }) =
      lmod s.moves p fun x => { x with running := x.running.map g } := by
    apply List.ext_getElem?
    intro i
    simp only [lmod, List.getElem?_modify]
    by_cases hi : p = i
    · subst hi
      simp only [State.movesOf, List.getD_eq_getElem?_getD] at h
      cases hx : s.moves[p]? with
      | none => rfl
      | some x => simp_all
    · simp [hi]
  simp only [onRunning, State.onMoves, hl]

/-- The operation that runs for a model is the running one of its partition. -/
theorem running_of_runningMove {s : State} {slot p : Nat} {o : MoveOp} (h : s.runningMove slot = some (p, o)) :
    (s.movesOf p).running = some o := by
  have hm := List.mem_of_mem_head? h
  obtain ⟨q, -, hq⟩ := List.mem_filterMap.1 hm
  cases hr : (s.movesOf q).running with
  | none => simp [hr] at hq
  | some o' =>
    simp only [hr, Option.ite_none_right_eq_some, Option.some.injEq, Prod.mk.injEq] at hq
    obtain ⟨-, rfl, rfl⟩ := hq
    exact hr

theorem running_of_runningAt {s : State} {slot p : Nat} {st : MoveStage} {k : MoveKind → Bool} {o : MoveOp} {m : Model}
    (h : runningAt s slot st k = some (p, o, m)) : (s.movesOf p).running = some o := by
  unfold runningAt at h
  split at h
  · rename_i hr _
    split at h
    · obtain ⟨rfl, rfl, rfl⟩ := h
      exact running_of_runningMove hr
    · cases h
  · cases h

theorem running_of_building {s : State} {slot p : Nat} {o : MoveOp} {m : Model} (h : building s slot = some (p, o, m)) :
    (s.movesOf p).running = some o := by
  unfold building at h
  split at h
  · rename_i hr
    split at h
    · cases h
    · obtain ⟨rfl, rfl, rfl⟩ := h
      exact running_of_runningAt hr
  · cases h

/-! ## What a write finds: the spots of a range of keys and the units that are fenced -/

theorem State.keySpots_congr {s t : State} (h : t.models = s.models) (k n : Nat) : t.keySpots k n = s.keySpots k n := by
  simp only [State.keySpots, State.model, h]

theorem State.rangeFails_congr {s t : State} (h : t.chip = s.chip) (a n : Nat) : t.rangeFails a n = s.rangeFails a n := by
  simp only [State.rangeFails, State.unitFails, State.unitServes, State.unit, h]

/-- Whether storage lies in a fenced unit is told by the models and the chip alone (R502). -/
theorem State.keysFail_congr {s t : State} (hm : t.models = s.models) (hc : t.chip = s.chip) (ks : List (Nat × Nat)) :
    t.keysFail ks = s.keysFail ks := by
  simp only [State.keysFail, State.keySpots_congr hm, State.rangeFails_congr hc]

theorem loadFenced_congr {s t : State} (hm : t.models = s.models) (hc : t.chip = s.chip) (k : Nat) (m : Model) (i : Nat)
    (x : Shard) (o : MoveOp) : loadFenced t k m i x o = loadFenced s k m i x o :=
  State.keysFail_congr hm hc _

/-! ## The start of an operation (R39) -/

/-- The head of a queue starts where nothing holds it back. -/
theorem execMovingOpStart_begins {part : BitVec 3} {s : State} {o : MoveOp} {rest : List MoveOp} {m : Model}
    (hr : (s.movesOf part.toNat).running = none) (hq : (s.movesOf part.toNat).queue = o :: rest)
    (ha : s.chip.fw.activation = none) (hp : s.chip.power.pstate = 0) (hd : part.toNat ∉ s.chip.power.partReset)
    (hm : s.model o.slot = some m)
    (h : startRefused (s.onMoves part.toNat fun x => { x with queue := rest }) m o = false) :
    execMovingOpStart part s =
      .next (beginMove part.toNat m o (s.onMoves part.toNat fun x => { x with queue := rest })) := by
  have hv : (s.onMoves part.toNat fun x => { x with queue := rest }).model o.slot = some m := hm
  simp [execMovingOpStart, hr, hq, ha, hp, hd, hv, h]

/-- What a load is as it starts: it moves from now on, and keeps what it found in the model's storage (R18, R324). -/
def loadBegun (o : MoveOp) (s : State) : MoveOp :=
  { o with toSlot1 := false, stage := .moving, t0 := some s.mtime, undo := s.mem.filter fun x => inModel o.slot x.1 }

/-- A load whose barrier has not failed runs from its start. -/
theorem running_beginMove_load {p : Nat} {m : Model} {o : MoveOp} {s : State} (hk : o.kind = .load)
    (hf : failedBefore s m o = none) (hp : p < s.moves.length) :
    ((beginMove p m o s).movesOf p).running = some (loadBegun o s) := by
  have hf' : failedBefore s m { o with toSlot1 := false } = none := hf
  rw [hk] at hf'
  simp only [beginMove, hk, beq_self_eq_true, if_true, hf']
  rw [State.movesOf_onMoves]
  · simp only [loadBegun, hk]
    rfl
  · exact hp

/-! ## Segments of a load (R324 to R326) -/

section Load
variable {slot : BitVec 6} {s : State} {p : Nat} {o : MoveOp} {m : Model} {x : Shard}

/-- The load at the next shard of this part. -/
def atMine (m : Model) (o : MoveOp) : MoveOp := { o with shard := firstMine m.map o.shard }

/-- A segment that failed its integrity check is fetched again (R326). -/
theorem execLoadSegment_again (h : runningAt s slot.toNat .moving (fun k => k == .load) = some (p, o, m))
    (hx : m.map.shards[firstMine m.map o.shard]? = some x) (hi : o.imgs ≠ []) (ht : o.tries < 3) :
    execLoadSegment slot false s = .next (countRefetch slot.toNat m x.die
      (onRunning p (fun o => { o with tries := o.tries + 1, refetched := o.refetched + 1 })
        (onRunning p (fun _ => atMine m o) s))) := by
  simp [execLoadSegment, h, hx, hi, segFailed, Nat.ne_of_lt ht, atMine]

@[simp] theorem countRefetch_mem (slot : Nat) (m : Model) (die : Nat) (s : State) : (countRefetch slot m die s).mem = s.mem := rfl

@[simp] theorem countRefetch_movesOf (slot : Nat) (m : Model) (die p : Nat) (s : State) :
    (countRefetch slot m die s).movesOf p = s.movesOf p := rfl

/-- Where row `r` and column `c` of a shard lie in the image that a load fetches. -/
def loadPlace (m : Model) (o : MoveOp) (x : Shard) (r c : Nat) : Nat :=
  let t := m.map.tensor x.tensor
  o.imgs.getD t.img 0 + t.srcOff + (x.row0 + r) * t.srcStride + (x.col0 + c) * t.srcBytes

/-- The parts of rows that a segment of a load covers. -/
def loadRuns (m : Model) (o : MoveOp) (x : Shard) : List (Nat × Nat × Nat) :=
  let t := m.map.tensor x.tensor
  elemRuns x.cols (o.seg * segElems t) (min x.elems (o.seg * segElems t + segElems t))

/-- The elements of a shard are stored in two halves: its group keeps the low halves of a tensor that moves (R324). -/
def loadSplit (s : State) (m : Model) (x : Shard) : Bool :=
  !(m.map.tensor x.tensor).frozen && (match s.groupOf m.map (m.map.tensor x.tensor) with
    | some g => !g.sr16
    | none => false)

/-- The elements of a part of a row of a segment, as they convert (R325). -/
def loadElems (s : State) (m : Model) (o : MoveOp) (x : Shard) (u : Nat × Nat × Nat) : List (Option (BitVec 16 × BitVec 16)) :=
  let t := m.map.tensor x.tensor
  (chunks t.srcBytes (s.read (loadPlace m o x u.1 u.2.1) (u.2.2 * t.srcBytes))).map (loadElem t.srcBf16 (loadSplit s m x))

/-- A part of a row of a segment arrives: the link that it comes over is up (R383), and its elements convert (R325). -/
structure RunArrives (s : State) (m : Model) (o : MoveOp) (x : Shard) (u : Nat × Nat × Nat) : Prop where
  up : s.hostWaits (loadPlace m o x u.1 u.2.1) = false
  alive : s.hostDead (loadPlace m o x u.1 u.2.1) = false
  converts : ∀ e ∈ loadElems s m o x u, e.isNone = false

/-- A segment that arrives is written, and the load goes on to its next segment. -/
theorem execLoadSegment_lands (h : runningAt s slot.toNat .moving (fun k => k == .load) = some (p, o, m))
    (hx : m.map.shards[firstMine m.map o.shard]? = some x) (hi : o.imgs ≠ [])
    (hf : loadFenced s slot.toNat m (firstMine m.map o.shard) x (atMine m o) = false)
    (ha : ∀ u ∈ loadRuns m o x, RunArrives s m o x u)
    (hn : (nextLoadSeg m (atMine m o)).shard < m.map.shards.length) :
    ∃ w, SameWork (onRunning p (fun _ => atMine m o) s) w ∧
      execLoadSegment slot true s = .next (onRunning p (fun _ => nextLoadSeg m (atMine m o)) w) := by
  have waits : (loadRuns m o x).any (fun u => s.hostWaits (loadPlace m o x u.1 u.2.1)) = false :=
    List.any_eq_false.2 fun u hu => by simp [(ha u hu).up]
  have dead : (loadRuns m o x).any (fun u => s.hostDead (loadPlace m o x u.1 u.2.1)) = false :=
    List.any_eq_false.2 fun u hu => by simp [(ha u hu).alive]
  have fenced : loadFenced (onRunning p (fun _ => atMine m o) s) slot.toNat m (firstMine m.map o.shard) x (atMine m o) =
      false := (loadFenced_congr rfl rfl ..).trans hf
  have convert : ((loadRuns m o x).map fun u => (u, loadElems s m o x u)).any (fun u => u.2.any (·.isNone)) = false := by
    simp only [List.any_map, List.any_eq_false, Function.comp, Bool.not_eq_true]
    exact fun u hu => (ha u hu).converts
  refine ⟨?w, ?same, ?step⟩
  case step =>
    simp only [execLoadSegment, h, hx]
    rw [if_neg, if_neg, if_neg, if_neg, if_neg, if_neg]
    · rfl
    · exact Nat.not_le.2 hn
    · exact ne_true_of_eq_false convert
    · exact ne_true_of_eq_false dead
    · exact ne_true_of_eq_false waits
    · rw [Bool.not_true, Bool.false_or]
      exact ne_true_of_eq_false fenced
    · simpa using hi
  exact ((charge_sameWork ..).trans (meter_sameWork ..)).trans (.foldl (fun _ _ => putLoaded_sameWork ..) _ _)

end Load

/-! ## Segments of a reshard, and the Mint (R328 to R330) -/

section Build
variable {slot : BitVec 6} {s : State} {p : Nat} {o : MoveOp} {m : Model} {g : MoveSeg}

/-- The rectangle that is next lands from this part, once its messages have crossed. -/
theorem execReshardSegment_here {n : Noc} (h : building s slot.toNat = some (p, o, m))
    (hg : (opSegments m o)[o.redo.headD o.seg]? = some g) (hroom : landRoom m o g = true)
    (hf : s.keysFail (landKeys slot.toNat m o g) = false) (hh : g.here = true)
    (hr : s.meets ((g.keys slot.toNat m (opBuffer m o)).flatMap fun x => s.keySpots x.1 x.2) = .clear)
    (hn : s.chip.noc.crossAll (moveMsgs (s.dieOfPart m.map g.src.die) (s.dieOfPart m.map g.dst.die)) = some n) :
    execReshardSegment slot none true s = .next (onRunning p (segLanded m (opSegments m o) g)
      (landRows m.map.acct (landLines slot.toNat m o g (g.rows s slot.toNat m (opBuffer m o)))
        (crossed (s.chargeKeys .turn m.map.acct (g.keys slot.toNat m (opBuffer m o))) n))) := by
  have cross : (s.chargeKeys .turn m.map.acct (g.keys slot.toNat m (opBuffer m o))).chip.noc.crossAll
      (moveMsgs (s.dieOfPart m.map g.src.die) (s.dieOfPart m.map g.dst.die)) = some n := hn
  simp only [execReshardSegment, h, hg, hroom, hf, hh, State.readKeys_clear hr, State.carry, cross, crossed, if_true,
    Bool.not_true, Bool.or_self, Bool.false_eq_true, if_false]

/-- The rectangle that is next lands as it arrives from another part. -/
theorem execReshardSegment_there {b : Bytes} (h : building s slot.toNat = some (p, o, m))
    (hg : (opSegments m o)[o.redo.headD o.seg]? = some g) (hroom : landRoom m o g = true)
    (hf : s.keysFail (landKeys slot.toNat m o g) = false) (hh : g.here = false)
    (hb : b.length = 2 * (g.c1 + 1 - g.c0) * (g.r1 + 1 - g.r0)) :
    execReshardSegment slot (some b) true s = .next (onRunning p (segLanded m (opSegments m o) g)
      ((landRows m.map.acct (landLines slot.toNat m o g (chunks (2 * (g.c1 + 1 - g.c0)) b)) s).meter m.map.acct 7
        (2 * (g.c1 + 1 - g.c0) * (g.r1 + 1 - g.r0)) 0)) := by
  simp only [execReshardSegment, h, hg, hroom, hf, hh, hb, State.carry, Noc.crossAll, beq_self_eq_true, if_true,
    Bool.not_true, Bool.or_self, Bool.false_eq_true, if_false]

/-- A segment that has landed, as the rectangle that is next (R329): one that was fetched again leaves the list of those, and any
other is followed by the next, its layer complete with its last segment. -/
theorem segLanded_eq (m : Model) (segs : List MoveSeg) (g : MoveSeg) (o : MoveOp) :
    segLanded m segs g o =
      if o.redo.isEmpty then
        { o with seg := o.seg + 1,
                 landed := if (match segs[o.seg + 1]? with
                   | some h => h.layer m != g.layer m
                   | none => true) = true then o.landed ++ [g.layer m] else o.landed }
      else { o with redo := o.redo.drop 1 } := by
  unfold segLanded
  cases o.redo.isEmpty <;> rfl

/-- The generation shards of a layer that an operation builds here. -/
def mintShards (m : Model) (o : MoveOp) (l : Nat) : List (Shard × Nat) :=
  (opShards m o).filter fun x => (m.map.tensor x.1.tensor).layer == l

/-- Where a landed layer lies in the landing area. -/
def mintLand (k : Nat) (m : Model) (o : MoveOp) (l : Nat) : List (Nat × Nat) :=
  (mintShards m o l).map fun x => (landKey k x.1.die (landOff m o x.2 x.1.die), 2 * x.1.elems)

/-- Where the copy of a layer lies. -/
def mintCopy (k : Nat) (m : Model) (o : MoveOp) (l : Nat) : List (Nat × Nat) :=
  (mintShards m o l).map fun x =>
    (genKey k o.toSlot1 x.1.die (genOff (opMap m o) x.2), genSize (m.map.tensor x.1.tensor) x.1)

/-- The Mint converts a landed layer that is read and written without error, and is not the last that there is to convert. -/
theorem execMintLayer_converts {l : Nat} (h : building s slot.toNat = some (p, o, m))
    (hl : (o.landed.find? fun l => !o.minted.contains l) = some l)
    (hk : o.kind = .load ∨ m.map.swap = true ∨ o.drained ≠ none)
    (hd : o.seg ≠ (opSegments m o).length ∨ o.minted.length + 1 < o.landed.length)
    (ha : (o.redo.any fun i => ((opSegments m o)[i]?).any fun g => g.layer m == l) = false)
    (hr : s.meets ((mintLand slot.toNat m o l).flatMap fun x => s.keySpots x.1 x.2) = .clear)
    (hf : s.keysFail (mintCopy slot.toNat m o l) = false) :
    ∃ w, SameWork s w ∧ execMintLayer slot s =
      .next (onRunning p (fun o => { o with minted := o.minted ++ [l], wrote := o.wrote || !m.map.swap }) w) := by
  have waits : (o.kind != .load && !m.map.swap && o.drained.isNone) = false := by
    rcases hk with hk | hk | hk
    · simp [hk]
    · simp [hk]
    · simp [Option.isNone_eq_false_iff, Option.isSome_iff_ne_none, hk]
  have more : (o.seg == (opSegments m o).length && decide (o.landed.length ≤ o.minted.length + 1)) = false := by
    rcases hd with hd | hd
    · simp [hd]
    · simp [Nat.not_le.2 hd]
  have copies : (s.chargeKeys .turn m.map.acct (mintLand slot.toNat m o l)).keysFail (mintCopy slot.toNat m o l) = false :=
    (State.keysFail_congr rfl rfl _).trans hf
  simp only [mintLand, mintCopy, mintShards] at hr copies
  refine ⟨?w, ?same, ?step⟩
  case step =>
    simp only [execMintLayer, h, hl, ha, waits, State.readKeys_clear hr, copies, more, Bool.not_true, Bool.or_self,
      Bool.false_eq_true, if_false]
    rfl
  exact (((chargeKeys_sameWork ..).trans (chargeKeys_sameWork ..)).trans (.foldl (fun _ _ => mintFor_sameWork ..) _ _)).trans
    (.foldl (fun _ _ => clear_sameWork ..) _ _)

end Build

/-- Settles O41: each row is the equation of its case above; what the running operation becomes follows from what the accesses to
storage leave alone. -/
theorem movingOperationsStartAndMove : Obligations.MovingOperationsStartAndMove := by
  unfold Obligations.MovingOperationsStartAndMove
  refine ⟨?start, ?load, ?reshard, ?mint⟩
  case start =>
    intro part s o rest m hr hq ha hp hd hm v
    refine ⟨execMovingOpStart_begins hr hq ha hp hd hm, fun _ hk hf hlen => ?_⟩
    have hv : part.toNat < v.moves.length := by simpa [v, State.onMoves] using hlen
    exact running_beginMove_load hk hf hv
  case load =>
    intro slot s p o m k i o' h x hx hi t a runs place
    refine ⟨fun hf hl hc hn => ?_, fun ht => ?_⟩
    · have arrives : ∀ u ∈ loadRuns m o x, RunArrives s m o x u := fun u hu =>
        ⟨(hl u hu).1, (hl u hu).2, List.forall_mem_map.2 fun b hb => Option.isNone_eq_false_iff.2
          (Option.isSome_iff_ne_none.2 (hc u hu b hb _))⟩
      obtain ⟨w, hw, e⟩ := execLoadSegment_lands h hx hi hf arrives hn
      refine ⟨_, e, ?_, hw.gens, hw.pkgs, hw.cores, hw.led⟩
      rw [running_onRunning, hw.movesOf, running_onRunning, running_of_runningAt h]
      rfl
    · refine ⟨_, execLoadSegment_again h hx hi ht, rfl, ?_⟩
      rw [countRefetch_movesOf, running_onRunning, running_onRunning, running_of_runningAt h]
      rfl
  case reshard =>
    intro slot s p o m g h hg hroom hf last step width lines keys
    refine ⟨fun n hh hr hn => ?_, fun b hh hb => ?_⟩
    · refine (execReshardSegment_here h hg hroom hf hh hr hn).trans (congrArg _ (onRunning_congr ?_ (segLanded_eq ..)))
      exact running_of_sameWork (((chargeKeys_sameWork ..).trans (crossed_sameWork ..)).trans (landRows_sameWork ..))
        (running_of_building h)
    · refine (execReshardSegment_there h hg hroom hf hh hb).trans (congrArg _ (onRunning_congr ?_ (segLanded_eq ..)))
      exact running_of_sameWork ((landRows_sameWork ..).trans (meter_sameWork ..)) (running_of_building h)
  case mint =>
    intro slot s p l o m h hl hk hd ha xs copy land hr hf
    obtain ⟨w, hw, e⟩ := execMintLayer_converts h hl hk hd ha hr hf
    refine ⟨_, e, ?_, hw.models⟩
    rw [running_onRunning, hw.movesOf, running_of_building h]
    rfl

end Sys2Proof.Machine
end

section
/-!
PROOFS. Commands of the mailbox: which parts of the state a completion changes, how a command finds its model, and the equation of
every moving operation that a command requests.
-/
namespace Sys2Proof.Machine

/-! ## Completions and notifications change the mailboxes and the outputs alone -/

/-- Two states that differ at most in their mailboxes and in what has left the part. -/
def OnlyMail (s t : State) : Prop := ∃ mail out, t = { s with mail := mail, out := out }

theorem OnlyMail.refl (s : State) : OnlyMail s s := ⟨_, _, rfl⟩

theorem OnlyMail.trans {s t u : State} (h : OnlyMail s t) (g : OnlyMail t u) : OnlyMail s u := by
  obtain ⟨m, o, rfl⟩ := h
  obtain ⟨m', o', rfl⟩ := g
  exact ⟨m', o', rfl⟩

theorem OnlyMail.foldl {α : Type} {f : State → α → State} (h : ∀ s x, OnlyMail s (f s x)) (l : List α) (s : State) :
    OnlyMail s (l.foldl f s) := by
  induction l generalizing s with
  | nil => exact .refl s
  | cons x l ih => exact (h s x).trans (ih _)

section
variable {s t : State}

theorem OnlyMail.models (h : OnlyMail s t) : t.models = s.models := by obtain ⟨_, _, rfl⟩ := h; rfl
theorem OnlyMail.chip (h : OnlyMail s t) : t.chip = s.chip := by obtain ⟨_, _, rfl⟩ := h; rfl
theorem OnlyMail.freeCtr (h : OnlyMail s t) : t.freeCtr = s.freeCtr := by obtain ⟨_, _, rfl⟩ := h; rfl

end

theorem raiseVec_onlyMail (fn vec : Nat) (s : State) : OnlyMail s (raiseVec fn vec s) := by
  unfold raiseVec
  dsimp only
  split <;> exact ⟨_, _, rfl⟩

theorem onFunc_onlyMail (fn : Nat) (f : Func → Func) (s : State) : OnlyMail s (s.onFunc fn f) := ⟨_, _, rfl⟩

theorem raiseNtf_onlyMail (fn : Nat) (s : State) : OnlyMail s (raiseNtf fn s) := by
  fun_cases raiseNtf fn s
  · exact (onFunc_onlyMail ..).trans (raiseVec_onlyMail ..)
  · exact onFunc_onlyMail ..

theorem post_onlyMail (fn kind : Nat) (st : Status) (args : Bytes) (s : State) : OnlyMail s (post fn kind st args s) := by
  fun_cases post fn kind st args s
  · exact .refl s
  · exact onFunc_onlyMail ..
  all_goals exact (onFunc_onlyMail ..).trans (raiseNtf_onlyMail ..)

theorem postAll_onlyMail (fns : List Nat) (kind : Nat) (st : Status) (args : Bytes) (s : State) :
    OnlyMail s (postAll fns kind st args s) := .foldl (fun _ _ => post_onlyMail ..) _ _

theorem tellDone_onlyMail (c : Cmd) (r : Resp) (s : State) : OnlyMail s (tellDone c r s) := by
  unfold tellDone
  split
  · exact post_onlyMail ..
  · exact .refl s

theorem complete_onlyMail (c : Cmd) (op : Nat) (st : Status) (payload : Bytes) (s : State) :
    OnlyMail s (complete c op st payload s) := by
  refine OnlyMail.trans ?_ (tellDone_onlyMail ..)
  split
  · exact onFunc_onlyMail ..
  · exact (onFunc_onlyMail ..).trans (raiseVec_onlyMail ..)

theorem finishWait_onlyMail (key : WaitKey) (st : Status) (payload : Bytes) (s : State) :
    OnlyMail s (finishWait key st payload s) :=
  OnlyMail.trans ⟨_, _, rfl⟩ (.foldl (fun _ _ => complete_onlyMail ..) _ _)

/-- A check that finds nothing to refuse is passed. -/
theorem check_passed {α : Type} {b : Bool} {x y z : α} (h : b = false) (e : y = z) : (if b = true then x else y) = z :=
  (if_neg (ne_true_of_eq_false h)).trans e

/-- A check for something that is there is passed. -/
theorem need_met {α : Type} {b : Bool} {x y z : α} (h : b = true) (e : y = z) : (if (!b) = true then x else y) = z :=
  check_passed (by rw [h]; rfl) e

/-! ## A command that completes with OK, and what it reads -/

theorem runCmd_ok {op : Nat} {c : Cmd} {s u v : State} {body : State → Res} {p : Bytes} (h : Runs op c s u)
    (hb : body u = .done .ok p v) : runCmd op c s body = .next (complete c op .ok p v) := runCmd_done h hb

/-- A read of the caller's memory that goes through, before a completion. -/
theorem readFor_done {c : Cmd} {a n : Nat} {s v : State} {k : Bytes → Res} {st : Status} {p : Bytes}
    (h1 : s.inAccount (cmdA c) a n = true) (h2 : s.reads a n = true) (hk : k (s.read a n) = .done st p v) :
    readFor c a n s k = .done st p (v.took (cmdA c) [(a, n)]) := by
  rw [readFor_ok _ h1 h2, hk, Res.after_done]

/-- A read of the caller's memory that goes through, before a wait. -/
theorem readFor_wait {c : Cmd} {a n : Nat} {s v : State} {k : Bytes → Res} {key : WaitKey}
    (h1 : s.inAccount (cmdA c) a n = true) (h2 : s.reads a n = true) (hk : k (s.read a n) = .wait key v) :
    readFor c a n s k = .wait key (v.took (cmdA c) [(a, n)]) := by
  rw [readFor_ok _ h1 h2, hk, Res.after_wait]

/-! ## How a command finds its model, and requests a moving operation of it -/

section
variable {c : Cmd} {u : State} {k : Nat} {m : Model}

/-- A command whose own fields are legal acts on the model that it names. -/
theorem onModelCmd_named {num : Nat} {ok : Bool} (body : Nat → Model → Res) (hok : ok = true)
    (hk : u.slotOf (cmdA c) num = some k) (hm : u.model k = some m) : onModelCmd c num ok u body = body k m := by
  simp [onModelCmd, hok, hk, hm]

/-- The state in which a moving operation that a command requests waits: it stands before the first operation that its account asked
for with a later SEQNO (R39, log entry 157). -/
def queued (c : Cmd) (k : Nat) (m : Model) (kind : MoveKind) (limit : Nat) (f : MoveOp → MoveOp) (u : State) : State :=
  let o := f { MoveOp.new k u.moveCtr kind limit with inst := nextInst u m.map.job kind, seqno := some c.seqno }
  let earlier := fun (x : MoveOp) => !asksLater u m.map.acct c.seqno x
  State.onMoves { u with moveCtr := u.moveCtr + 1 } (u.partOf m.map.acct) fun x =>
    { x with queue := x.queue.takeWhile earlier ++ o :: x.queue.dropWhile earlier }

/-- A request that finds room in its partition's queue waits there. -/
theorem requestMove_queued (kind : MoveKind) (limit : Nat) (f : MoveOp → MoveOp) (h : movesFull u (u.partOf m.map.acct) = false) :
    requestMove c k m kind limit f u = .wait (.move u.moveCtr) (queued c k m kind limit f u) := by
  simp only [requestMove, h, Bool.false_eq_true, if_false]
  rfl

end

/-! ## The models of a part -/

theorem tget_terase_same {α : Type} (t : Tbl α) (k : Nat) : tget (terase t k) k = none :=
  lookup_filter_none _ _ _ (by simp)

theorem tget_terase_ne {α : Type} (t : Tbl α) {j k : Nat} (h : j ≠ k) : tget (terase t k) j = tget t j :=
  lookup_filter_eq _ _ _ fun _ => by simpa using h

@[simp] theorem keepImports_models (k : Nat) (s : State) : (keepImports k s).models = s.models := rfl

@[simp] theorem wipeRanges_models (rs : List (Nat × Nat)) (s : State) : (wipeRanges rs s).models = s.models := by
  unfold wipeRanges
  induction rs generalizing s with
  | nil => rfl
  | cons r rs ih => exact ih _

/-- A model that leaves its window slot takes no other along. -/
theorem dropModel_models (k : Nat) (s : State) : (dropModel k s).models = terase s.models k := rfl

end Sys2Proof.Machine
end

section
/-!
PROOFS. The commands on loaded and unloaded weights: each reaches its model, passes its checks, and queues a moving operation or
completes.
-/
namespace Sys2Proof.Machine

/-- The shards of a new generation map that this part holds lie on dies of the account, on engines that no other model has taken (R339). -/
def HomesFree (u : State) (k : Nat) (m : Model) (gs : List Shard) : Prop :=
  ∀ x ∈ gs, x.part = m.map.part → x.die < (u.acctDies m.map.acct).length ∧
    engineTaken { u with models := terase u.models k } ((u.acctDies m.map.acct).getD x.die 8) x.se = false

theorem HomesFree.near {u : State} {k : Nat} {m : Model} {gs : List Shard} (h : HomesFree u k m gs) :
    ((gs.filter m.map.mine).any fun x => decide ((u.acctDies m.map.acct).length ≤ x.die)) = false := by
  rw [List.any_eq_false]
  intro x hx far
  obtain ⟨hx, mine⟩ := List.mem_filter.1 hx
  exact absurd (h x hx (beq_iff_eq.1 mine)).1 (Nat.not_lt.2 (of_decide_eq_true far))

theorem HomesFree.apart {u : State} {k : Nat} {m : Model} {gs : List Shard} (h : HomesFree u k m gs) :
    ((gs.filter m.map.mine).any fun x =>
      engineTaken { u with models := terase u.models k } ((u.acctDies m.map.acct).getD x.die 8) x.se) = false := by
  rw [List.any_eq_false]
  intro x hx taken
  obtain ⟨hx, mine⟩ := List.mem_filter.1 hx
  exact absurd taken (ne_true_of_eq_false (h x hx (beq_iff_eq.1 mine)).2)

/-- Settles O40: a command that starts a moving operation passes its checks and joins its partition's queue, and the others complete;
WT_UNLOAD takes its own model out of the window and no other. -/
theorem weightCommandsComplete : Obligations.WeightCommandsComplete := by
  unfold Obligations.WeightCommandsComplete
  intro c s u k m hk hm p wait
  refine ⟨?load, ?turn, ?learn, ?rebuild, ?query, ?anchor, ?drop, ?unload⟩
  case load =>
    intro h tail zero limit imgs addrs given unready idle groups frozen images fit free room
    have fields : (cmdTail c 40 && cmdZ c 2 2 && limitOk 1 (cmdU c 4 4) && imgs.all addrOk) = true := by
      rw [tail, zero, limit, addrs]; rfl
    have given : (m.map.tensors.any fun t => imgs.getD t.img 0 == 0) = false := by simpa using given
    change execWtLoad c s = _
    refine runCmd_wait h ((onModelCmd_named _ fields hk hm).trans ?_)
    refine check_passed given (check_passed (by rw [unready, idle]; rfl) ?_)
    refine need_met groups (need_met frozen (need_met images (need_met fit (check_passed free ?_))))
    exact requestMove_queued _ _ _ room
  case turn =>
    intro h tail zero limit ready idle staged epoch free room
    change execWtTurn c s = _
    refine runCmd_wait h ((onModelCmd_named _ (by simp [tail, zero, limit]) hk hm).trans ?_)
    refine check_passed (by simp [turnRefused, ready, idle, staged, epoch, free]) ?_
    exact requestMove_queued _ _ _ room
  case learn =>
    intro h tail zero limit free room
    change execWtLearn c s = _
    refine runCmd_wait h ((onModelCmd_named _ (by simp [tail, zero, limit]) hk hm).trans ?_)
    exact check_passed free (requestMove_queued _ _ _ room)
  case rebuild =>
    intro h tail zero limit addr ready gens unstaged free room
    have named := onModelCmd_named (c := c) (num := cmdU c 0 2)
      (ok := cmdTail c 16 && cmdZ c 2 2 && limitOk 250 (cmdU c 4 4) && addrOk (cmdU c 8 8))
      (hok := by simp [tail, zero, limit, addr]) (hk := hk) (hm := hm)
    have shut : (!m.w.ready || m.map.gshards.length == 0 || m.w.staged || moveRefused u m) = false := by
      simp [ready, gens, unstaged, free]
    constructor
    · intro same
      change execWtRebuild c s = _
      refine runCmd_wait h ((named _).trans ?_)
      refine (if_pos (beq_iff_eq.2 same)).trans (check_passed shut ?_)
      exact requestMove_queued _ _ _ room
    · intro new n rows gs held goes legal rising homes idle unbound fit
      have homes : HomesFree u k m gs := homes
      change execWtRebuild c s = _
      refine runCmd_wait h ((named _).trans ?_)
      refine check_passed (beq_eq_false_iff_ne.2 new) (readFor_wait held goes ?_)
      refine check_passed (by rw [legal, rising]; rfl) (check_passed homes.near ?_)
      refine check_passed (by rw [shut, idle, unbound]; rfl) (check_passed ?taken ?_)
      case taken => exact Bool.or_eq_false_iff.2 ⟨by rw [fit]; rfl, homes.apart⟩
      exact requestMove_queued _ _ _ room
  case query =>
    intro h tail zero addr held goes
    change execWtQuery c s = _
    refine runCmd_ok h ((onModelCmd_named _ (by simp [tail, zero, addr]) hk hm).trans ?_)
    simp only [writeFor_ok _ held goes, List.flatMap_id]
  case anchor =>
    intro t h tail free auto tensor copied idle
    change execWtAnchorSet c s = _
    refine runCmd_ok h ((onModelCmd_named _ (by simp [tail, free, auto]) hk hm).trans ?_)
    simp only [tensor]
    exact check_passed copied (check_passed idle rfl)
  case drop =>
    intro h tail idle
    change execWtGenDrop c s = _
    refine runCmd_ok h ((onModelCmd_named _ tail hk hm).trans ?_)
    exact check_passed idle rfl
  case unload =>
    intro h tail still empty shut released copied unbound idle
    have models : (finishWait (.secure k) .aborted [] u).models = u.models := (finishWait_onlyMail ..).models
    refine ⟨?after, ?step, ?gone, ?kept⟩
    case step =>
      change execWtUnload c s = _
      refine runCmd_ok h ((onModelCmd_named _ tail hk hm).trans ?_)
      refine check_passed (by simp [still, empty, shut, released, copied, unbound, idle]) ?_
      rfl
    case gone => simp [State.model, dropModel_models, models, tget_terase_same]
    case kept =>
      intro j hj
      simp [State.model, dropModel_models, models, tget_terase_ne _ hj]

end Sys2Proof.Machine
end

section
/-!
PROOFS. The commands on thresholds, plans, deposits and securing, in the order of R432.
-/
namespace Sys2Proof.Machine

/-- Settles O44: each command passes its checks and leaves its setting; a drain that FT_SECURE asks for waits in its partition's
queue. -/
theorem securingCommandsComplete : Obligations.SecuringCommandsComplete := by
  unfold Obligations.SecuringCommandsComplete
  refine ⟨?thresh, fun c s u k m hk hm => ⟨?plan, ?deposit, ?secure⟩⟩
  case thresh =>
    intro c s u h tail zero
    change execFtThreshSet c s = _
    exact runCmd_ok h (check_passed (by rw [tail, zero]; rfl) rfl)
  case plan =>
    intro h tail zero addr still
    have named := onModelCmd_named (c := c) (num := cmdU c 0 2) (ok := cmdTail c 16 && cmdZ c 2 6 && addrOk (cmdU c 8 8))
      (hok := by simp [tail, zero, addr]) (hk := hk) (hm := hm)
    constructor
    · intro clears
      change execFtPlanSet c s = _
      refine runCmd_ok h ((named _).trans ?_)
      exact (if_pos (beq_iff_eq.2 clears)).trans (check_passed still rfl)
    · intro sets b size held goes legal deposits host strongbox
      have partner : (fieldAt b 2 1 == 1 && (decide (256 < m.map.parts.length) || fieldAt b 6 2 == m.map.part ||
          decide (m.map.parts.length ≤ fieldAt b 6 2))) = false := by
        rw [Bool.and_eq_false_imp, beq_iff_eq]
        intro first
        obtain ⟨few, other, known⟩ := deposits first
        simp [few, other, known]
      have range : (planHas b 3 && (fieldAt b 0x18 8 == 0 || decide (2 ^ 52 < fieldAt b 0x10 8 + fieldAt b 0x18 8) ||
          !inHostSpace (cmdA c) (fieldAt b 0x10 8) (fieldAt b 0x18 8))) = false := by
        rw [Bool.and_eq_false_imp]
        intro third
        obtain ⟨len, fits, space⟩ := host third
        rw [decide_eq_false (Nat.not_lt.2 fits)]
        simp [len, space]
      have room : (planHas b 2 && decide (strongboxBytes u (cmdA c) < (fieldAt b 5 1 + 1) * size)) = false := by
        rw [Bool.and_eq_false_imp, decide_eq_false_iff_not, Nat.not_lt]
        exact strongbox
      change execFtPlanSet c s = _
      refine runCmd_ok h ((named _).trans ?_)
      refine check_passed (beq_eq_false_iff_ne.2 sets) (readFor_done held goes ?_)
      exact need_met legal (check_passed partner (check_passed range (check_passed still (check_passed room rfl))))
  case deposit =>
    intro h tail zero addr aligned die source other mine len v idle
    have named := onModelCmd_named (c := c) (num := cmdU c 0 2)
      (ok := cmdTail c 20 && cmdZ c 5 3 && addrOk (cmdU c 8 8) && cmdU c 8 8 % 64 == 0 &&
        decide (cmdU c 4 1 < (u.acctDies (cmdA c)).length))
      (hok := by simp [tail, zero, addr, aligned, die]) (hk := hk) (hm := hm)
    have idle : (u.ft.deposits.any fun d => mine d && d.busy) = false := by
      simp only [List.any_eq_false, Bool.and_eq_true, not_and, Bool.not_eq_true]
      exact idle
    have source : (decide (m.map.parts.length ≤ cmdU c 2 2) || cmdU c 2 2 == m.map.part) = false := by
      simp [source, other]
    constructor
    · intro none
      have none : (len == 0) = true := beq_iff_eq.2 none
      change execFtDepositSet c s = _
      refine runCmd_ok h ((named _).trans ?_)
      refine check_passed source (check_passed (by rw [bne, none]; rfl) (check_passed idle ?_))
      exact if_pos none
    · intro some place held
      change execFtDepositSet c s = _
      refine runCmd_ok h ((named _).trans ?_)
      refine check_passed source (check_passed (by rw [held, place]; simp) (check_passed idle ?_))
      exact check_passed (beq_eq_false_iff_ne.2 some) rfl
  case secure =>
    intro h tail zero plan
    have plan : m.ft.plan.isNone = false := Option.isNone_eq_false_iff.2 (Option.isSome_iff_ne_none.2 plan)
    constructor
    · intro mode
      change execFtSecure c s = _
      refine runCmd_wait h ((onModelCmd_named _ (by simp [tail, zero, mode]) hk hm).trans ?_)
      exact check_passed plan (if_pos (beq_iff_eq.2 mode))
    · intro mode ready unstaged idle live room space o earlier
      have strongbox : decide (strongboxBytes u m.map.acct < ((u.ckptsOf m.map).length + 1) * ckptBytes u k m) = false :=
        decide_eq_false (Nat.not_lt.2 space)
      change execFtSecure c s = _
      refine runCmd_wait h ((onModelCmd_named _ (by simp [tail, zero, mode]) hk hm).trans ?_)
      refine check_passed plan (check_passed (by rw [mode]; rfl) ?_)
      refine check_passed (by simp [ready, unstaged, idle, live]) (check_passed strongbox ?_)
      exact requestMove_queued _ _ _ room

end Sys2Proof.Machine
end

section
/-!
PROOFS. The commands on checkpoints: lists, drops, images, restores and the status of a model's copies.
-/
namespace Sys2Proof.Machine

/-- Settles O45: each command passes its checks; the checks of FT_RESTORE are met source by source. -/
theorem checkpointCommandsComplete : Obligations.CheckpointCommandsComplete := by
  unfold Obligations.CheckpointCommandsComplete
  intro c s u k m hk hm
  refine ⟨?list, ?drop, ?image, ?restore, ?status⟩
  case list =>
    intro h tail zero addr recs some held goes
    change execFtCkptList c s = _
    refine runCmd_ok h ((onModelCmd_named _ (by simp [tail, zero, addr]) hk hm).trans ?_)
    refine check_passed (List.isEmpty_eq_false_iff.2 some) ?_
    exact writeFor_ok _ held goes
  case drop =>
    intro it h tail zero found unused
    have unused : (m.ft.later.any fun x => x.2.toNat == cmdU c 4 4) = false := by simpa using unused
    change execFtCkptDrop c s = _
    refine runCmd_ok h ((onModelCmd_named _ (by simp [tail, zero]) hk hm).trans ?_)
    exact need_met found (check_passed unused rfl)
  case image =>
    intro k' h tail zero addr found b fits space whole up alive
    change execFtExport c s = _
    refine runCmd_ok h ((onModelCmd_named _ (by simp [tail, zero, addr]) hk hm).trans ?_)
    simp only [found]
    refine check_passed (by rw [space, decide_eq_false (Nat.not_lt.2 fits)]; rfl) ?_
    exact check_passed up (check_passed whole (check_passed alive rfl))
  case restore =>
    intro src job h tail src1 src4 zero zero' addr plain image peer ckpts ready shut released live room o earlier
    have fields : (cmdTail c 24 && decide (1 ≤ src) && decide (src ≤ 4) && cmdZ c 3 1 && cmdZ c 10 6 && addrOk (cmdU c 16 8) &&
        (src == 4 || cmdU c 16 8 == 0)) = true := by
      simp only [tail, zero, zero', addr, src1, src4, decide_true, Bool.and_true, Bool.true_and, Bool.or_eq_true, beq_iff_eq]
      exact or_iff_not_imp_left.2 plain
    have layouts : (src == 1 && ((u.ckptsOf m.map).filter fun k => recStep k.record == cmdU c 4 4).any fun k =>
        fieldAt k.record 0x28 8 != m.map.layout.toNat) = false := by
      rw [Bool.and_eq_false_imp, beq_iff_eq]
      intro one
      simpa using (ckpts one).2
    have reads : (src == 4 && inHostSpace (cmdA c) (cmdU c 16 8) 4096 && u.hostWaits (cmdU c 16 8)) = false := by
      rw [Bool.and_eq_false_iff, Bool.and_eq_false_iff, beq_eq_false_iff_ne]
      by_cases four : src = 4
      · exact .inr (image four).2
      · exact .inl (.inl four)
    have space : (src == 4 && !imageInSpace u (cmdA c) (cmdU c 16 8)) = false := by
      rw [Bool.and_eq_false_imp, beq_iff_eq]
      intro four
      simp [(image four).1]
    have found : ((src == 1 && ((u.ckptsOf m.map).filter fun k => recStep k.record == cmdU c 4 4).isEmpty) ||
        (src == 3 && !peerHolds m.map (cmdU c 8 2))) = false := by
      simp only [Bool.or_eq_false_iff, Bool.and_eq_false_imp, beq_iff_eq, Bool.not_eq_false']
      refine ⟨fun one => ?_, peer⟩
      obtain ⟨x, hx, step⟩ := (ckpts one).1
      exact List.isEmpty_eq_false_iff_exists_mem.2 ⟨x, List.mem_filter.2 ⟨hx, beq_iff_eq.2 step⟩⟩
    change execFtRestore c s = _
    refine runCmd_wait h ((onModelCmd_named _ fields hk hm).trans ?_)
    refine check_passed layouts (check_passed reads (check_passed space (check_passed found ?_)))
    refine check_passed (by simp [ready, shut, released, live]) ?_
    exact requestMove_queued _ _ _ room
  case status =>
    intro h tail still later undeferred
    change execFtStatus c s = _
    refine runCmd_ok h ((onModelCmd_named _ (by simp [tail]) hk hm).trans ?_)
    simp only [still, later, undeferred]
    rfl

end Sys2Proof.Machine
end

section
/-!
PROOFS. The commands on jobs, groups and drops: a command names a job slot of its account, and FAB_JOB_JOIN takes the lowest free one.
-/
namespace Sys2Proof.Machine

/-- A field of the payload window fits its bytes. -/
theorem cmdU_lt (c : Cmd) (off n : Nat) : cmdU c off n < 2 ^ (8 * n) := Nat.mod_lt _ (Nat.two_pow_pos _)

/-- A field that is not 0 makes a word that is not 0. -/
theorem ofNat_cmdU_ne {c : Cmd} {off n : Nat} (h : cmdU c off n ≠ 0) : BitVec.ofNat (8 * n) (cmdU c off n) ≠ 0 := by
  intro zero
  have := congrArg BitVec.toNat zero
  rw [BitVec.toNat_ofNat, Nat.mod_eq_of_lt (cmdU_lt c off n)] at this
  exact h this

/-- A command whose own fields are legal acts on the job slot that it names. -/
theorem onJob_named {c : Cmd} {n : Nat} {ok : Bool} {u : State} {js : JobSlot} (body : Nat → JobSlot → Res)
    (tail : cmdTail c n = true) (hok : ok = true) (slot : cmdU c 0 1 < 16)
    (hjs : tget u.chip.fabric.slots (cmdA c * 16 + cmdU c 0 1) = some js) :
    onJob c n ok u body = body (cmdA c * 16 + cmdU c 0 1) js := by
  simp [onJob, tail, hok, slot, hjs]

/-- Settles O56: FAB_JOB_JOIN finds its slot free and every lower one taken, and the other commands act on the slot that they name. -/
theorem fabricJobCommandsComplete : Obligations.FabricJobCommandsComplete := by
  unfold Obligations.FabricJobCommandsComplete
  refine ⟨?join, ?held⟩
  case join =>
    intro c s u i h tail hjob nonempty few addr hkey part held goes job jkey table digest joined js legal here unheld below free taken
    have fields : (!cmdTail c 24 || job == 0 || cmdU c 6 2 == 0 || decide (8192 < cmdU c 6 2) || !addrOk (cmdU c 8 8) ||
        jkey == 0 || decide (cmdU c 6 2 ≤ cmdU c 4 2)) = false := by
      have hjob : (job == 0) = false := beq_eq_false_iff_ne.2 (ofNat_cmdU_ne (n := 4) hjob)
      have hkey : (jkey == 0) = false := beq_eq_false_iff_ne.2 (ofNat_cmdU_ne (n := 8) hkey)
      have size : (cmdU c 6 2 == 0) = false := beq_eq_false_iff_ne.2 (Nat.ne_of_gt nonempty)
      rw [tail, hjob, size, addr, hkey, decide_eq_false (Nat.not_lt.2 few), decide_eq_false (Nat.not_le.2 part)]
      rfl
    have legal : (table.any fun x => decide (8192 ≤ x)) = false := by simpa using legal
    have addressed : u.chip.fabric.addr.isNone = false := by rw [here]; rfl
    have own : (u.chip.fabric.addr != some (table.getD (cmdU c 4 2) 0)) = false := by simp [here]
    have unheld : ∀ l : List (Nat × JobSlot), l ⊆ u.chip.fabric.slots → (l.any fun x => x.2.job == job) = false := by
      intro l hl
      simp only [List.any_eq_false, beq_iff_eq]
      exact fun x hx => unheld x (hl hx)
    have lowest : (List.range 16).find? (fun i => (tget u.chip.fabric.slots (cmdA c * 16 + i)).isNone) = some i := by
      rw [List.find?_range_eq_some]
      refine ⟨by simp [free], List.mem_range.2 below, fun j hj => ?_⟩
      simpa [Option.isSome_iff_ne_none] using taken j hj
    change execFabJobJoin c s = _
    refine runCmd_ok h (check_passed fields (readFor_done held goes ?_))
    refine check_passed legal (check_passed addressed (check_passed own ?_))
    refine check_passed (unheld _ (List.filter_subset_self _)) ?_
    simp only [lowest]
    exact check_passed (unheld _ (List.Subset.refl _)) rfl
  case held =>
    intro c s u js key slot hjs
    refine ⟨?leave, ?group, ?drop, ?query⟩
    case leave =>
      intro h tail unused idle
      have unused : (u.models.any fun x => x.2.map.acct == cmdA c && x.2.map.job == js.job) = false := by
        simpa using unused
      change execFabJobLeave c s = _
      refine runCmd_ok h ((onJob_named _ tail rfl slot hjs).trans ?_)
      exact check_passed (by rw [unused]; exact idle) rfl
    case group =>
      intro h tail zero nonempty few addr held goes es legal done js'
      have legal : (es.any fun b => fieldAt b 3 1 != 0 || decide (js.table.length ≤ fieldAt b 0 2) || decide (8 ≤ fieldAt b 2 1)) =
          false := by
        simp only [List.any_eq_false]
        intro b hb
        obtain ⟨zero, known, die⟩ := legal b hb
        simp [zero, known, die]
      have done : (u.chip.fabric.rounds.any fun r => (r.job == js.job && r.group == cmdU c 1 1) && r.live u && r.result.isNone) =
          false := by
        simp only [List.any_eq_false, Bool.and_eq_true, beq_iff_eq, Option.isNone_iff_eq_none, not_and]
        exact fun r hr ⟨⟨job, group⟩, live⟩ => done r hr job group live
      change execFabGroupSet c s = _
      refine runCmd_ok h ((onJob_named _ tail (by simp [zero, nonempty, few, addr]) slot hjs).trans ?_)
      refine readFor_done held goes ?_
      exact check_passed legal (check_passed done rfl)
    case drop =>
      intro h tail zero zero' drop die addr sem
      have named := onJob_named (c := c) (n := 20) (u := u)
        (ok := cmdZ c 3 1 && cmdZ c 6 2 && decide (cmdU c 1 1 < 64) && decide (cmdU c 2 1 < (u.acctDies (cmdA c)).length) &&
          addrOk (cmdU c 12 8)) (tail := tail) (hok := by simp [zero, zero', drop, die, addr]) (slot := slot) (hjs := hjs)
      constructor
      · intro len js'
        change execFabDropSet c s = _
        refine runCmd_ok h ((named _).trans ?_)
        refine check_passed (decide_eq_false (Nat.not_le.2 sem)) ?_
        exact if_pos (beq_iff_eq.2 len)
      · intro o len place held js'
        change execFabDropSet c s = _
        refine runCmd_ok h ((named _).trans ?_)
        refine check_passed (decide_eq_false (Nat.not_le.2 sem)) ?_
        refine check_passed (beq_eq_false_iff_ne.2 len) ?_
        rcases place with place | place
        all_goals
          simp only [place, held, beq_self_eq_true, Bool.not_true, Bool.or_self, Bool.false_eq_true, if_false]
          rfl
    case query =>
      intro h tail lost
      change execFabJobQuery c s = _
      exact runCmd_ok h (onJob_named _ tail rfl slot hjs)

end Sys2Proof.Machine
end

section
/-!
PROOFS. Ports and host links: what frames, messages and tries of commits leave alone, the routes and the links that follow a port, and
one equation for each event of a port or a link.
-/
namespace Sys2Proof.Machine

/-! ## A port and a link after a change -/

theorem State.port_onPort_same {s : State} {p : Nat} (f : Port → Port) (h : p < s.chip.ports.length) :
    (s.onPort p f).port p = f (s.port p) := by
  rw [State.port_onPort, if_pos ⟨rfl, h⟩]

theorem State.link_onLink_same {s : State} {n : Nat} (f : HostLink → HostLink) (h : n < s.chip.links.length) :
    (s.onLink n f).link n = f (s.link n) := by
  rw [State.link, State.onLink, getD_lmod, if_pos ⟨rfl, h⟩, State.link]

@[simp] theorem State.length_onPort (s : State) (p : Nat) (f : Port → Port) :
    (s.onPort p f).chip.ports.length = s.chip.ports.length := length_lmod ..

/-! ## Frames of the Beacon -/

/-- Two states that differ at most in the Beacon and in what has left the part. -/
def OnlyFrames (s t : State) : Prop := ∃ beacon out, t = { s with chip := { s.chip with beacon := beacon }, out := out }

theorem OnlyFrames.refl (s : State) : OnlyFrames s s := ⟨_, _, rfl⟩

theorem OnlyFrames.power {s t : State} (h : OnlyFrames s t) : t.chip.power = s.chip.power := by obtain ⟨_, _, rfl⟩ := h; rfl

theorem OnlyFrames.freeCtr {s t : State} (h : OnlyFrames s t) : t.freeCtr = s.freeCtr := by obtain ⟨_, _, rfl⟩ := h; rfl

theorem sendFrame_onlyFrames (type dst : Nat) (payload : Bytes) (s : State) : OnlyFrames s (sendFrame type dst payload s) := by
  unfold sendFrame
  split
  · exact .refl s
  · exact ⟨_, _, rfl⟩

theorem sendHealth_onlyFrames (s : State) : OnlyFrames s (sendHealth s) := sendFrame_onlyFrames ..

theorem tellLit_onlyFrames (old s : State) : OnlyFrames s (tellLit old s) := by
  unfold tellLit
  split
  · exact .refl s
  · exact sendHealth_onlyFrames s

/-! ## Start-up lights the ports (R376, R530) -/

/-- What lighting ports leaves alone. -/
structure OnlyLights (s t : State) : Prop where
  ten : t.ten = s.ten
  links : t.chip.links = s.chip.links
  power : t.chip.power = s.chip.power
  fabric : t.chip.fabric = s.chip.fabric
  length : t.chip.ports.length = s.chip.ports.length
  retrains : ∀ p, (t.port p).retrains = (s.port p).retrains

theorem OnlyLights.refl (s : State) : OnlyLights s s := ⟨rfl, rfl, rfl, rfl, rfl, fun _ => rfl⟩

theorem OnlyLights.trans {s t u : State} (h : OnlyLights s t) (g : OnlyLights t u) : OnlyLights s u :=
  ⟨g.ten.trans h.ten, g.links.trans h.links, g.power.trans h.power, g.fabric.trans h.fabric, g.length.trans h.length,
    fun p => (g.retrains p).trans (h.retrains p)⟩

theorem OnlyLights.link {s t : State} (h : OnlyLights s t) (n : Nat) : t.link n = s.link n := by
  rw [State.link, h.links, State.link]

theorem OnlyFrames.onlyLights {s t : State} (h : OnlyFrames s t) : OnlyLights s t := by
  obtain ⟨_, _, rfl⟩ := h
  exact ⟨rfl, rfl, rfl, rfl, rfl, fun _ => rfl⟩

theorem relight_onlyLights (p cause : Nat) (s : State) : OnlyLights s (relight p cause s) := by
  refine ⟨rfl, rfl, rfl, rfl, State.length_onPort .., fun q => ?_⟩
  rw [relight, State.port_onPort]
  dsimp only
  split
  · split <;> rfl
  · rfl

theorem relightAll_onlyLights (cause : Nat) (s : State) : OnlyLights s (relightAll cause s) := by
  unfold relightAll
  generalize List.range 68 = ps
  induction ps generalizing s with
  | nil => exact .refl s
  | cons p ps ih => exact (relight_onlyLights p cause s).trans (ih _)

theorem lightUp_onlyLights (s : State) : OnlyLights s (lightUp s) := by
  unfold lightUp
  split
  · exact (relightAll_onlyLights 5 s).trans (tellLit_onlyFrames ..).onlyLights
  · exact .refl s

/-! ## Messages, meters and tries of commits leave every port as it is -/

/-- Two states with the same ports. -/
def SamePorts (s t : State) : Prop := t.chip.ports = s.chip.ports

theorem SamePorts.refl (s : State) : SamePorts s s := rfl

theorem SamePorts.trans {s t u : State} (h : SamePorts s t) (g : SamePorts t u) : SamePorts s u := Eq.trans g h

theorem SamePorts.port {s t : State} (h : SamePorts s t) (p : Nat) : t.port p = s.port p := by
  unfold SamePorts at h
  rw [State.port, State.port, h]

theorem SamePorts.foldl {α : Type} {f : State → α → State} (h : ∀ s x, SamePorts s (f s x)) (l : List α) (s : State) :
    SamePorts s (l.foldl f s) := by
  induction l generalizing s with
  | nil => exact .refl s
  | cons x l ih => exact (h s x).trans (ih _)

theorem OnlyMail.samePorts {s t : State} (h : OnlyMail s t) : SamePorts s t := congrArg Chip.ports h.chip

theorem OnlyFrames.samePorts {s t : State} (h : OnlyFrames s t) : SamePorts s t := by obtain ⟨_, _, rfl⟩ := h; rfl

theorem onFabric_samePorts (f : Fabric → Fabric) (s : State) : SamePorts s (s.onFabric f) := rfl

theorem launch_samePorts (w : Waiter) (s : State) : SamePorts s (launch w s) := by
  unfold launch
  split <;> rfl

theorem flushWaits_samePorts (s : State) : SamePorts s (flushWaits s) :=
  (onFabric_samePorts (fun f => { f with waits := [] }) s).trans (.foldl (fun _ _ => launch_samePorts ..) _ _)

theorem sendParts_samePorts (j : JobSlot) (kind : Nat) (data : Bytes) (s : State) : SamePorts s (sendParts j kind data s) :=
  .foldl (fun _ _ => launch_samePorts ..) _ _

theorem sendWides_samePorts (m : Model) (layer : Nat) (ws : List Wide) (failed : List Nat) (s : State) :
    SamePorts s (sendWides m layer ws failed s) := by
  unfold sendWides
  split
  · exact .refl s
  · exact sendParts_samePorts ..

theorem countConds_samePorts (acct die : Nat) (unit : Option Nat) (c : Conds) (s : State) :
    SamePorts s (countConds acct die unit c s) := by
  have meter : ∀ i n s, SamePorts s (if n == 0 then s else s.num acct i n) := fun i n s => by split <;> rfl
  have bump : ∀ src n s, SamePorts s (if n == 0 then s else s.bump src die (some acct) unit n) := fun src n s => by split <;> rfl
  have meters := (((((((meter 0 c.replays s).trans (meter 1 c.anchorSat _)).trans (meter 2 c.fp32Sat _)).trans
    (meter 3 c.nonfinite _)).trans (meter 4 c.mxNan _)).trans (meter 5 c.cvtSat _)).trans (meter 6 c.sampleFault _))
  exact ((meters.trans (bump 0x500 c.anchorSat _)).trans (bump 0x501 c.fp32Sat _)).trans (bump 0x502 c.mxNan _)

theorem finishWait_samePorts (key : WaitKey) (st : Status) (payload : Bytes) (s : State) :
    SamePorts s (finishWait key st payload s) := (finishWait_onlyMail ..).samePorts

theorem onModel_samePorts (slot : Nat) (f : Model → Model) (s : State) : SamePorts s (s.onModel slot f) := rfl

theorem dropRunning_samePorts (p : Nat) (s : State) : SamePorts s (dropRunning p s) := rfl

theorem tryCommit_samePorts (slot : Nat) (s : State) : SamePorts s (tryCommit slot s) := by
  fun_cases tryCommit slot s
  case case4 =>
    exact (((countConds_samePorts ..).trans (sendWides_samePorts ..)).trans (onModel_samePorts ..)).trans
      (finishWait_samePorts ..)
  all_goals exact .refl s

theorem tryRestoreEnd_samePorts (p slot : Nat) (s : State) : SamePorts s (tryRestoreEnd p slot s) := by
  fun_cases tryRestoreEnd p slot s
  case case2 => exact ((onModel_samePorts ..).trans (dropRunning_samePorts ..)).trans (finishWait_samePorts ..)
  all_goals exact .refl s

theorem retryCommits_samePorts (s : State) : SamePorts s (retryCommits s) := by
  refine (SamePorts.foldl (fun _ _ => tryCommit_samePorts ..) s.models s).trans (.foldl (fun s p => ?_) _ _)
  split
  · exact tryRestoreEnd_samePorts ..
  · exact .refl s

theorem routesChanged_samePorts (s : State) : SamePorts s (routesChanged s) :=
  (flushWaits_samePorts s).trans (retryCommits_samePorts _)

theorem directRoute_samePorts (a : Nat) (s : State) : SamePorts s (directRoute a s) := by
  fun_cases directRoute a s
  · exact .refl s
  all_goals exact (onFabric_samePorts ..).trans (routesChanged_samePorts _)

theorem reroute_samePorts (p : Nat) (s : State) : SamePorts s (reroute p s) :=
  (onFabric_samePorts ..).trans (routesChanged_samePorts _)

/-! ## A port that trains (R388, R399) -/

/-- The wavelengths on which a port comes up: all eight, or a whole half of them. -/
def trainedOn (good : BitVec 8) : BitVec 8 :=
  if good == 0xFF then 0xFF else if good &&& 0x0F == 0x0F then 0x0F else if good &&& 0xF0 == 0xF0 then 0xF0 else 0

/-- The state in which training leaves a port, where both ends hold addresses or one does not. -/
def trainedState (lam : BitVec 8) (both : Bool) : PortState :=
  if lam == 0 || !both then .seeking else if lam == 0xFF then .up else .degraded

/-- A port as training leaves it. -/
def Port.trained (x : Port) (good : BitVec 8) (both : Bool) (peer : Option (BitVec 13)) (peerPort : BitVec 6) (tx rx : BitVec 16) :
    Port :=
  let lam := trainedOn (good &&& ~~~x.offA)
  let st := trainedState lam both
  ({ x.shine (if st == .seeking then 0xFF else lam) 0 with
     tx := x.held tx, rx := rx, peer := peer.map (·.toNat), peerPort := peerPort.toNat } : Port).goes st

/-- PORT_TRAINED leaves a lit port as training does: the routes that follow change no port. -/
theorem execPortTrained_port {port : BitVec 6} {s : State} {good : BitVec 8} {peer : Option (BitVec 13)} {peerPort : BitVec 6}
    {tx rx : BitVec 16} (hp : port.toNat < s.chip.ports.length) (hc : ((lightUp s).port port.toNat).cause = 0) :
    ∃ t, execPortTrained port good peer peerPort tx rx s = .next t ∧ t.port port.toNat =
      ((lightUp s).port port.toNat).trained good (peer.isSome && s.chip.fabric.addr.isSome) peer peerPort tx rx := by
  refine ⟨_, check_passed (by rw [hc]; rfl) rfl, ?_⟩
  have routes : ∀ (b : Bool) (l : List Nat) (v : State), SamePorts v (if b then v else l.foldl (fun s a => directRoute a s) v) :=
    fun b l v => by
      split
      · exact .refl v
      · exact .foldl (fun _ _ => directRoute_samePorts ..) l v
  have back : ∀ (b : Bool) (v : State), SamePorts v (if b then v else reroute port.toNat v) := fun b v => by
    split
    · exact .refl v
    · exact reroute_samePorts ..
  refine (((routes _ _ _).trans (back _ _)).port _).trans ?_
  rw [State.port_onPort_same _ (by rw [(lightUp_onlyLights s).length]; exact hp), (lightUp_onlyLights s).fabric]
  rfl

section
variable {x : Port} (ho : x.override = false) (ha : x.offA = 0) (hb : x.offB = 0) (peer : BitVec 13) (peerPort : BitVec 6)
  (tx rx : BitVec 16)
include ho ha hb

/-- A port that no protection holds comes up on all eight wavelengths. -/
theorem Port.trained_all : x.trained 0xFF true (some peer) peerPort tx rx =
    { x with state := .up, before := .up, lamA := 0xFF, lamB := 0, tx := x.held tx, rx := rx,
             peer := some peer.toNat, peerPort := peerPort.toNat } := by
  simp [Port.trained, Port.goes, Port.shine, trainedOn, trainedState, ho, ha, hb]

/-- A port that no protection holds comes up on its lower half, where that trains. -/
theorem Port.trained_half : x.trained 0x1F true (some peer) peerPort tx rx =
    { x with state := .degraded, before := .degraded, lamA := 0x0F, lamB := 0, tx := x.held tx, rx := rx,
             peer := some peer.toNat, peerPort := peerPort.toNat } := by
  simp [Port.trained, Port.goes, Port.shine, trainedOn, trainedState, ho, ha, hb]

end

/-- Otherwise it comes up on its upper half, where that trains. -/
theorem Port.trained_upper {x : Port} (ha : x.offA = 0) (peer : BitVec 13) (peerPort : BitVec 6) (tx rx : BitVec 16) :
    (x.trained 0xF3 true (some peer) peerPort tx rx).lamA = 0xF0 := by
  simp [Port.trained, Port.goes, Port.shine, trainedOn, trainedState, ha]

/-- A port of which no half trains seeks. -/
theorem Port.trained_neither {x : Port} (ho : x.override = false) (ha : x.offA = 0) (peer : BitVec 13) (peerPort : BitVec 6)
    (tx rx : BitVec 16) : (x.trained 0x77 true (some peer) peerPort tx rx).state = .seeking := by
  simp [Port.trained, Port.goes, trainedOn, trainedState, ho, ha, Port.shine]

/-- The loop holds the launch power inside the bounds of a port that no protection holds (R390). -/
theorem Port.held_inside {x : Port} (ho : x.override = false) (v : BitVec 16) (h : x.lo.toInt ≤ x.hi.toInt) :
    x.lo.toInt ≤ (x.held v).toInt ∧ (x.held v).toInt ≤ x.hi.toInt := by
  simp only [Port.held, ho, decide_eq_true_eq, Bool.false_eq_true, if_false]
  split
  · exact ⟨le_rfl, h⟩
  · split <;> omega

/-! ## A port that leaves the routes (R408) -/

/-- Segments that go again over a port count as replays of it, and change nothing else of a port. -/
theorem resendSegments_port (p q : Nat) (s : State) :
    (resendSegments p s).port q = { s.port q with replays := ((resendSegments p s).port q).replays } := by
  unfold resendSegments
  split
  · rfl
  · simp only [State.free, State.port_onPort]
    split <;> rfl

theorem resendSegments_fabric (p : Nat) (s : State) : (resendSegments p s).chip.fabric = s.chip.fabric := by
  unfold resendSegments
  split <;> rfl

/-- A port that leaves the routes counts at most replays. -/
theorem unroute_port (p q : Nat) (s : State) :
    (unroute p s).port q = { s.port q with replays := ((unroute p s).port q).replays } := by
  fun_cases unroute p s
  · rfl
  · exact resendSegments_port p q _

/-- No route names a port that has left them. -/
theorem unroute_routes {p : Nat} (hp : p ≠ 0xFF) (s : State) : ∀ r ∈ (unroute p s).chip.fabric.routes, p ∉ r.2.ports := by
  fun_cases unroute p s
  case case1 none =>
    intro r hr named
    have hit : r ∈ s.chip.fabric.routes.filter fun r => r.2.ports.contains p :=
      List.mem_filter.2 ⟨hr, List.contains_iff_mem.2 named⟩
    exact List.ne_nil_of_mem hit (List.isEmpty_iff.1 none)
  case case2 =>
    rw [resendSegments_fabric]
    intro r hr named
    obtain ⟨r', -, rfl⟩ := List.mem_map.1 hr
    obtain ⟨q, -, hq⟩ := List.mem_map.1 (List.mem_filter.1 named).1
    split at hq
    · exact hp hq.symm
    · rename_i h
      exact h (beq_iff_eq.2 hq)

/-! ## A host link that goes down (R383, R385) -/

theorem hostDown_samePorts (n : Nat) (s : State) : SamePorts s (hostDown n s) := by
  unfold hostDown
  split <;> rfl

/-- A link that leaves UP. -/
def HostLink.fallen (l : HostLink) (now : DWord) : HostLink :=
  { l with up := false, rate := 0, width := 0, flit := false, sris := false, outage := some (now, false) }

theorem hostDown_link {n : Nat} {s : State} (hn : n < s.chip.links.length) (h : (s.link n).up = true) :
    (hostDown n s).link n = (s.link n).fallen s.mtime := by
  rw [hostDown, h]
  exact State.link_onLink_same _ hn

/-- A change of a port beforehand makes no difference to the link. -/
theorem hostDown_onPort_link {n q : Nat} {f : Port → Port} {s : State} (hn : n < s.chip.links.length) (h : (s.link n).up = true) :
    (hostDown n (s.onPort q f)).link n = (s.link n).fallen s.mtime :=
  hostDown_link (s := s.onPort q f) hn h

/-- Every function of a port sees that its link has left UP. -/
theorem hostDown_seen {n f : Nat} {s : State} (h : (s.link n).up = true) (hf : f < 256) :
    256 * n + f ∈ (hostDown n s).mail.downSeen := by
  rw [hostDown, h]
  have mine : 256 * n + f ∈ (List.range 256).map (256 * n + ·) := List.mem_map.2 ⟨f, List.mem_range.2 hf, rfl⟩
  by_cases old : 256 * n + f ∈ s.mail.downSeen
  · exact List.mem_append_left _ old
  · exact List.mem_append_right _ (List.mem_filter.2 ⟨mine, by simpa using old⟩)

/-! ## Darkness (R376) -/

/-- A port that is darkened holds the cause, and one that was lit is dark. -/
theorem darken_port {p : Nat} (cause : Nat) {s : State} (hp : p < s.chip.ports.length) :
    cause ∈ ((darken p cause s).port p).causes ∧
      ((s.port p).causes = [] → ((darken p cause s).port p).state = .dark) := by
  fun_cases darken p cause s
  case case1 held =>
    have held := List.contains_iff_mem.1 held
    exact ⟨held, fun none => absurd held (by rw [none]; exact List.not_mem_nil)⟩
  case case2 lit =>
    rw [State.port_onPort_same _ hp]
    have some : (s.port p).causes ≠ [] := by simpa using lit
    exact ⟨List.mem_append_right _ (List.mem_singleton_self _), fun none => absurd none some⟩
  case case3 => 
    rw [unroute_port, State.port_onPort_same _ hp]
    exact ⟨List.mem_singleton_self _, fun _ => rfl⟩
  case case4 => 
    rw [(hostDown_samePorts ..).port, State.port_onPort_same _ hp]
    exact ⟨List.mem_singleton_self _, fun _ => rfl⟩

theorem unroute_mtime (p : Nat) (s : State) : (unroute p s).mtime = s.mtime := by
  unfold unroute resendSegments
  dsimp only
  repeat' split
  all_goals rfl

theorem hostDown_mtime (n : Nat) (s : State) : (hostDown n s).mtime = s.mtime := by
  unfold hostDown
  split <;> rfl

theorem darken_mtime (p cause : Nat) (s : State) : (darken p cause s).mtime = s.mtime := by
  fun_cases darken p cause s
  case case3 => exact unroute_mtime ..
  case case4 => exact hostDown_mtime ..
  all_goals rfl

/-! ## Protection of a laser (R390, R525) -/

theorem protectNotice_onlyMail (cause phase : Nat) (s : State) : OnlyMail s (protectNotice cause phase s) := postAll_onlyMail ..

/-- A port of which the loop holds a laser back: it turns the wavelength off, or lowers it by what the free value says. -/
def Port.guarded (l : Nat) (off : Bool) (v : DWord) (x : Port) : Port :=
  let x := if x.override then x else { x with before := x.state }
  let x := if off then x.cut l else { x with tx := x.lowered v }
  { x with state := .safety, override := true }

/-- The override holds a port's laser, from now on where it is the first protection. -/
def Power.holdingLaser (p : Nat) (now : DWord) (w : Power) : Power :=
  let w := { w with override := { w.override with lasers := w.override.lasers ++ [p] } }
  if w.ovrSince.isSome then w else { w with ovrSince := some now }

/-- The state in which the loop has taken its free value and holds a laser of a port back. -/
def guardedAt (p l : Nat) (off : Bool) (s : State) : State :=
  State.onPort { s with freeCtr := s.freeCtr + 1 } p (Port.guarded l off (Config.freeValue s.freeCtr))

theorem laserGuard_eq (p l : Nat) (off : Bool) (s : State) : laserGuard p l off s =
    if s.chip.power.override.lasers.contains p then guardedAt p l off s
    else sendHealth (protectNotice 4 0 ((guardedAt p l off s).onPower (Power.holdingLaser p s.mtime))) := rfl

theorem mem_holdingLaser (p : Nat) (now : DWord) (w : Power) : p ∈ (w.holdingLaser p now).override.lasers := by
  unfold Power.holdingLaser
  dsimp only
  split <;> exact List.mem_append_right _ (List.mem_singleton_self p)

/-- A laser that is held back puts its port in SAFETY, under an override that names it, and takes one free value. -/
theorem laserGuard_holds {p : Nat} (l : Nat) (off : Bool) {s : State} (hp : p < s.chip.ports.length) :
    ((laserGuard p l off s).port p).state = .safety ∧ ((laserGuard p l off s).port p).override = true ∧
      p ∈ (laserGuard p l off s).chip.power.override.lasers ∧ (laserGuard p l off s).freeCtr = s.freeCtr + 1 := by
  have port : (guardedAt p l off s).port p = (s.port p).guarded l off (Config.freeValue s.freeCtr) :=
    State.port_onPort_same _ hp
  rw [laserGuard_eq]
  split
  case isTrue held =>
    rw [port]
    exact ⟨rfl, rfl, List.contains_iff_mem.1 held, rfl⟩
  case isFalse =>
    generalize hw : State.onPower _ _ = w
    have told := protectNotice_onlyMail 4 0 w
    have sent := sendHealth_onlyFrames (protectNotice 4 0 w)
    have same : w.port p = (guardedAt p l off s).port p := by rw [← hw]; rfl
    rw [(told.samePorts.trans sent.samePorts).port, sent.power, told.chip, sent.freeCtr, told.freeCtr, same, port, ← hw]
    exact ⟨rfl, rfl, mem_holdingLaser .., rfl⟩

/-! ## The module's right (R458) -/

/-- The module's right changes nothing of the chip. -/
theorem assignRight_chip (s : State) : (assignRight s).chip = s.chip := by
  fun_cases assignRight s <;> rfl

theorem assignRight_port (s : State) (p : Nat) : (assignRight s).port p = s.port p :=
  congrArg (fun c => c.ports.getD p Port.reset) (assignRight_chip s)

theorem assignRight_link (s : State) (n : Nat) : (assignRight s).link n = s.link n :=
  congrArg (fun c => c.links.getD n HostLink.reset) (assignRight_chip s)

/-- A right that an account holds stays with it. -/
theorem assignRight_held {s : State} {a : Nat} (h : s.ten.modRight = some a) : (assignRight s).ten.modRight = some a := by
  simp [assignRight, h]

/-- Where the mailbox is ready and a link is UP, some account holds the module's right. -/
theorem assignRight_given {s : State} {n : Nat} (hn : n < 4) (up : (s.link n).up = true) (ready : s.chip.power.mailboxReady = true) :
    (assignRight s).ten.modRight ≠ none := by
  fun_cases assignRight s
  case case1 held =>
    rw [ready, Bool.not_true, Bool.or_false] at held
    exact Option.isSome_iff_ne_none.1 held
  case case2 => exact Option.some_ne_none _
  case case3 none =>
    exact absurd up (List.find?_eq_none.1 none n (List.mem_range.2 hn))

/-! ## A port that retrains, and host links that train or fail to (R379, R383, R387) -/

theorem retrain_fabric {p : Nat} (hp : p < 64) (s : State) : retrain p s = noteRetrain (s.onPort p fun x =>
    let x := { x with retrains := x.retrains + 1, recent := [] }
    if x.cause == 0 then x.goes .seeking else x) := if_pos hp

/-- A lit fabric port that retrains counts it and seeks. -/
theorem retrain_port {p : Nat} {s : State} (hp : p < 64) (hl : p < s.chip.ports.length) (lit : (s.port p).cause = 0) :
    (retrain p s).port p = Port.goes { s.port p with retrains := (s.port p).retrains + 1, recent := [] } .seeking := by
  rw [retrain_fabric hp]
  refine (State.port_onPort_same _ hl).trans ?_
  exact if_pos (beq_iff_eq.2 lit)

/-- The wavelengths that a width lights, pair by pair (R380). -/
theorem hostLamps_eq : ∀ width : BitVec 2, width ≠ 0 →
    hostLamps width.toNat = (if width = 1 then 0x0F else 0xFF, if width = 3 then 0xFF else 0) := by decide

/-- A host port that no protection holds comes up on the wavelengths of its width. -/
theorem Port.shine_up {x : Port} (free : x.override = false) (offA : x.offA = 0) (offB : x.offB = 0) (a b : BitVec 8) :
    ((x.shine a b).goes .up).state = .up ∧ ((x.shine a b).goes .up).lamA = a ∧ ((x.shine a b).goes .up).lamB = b := by
  have all : ∀ v : BitVec 8, v &&& ~~~0 = v := fun _ => BitVec.and_allOnes
  simp only [Port.goes, Port.shine, free, offA, offB, all, Bool.false_eq_true, if_false, and_self]

/-- The state in which a host link and its port have trained. -/
def linkTrained (n rate : Nat) (width : BitVec 2) (flit sris : Bool) (s : State) : State :=
  ((lightUp s).onLink n fun l =>
    { l with up := true, rate := rate, width := width.toNat, flit := flit, sris := sris, outage := none }).onPort
    (64 + n) fun x => (x.shine (hostLamps width.toNat).1 (hostLamps width.toNat).2).goes .up

/-- HOST_LINK_UP of a lit port: the link and its port stand as trained, and the module's right may find a holder. -/
theorem execHostLinkUp_trains {port : BitVec 2} {rate : BitVec 3} {width : BitVec 2} {flit sris : Bool} {s : State}
    (slow : 1 ≤ rate.toNat) (fast : rate.toNat ≤ 4) (wide : width ≠ 0) (mode : flit = decide (3 ≤ rate.toNat))
    (lit : ((lightUp s).port (64 + port.toNat)).cause = 0) :
    execHostLinkUp port rate width flit sris s =
      .next (assignRight (linkTrained port.toNat rate.toNat width flit sris s)) := by
  refine check_passed ?_ rfl
  have rated : (rate.toNat == 0) = false := beq_eq_false_iff_ne.2 (Nat.ne_of_gt slow)
  rw [rated, decide_eq_false (Nat.not_lt.2 fast), beq_eq_false_iff_ne.2 wide, mode, lit]
  simp

section
variable {n : Nat} {s : State} (rate : Nat) (width : BitVec 2) (flit sris : Bool)

theorem linkTrained_link (hn : n < s.chip.links.length) : (linkTrained n rate width flit sris s).link n =
    { s.link n with up := true, rate := rate, width := width.toNat, flit := flit, sris := sris, outage := none } := by
  have lights := lightUp_onlyLights s
  refine (State.link_onLink_same _ (by rw [lights.links]; exact hn)).trans ?_
  rw [lights.link]

theorem linkTrained_port (hp : 64 + n < s.chip.ports.length) : (linkTrained n rate width flit sris s).port (64 + n) =
    (((lightUp s).port (64 + n)).shine (hostLamps width.toNat).1 (hostLamps width.toNat).2).goes .up :=
  State.port_onPort_same (s := (lightUp s).onLink n _) _ (Nat.lt_of_lt_of_eq hp (lightUp_onlyLights s).length.symm)

theorem linkTrained_ten : (linkTrained n rate width flit sris s).ten = s.ten := (lightUp_onlyLights s).ten

theorem linkTrained_power : (linkTrained n rate width flit sris s).chip.power = s.chip.power := (lightUp_onlyLights s).power

end

/-- HOST_LINK_TRAIN_FAIL of a lit port counts a retrain of the port, and of the link below its bound. -/
theorem execHostLinkTrainFail_counts {port : BitVec 2} {s : State} (hn : port.toNat < s.chip.links.length)
    (hp : 64 + port.toNat < s.chip.ports.length) (lit : ((lightUp s).port (64 + port.toNat)).cause = 0) :
    ∃ t, execHostLinkTrainFail port s = .next t ∧
      (t.port (64 + port.toNat)).retrains = (s.port (64 + port.toNat)).retrains + 1 ∧
      ((s.link port.toNat).retrains ≠ 0xFF → (t.link port.toNat).retrains = (s.link port.toNat).retrains + 1) := by
  have lights := lightUp_onlyLights s
  refine ⟨_, check_passed (by rw [lit]; rfl) rfl, ?_, fun few => ?_⟩
  · rw [← lights.retrains]
    exact congrArg Port.retrains
      (State.port_onPort_same (s := (lightUp s).onLink port.toNat _) _ (Nat.lt_of_lt_of_eq hp lights.length.symm))
  · refine (congrArg HostLink.retrains (State.link_onLink_same _ (by rw [lights.links]; exact hn))).trans ?_
    rw [lights.link]
    exact if_neg (by simpa using few)

/-- Settles O53: each event of a port or a link has the equation of its case above; the routes, notices and frames that follow leave
the ports and links as the event left them. -/
theorem portEventsTakeEffect : Obligations.PortEventsTakeEffect := by
  unfold Obligations.PortEventsTakeEffect
  refine ⟨?ports, ?lasers, ?links, ?routes⟩
  case ports =>
    intro port s hp p x recent
    have fabric : p < 64 := port.isLt
    refine ⟨?replay, ?retrain, ?lost, rfl, rfl, ?down, ?retry, ?trained⟩
    case replay =>
      intro few lit
      have calm : decide (16 < recent.length) = false := decide_eq_false (Nat.not_lt.2 few)
      refine ⟨_, congrArg Host.Outcome.next (check_passed (by rw [lit]; rfl) (check_passed calm rfl)), ?_⟩
      exact State.port_onPort_same _ hp
    case retrain =>
      intro many lit
      refine ⟨_, congrArg Host.Outcome.next (check_passed (by rw [lit]; rfl) (if_pos (decide_eq_true many))), ?_⟩
      have seen := State.port_onPort_same (s := s) (fun x => { x with replays := x.replays + 1, recent := recent }) hp
      rw [retrain_port fabric (by rw [State.length_onPort]; exact hp) (by rw [seen]; exact lit), seen]
    case lost =>
      intro lit
      refine ⟨_, congrArg Host.Outcome.next (check_passed (by rw [lit]; rfl) rfl), retrain_port fabric hp lit, ?_⟩
      rw [retrain_fabric fabric]
      exact List.mem_append_right _ (List.mem_singleton_self _)
    case down =>
      intro lit
      refine ⟨_, check_passed (by rw [lit]; rfl) rfl, ?_⟩
      rw [unroute_port, State.port_onPort_same _ hp]
      exact ⟨rfl, rfl, unroute_routes (by omega) _⟩
    case retry =>
      intro lit seeks
      refine ⟨_, rfl, ?_⟩
      rw [State.port_onPort_same _ hp]
      exact (if_pos (by rw [lit, seeks]; rfl)).trans (by rw [Port.lit, if_pos fabric])
    case trained =>
      intro peer peerPort tx rx x lit free offA offB addr
      have addressed : ((some peer).isSome && s.chip.fabric.addr.isSome) = true := by
        simpa [Option.isSome_iff_ne_none] using addr
      have trains : ∀ good, ∃ t, exec (.portTrained port good (some peer) peerPort tx rx) s = .next t ∧
          t.port p = x.trained good true (some peer) peerPort tx rx := fun good => by
        have := execPortTrained_port (good := good) (peer := some peer) (peerPort := peerPort) (tx := tx) (rx := rx) hp lit
        rwa [addressed] at this
      refine ⟨?all, ?half, Port.held_inside free tx, ?upper, ?neither⟩
      case all =>
        obtain ⟨t, step, port⟩ := trains 0xFF
        exact ⟨t, step, port.trans (Port.trained_all free offA offB ..)⟩
      case half =>
        obtain ⟨t, step, port⟩ := trains 0x1F
        exact ⟨t, step, port.trans (Port.trained_half free offA offB ..)⟩
      case upper =>
        obtain ⟨t, step, port⟩ := trains 0xF3
        exact ⟨t, step, by rw [port, Port.trained_upper offA]⟩
      case neither =>
        obtain ⟨t, step, port⟩ := trains 0x77
        exact ⟨t, step, by rw [port, Port.trained_neither free offA]⟩
  case lasers =>
    intro port l s known hp
    constructor
    · intro off lit
      refine ⟨_, check_passed (by rw [lit, decide_eq_false (Nat.not_le.2 known)]; rfl) rfl, ?_⟩
      exact laserGuard_holds _ _ hp
    · intro on
      refine ⟨_, check_passed (by rw [on, decide_eq_false (Nat.not_le.2 known)]; rfl) rfl, ?_⟩
      obtain ⟨cause, dark⟩ := darken_port 6 hp
      exact ⟨cause, congrArg some (darken_mtime ..), dark⟩
  case links =>
    intro port s hn hp n
    refine ⟨?down, ?up, ?outage, ?failed⟩
    case down =>
      intro up
      exact ⟨_, rfl, congrArg HostLink.up (hostDown_onPort_link hn up), congrArg HostLink.rate (hostDown_onPort_link hn up),
        congrArg HostLink.outage (hostDown_onPort_link hn up), fun f hf => hostDown_seen up hf⟩
    case up =>
      intro rate width flit sris slow fast wide mode x lit free offA offB
      refine ⟨_, execHostLinkUp_trains slow fast wide mode lit, ?_⟩
      have link := linkTrained_link rate.toNat width flit sris hn
      obtain ⟨state, lampsA, lampsB⟩ := Port.shine_up free offA offB (hostLamps width.toNat).1 (hostLamps width.toNat).2
      rw [assignRight_port, assignRight_link, link, linkTrained_port _ _ _ _ hp, state, lampsA, lampsB, hostLamps_eq width wide]
      refine ⟨rfl, rfl, rfl, rfl, rfl, rfl, rfl, fun _ ready => ?_, fun a held => ?_⟩
      · exact assignRight_given port.isLt (by rw [link]) (by rw [linkTrained_power]; exact ready)
      · exact assignRight_held (by rw [linkTrained_ten]; exact held)
    case outage =>
      intro x hx
      refine ⟨_, rfl, ?_⟩
      rw [State.link_onLink_same _ hn, hx]
    case failed => exact execHostLinkTrainFail_counts hn hp
  case routes =>
    intro dst s v lost w
    refine ⟨rfl, fun x hx there => ?_⟩
    have waits := (List.mem_filter.1 hx).2
    simpa [there] using waits

end Sys2Proof.Machine
end

section
/-!
PROOFS. The reductions and the matrix instructions of update programs: on a part whose domains are on each does what its definition
says, and on any block a matrix instruction changes its destination and what sums note, and nothing else.
-/
namespace Sys2Proof.Machine

/-! ## One instruction on the block in progress -/

/-- With the domains on, an instruction acts on the block's registers and the next one follows. -/
theorem onLed_on {s : State} (ld : BitVec 2) (f : LedRegs → LedRegs) (h : s.off = false) :
    onLed ld f s = .next (ledNext ld f s) := by
  simp only [onLed, State.whenOn_on _ h, ledNext]

section
variable {ld : BitVec 2} {d a b c : BitVec 8} {scope : Scope} {imm : BitVec 16} {tp : Bool} {s : State} (on : s.off = false)
include on

theorem exec_rsum : exec (.rsum ld d a scope imm) s =
    .next (ledNext ld (fun r => ledReduce scope imm.toNat d.toNat ((r.elemReg a.toNat).map ofF32) r) s) := onLed_on ld _ on

theorem exec_rdot : exec (.rdot ld d a b scope imm) s = .next (ledNext ld (fun r => ledReduce scope imm.toNat d.toNat
    (List.zipWith (fun x y => (ofF32 x).mul (ofF32 y)) (r.elemReg a.toNat) (r.elemReg b.toNat)) r) s) := onLed_on ld _ on

theorem exec_rmax : exec (.rmax ld d a scope) s =
    .next (ledNext ld (fun r => ledRmax scope d.toNat (r.elemReg a.toNat) r) s) := onLed_on ld _ on

theorem exec_gram : exec (.gram ld d a tp imm) s = .next (ledNext ld (ledGram d.toNat a.toNat tp imm.toNat) s) :=
  onLed_on ld _ on

theorem exec_qema : exec (.qema ld d a b c) s = .next (ledNext ld (ledQema d.toNat a.toNat b.toNat c.toNat) s) :=
  onLed_on ld _ on

theorem exec_mml : exec (.mml ld d a c tp imm) s = .next (ledNext ld (ledMml d.toNat a.toNat c.toNat tp imm.toNat) s) :=
  onLed_on ld _ on

theorem exec_mmr : exec (.mmr ld d a c tp imm) s = .next (ledNext ld (ledMmr d.toNat a.toNat c.toNat tp imm.toNat) s) :=
  onLed_on ld _ on

theorem exec_cir : exec (.cir ld d a b) s = .next (ledNext ld (ledCir d.toNat a.toNat b.toNat) s) := onLed_on ld _ on

theorem exec_nsnorm : exec (.nsnorm ld d a imm) s = .next (ledNext ld (ledNsnorm d.toNat a.toNat imm.toNat) s) :=
  onLed_on ld _ on

theorem exec_nsstep : exec (.nsstep ld d a b imm) s =
    .next (ledNext ld (ledNsstep d.toNat a.toNat b.toNat imm.toNat) s) := onLed_on ld _ on

end

/-- An instruction does what any other does that gives the block the same registers. -/
theorem ledNext_congr {ld : BitVec 2} {f g : LedRegs → LedRegs} {s : State}
    (h : f { s.ledRegs ld with free := s.freeCtr } = g { s.ledRegs ld with free := s.freeCtr }) :
    ledNext ld f s = ledNext ld g s := by
  simp only [ledNext, h]

/-! ## Pass 2 of a reduction over a wider scope (R239) -/

section
variable {r : LedRegs} {scope : Scope} {w : Word} (wide : scope ≠ .block) (pass2 : r.pass1 = false)
  (came : tget r.comb r.pc = some w)
include came

theorem LedRegs.takeCombined_some (d : Nat) : r.takeCombined d = r.setScalar d w := by
  simp only [LedRegs.takeCombined, came]

include wide pass2

theorem ledReduce_pass2 (imm d : Nat) (vs : List Val) : ledReduce scope imm d vs r = r.setScalar d w := by
  simp [ledReduce, wide, pass2, LedRegs.takeCombined_some came]

theorem ledRmax_pass2 (d : Nat) (ws : List Word) : ledRmax scope d ws r = r.setScalar d w := by
  simp [ledRmax, wide, pass2, LedRegs.takeCombined_some came]

end

section
variable {ld : BitVec 2} {s : State} {scope : Scope} {w : Word} (wide : scope ≠ .block) (pass2 : (s.ledRegs ld).pass1 = false)
  (came : tget (s.ledRegs ld).comb (s.ledRegs ld).pc = some w)
include wide pass2 came

/-- In pass 2 a sum takes the combined value, whatever it sums. -/
theorem ledNext_ledReduce_pass2 (imm d : Nat) (vs : LedRegs → List Val) :
    ledNext ld (fun r => ledReduce scope imm d (vs r) r) s = ledNext ld (fun r => r.setScalar d w) s :=
  ledNext_congr (ledReduce_pass2 (r := { s.ledRegs ld with free := s.freeCtr }) wide pass2 came ..)

theorem ledNext_ledRmax_pass2 (d : Nat) (ws : LedRegs → List Word) :
    ledNext ld (fun r => ledRmax scope d (ws r) r) s = ledNext ld (fun r => r.setScalar d w) s :=
  ledNext_congr (ledRmax_pass2 (r := { s.ledRegs ld with free := s.freeCtr }) wide pass2 came ..)

end

/-! ## What sums and free values leave of a block -/

/-- Every register, the shape and the instruction number of a block are the same; what its sums have noted and the free values
it has used may differ. -/
structure SameBlock (r u : LedRegs) : Prop where
  el : u.el = r.el
  sc : u.sc = r.sc
  q : u.q = r.q
  shape : u.rows = r.rows ∧ u.cols = r.cols ∧ u.pc = r.pc

theorem SameBlock.refl (r : LedRegs) : SameBlock r r := ⟨rfl, rfl, rfl, rfl, rfl, rfl⟩

theorem SameBlock.trans {r u v : LedRegs} (h : SameBlock r u) (g : SameBlock u v) : SameBlock r v := by
  obtain ⟨rows, cols, pc⟩ := h.shape
  obtain ⟨rows', cols', pc'⟩ := g.shape
  exact ⟨g.el.trans h.el, g.sc.trans h.sc, g.q.trans h.q, rows'.trans rows, cols'.trans cols, pc'.trans pc⟩

theorem frees_sameBlock (r : LedRegs) (n : Nat) : SameBlock r (r.frees n).2 := ⟨rfl, rfl, rfl, rfl, rfl, rfl⟩

theorem note_sameBlock (r : LedRegs) (product : Nat) (o : LaOut) : SameBlock r (r.note product o) :=
  ⟨rfl, rfl, rfl, rfl, rfl, rfl⟩

theorem noteAll_sameBlock (r : LedRegs) (product : Nat) (os : List LaOut) : SameBlock r (r.noteAll product os) := by
  unfold LedRegs.noteAll
  induction os generalizing r with
  | nil => exact .refl r
  | cons o os ih => exact (note_sameBlock r product o).trans (ih _)

theorem ledProduct_sameBlock (product imm n k m : Nat) (x y : List Word) (r : LedRegs) :
    SameBlock r (ledProduct product imm n k m x y r).2 := noteAll_sameBlock ..

/-- A matrix register is read as it is, or as free values. -/
theorem matrix_sameBlock (r : LedRegs) (n rows cols : Nat) : SameBlock r (r.matrix n rows cols).2 := by
  unfold LedRegs.matrix
  split
  · split
    · exact .refl r
    · exact frees_sameBlock ..
  · exact frees_sameBlock ..

/-! ## Instructions with a matrix destination (R237) -/

/-- Of the registers, only the matrix register that `d` names may differ. -/
def OnlyMat (d : Nat) (r u : LedRegs) : Prop :=
  u.el = r.el ∧ u.sc = r.sc ∧ (∀ k, k ≠ d - 0x40 → u.q[k]? = r.q[k]?) ∧
    u.rows = r.rows ∧ u.cols = r.cols ∧ u.pc = r.pc

theorem SameBlock.setMat {r u : LedRegs} (h : SameBlock r u) (d : Nat) (m : Mtx) : OnlyMat d r (u.setMat d m) :=
  ⟨h.el, h.sc, fun _ hk => (List.getElem?_set_ne (Ne.symm hk)).trans (congrArg (·[_]?) h.q), h.shape⟩

/-- What sums met, and whether a factor was singular, is noted beside the registers (R240). -/
theorem OnlyMat.noting {d : Nat} {r u : LedRegs} (h : OnlyMat d r u) (os : List LaOut) (singular : Bool) :
    OnlyMat d r { u.meet os with singular := singular } := h

theorem ledGram_onlyMat (d a : Nat) (tp : Bool) (imm : Nat) (r : LedRegs) : OnlyMat d r (ledGram d a tp imm r) := by
  cases tp <;> exact (ledProduct_sameBlock ..).setMat d _

theorem ledQema_onlyMat (d a b c : Nat) (r : LedRegs) : OnlyMat d r (ledQema d a b c r) := by
  unfold ledQema
  split
  · exact ⟨rfl, rfl, fun _ _ => rfl, rfl, rfl, rfl⟩
  · exact (matrix_sameBlock ..).setMat d _

/-- The anchor of CIR may take a free value. -/
theorem ledCir_onlyMat (d a b : Nat) (r : LedRegs) : OnlyMat d r (ledCir d a b r) := by
  have anchored : ∀ (known : Bool) (v : LedRegs), SameBlock v (if known = true then v else (v.frees 1).2) := by
    intro known v
    cases known
    · exact frees_sameBlock v 1
    · exact .refl v
  unfold ledCir
  exact (((matrix_sameBlock ..).trans (anchored _ _)).setMat d _).noting _ _

/-! ## Instructions with an element destination (R237) -/

/-- Of the registers, only the element register `d` may differ, and that only where programs may write it (R236). -/
def OnlyElem (d : Nat) (r u : LedRegs) : Prop :=
  u.sc = r.sc ∧ u.q = r.q ∧ (∀ k, k ≠ d → u.el[k]? = r.el[k]?) ∧ (ledWritable d = false → u.el = r.el) ∧
    u.rows = r.rows ∧ u.cols = r.cols ∧ u.pc = r.pc

theorem SameBlock.setElem {r u : LedRegs} (h : SameBlock r u) (d : Nat) (ws : List Word) : OnlyElem d r (u.setElem d ws) := by
  unfold LedRegs.setElem
  split
  case isTrue w =>
    exact ⟨h.sc, h.q, fun _ hk => (List.getElem?_set_ne (Ne.symm hk)).trans (congrArg (·[_]?) h.el),
      fun n => absurd w (ne_true_of_eq_false n), h.shape⟩
  case isFalse => exact ⟨h.sc, h.q, fun _ _ => congrArg (·[_]?) h.el, fun _ => h.el, h.shape⟩

/-- Whether a factor was singular is noted beside the registers (R240). -/
theorem OnlyElem.noting {d : Nat} {r u : LedRegs} (h : OnlyElem d r u) (singular : Bool) :
    OnlyElem d r { u with singular := singular } := h

theorem ledMml_onlyElem (d a c : Nat) (tp : Bool) (imm : Nat) (r : LedRegs) : OnlyElem d r (ledMml d a c tp imm r) :=
  ((matrix_sameBlock ..).trans (ledProduct_sameBlock ..)).setElem d _

theorem ledMmr_onlyElem (d a c : Nat) (tp : Bool) (imm : Nat) (r : LedRegs) : OnlyElem d r (ledMmr d a c tp imm r) :=
  ((matrix_sameBlock ..).trans (ledProduct_sameBlock ..)).setElem d _

theorem ledNsnorm_onlyElem (d a imm : Nat) (r : LedRegs) : OnlyElem d r (ledNsnorm d a imm r) :=
  ((note_sameBlock ..).setElem d _).noting _

/-- One product of NSSTEP, on the side that is not longer than the other. -/
theorem ledProduct_either_sameBlock (wide : Bool) (product imm n k m n' k' m' : Nat) (x y x' y' : List Word) (r : LedRegs) :
    SameBlock r (if wide then ledProduct product imm n k m x y r else ledProduct product imm n' k' m' x' y' r).2 := by
  cases wide <;> exact ledProduct_sameBlock ..

theorem ledNsstep_onlyElem (d a b imm : Nat) (r : LedRegs) : OnlyElem d r (ledNsstep d a b imm r) :=
  (((ledProduct_either_sameBlock ..).trans (ledProduct_sameBlock ..)).trans (ledProduct_either_sameBlock ..)).setElem d _

/-- Settles O31: each row is one instruction on the block in progress, and its definition says what it changes. -/
theorem ledgerReductionAndMatrixResults : Obligations.LedgerReductionAndMatrixResults := by
  unfold Obligations.LedgerReductionAndMatrixResults
  refine ⟨?results, ?frames⟩
  case results =>
    intro ld d a b c imm tp s on
    refine ⟨?rsum, ?rdot, ?rmax, ?wide, ?gram, ?qema, ?mml, ?mmr, ?cir, ?nsnorm, ?nsstep⟩
    case rsum => exact exec_rsum on
    case rdot => exact exec_rdot on
    case rmax => exact exec_rmax on
    case wide =>
      intro w scope wide pass2 came _
      refine ⟨?_, ?_, ?_⟩
      · rw [exec_rsum on, ledNext_ledReduce_pass2 wide pass2 came]
      · rw [exec_rdot on, ledNext_ledReduce_pass2 wide pass2 came]
      · rw [exec_rmax on, ledNext_ledRmax_pass2 wide pass2 came]
    case gram => exact exec_gram on
    case qema => exact exec_qema on
    case mml => exact exec_mml on
    case mmr => exact exec_mmr on
    case cir => exact exec_cir on
    case nsnorm => exact exec_nsnorm on
    case nsstep => exact exec_nsstep on
  case frames =>
    intro d a b c imm tp r shape
    refine ⟨fun u hu => ?_, fun u hu => ?_⟩
    · have only : OnlyMat d r u := by
        simp only [List.mem_cons, List.not_mem_nil, or_false] at hu
        obtain rfl | rfl | rfl := hu
        · exact ledGram_onlyMat ..
        · exact ledQema_onlyMat ..
        · exact ledCir_onlyMat ..
      exact only
    · have only : OnlyElem d r u := by
        simp only [List.mem_cons, List.not_mem_nil, or_false] at hu
        obtain rfl | rfl | rfl | rfl := hu
        · exact ledMml_onlyElem ..
        · exact ledMmr_onlyElem ..
        · exact ledNsnorm_onlyElem ..
        · exact ledNsstep_onlyElem ..
      exact only

end Sys2Proof.Machine
end

section
/-!
PROOFS. The conversion, function, activation and cross-lane instructions: what an instruction that issues does, what issuing and the
conditions of a program leave of a core's lanes, and the register that each writes.
-/
namespace Sys2Proof.Machine

/-! ## An instruction that issues (R122) -/

/-- The thread that a core serves next is ready: a program runs there. -/
theorem servesNext_ready {s : State} {core : BitVec 7} {n : Nat} (h : s.servesNext core = some n) :
    s.ready ⟨core, BitVec.ofNat 4 n⟩ = true := by
  unfold State.servesNext at h
  simpa using List.find?_some h

theorem issues_prog {h : Hart} {i : Instr} {s : State} (hi : s.issues h i = true) : ∃ p, s.prog h = some p := by
  simp only [State.issues, Bool.and_eq_true, beq_iff_eq] at hi
  obtain ⟨⟨next, _⟩, _⟩ := hi
  have ready := servesNext_ready next
  rw [BitVec.ofNat_toNat, BitVec.setWidth_eq] at ready
  cases hp : s.prog h with
  | some p => exact ⟨p, rfl⟩
  | none => simp [State.ready, hp] at ready

/-- A read that meets nothing goes on, and asks for its credits. -/
theorem workReads_clear {id : PkgId} {t : Traffic} {leave : State → State} {rs : List (Nat × Nat)} {s : State}
    (k : State → State) (h : s.meets rs = .clear) : workReads id t leave rs s k = k (s.charge t id.acct.toNat rs) := by
  rw [workReads, h]

/-- Credits leave a thread as it was. -/
@[simp] theorem thread_charge (t : Traffic) (a : Nat) (rs : List (Nat × Nat)) (s : State) (h : Hart) :
    (s.charge t a rs).thread h = s.thread h := rfl

theorem readBy_prog {h : Hart} {s : State} {p : VProg} (hp : s.prog h = some p) (rs : List (Nat × Nat)) :
    readBy h rs s = s.charge .compute p.desc.pkg.acct.toNat rs := by
  rw [readBy, hp]

/-- An instruction that issues takes its effect, given its thread as it was. -/
theorem hartOp_issues {h : Hart} {i : Instr} {s : State} (hi : Issues h i s) (k : Thread → State → State) :
    hartOp h i s k = .next (ran h s (k (s.thread h))) := by
  obtain ⟨issues, reads⟩ := hi
  obtain ⟨p, hp⟩ := issues_prog issues
  unfold hartOp ran
  rw [hp]
  dsimp only
  rw [if_pos issues, workReads_clear _ reads, readBy_prog hp, thread_charge]

/-- An instruction of the vector unit that issues writes registers of its core. -/
theorem vectorOp_issues {h : Hart} {i : Instr} {s : State} (hi : Issues h i s) (f : Thread → Core → Core) :
    vectorOp h i s f = .next (wroteCore h (f (s.thread h)) s) := hartOp_issues hi _

/-! ## What issuing and the conditions of a program leave of a core's lanes -/

/-- The V and PM registers of two cores are the same. -/
structure SameLanes (c c' : Core) : Prop where
  v : c'.v = c.v
  pm : c'.pm = c.pm

section
variable {c c' : Core} (h : SameLanes c c')
include h

theorem SameLanes.vreg (i : BitVec 5) : c'.vreg i = c.vreg i := by simp only [Core.vreg, h.v]

theorem SameLanes.pmask (i : BitVec 3) : c'.pmask i = c.pmask i := by simp only [Core.pmask, h.pm]

theorem SameLanes.active {α : Type} (pm : BitVec 3) (xs : List α) : c'.active pm xs = c.active pm xs := by
  simp only [Core.active, h.pmask]

theorem SameLanes.setV (i : BitVec 5) (pm : BitVec 3) (new : List Word) : SameLanes (c.setV i pm new) (c'.setV i pm new) :=
  ⟨by simp only [Core.setV, h.v, h.pmask], h.pm⟩

end

/-- The state in which a hart has issued an instruction that has still to take effect. -/
def issued (h : Hart) (s : State) : State := (readBy h [(s.codeAddr h, 4)] s).issue h

theorem readBy_cores (h : Hart) (rs : List (Nat × Nat)) (s : State) : (readBy h rs s).cores = s.cores := by
  unfold readBy
  split <;> rfl

theorem readBy_mem (h : Hart) (rs : List (Nat × Nat)) (s : State) : (readBy h rs s).mem = s.mem := by
  unfold readBy
  split <;> rfl

theorem issued_mem (h : Hart) (s : State) : (issued h s).mem = s.mem := readBy_mem ..

theorem issued_cores_length (h : Hart) (s : State) : (issued h s).cores.length = s.cores.length := by
  simp only [issued, State.issue, State.onCore, length_lmod, readBy_cores]

/-- Issuing moves threads, the turn and the issue queue, and no lane. -/
theorem issued_sameLanes (h : Hart) (s : State) (n : Nat) : SameLanes (s.core n) ((issued h s).core n) := by
  have read : (readBy h [(s.codeAddr h, 4)] s).core n = s.core n := by simp only [State.core, readBy_cores]
  rw [issued, State.issue, State.core_onCore, read]
  split <;> exact ⟨rfl, rfl⟩

theorem ran_eq (h : Hart) (s : State) (k : State → State) :
    ran h s k = if isVector (s.fetch h) then (k (issued h s)).leaveQueue h else k (issued h s) := rfl

/-- What an instruction does is what its effect does to the state in which it has issued. -/
theorem ran_congr {h : Hart} {s : State} {k k' : State → State} (e : k (issued h s) = k' (issued h s)) :
    ran h s k = ran h s k' := by
  rw [ran_eq, ran_eq, e]

theorem ran_mem (h : Hart) (s : State) (k : State → State) : (ran h s k).mem = (k (issued h s)).mem := by
  rw [ran_eq]
  split <;> rfl

/-- A change of a core beside its V registers. -/
theorem core_onCore_v {f : Core → Core} (hf : ∀ c, (f c).v = c.v) (s : State) (i n : Nat) :
    ((s.onCore i f).core n).v = (s.core n).v := by
  rw [State.core_onCore]
  split
  · exact hf _
  · rfl

/-- Leaving the issue queue changes no lane. -/
theorem ran_v (h : Hart) (s : State) (k : State → State) (n : Nat) :
    ((ran h s k).core n).v = ((k (issued h s)).core n).v := by
  rw [ran_eq]
  split
  · refine core_onCore_v ?_ ..
    exact fun _ => rfl
  · rfl

/-- What meters and counters keep, conditions that are counted keep. -/
theorem countConds_keeps {P : State → Prop} (num : ∀ a i n s, P s → P (s.num a i n))
    (bump : ∀ src die a u n s, P s → P (s.bump src die a u n)) (acct die : Nat) (unit : Option Nat) (c : Conds) {s : State}
    (h : P s) : P (countConds acct die unit c s) := by
  have meter : ∀ i n s, P s → P (if n == 0 then s else s.num acct i n) := fun i n s hs => by
    split
    · exact hs
    · exact num _ _ _ _ hs
  have counter : ∀ src n s, P s → P (if n == 0 then s else s.bump src die (some acct) unit n) := fun src n s hs => by
    split
    · exact hs
    · exact bump _ _ _ _ _ _ hs
  exact counter _ _ _ (counter _ _ _ (counter _ _ _ (meter _ _ _ (meter _ _ _ (meter _ _ _ (meter _ _ _ (meter _ _ _
    (meter _ _ _ (meter _ _ _ h)))))))))

/-- The conditions that a program meets are counted and reach its result word: memory and every V register are as before. -/
theorem progConds_keeps (h : Hart) (shadow : Nat) (c : Conds) (s : State) :
    (progConds h shadow c s).mem = s.mem ∧ ∀ n, ((progConds h shadow c s).core n).v = (s.core n).v := by
  unfold progConds
  split
  · exact ⟨rfl, fun _ => rfl⟩
  · next p _ =>
    have counted := countConds_keeps (P := fun u => u.mem = s.mem ∧ u.cores = s.cores) (fun _ _ _ _ h => h)
      (fun _ _ _ _ _ _ h => h) p.desc.pkg.acct.toNat (h.core.toNat / 16) (some (h.core.toNat % 16)) c ⟨rfl, rfl⟩
    refine ⟨?mem, fun n => (core_onCore_v ?beside ..).trans (congrArg (fun cs : List Core => (cs.getD n Core.reset).v) ?cores)⟩
    case beside => exact fun _ => rfl
    case mem => split <;> exact counted.1
    case cores => split <;> exact counted.2

/-- A conversion that issues writes its core's lanes, from what they were, and leaves memory as it was. -/
theorem hartOp_converts {h : Hart} {i : Instr} {s : State} (hi : Issues h i s) (hl : h.core.toNat < s.cores.length)
    {conds : State → Conds} {f : Core → Core → Core} {v : List (List Word)}
    (row : exec i s = hartOp h i s fun _ u =>
      progConds h 0 (conds u) (u.onCore h.core.toNat (f (u.core h.core.toNat))))
    (values : ∀ c, SameLanes (s.core h.core.toNat) c → (f c c).v = v) :
    ∃ u, exec i s = .next u ∧ u.mem = s.mem ∧ (u.core h.core.toNat).v = v := by
  refine ⟨_, row.trans (hartOp_issues hi _), ?_, ?_⟩
  · rw [ran_mem, (progConds_keeps ..).1, State.onCore_mem, issued_mem]
  · rw [ran_v, (progConds_keeps ..).2, State.core_onCore, if_pos ⟨rfl, by rwa [issued_cores_length]⟩]
    exact values _ (issued_sameLanes ..)

/-! ## The rows: functions, activations, lanes and Coin words -/

section
variable (h : Hart) (d a b : BitVec 5) (pm : BitVec 3) (s : State)

theorem exec_vfn (f : Fn) : exec (.vfn h d a f pm) s =
    vectorOp h (.vfn h d a f pm) s fun _ c => c.setV d pm ((c.vreg a).map (libFn f)) := rfl

theorem exec_vact (act : Act) : exec (.vact h d a b act pm) s =
    vectorOp h (.vact h d a b act pm) s fun _ c => c.setV d pm ((c.vreg a).map (actFn act ((c.vreg b).getD 0 0))) := rfl

theorem exec_vdact (act : Act) : exec (.vdact h d a b act pm) s =
    vectorOp h (.vdact h d a b act pm) s fun t c => c.setV d pm (List.zipWith (dactFn act t.apr) (c.vreg a) (c.vreg b)) := rfl

theorem exec_vperm : exec (.vperm h d a b pm) s = vectorOp h (.vperm h d a b pm) s fun _ c =>
    c.setV d pm ((c.vreg b).map fun i => (c.vreg a).getD (i.toNat % lanes) 0) := rfl

theorem exec_vbcast : exec (.vbcast h d a pm) s = vectorOp h (.vbcast h d a pm) s fun t c =>
    c.setV d pm (List.replicate lanes ((t.get a).setWidth 32)) := rfl

theorem exec_vrot : exec (.vrot h d a b pm) s = vectorOp h (.vrot h d a b pm) s fun t c =>
    c.setV d pm ((c.vreg a).rotateLeft ((t.get b).toNat % lanes)) := rfl

theorem exec_vlane : exec (.vlane h d a b pm) s = vectorOp h (.vlane h d a b pm) s fun t c =>
    c.setV d pm (List.replicate lanes ((c.vreg a).getD ((t.get b).toNat % lanes) 0)) := rfl

/-- With B = 31 the register after Xb is X0 (log entry 145). -/
theorem exec_vrand : exec (.vrand h d a b pm) s = vectorOp h (.vrand h d a b pm) s fun t c =>
    c.setV d pm ((List.range lanes).map fun i => coinHigh (t.get b) (((t.get (b + 1)).setWidth 48).setWidth 64 <<< 16 ||| 3)
      (t.get a + BitVec.ofNat 64 i)) := rfl

/-! ## The rows: conversions -/

/-- The exact values of packed blocks: elements in Va, scales in V(a+1) (R54, R56). -/
def Core.unpacked (c : Core) (a : BitVec 5) (f : Fmt) : List Val :=
  (List.zipWith (fun sc el => mxUnpack f ⟨sc, el⟩) (unpackBits 8 128 (lanesToBits ((c.vreg (a + 1)).take 32)))
    (chunks 32 (unpackBits f.width lanes (lanesToBits (c.vreg a))))).flatten

theorem SameLanes.unpacked {c c' : Core} (same : SameLanes c c') (f : Fmt) : c'.unpacked a f = c.unpacked a f := by
  simp only [Core.unpacked, same.vreg]

/-- What UNPACK does on a core: the values reach Vd, and those beyond FP32 are counted. -/
def unpackTo (n : Nat) (c : Core) (f : Fmt) (u : State) : State :=
  progConds h 0 { Conds.zero with
      cvtSat := ((c.active pm (c.unpacked a f)).filter fun v => (convert .fp32 .rne false v).ovf).length }
    (u.onCore n fun x => x.setV d pm ((c.unpacked a f).map toF32))

theorem exec_vmxUnpack (fmt : MFmt) : exec (.vmxUnpack h d a fmt pm) s = hartOp h (.vmxUnpack h d a fmt pm) s fun _ u =>
    unpackTo h d a pm h.core.toNat (u.core h.core.toNat) (mfmt fmt) u := rfl

/-- VCVT on one lane: the element in its low bits, from one scalar format to another (R49, R129). -/
def cvtLane (src dst : SFmt) (cvt : BitVec 4) (w : Word) : Conv :=
  convert (sfmt dst) ((cvtOf cvt.toNat).getD (.rne, false)).1 ((cvtOf cvt.toNat).getD (.rne, false)).2
    ((sfmt src).layout.decode (w.toNat % 2 ^ (sfmt src).width))

/-- Vd of a core takes the codes of another core's converted elements. -/
def cvtTo (src dst : SFmt) (cvt : BitVec 4) (x c : Core) : Core :=
  c.setV d pm (((x.vreg a).map (cvtLane src dst cvt)).map fun y => BitVec.ofNat 32 y.code)

theorem exec_vcvt (src dst : SFmt) (cvt : BitVec 4) : ∃ conds : State → Conds,
    exec (.vcvt h d a src dst cvt pm) s = hartOp h (.vcvt h d a src dst cvt pm) s fun _ u =>
      progConds h 0 (conds u) (u.onCore h.core.toNat (cvtTo d a pm src dst cvt (u.core h.core.toNat))) := by
  have row : exec (.vcvt h d a src dst cvt pm) s = execVcvt h d a src dst cvt pm s := rfl
  rw [row, execVcvt]
  unfold cvtTo
  exact ⟨_, rfl⟩

/-- Vd and V(d+1) of a core take the element bits and the scales of another core's blocks (R56). -/
def packTo (f : Fmt) (x c : Core) : Core :=
  let blocks := (chunks 32 (x.vreg a)).map fun b => mxPack f (b.map ofF32)
  let elems := bitsToLanes (f.width * lanes) (packBits f.width (blocks.flatMap (·.elems)))
  let scales := bitsToLanes (8 * 128) (packBits 8 (blocks.map (·.scale)))
  (c.setV d pm (overLanes (c.vreg d) elems)).setV (d + 1) pm (overLanes (c.vreg (d + 1)) scales)

theorem SameLanes.packTo {c c' : Core} (same : SameLanes c c') (f : Fmt) :
    SameLanes (packTo d a pm f c c) (packTo d a pm f c' c') := by
  simp only [Machine.packTo, same.vreg]
  exact (same.setV ..).setV ..

theorem exec_vmxPack (fmt : MFmt) : ∃ conds : State → Conds,
    exec (.vmxPack h d a fmt pm) s = hartOp h (.vmxPack h d a fmt pm) s fun _ u =>
      progConds h 0 (conds u) (u.onCore h.core.toNat (packTo d a pm (mfmt fmt) (u.core h.core.toNat))) := by
  have row : exec (.vmxPack h d a fmt pm) s = execVmxPack h d a fmt pm s := rfl
  rw [row, execVmxPack]
  unfold packTo
  exact ⟨_, rfl⟩

end

/-- Settles O27: each row issues, and writes what its definition computes from lanes that issuing leaves as they were. -/
theorem conversionFunctionAndLaneResults : Obligations.ConversionFunctionAndLaneResults := by
  unfold Obligations.ConversionFunctionAndLaneResults
  intro h d a b pm s t put
  refine ⟨?unpack, ?fn, ?act, ?dact, ?perm, ?bcast, ?rot, ?lane, ?rand, fun hl => ⟨?cvt, ?pack⟩⟩
  case unpack =>
    intro fmt hi
    have same := issued_sameLanes h s h.core.toNat
    refine (exec_vmxUnpack ..).trans ((hartOp_issues hi _).trans (congrArg _ (ran_congr ?_)))
    rw [unpackTo, same.unpacked, same.active]
    rfl
  case fn => exact fun f hi => (exec_vfn ..).trans (vectorOp_issues hi _)
  case act => exact fun act hi => (exec_vact ..).trans (vectorOp_issues hi _)
  case dact => exact fun act hi => (exec_vdact ..).trans (vectorOp_issues hi _)
  case perm => exact fun hi => (exec_vperm ..).trans (vectorOp_issues hi _)
  case bcast => exact fun hi => (exec_vbcast ..).trans (vectorOp_issues hi _)
  case rot => exact fun hi => (exec_vrot ..).trans (vectorOp_issues hi _)
  case lane => exact fun hi => (exec_vlane ..).trans (vectorOp_issues hi _)
  case rand => exact fun hi => (exec_vrand ..).trans (vectorOp_issues hi _)
  case cvt =>
    intro src dst cvt hi
    obtain ⟨conds, row⟩ := exec_vcvt h d a pm s src dst cvt
    refine hartOp_converts hi hl row fun c same => ?_
    rw [cvtTo, same.vreg, List.map_map]
    exact (same.setV ..).v
  case pack =>
    intro fmt hi
    obtain ⟨conds, row⟩ := exec_vmxPack h d a pm s fmt
    exact hartOp_converts hi hl row fun c same => (same.packTo d a pm (mfmt fmt)).v

end Sys2Proof.Machine
end

section
/-!
PROOFS. Tiles and transfers: what work does whose messages cross and whose memory reads and is written without error, the run of a
tile operation after a change, and one equation for each row.
-/
namespace Sys2Proof.Machine

/-! ## Work that nothing stops -/

/-- Work whose messages cross goes on behind them (R368, R370). -/
theorem carry_crosses {ms : List (Vc × List Hop)} {s : State} {n : Noc} (k : State → State)
    (h : s.chip.noc.crossAll ms = some n) : s.carry ms k = k (crossed s n) := by
  rw [State.carry, h]
  rfl

/-- A network that messages have left as it was. -/
theorem crossed_self (s : State) : crossed s s.chip.noc = s := rfl

/-- Messages that cross the network leave what can be written as it was. -/
theorem crossed_writes (s : State) (n : Noc) (a len : Nat) : (crossed s n).writes a len = s.writes a len := rfl

/-- A write that goes through goes on, and asks for its credits. -/
theorem workWrites_writes {id : PkgId} {t : Traffic} {leave : State → State} {rs : List (Nat × Nat)} {s : State}
    (k : State → State) (h : ∀ r ∈ rs, s.writes r.1 r.2 = true) :
    workWrites id t leave rs s k = k (s.charge t id.acct.toNat rs) := by
  simp only [State.writes, Bool.and_eq_true, Bool.not_eq_true'] at h
  have waits : (rs.any fun r => s.hostWaits r.1) = false := List.any_eq_false.2 fun r hr => ne_true_of_eq_false (h r hr).1.1
  have dead : (rs.any fun r => s.hostDead r.1 || s.rangeFails r.1 r.2) = false :=
    List.any_eq_false.2 fun r hr => by simp [(h r hr).1.2, (h r hr).2]
  simp only [workWrites, waits, dead, Bool.false_eq_true, if_false]

/-- A reader of nothing meets nothing. -/
theorem meets_nil (s : State) : s.meets [] = .clear := by
  have intact : s.corruptIn [] = none := List.find?_eq_none.2 fun _ _ => Bool.false_ne_true
  simp [State.meets, intact, State.unreadable]

/-- No access asks for no credit. -/
theorem charge_nil (t : Traffic) (a : Nat) (s : State) : s.charge t a [] = s := rfl

/-- A descriptor's package is the one that its identity names. -/
theorem desc_pkg {s : State} {d : DescId} {p : Pkg} {x : Desc} (h : s.desc d = some (p, x)) : p.id = d.pkg := by
  unfold State.desc at h
  split at h
  · cases h
  · next q hq =>
    split at h
    · cases h
    · cases h
      simpa using List.find?_some hq

/-! ## Transfers (R161, R163, R172, R368) -/

/-- An engine's turn falls to the descriptor that its round robin chooses. -/
theorem segmentTurn_serves {d : DescId} {s : State} {p : Pkg} {x : Desc} (f : State → State)
    (h : s.serves (1256 + p.die x) (hasSegment s (p.die x)) d = true) :
    segmentTurn d p x s f = f (s.served (1256 + p.die x) d.pkg.acct.toNat) := by
  rw [segmentTurn, if_pos h]

/-- A segment whose buffer is reserved, whose messages cross and whose ranges read and are written without error moves, and asks
for its credits. -/
theorem segment_moves {d : DescId} {s : State} {at_ die : Nat} {src dst : List (Nat × Nat)} {id : PkgId} {t : Traffic}
    (k : State → State) (hr : s.reserved d at_ = true)
    (hn : s.chip.noc.crossAll (readMsgs die src ++ dataMsgs die dst) = some s.chip.noc) (hm : s.meets src = .clear)
    (hw : ∀ r ∈ dst, s.writes r.1 r.2 = true) :
    (if !s.reserved d at_ then s else s.carry (readMsgs die src ++ dataMsgs die dst) fun u =>
      pkgReads id t src u fun u => pkgWrites id t dst u k) =
      k ((s.charge t id.acct.toNat src).charge t id.acct.toNat dst) := by
  have written : ∀ r ∈ dst, (s.charge t id.acct.toNat src).writes r.1 r.2 = true := hw
  rw [hr, Bool.not_true, if_neg Bool.false_ne_true, carry_crosses _ hn, crossed_self, pkgReads, workReads_clear _ hm, pkgWrites,
    workWrites_writes _ written]

theorem execXfer_transfer {d : DescId} {s : State} {p : Pkg} {x : Desc} (hd : s.desc d = some (p, x)) (hk : x.kind = 3) :
    execXfer d s = .next (segmentTurn d p x s
      (xferSegment d p (p.die x) x.raw x.progress fun s => s.onDesc d fun x => { x with progress := x.progress + 1 })) := by
  simp [execXfer, hd, hk]

/-- A segment of a PREFETCH that nothing stops is copied, and asks for its credits. -/
theorem execPrefetch_copies {d : DescId} {s : State} {p : Pkg} {x : Desc} {k key n dst : Nat} {m : Model} {f : Pf}
    (hd : s.desc d = some (p, x)) (hk : x.kind = 7) (hs : s.slotOf p.id.acct.toNat p.model = some k) (hmod : s.model k = some m)
    (hf : pfOf x.raw = f) (hsrc : f.source k m (x.unit % 8) p.epoch.toNat x.progress = (key, n))
    (hdst : f.dst + 65536 * x.progress = dst) (hv : s.serves (1256 + p.die x) (hasSegment s (p.die x)) d = true)
    (hr : s.reserved d f.dst = true)
    (hn : s.chip.noc.crossAll (readMsgs (p.die x) (s.keySpots key n) ++ dataMsgs (p.die x) [(dst, n)]) = some s.chip.noc)
    (hm : s.meets (s.keySpots key n) = .clear) (hw : s.writes dst n = true) :
    execPrefetch d s = .next ((f.copySeg k m (x.unit % 8) p.epoch.toNat x.progress
      (((s.served (1256 + p.die x) d.pkg.acct.toNat).charge .compute d.pkg.acct.toNat (s.keySpots key n)).charge .compute
        d.pkg.acct.toNat [(dst, n)])).onDesc d fun x => { x with progress := x.progress + 1 }) := by
  subst hf hdst
  simp only [execPrefetch, hd, hk, hs, hmod, hsrc, bne_self_eq_false, Bool.false_eq_true, if_false]
  rw [segmentTurn_serves _ hv]
  exact congrArg _ (segment_moves (s := s.served (1256 + p.die x) d.pkg.acct.toNat) _ hr hn hm
    (List.forall_mem_singleton.2 hw))

/-! ## The run of an operation after a change (R112, R116) -/

/-- The run of an operation reads from its core's runs. -/
theorem tileRun_congr {s t : State} {core : Nat} (h : (t.core core).tiles = (s.core core).tiles) (first : DescId) :
    t.tileRun core first = s.tileRun core first := by
  rw [State.tileRun, State.tileRun, h]

/-- A change of an operation's run is what it does to that run. -/
theorem tileRun_onRun {s : State} {core : Nat} {first : DescId} {r : TileRun} (hl : core < s.cores.length)
    (h : s.tileRun core first = some r) {f : TileRun → TileRun} (hf : ∀ t, (f t).first = t.first) :
    (onRun core first f s).tileRun core first = some (f r) := by
  have named := List.find?_some (p := fun t : TileRun => t.first == first) h
  have kept : ((fun t : TileRun => t.first == first) ∘ fun t => if t.first == first then f t else t) =
      fun t => t.first == first := by
    funext t
    by_cases ht : (t.first == first) = true
    · simp only [Function.comp_apply, ht, if_true, hf]
    · simp only [Function.comp_apply, ht, Bool.false_eq_true, if_false]
  unfold State.tileRun at h
  rw [State.tileRun, onRun, State.core_onCore, if_pos ⟨rfl, hl⟩, List.find?_map, kept, h, Option.map_some, if_pos named]

/-- Counting a pass's products leaves memory and the cores as they were. -/
theorem countProducts_mem (acct core : Nat) (x : Desc) (as bs : List (List Val)) (s : State) :
    (countProducts acct core x as bs s).mem = s.mem := rfl

theorem countProducts_cores (acct core : Nat) (x : Desc) (as bs : List (List Val)) (s : State) :
    (countProducts acct core x as bs s).cores = s.cores := rfl

/-- Taking accumulators leaves the runs of every core as they were. -/
theorem takeAcc_tiles (core mask : Nat) (acc1 : List Bool) (s : State) (n : Nat) :
    ((takeAcc core mask acc1 s).core n).tiles = (s.core n).tiles := by
  rw [takeAcc, State.core_onCore]
  split <;> rfl

/-! ## TILE (R61, R63, R86, R87) -/

section
variable {d : DescId} {s : State} {p : Pkg} {x last : Desc} {r : TileRun}

/-- The first descriptor of the operation of a descriptor. -/
def Pkg.firstOf (p : Pkg) (d : DescId) : DescId := ⟨d.pkg, BitVec.ofNat 14 ((p.chain d.idx.toNat).headD 0)⟩

/-- The accumulators with the products of a descriptor. -/
def TileRun.plus (r : TileRun) (s : State) (core : Nat) (x : Desc) : List La :=
  accumulate (passAnchor r.base r.pass) ((x.opnd false).values s core x.tileM x.tileK)
    ((x.opnd true).values s core x.tileN x.tileK) r.acc

/-- The accumulators that a run has on its arrays, or takes (R87). -/
def State.tileAcc (s : State) (core : Nat) (first : DescId) (r : TileRun) : List Bool :=
  if r.holds then r.acc1 else s.pickAcc core first

/-- The state in which a descriptor's operands are read and its products counted. -/
def tileCounted (d : DescId) (core : Nat) (x : Desc) (s : State) : State :=
  countProducts d.pkg.acct.toNat core x ((x.opnd false).values s core x.tileM x.tileK)
    ((x.opnd true).values s core x.tileN x.tileK) (s.charge .compute d.pkg.acct.toNat (x.operandSpans core))

/-- That state once the arrays have the run's accumulators. -/
def tileTaken (d : DescId) (core : Nat) (first : DescId) (x : Desc) (r : TileRun) (s : State) : State :=
  if r.holds then tileCounted d core x s else takeAcc core x.arrays (s.tileAcc core first r) (tileCounted d core x s)

/-- A run into which a descriptor has accumulated. -/
def TileRun.follow (s : State) (core i : Nat) (x : Desc) (acc1 : List Bool) (t : TileRun) : TileRun :=
  { t with descs := t.descs ++ [i], awaiting := false, acc1 := acc1, acc := t.plus s core x }

/-- The next descriptor of an operation that has its arrays and whose operands read without error accumulates. -/
theorem execTile_accumulates (hd : s.desc d = some (p, x)) (hk : x.kind = 1) (hst : x.state = .started)
    (hlast : p.descs[(p.chain d.idx.toNat).getLastD 0]? = some last)
    (hr : s.tileRun (p.core x) (p.firstOf d) = some r) (hw : r.awaiting = false)
    (hnext : (p.chain d.idx.toNat)[r.descs.length]? = some d.idx.toNat)
    (hold : r.holds = true ∨ s.arraysOpen (p.core x) (p.firstOf d) x.arrays = true)
    (hm : s.meets (x.operandSpans (p.core x)) = .clear) :
    execTile d s = .next (onRun (p.core x) (p.firstOf d)
      (.follow s (p.core x) d.idx.toNat x (s.tileAcc (p.core x) (p.firstOf d) r))
      (tileTaken d (p.core x) (p.firstOf d) x r s)) := by
  have arrays : (r.holds || s.arraysOpen (p.core x) (p.firstOf d) x.arrays) = true := by simpa using hold
  unfold Pkg.firstOf at hr arrays
  simp only [execTile, hd, hr, hlast, hk, hst, hw, hnext, arrays, bne_self_eq_false, Bool.or_self, Bool.false_and,
    Bool.not_true, Bool.false_eq_true, if_false]
  rw [workReads_clear _ hm]
  rfl

theorem tileCounted_mem (core : Nat) : (tileCounted d core x s).mem = s.mem := by
  rw [tileCounted, countProducts_mem, State.charge_mem]

theorem tileCounted_cores (core : Nat) : (tileCounted d core x s).cores = s.cores := by
  rw [tileCounted, countProducts_cores, State.charge_cores]

theorem tileTaken_mem (core : Nat) (first : DescId) : (tileTaken d core first x r s).mem = s.mem := by
  rw [tileTaken]
  split
  · exact tileCounted_mem core
  · rw [takeAcc, State.onCore_mem, tileCounted_mem]

theorem tileTaken_tileRun (core : Nat) (first : DescId) :
    (tileTaken d core first x r s).tileRun core first = s.tileRun core first := by
  have counted : (tileCounted d core x s).core core = s.core core := by rw [State.core, tileCounted_cores, ← State.core]
  rw [tileTaken]
  split
  · exact tileRun_congr (congrArg Core.tiles counted) first
  · exact tileRun_congr ((takeAcc_tiles ..).trans (congrArg Core.tiles counted)) first

theorem tileTaken_cores_length (core : Nat) (first : DescId) :
    (tileTaken d core first x r s).cores.length = s.cores.length := by
  rw [tileTaken]
  split
  · rw [tileCounted_cores]
  · rw [takeAcc, State.onCore, length_lmod, tileCounted_cores]

end

/-! ## TILE_PASS_END (R110, R118) -/

/-- A field of two bits is zero where both of its bits are. -/
theorem bitField_two_zero {v : Nat} (h : bitField v 0 2 = 0) : bitField v 0 1 = 0 ∧ bitField v 1 1 = 0 := by
  simp only [bitField, Nat.shiftRight_eq_div_pow] at *
  omega

section
variable {d : DescId} {s : State} {p : Pkg} {x last : Desc} {r : TileRun}

/-- Without a bias and a residual the end of a pass reads no addend. -/
theorem addendSpans_none (epoch : Nat) (h : bitField (x.u 0x44 4) 0 2 = 0) : x.addendSpans s epoch = [] := by
  obtain ⟨bias, residual⟩ := bitField_two_zero h
  simp [Desc.addendSpans, bias, residual]

/-- The end of a pass whose output is an image that can be written, and whose message crosses, writes it and ends the
operation. -/
theorem passEnd_image {first : DescId} {core acct out : Nat} {chain : List Nat} {acc : List La} {n : Noc} {A : Int} {img : Bytes}
    (hid : p.id.acct.toNat = acct) (hA : passAnchor r.base r.pass = A) (hout : bitField (last.u 0x38 8) 0 52 = out)
    (himg : tileImage last A acc = img) (ho : last.ofmt = 0xA) (hw : s.writes out img.length = true)
    (hn : s.chip.noc.crossAll (dataMsgs (core / 16) [(out, img.length)]) = some n) :
    passEnd p first core chain r last acc s = finishTile p core first chain 0 (unsigned 10 A * 2 ^ 16)
      (((((crossed s n).charge .compute acct [(out, img.length)]).num acct 7 (longCount acc)).bump 0x504 (core / 16) (some acct)
        (some (core % 16)) (longCount acc)).write out img) := by
  have written : ∀ q ∈ [(out, img.length)], (crossed s n).writes q.1 q.2 = true :=
    List.forall_mem_singleton.2 ((crossed_writes ..).trans hw)
  subst hid hA hout himg
  unfold passEnd
  dsimp only
  rw [if_pos (beq_iff_eq.2 ho), carry_crosses _ hn, workWrites_writes _ written]

/-- The end of a pass without addends goes on to its output. -/
theorem execTilePassEnd_plain (hd : s.desc d = some (p, x)) (hr : s.tileRun (p.core x) (p.firstOf d) = some r)
    (hlast : p.descs[(p.chain d.idx.toNat).getLastD 0]? = some last) (hc : r.descs = p.chain d.idx.toNat)
    (ha : r.awaiting = false) (hb : bitField (last.u 0x44 4) 0 2 = 0) (hp : last.pinCount = 0)
    (hw : (last.writeSpans.any fun r => s.hostWaits r.1) = false) :
    execTilePassEnd d s =
      .next (passEnd p (p.firstOf d) (p.core x) (p.chain d.idx.toNat) r last r.acc s) := by
  have reads : last.addendSpans s p.epoch.toNat ++ imageSpans s p.epoch.toNat last.pinCount last.pinAddr = [] := by
    rw [addendSpans_none _ hb, hp]
    rfl
  have images : ∀ u A acc, withImages u p last A acc = some acc := by
    intro u A acc
    rw [withImages, hp]
    rfl
  unfold Pkg.firstOf at hr
  simp only [execTilePassEnd, hd, hr, hlast, hc, ha, hw, reads, bne_self_eq_false, Bool.or_self, Bool.false_eq_true, if_false]
  rw [workReads_clear _ (meets_nil s), charge_nil, (bitField_two_zero hb).1]
  simp only [images]
  rfl

/-- An image that can be written does not wait for a host link. -/
theorem writeSpans_image_open {n : Nat} (ho : last.ofmt = 0xA) (hw : s.writes (bitField (last.u 0x38 8) 0 52) n = true) :
    (last.writeSpans.any fun r => s.hostWaits r.1) = false := by
  simp only [State.writes, Bool.and_eq_true, Bool.not_eq_true'] at hw
  simp [Desc.writeSpans, ho, hw.1.1]

end

/-- Settles O21: each row is its equation above, the messages of a pass end and of a segment being those that cross. -/
theorem tilesAndTransfersRun : Obligations.TilesAndTransfersRun := by
  unfold Obligations.TilesAndTransfersRun
  refine ⟨?tile, ?passEnd, ?xfer, ?prefetch⟩
  case tile =>
    intro d s p x last r hd hk hst hlast core first hr ha hnext hold hm hl acc
    refine ⟨_, execTile_accumulates hd hk hst hlast hr ha hnext hold hm, tileTaken_mem .., ?_⟩
    have run := (tileTaken_tileRun (d := d) (x := x) (r := r) core first).trans hr
    refine (tileRun_onRun (f := .follow s core d.idx.toNat x (s.tileAcc core first r)) (by rwa [tileTaken_cores_length]) run
      fun _ => rfl).trans (congrArg some ?_)
    rw [ha]
    rfl
  case passEnd =>
    intro d s p x last r n hd chain first A acct out img hr hlast hc ha hb hp ho hw hn
    have plain := execTilePassEnd_plain hd hr hlast hc ha hb hp (writeSpans_image_open ho hw)
    exact plain.trans (congrArg _ (passEnd_image (congrArg (·.acct.toNat) (desc_pkg hd)) rfl rfl rfl ho hw hn))
  case xfer =>
    intro d s p x hd hk _ f t src dst hv hr hn hm hw
    refine (execXfer_transfer hd hk).trans (congrArg _ ?_)
    rw [segmentTurn_serves _ hv]
    simp only [xferSegment, beq_iff_eq]
    exact segment_moves (s := s.served (1256 + p.die x) d.pkg.acct.toNat) _ hr hn hm hw
  case prefetch =>
    intro d s p x k m hd hk hs hmod f src dst hv hr hn hm hw
    exact execPrefetch_copies hd hk hs hmod rfl rfl rfl hv hr hn hm hw

end Sys2Proof.Machine
end

section
/-!
PROOFS. The scalar instructions: changes of a thread that agree on it, what a state in which an instruction has issued still holds,
and one equation for each shared form.
-/
namespace Sys2Proof.Machine

/-! ## Changes that agree -/

theorem lmod_congr {α : Type} {l : List α} {i : Nat} {f g : α → α} (d : α) (e : f (l.getD i d) = g (l.getD i d)) :
    lmod l i f = lmod l i g := by
  refine List.ext_getElem? fun j => ?_
  rw [lmod, lmod, List.getElem?_modify, List.getElem?_modify]
  split
  · next hij =>
    subst hij
    cases hx : l[i]? with
    | none => rfl
    | some x => simpa [List.getD_eq_getElem?_getD, hx] using e
  · rfl

variable {s : State} {h : Hart}

theorem onCore_congr {i : Nat} {f g : Core → Core} (e : f (s.core i) = g (s.core i)) : s.onCore i f = s.onCore i g := by
  rw [State.onCore, State.onCore, lmod_congr Core.reset e]

theorem onCore_meets (i : Nat) (f : Core → Core) (rs : List (Nat × Nat)) : (s.onCore i f).meets rs = s.meets rs := rfl

theorem onThread_congr {f g : Thread → Thread} (e : f (s.thread h) = g (s.thread h)) : s.onThread h f = s.onThread h g :=
  onCore_congr (congrArg (fun l => { s.core h.core.toNat with threads := l }) (lmod_congr Thread.reset e))

/-! ## What a program's reads leave: all but the credits that they ask for (R358) -/

section
variable (h : Hart) (rs : List (Nat × Nat)) (s : State)

@[simp] theorem readBy_core (n : Nat) : (readBy h rs s).core n = s.core n := by rw [State.core, readBy_cores, State.core]

@[simp] theorem readBy_prog_eq (g : Hart) : (readBy h rs s).prog g = s.prog g := by rw [State.prog, readBy_core, State.prog]

@[simp] theorem readBy_thread (g : Hart) : (readBy h rs s).thread g = s.thread g := by
  rw [State.thread, readBy_core, State.thread]

@[simp] theorem readBy_win (g : Hart) (w : BitVec 3) : (readBy h rs s).win g w = s.win g w := by
  rw [State.win, readBy_prog_eq, State.win]

@[simp] theorem readBy_pkgs : (readBy h rs s).pkgs = s.pkgs := by
  unfold readBy
  split <;> rfl

@[simp] theorem readBy_pkg (p : PkgId) : (readBy h rs s).pkg p = s.pkg p := by rw [State.pkg, readBy_pkgs, State.pkg]

@[simp] theorem readBy_read (a n : Nat) : (readBy h rs s).read a n = s.read a n := by
  rw [State.read, readBy_mem, State.read]

@[simp] theorem readBy_readNat (a n : Nat) : (readBy h rs s).readNat a n = s.readNat a n := by
  rw [State.readNat, readBy_read, State.readNat]

@[simp] theorem readBy_winRead (core : Nat) (win : Nat × Nat) (off : DWord) (n : Nat) :
    winRead (readBy h rs s) core win off n = winRead s core win off n := by
  simp only [winRead, readBy_read]

@[simp] theorem readBy_codeAddr (g : Hart) : (readBy h rs s).codeAddr g = s.codeAddr g := by
  rw [State.codeAddr, readBy_prog_eq, readBy_thread, State.codeAddr]

@[simp] theorem readBy_fetch (g : Hart) : (readBy h rs s).fetch g = s.fetch g := by
  rw [State.fetch, readBy_codeAddr, readBy_readNat, State.fetch]

@[simp] theorem readBy_meets (qs : List (Nat × Nat)) : (readBy h rs s).meets qs = s.meets qs := by
  unfold readBy
  split <;> rfl

end

/-! ## The state in which an instruction has issued (R122) -/

/-- Issuing moves the counts of a thread and nothing that an instruction reads of it (R126). -/
structure SameRegs (t u : Thread) : Prop where
  x : u.x = t.x
  apr : u.apr = t.apr

theorem SameRegs.get {t u : Thread} (same : SameRegs t u) (i : BitVec 5) : u.get i = t.get i := by
  simp only [Thread.get, same.x]

/-- What a core holds after an instruction of one of its threads has issued. -/
theorem issued_core (h : Hart) (s : State) (n : Nat) : (issued h s).core n =
    if h.core.toNat = n ∧ n < s.cores.length then
      { s.core n with
        threads := lmod (s.core n).threads h.thread.toNat Thread.issue
        turn := (h.thread.toNat + 1) % 16
        queue := if isVector (s.fetch h) then (s.core n).queue ++ [h.thread.toNat] else (s.core n).queue }
    else s.core n := by
  rw [issued, State.issue, State.core_onCore, readBy_cores, readBy_fetch, readBy_core]

theorem issued_prog (h : Hart) (s : State) (g : Hart) : (issued h s).prog g = s.prog g := by
  rw [State.prog, issued_core]
  split <;> rfl

theorem issued_sameRegs (h : Hart) (s : State) (g : Hart) : SameRegs (s.thread g) ((issued h s).thread g) := by
  rw [State.thread, State.thread, issued_core]
  split
  · dsimp only
    rw [getD_lmod]
    split <;> exact ⟨rfl, rfl⟩
  · exact ⟨rfl, rfl⟩

@[simp] theorem issued_pkg (h : Hart) (s : State) (p : PkgId) : (issued h s).pkg p = s.pkg p :=
  readBy_pkg ..

@[simp] theorem issued_read (h : Hart) (s : State) (a n : Nat) : (issued h s).read a n = s.read a n :=
  congrArg (Memory.load · a n) (issued_mem ..)

@[simp] theorem issued_readNat (h : Hart) (s : State) (a n : Nat) : (issued h s).readNat a n = s.readNat a n :=
  congrArg leNat (issued_read ..)

@[simp] theorem issued_win (h : Hart) (s : State) (w : BitVec 3) : (issued h s).win h w = s.win h w := by
  rw [State.win, issued_prog, State.win]

@[simp] theorem issued_winRead (h : Hart) (s : State) (core : Nat) (win : Nat × Nat) (off : DWord) (n : Nat) :
    winRead (issued h s) core win off n = winRead s core win off n := by
  simp only [winRead, issued_read]

@[simp] theorem issued_meets (h : Hart) (s : State) (rs : List (Nat × Nat)) : (issued h s).meets rs = s.meets rs :=
  (onCore_meets ..).trans (readBy_meets ..)

/-- A program's read that meets nothing goes on, and asks for its credits. -/
theorem progReads_clear {rs : List (Nat × Nat)} (k : State → State) (clear : s.meets rs = .clear) :
    progReads h rs s k = k (readBy h rs s) := by
  rw [progReads, readBy]
  cases s.prog h with
  | none => rfl
  | some p => exact workReads_clear k clear

/-- The read of a program's instruction, which has issued. -/
theorem progReads_issued {rs : List (Nat × Nat)} (k : State → State) (clear : s.meets rs = .clear) :
    progReads h rs (issued h s) k = k (readBy h rs (issued h s)) :=
  progReads_clear k ((issued_meets ..).trans clear)

/-! ## The forms of the scalar unit -/

/-- Xd is written alike in a thread whose instruction has issued, its counts kept. -/
theorem set_issued {t u : Thread} (same : SameRegs t u) (d : BitVec 5) (v : DWord) :
    { t.set d v with issued := u.issued, pc := u.pc, state := u.state } = u.set d v := by
  unfold Thread.set
  split <;> simp only [← same.x, ← same.apr]

variable {i : Instr} (hi : Issues h i s)
include hi

/-- An instruction that issues and changes its thread's registers does so beside the counts. -/
theorem scalarOp_issues (f g : Thread → Thread)
    (e : ∀ u, SameRegs (s.thread h) u → { f (s.thread h) with issued := u.issued, pc := u.pc, state := u.state } = g u) :
    scalarOp h i s f = .next (wroteThread h g s) :=
  (hartOp_issues hi _).trans (congrArg _ (ran_congr (onThread_congr (e _ (issued_sameRegs ..)))))

/-- An instruction that issues, and whose result goes to Xd. -/
theorem scalarOp_set (d : BitVec 5) {f : Thread → DWord} {v : DWord} (value : f (s.thread h) = v) :
    scalarOp h i s (fun t => t.set d (f t)) = .next (wroteX h d v s) :=
  value ▸ scalarOp_issues hi _ _ fun _ same => set_issued same ..

theorem intForm_issues (op : IntOp) (d a b : BitVec 5) {v : DWord}
    (value : intOp op ((s.thread h).get a) ((s.thread h).get b) = v) :
    intForm op h i d a b s = .next (wroteX h d v s) :=
  scalarOp_set hi d value

theorem fpForm_issues (op : Val → Val → Val) (d a b : BitVec 5) :
    fpForm op h i d a b s = .next (wroteX h d
      ((toF32 (op (ofF32 ((s.thread h).get32 a)) (ofF32 ((s.thread h).get32 b)))).setWidth 64) s) :=
  scalarOp_set hi d rfl

theorem fpTest_issues (op : Val → Val → Bool) (d a b : BitVec 5) {p : Prop} [Decidable p]
    (test : op (ofF32 ((s.thread h).get32 a)) (ofF32 ((s.thread h).get32 b)) = true ↔ p) :
    fpTest op h i d a b s = .next (wroteX h d (if p then 1 else 0) s) :=
  scalarOp_set hi d (if_congr test rfl rfl)

end Sys2Proof.Machine
end

section
/-!
PROOFS. Each integer and FP32 instruction of the scalar unit writes what its definition says.
-/
namespace Sys2Proof.Machine

/-! ## Integers (R129) -/

/-- The instruction of OP 0x00 for a member. -/
def intInstr (op : IntOp) (h : Hart) (d a b : BitVec 5) : Instr :=
  match op with
  | .add => .add h d a b
  | .sub => .sub h d a b
  | .and => .and h d a b
  | .or => .or h d a b
  | .xor => .xor h d a b
  | .sll => .sll h d a b
  | .srl => .srl h d a b
  | .sra => .sra h d a b
  | .slt => .slt h d a b
  | .sltu => .sltu h d a b
  | .min => .min h d a b
  | .max => .max h d a b
  | .mul => .mul h d a b

theorem exec_intInstr (op : IntOp) (h : Hart) (d a b : BitVec 5) (s : State) :
    exec (intInstr op h d a b) s = intForm op h (intInstr op h d a b) d a b s := by
  cases op <;> rfl

/-- A member of OP 0x00 that issues writes its operation on Xa and Xb. -/
theorem exec_intInstr_issues (op : IntOp) {d a b : BitVec 5} {v : DWord} (hi : Issues h (intInstr op h d a b) s)
    (value : intOp op ((s.thread h).get a) ((s.thread h).get b) = v) :
    exec (intInstr op h d a b) s = .next (wroteX h d v s) :=
  (exec_intInstr op h d a b s).trans (intForm_issues hi op d a b value)

section
variable (h : Hart) (d a : BitVec 5) (imm : BitVec 16) (amt : BitVec 6) (s : State)

theorem exec_addi : exec (.addi h d a imm) s =
    scalarOp h (.addi h d a imm) s fun t => t.set d (t.get a + imm.signExtend 64) := rfl

theorem exec_andi : exec (.andi h d a imm) s =
    scalarOp h (.andi h d a imm) s fun t => t.set d (t.get a &&& imm.setWidth 64) := rfl

theorem exec_ori : exec (.ori h d a imm) s =
    scalarOp h (.ori h d a imm) s fun t => t.set d (t.get a ||| imm.setWidth 64) := rfl

theorem exec_xori : exec (.xori h d a imm) s =
    scalarOp h (.xori h d a imm) s fun t => t.set d (t.get a ^^^ imm.setWidth 64) := rfl

theorem exec_shiSll : exec (.shi h d a .sll amt) s =
    scalarOp h (.shi h d a .sll amt) s fun t => t.set d (t.get a <<< amt.toNat) := rfl

theorem exec_shiSrl : exec (.shi h d a .srl amt) s =
    scalarOp h (.shi h d a .srl amt) s fun t => t.set d (t.get a >>> amt.toNat) := rfl

theorem exec_shiSra : exec (.shi h d a .sra amt) s =
    scalarOp h (.shi h d a .sra amt) s fun t => t.set d ((t.get a).sshiftRight amt.toNat) := rfl

theorem exec_lui : exec (.lui h d imm) s =
    scalarOp h (.lui h d imm) s fun t => t.set d (imm.signExtend 64 <<< 16) := rfl

theorem exec_slti : exec (.slti h d a imm) s =
    scalarOp h (.slti h d a imm) s fun t => t.set d (intOp .slt (t.get a) (imm.signExtend 64)) := rfl

end

theorem intOp_slt (x y : DWord) : intOp .slt x y = if x.toInt < y.toInt then 1 else 0 :=
  if_congr BitVec.slt_iff_toInt_lt rfl rfl

theorem intOp_sltu (x y : DWord) : intOp .sltu x y = if x.toNat < y.toNat then 1 else 0 :=
  if_congr BitVec.ult_iff_toNat_lt rfl rfl

theorem intOp_min (x y : DWord) : intOp .min x y = if y.toInt < x.toInt then y else x :=
  if_congr BitVec.slt_iff_toInt_lt rfl rfl

theorem intOp_max (x y : DWord) : intOp .max x y = if x.toInt < y.toInt then y else x :=
  if_congr BitVec.slt_iff_toInt_lt rfl rfl

/-- Settles O23: every member issues by its form, and the comparisons of its definition are those of the signed or unsigned
values. -/
theorem integerInstructionsWriteXd : Obligations.IntegerInstructionsWriteXd := by
  unfold Obligations.IntegerInstructionsWriteXd
  intro h d a b imm amt s x y
  refine ⟨?add, ?sub, ?and, ?or, ?xor, ?sll, ?srl, ?sra, ?slt, ?sltu, ?min, ?max, ?mul, ?addi, ?andi, ?ori, ?xori, ?shiSll,
    ?shiSrl, ?shiSra, ?lui, ?slti⟩
  case add => exact fun hi => exec_intInstr_issues .add hi rfl
  case sub => exact fun hi => exec_intInstr_issues .sub hi rfl
  case and => exact fun hi => exec_intInstr_issues .and hi rfl
  case or => exact fun hi => exec_intInstr_issues .or hi rfl
  case xor => exact fun hi => exec_intInstr_issues .xor hi rfl
  case sll => exact fun hi => exec_intInstr_issues .sll hi rfl
  case srl => exact fun hi => exec_intInstr_issues .srl hi rfl
  case sra => exact fun hi => exec_intInstr_issues .sra hi rfl
  case slt => exact fun hi => exec_intInstr_issues .slt hi (intOp_slt x y)
  case sltu => exact fun hi => exec_intInstr_issues .sltu hi (intOp_sltu x y)
  case min => exact fun hi => exec_intInstr_issues .min hi (intOp_min x y)
  case max => exact fun hi => exec_intInstr_issues .max hi (intOp_max x y)
  case mul => exact fun hi => exec_intInstr_issues .mul hi rfl
  case addi => exact fun hi => (exec_addi ..).trans (scalarOp_set hi d rfl)
  case andi => exact fun hi => (exec_andi ..).trans (scalarOp_set hi d rfl)
  case ori => exact fun hi => (exec_ori ..).trans (scalarOp_set hi d rfl)
  case xori => exact fun hi => (exec_xori ..).trans (scalarOp_set hi d rfl)
  case shiSll => exact fun hi => (exec_shiSll ..).trans (scalarOp_set hi d rfl)
  case shiSrl => exact fun hi => (exec_shiSrl ..).trans (scalarOp_set hi d rfl)
  case shiSra => exact fun hi => (exec_shiSra ..).trans (scalarOp_set hi d rfl)
  case lui => exact fun hi => (exec_lui ..).trans (scalarOp_set hi d rfl)
  case slti => exact fun hi => (exec_slti ..).trans (scalarOp_set hi d (intOp_slt x _))

/-! ## FP32 (R129, R131) -/

section
variable (h : Hart) (d a b : BitVec 5) (s : State)

theorem exec_fadd : exec (.fadd h d a b) s = fpForm Val.add h (.fadd h d a b) d a b s := rfl
theorem exec_fsub : exec (.fsub h d a b) s = fpForm (fun x y => x.add y.neg) h (.fsub h d a b) d a b s := rfl
theorem exec_fmul : exec (.fmul h d a b) s = fpForm Val.mul h (.fmul h d a b) d a b s := rfl
theorem exec_fdiv : exec (.fdiv h d a b) s = fpForm Val.div h (.fdiv h d a b) d a b s := rfl
theorem exec_fmin : exec (.fmin h d a b) s = fpForm Val.min h (.fmin h d a b) d a b s := rfl
theorem exec_fmax : exec (.fmax h d a b) s = fpForm Val.max h (.fmax h d a b) d a b s := rfl
theorem exec_feq : exec (.feq h d a b) s = fpTest Val.eq h (.feq h d a b) d a b s := rfl
theorem exec_flt : exec (.flt h d a b) s = fpTest Val.lt h (.flt h d a b) d a b s := rfl
theorem exec_fle : exec (.fle h d a b) s = fpTest Val.le h (.fle h d a b) d a b s := rfl
theorem exec_funord : exec (.funord h d a b) s =
    fpTest (fun x y => x.isNan || y.isNan) h (.funord h d a b) d a b s := rfl

theorem exec_fsqrt : exec (.fsqrt h d a) s = scalarOp h (.fsqrt h d a) s fun t =>
    t.set d ((toF32 (ofF32 (t.get32 a)).sqrt).setWidth 64) := rfl

theorem exec_ffma : exec (.ffma h d a b) s = scalarOp h (.ffma h d a b) s fun t =>
    t.set d ((toF32 (Val.fma (ofF32 (t.get32 a)) (ofF32 (t.get32 b)) (ofF32 (t.get32 d)))).setWidth 64) := rfl

/-- What a conversion to an integer or to BF16 does, given the word in Xa: it writes Xd, and counts CVT_SAT (R129, R151). -/
def convertTo (op : FcvtOp) (w : Word) (v : DWord) (u : State) : State :=
  let r := u.onThread h fun x => x.set d v
  if fcvtOvf op w then progConds h 0 { Conds.zero with cvtSat := 1 } r else r

theorem exec_fcvt_s64ToF32 : exec (.fcvt h d a .s64ToF32) s = hartOp h (.fcvt h d a .s64ToF32) s fun t u =>
    u.onThread h fun x => x.set d ((toF32 (Val.ofInt (t.get a).toInt)).setWidth 64) := rfl

theorem exec_fcvt_f32ToS64 : exec (.fcvt h d a .f32ToS64) s = hartOp h (.fcvt h d a .f32ToS64) s fun t =>
    convertTo h d .f32ToS64 (t.get32 a) (f32ToS64 (t.get32 a)) := rfl

theorem exec_fcvt_f32ToBf16 : exec (.fcvt h d a .f32ToBf16) s = hartOp h (.fcvt h d a .f32ToBf16) s fun t =>
    convertTo h d .f32ToBf16 (t.get32 a) ((toBf16 (ofF32 (t.get32 a))).setWidth 64) := rfl

theorem exec_fcvt_bf16ToF32 : exec (.fcvt h d a .bf16ToF32) s = hartOp h (.fcvt h d a .bf16ToF32) s fun t u =>
    u.onThread h fun x => x.set d ((toF32 (ofBf16 ((t.get a).setWidth 16))).setWidth 64) := rfl

end

/-- Settles O24: every instruction issues by its form; only a conversion to an integer or to BF16 counts CVT_SAT. -/
theorem floatInstructionsWriteXd : Obligations.FloatInstructionsWriteXd := by
  unfold Obligations.FloatInstructionsWriteXd
  intro h d a b s lo x y z w sat
  refine ⟨?fadd, ?fsub, ?fmul, ?fdiv, ?fsqrt, ?fmin, ?fmax, ?ffma, ?feq, ?flt, ?fle, ?funord, ?fromInt, ?toInt, ?toBf16,
    ?fromBf16⟩
  case fadd => exact fun hi => (exec_fadd ..).trans (fpForm_issues hi _ d a b)
  case fsub => exact fun hi => (exec_fsub ..).trans (fpForm_issues hi _ d a b)
  case fmul => exact fun hi => (exec_fmul ..).trans (fpForm_issues hi _ d a b)
  case fdiv => exact fun hi => (exec_fdiv ..).trans (fpForm_issues hi _ d a b)
  case fsqrt => exact fun hi => (exec_fsqrt ..).trans (scalarOp_set hi d rfl)
  case fmin => exact fun hi => (exec_fmin ..).trans (fpForm_issues hi _ d a b)
  case fmax => exact fun hi => (exec_fmax ..).trans (fpForm_issues hi _ d a b)
  case ffma => exact fun hi => (exec_ffma ..).trans (scalarOp_set hi d rfl)
  case feq => exact fun hi => (exec_feq ..).trans (fpTest_issues hi _ d a b Iff.rfl)
  case flt => exact fun hi => (exec_flt ..).trans (fpTest_issues hi _ d a b Iff.rfl)
  case fle => exact fun hi => (exec_fle ..).trans (fpTest_issues hi _ d a b Iff.rfl)
  case funord => exact fun hi => (exec_funord ..).trans (fpTest_issues hi _ d a b Bool.or_eq_true_iff)
  case fromInt => exact fun hi => (exec_fcvt_s64ToF32 ..).trans (hartOp_issues hi _)
  case toInt => exact fun hi => (exec_fcvt_f32ToS64 ..).trans (hartOp_issues hi _)
  case toBf16 => exact fun hi => (exec_fcvt_f32ToBf16 ..).trans (hartOp_issues hi _)
  case fromBf16 => exact fun hi => (exec_fcvt_bf16ToF32 ..).trans (hartOp_issues hi _)

end Sys2Proof.Machine
end

section
/-!
PROOFS. Control, semaphores, posted transfers and the scalar accesses to core SRAM.
-/
namespace Sys2Proof.Machine

variable {h : Hart} {s : State}

/-! ## The rows -/

section
variable (h : Hart) (d a : BitVec 5) (w : BitVec 3) (size : BitVec 2) (disp : BitVec 10) (s : State)

theorem exec_br (c : Cond) (off : BitVec 16) : exec (.br h c a off) s = hartOp h (.br h c a off) s fun t u =>
    u.onThread h fun x => if condHolds c (t.get a) then { x with pc := ((t.pc : Int) + off.toInt).toNat } else x := rfl

theorem exec_halt : exec (.halt h) s = hartOp h (.halt h) s fun _ u =>
    progEnd h.core.toNat (u.onThread h fun x => { x with state := .halted }) := rfl

theorem exec_semwait (imm : BitVec 8) : exec (.semwait h imm a) s = hartOp h (.semwait h imm a) s fun t u =>
    u.onThread h fun x => { x with state := .waiting imm.toNat (t.get32 a) } := rfl

theorem exec_semsignal (imm : BitVec 8) : exec (.semsignal h imm) s = execSemsignal h imm s := rfl

theorem exec_xpost : exec (.xpost h d a w) s = execXpost h d a w s := rfl

theorem exec_ld (sx : Bool) : exec (.ld h d a w size sx disp) s = execLd h d a w size sx disp s := rfl

theorem exec_st : exec (.st h d a w size disp) s = hartOp h (.st h d a w size disp) s fun t u =>
    u.write (scalarOff u h w (t.get a) size disp) (leBytes (2 ^ size.toNat) (t.get d).toNat) := rfl

theorem exec_apset : exec (.apset h a) s = scalarOp h (.apset h a) s fun t => { t with apr := t.get32 a } := rfl

end

/-! ## Signals and posted transfers (R130, R175, R183) -/

/-- A signal whose message crosses the network is issued for the program's descriptor. -/
theorem execSemsignal_issues {imm : BitVec 8} {p : VProg} (hp : s.prog h = some p)
    (crosses : (s.chip.noc.crossAll (signalSent h imm s)).isSome = true) (hi : Issues h (.semsignal h imm) s) :
    execSemsignal h imm s = .next (ran h s (issueSignal p.desc imm.toNat)) := by
  rw [execSemsignal, if_neg (by simpa [Option.isSome_iff_ne_none] using crosses), hartOp_issues hi]
  refine congrArg _ (ran_congr ?_)
  rw [issued_prog, hp]

/-- What XPOST does with a posted image (R175). -/
def postTo (h : Hart) (d : BitVec 5) (img : Bytes) (s : State) : State := match s.prog h with
  | none => s
  | some v => match s.pkg v.desc.pkg with
    | none => s
    | some p =>
      if p.state != .stopping && postOk p v img then
        (s.onThread h fun u => u.set d 0).onCore h.core.toNat fun c =>
          { c with prog := some { v with posted := v.posted ++ [img] } }
      else s.onThread h fun u => u.set d (if postOk p v img then 0 else 2)

/-- An aligned XPOST whose image reads without error answers what its image asks for. -/
theorem execXpost_issues {d a : BitVec 5} {w : BitVec 3} (hi : Issues h (.xpost h d a w) s)
    (aligned : ((s.thread h).get a).toNat % 64 = 0)
    (clear : s.meets (winRanges h.core.toNat (s.win h w) ((s.thread h).get a) 1) = .clear) :
    execXpost h d a w s = .next (ran h s fun t =>
      postTo h d (winRead s h.core.toNat (s.win h w) ((s.thread h).get a) 1)
        (readBy h (winRanges h.core.toNat (s.win h w) ((s.thread h).get a) 1) t)) := by
  rw [execXpost, hartOp_issues hi]
  refine congrArg _ (ran_congr ?_)
  simp only [unitOffset, aligned, beq_self_eq_true, if_true, issued_win, progReads_issued _ clear, readBy_win,
    readBy_winRead, issued_winRead]
  rfl

/-- An image that passes its checks is queued on the program, and Xd reads 0. -/
theorem postTo_queues {d : BitVec 5} {img : Bytes} {v : VProg} {p : Pkg} (hv : s.prog h = some v)
    (hp : s.pkg v.desc.pkg = some p) (ok : postOk p v img = true) (runs : p.state ≠ .stopping) :
    postTo h d img s = (s.onThread h fun u => u.set d 0).onCore h.core.toNat fun c =>
      { c with prog := some { v with posted := v.posted ++ [img] } } := by
  have posts : (p.state != .stopping && postOk p v img) = true := by simp [ok, runs]
  rw [postTo, hv]
  dsimp only
  rw [hp]
  dsimp only
  rw [if_pos posts]

/-- An image that fails its checks is not performed, and Xd reads 2. -/
theorem postTo_refuses {d : BitVec 5} {img : Bytes} {v : VProg} {p : Pkg} (hv : s.prog h = some v)
    (hp : s.pkg v.desc.pkg = some p) (bad : postOk p v img = false) :
    postTo h d img s = s.onThread h fun u => u.set d 2 := by
  rw [postTo, hv]
  dsimp only
  rw [hp]
  simp [bad]

/-! ## Scalar accesses to core SRAM (R124, R130) -/

@[simp] theorem issued_scalarOff (h : Hart) (s : State) (w : BitVec 3) (x : DWord) (size : BitVec 2) (disp : BitVec 10) :
    scalarOff (issued h s) h w x size disp = scalarOff s h w x size disp := by
  simp only [scalarOff, issued_win]

/-- Core SRAM lies outside the quarter view of HBM (R343). -/
theorem coreAddr_plain (core off : Nat) : ¬(quarterBase ≤ coreAddr core off ∧ coreAddr core off < vaultBase) := by
  have base : vaultBase ≤ coreSramBase := by decide
  unfold coreAddr
  omega

/-- Bytes written to core SRAM lie at their addresses: every other byte reads as before. -/
theorem get_write_coreAddr {core off k : Nat} {bs : Bytes}
    (apart : k < coreAddr core off ∨ coreAddr core off + bs.length ≤ k) :
    Memory.get (s.write (coreAddr core off) bs).mem k = Memory.get s.mem k := by
  rw [State.write_mem, Memory.store, pieces_plain (coreAddr_plain core off)]
  simp only [Memory.putRuns, List.take_length]
  exact Memory.get_put_out _ _ _ _ apart

@[simp] theorem length_leBytes (n v : Nat) : (leBytes n v).length = n := by
  induction n generalizing v with
  | zero => rfl
  | succ n ih => rw [leBytes, List.length_cons, ih]

/-- A load whose bytes read without error writes them to Xd, zero- or sign-extended. -/
theorem execLd_issues {d a : BitVec 5} {w : BitVec 3} {size : BitVec 2} {sx : Bool} {disp : BitVec 10}
    (hi : Issues h (.ld h d a w size sx disp) s)
    (clear : s.meets [(scalarOff s h w ((s.thread h).get a) size disp, 2 ^ size.toNat)] = .clear) :
    execLd h d a w size sx disp s = .next (ran h s fun t =>
      (readBy h [(scalarOff s h w ((s.thread h).get a) size disp, 2 ^ size.toNat)] t).onThread h fun u =>
        u.set d (if sx then
            BitVec.ofInt 64 (signed (8 * 2 ^ size.toNat) (s.readNat (scalarOff s h w ((s.thread h).get a) size disp) (2 ^ size.toNat)))
          else BitVec.ofNat 64 (s.readNat (scalarOff s h w ((s.thread h).get a) size disp) (2 ^ size.toNat)))) := by
  rw [execLd, hartOp_issues hi]
  refine congrArg _ (ran_congr ?_)
  simp only [issued_scalarOff, progReads_issued _ clear, readBy_readNat, issued_readNat]

/-- Settles O25: every row issues and does what its definition does to the state in which it has issued, where the windows, the
package and memory are as before. -/
theorem controlAndScalarMemoryInstructions : Obligations.ControlAndScalarMemoryInstructions := by
  unfold Obligations.ControlAndScalarMemoryInstructions
  intro h d a s x
  refine ⟨?br, ?halt, ?semwait, ?semsignal, ?xpost, ?ld, ?st, ?apset⟩
  case br => exact fun c off hi => (exec_br ..).trans (hartOp_issues hi _)
  case halt => exact fun hi => (exec_halt ..).trans (hartOp_issues hi _)
  case semwait => exact fun imm hi => (exec_semwait ..).trans (hartOp_issues hi _)
  case semsignal => exact fun imm p hp crosses hi => (exec_semsignal ..).trans (execSemsignal_issues hp crosses hi)
  case xpost =>
    intro w v p hv aligned hp rs img hi clear
    have row := (exec_xpost h d a w s).trans (execXpost_issues hi aligned clear)
    have prog : (readBy h rs (issued h s)).prog h = some v := by rw [readBy_prog_eq, issued_prog, hv]
    have pkg : (readBy h rs (issued h s)).pkg v.desc.pkg = some p := by rw [readBy_pkg, issued_pkg, hp]
    exact ⟨fun ok runs => row.trans (congrArg _ (ran_congr (postTo_queues prog pkg ok runs))),
      fun bad => row.trans (congrArg _ (ran_congr (postTo_refuses prog pkg bad)))⟩
  case ld =>
    intro w size sx disp o n v hi clear
    exact (exec_ld ..).trans (execLd_issues hi clear)
  case st =>
    intro w size disp o hi
    have row : exec (.st h d a w size disp) s =
        .next (ran h s fun t => t.write o (leBytes (2 ^ size.toNat) ((s.thread h).get d).toNat)) :=
      (exec_st ..).trans ((hartOp_issues hi _).trans (congrArg _ (ran_congr (by rw [issued_scalarOff]))))
    refine ⟨row, fun t ht k apart => ?_⟩
    obtain rfl := Host.Outcome.next.inj (row.symm.trans ht)
    rw [ran_mem]
    exact (get_write_coreAddr (by rwa [length_leBytes])).trans (by rw [issued_mem])
  case apset => exact fun hi => (exec_apset ..).trans (scalarOp_issues hi _ _ fun _ same => same.x ▸ rfl)

end Sys2Proof.Machine
end

section
/-!
PROOFS. The element-wise, mask, select and integer-lane instructions: one equation for each row.
-/
namespace Sys2Proof.Machine

section
variable (h : Hart) (fmt : VFmt) (d a b : BitVec 5) (src : VSrc) (m p q pm : BitVec 3) (s : State)

theorem exec_vadd : exec (.vadd h fmt d a src pm) s = vecBin h (.vadd h fmt d a src pm) fmt d a src pm Val.add s := rfl
theorem exec_vsub : exec (.vsub h fmt d a src pm) s =
    vecBin h (.vsub h fmt d a src pm) fmt d a src pm (fun x y => x.add y.neg) s := rfl
theorem exec_vmul : exec (.vmul h fmt d a src pm) s = vecBin h (.vmul h fmt d a src pm) fmt d a src pm Val.mul s := rfl
theorem exec_vmin : exec (.vmin h fmt d a src pm) s = vecBin h (.vmin h fmt d a src pm) fmt d a src pm Val.min s := rfl
theorem exec_vmax : exec (.vmax h fmt d a src pm) s = vecBin h (.vmax h fmt d a src pm) fmt d a src pm Val.max s := rfl
theorem exec_vdiv : exec (.vdiv h fmt d a src pm) s = vecBin h (.vdiv h fmt d a src pm) fmt d a src pm Val.div s := rfl

theorem exec_vfma : exec (.vfma h fmt d a src pm) s = vectorOp h (.vfma h fmt d a src pm) s fun t c =>
    c.setV d pm (List.zipWith (fun (xy : Word × Word) (z : Word) =>
      laneOp fmt (fun vs => Val.fma (vs.getD 0 .nan) (vs.getD 1 .nan) (vs.getD 2 .nan)) [xy.1, xy.2, z])
      ((c.vreg a).zip (srcLanes src t c)) (c.vreg d)) := rfl

theorem exec_vsqrt : exec (.vsqrt h fmt d a pm) s = vectorOp h (.vsqrt h fmt d a pm) s fun _ c =>
    c.setV d pm ((c.vreg a).map fun x => laneOp fmt (fun vs => (vs.getD 0 .nan).sqrt) [x]) := rfl

theorem exec_vcmp (op : CmpOp) : exec (.vcmp h op m a b pm) s = vectorOp h (.vcmp h op m a b pm) s fun _ c =>
    c.setPm m pm (List.zipWith (cmpLane op) (c.vreg a) (c.vreg b)) := rfl

theorem exec_pand : exec (.pand h m p q pm) s = maskForm (· && ·) h (.pand h m p q pm) m p q pm s := rfl
theorem exec_por : exec (.por h m p q pm) s = maskForm (· || ·) h (.por h m p q pm) m p q pm s := rfl
theorem exec_pxor : exec (.pxor h m p q pm) s = maskForm (fun x y => x != y) h (.pxor h m p q pm) m p q pm s := rfl
theorem exec_pandn : exec (.pandn h m p q pm) s = maskForm (fun x y => x && !y) h (.pandn h m p q pm) m p q pm s := rfl

theorem exec_pnot : exec (.pnot h m p pm) s = vectorOp h (.pnot h m p pm) s fun _ c =>
    c.setPm m pm ((c.pmask p).map not) := rfl

theorem exec_vsel : exec (.vsel h d a b pm) s = vectorOp h (.vsel h d a b pm) s fun _ c =>
    c.setV d 0 (merge (c.pmask pm) (c.vreg b) (c.vreg a)) := rfl

theorem exec_vintOp (op : IntOp) : exec (.vintOp h op d a b pm) s = vectorOp h (.vintOp h op d a b pm) s fun _ c =>
    c.setV d pm (List.zipWith (intOp op) (c.vreg a) (c.vreg b)) := rfl

theorem exec_viota : exec (.viota h d pm) s = vectorOp h (.viota h d pm) s fun _ c =>
    c.setV d pm ((List.range lanes).map (BitVec.ofNat 32)) := rfl

end

section
variable {h : Hart} {i : Instr} {s : State} (hi : Issues h i s)
include hi

/-- An element-wise instruction of two sources that issues. -/
theorem vecBin_issues (fmt : VFmt) (d a : BitVec 5) (src : VSrc) (pm : BitVec 3) (op : Val → Val → Val) :
    vecBin h i fmt d a src pm op s = .next (wroteCore h (fun c => c.setV d pm (List.zipWith
      (fun x y => laneOp fmt (fun vs => op (vs.getD 0 .nan) (vs.getD 1 .nan)) [x, y]) (c.vreg a)
      (srcLanes src (s.thread h) c))) s) := vectorOp_issues hi _

/-- Mask logic that issues. -/
theorem maskForm_issues (f : Bool → Bool → Bool) (m p q pm : BitVec 3) :
    maskForm f h i m p q pm s =
      .next (wroteCore h (fun c => c.setPm m pm (List.zipWith f (c.pmask p) (c.pmask q))) s) := vectorOp_issues hi _

end

/-- Settles O26: every row issues by its form, which writes lanes computed from the core's own. -/
theorem elementwiseVectorResults : Obligations.ElementwiseVectorResults := by
  unfold Obligations.ElementwiseVectorResults
  intro h fmt d a b src m p q pm s two mask
  refine ⟨?vadd, ?vsub, ?vmul, ?vmin, ?vmax, ?vdiv, ?vfma, ?vsqrt, ?vcmp, ?pand, ?por, ?pxor, ?pandn, ?pnot, ?vsel, ?vintOp,
    ?viota⟩
  case vadd => exact fun hi => (exec_vadd ..).trans (vecBin_issues hi fmt d a src pm _)
  case vsub => exact fun hi => (exec_vsub ..).trans (vecBin_issues hi fmt d a src pm _)
  case vmul => exact fun hi => (exec_vmul ..).trans (vecBin_issues hi fmt d a src pm _)
  case vmin => exact fun hi => (exec_vmin ..).trans (vecBin_issues hi fmt d a src pm _)
  case vmax => exact fun hi => (exec_vmax ..).trans (vecBin_issues hi fmt d a src pm _)
  case vdiv => exact fun hi => (exec_vdiv ..).trans (vecBin_issues hi fmt d a src pm _)
  case vfma => exact fun hi => (exec_vfma ..).trans (vectorOp_issues hi _)
  case vsqrt => exact fun hi => (exec_vsqrt ..).trans (vectorOp_issues hi _)
  case vcmp => exact fun op hi => (exec_vcmp ..).trans (vectorOp_issues hi _)
  case pand => exact fun hi => (exec_pand ..).trans (maskForm_issues hi _ m p q pm)
  case por => exact fun hi => (exec_por ..).trans (maskForm_issues hi _ m p q pm)
  case pxor => exact fun hi => (exec_pxor ..).trans (maskForm_issues hi _ m p q pm)
  case pandn => exact fun hi => (exec_pandn ..).trans (maskForm_issues hi _ m p q pm)
  case pnot => exact fun hi => (exec_pnot ..).trans (vectorOp_issues hi _)
  case vsel => exact fun hi => (exec_vsel ..).trans (vectorOp_issues hi _)
  case vintOp => exact fun op hi => (exec_vintOp ..).trans (vectorOp_issues hi _)
  case viota => exact fun hi => (exec_viota ..).trans (vectorOp_issues hi _)

end Sys2Proof.Machine
end

section
/-!
PROOFS. What writing a register leaves: reads after writes of X, V and PM registers, and what an instruction of a thread leaves of
its core, of the other cores and of the rest of the state.
-/
namespace Sys2Proof.Machine

/-! ## X registers (R121) -/

theorem Thread.get_zero (t : Thread) : t.get 0 = 0 := rfl

theorem Thread.get_set_same {t : Thread} (hx : t.x.length = 32) (d : BitVec 5) (v : DWord) :
    (t.set d v).get d = if d = 0 then 0 else v := by
  by_cases hd : d = 0
  · simp [Thread.get, hd]
  · have inside : d.toNat < t.x.length := hx ▸ d.isLt
    have here : ((lmod t.x d.toNat fun _ => v).getD d.toNat 0) = v := by rw [getD_lmod, if_pos ⟨rfl, inside⟩]
    simp only [Thread.get, Thread.set, beq_iff_eq, hd, if_false, here]

theorem Thread.get_set_ne (t : Thread) {d i : BitVec 5} (hi : i ≠ d) (v : DWord) : (t.set d v).get i = t.get i := by
  have apart : ¬(d.toNat = i.toNat ∧ i.toNat < t.x.length) := fun e => hi (BitVec.eq_of_toNat_eq e.1.symm)
  unfold Thread.set
  split
  · rfl
  · rw [Thread.get, getD_lmod, if_neg apart, Thread.get]

/-- Only the X registers change. -/
theorem Thread.set_rest (t : Thread) (d : BitVec 5) (v : DWord) : (t.set d v).apr = t.apr ∧ (t.set d v).pc = t.pc ∧
    (t.set d v).issued = t.issued ∧ (t.set d v).state = t.state := by
  unfold Thread.set
  split <;> exact ⟨rfl, rfl, rfl, rfl⟩

/-! ## Lanes and masks (R127) -/

/-- Each lane takes the new value where its mask bit is 1, and keeps the old one elsewhere. -/
theorem getElem?_merge {α : Type} {pm : List Bool} {old new : List α} {n : Nat} (hp : pm.length = n) (ho : old.length = n)
    (hn : new.length = n) (i : Nat) : (merge pm old new)[i]? = if pm[i]? = some true then new[i]? else old[i]? := by
  by_cases hi : i < n
  · have inside : i < (merge pm old new).length := by simp [merge]; omega
    rw [List.getElem?_eq_getElem inside, List.getElem?_eq_getElem (by omega : i < pm.length),
      List.getElem?_eq_getElem (by omega : i < new.length), List.getElem?_eq_getElem (by omega : i < old.length)]
    simp only [merge, List.getElem_zipWith, List.getElem_zip, Option.some.injEq]
    split <;> rfl
  · have outside : (merge pm old new).length ≤ i := by simp [merge]; omega
    rw [List.getElem?_eq_none outside, List.getElem?_eq_none (by omega : old.length ≤ i),
      List.getElem?_eq_none (by omega : new.length ≤ i), ite_self]

variable (c : Core)

theorem Core.vreg_setV_same {d : BitVec 5} (hd : d.toNat < c.v.length) (pm : BitVec 3) (new : List Word) :
    (c.setV d pm new).vreg d = merge (c.pmask pm) (c.vreg d) new := by
  rw [Core.vreg, Core.setV, getD_lmod, if_pos ⟨rfl, hd⟩, Core.vreg]

theorem Core.vreg_setV_ne {d e : BitVec 5} (he : e ≠ d) (pm : BitVec 3) (new : List Word) :
    (c.setV d pm new).vreg e = c.vreg e := by
  rw [Core.vreg, Core.setV, getD_lmod, if_neg fun h => he (BitVec.eq_of_toNat_eq h.1.symm), Core.vreg]

theorem Core.setPm_eq {d : BitVec 3} (hd : d ≠ 0) (pm : BitVec 3) (new : List Bool) :
    c.setPm d pm new = { c with pm := lmod c.pm d.toNat fun old => merge (c.pmask pm) old new } :=
  if_neg (by simpa using hd)

theorem Core.pmask_of_ne {d : BitVec 3} (hd : d ≠ 0) : c.pmask d = c.pm.getD d.toNat [] := if_neg (by simpa using hd)

theorem Core.pmask_setPm_same {d : BitVec 3} (hd : d ≠ 0) (hl : d.toNat < c.pm.length) (pm : BitVec 3) (new : List Bool) :
    (c.setPm d pm new).pmask d = merge (c.pmask pm) (c.pmask d) new := by
  rw [Core.pmask_of_ne _ hd, Core.setPm_eq _ hd, getD_lmod, if_pos ⟨rfl, hl⟩, ← Core.pmask_of_ne _ hd]

theorem Core.pmask_setPm_ne {d e : BitVec 3} (he : e ≠ d) (pm : BitVec 3) (new : List Bool) :
    (c.setPm d pm new).pmask e = c.pmask e := by
  by_cases hd : d = 0
  · rw [hd]
    rfl
  · by_cases h0 : e = 0
    · rw [h0]
      rfl
    · rw [Core.pmask_of_ne _ h0, Core.setPm_eq _ hd, getD_lmod, if_neg fun h => he (BitVec.eq_of_toNat_eq h.1.symm),
        Core.pmask_of_ne _ h0]

/-! ## What a change of a core or of a thread leaves -/

/-- What a change of a core keeps of it. -/
theorem core_onCore_keeps {α : Type} (p : Core → α) {f : Core → Core} (hf : ∀ c, p (f c) = p c) (s : State) (i n : Nat) :
    p ((s.onCore i f).core n) = p (s.core n) := by
  rw [State.core_onCore]
  split
  · exact hf _
  · rfl

theorem core_onCore_ne {i n : Nat} (hn : n ≠ i) (f : Core → Core) (s : State) : (s.onCore i f).core n = s.core n := by
  rw [State.core_onCore, if_neg fun e => hn e.1.symm]

/-- A hart has a thread: its core exists, and its thread on it. -/
structure HasThread (s : State) (h : Hart) : Prop where
  core : h.core.toNat < s.cores.length
  thread : h.thread.toNat < (s.core h.core.toNat).threads.length

/-- A hart is its core and its thread. -/
theorem hart_eq {g h : Hart} (core : g.core.toNat = h.core.toNat) (thread : g.thread.toNat = h.thread.toNat) : g = h := by
  cases g
  cases h
  exact (Hart.mk.injEq ..).mpr ⟨BitVec.eq_of_toNat_eq core, BitVec.eq_of_toNat_eq thread⟩

section
variable {h : Hart} {s : State}

theorem thread_onThread_same (on : HasThread s h) (f : Thread → Thread) : (s.onThread h f).thread h = f (s.thread h) := by
  rw [State.thread, State.onThread, State.core_onCore, if_pos ⟨rfl, on.core⟩, getD_lmod, if_pos ⟨rfl, on.thread⟩, State.thread]

theorem thread_onThread_ne {g : Hart} (hg : g ≠ h) (f : Thread → Thread) (s : State) : (s.onThread h f).thread g = s.thread g := by
  rw [State.thread, State.onThread, State.core_onCore]
  split
  · next same =>
    have apart : h.thread.toNat ≠ g.thread.toNat := fun e => hg (hart_eq same.1.symm e.symm)
    rw [getD_lmod, if_neg fun e => apart e.1, State.thread]
  · rw [State.thread]

theorem issued_thread_same (on : HasThread s h) : (issued h s).thread h = (s.thread h).issue := by
  rw [State.thread, issued_core, if_pos ⟨rfl, on.core⟩, getD_lmod, if_pos ⟨rfl, on.thread⟩, State.thread]

theorem issued_thread_ne {g : Hart} (hg : g ≠ h) (s : State) : (issued h s).thread g = s.thread g := by
  rw [State.thread, issued_core]
  split
  · next same =>
    have apart : h.thread.toNat ≠ g.thread.toNat := fun e => hg (hart_eq same.1.symm e.symm)
    rw [getD_lmod, if_neg fun e => apart e.1, State.thread]
  · rw [State.thread]

theorem HasThread.issued (on : HasThread s h) : HasThread (issued h s) h := by
  refine ⟨by rw [issued_cores_length]; exact on.core, ?_⟩
  rw [issued_core, if_pos ⟨rfl, on.core⟩, length_lmod]
  exact on.thread

end

/-- Leaving the issue queue changes no thread. -/
theorem ran_thread (h : Hart) (s : State) (k : State → State) (g : Hart) : (ran h s k).thread g = (k (issued h s)).thread g := by
  rw [ran_eq]
  split
  · refine congrArg (List.getD · g.thread.toNat Thread.reset) (core_onCore_keeps Core.threads ?_ ..)
    exact fun _ => rfl
  · rfl

section
variable (h : Hart) (f : Thread → Thread) (s : State)

/-- An instruction of a thread changes its core's threads, turn and issue queue only (R122). -/
theorem wroteThread_core_keeps {α : Type} (p : Core → α)
    (hp : ∀ (c : Core) ts q k, p { c with threads := ts, queue := q, turn := k } = p c) (n : Nat) :
    p ((wroteThread h f s).core n) = p (s.core n) := by
  have wrote : p (((issued h s).onThread h f).core n) = p (s.core n) :=
    (core_onCore_keeps p (fun c => hp c _ c.queue c.turn) _ _ _).trans
      ((core_onCore_keeps p (fun c => hp c _ _ _) _ _ _).trans (congrArg p (readBy_core ..)))
  rw [wroteThread, ran_eq]
  split
  · exact (core_onCore_keeps p (fun c => hp c c.threads _ c.turn) _ _ _).trans wrote
  · exact wrote

theorem wroteThread_core_ne {n : Nat} (hn : n ≠ h.core.toNat) : (wroteThread h f s).core n = s.core n := by
  have wrote : ((issued h s).onThread h f).core n = s.core n :=
    (core_onCore_ne hn _ _).trans ((core_onCore_ne hn _ _).trans (readBy_core ..))
  rw [wroteThread, ran_eq]
  split
  · exact (core_onCore_ne hn _ _).trans wrote
  · exact wrote

/-- An instruction of a thread changes cores, and asks for the credits of its word. -/
theorem wroteThread_keeps {α : Type} (p : State → α) (onCore : ∀ s i f, p (State.onCore s i f) = p s)
    (charge : ∀ s t a rs, p (State.charge t a rs s) = p s) : p (wroteThread h f s) = p s := by
  have read : p (readBy h [(s.codeAddr h, 4)] s) = p s := by
    unfold readBy
    split
    · exact charge ..
    · rfl
  have wrote : p ((issued h s).onThread h f) = p s := (onCore ..).trans ((onCore ..).trans read)
  rw [wroteThread, ran_eq]
  split
  · exact (onCore ..).trans wrote
  · exact wrote

end

/-! ## The obligation -/

/-- Xd after an instruction that writes it, and the counts of its thread. -/
theorem wroteX_thread_same {h : Hart} {s : State} (on : HasThread s h) (d : BitVec 5) (v : DWord) :
    (wroteX h d v s).thread h = (s.thread h).issue.set d v := by
  rw [wroteX, wroteThread, ran_thread, thread_onThread_same on.issued, issued_thread_same on]

theorem wroteX_thread_ne {g h : Hart} (hg : g ≠ h) (d : BitVec 5) (v : DWord) (s : State) :
    (wroteX h d v s).thread g = s.thread g := by
  rw [wroteX, wroteThread, ran_thread, thread_onThread_ne hg, issued_thread_ne hg]

/-- Settles O28: reads after writes of each kind of register, and the frame of an instruction of a thread. -/
theorem registerWritesKeepTheRest : Obligations.RegisterWritesKeepTheRest := by
  unfold Obligations.RegisterWritesKeepTheRest
  refine ⟨?x, ?v, ?pm, fun c pm new => ⟨rfl, rfl⟩⟩
  case x =>
    intro h d v s core _ thread hx t
    have wrote : t.thread h = (s.thread h).issue.set d v := wroteX_thread_same ⟨core, thread⟩ d v
    obtain ⟨apr, pc, issued, state⟩ := (s.thread h).issue.set_rest d v
    rw [wrote]
    exact ⟨Thread.get_set_same (t := (s.thread h).issue) hx d v, Thread.get_zero _, fun i hi => Thread.get_set_ne _ hi v, apr, pc, issued, state,
      fun g hg => wroteX_thread_ne hg d v s, fun i hi => wroteThread_core_ne _ _ _ hi,
      wroteThread_core_keeps _ _ _ Core.v (fun _ _ _ _ => rfl) _, wroteThread_core_keeps _ _ _ Core.pm (fun _ _ _ _ => rfl) _,
      wroteThread_core_keeps _ _ _ Core.lacc (fun _ _ _ _ => rfl) _,
      wroteThread_core_keeps _ _ _ Core.prog (fun _ _ _ _ => rfl) _,
      wroteThread_core_keeps _ _ _ Core.tiles (fun _ _ _ _ => rfl) _,
      wroteThread_keeps _ _ _ State.mem State.onCore_mem fun s t a rs => State.charge_mem t a rs s,
      wroteThread_keeps _ _ _ State.pkgs State.onCore_pkgs fun s t a rs => State.charge_pkgs t a rs s,
      wroteThread_keeps _ _ _ State.ten State.onCore_ten fun s t a rs => State.charge_ten t a rs s,
      wroteThread_keeps _ _ _ State.chip State.onCore_chip fun s t a rs => State.charge_chip t a rs s,
      wroteThread_keeps _ _ _ State.models State.onCore_models fun s t a rs => State.charge_models t a rs s,
      wroteThread_keeps _ _ _ State.mtime State.onCore_mtime fun s t a rs => State.charge_mtime t a rs s⟩
  case v =>
    intro c d pm new hd hp ho hn
    refine ⟨fun i _ => ?_, fun e he => c.vreg_setV_ne he pm new, rfl, rfl, rfl, rfl, rfl⟩
    rw [c.vreg_setV_same hd]
    exact getElem?_merge hp ho hn i
  case pm =>
    intro c d pm new hd h0 hp ho hn
    refine ⟨fun i _ => ?_, fun e he => c.pmask_setPm_ne he pm new, by rw [c.setPm_eq h0]⟩
    rw [c.pmask_setPm_same h0 hd]
    exact getElem?_merge hp ho hn i

end Sys2Proof.Machine
end

section
/-!
PROOFS. The reductions and the vector accesses to core SRAM: what the operands of an instruction are in the state in which it has
issued, what the report of a reduction leaves alone, and one equation for each row.
-/
namespace Sys2Proof.Machine

variable {h : Hart} {s : State}

/-! ## Operands in the state in which an instruction has issued -/

/-- What an instruction does at the offset of whole units that Xa gives (R124). -/
def atUnit (f : DWord → State → State) (x : DWord) (s : State) : State :=
  let (off, s) := unitOffset x s
  f off s

theorem atUnit_aligned {x : DWord} (aligned : x.toNat % 64 = 0) (f : DWord → State → State) (s : State) :
    atUnit f x s = f x s := by
  simp [atUnit, unitOffset, aligned]

/-- What an instruction does at the offset of whole elements that Xa gives (R124). -/
def atElem (f : DWord → State → State) (x : DWord) (s : State) : State :=
  let (off, s) := elemOffset x s
  f off s

theorem atElem_aligned {x : DWord} (aligned : x.toNat % 4 = 0) (f : DWord → State → State) (s : State) :
    atElem f x s = f x s := by
  simp [atElem, elemOffset, aligned]

@[simp] theorem issued_anchorSlot (h : Hart) (s : State) (n : BitVec 3) : (issued h s).anchorSlot h n = s.anchorSlot h n := by
  rw [State.anchorSlot, issued_prog, State.anchorSlot]

@[simp] theorem readBy_anchorSlot (h : Hart) (rs : List (Nat × Nat)) (s : State) (n : BitVec 3) :
    (readBy h rs s).anchorSlot h n = s.anchorSlot h n := by
  rw [State.anchorSlot, readBy_prog_eq, State.anchorSlot]

@[simp] theorem issued_acc (h : Hart) (s : State) (i : Nat) (n : BitVec 3) : ((issued h s).core i).acc n = (s.core i).acc n := by
  rw [issued_core]
  split <;> rfl

@[simp] theorem issued_vreg (h : Hart) (s : State) (i : Nat) (r : BitVec 5) : ((issued h s).core i).vreg r = (s.core i).vreg r :=
  (issued_sameLanes h s i).vreg r

@[simp] theorem issued_pmask (h : Hart) (s : State) (i : Nat) (r : BitVec 3) : ((issued h s).core i).pmask r = (s.core i).pmask r :=
  (issued_sameLanes h s i).pmask r

@[simp] theorem issued_active {α : Type} (h : Hart) (s : State) (i : Nat) (pm : BitVec 3) (xs : List α) :
    ((issued h s).core i).active pm xs = (s.core i).active pm xs := (issued_sameLanes h s i).active pm xs

/-! ## What the report of VRFIN leaves alone (R137, R151) -/

/-- A merged magnitude reaches a table of its account or of its model. -/
theorem amaxMerge_keeps (p : Pkg) (tid : Nat) (w : Word) (s : State) :
    (amaxMerge p tid w s).mem = s.mem ∧ (amaxMerge p tid w s).cores = s.cores := by
  unfold amaxMerge
  dsimp only
  split
  · exact ⟨rfl, rfl⟩
  · split
    · exact ⟨rfl, rfl⟩
    · split <;> exact ⟨rfl, rfl⟩

/-- A change of a core beside its threads. -/
theorem thread_onCore {f : Core → Core} (hf : ∀ c, (f c).threads = c.threads) (s : State) (i : Nat) (g : Hart) :
    (s.onCore i f).thread g = s.thread g :=
  congrArg (List.getD · g.thread.toNat Thread.reset) (core_onCore_keeps Core.threads hf ..)

/-- The conditions that a program meets leave every thread as it was. -/
theorem progConds_thread (h : Hart) (shadow : Nat) (c : Conds) (s : State) (g : Hart) :
    (progConds h shadow c s).thread g = s.thread g := by
  unfold progConds
  split
  · rfl
  · next p _ =>
    have counted := countConds_keeps (P := fun u => u.cores = s.cores) (fun _ _ _ _ h => h)
      (fun _ _ _ _ _ _ h => h) p.desc.pkg.acct.toNat (h.core.toNat / 16) (some (h.core.toNat % 16)) c rfl
    refine (thread_onCore ?beside ..).trans (congrArg (fun cs : List Core =>
      (cs.getD g.core.toNat Core.reset).threads.getD g.thread.toNat Thread.reset) ?cores)
    case beside => exact fun _ => rfl
    case cores => split <;> exact counted

/-- VRFIN's value in every lane of VD, unless it is V0 (R137). -/
def spreadTo (h : Hart) (b : BitVec 5) (w : Word) (s : State) : State :=
  if b == 0 then s
  else s.onCore h.core.toNat fun c => { c with v := lmod c.v b.toNat fun _ => List.replicate lanes w }

/-- VRFIN's magnitude in the amax record of the slot's tensor, where it is finite (R137). -/
def amaxTo (h : Hart) (tensor : Nat) (o : LaOut) (s : State) : State := match s.prog h with
  | some p => match s.pkg p.desc.pkg with
    | some q => if o.nonfinite then s else amaxMerge q tensor (finiteMax [o.word]) s
    | none => s
  | none => s

theorem spreadTo_keeps (h : Hart) (b : BitVec 5) (w : Word) (s : State) :
    (spreadTo h b w s).mem = s.mem ∧ (spreadTo h b w s).thread h = s.thread h := by
  unfold spreadTo
  split
  · exact ⟨rfl, rfl⟩
  · refine ⟨rfl, thread_onCore ?_ ..⟩
    exact fun _ => rfl

theorem amaxTo_keeps (h : Hart) (tensor : Nat) (o : LaOut) (s : State) :
    (amaxTo h tensor o s).mem = s.mem ∧ (amaxTo h tensor o s).thread h = s.thread h := by
  have merged : ∀ q, (amaxMerge q tensor (finiteMax [o.word]) s).mem = s.mem ∧
      (amaxMerge q tensor (finiteMax [o.word]) s).thread h = s.thread h := fun q => by
    obtain ⟨mem, cores⟩ := amaxMerge_keeps q tensor (finiteMax [o.word]) s
    exact ⟨mem, by rw [State.thread, State.core, cores]; rfl⟩
  unfold amaxTo
  split
  · split
    · split
      · exact ⟨rfl, rfl⟩
      · exact merged _
    · exact ⟨rfl, rfl⟩
  · exact ⟨rfl, rfl⟩

/-- What VRFIN does with the shadow chosen: Xd takes its value, and VD, the amax record and the result word follow (R136, R137,
R151). -/
def finishTo (h : Hart) (d b : BitVec 5) (tensor : Nat) (r : Nat × LaOut) (s : State) : State :=
  progConds h r.1 { r.2.conds with replays := if r.1 == 0 then 0 else 1 }
    (amaxTo h tensor r.2 (spreadTo h b r.2.word (s.onThread h fun u => u.set32 d r.2.word)))

/-- VRFIN writes one X register, and no memory. -/
theorem finishTo_keeps (h : Hart) (d b : BitVec 5) (tensor : Nat) (r : Nat × LaOut) (s : State) :
    (finishTo h d b tensor r s).mem = s.mem ∧
      (finishTo h d b tensor r s).thread h = (s.onThread h fun u => u.set32 d r.2.word).thread h := by
  obtain ⟨spreadMem, spreadThread⟩ := spreadTo_keeps h b r.2.word (s.onThread h fun u => u.set32 d r.2.word)
  obtain ⟨amaxMem, amaxThread⟩ :=
    amaxTo_keeps h tensor r.2 (spreadTo h b r.2.word (s.onThread h fun u => u.set32 d r.2.word))
  exact ⟨(progConds_keeps ..).1.trans (amaxMem.trans spreadMem),
    (progConds_thread ..).trans (amaxThread.trans spreadThread)⟩

/-! ## The rows: reductions (R135 to R139) -/

section
variable (h : Hart) (d a b : BitVec 5) (n w pm : BitVec 3) (s : State)

theorem exec_vrclr : exec (.vrclr h n) s =
    vectorOp h (.vrclr h n) s fun _ c => c.onAcc n fun _ => Shadows.zero := rfl

theorem exec_vrsum : exec (.vrsum h n a pm) s = vectorOp h (.vrsum h n a pm) s fun _ c => c.onAcc n fun sh =>
    Shadows.addVals (s.anchorSlot h n).anchor sh ((c.active pm (c.vreg a)).map ofF32) := rfl

theorem exec_vrdot : exec (.vrdot h n a b pm) s = vectorOp h (.vrdot h n a b pm) s fun _ c => c.onAcc n fun sh =>
    Shadows.addVals (s.anchorSlot h n).anchor sh
      ((c.active pm ((c.vreg a).zip (c.vreg b))).map fun p => (ofF32 p.1).mul (ofF32 p.2)) := rfl

theorem exec_vrfin : exec (.vrfin h d n b) s = hartOp h (.vrfin h d n b) s fun _ u =>
    finishTo h d b (u.anchorSlot h n).tensor
      (La.choose (Shadows.present (u.anchorSlot h n).anchor ((u.core h.core.toNat).acc n)) 0) u := rfl

theorem exec_vrmax : exec (.vrmax h d a pm false) s =
    reduceMinMax Val.max h (.vrmax h d a pm false) d a pm false s := rfl

theorem exec_vrmin : exec (.vrmin h d a pm false) s =
    reduceMinMax Val.min h (.vrmin h d a pm false) d a pm false s := rfl

theorem exec_vrarg : exec (.vrarg h d a b pm) s = execVrarg h d a b pm s := rfl

end

section
variable {d a b : BitVec 5} {n w pm : BitVec 3} {i : Instr}

/-- VRFIN leaves memory, and puts the value of the chosen shadow in Xd. -/
theorem exec_vrfin_issues (hi : Issues h (.vrfin h d n b) s) (on : HasThread s h) (hx : (s.thread h).x.length = 32) :
    ∃ t, exec (.vrfin h d n b) s = .next t ∧ t.mem = s.mem ∧ (t.thread h).get32 d = if d = 0 then 0 else
      (La.choose (Shadows.present (s.anchorSlot h n).anchor ((s.core h.core.toNat).acc n)) 0).2.word := by
  refine ⟨_, (exec_vrfin ..).trans (hartOp_issues hi _), ?mem, ?value⟩
  case mem => rw [ran_mem, (finishTo_keeps ..).1, issued_mem]
  case value =>
    rw [ran_thread, (finishTo_keeps ..).2, thread_onThread_same on.issued, issued_thread_same on, issued_anchorSlot, issued_acc,
      Thread.get32, Thread.set32, Thread.get_set_same (t := (s.thread h).issue) hx]
    split
    · rfl
    · exact BitVec.setWidth_setWidth_of_le _ (by decide)

/-- A maximum or minimum without Xd, over at least one active lane, goes to Xd. -/
theorem reduceMinMax_issues (hi : Issues h i s) (op : Val → Val → Val) {z : Word} {zs : List Word}
    (lanes : (s.core h.core.toNat).active pm ((s.core h.core.toNat).vreg a) = z :: zs) :
    reduceMinMax op h i d a pm false s =
      .next (wroteX h d ((toF32 ((zs.map ofF32).foldl op (ofF32 z))).setWidth 64) s) := by
  rw [wroteX, wroteThread]
  refine (hartOp_issues hi _).trans (congrArg _ (ran_congr ?_))
  simp only [issued_vreg, issued_active, lanes]
  rfl

/-- The single active lane, where it is no NaN, names its own index. -/
theorem execVrarg_issues (hi : Issues h (.vrarg h d a b pm) s) {z : Word × Word}
    (lanes : (s.core h.core.toNat).active pm (((s.core h.core.toNat).vreg a).zip ((s.core h.core.toNat).vreg b)) = [z])
    (number : (ofF32 z.1).isNan = false) : execVrarg h d a b pm s = .next (wroteX h d (z.2.setWidth 64) s) := by
  rw [wroteX, wroteThread]
  refine (hartOp_issues hi _).trans (congrArg _ (ran_congr ?_))
  simp only [issued_vreg, issued_active, lanes, List.map_cons, List.map_nil, List.any_cons, List.any_nil, number,
    Bool.or_false, Bool.false_eq_true, if_false]
  rfl

end

/-! ## The rows: images and lanes in core SRAM (R124, R129, R138) -/

/-- What VRGET does with an image: a valid one's shadows join LACCn (R138, R152). -/
def mergeTo (h : Hart) (n : BitVec 3) (read : Option Shadows) (s : State) : State := match read with
  | some sh => s.onCore h.core.toNat fun c => c.onAcc n fun old => List.zipWith La.merge old sh
  | none => match s.prog h with
    | some p => structFail p.desc.pkg (h.core.toNat / 16) s
    | none => s

/-- What VSCATTER does with addresses and words: of several at one address a free one stays (R129). -/
def scatterTo (ps : List (Nat × Word)) (s : State) : State :=
  ps.foldl (fun s p =>
    let same := (ps.filter fun q => q.1 == p.1).map (·.2)
    if decide (same.length ≤ 1) then s.write p.1 (leBytes 4 p.2.toNat)
    else
      let (v, s) := s.free
      s.write p.1 (leBytes 4 (same.getD (v.toNat % same.length) 0).toNat)) s

theorem scatterTo_one (p : Nat × Word) (s : State) : scatterTo [p] s = s.write p.1 (leBytes 4 p.2.toNat) := by
  simp [scatterTo]

section
variable (h : Hart) (fmt : VFmt) (d a b : BitVec 5) (n w pm : BitVec 3) (s : State)

theorem exec_vrput : exec (.vrput h n a w) s = hartOp h (.vrput h n a w) s fun t => atUnit (fun off u =>
    winWrite h.core.toNat (u.win h w) off (shadowImage (u.anchorSlot h n) ((u.core h.core.toNat).acc n)) u) (t.get a) := rfl

theorem exec_vrget : exec (.vrget h n a w) s = hartOp h (.vrget h n a w) s fun t => atUnit (fun off u =>
    progReads h (winRanges h.core.toNat (u.win h w) off 4) u fun u =>
      mergeTo h n (shadowRead (u.anchorSlot h n) (winRead u h.core.toNat (u.win h w) off 4)) u) (t.get a) := by
  have row : exec (.vrget h n a w) s = execVrget h n a w s := rfl
  rw [row, execVrget]
  refine congrArg _ (funext fun t => funext fun u => ?_)
  unfold atUnit
  generalize unitOffset (t.get a) u = p
  obtain ⟨off, v⟩ := p
  refine congrArg (progReads h _ v) (funext fun r => ?_)
  generalize shadowRead _ _ = o
  cases o <;> rfl

theorem exec_vld : exec (.vld h fmt d a w pm) s = hartOp h (.vld h fmt d a w pm) s fun t => atUnit (fun off u =>
    progReads h (winRanges h.core.toNat (u.win h w) off 256) u fun u =>
      u.onCore h.core.toNat fun c => c.setV d pm (lanesOf (winRead u h.core.toNat (u.win h w) off 256))) (t.get a) := rfl

theorem exec_vst : exec (.vst h fmt d a w pm) s = hartOp h (.vst h fmt d a w pm) s fun t => atUnit (fun off u =>
    ((winUnits (u.win h w) off 256).zip
      (chunks 16 (((u.core h.core.toNat).pmask pm).zip ((u.core h.core.toNat).vreg d)))).foldl
        (fun u p => storeUnit (coreAddr h.core.toNat p.1) p.2 u) u) (t.get a) := rfl

theorem exec_vgather : exec (.vgather h d a b w pm) s = hartOp h (.vgather h d a b w pm) s fun t => atElem (fun x u =>
    progReads h (((u.core h.core.toNat).active pm ((u.core h.core.toNat).vreg b)).map fun k =>
        (elemAddr h.core.toNat (u.win h w) x k, 4)) u fun r =>
      r.onCore h.core.toNat fun c => c.setV d pm ((c.vreg b).map fun k =>
        BitVec.ofNat 32 (r.readNat (elemAddr h.core.toNat (u.win h w) x k) 4))) (t.get a) := rfl

theorem exec_vscatter : exec (.vscatter h d a b w pm) s = hartOp h (.vscatter h d a b w pm) s fun t => atElem (fun x u =>
    scatterTo (((u.core h.core.toNat).active pm (((u.core h.core.toNat).vreg b).zip ((u.core h.core.toNat).vreg d))).map
      fun p => (elemAddr h.core.toNat (u.win h w) x p.1, p.2)) u) (t.get a) := rfl

/-- What VSAMPLE writes after its block (R147, R149). -/
def sampleOutput (score : Bool) (b : Bytes) (o : SampleOut) : Bytes :=
  (if score then (b.drop 0x30).take 4 else leBytes 4 o.token) ++ leBytes 4 o.logp.toNat ++
    (if score then (b.drop 0x38).take 4 else leBytes 4 o.kept) ++ leBytes 4 o.fault

/-- VSAMPLE's result goes after its block, and a fault to the program's result word (R147, R149, R151). -/
def sampleDone (h : Hart) (w : BitVec 3) (off : DWord) (score : Bool) (b : Bytes) (o : SampleOut) (s : State) : State :=
  progConds h 0 { Conds.zero with sampleFault := if o.fault == 0 then 0 else 1 }
    (winWrite h.core.toNat (s.win h w) off (b.take 0x30 ++ sampleOutput score b o) s)

/-- The window that a block names is one of the program's (R147). -/
def windowUsed (h : Hart) (k : Nat) (s : State) : Bool := match s.prog h with
  | some p => (p.wins.getD k (0, 0)).2 != 0
  | none => false

/-- The sample or score that a block asks for, of the logits that bytes hold (R147, R148). -/
def sampleOf (score : Bool) (b bs : Bytes) : SampleOut :=
  sampleLogits score (BitVec.ofNat 64 (fieldAt b 0 8)) (fieldAt b 8 8) (fieldAt b 0x10 4) (BitVec.ofNat 32 (fieldAt b 0x18 4))
    (BitVec.ofNat 32 (fieldAt b 0x1C 4)) (fieldAt b 0x20 4) (fieldAt b 0x30 4) ((lanesOf bs).take (fieldAt b 0x14 4))

/-- What VSAMPLE does with its block: the logits are read and sampled or scored, or a parameter is out of range (R147 to R149). -/
def sampleTo (h : Hart) (w : BitVec 3) (off : DWord) (b : Bytes) (s : State) : State :=
  let u := fieldAt b
  let score := u 0x28 4 == 1
  let win := s.win h (BitVec.ofNat 3 (u 0x24 4 / 2 ^ 17))
  let start := BitVec.ofNat 64 (64 * (u 0x24 4 % 2 ^ 17))
  let units := (u 0x14 4 + 15) / 16
  if !sampleParamsOk b || !windowUsed h (u 0x24 4 / 2 ^ 17) s then sampleDone h w off score b (.bad 1) s
  else progReads h (winRanges h.core.toNat win start units) s fun s =>
    sampleDone h w off score b (sampleOf score b (winRead s h.core.toNat win start units)) s

theorem exec_vsample : exec (.vsample h a w) s = hartOp h (.vsample h a w) s fun t => atUnit (fun off u =>
    progReads h (winRanges h.core.toNat (u.win h w) off 1) u fun u =>
      sampleTo h w off (winRead u h.core.toNat (u.win h w) off 1) u) (t.get a) := by
  have row : exec (.vsample h a w) s = execVsample h a w s := rfl
  rw [row, execVsample]
  refine congrArg _ (funext fun t => funext fun u => ?_)
  unfold atUnit
  generalize unitOffset (t.get a) u = p
  obtain ⟨off, v⟩ := p
  refine congrArg (progReads h _ v) (funext fun r => ?_)
  generalize winRead r h.core.toNat (r.win h w) off 1 = b
  rfl

end

/-! ## What the rows do where they issue -/

section
variable {d a b : BitVec 5} {n w pm : BitVec 3} {fmt : VFmt}

theorem exec_vrput_issues (hi : Issues h (.vrput h n a w) s) (aligned : ((s.thread h).get a).toNat % 64 = 0) :
    exec (.vrput h n a w) s = .next (ran h s (winWrite h.core.toNat (s.win h w) ((s.thread h).get a)
      (shadowImage (s.anchorSlot h n) ((s.core h.core.toNat).acc n)))) := by
  rw [exec_vrput, hartOp_issues hi]
  refine congrArg _ (ran_congr ?_)
  rw [atUnit_aligned aligned, issued_win, issued_anchorSlot, issued_acc]

/-- A valid image read without error joins LACCn (R138). -/
theorem exec_vrget_issues (hi : Issues h (.vrget h n a w) s) (aligned : ((s.thread h).get a).toNat % 64 = 0)
    (clear : s.meets (winRanges h.core.toNat (s.win h w) ((s.thread h).get a) 4) = .clear) {sh : Shadows}
    (image : shadowRead (s.anchorSlot h n) (winRead s h.core.toNat (s.win h w) ((s.thread h).get a) 4) = some sh) :
    exec (.vrget h n a w) s = .next (ran h s fun t =>
      (readBy h (winRanges h.core.toNat (s.win h w) ((s.thread h).get a) 4) t).onCore h.core.toNat fun c =>
        c.onAcc n fun old => List.zipWith La.merge old sh) := by
  rw [exec_vrget, hartOp_issues hi]
  refine congrArg _ (ran_congr ?_)
  rw [atUnit_aligned aligned, issued_win, progReads_issued _ clear, readBy_win, issued_win, readBy_winRead, issued_winRead,
    readBy_anchorSlot, issued_anchorSlot, image, mergeTo]

theorem exec_vld_issues (hi : Issues h (.vld h fmt d a w pm) s) (aligned : ((s.thread h).get a).toNat % 64 = 0)
    (clear : s.meets (winRanges h.core.toNat (s.win h w) ((s.thread h).get a) 256) = .clear) :
    exec (.vld h fmt d a w pm) s = .next (ran h s fun t =>
      (readBy h (winRanges h.core.toNat (s.win h w) ((s.thread h).get a) 256) t).onCore h.core.toNat fun c =>
        c.setV d pm (lanesOf (winRead s h.core.toNat (s.win h w) ((s.thread h).get a) 256))) := by
  rw [exec_vld, hartOp_issues hi]
  refine congrArg _ (ran_congr ?_)
  rw [atUnit_aligned aligned, issued_win, progReads_issued _ clear, readBy_win, issued_win, readBy_winRead, issued_winRead]

theorem exec_vst_issues (hi : Issues h (.vst h fmt d a w pm) s) (aligned : ((s.thread h).get a).toNat % 64 = 0) :
    exec (.vst h fmt d a w pm) s = .next (ran h s fun t =>
      ((winUnits (s.win h w) ((s.thread h).get a) 256).zip
        (chunks 16 (((s.core h.core.toNat).pmask pm).zip ((s.core h.core.toNat).vreg d)))).foldl
          (fun t p => storeUnit (coreAddr h.core.toNat p.1) p.2 t) t) := by
  rw [exec_vst, hartOp_issues hi]
  refine congrArg _ (ran_congr ?_)
  rw [atUnit_aligned aligned, issued_win, issued_pmask, issued_vreg]

theorem exec_vgather_issues (hi : Issues h (.vgather h d a b w pm) s) (aligned : ((s.thread h).get a).toNat % 4 = 0)
    (clear : s.meets (((s.core h.core.toNat).active pm ((s.core h.core.toNat).vreg b)).map
      fun k => (elemAddr h.core.toNat (s.win h w) ((s.thread h).get a) k, 4)) = .clear) :
    exec (.vgather h d a b w pm) s = .next (ran h s fun t =>
      (readBy h (((s.core h.core.toNat).active pm ((s.core h.core.toNat).vreg b)).map
        fun k => (elemAddr h.core.toNat (s.win h w) ((s.thread h).get a) k, 4)) t).onCore h.core.toNat fun c =>
          c.setV d pm ((c.vreg b).map fun k =>
            BitVec.ofNat 32 (s.readNat (elemAddr h.core.toNat (s.win h w) ((s.thread h).get a) k) 4))) := by
  rw [exec_vgather, hartOp_issues hi]
  refine congrArg _ (ran_congr ?_)
  rw [atElem_aligned aligned, issued_win, issued_vreg, issued_active, progReads_issued _ clear]
  simp only [readBy_readNat, issued_readNat]

theorem exec_vscatter_issues (hi : Issues h (.vscatter h d a b w pm) s) (aligned : ((s.thread h).get a).toNat % 4 = 0)
    {z : Word × Word}
    (lanes : (s.core h.core.toNat).active pm (((s.core h.core.toNat).vreg b).zip ((s.core h.core.toNat).vreg d)) = [z]) :
    exec (.vscatter h d a b w pm) s = .next (ran h s fun t =>
      t.write (elemAddr h.core.toNat (s.win h w) ((s.thread h).get a) z.1) (leBytes 4 z.2.toNat)) := by
  rw [exec_vscatter, hartOp_issues hi]
  refine congrArg _ (ran_congr ?_)
  rw [atElem_aligned aligned, issued_vreg, issued_vreg, issued_active, lanes, issued_win]
  exact scatterTo_one ..

theorem sampleDone_samples (off : DWord) (b : Bytes) (o : SampleOut) : sampleDone h w off false b o s =
    progConds h 0 { Conds.zero with sampleFault := if o.fault = 0 then 0 else 1 }
      (winWrite h.core.toNat (s.win h w) off (b.take 0x30 ++
        (leBytes 4 o.token ++ leBytes 4 o.logp.toNat ++ leBytes 4 o.kept ++ leBytes 4 o.fault)) s) := by
  simp only [sampleDone, sampleOutput, beq_iff_eq, Bool.false_eq_true, if_false]

/-- A block under SAMPLE with parameters in range, whose window is used and whose logits read without error. -/
theorem sampleTo_samples {off : DWord} {b : Bytes} {win : Nat × Nat} {start : DWord} {units : Nat}
    (ok : sampleParamsOk b = true) (mode : fieldAt b 0x28 4 = 0)
    (used : windowUsed h (fieldAt b 0x24 4 / 2 ^ 17) s = true)
    (hw : s.win h (BitVec.ofNat 3 (fieldAt b 0x24 4 / 2 ^ 17)) = win)
    (hs : BitVec.ofNat 64 (64 * (fieldAt b 0x24 4 % 2 ^ 17)) = start) (hu : (fieldAt b 0x14 4 + 15) / 16 = units)
    (clear : s.meets (winRanges h.core.toNat win start units) = .clear) :
    sampleTo h w off b s = sampleDone h w off false b (sampleOf false b (winRead s h.core.toNat win start units))
      (readBy h (winRanges h.core.toNat win start units) s) := by
  have legal : ¬((!sampleParamsOk b || !windowUsed h (fieldAt b 0x24 4 / 2 ^ 17) s) = true) := by
    rw [ok, used]
    decide
  subst hw hs hu
  unfold sampleTo
  dsimp only
  rw [if_neg legal, progReads_clear _ clear, readBy_winRead, mode]
  rfl

/-- VSAMPLE of a block, left general, that its window holds. -/
theorem exec_vsample_issues (hi : Issues h (.vsample h a w) s) (aligned : ((s.thread h).get a).toNat % 64 = 0) {b : Bytes}
    {win : Nat × Nat} {start : DWord} {units : Nat}
    (block : winRead s h.core.toNat (s.win h w) ((s.thread h).get a) 1 = b)
    (reads : s.meets (winRanges h.core.toNat (s.win h w) ((s.thread h).get a) 1) = .clear)
    (ok : sampleParamsOk b = true) (mode : fieldAt b 0x28 4 = 0)
    (used : windowUsed h (fieldAt b 0x24 4 / 2 ^ 17) s = true)
    (hw : s.win h (BitVec.ofNat 3 (fieldAt b 0x24 4 / 2 ^ 17)) = win)
    (hs : BitVec.ofNat 64 (64 * (fieldAt b 0x24 4 % 2 ^ 17)) = start) (hu : (fieldAt b 0x14 4 + 15) / 16 = units)
    (clear : s.meets (winRanges h.core.toNat win start units) = .clear) {o : SampleOut}
    (out : sampleOf false b (winRead s h.core.toNat win start units) = o) :
    exec (.vsample h a w) s = .next (ran h s fun t =>
      progConds h 0 { Conds.zero with sampleFault := if o.fault = 0 then 0 else 1 }
        (winWrite h.core.toNat (s.win h w) ((s.thread h).get a) (b.take 0x30 ++ (leBytes 4 o.token ++ leBytes 4 o.logp.toNat ++
          leBytes 4 o.kept ++ leBytes 4 o.fault)) (readBy h (winRanges h.core.toNat win start units)
            (readBy h (winRanges h.core.toNat (s.win h w) ((s.thread h).get a) 1) t)))) := by
  rw [exec_vsample, hartOp_issues hi]
  refine congrArg _ (ran_congr ?_)
  rw [atUnit_aligned aligned, issued_win, progReads_issued _ reads, readBy_win, issued_win, readBy_winRead, issued_winRead, block,
    sampleTo_samples ok mode (by rwa [windowUsed, readBy_prog_eq, issued_prog])
      ((readBy_win ..).trans ((issued_win ..).trans hw)) hs hu
      (by rwa [readBy_meets, issued_meets]),
    sampleDone_samples, readBy_winRead, issued_winRead, out, readBy_win, readBy_win, issued_win]

end

/-- Settles O29: every row issues, reads what the state before held, and does what its definition does to it; VRFIN's report leaves
memory and Xd alone. -/
theorem reductionsAndVectorMemory : Obligations.ReductionsAndVectorMemory := by
  unfold Obligations.ReductionsAndVectorMemory
  intro h d a b n w pm fmt s core thread hx i c x A rd clear got
  refine ⟨?vrclr, ?vrsum, ?vrdot, ?vrfin, ?vrminmax, ?vrarg, fun aligned => ⟨?vrput, ?vrget, ?vld, ?vst⟩,
    fun aligned => ⟨?vgather, ?vscatter⟩, ?vsample⟩
  case vrclr => exact fun hi => (exec_vrclr ..).trans (vectorOp_issues hi _)
  case vrsum => exact fun hi => (exec_vrsum ..).trans (vectorOp_issues hi _)
  case vrdot => exact fun hi => (exec_vrdot ..).trans (vectorOp_issues hi _)
  case vrfin => exact fun hi => exec_vrfin_issues hi ⟨core, thread⟩ hx
  case vrminmax =>
    exact fun z zs lanes => ⟨fun hi => (exec_vrmax ..).trans (reduceMinMax_issues hi _ lanes),
      fun hi => (exec_vrmin ..).trans (reduceMinMax_issues hi _ lanes)⟩
  case vrarg => exact fun z lanes number hi => (exec_vrarg ..).trans (execVrarg_issues hi lanes number)
  case vrput => exact fun hi => exec_vrput_issues hi aligned
  case vrget => exact fun sh image hi reads => exec_vrget_issues hi aligned reads image
  case vld => exact fun hi reads => exec_vld_issues hi aligned reads
  case vst => exact fun hi => exec_vst_issues hi aligned
  case vgather => exact fun hi reads => exec_vgather_issues hi aligned reads
  case vscatter => exact fun z lanes hi => exec_vscatter_issues hi aligned lanes
  case vsample =>
    intro aligned blk u lw lo units o ok mode ⟨v, prog, used⟩ hi block logits
    have named : windowUsed h (u 0x24 4 / 2 ^ 17) s = true := by
      rw [windowUsed, prog]
      exact bne_iff_ne.2 used
    exact exec_vsample_issues hi aligned rfl block ok mode named rfl rfl rfl logits rfl

end Sys2Proof.Machine
end

section
/-!
PROOFS. The lane instructions of update programs: a destination is an element register or a scalar register, and each instruction
writes it by its operation.
-/
namespace Sys2Proof.Machine

/-- Register D of a block takes lanes or a scalar, as its number says, where programs may write it (R236). -/
def ledPut (d : Nat) (lanes : List Word) (w : Word) (r : LedRegs) : LedRegs :=
  if ledWritable d then
    (if d < 0x20 then { r with el := r.el.set d lanes } else { r with sc := r.sc.set (d - 0x20) w })
  else r

/-- A destination is chosen before its register is checked, or after. -/
theorem setElem_or_setScalar (d : Nat) (lanes : List Word) (w : Word) (r : LedRegs) :
    (if d < 0x20 then r.setElem d lanes else r.setScalar d w) = ledPut d lanes w r := by
  unfold ledPut LedRegs.setElem LedRegs.setScalar
  by_cases writable : ledWritable d = true <;> simp only [writable, if_true, if_false, Bool.false_eq_true, ite_self]

section
variable {s : State} (on : s.off = false) (ld : BitVec 2) (d a b c : BitVec 8)
include on

/-- An operation of one source on the block in progress. -/
theorem onLed_ledOp1 (f : Word → Word) : onLed ld (ledOp1 f d.toNat a.toNat) s =
    .next (ledNext ld (fun r => ledPut d.toNat ((r.lanes a.toNat).map f) (f (r.scalar a.toNat)) r) s) :=
  (onLed_on ld _ on).trans (congrArg _ (ledNext_congr (setElem_or_setScalar ..)))

/-- An operation of two sources on the block in progress. -/
theorem onLed_ledOp2 (f : Word → Word → Word) : onLed ld (ledOp2 f d.toNat a.toNat b.toNat) s =
    .next (ledNext ld (fun r => ledPut d.toNat (List.zipWith f (r.lanes a.toNat) (r.lanes b.toNat))
      (f (r.scalar a.toNat) (r.scalar b.toNat)) r) s) :=
  (onLed_on ld _ on).trans (congrArg _ (ledNext_congr (setElem_or_setScalar ..)))

/-- An operation of three sources on the block in progress. -/
theorem onLed_ledOp3 (f : Word → Word → Word → Word) : onLed ld (ledOp3 f d.toNat a.toNat b.toNat c.toNat) s =
    .next (ledNext ld (fun r => ledPut d.toNat
      (List.zipWith (fun (x : Word × Word) z => f x.1 x.2 z) ((r.lanes a.toNat).zip (r.lanes b.toNat)) (r.lanes c.toNat))
      (f (r.scalar a.toNat) (r.scalar b.toNat) (r.scalar c.toNat)) r) s) :=
  (onLed_on ld _ on).trans (congrArg _ (ledNext_congr (setElem_or_setScalar ..)))

end

/-! ## The rows -/

section
variable (ld : BitVec 2) (d a b c : BitVec 8) (s : State)

theorem exec_ldgMov : exec (.ldgMov ld d a) s = onLed ld (ledOp1 id d.toNat a.toNat) s := rfl
theorem exec_ldgAdd : exec (.ldgAdd ld d a b) s = onLed ld (ledOp2 f32Add d.toNat a.toNat b.toNat) s := rfl
theorem exec_ldgSub : exec (.ldgSub ld d a b) s = onLed ld (ledOp2 f32Sub d.toNat a.toNat b.toNat) s := rfl
theorem exec_ldgMul : exec (.ldgMul ld d a b) s = onLed ld (ledOp2 f32Mul d.toNat a.toNat b.toNat) s := rfl
theorem exec_ldgFma : exec (.ldgFma ld d a b c) s = onLed ld (ledOp3 f32Fma d.toNat a.toNat b.toNat c.toNat) s := rfl
theorem exec_ldgDiv : exec (.ldgDiv ld d a b) s = onLed ld (ledOp2 f32Div d.toNat a.toNat b.toNat) s := rfl
theorem exec_ldgSqrt : exec (.ldgSqrt ld d a) s = onLed ld (ledOp1 f32Sqrt d.toNat a.toNat) s := rfl
theorem exec_ldgMin : exec (.ldgMin ld d a b) s = onLed ld (ledOp2 (f32Op Val.min) d.toNat a.toNat b.toNat) s := rfl
theorem exec_ldgMax : exec (.ldgMax ld d a b) s = onLed ld (ledOp2 (f32Op Val.max) d.toNat a.toNat b.toNat) s := rfl
theorem exec_ldgFn (f : Fn) : exec (.ldgFn ld d a f) s = onLed ld (ledOp1 (libFn f) d.toNat a.toNat) s := rfl
theorem exec_sign : exec (.sign ld d a) s = onLed ld (ledOp1 f32Sign d.toNat a.toNat) s := rfl
theorem exec_sel : exec (.sel ld d a b c) s = onLed ld (ledOp3 f32Sel d.toNat a.toNat b.toNat c.toNat) s := rfl
theorem exec_abs : exec (.abs ld d a) s = onLed ld (ledOp1 f32Abs d.toNat a.toNat) s := rfl

end

/-- Settles O30: every row is one operation of its number of sources, and its word operation is the one that its definition names. -/
theorem ledgerLaneInstructionResults : Obligations.LedgerLaneInstructionResults := by
  unfold Obligations.LedgerLaneInstructionResults
  intro ld d a b c s on write op1 op2 op3 two
  refine ⟨?mov, ?add, ?sub, ?mul, ?fma, ?div, ?sqrt, ?min, ?max, ?fn, ?sign, ?sel, ?abs⟩
  case mov => exact (exec_ldgMov ..).trans (onLed_ledOp1 on ld d a id)
  case add => exact (exec_ldgAdd ..).trans (onLed_ledOp2 on ld d a b f32Add)
  case sub => exact (exec_ldgSub ..).trans (onLed_ledOp2 on ld d a b f32Sub)
  case mul => exact (exec_ldgMul ..).trans (onLed_ledOp2 on ld d a b f32Mul)
  case fma => exact (exec_ldgFma ..).trans (onLed_ledOp3 on ld d a b c f32Fma)
  case div => exact (exec_ldgDiv ..).trans (onLed_ledOp2 on ld d a b f32Div)
  case sqrt => exact (exec_ldgSqrt ..).trans (onLed_ledOp1 on ld d a f32Sqrt)
  case min => exact (exec_ldgMin ..).trans (onLed_ledOp2 on ld d a b (f32Op Val.min))
  case max => exact (exec_ldgMax ..).trans (onLed_ledOp2 on ld d a b (f32Op Val.max))
  case fn => exact fun f => (exec_ldgFn ..).trans (onLed_ledOp1 on ld d a (libFn f))
  case sign => exact (exec_sign ..).trans (onLed_ledOp1 on ld d a f32Sign)
  case sel => exact (exec_sel ..).trans (onLed_ledOp3 on ld d a b c f32Sel)
  case abs => exact (exec_abs ..).trans (onLed_ledOp1 on ld d a f32Abs)

end Sys2Proof.Machine
end

section
/-!
PROOFS. Work packages start and their descriptors run: looking up a package or a descriptor after a change, the choice of an engine,
what a prologue leaves alone, and one equation for each row.
-/
namespace Sys2Proof.Machine

/-! ## Packages and descriptors after a change -/

theorem pkg_congr {s t : State} (h : t.pkgs = s.pkgs) (id : PkgId) : t.pkg id = s.pkg id := by rw [State.pkg, h, State.pkg]

/-- A package after a change that keeps its identity. -/
theorem pkg_onPkg {s : State} {id : PkgId} {f : Pkg → Pkg} (hf : ∀ p, (f p).id = p.id) :
    (s.onPkg id f).pkg id = (s.pkg id).map f := by
  have same : ((fun x : Pkg => x.id == id) ∘ fun x => if x.id == id then f x else x) = fun x => x.id == id := by
    funext x
    simp only [Function.comp]
    split
    · rw [hf]
    · rfl
  rw [State.pkg, State.onPkg, List.find?_map, same, State.pkg]
  cases hp : s.pkgs.find? fun x => x.id == id with
  | none => rfl
  | some p =>
    have named : (p.id == id) = true := List.find?_some (p := fun x : Pkg => x.id == id) hp
    simp only [Option.map_some, named, if_true]

theorem desc_congr {s t : State} (h : t.pkgs = s.pkgs) (d : DescId) : t.desc d = s.desc d := by
  rw [State.desc, pkg_congr h, State.desc]

/-- A descriptor after a change. -/
theorem desc_onDesc {s : State} {d : DescId} {p : Pkg} {x : Desc} (hd : s.desc d = some (p, x)) (f : Desc → Desc) :
    (s.onDesc d f).desc d = some ({ p with descs := lmod p.descs d.idx.toNat f }, f x) := by
  have hp : s.pkg d.pkg = some p := by
    unfold State.desc at hd
    split at hd
    · cases hd
    · next q hq =>
      split at hd
      · cases hd
      · cases hd
        exact hq
  have hx : p.descs[d.idx.toNat]? = some x := by
    simp only [State.desc, hp] at hd
    split at hd
    · cases hd
    · next y hy =>
      cases hd
      exact hy
  have changed : (s.onDesc d f).pkg d.pkg = some { p with descs := lmod p.descs d.idx.toNat f } := by
    refine (pkg_onPkg ?_).trans (by rw [hp]; rfl)
    exact fun _ => rfl
  simp only [State.desc, changed, lmod, List.getElem?_modify_eq, hx]
  rfl

/-! ## The choice of an engine (R172) -/

theorem leastOf_eq_min? (ns : List Nat) : leastOf ns = ns.min? := by
  cases ns with
  | nil => rfl
  | cons a as =>
    have head : Nat.min a a = a := Nat.min_self a
    rw [List.min?_cons', leastOf, List.head?_cons, Option.map_some, List.foldl_cons, head]

theorem leastOf_eq_some {ns : List Nat} {m : Nat} (h : leastOf ns = some m) : m ∈ ns ∧ ∀ n ∈ ns, m ≤ n :=
  List.min?_eq_some_iff.1 (leastOf_eq_min? ns ▸ h)

theorem leastOf_isSome {ns : List Nat} (h : ns ≠ []) : (leastOf ns).isSome = true := by
  cases ns with
  | nil => exact absurd rfl h
  | cons a as => rfl

/-- The account that a round robin comes to next: the first at or after its turn, and otherwise the first of all. -/
def nextAcct (turn : Nat) (accts : List Nat) : Option Nat :=
  (leastOf (accts.filter fun a => decide (turn ≤ a))).orElse fun _ => leastOf accts

theorem nextAcct_eq_some {turn a : Nat} {accts : List Nat} (h : nextAcct turn accts = some a) :
    a ∈ accts ∧ ∀ c ∈ accts, (turn ≤ a → turn ≤ c → a ≤ c) ∧ (a < turn → c < turn ∧ a ≤ c) := by
  unfold nextAcct at h
  cases later : leastOf (accts.filter fun a => decide (turn ≤ a)) with
  | some b =>
    obtain rfl : b = a := by simpa [later] using h
    obtain ⟨mem, least⟩ := leastOf_eq_some later
    obtain ⟨inside, after⟩ : b ∈ accts ∧ turn ≤ b := by simpa using mem
    exact ⟨inside, fun c hc => ⟨fun _ hturn => least c (by simpa using ⟨hc, hturn⟩), fun before => absurd after (by omega)⟩⟩
  | none =>
    have first : leastOf accts = some a := by simpa [later] using h
    obtain ⟨mem, least⟩ := leastOf_eq_some first
    have passed : ∀ c ∈ accts, c < turn := by
      intro c hc
      by_contra after
      have some : (leastOf (accts.filter fun a => decide (turn ≤ a))).isSome = true :=
        leastOf_isSome (List.ne_nil_of_mem (by simpa using ⟨hc, Nat.le_of_not_lt after⟩ : c ∈ _))
      simp [later] at some
    exact ⟨mem, fun c hc => ⟨fun _ _ => least c hc, fun _ => ⟨passed c hc, least c hc⟩⟩⟩

theorem nextAcct_isSome (turn : Nat) {accts : List Nat} (h : accts ≠ []) : (nextAcct turn accts).isSome = true := by
  unfold nextAcct
  cases leastOf (accts.filter fun a => decide (turn ≤ a)) with
  | some b => rfl
  | none => exact leastOf_isSome h

section
variable {turn : Nat} {cs : List (Nat × Nat × DescId)}

/-- Of an account's descriptors, one of the package accepted first. -/
def firstOf (cs : List (Nat × Nat × DescId)) (a : Nat) : Option DescId :=
  match leastOf ((cs.filter fun c => c.1 == a).map (·.2.1)) with
  | none => none
  | some o => ((cs.filter fun c => c.1 == a).find? fun c => c.2.1 == o).map (·.2.2)

theorem chooseDesc_eq (turn : Nat) (cs : List (Nat × Nat × DescId)) :
    chooseDesc turn cs = (nextAcct turn (cs.map (·.1))).bind (firstOf cs) := by
  unfold chooseDesc nextAcct firstOf
  dsimp only
  cases (leastOf ((cs.map (·.1)).filter fun a => decide (turn ≤ a))).orElse fun _ => leastOf (cs.map (·.1)) <;> rfl

theorem firstOf_eq_some {a : Nat} {d : DescId} (h : firstOf cs a = some d) :
    ∃ o, (a, o, d) ∈ cs ∧ ∀ c ∈ cs, c.1 = a → o ≤ c.2.1 := by
  unfold firstOf at h
  split at h
  · cases h
  · next o ho =>
    obtain ⟨⟨b, o', d'⟩, found, rfl⟩ := Option.map_eq_some_iff.1 h
    obtain ⟨_, least⟩ := leastOf_eq_some ho
    have mine := List.mem_of_find?_eq_some found
    have order := List.find?_some found
    simp only [List.mem_filter, beq_iff_eq] at mine order
    obtain ⟨inside, rfl⟩ := mine
    subst order
    exact ⟨o', inside, fun c hc acct => least _ (List.mem_map_of_mem (List.mem_filter.2 ⟨hc, by simpa using acct⟩))⟩

theorem firstOf_isSome {a : Nat} (h : a ∈ cs.map (·.1)) : (firstOf cs a).isSome = true := by
  obtain ⟨c, hc, rfl⟩ := List.mem_map.1 h
  have mine : c ∈ cs.filter fun x => x.1 == c.1 := List.mem_filter.2 ⟨hc, by simp⟩
  unfold firstOf
  cases least : leastOf ((cs.filter fun x => x.1 == c.1).map (·.2.1)) with
  | none =>
    have := leastOf_isSome (List.ne_nil_of_mem (List.mem_map_of_mem (f := (·.2.1)) mine))
    simp [least] at this
  | some o =>
    obtain ⟨x, hx, rfl⟩ := List.mem_map.1 (leastOf_eq_some least).1
    rw [Option.isSome_map, List.find?_isSome]
    exact ⟨x, hx, by simp⟩

theorem chooseDesc_isSome (h : cs ≠ []) : (chooseDesc turn cs).isSome = true := by
  rw [chooseDesc_eq]
  cases next : nextAcct turn (cs.map (·.1)) with
  | none =>
    have := nextAcct_isSome turn (accts := cs.map (·.1)) (by simpa using h)
    simp [next] at this
  | some a => exact firstOf_isSome (nextAcct_eq_some next).1

/-- An engine chooses an account by its round robin, and in it a package accepted first. -/
theorem chooseDesc_eq_some {d : DescId} (h : chooseDesc turn cs = some d) :
    ∃ a o, (a, o, d) ∈ cs ∧ (∀ c ∈ cs, c.1 = a → o ≤ c.2.1) ∧
      ∀ c ∈ cs, (turn ≤ a → turn ≤ c.1 → a ≤ c.1) ∧ (a < turn → c.1 < turn ∧ a ≤ c.1) := by
  obtain ⟨a, next, first⟩ := Option.bind_eq_some_iff.1 (chooseDesc_eq turn cs ▸ h)
  obtain ⟨o, mem, least⟩ := firstOf_eq_some first
  exact ⟨a, o, mem, least, fun c hc => (nextAcct_eq_some next).2 c.1 (List.mem_map_of_mem hc)⟩

end

/-! ## What a prologue leaves alone (R171) -/

/-- Two states have the same mailbox, accounts, cores, packages, models and module time: what stores bytes and what damages them may
differ. -/
structure OnlyStorage (s t : State) : Prop where
  mail : t.mail = s.mail
  ten : t.ten = s.ten
  cores : t.cores = s.cores
  pkgs : t.pkgs = s.pkgs
  models : t.models = s.models
  mtime : t.mtime = s.mtime

theorem OnlyStorage.refl (s : State) : OnlyStorage s s := ⟨rfl, rfl, rfl, rfl, rfl, rfl⟩

theorem OnlyStorage.trans {s t u : State} (h : OnlyStorage s t) (g : OnlyStorage t u) : OnlyStorage s u :=
  ⟨g.mail.trans h.mail, g.ten.trans h.ten, g.cores.trans h.cores, g.pkgs.trans h.pkgs, g.models.trans h.models,
    g.mtime.trans h.mtime⟩

theorem OnlyStorage.foldl {α : Type} {f : State → α → State} (hf : ∀ s x, OnlyStorage s (f s x)) (xs : List α) (s : State) :
    OnlyStorage s (xs.foldl f s) := by
  induction xs generalizing s with
  | nil => exact .refl s
  | cons x xs ih => exact (hf s x).trans (ih _)

/-- A failed read repairs rows and marks codewords (R355). -/
theorem discover_onlyStorage (a n : Nat) (s : State) : OnlyStorage s (s.discover a n) := by
  unfold State.discover
  split
  · exact .refl s
  · next d _ =>
    by_cases none : ((s.dieMem d).failing.filter fun k => touchesCode a n k).isEmpty = true
    · rw [if_pos none]
      exact .refl s
    · rw [if_neg none]
      exact iteInduction (fun _ => ⟨rfl, rfl, rfl, rfl, rfl, rfl⟩) fun _ => ⟨rfl, rfl, rfl, rfl, rfl, rfl⟩

theorem copyRange_onlyStorage (acct src dst n : Nat) (s : State) : OnlyStorage s (copyRange acct src dst n s) := by
  have asked : OnlyStorage s (s.charge .compute acct [(src, n), (dst, n)]) := ⟨rfl, rfl, rfl, rfl, rfl, rfl⟩
  unfold copyRange
  dsimp only
  split
  · exact (asked.trans (discover_onlyStorage ..)).trans ⟨rfl, rfl, rfl, rfl, rfl, rfl⟩
  · exact asked.trans ⟨rfl, rfl, rfl, rfl, rfl, rfl⟩

theorem prologue_onlyStorage (p : Pkg) (first : Bool) (s : State) : OnlyStorage s (prologue p first s) := by
  have temp : ∀ s (r : Region), OnlyStorage s (s.wipeRange r.base r.len) := fun _ _ => ⟨rfl, rfl, rfl, rfl, rfl, rfl⟩
  have code : ∀ s (r : Region),
      OnlyStorage s (copyRange p.id.acct.toNat r.base (coreAddr r.core (64 * r.aux)) r.len s) := fun _ _ => copyRange_onlyStorage ..
  have shadow : ∀ s (r : Region), OnlyStorage s (if first then copyRange p.id.acct.toNat r.base r.aux r.len s
      else copyRange p.id.acct.toNat r.aux r.base r.len s) := fun _ _ => by split <;> exact copyRange_onlyStorage ..
  have copied := ((OnlyStorage.foldl temp (p.regions.filter fun r => r.role == 4) s).trans
    (OnlyStorage.foldl code (p.regions.filter fun r => r.role == 5) _)).trans
      (OnlyStorage.foldl shadow (p.regions.filter fun r => r.role == 3) _)
  unfold prologue
  dsimp only
  split
  · exact copied
  · exact copied.trans ⟨rfl, rfl, rfl, rfl, rfl, rfl⟩

/-! ## The start of a package (R171, R174) -/

/-- Cores take a phase. -/
def takePhase (phase : Phase) (cores : List Nat) (s : State) : State :=
  cores.foldl (fun s i => s.onCore i fun c => { c with phase := some phase }) s

/-- What a phase of cores keeps of a state. -/
theorem takePhase_keeps {α : Type} (p : State → α) (onCore : ∀ s i f, p (State.onCore s i f) = p s) (phase : Phase)
    (cores : List Nat) (s : State) : p (takePhase phase cores s) = p s := by
  induction cores generalizing s with
  | nil => rfl
  | cons i cores ih => exact (ih _).trans (onCore ..)

/-- A core that has a phase keeps it, and a core that takes one has it. -/
theorem takePhase_phase {phase : Phase} {cores : List Nat} {s : State} {i : Nat} (hi : i < s.cores.length)
    (h : i ∈ cores ∨ (s.core i).phase = some phase) : ((takePhase phase cores s).core i).phase = some phase := by
  induction cores generalizing s with
  | nil => exact h.resolve_left List.not_mem_nil
  | cons j cores ih =>
    refine ih (s := s.onCore j fun c => { c with phase := some phase }) ((length_lmod ..).symm ▸ hi) ?_
    by_cases mem : i ∈ cores
    · exact .inl mem
    · right
      rw [State.core_onCore]
      split
      · rfl
      · next apart =>
        exact h.resolve_left fun inside => apart ⟨((List.mem_cons.1 inside).resolve_right mem).symm, hi⟩

/-- A package that starts: its prologue runs, its cores take its phase, and it binds its epoch. -/
def startPkg (id : PkgId) (q : Pkg) (s : State) : State :=
  let u := takePhase q.phase q.cores (prologue q true s)
  u.onPkg id fun q => { q with state := .running, shadowed := true, tStart := u.mtime, epoch := q.bind u }

theorem execPackageStart_starts {id : PkgId} {s : State} {q : Pkg} (hq : s.pkg id = some q)
    (loaded : q.state = .loaded ∨ q.state = .phaseWait) (p0 : s.chip.power.pstate = 0) (phase : q.phaseOpen s = true)
    (roll : q.waitsRoll s = false) (model : q.modelOpen s = true) (reads : s.meets (prologueReads q true) = .clear) :
    execPackageStart id s = .next (startPkg id q (s.charge .compute id.acct.toNat (prologueReads q true))) := by
  have queued : (!(q.state == .loaded || q.state == .phaseWait) || s.chip.power.pstate != 0) = false := by
    rcases loaded with h | h <;> simp [h, p0]
  unfold execPackageStart
  rw [hq]
  dsimp only
  rw [queued, phase, roll, model]
  exact congrArg Host.Outcome.next (workReads_clear _ reads)

theorem modelOf_congr {s t : State} (h : t.models = s.models) (acct num : Nat) : t.modelOf acct num = s.modelOf acct num := by
  simp only [State.modelOf, State.slotOf, State.model, h]

theorem bind_congr {s t : State} (h : t.models = s.models) (q : Pkg) : q.bind t = q.bind s := by
  rw [Pkg.bind, modelOf_congr h, Pkg.bind]

theorem startPkg_pkg {id : PkgId} {p : Pkg} (q : Pkg) {s : State} (h : s.pkg id = some p) :
    ∃ q', (startPkg id q s).pkg id = some q' ∧ q'.state = .running ∧ q'.shadowed = true ∧ q'.tStart = s.mtime ∧ q'.epoch = p.bind s ∧
      q'.descs = p.descs ∧ q'.regions = p.regions ∧ q'.sems = p.sems := by
  have storage := prologue_onlyStorage q true s
  have pkgs : (takePhase q.phase q.cores (prologue q true s)).pkgs = s.pkgs :=
    (takePhase_keeps State.pkgs (fun _ _ _ => rfl) ..).trans storage.pkgs
  have models : (takePhase q.phase q.cores (prologue q true s)).models = s.models :=
    (takePhase_keeps State.models (fun _ _ _ => rfl) ..).trans storage.models
  have mtime : (takePhase q.phase q.cores (prologue q true s)).mtime = s.mtime :=
    (takePhase_keeps State.mtime (fun _ _ _ => rfl) ..).trans storage.mtime
  have started := (pkg_onPkg (s := takePhase q.phase q.cores (prologue q true s)) (id := id) (f := fun r => { r with
    state := .running, shadowed := true, tStart := (takePhase q.phase q.cores (prologue q true s)).mtime,
    epoch := r.bind (takePhase q.phase q.cores (prologue q true s)) }) fun _ => rfl).trans (by rw [pkg_congr pkgs, h])
  exact ⟨_, started, rfl, rfl, mtime, bind_congr models p, rfl, rfl, rfl⟩

theorem startPkg_phase {id : PkgId} {q : Pkg} {s : State} {i : Nat} (mine : i ∈ q.cores) (hi : i < s.cores.length) :
    ((startPkg id q s).core i).phase = some q.phase :=
  takePhase_phase (s := prologue q true s) ((prologue_onlyStorage q true s).cores.symm ▸ hi) (.inl mine)

/-- What a package that starts keeps of a state. -/
theorem startPkg_keeps {α : Type} (p : State → α) (onCore : ∀ s i f, p (State.onCore s i f) = p s)
    (onPkg : ∀ s i f, p (State.onPkg s i f) = p s) (id : PkgId) (q : Pkg) (s : State) :
    p (startPkg id q s) = p (prologue q true s) :=
  (onPkg ..).trans (takePhase_keeps p onCore ..)

/-! ## The start of a descriptor (R160, R162) -/

theorem exec_descriptorStart (d : DescId) (s : State) : exec (.descriptorStart d) s = execDescriptorStart d s := rfl

section
variable {d : DescId} {s : State} {p : Pkg} {x : Desc}

/-- A descriptor that starts is STARTED from module time on, and memory is as before. -/
theorem startDesc_started (hd : s.desc d = some (p, x)) :
    (startDesc p d.idx.toNat x s).mem = s.mem ∧ ∃ y, (startDesc p d.idx.toNat x s).desc d = some y ∧ y.2.state = .started ∧
      y.2.tStart = s.mtime ∧ y.2.raw = x.raw := by
  have named : (⟨p.id, BitVec.ofNat 14 d.idx.toNat⟩ : DescId) = d := by rw [desc_pkg hd, BitVec.ofNat_toNat, BitVec.setWidth_eq]
  have started := desc_onDesc hd fun x => { x with state := .started, tStart := s.mtime, waited := true }
  unfold startDesc
  dsimp only
  rw [named]
  split
  · exact ⟨rfl, _, (desc_congr rfl d).trans started, rfl, rfl, rfl⟩
  · exact ⟨rfl, _, started, rfl, rfl, rfl⟩

theorem execDescriptorStart_chosen (hd : s.desc d = some (p, x)) (ready : descReady s p d.idx.toNat x = true) (kind : x.kind ≠ 4)
    (chosen : 2 ≤ x.pos ∨ s.serves (p.engine x) (rivals s p x) d = true) :
    ∃ turns, execDescriptorStart d s = .next { startDesc p d.idx.toNat x s with svcTurn := turns } := by
  have engine : (x.kind == 4) = false := by simpa using kind
  unfold execDescriptorStart
  rw [hd]
  dsimp only
  rw [ready, engine]
  by_cases follows : 2 ≤ x.pos
  · rw [decide_eq_true follows]
    exact ⟨_, rfl⟩
  · rw [decide_eq_false follows, chosen.resolve_left follows]
    exact ⟨_, rfl⟩

theorem closeDesc_crosses {n : Noc} (result : Word)
    (h : s.chip.noc.crossAll (signalMsgs s d.pkg.acct.toNat (p.die x) x.signal) = some n) :
    closeDesc d p x result s = completeDesc d result (crossed s n) := carry_crosses _ h

/-- A SYNC that starts takes no engine: neither its message nor the network changes. -/
theorem closeDesc_startDesc_crosses {n : Noc} (kind : x.kind = 4) (i : Nat)
    (h : s.chip.noc.crossAll (signalMsgs s d.pkg.acct.toNat (p.die x) x.signal) = some n) :
    closeDesc d p x 0 (startDesc p i x s) = completeDesc d 0 (crossed (startDesc p i x s) n) := by
  refine carry_crosses _ ?_
  have plain : startDesc p i x s = s.onDesc ⟨p.id, BitVec.ofNat 14 i⟩ fun d => { d with state := .started, tStart := s.mtime, waited := true } := by
    simp [startDesc, kind]
  rw [plain]
  exact h

/-! ## The launch of a vector program (R121, R123, R124) -/

/-- A thread as a launch leaves it. -/
def launched (mask k : Nat) : Thread :=
  { Thread.reset with state := if mask.testBit k then ThreadState.running else ThreadState.idle }.set 1 (BitVec.ofNat 64 k)

/-- The program that a descriptor launches. -/
def launchProg (d : DescId) (s : State) (p : Pkg) (x : Desc) : VProg :=
  let win := fun (i : Nat) =>
    let w := x.u (0x30 + 8 * i) 8
    (64 * bitField w 0 17, 64 * bitField w 32 18)
  let slot := fun (i : Nat) =>
    let word := x.u (0x70 + 8 * i) 2
    let tid := x.u (0x72 + 8 * i) 4
    (⟨word, tid, p.anchor s word tid⟩ : AnchorSlot)
  { desc := d, code := 64 * bitField (x.u 0x10 4) 0 17, plen := bitField (x.u 0x14 4) 0 15, budget := x.u 0x1C 4,
    wins := (List.range 8).map win, anch := (List.range 8).map slot, result := 0, posted := [] }

/-- A core as a launch leaves it. -/
def launchCore (v : VProg) (mask : Nat) (c : Core) : Core :=
  { Core.reset with phase := c.phase, tiles := c.tiles, accNext := c.accNext, prog := some v,
                    threads := (List.range 16).map (launched mask) }

theorem execVectorProgram_launches (hd : s.desc d = some (p, x)) (kind : x.kind = 2) (started : x.state = .started)
    (fresh : x.progress = 0) (free : (s.core (p.core x)).prog = none) :
    exec (.vectorProgram d) s = .next (s.onCore (p.core x) (launchCore (launchProg d s p x) (x.u 0x18 4))) := by
  have open_ : (x.kind != 2 || x.state != .started || x.progress != 0 || (s.core (p.core x)).prog.isSome) = false := by
    simp [kind, started, fresh, free]
  change execVectorProgram d s = _
  unfold execVectorProgram
  rw [hd]
  dsimp only
  rw [open_]
  rfl

theorem launchCore_thread (v : VProg) (mask : Nat) (c : Core) {k : Nat} (hk : k < 16) :
    (launchCore v mask c).threads[k]? = some (launched mask k) := by
  change ((List.range 16).map (launched mask))[k]? = _
  rw [List.getElem?_map, List.getElem?_range hk]
  rfl

end

/-! ## The obligation -/

/-- Settles O20: the rows of a package and of its descriptors, each where its conditions hold, and the round robin of an engine. -/
theorem packagesStartAndDescriptorsRun : Obligations.PackagesStartAndDescriptorsRun := by
  refine ⟨?_, ?_, ?_, ?_, ?_, ?_⟩
  case refine_1 =>
    intro id s q hq loaded p0 phase roll model reads u
    have storage := prologue_onlyStorage q true u
    refine ⟨startPkg id q u, execPackageStart_starts hq loaded p0 phase roll model reads,
      startPkg_keeps State.mem (fun _ _ _ => rfl) (fun _ _ _ => rfl) .., startPkg_pkg q (s := u) hq, fun i mine hi => startPkg_phase (s := u) mine hi,
      (startPkg_keeps State.ten (fun _ _ _ => rfl) (fun _ _ _ => rfl) ..).trans storage.ten,
      (startPkg_keeps State.models (fun _ _ _ => rfl) (fun _ _ _ => rfl) ..).trans storage.models,
      (startPkg_keeps State.mail (fun _ _ _ => rfl) (fun _ _ _ => rfl) ..).trans storage.mail⟩
  case refine_2 =>
    intro d s p x hd ready kind chosen
    obtain ⟨turns, row⟩ := execDescriptorStart_chosen hd ready kind chosen
    obtain ⟨mem, y, desc, started⟩ := startDesc_started hd
    exact ⟨_, y, row, mem.symm, (desc_congr rfl d).trans desc, started⟩
  case refine_3 =>
    intro d s p x hd kind n crosses
    have sync : exec (.sync d) s = execSync d s := rfl
    have isSync : (x.kind != 4) = false := by simp [kind]
    constructor
    · intro started
      have run : (x.state == .started) = true := by simp [started]
      rw [sync, execSync, hd]
      dsimp only
      rw [isSync, run]
      exact congrArg Host.Outcome.next (closeDesc_crosses 0 crosses)
    · intro ready
      have queued : (x.state == .started) = false := by
        have : x.state = .queued := by
          simp only [descReady, eligible, Bool.and_eq_true, beq_iff_eq] at ready
          exact ready.1.1.1.1.1.1.2
        simp [this]
      constructor
      · have is4 : (x.kind == 4) = true := by simp [kind]
        rw [exec_descriptorStart, execDescriptorStart, hd]
        dsimp only
        rw [ready, is4]
        exact congrArg Host.Outcome.next (closeDesc_startDesc_crosses kind _ crosses)
      · rw [sync, execSync, hd]
        dsimp only
        rw [isSync, queued, ready]
        exact congrArg Host.Outcome.next (closeDesc_startDesc_crosses kind _ crosses)
  case refine_4 => exact fun turn cs => ⟨chooseDesc_isSome, fun d => chooseDesc_eq_some⟩
  case refine_5 =>
    intro d s p x hd kind started fresh free inside
    refine ⟨_, execVectorProgram_launches hd kind started fresh free, rfl, ?_⟩
    rw [State.core_onCore, if_pos ⟨rfl, inside⟩]
    exact ⟨rfl, rfl, rfl, ⟨_, rfl, rfl, rfl, rfl⟩, fun k hk => ⟨_, launchCore_thread _ _ _ hk, rfl, rfl, rfl, rfl, rfl⟩⟩
  case refine_6 =>
    intro d s p x hd started kind finished free n crosses
    change execDescriptorComplete d s = _
    have is1 : (x.kind == 1) = false := by simpa using kind
    have run : (x.state != .started) = false := by simp [started]
    rw [execDescriptorComplete, hd]
    dsimp only
    rw [free, run, finished, is1]
    dsimp only
    rw [Bool.and_false]
    exact congrArg Host.Outcome.next (closeDesc_crosses _ crosses)

end Sys2Proof.Machine
end

section
/-!
PROOFS. The commands of family 0x03, and the limits that stop a package: one equation for each row, and what a package is after
its stop procedure has begun.
-/
namespace Sys2Proof.Machine

/-! ## The commands of packages (R153, R177, R180) -/

section
variable {c : Cmd} {s u : State}

/-- An image that passes every check is accepted (R168). -/
theorem execWpSubmit_accepts {im : PkgImage} (h : Runs 0x301 c s u) (tail : cmdTail c 8 = true) (addr : addrOk (cmdU c 0 8) = true)
    (load : loadImage u c.fn (cmdU c 0 8) = .image im) (here : u.acctResetting (cmdA c) = false)
    (checks : firstFail (packageChecks u im) = none) (code : codeFails u im.pkg = false) :
    exec (.wpSubmit c) s = .next (complete c 0x301 .ok (leBytes 4 im.pkg.id.handle.toNat ++ leBytes 4 0)
      ((acceptPkg im.pkg u).took (cmdA c) (imageReads u (cmdU c 0 8) im.pkg))) := by
  change execWpSubmit c s = _
  refine runCmd_ok h (check_passed here (check_passed (by rw [tail, addr]; rfl) ?_))
  rw [load]
  dsimp only
  rw [checks]
  exact check_passed code rfl

/-- A package that may be cancelled: its stop procedure begins, and the command completes or waits for its end (R180). -/
theorem execWpCancel_stops {p q : Pkg} (h : Runs 0x302 c s u) (tail : cmdTail c 4 = true)
    (hp : u.pkg ⟨c.fn, BitVec.ofNat 32 (cmdU c 0 4)⟩ = some p) (live : p.state ≠ .done)
    (mine : p.state = .stopping → p.status = .cancelled)
    (hq : (beginStop ⟨c.fn, BitVec.ofNat 32 (cmdU c 0 4)⟩ .cancelled u).pkg ⟨c.fn, BitVec.ofNat 32 (cmdU c 0 4)⟩ = some q) :
    exec (.wpCancel c) s = .next (if q.state = .done
      then complete c 0x302 .ok [] (beginStop ⟨c.fn, BitVec.ofNat 32 (cmdU c 0 4)⟩ .cancelled u)
      else waitsFor c 0x302 (.package (cmdA c) (BitVec.ofNat 32 (cmdU c 0 4)))
        (beginStop ⟨c.fn, BitVec.ofNat 32 (cmdU c 0 4)⟩ .cancelled u)) := by
  have open_ : (p.state == .done || (p.state == .stopping && p.status != .cancelled)) = false := by
    simp only [Bool.or_eq_false_iff, beq_eq_false_iff_ne, Bool.and_eq_false_imp, beq_iff_eq, bne_eq_false_iff_eq]
    exact ⟨live, mine⟩
  change execWpCancel c s = _
  by_cases ended : q.state = .done
  · rw [if_pos ended]
    refine runCmd_ok h (need_met tail ?_)
    rw [hp]
    refine check_passed open_ ?_
    dsimp only
    rw [hq]
    exact if_pos (by rw [ended]; rfl)
  · rw [if_neg ended]
    refine runCmd_wait h (need_met tail ?_)
    rw [hp]
    refine check_passed open_ ?_
    dsimp only
    rw [hq]
    exact if_neg (by simpa using ended)

theorem execWpQuery_ended {p : Pkg} (h : Runs 0x303 c s u) (tail : cmdTail c 4 = true)
    (hp : u.pkg ⟨c.fn, BitVec.ofNat 32 (cmdU c 0 4)⟩ = some p) (ended : p.state = .done) :
    exec (.wpQuery c) s = .next (complete c 0x303 .ok ([6, 0, 0, 0] ++ p.record) u) := by
  change execWpQuery c s = _
  refine runCmd_ok h (need_met tail ?_)
  rw [hp]
  dsimp only
  rw [ended]
  rfl

theorem semIndex_within (h : cmdU c 0 2 < (u.acct (cmdA c)).quota.sems) : semIndex c u = some (cmdU c 0 2) :=
  if_pos (decide_eq_true h)

theorem onAcct_congr {a : Nat} {f g : Account → Account} (e : f (s.acct a) = g (s.acct a)) : s.onAcct a f = s.onAcct a g := by
  rw [State.onAcct, State.onAcct, lmod_congr Account.fresh e]

/-- A signal leaves an account's semaphore one higher (R164). -/
theorem signalAcct_value {a i : Nat} (ha : a < s.ten.accts.length) :
    tgetD ((signalAcct a i s).acct a).sems i 0 = tgetD (s.acct a).sems i 0 + 1 := by
  rw [signalAcct, State.acct_onAcct, if_pos ⟨rfl, ha⟩]
  exact congrArg (Option.getD · 0) (tget_tset_same ..)

end

/-! ## The end of a package (R178, R179) -/

theorem OnlyMail.pkgs {s t : State} (h : OnlyMail s t) : t.pkgs = s.pkgs := by obtain ⟨_, _, rfl⟩ := h; rfl

/-- Of packages of which those with one identity have been replaced, the one that carries it is the new one. -/
theorem find_replaced {id : PkgId} {p r : Pkg} {ps : List Pkg} {keep : Pkg → Bool}
    (h : ((ps.map fun x => if x.id == id then p else x).filter keep).find? (fun x => x.id == id) = some r) : r = p := by
  obtain ⟨x, -, rfl⟩ := List.mem_map.1 (List.mem_filter.1 (List.mem_of_find?_eq_some h)).1
  have named := List.find?_some h
  split
  · rfl
  · next other =>
    rw [if_neg other] at named
    exact absurd named other

/-- A package that has ended for another cause than an abort is DONE with its status. -/
theorem endPkg_pkg {id : PkgId} {st : Status} {s : State} {p r : Pkg} (hp : s.pkg id = some p) (kept : st ≠ .aborted)
    (h : (endPkg id st s).pkg id = some r) : r.state = .done ∧ r.status = st := by
  have kept : (st == .aborted) = false := by simpa using kept
  unfold endPkg at h
  rw [hp] at h
  dsimp only at h
  rw [pkg_congr (finishWait_onlyMail ..).pkgs, kept] at h
  generalize (if (st != .ok && st != .functionDisabled && p.shadowed) = true then _ else _ : State) = v at h
  split at h
  · rw [find_replaced h]
    exact ⟨rfl, rfl⟩
  · rw [pkg_congr (post_onlyMail ..).pkgs] at h
    rw [find_replaced h]
    exact ⟨rfl, rfl⟩

/-- A package that stops goes on to stop, or has ended under its cause. -/
theorem tryEndStop_pkg {id : PkgId} {s : State} {p r : Pkg} (hp : s.pkg id = some p) (stopping : p.state = .stopping)
    (kept : p.status ≠ .aborted) (h : (tryEndStop id s).pkg id = some r) :
    (r.state = .stopping ∨ r.state = .done) ∧ r.status = p.status := by
  unfold tryEndStop at h
  rw [hp] at h
  dsimp only at h
  split at h
  · obtain ⟨ended, status⟩ := endPkg_pkg hp kept h
    exact ⟨.inr ended, status⟩
  · obtain rfl : p = r := Option.some.inj (hp.symm.trans h)
    exact ⟨.inl stopping, rfl⟩

/-- A package that has not ended is STOPPING or DONE once its stop procedure has begun, under the cause of the stop. -/
theorem beginStop_pkg {id : PkgId} {st : Status} {s : State} {p r : Pkg} (hp : s.pkg id = some p)
    (live : (p.state == .done || p.state == .stopping) = false) (kept : st ≠ .aborted)
    (h : (beginStop id st s).pkg id = some r) : (r.state = .stopping ∨ r.state = .done) ∧ r.status = st := by
  unfold beginStop at h
  rw [hp] at h
  dsimp only at h
  rw [live] at h
  have stopping : ∀ cores, ({ s.onPkg id fun p => { p with state := .stopping, status := st } with cores := cores }).pkg id =
      some { p with state := .stopping, status := st } := fun _ =>
    (pkg_onPkg (s := s) (id := id) (f := fun p => { p with state := .stopping, status := st }) fun _ => rfl).trans (by rw [hp]; rfl)
  exact tryEndStop_pkg (stopping _) rfl kept h

/-! ## The obligation -/

/-- Settles O19: each command and each limit by its own row; a package whose run limit expires by what its stop procedure leaves. -/
theorem packageCommandsComplete : Obligations.PackageCommandsComplete := by
  refine ⟨?submit, ?cancel, ?query, ?sems, ?limit, ?time, ?budget, ?forced⟩
  case submit => exact fun c s u im h tail addr load here checks code => execWpSubmit_accepts h tail addr load here checks code
  case cancel =>
    intro c s u p h tail id hp live mine
    constructor
    · intro q hq running
      rw [execWpCancel_stops h tail hp live mine hq, if_neg running]
    · intro q hq ended
      rw [execWpCancel_stops h tail hp live mine hq, if_pos ended]
  case query => exact fun c s u p h tail hp ended => execWpQuery_ended h tail hp ended
  case sems =>
    intro c s u quota acct i v
    refine ⟨fun h tail => ?_, fun h tail zero => ?_, fun h tail => ?_⟩
    · change execSemRead c s = _
      refine runCmd_ok h ?_
      rw [semIndex_within quota]
      exact need_met tail rfl
    · change execSemSet c s = _
      refine runCmd_ok h ?_
      rw [semIndex_within quota]
      exact check_passed (by rw [tail, zero]; rfl) rfl
    · change execSemSignal c s = _
      refine runCmd_ok h ?_
      rw [semIndex_within quota]
      refine need_met tail ?_
      dsimp only
      rw [signalAcct_value acct, signalAcct]
      exact congrArg (Res.done .ok _) (onAcct_congr rfl)
  case limit =>
    intro id s q hq
    have stops : q.running = true ∨ (q.state ≠ .held ∧ q.atPrologue s = true) →
        exec (.runLimitExpiry id) s = .next (beginStop id .timeout s) := by
      intro due
      have free : (q.state == .held) = false := by
        rcases due with running | ⟨free, -⟩
        · revert running
          cases hs : q.state <;> simp [Pkg.running, hs]
        · simpa using free
      have due : (q.running || q.atPrologue s) = true := by
        rcases due with running | ⟨-, waits⟩
        · rw [running]; rfl
        · rw [waits, Bool.or_true]
      change execRunLimitExpiry id s = _
      rw [execRunLimitExpiry, hq]
      exact (if_neg (by rw [free]; exact Bool.false_ne_true)).trans (if_pos due)
    refine ⟨stops, fun held => ?_, fun running t row r hr => ?_⟩
    · change execRunLimitExpiry id s = _
      rw [execRunLimitExpiry, hq]
      exact if_pos (by rw [held]; rfl)
    · obtain rfl : beginStop id .timeout s = t := Host.Outcome.next.inj ((stops (.inl running)).symm.trans row)
      refine beginStop_pkg hq ?_ (by decide) hr
      revert running
      cases hs : q.state <;> simp [Pkg.running, hs]
  case time =>
    intro core s v hv spent
    change execVectorTimeLimit core s = _
    rw [execVectorTimeLimit, hv]
  case budget =>
    intro h s v hv running spent
    change execBudgetExhausted h s = _
    rw [execBudgetExhausted, hv]
    dsimp only
    rw [running, decide_eq_true spent]
    rfl
  case forced =>
    intro id s q hq stopping
    change execForcedStop id s = _
    rw [execForcedStop, hq]
    exact congrArg Host.Outcome.next (if_pos (by rw [stopping]; rfl))

end Sys2Proof.Machine
end

section
/-!
PROOFS. The Ledger's commands on programs and groups: the slot that a program takes, and the groups that name a slot.
-/
namespace Sys2Proof.Machine

section
variable {u : State}

/-- The lowest free program slot. -/
theorem find_free_slot {k : Nat} (hk : k < 16) (free : tget u.led.slots k = none) (below : ∀ j < k, tget u.led.slots j ≠ none) :
    ((List.range 16).find? fun j => (tget u.led.slots j).isNone) = some k := by
  refine List.find?_range_eq_some.2 ⟨by rw [free]; rfl, List.mem_range.2 hk, fun j hj => ?_⟩
  simpa [Option.isSome_iff_ne_none] using below j hj

/-- A slot that no group names, as its program or its fallback, is named by none. -/
theorem slot_unnamed {k : Nat} (h : ∀ g ∈ u.led.groups, g.2.slot ≠ k ∧ g.2.fallback ≠ k) :
    (u.led.groups.any fun g => g.2.slot == k || g.2.fallback == k) = false := by
  refine List.any_eq_false.2 fun g hg => ?_
  obtain ⟨slot, fallback⟩ := h g hg
  simp [slot, fallback]

end

/-- Settles O32: each command passes its checks in order, and leaves the slots or the groups as it says; PROG_LOAD finds the lowest
free slot. -/
theorem ledgerProgramAndGroupCommandsComplete : Obligations.LedgerProgramAndGroupCommandsComplete := by
  unfold Obligations.LedgerProgramAndGroupCommandsComplete
  refine ⟨?load, ?free, ?set, ?read, ?remove⟩
  case load =>
    intro c s u k h tail zero addr aligned some few held goes prog ok low free below quota
    have fields : (!cmdTail c 16 || !cmdZ c 9 7 || !addrOk (cmdU c 0 8) || cmdU c 0 8 % 64 != 0 || cmdU c 8 1 == 0 ||
        decide (64 < cmdU c 8 1)) = false := by
      simp [tail, zero, addr, aligned, few, Nat.ne_of_gt some]
    change execUpdProgLoad c s = _
    refine runCmd_ok h (check_passed fields (readFor_done held goes ?_))
    refine need_met ok ?_
    rw [find_free_slot low free below]
    exact check_passed (decide_eq_false (Nat.not_le.2 quota)) rfl
  case free =>
    intro c s u p h tail low loaded own unnamed
    change execUpdProgFree c s = _
    refine runCmd_ok h (check_passed (by rw [tail, decide_eq_false (by omega)]; rfl) ?_)
    rw [loaded]
    exact check_passed (bne_eq_false_iff_eq.2 own) (check_passed (slot_unnamed unnamed) rfl)
  case set =>
    intro c s u h tail zero addr low new held goes g entry quota shut blocks progs
    have fields : (!cmdTail c 16 || !cmdZ c 2 6 || !addrOk (cmdU c 8 8) || decide (4095 < cmdU c 0 2)) = false := by
      rw [tail, zero, addr, decide_eq_false (by omega)]; rfl
    change execUpdGroupSet c s = _
    refine runCmd_ok h (check_passed fields ?_)
    rw [new]
    refine check_passed rfl (readFor_done held goes ?_)
    refine need_met entry ?_
    refine check_passed (by rw [decide_eq_false (Nat.not_le.2 quota)]; rfl) ?_
    refine check_passed (Bool.or_eq_false_iff.2 ⟨shut, rfl⟩) (check_passed rfl ?_)
    exact check_passed (by rw [blocks, progs]; rfl) rfl
  case read =>
    intro c s u g h tail zero addr low named own held goes
    change execUpdGroupRead c s = _
    refine runCmd_ok h (check_passed (by rw [tail, zero, addr, decide_eq_false (by omega)]; rfl) ?_)
    rw [named]
    refine check_passed (bne_eq_false_iff_eq.2 own) ?_
    rw [writeFor_ok _ held goes]
  case remove =>
    intro c s u g h tail low named own unloaded
    change execUpdGroupFree c s = _
    refine runCmd_ok h (check_passed (by rw [tail, decide_eq_false (by omega)]; rfl) ?_)
    rw [named]
    exact check_passed (bne_eq_false_iff_eq.2 own) (check_passed unloaded rfl)

end Sys2Proof.Machine
end

section
/-!
PROOFS. The Ledger's commands on the steps of training: a model after a change, and the open step that a command names.
-/
namespace Sys2Proof.Machine

/-! ## A model after a change -/

/-- The value at a key of a table whose values at one key have changed. -/
theorem tget_map {α : Type} (t : Tbl α) (j k : Nat) (f : α → α) :
    tget (t.map fun p => if p.1 == j then (p.1, f p.2) else p) k = if j = k then (tget t k).map f else tget t k := by
  unfold tget
  induction t with
  | nil => simp
  | cons p t ih =>
    obtain ⟨i, v⟩ := p
    have head : (if i == j then (i, f v) else (i, v)) = (i, if j = i then f v else v) := by
      by_cases hi : j = i
      · rw [if_pos (beq_iff_eq.2 hi.symm), if_pos hi]
      · rw [if_neg (by simpa using Ne.symm hi), if_neg hi]
    rw [List.map_cons, head, List.lookup_cons, List.lookup_cons]
    by_cases hk : k = i
    · subst hk
      simp only [beq_self_eq_true, Option.map_some]
      split <;> rfl
    · rw [beq_eq_false_iff_ne.2 hk]
      exact ih

/-- A model after a change of the model in a window slot. -/
theorem State.model_onModel (s : State) (j k : Nat) (f : Model → Model) :
    (s.onModel j f).model k = if j = k then (s.model k).map f else s.model k := tget_map ..

/-- A model after a change of it. -/
theorem model_onModel_same {s : State} {k : Nat} {m : Model} (h : s.model k = some m) (f : Model → Model) :
    (s.onModel k f).model k = some (f m) := by
  rw [State.model_onModel, if_pos rfl, h, Option.map_some]

/-! ## The open step -/

section
variable {c : Cmd} {u : State} {k : Nat} {m : Model} {st : LedStep}

/-- The step that is open is the one that its number names. -/
theorem namedStep_open {n : Nat} (hs : m.led.step = some st) (ho : m.led.ustate = .open) (hn : st.step.toNat = n) :
    namedStep m n = some st := by
  rw [namedStep, hs]
  exact if_pos (by rw [ho, hn]; simp)

/-- UPD_BEGIN leaves the model with a new step OPEN, under the number and the epoch that it names (R223). -/
theorem openStep_model (h : u.model k = some m) :
    ∃ m' x, (openStep k c u).model k = some m' ∧ m'.led.ustate = .open ∧ m'.led.step = some x ∧
      x.step.toNat = cmdU c 4 4 ∧ x.gepoch = cmdU c 8 8 ∧ x.pass2 = [] ∧ x.commit = false := by
  refine ⟨_, _, model_onModel_same h _, rfl, rfl, ?_, rfl, rfl, rfl⟩
  exact Nat.mod_eq_of_lt (cmdU_lt c 4 4)

end

/-- Settles O33: each command finds its model and the step that it names, passes its checks, and leaves the step as it says. -/
theorem ledgerStepCommandsComplete : Obligations.LedgerStepCommandsComplete := by
  unfold Obligations.LedgerStepCommandsComplete
  intro c s u k m hk hm
  refine ⟨?set, ?begin, fun st hs hopen hnum => ⟨?commit, ?abort, ?status⟩, ?read⟩
  case set =>
    intro h tail zero seed idle
    change execUpdModelSet c s = _
    refine runCmd_ok h ((onModelCmd_named _ (by rw [tail, zero, seed]; rfl) hk hm).trans ?_)
    refine check_passed (by rw [idle]; rfl) (check_passed (by rw [seed]; rfl) ?_)
    rw [seed]
    rfl
  case begin =>
    intro h tail flags zero least most idle ready next
    have named := onModelCmd_named (c := c) (num := cmdU c 0 2)
      (ok := cmdTail c 20 && decide (cmdU c 2 1 < 2) && cmdZ c 3 1 && decide (1 ≤ cmdU c 16 4) && decide (cmdU c 16 4 ≤ 600000))
      (hok := by simp [tail, flags, zero, least, most]) (hk := hk) (hm := hm)
    have free : (m.led.ustate == .open || m.led.ustate == .held) = false := by rw [idle]; rfl
    have due : (!m.w.ready || m.led.ustate == .torn || cmdU c 4 4 != m.led.nextStep.toNat) = false := by
      rw [ready, idle, next, bne_self_eq_false]; rfl
    refine ⟨fun turn => ?_, fun still unstaged epoch => ⟨?_, openStep_model hm⟩⟩
    · change execUpdBegin c s = _
      refine runCmd_wait h ((named _).trans ?_)
      exact check_passed free (check_passed due (if_pos turn))
    · have allowed : beginRefused m c = false := by rw [beginRefused, unstaged, epoch, bne_self_eq_false]; rfl
      change execUpdBegin c s = _
      refine runCmd_ok h ((named _).trans ?_)
      exact check_passed free (check_passed due (check_passed still (check_passed allowed rfl)))
  case commit =>
    intro h tail zero undenied v
    have named := onModelCmd_named (c := c) (num := cmdU c 0 2) (ok := cmdTail c 8 && cmdZ c 2 2)
      (hok := by rw [tail, zero]; rfl) (hk := hk) (hm := hm)
    refine ⟨fun written => ?_, fun unwritten => ?_⟩
    · change execUpdCommit c s = _
      refine runCmd_ok h ((named _).trans ?_)
      rw [namedStep_open hs hopen hnum]
      exact check_passed undenied (if_pos written)
    · change execUpdCommit c s = _
      refine runCmd_wait h ((named _).trans ?_)
      rw [namedStep_open hs hopen hnum]
      exact check_passed undenied (check_passed unwritten rfl)
  case abort =>
    intro h tail zero
    change execUpdAbort c s = _
    refine runCmd_ok h ((onModelCmd_named _ (by rw [tail, zero]; rfl) hk hm).trans ?_)
    rw [namedStep_open hs hopen hnum]
  case status =>
    intro h tail
    change execUpdStatus c s = _
    refine runCmd_ok h ((onModelCmd_named _ tail hk hm).trans ?_)
    rw [hs, hopen]
    rfl
  case read =>
    intro h tail zero addr x found some held goes
    change execUpdMonRead c s = _
    refine runCmd_ok h ((onModelCmd_named _ (by rw [tail, zero, addr]; rfl) hk hm).trans ?_)
    rw [found]
    refine check_passed (List.isEmpty_eq_false_iff.2 some) ?_
    rw [writeFor_ok _ held goes]

end Sys2Proof.Machine
end

section
/-!
PROOFS. The Ledger's operations on the open step: what counts, messages and write-back leave alone, a model's step along an operation,
and one equation for each way a row goes.
-/
namespace Sys2Proof.Machine

/-! ## What counts and messages leave alone -/

/-- Two states that hold the same memory, the same models and the same Ledger, and whose accounts have the same dies: they differ
at most in what is counted, sent and told. -/
structure OnlyTold (s t : State) : Prop where
  mem : t.mem = s.mem
  models : t.models = s.models
  led : t.led = s.led
  dies : ∀ a, t.acctDies a = s.acctDies a

theorem OnlyTold.refl (s : State) : OnlyTold s s := ⟨rfl, rfl, rfl, fun _ => rfl⟩

theorem OnlyTold.trans {s t u : State} (h : OnlyTold s t) (g : OnlyTold t u) : OnlyTold s u :=
  ⟨g.mem.trans h.mem, g.models.trans h.models, g.led.trans h.led, fun a => (g.dies a).trans (h.dies a)⟩

theorem OnlyTold.foldl {α : Type} {f : State → α → State} (h : ∀ s x, OnlyTold s (f s x)) (l : List α) (s : State) :
    OnlyTold s (l.foldl f s) := List.foldlRecOn l f (.refl s) fun _ hs x _ => hs.trans (h _ x)

theorem OnlyTold.when {s t : State} (c : Prop) [Decidable c] (h : OnlyTold s t) : OnlyTold s (if c then t else s) := by
  split
  · exact h
  · exact .refl s

theorem OnlyTold.unless {s t : State} (c : Prop) [Decidable c] (h : OnlyTold s t) : OnlyTold s (if c then s else t) := by
  split
  · exact .refl s
  · exact h

theorem OnlyMail.onlyTold {s t : State} (h : OnlyMail s t) : OnlyTold s t := by
  obtain ⟨_, _, rfl⟩ := h
  exact ⟨rfl, rfl, rfl, fun _ => rfl⟩

theorem num_onlyTold (a i n : Nat) (s : State) : OnlyTold s (s.num a i n) := by
  refine ⟨rfl, rfl, rfl, fun b => congrArg s.partDies ?_⟩
  rw [State.num, State.acct_onAcct]
  split <;> rfl

theorem bump_onlyTold (src die : Nat) (a u : Option Nat) (n : Nat) (s : State) : OnlyTold s (s.bump src die a u n) :=
  ⟨rfl, rfl, rfl, fun _ => rfl⟩

theorem countConds_onlyTold (acct die : Nat) (unit : Option Nat) (c : Conds) (s : State) :
    OnlyTold s (countConds acct die unit c s) :=
  countConds_keeps (fun _ _ _ _ h => h.trans (num_onlyTold ..)) (fun _ _ _ _ _ _ h => h.trans (bump_onlyTold ..)) _ _ _ _ (.refl s)

theorem launch_onlyTold (w : Waiter) (s : State) : OnlyTold s (launch w s) := by
  unfold launch
  split <;> exact ⟨rfl, rfl, rfl, fun _ => rfl⟩

theorem sendWides_onlyTold (m : Model) (layer : Nat) (ws : List Wide) (failed : List Nat) (s : State) :
    OnlyTold s (sendWides m layer ws failed s) := by
  unfold sendWides
  split
  · exact .refl s
  · exact ((num_onlyTold ..).trans (bump_onlyTold ..)).trans (.foldl (fun _ _ => launch_onlyTold ..) _ _)

theorem sendMirrors_onlyTold (slot : Nat) (m : Model) (x : Shard × Nat) (s : State) : OnlyTold s (sendMirrors slot m x s) := by
  unfold sendMirrors
  dsimp only
  split
  · exact .refl s
  · exact .foldl (fun _ _ => launch_onlyTold ..) _ _

theorem discardMsg_onlyTold (s : State) : OnlyTold s (discardMsg s) := by
  unfold discardMsg State.whenOn
  split <;> exact ⟨rfl, rfl, rfl, fun _ => rfl⟩

theorem raiseSingular_onlyTold (m : Model) (st : LedStep) (layer : Nat) (groups : List Nat) (s : State) :
    OnlyTold s (raiseSingular m st layer groups s) :=
  .foldl (fun _ _ => (post_onlyMail ..).onlyTold.trans (num_onlyTold ..)) _ _

/-- The pairs of a Ledger die and a layer are told by the accounts' dies alone. -/
theorem stepPairs_congr {s t : State} (h : ∀ a, t.acctDies a = s.acctDies a) (m : ModelMap) : stepPairs t m = stepPairs s m := by
  simp only [stepPairs, ledgerDie, State.dieOfPart, h]

/-- Whether a layer takes two passes is told by the Ledger's groups and programs alone. -/
theorem layerTwoPass_congr {s t : State} (h : t.led = s.led) (m : ModelMap) (layer : Nat) :
    layerTwoPass t m layer = layerTwoPass s m layer := by
  simp only [layerTwoPass, layerGroups, shardGroup, State.groupOf, progOf, h]

/-! ## A model's step along an operation -/

/-- The model in a window slot has the weights' record `w` and a step that satisfies `P`. -/
def AtStep (k : Nat) (w : Weights) (P : LedStep → Prop) (s : State) : Prop :=
  ∃ m st, s.model k = some m ∧ m.w = w ∧ m.led.step = some st ∧ P st

section
variable {k : Nat} {w : Weights} {P Q : LedStep → Prop} {s t : State}

theorem AtStep.congr (h : AtStep k w P s) (e : t.models = s.models) : AtStep k w P t := by
  unfold AtStep State.model at h ⊢
  rwa [e]

/-- A change of the step. -/
theorem AtStep.onStep {f : LedStep → LedStep} (h : AtStep k w P s) (hf : ∀ st, P st → Q (f st)) :
    AtStep k w Q (onStep k f s) := by
  obtain ⟨m, st, hm, hw, hs, hP⟩ := h
  exact ⟨_, _, model_onModel_same hm _, hw, by rw [hs]; rfl, hf st hP⟩

/-- A change of any model's step that keeps what is said of the step. -/
theorem AtStep.onStep_keeps {f : LedStep → LedStep} (h : AtStep k w P s) (j : Nat) (hf : ∀ st, P st → P (f st)) :
    AtStep k w P (Machine.onStep j f s) := by
  by_cases hj : j = k
  · subst hj
    exact h.onStep hf
  · obtain ⟨m, st, hm, rest⟩ := h
    exact ⟨m, st, by rw [Machine.onStep, State.model_onModel, if_neg hj, hm], rest⟩

end

/-- Two records of a step that agree on its passes and on its commit. -/
structure SamePasses (st u : LedStep) : Prop where
  pass1 : u.pass1 = st.pass1
  pass2 : u.pass2 = st.pass2
  begun2 : u.begun2 = st.begun2
  commit : u.commit = st.commit

/-! ## Feeds (R225 to R228) -/

section
variable {d : DescId} {s : State} {p : Pkg} {x : Desc} {k : Nat} {m : Model} {st : LedStep}
  (hd : s.desc d = some (p, x)) (kind : x.kind = 6) (started : x.state = .started) (running : p.running = true)
  (left : x.progress < (feedOf x.raw).segments) (hk : s.slotOf p.id.acct.toNat p.model = some k) (hm : s.model k = some m)
  (hs : m.led.step = some st) (serves : s.unitServes 4 (p.die x / 2) = true)
include hd kind started running left hk hm hs serves

/-- A feed of another epoch than the step's is discarded (R226). -/
theorem execLfeed_epoch (epoch : p.epoch.toNat ≠ st.gepoch) :
    execLfeed d s = .next (discardFeed d k m (feedOf x.raw) 2 s) := by
  simp [execLfeed, hd, kind, started, running, Nat.not_le.2 left, hk, hm, hs, serves, epoch]

/-- A feed of another format than the model's is discarded (R200, R225). -/
theorem execLfeed_format (epoch : p.epoch.toNat = st.gepoch)
    (format : (feedOf x.raw).fmt ≠ feedFormat m (m.map.tensor (feedOf x.raw).tensor)) :
    execLfeed d s = .next (discardFeed d k m (feedOf x.raw) 3 s) := by
  simp [execLfeed, hd, kind, started, running, Nat.not_le.2 left, hk, hm, hs, serves, epoch, format]

/-- A feed of a tensor that is not frozen, whose rows a shard holds, has its turn at the Ledger port (R172, R227). -/
theorem execLfeed_turn {g : Group} {y : Shard × Nat} (epoch : p.epoch.toNat = st.gepoch)
    (format : (feedOf x.raw).fmt = feedFormat m (m.map.tensor (feedOf x.raw).tensor))
    (thawed : (m.map.tensor (feedOf x.raw).tensor).frozen = false)
    (group : s.groupOf m.map (m.map.tensor (feedOf x.raw).tensor) = some g) (live : g.frozen = false)
    (found : (m.map.shards.zipIdx.find? fun y => y.1.tensor == (feedOf x.raw).tensor && m.map.mine y.1 && y.1.die == x.unit % 8 &&
      y.1.role == 0 && decide (y.1.row0 ≤ (feedOf x.raw).row0) &&
      decide ((feedOf x.raw).row0 + (feedOf x.raw).nrows ≤ y.1.row1 + 1) && decide (y.1.col0 ≤ (feedOf x.raw).col0) &&
      decide ((feedOf x.raw).col0 + (feedOf x.raw).ncols ≤ y.1.col1 + 1)) = some y) :
    execLfeed d s = .next (feedTurn d p x s fun s => pkgReads p.id .ledger ((feedOf x.raw).runs x.progress) s
      (stageRows d k m (feedOf x.raw) y x.progress)) := by
  simp only [execLfeed, hd, kind, started, running, Nat.not_le.2 left, hk, hm, hs, serves, epoch, format, thawed, group, live, found,
    bne_self_eq_false, Bool.not_true, decide_false, Bool.or_self, Bool.false_eq_true, if_false]

end

/-- A turn that the round robin gives to a feed whose rows meet no error is that of a read, which asks for its credits. -/
theorem feedTurn_reads {d : DescId} {s : State} {p : Pkg} {x : Desc} {rs : List (Nat × Nat)} (k : State → State)
    (turn : s.serves (1264 + p.die x) (hasFeed s (p.die x)) d = true) (clear : s.meets rs = .clear) :
    feedTurn d p x s (fun s => pkgReads p.id .ledger rs s k) =
      k ((s.served (1264 + p.die x) d.pkg.acct.toNat).charge .ledger p.id.acct.toNat rs) := by
  rw [feedTurn]
  exact (if_pos turn).trans (workReads_clear (s := s.served (1264 + p.die x) d.pkg.acct.toNat) k clear)

/-! ## Pass 1 (R239, R240) -/

section
variable {k d l : Nat} {m : Model} {st : LedStep} {s t : State}

theorem passOneBlock_mem (ld : Nat) (m : Model) (st : LedStep) (b : BlockJob) (s : State) :
    (passOneBlock ld m st b s).mem = s.mem := by
  unfold passOneBlock
  dsimp only
  split <;> rfl

/-- Pass 1 of a block leaves the passes that have run. -/
theorem passOneBlock_atStep {w : Weights} {x : LedStep} (ld : Nat) (m : Model) (st : LedStep) (b : BlockJob)
    (h : AtStep k w (SamePasses x) s) :
    AtStep k w (SamePasses x) (passOneBlock ld m st b s) := by
  unfold passOneBlock
  dsimp only
  split
  · exact h
  · refine AtStep.congr (s := onStep b.slot _ s) (h.onStep_keeps b.slot fun u hu => ?_) rfl
    split <;> exact ⟨hu.pass1, hu.pass2, hu.begun2, hu.commit⟩

/-- The blocks that pass 1 of a layer runs on a Ledger die. -/
def passOneJobs (s : State) (k : Nat) (m : Model) (d l : Nat) : List BlockJob :=
  (layerShards s m.map d l).flatMap fun x => match shardGroup s m.map x.1 with
    | some g => if g.frozen then [] else shardBlocks k m.map x g
    | none => []

/-- The state in which a Ledger die has run pass 1 of a layer. -/
def passedOne (k d l : Nat) (m : Model) (st : LedStep) (s : State) : State :=
  onStep k (fun st => { st with pass1 := st.pass1 ++ [(d, l)] })
    ((passOneJobs s k m d l).foldl (fun s b => passOneBlock d m st b s) (s.chargeKeys .ledger m.map.acct (layerKeys s k m d l)))

theorem passedOne_mem : (passedOne k d l m st s).mem = s.mem := by
  have start : (s.chargeKeys .ledger m.map.acct (layerKeys s k m d l)).mem = s.mem := rfl
  exact List.foldlRecOn (motive := fun t => t.mem = s.mem) _ _ start fun t ht b _ => (passOneBlock_mem d m st b t).trans ht

/-- Running pass 1 of a layer adds the pair to the passes that have run. -/
theorem passedOne_atStep (hm : s.model k = some m) (hs : m.led.step = some st) :
    AtStep k m.w (SamePasses { st with pass1 := st.pass1 ++ [(d, l)] }) (passedOne k d l m st s) := by
  have start : AtStep k m.w (SamePasses st) (s.chargeKeys .ledger m.map.acct (layerKeys s k m d l)) :=
    ⟨m, st, hm, rfl, hs, rfl, rfl, rfl, rfl⟩
  refine (List.foldlRecOn (motive := AtStep k m.w (SamePasses st)) _ _ start fun t ht b _ => passOneBlock_atStep d m st b ht).onStep ?_
  exact fun u hu => ⟨congrArg (· ++ [(d, l)]) hu.pass1, hu.pass2, hu.begun2, hu.commit⟩

/-- Pass 1 that nothing holds back runs, and what it found goes to the job's other parts. -/
theorem execLayerPass1_runs {slot : BitVec 6} {ld : BitVec 2} {layer : BitVec 16} (hm : s.model slot.toNat = some m)
    (hs : m.led.step = some st)
    (clear : s.meets ((layerKeys s slot.toNat m ld.toNat layer.toNat).flatMap fun x => s.keySpots x.1 x.2) = .clear)
    (isOpen : passOpen s m st ld.toNat layer.toNat = true) (new : (ld.toNat, layer.toNat) ∉ st.pass1)
    (two : layerTwoPass s m.map layer.toNat = true) :
    ∃ t, execLayerPass1 slot ld layer s = .next t ∧ OnlyTold (passedOne slot.toNat ld.toNat layer.toNat m st s) t := by
  have due : (!passOpen s m st ld.toNat layer.toNat || st.pass1.contains (ld.toNat, layer.toNat) ||
      !layerTwoPass s m.map layer.toNat) = false := by
    simp [isOpen, new, two]
  simp only [execLayerPass1, hm, hs, due, State.readKeys_clear clear, Bool.not_true, Bool.false_eq_true, if_false]
  split
  · exact ⟨_, rfl, .refl _⟩
  · refine ⟨_, rfl, ?_⟩
    split
    · exact sendWides_onlyTold ..
    · exact .refl _

end

/-! ## Combined values (R239, R240) -/

section
variable {k l : Nat} {m : Model} {st : LedStep} {s t : State}

/-- Two records of a step that agree on what pass 1 and the anchors' records are, the one having combined a layer more. -/
structure CombinedMore (l : Nat) (st u : LedStep) : Prop where
  combLayers : u.combLayers = st.combLayers ++ [l]
  pass1 : u.pass1 = st.pass1
  amax : u.amax = st.amax

/-- With no maxima of records among what came, a step's records are as they were. -/
theorem joinRecords_nil (h : s.model k = some m) (hs : m.led.step = some st) :
    (joinRecords k [] s).model k = some m := by
  rw [joinRecords, model_onModel_same h]
  simp only [hs, List.foldl_nil, Option.some.injEq]
  rw [← hs]

/-- A layer whose pass 1 has run on every Ledger die of the part, and which is not combined yet, is combined. -/
theorem combineWides_combines {ws : List Wide} (failed : List Nat) (hs : m.led.step = some st)
    (sums : ∀ w ∈ ws, w.scope ≠ .block) (ran : ∀ p ∈ stepPairs s m.map, p.2 = l → p ∈ st.pass1)
    (two : layerTwoPass s m.map l = true) (new : l ∉ st.combLayers) :
    ∃ f, CombinedMore l st (f st) ∧ OnlyTold (onStep k f (joinRecords k [] s)) (combineWides k m l ws failed s) := by
  have noRecords : ws.filter (fun w => w.scope == .block) = [] := List.filter_eq_nil_iff.2 fun w hw => by simpa using sums w hw
  have due : (!(((stepPairs (joinRecords k [] s) m.map).filter fun p => p.2 == l).all fun p => st.pass1.contains p) ||
      !layerTwoPass (joinRecords k [] s) m.map l || st.combLayers.contains l) = false := by
    have all : (((stepPairs s m.map).filter fun p => p.2 == l).all fun p => st.pass1.contains p) = true := by
      simp only [List.all_eq_true, List.mem_filter, beq_iff_eq, List.contains_iff_mem]
      exact fun p hp => ran p hp.1 hp.2
    have two : layerTwoPass (joinRecords k [] s) m.map l = true := two
    have new : st.combLayers.contains l = false := by simpa using new
    rw [two, new, Bool.not_true, Bool.or_false, Bool.or_false]
    exact congrArg (!·) all
  simp only [combineWides, noRecords, hs, due, Bool.false_eq_true, if_false]
  refine ⟨_, ?more, (raiseSingular_onlyTold ..).trans (countConds_onlyTold ..)⟩
  exact ⟨rfl, rfl, rfl⟩

/-- What joined parts sent for a layer, in order, joins once it is complete here; messages of other parts are counted. -/
theorem execLedgerCombine_combines {slot : BitVec 6} {layer : BitVec 16} {others : List WideMsg} {ws : List Wide}
    (failed : List (BitVec 13 × BitVec 12)) (hm : s.model slot.toNat = some m) (hs : m.led.step = some st)
    (taken : (others.filter fun w => (s.joinedBy m.map.job w.part).isSome).mapM (WideMsg.take s m) = some ws)
    (sums : ∀ w ∈ ws, w.scope ≠ .block) (ran : ∀ p ∈ stepPairs s m.map, p.2 = layer.toNat → p ∈ st.pass1)
    (two : layerTwoPass s m.map layer.toNat = true) (new : layer.toNat ∉ st.combLayers) :
    ∃ t, execLedgerCombine slot layer others failed s = .next t ∧ t.mem = s.mem ∧
      AtStep slot.toNat m.w (CombinedMore layer.toNat st) t := by
  simp only [execLedgerCombine, hm, taken]
  refine ⟨_, rfl, ?_⟩
  generalize List.range _ = strangers
  have counted : OnlyTold s (strangers.foldl (fun s _ => discardMsg s) s) := .foldl (fun _ _ => discardMsg_onlyTold _) _ _
  generalize strangers.foldl (fun s _ => discardMsg s) s = v at counted ⊢
  have here : v.model slot.toNat = some m := by rw [State.model, counted.models]; exact hm
  rw [← stepPairs_congr counted.dies] at ran
  rw [← layerTwoPass_congr counted.led] at two
  obtain ⟨f, more, told⟩ := combineWides_combines (k := slot.toNat) (s := v) _ hs sums ran two new
  refine ⟨told.mem.trans counted.mem, AtStep.congr (AtStep.onStep (P := (· = st)) ?_ ?_) told.models⟩
  · exact ⟨m, st, joinRecords_nil here hs, rfl, hs, rfl⟩
  · rintro _ rfl
    exact more

end

/-! ## Pass 2 and write-back (R230, R241) -/

section
variable {k d l : Nat} {m : Model} {st : LedStep} {w : Weights} {s : State}

theorem putState_sameWork (slot k : Nat) (m : ModelMap) (i r c : Nat) (bs : Bytes) (s : State) :
    SameWork s (putState slot k m i r c bs s) := by
  unfold putState
  split
  · exact putKey_sameWork _ _ _
  · exact .refl s

theorem BlockJob.store_sameWork (b : BlockJob) (m : Model) (outs : List ElemOut) (s : State) : SameWork s (b.store m outs s) := by
  refine .foldl (fun s x => ?_) _ s
  refine SameWork.trans ?_ (.foldl (fun s k => ?_) _ _)
  · split
    · exact putHigh_sameWork ..
    · exact (putHigh_sameWork ..).trans (putLow_sameWork ..)
  · split
    · exact .refl _
    · exact putState_sameWork ..

theorem BlockJob.store_models (b : BlockJob) (m : Model) (outs : List ElemOut) (s : State) :
    (b.store m outs s).models = s.models :=
  (b.store_sameWork m outs s).models

theorem copyFrozen_sameWork (slot : Nat) (m : Model) (x : Shard × Nat) (s : State) : SameWork s (copyFrozen slot m x s) :=
  .foldl (fun _ _ => putHigh_sameWork ..) _ _

/-- Pass 2 of a block leaves the passes that have run. -/
theorem passTwoBlock_atStep (ld : Nat) (m : Model) (st x : LedStep) (b : BlockJob) (h : AtStep k w (SamePasses x) s) :
    AtStep k w (SamePasses x) (passTwoBlock ld m st b s) := by
  unfold passTwoBlock
  extract_lets fell
  generalize (if fell = true then _ else _) = c
  obtain ⟨comb, outs⟩ := c
  refine AtStep.congr ?noted (OnlyTold.models ((((countConds_onlyTold ..).trans
    (.unless _ ((num_onlyTold ..).trans (bump_onlyTold ..)))).trans (.unless _ (num_onlyTold ..))).trans
    (.when _ (num_onlyTold ..))))
  refine AtStep.onStep_keeps (h.congr ?stored) b.slot fun u hu => ⟨hu.pass1, hu.pass2, hu.begun2, hu.commit⟩
  split <;> simp only [BlockJob.store_models]

/-- What write-back does to a shard: a frozen one is copied, and any other is updated block by block (R233, R241). -/
def updateShard (k d : Nat) (m : Model) (st : LedStep) (s : State) (x : Shard × Nat) : State := match shardGroup s m.map x.1 with
  | some g => if g.frozen then copyFrozen k m x s else (shardBlocks k m.map x g).foldl (fun s b => passTwoBlock d m st b s) s
  | none => s

theorem updateShard_atStep (k d : Nat) (m : Model) (st y : LedStep) (x : Shard × Nat) (h : AtStep k w (SamePasses y) s) :
    AtStep k w (SamePasses y) (updateShard k d m st s x) := by
  unfold updateShard
  split
  · split
    · exact h.congr (copyFrozen_sameWork ..).models
    · exact List.foldlRecOn _ _ h fun _ ht b _ => passTwoBlock_atStep d m st y b ht
  · exact h

/-- The state in which a Ledger die has run pass 2 of a layer. -/
def passedTwo (k d l : Nat) (m : Model) (st : LedStep) (s : State) : State :=
  onStep k (fun st => { st with pass2 := st.pass2 ++ [(d, l)] })
    ((layerShards s m.map d l).foldl (updateShard k d m st) (onStep k (fun st => { st with begun2 := true })
      ((s.chargeKeys .ledger m.map.acct (layerKeys s k m d l)).chargeKeys .ledger m.map.acct
        (layerOut (s.chargeKeys .ledger m.map.acct (layerKeys s k m d l)) k m d l))))

/-- Running pass 2 of a layer marks the step as begun and adds the pair to the passes that have run. -/
theorem passedTwo_atStep (hm : s.model k = some m) (hs : m.led.step = some st) :
    AtStep k m.w (SamePasses { st with begun2 := true, pass2 := st.pass2 ++ [(d, l)] }) (passedTwo k d l m st s) := by
  have start : AtStep k m.w (SamePasses st) s := ⟨m, st, hm, rfl, hs, rfl, rfl, rfl, rfl⟩
  have begun : AtStep k m.w (SamePasses { st with begun2 := true }) (onStep k (fun st => { st with begun2 := true }) s) :=
    start.onStep fun u hu => ⟨hu.pass1, hu.pass2, rfl, hu.commit⟩
  refine AtStep.onStep (P := SamePasses { st with begun2 := true }) ?_
    fun u hu => ⟨hu.pass1, congrArg (· ++ [(d, l)]) hu.pass2, hu.begun2, hu.commit⟩
  exact List.foldlRecOn (motive := AtStep k m.w (SamePasses { st with begun2 := true })) _ _ (begun.congr rfl)
    fun _ ht x _ => updateShard_atStep k d m st _ x ht

/-- A step whose UPD_COMMIT has not arrived does not complete (R231). -/
theorem tryCommit_uncommitted (h : AtStep k w (fun u => u.commit = false) s) : tryCommit k s = s := by
  obtain ⟨m, u, hm, -, hs, hc⟩ := h
  rw [tryCommit, hm]
  dsimp only
  rw [hs]
  exact if_pos (by rw [hc]; simp)

/-- Where no operation of a model runs, no drain holds its layers (R442). -/
theorem drainReads_still (h : s.runningMove k = none) : drainReads k l m s = (false, s) := by
  rw [drainReads, h]

/-- Pass 2 that nothing holds back runs, and the new rows of this part's owners go to their mirrors. -/
theorem execLayerPass2_runs {slot : BitVec 6} {ld : BitVec 2} {layer : BitVec 16} (hm : s.model slot.toNat = some m)
    (hs : m.led.step = some st)
    (clear : s.meets ((layerKeys s slot.toNat m ld.toNat layer.toNat).flatMap fun x => s.keySpots x.1 x.2) = .clear)
    (isOpen : passOpen s m st ld.toNat layer.toNat = true) (new : (ld.toNat, layer.toNat) ∉ st.pass2)
    (two : passTwoOpen s m st ld.toNat layer.toNat = true) (unread : bufferRead s m = false)
    (still : s.runningMove slot.toNat = none) :
    ∃ t, execLayerPass2 slot ld layer s = .next (tryCommit slot.toNat t) ∧
      OnlyTold (passedTwo slot.toNat ld.toNat layer.toNat m st s) t := by
  have due : (!passOpen s m st ld.toNat layer.toNat || st.pass2.contains (ld.toNat, layer.toNat) ||
      !passTwoOpen s m st ld.toNat layer.toNat || bufferRead s m) = false := by
    simp [isOpen, new, two, unread]
  simp only [execLayerPass2, hm, hs, due, drainReads_still still, State.readKeys_clear clear, Bool.not_true, Bool.false_eq_true,
    if_false]
  refine ⟨_, rfl, ?_⟩
  exact .foldl (fun _ _ => sendMirrors_onlyTold ..) _ _

end

/-! ## Mirrors (R234) -/

section
variable {slot : BitVec 6} {shard : Nat} {part : BitVec 13} {b : Bytes} {s : State} {m : Model} {st : LedStep} {x : Shard}

/-- What a part that is not joined sends is discarded and counted (R411). -/
theorem execMirrorTransfer_stranger (hm : s.model slot.toNat = some m) (hx : m.map.shards[shard]? = some x)
    (stranger : (s.joinedBy m.map.job part).isNone) : execMirrorTransfer slot shard (some (part, b)) s = .next (discardMsg s) := by
  rw [execMirrorTransfer, hm]
  dsimp only
  rw [hx]
  exact if_pos stranger

/-- What a joined part sends is taken. -/
theorem execMirrorTransfer_joined (hm : s.model slot.toNat = some m) (hx : m.map.shards[shard]? = some x)
    (joined : (s.joinedBy m.map.job part).isSome) :
    execMirrorTransfer slot shard (some (part, b)) s = .next (takeMirror slot.toNat m (x, shard) (some b) s) := by
  rw [execMirrorTransfer, hm]
  dsimp only
  rw [hx]
  exact if_neg (by rw [Option.isNone_eq_false_iff.2 joined]; exact Bool.false_ne_true)

/-- Rows for a mirror that is open, and that has none yet, land in it and are counted. -/
theorem takeMirror_lands {k : Nat} (hs : m.led.step = some st) (mirror : x.role = 1) (ready : mirrorOpen s k m (x, shard) b = true)
    (new : shard ∉ st.mirrors) : takeMirror k m (x, shard) (some b) s =
      tryCommit k (onStep k (fun st => { st with mirrors := st.mirrors ++ [shard] }) (landMirror k m (x, shard) b s)) := by
  have noTwin : (m.map.mine x && x.role == 2) = false := by rw [mirror]; exact Bool.and_false _
  have due : (!mirrorOpen s k m (x, shard) b || st.mirrors.contains shard) = false := by simp [ready, new]
  rw [takeMirror, hs]
  dsimp only
  exact check_passed noTwin (check_passed due rfl)

end

/-! ## The end of FEED_LIMIT (R231, R232) -/

section
variable {slot : BitVec 6} {s : State} {m : Model} {st : LedStep}

/-- FEED_LIMIT has no effect on a step marked DENY in time, and on one whose commit waits for writing alone. -/
theorem execFeedLimitExpiry_idle (hm : s.model slot.toNat = some m) (hs : m.led.step = some st)
    (idle : st.denied = true ∨ (st.commit = true ∧ allReady s m.map st = true)) : execFeedLimitExpiry slot s = .next s := by
  rw [execFeedLimitExpiry, hm]
  dsimp only
  rw [hs]
  exact if_pos (by simpa using idle)

/-- FEED_LIMIT abandons any other step, and a commit that waits completes with TIMEOUT. -/
theorem execFeedLimitExpiry_abandons (hm : s.model slot.toNat = some m) (hs : m.led.step = some st) (undenied : st.denied = false)
    (waits : st.commit = false ∨ allReady s m.map st = false) : execFeedLimitExpiry slot s =
      .next (finishWait (.commit slot.toNat) .timeout [] (s.onModel slot.toNat fun m => { m with led := m.led.abandon })) := by
  have due : (st.denied || (st.commit && allReady s m.map st)) = false := by
    rw [undenied, Bool.false_or, Bool.and_eq_false_iff]
    exact waits
  rw [execFeedLimitExpiry, hm]
  dsimp only
  rw [hs]
  exact check_passed due rfl

end

/-- Settles O34: each row goes as its equation above says; what a row leaves of the step follows from what counting, messages and
write-back leave alone. -/
theorem ledgerOperationsTakeEffect : Obligations.LedgerOperationsTakeEffect := by
  unfold Obligations.LedgerOperationsTakeEffect
  refine ⟨?feed, ?passes, ?combine, ?mirror, ?limit⟩
  case feed =>
    intro d s p x k m st hd kind started running left hk hm hs serves f t
    refine ⟨?_, ?_, fun g y epoch format thawed group live found turn clear => ?_⟩
    · exact execLfeed_epoch hd kind started running left hk hm hs serves
    · exact execLfeed_format hd kind started running left hk hm hs serves
    · refine (execLfeed_turn hd kind started running left hk hm hs serves epoch format thawed group live found).trans ?_
      exact congrArg _ (feedTurn_reads _ turn clear)
  case passes =>
    intro slot ld layer s m st hm hs clear
    refine ⟨fun isOpen new two => ?one, fun isOpen new two unread uncommitted still => ?two⟩
    case one =>
      obtain ⟨t, step, told⟩ := execLayerPass1_runs hm hs clear isOpen new two
      obtain ⟨m', st', model, weights, led, same⟩ := (passedOne_atStep hm hs).congr told.models
      exact ⟨t, m', st', step, told.mem.trans passedOne_mem, model, weights, led, same.pass1, same.pass2, same.begun2⟩
    case two =>
      obtain ⟨t, step, told⟩ := execLayerPass2_runs hm hs clear isOpen new two unread still
      obtain ⟨m', st', model, weights, led, same⟩ := (passedTwo_atStep hm hs).congr told.models
      have stays : tryCommit slot.toNat t = t :=
        tryCommit_uncommitted ⟨m', st', model, weights, led, same.commit.trans uncommitted⟩
      exact ⟨t, m', st', step.trans (congrArg _ stays), model, weights, led, same.pass2, same.begun2, same.pass1⟩
  case combine =>
    intro slot layer others failed ws s m st hm hs taken sums ran two new
    obtain ⟨t, step, mem, m', st', model, -, led, more⟩ := execLedgerCombine_combines failed hm hs taken sums ran two new
    exact ⟨t, m', st', step, mem, model, led, more.combLayers, more.pass1, more.amax⟩
  case mirror =>
    intro slot shard part b s m st x hm hx
    refine ⟨execMirrorTransfer_stranger hm hx, fun joined hs mine role thawed new unread len goes => ?_⟩
    have ready : mirrorOpen s slot.toNat m (x, shard) b = true := by
      simp only [mirrorOpen, mine, role, thawed, unread, len, goes, beq_self_eq_true, Bool.not_false, Bool.and_self]
    exact (execMirrorTransfer_joined hm hx joined).trans (congrArg _ (takeMirror_lands hs role ready new))
  case limit =>
    intro slot s m st hm hs
    exact ⟨execFeedLimitExpiry_idle hm hs, execFeedLimitExpiry_abandons hm hs⟩

end Sys2Proof.Machine
end

section
/-!
PROOFS. The commands on sequences: SEQ_ADMIT finds the lowest free entry, and the others act on the entry that their handle names.
-/
namespace Sys2Proof.Machine

/-- A command whose own fields are legal acts on the entry that its handle names. -/
theorem onHandle_named {c : Cmd} {n i : Nat} {ok : Bool} {u : State} {q : Seq} (body : Nat → Seq → Res) (tail : cmdTail c n = true)
    (hok : ok = true) (hq : handleSeq c u = some (i, q)) : onHandle c n ok u body = body i q := by
  simp [onHandle, tail, hok, hq]

/-- The lowest free entry of the Sequence Table. -/
theorem lowestEntry {u : State} {i : Nat} (below : i < 16384) (free : tget u.gens.seqs i = none)
    (taken : ∀ j < i, tget u.gens.seqs j ≠ none) :
    ((List.range 16384).find? fun i => (tget u.gens.seqs i).isNone) = some i := by
  rw [List.find?_range_eq_some]
  refine ⟨by rw [free]; rfl, List.mem_range.2 below, fun j hj => ?_⟩
  simpa [Option.isSome_iff_ne_none] using taken j hj

/-- Settles O35: SEQ_ADMIT passes its checks and enters the request in the lowest free entry, and each other command acts on its
entry as the entry's state has it. -/
theorem sequenceCommandsComplete : Obligations.SequenceCommandsComplete := by
  unfold Obligations.SequenceCommandsComplete
  refine ⟨?request, fun c s u i q hq => ⟨?cancel, ?query, ?pause, ?resume, ?park, ?release, ?draft⟩⟩
  case request =>
    intro c s u k i m h tail addr aligned held goes b n prompt q v legal thawed hk hm short fits promptHeld promptGoes vocab admits joined
      few below free taken alone answered
    have fields : (!cmdTail c 8 || !addrOk (cmdU c 0 8) || cmdU c 0 8 % 64 != 0) = false := by rw [tail, addr, aligned]; rfl
    have lengths : (decide (m.gen.maxCtx ≤ n) || decide (m.gen.maxCtx < n + fieldAt b 8 4)) = false := by
      rw [decide_eq_false (Nat.not_le.2 short), decide_eq_false (Nat.not_lt.2 fits)]; rfl
    have known : ((prompt ++ q.stops).any fun t => decide (m.map.vocab ≤ t)) = false := by
      simpa only [List.any_eq_false, decide_eq_true_eq, Nat.not_le] using vocab
    have member : (q.domain == 0 || q.joined.isSome) = true := by simpa using joined
    have entry := lowestEntry below free taken
    have room : (decide ((u.acct (cmdA c)).quota.seqs ≤ (u.gens.seqs.filter fun x => x.2.acct == cmdA c).length) || i == 16384 ||
        !fitsAlone u m q) = false := by
      rw [decide_eq_false (Nat.not_le.2 few), beq_eq_false_iff_ne.2 (Nat.ne_of_lt below), alone]; rfl
    have waits : (!(queueSeq i k v).2 && q.admitWait == 0) = false := by
      rw [Bool.and_eq_false_iff, Bool.not_eq_false', beq_eq_false_iff_ne]
      exact answered
    change execSeqAdmit c s = _
    refine runCmd_ok h (check_passed fields (readFor_done held goes ?_))
    refine need_met legal (check_passed thawed ?_)
    rw [hk]
    dsimp only
    rw [hm]
    dsimp only
    refine check_passed lengths (readFor_done promptHeld promptGoes ?_)
    refine check_passed known (need_met admits (need_met member ?_))
    rw [entry]
    exact check_passed room (check_passed waits rfl)
  case cancel =>
    intro h tail live v
    have named := onHandle_named (c := c) (ok := true) (tail := tail) (hok := rfl) (hq := hq)
    constructor
    · intro chunk
      change execSeqCancel c s = _
      refine runCmd_ok h ((named _).trans (check_passed live ?_))
      rw [chunk]
    · intro x chunk
      change execSeqCancel c s = _
      refine runCmd_wait h ((named _).trans (check_passed live ?_))
      rw [chunk]
  case query =>
    intro h tail zero addr held goes m hm
    have fields : (!cmdTail c 16 || !cmdZ c 4 4 || !addrOk (cmdU c 8 8)) = false := by rw [tail, zero, addr]; rfl
    change execSeqQuery c s = _
    refine runCmd_ok h (check_passed fields ?_)
    rw [writeFor_ok _ held goes, hq]
    dsimp only
    rw [hm]
    rfl
  case pause =>
    intro h tail decode
    have named := onHandle_named (c := c) (ok := true) (tail := tail) (hok := rfl) (hq := hq)
    have state : (q.state != .decode) = false := by rw [decode]; rfl
    constructor
    · intro apart
      change execSeqPause c s = _
      exact runCmd_ok h ((named _).trans (check_passed state (check_passed apart rfl)))
    · intro inside
      change execSeqPause c s = _
      exact runCmd_wait h ((named _).trans (check_passed state (if_pos inside)))
  case resume =>
    intro h tail
    have named := onHandle_named (c := c) (ok := true) (tail := tail) (hok := rfl) (hq := hq)
    constructor
    · intro paused still
      have state : (q.state == .paused) = true := by rw [paused]; rfl
      change execSeqResume c s = _
      refine runCmd_ok h ((named _).trans ((if_pos state).trans ?_))
      rw [still]
      rfl
    · intro parked v
      have state : (q.state == .paused) = false := by rw [parked]; rfl
      change execSeqResume c s = _
      refine runCmd_ok h ((named _).trans (check_passed state ?_))
      exact if_pos (by rw [parked]; rfl)
  case park =>
    intro h tail least most paused still unpinned room
    have state : (q.state != .paused || q.parking || (u.acct q.acct).epochPin) = false := by rw [paused, still, unpinned]; rfl
    change execSeqPark c s = _
    refine runCmd_wait h ((onHandle_named _ tail (by simp [least, most]) hq).trans ?_)
    exact check_passed state (check_passed (decide_eq_false (Nat.not_lt.2 room)) rfl)
  case release =>
    intro h tail final
    change execSeqRelease c s = _
    exact runCmd_ok h ((onHandle_named _ tail rfl hq).trans (if_pos final))
  case draft =>
    intro m h hm least most tail zero decode speculates room pairs vocab
    have known : (pairs.any fun p => decide (m.map.vocab ≤ p.1)) = false := by
      simpa only [List.any_eq_false, decide_eq_true_eq, Nat.not_le] using vocab
    have state : (q.state != .decode || q.spec == 0) = false := by rw [decode, beq_eq_false_iff_ne.2 speculates]; rfl
    change execSeqDraft c s = _
    refine runCmd_ok h ((onHandle_named _ tail (by simp [least, most, zero]) hq).trans ?_)
    rw [hm]
    exact check_passed known (check_passed state (check_passed (decide_eq_false (Nat.not_lt.2 room)) rfl))

end Sys2Proof.Machine
end

section
/-!
PROOFS. The settings of a model's generation: SEQ_MODEL_SET decides for each entry of its window slot whether that entry's grid runs, so
that a table which names a slot twice parts it from the statement.
-/
namespace Sys2Proof.Machine

/-- What SEQ_MODEL_SET of PAUSE_LIMIT leaves of an entry of the window slot: the setting is in force where the entry's grid stands
still, and staged where it runs (R263). -/
def putPauseLimit (g : GenSet) (v : Nat) (x : Model) : Model :=
  { x with gen := if x.gen.grid.isNone then { g with pauseLimit := v } else { g with staged := g.staged ++ [(5, v)] } }

theorem execSeqModelSet_pauseLimit {c : Cmd} {s u : State} {k : Nat} {m : Model} (h : Runs 0x509 c s u) (tail : cmdTail c 16 = true)
    (zero : cmdZ c 3 5 = true) (field : cmdU c 2 1 = 5) (value : genValueOk 5 (cmdU c 8 8) = true)
    (hk : cmdSlot c (cmdU c 0 2) u = some k) (hm : u.model k = some m) :
    exec (.seqModelSet c) s = .next (complete c 0x509 .ok [] (u.onModel k (putPauseLimit m.gen (cmdU c 8 8)))) := by
  have fields : (!cmdTail c 16 || !cmdZ c 3 5 || !genValueOk (cmdU c 2 1) (cmdU c 8 8)) = false := by
    rw [tail, zero, field, value]; rfl
  change execSeqModelSet c s = _
  refine runCmd_ok h (check_passed fields ?_)
  rw [hk]
  dsimp only
  rw [hm]
  dsimp only
  rw [field]
  rfl

/-- A model of account 0 whose grid is as given. -/
def gridModel (grid : Option (Nat × Nat)) : Model :=
  { map := { acct := 0, num := 1, layers := 0, vocab := 0, job := 0, part := 0, parts := [], tensors := [], shards := [], gshards := [],
             arenas := [], layout := 0, swap := true }
    w := Weights.create [], led := LedModel.create, kv := KvSet.create, gen := { GenSet.create true with grid := grid },
    ft := FtModel.create, amax := [], unrolled := [] }

/-- A module in P0 whose table of models names slot 0 twice: the grid of the first entry runs, and that of the second stands still. -/
def namedTwice : State :=
  { State.reset with
    mail := { Mail.reset with funcs := [{ Func.reset with ready := true, abi := 3 }] }
    ten := { Tenancy.cold with accts := [{ Account.fresh with state := .enabled }] }
    chip := { Chip.cold with power := { Power.cold with resetting := none, mailboxReady := true } }
    models := [(0, gridModel (some (0, 100))), (0, gridModel none)] }

/-- SEQ_MODEL_SET of MODEL 1, FIELD 5 and VALUE 10. -/
def setPauseLimit : Cmd :=
  ⟨0, 0, 5, 3, false, BitVec.ofNatLT (1 + 5 * 2 ^ 16 + 10 * 2 ^ 64)
    (lt_trans (b := 2 ^ 128) (by norm_num) (Nat.pow_lt_pow_right (by norm_num) (by norm_num)))⟩

theorem setPauseLimit_runs : Runs 0x509 setPauseLimit namedTwice (dropTaken setPauseLimit namedTwice) := by
  refine ⟨rfl, ?_⟩
  decide

theorem setPauseLimit_legal : cmdTail setPauseLimit 16 = true ∧ cmdZ setPauseLimit 3 5 = true ∧ cmdU setPauseLimit 2 1 = 5 ∧
    genValueOk 5 (cmdU setPauseLimit 8 8) = true := by decide

theorem setPauseLimit_names :
    cmdSlot setPauseLimit (cmdU setPauseLimit 0 2) (dropTaken setPauseLimit namedTwice) = some 0 := by decide

/-- Refutes O36: a state may name a window slot twice, which the table of models does not rule out. SEQ_MODEL_SET stages PAUSE_LIMIT
in the first entry, whose grid runs, and puts it in force in the second, whose grid stands still; the statement has it staged in
both. -/
theorem not_generationSettingsComplete : ¬ Obligations.GenerationSettingsComplete := by
  unfold Obligations.GenerationSettingsComplete
  intro h
  obtain ⟨tail, zero, field, value⟩ := setPauseLimit_legal
  have first : (dropTaken setPauseLimit namedTwice).model 0 = some (gridModel (some (0, 100))) := rfl
  obtain ⟨staged, -⟩ := (h _ _ _ _ _ setPauseLimit_names first).1 setPauseLimit_runs tail zero (by rw [field]; exact value)
  have same := (execSeqModelSet_pauseLimit setPauseLimit_runs tail zero field value setPauseLimit_names first).symm.trans
    (staged field (by decide))
  have models := congrArg State.models (Host.Outcome.next.inj same)
  rw [(complete_onlyMail ..).models, (complete_onlyMail ..).models] at models
  have limits : [60000, 10] = [60000, 60000] := congrArg (List.map fun x : Nat × Model => x.2.gen.pauseLimit) models
  exact absurd limits (by decide)

end Sys2Proof.Machine
end

section
/-!
PROOFS. The Sequence Table: an entry after a change, what the operations on sequences keep of the others, and what messages, meters and
accesses to memory leave alone.
-/
namespace Sys2Proof.Machine

/-! ## An entry after a change -/

theorem seq_congr {s t : State} (h : t.gens.seqs = s.gens.seqs) (j : Nat) : t.seq j = s.seq j := by
  rw [State.seq, h, State.seq]

theorem State.seq_onSeq (s : State) (i j : Nat) (f : Seq → Seq) :
    (s.onSeq i f).seq j = if i = j then (s.seq j).map f else s.seq j := by
  have entry : (fun x : Nat × Seq => if x.1 == i then (i, f x.2) else x) = fun x => if x.1 == i then (x.1, f x.2) else x := by
    funext x
    split
    · next named => rw [beq_iff_eq.1 named]
    · rfl
  have seqs : (s.onSeq i f).gens.seqs = s.gens.seqs.map fun x => if x.1 == i then (x.1, f x.2) else x :=
    congrArg (List.map · _) entry
  rw [State.seq, seqs]
  exact tget_map ..

theorem seq_onSeq_same {s : State} {i : Nat} {q : Seq} (h : s.seq i = some q) (f : Seq → Seq) : (s.onSeq i f).seq i = some (f q) := by
  rw [State.seq_onSeq, if_pos rfl, h, Option.map_some]

theorem seq_onSeq_ne {i j : Nat} (h : j ≠ i) (f : Seq → Seq) (s : State) : (s.onSeq i f).seq j = s.seq j := by
  rw [State.seq_onSeq, if_neg (Ne.symm h)]

theorem State.onSeq_id (s : State) (i : Nat) : (s.onSeq i fun q => q) = s := by
  have entry : (fun x : Nat × Seq => if x.1 == i then (i, x.2) else x) = id := by
    funext x
    split
    · next named => rw [← beq_iff_eq.1 named]; rfl
    · rfl
  rw [State.onSeq, entry, List.map_id]

theorem State.onSeq_onSeq (s : State) (i : Nat) (f g : Seq → Seq) : (s.onSeq i f).onSeq i g = s.onSeq i fun q => g (f q) := by
  have entry : ((fun x : Nat × Seq => if x.1 == i then (i, g x.2) else x) ∘ fun x => if x.1 == i then (i, f x.2) else x) =
      fun x => if x.1 == i then (i, g (f x.2)) else x := by
    funext x
    by_cases named : x.1 = i <;> simp [named]
  simp only [State.onSeq, List.map_map, entry]

theorem onSeq_gens_congr {s t : State} (h : t.gens = s.gens) (i : Nat) (f : Seq → Seq) :
    (t.onSeq i f).gens = (s.onSeq i f).gens := by
  rw [State.onSeq, h, State.onSeq]

/-- Every entry shows the same of itself in two states. -/
def SeqsKeep {α : Type} (p : Seq → α) (s t : State) : Prop := ∀ j, (t.seq j).map p = (s.seq j).map p

section
variable {α : Type} {p : Seq → α} {s t u : State}

theorem SeqsKeep.refl (s : State) : SeqsKeep p s s := fun _ => rfl

theorem SeqsKeep.trans (h : SeqsKeep p s t) (g : SeqsKeep p t u) : SeqsKeep p s u := fun j => (g j).trans (h j)

theorem SeqsKeep.of_seqs (h : t.gens.seqs = s.gens.seqs) : SeqsKeep p s t := fun j => by rw [seq_congr h]

theorem SeqsKeep.onSeq {f : Seq → Seq} (hf : ∀ q, p (f q) = p q) (i : Nat) (s : State) : SeqsKeep p s (s.onSeq i f) := by
  intro j
  rw [State.seq_onSeq]
  split
  · rw [Option.map_map]
    exact congrArg (Option.map · (s.seq j)) (funext hf)
  · rfl

/-- An entry that one state holds, the other holds too. -/
theorem SeqsKeep.some {i : Nat} {q : Seq} (h : SeqsKeep p s t) (hq : s.seq i = some q) : ∃ x, t.seq i = some x ∧ p x = p q :=
  Option.map_eq_some_iff.1 ((h i).trans (by rw [hq]; rfl))

end

/-! ## What counts, messages and accesses to memory leave alone -/

theorem OnlyMail.sameWork {s t : State} (h : OnlyMail s t) : SameWork s t := by
  obtain ⟨_, _, rfl⟩ := h
  exact ⟨rfl, rfl, rfl, rfl, rfl, rfl⟩

theorem write_sameWork (a : Nat) (bs : Bytes) (s : State) : SameWork s (s.write a bs) := ⟨rfl, rfl, rfl, rfl, rfl, rfl⟩

theorem scrambleSlot_sameWork (q : Seq) (m : Model) (k : Nat) (s : State) : SameWork s (scrambleSlot q m k s) :=
  .foldl (fun s _ => by
    split
    · exact .refl s
    · exact ⟨rfl, rfl, rfl, rfl, rfl, rfl⟩) _ s

theorem notifySeq_onlyMail (i : Nat) (s : State) : OnlyMail s (notifySeq i s) := by
  unfold notifySeq
  split
  · exact .refl s
  · exact post_onlyMail ..

/-! ## States and ends (R259, R264, R272) -/

theorem stopIdleGrid_gens (k : Nat) (s : State) : (stopIdleGrid k s).gens = s.gens := by
  unfold stopIdleGrid
  split <;> rfl

/-- A sequence that enters a state: its entry alone changes in the table. -/
theorem setSeqState_gens (i : Nat) (st : SeqState) (s : State) :
    (setSeqState i st s).gens = (s.onSeq i fun q => { q with state := st, tLast := s.mtime }).gens := by
  have told := (notifySeq_onlyMail i (s.onSeq i fun q => { q with state := st, tLast := s.mtime })).sameWork.gens
  unfold setSeqState
  dsimp only
  split
  · rw [stopIdleGrid_gens, told]
  · exact told

/-- Freeing the TENTATIVE slots of a sequence changes the tags of its own pages. -/
theorem freeTentative_gens (i : Nat) (s : State) :
    ∃ f : List Page → List Page, (freeTentative i s).gens = (s.onSeq i fun q => { q with pages := f q.pages }).gens := by
  have nothing : s.gens = (s.onSeq i fun q => { q with pages := id q.pages }).gens := congrArg State.gens (s.onSeq_id i).symm
  unfold freeTentative
  split
  · exact ⟨id, nothing⟩
  · next q _ =>
    split
    · exact ⟨id, nothing⟩
    · next m _ =>
      refine ⟨fun ps => ps.map fun p => { p with tags := p.tags.map fun t => if t == 1 then 0 else t }, onSeq_gens_congr ?_ i _⟩
      exact (SameWork.foldl (fun s k => scrambleSlot_sameWork q m k s) _ s).gens

/-- What an end leaves of an entry. -/
structure EndedAs (st : SeqState) (cause : Nat) (q x : Seq) : Prop where
  state : x.state = st
  endCause : x.endCause = cause
  pages : x.pages = []
  drafts : x.drafts = []
  imports : x.imports = []
  chunk : x.chunk = none
  reserved : x.reserved = 0
  handle : x.handle = q.handle
  pos : x.pos = q.pos

section
variable {i : Nat} {s : State} {q : Seq} (st : SeqState) (cause : Nat) (h : s.seq i = some q)
include h

/-- An end changes the entry of its sequence alone. -/
theorem endSeq_gens : ∃ f : Seq → Seq, (endSeq i st cause s).gens = (s.onSeq i f).gens ∧ ∀ x, EndedAs st cause x (f x) := by
  obtain ⟨pages, freed⟩ := freeTentative_gens i s
  unfold endSeq
  rw [h]
  dsimp only
  rw [(finishWait_onlyMail ..).sameWork.gens, (finishWait_onlyMail ..).sameWork.gens, setSeqState_gens,
    State.onSeq_onSeq, onSeq_gens_congr (t := leaveWaves i q.slot (freeTentative i s)) freed, State.onSeq_onSeq]
  refine ⟨_, rfl, fun x => ?_⟩
  exact ⟨rfl, rfl, rfl, rfl, rfl, rfl, rfl, rfl, rfl⟩

/-- A sequence that ends holds nothing any more. -/
theorem endSeq_seq : ∃ x, (endSeq i st cause s).seq i = some x ∧ EndedAs st cause q x := by
  obtain ⟨f, gens, ended⟩ := endSeq_gens st cause h
  exact ⟨f q, (seq_congr (congrArg GenState.seqs gens) i).trans (seq_onSeq_same h f), ended q⟩

/-- An end leaves every other sequence alone. -/
theorem endSeq_seq_ne {j : Nat} (apart : j ≠ i) : (endSeq i st cause s).seq j = s.seq j := by
  obtain ⟨f, gens, -⟩ := endSeq_gens st cause h
  exact (seq_congr (congrArg GenState.seqs gens) j).trans (seq_onSeq_ne apart f s)

end

end Sys2Proof.Machine
end

section
/-!
PROOFS. Sequences are granted, imported, parked, restored and ended: what a grant leaves of a request, and one equation for each way an
event goes.
-/
namespace Sys2Proof.Machine

/-! ## A grant (R266, R301, R309) -/

/-- Finding the domain of a sequence creates at most the number of its account's own domain (R297). -/
theorem domainInst_eq (a d : Nat) (s : State) :
    ∃ n t, (domainInst a d s).2 = s.onGens fun g => { g with domCtr := n, privInst := t } := by
  unfold domainInst privateInst
  split
  · dsimp only
    split <;> exact ⟨_, _, rfl⟩
  · split <;> exact ⟨_, _, rfl⟩

theorem domainInst_seqs (a d : Nat) (s : State) : (domainInst a d s).2.gens.seqs = s.gens.seqs := by
  obtain ⟨_, _, found⟩ := domainInst_eq a d s
  rw [found]
  rfl

theorem touchEntries_seqs (ids : List Nat) (s : State) : (touchEntries ids s).gens.seqs = s.gens.seqs := rfl

/-- The lookup of a prompt leaves the states, the homes and the reservations. -/
theorem lookupPrompt_keeps (i : Nat) (s : State) :
    SeqsKeep (fun q => (q.state, q.home, q.reserved, q.handle)) s (lookupPrompt i s) := by
  unfold lookupPrompt
  split
  · exact .refl s
  · next q _ =>
    split
    · exact .refl s
    · have found : SeqsKeep (fun q => (q.state, q.home, q.reserved, q.handle)) s (domainInst q.acct q.domain s).2 :=
        .of_seqs (domainInst_seqs ..)
      dsimp only
      generalize domainInst q.acct q.domain s = r at found ⊢
      refine SeqsKeep.trans ?_ (.of_seqs (touchEntries_seqs ..))
      refine found.trans (.onSeq ?_ i r.2)
      exact fun _ => rfl

/-- A request that is granted is in PREFILL, with the home and the reservation that the grant gives it. -/
theorem grantSeq_seq {i h : Nat} {s : State} {q : Seq} {m : Model} (hq : s.seq i = some q) (hm : s.model q.slot = some m) :
    ∃ x, (grantSeq i h s).seq i = some x ∧ x.state = .prefill ∧ x.home = h ∧ x.reserved = q.need m ∧ x.handle = q.handle := by
  have entered : (setSeqState i .prefill (s.onSeq i fun q => { q with home := h, reserved := q.need m, granted := q.need m })).seq i =
      some { q with home := h, reserved := q.need m, granted := q.need m, state := .prefill, tLast := s.mtime } := by
    rw [seq_congr (congrArg GenState.seqs (setSeqState_gens ..)), State.onSeq_onSeq]
    exact seq_onSeq_same hq _
  have kept : SeqsKeep (fun q => (q.state, q.home, q.reserved, q.handle))
      (setSeqState i .prefill (s.onSeq i fun q => { q with home := h, reserved := q.need m, granted := q.need m })) (grantSeq i h s) := by
    unfold grantSeq
    rw [hq]
    dsimp only
    rw [hm]
    dsimp only
    split
    · exact lookupPrompt_keeps i _
    · refine .onSeq ?_ i _
      exact fun _ => rfl
  obtain ⟨x, hx, same⟩ := kept.some entered
  simp only [Prod.mk.injEq] at same
  exact ⟨x, hx, same⟩

theorem execAdmitGrant_grants {slot : BitVec 6} {s : State} {i h : Nat} {q : Seq} {m : Model}
    (head : headRequest s slot.toNat = some (i, q)) (hm : s.model slot.toNat = some m) (serves : s.acctServes q.acct = true)
    (place : placeSeq s slot.toNat m q = some h) : execAdmitGrant slot s = .next (grantSeq i h s) := by
  simp only [execAdmitGrant, head, hm, serves, place, if_true]

/-! ## Imports, parks and restores (R300, R306, R309) -/

/-- What an import reads: the bytes that its reference keeps, or those of its frame. -/
def importRead (acct : Nat) (x : Import) (s : State) : Bool × Bytes × State := match x.kept with
  | some b => (true, b, s)
  | none => readPage acct x.loc s

section
variable {seq : BitVec 14} {s v : State} {q : Seq} (hq : s.seq seq.toNat = some q) (serves : s.acctServes q.acct = true)
include hq serves

theorem execImportDone_lands {m : Model} {x : Import} {rest : List Import} {l : FrameLoc} (imports : q.imports = x :: rest)
    (hm : s.model q.slot = some m) (read : (importRead q.acct x s).1 = true) (bytes : (importRead q.acct x s).2.1 ≠ [])
    (frame : drawFrame q.slot false q.home (importRead q.acct x s).2.2 = some (l, v)) :
    execImportDone seq true s = .next ((writePage q.acct l (importRead q.acct x s).2.1 v).onSeq seq.toNat fun q =>
      { q with imports := rest, pages := q.pages.modify x.page fun p => { p with loc := l, shared := false, own := false } }) := by
  have landed : (!true || !(importRead q.acct x s).1 || (importRead q.acct x s).2.1.isEmpty) = false := by
    rw [read, List.isEmpty_eq_false_iff.2 bytes]; rfl
  unfold execImportDone
  dsimp only
  rw [hq]
  dsimp only
  rw [if_pos serves, imports, hm]
  refine check_passed landed ?_
  split
  · next none => cases none.symm.trans frame
  · next some => cases some.symm.trans frame; rfl

theorem execPauseLimitExpiry_parks (paused : q.state = .paused) (still : q.parking = false) (ttl : q.parkTtl ≠ 0)
    (unpinned : (s.acct q.acct).epochPin = false) (room : q.pages.length ≤ vaultRoom s q) :
    execPauseLimitExpiry seq s = .next (startPark seq.toNat q.parkTtl s) := by
  simp [execPauseLimitExpiry, hq, paused, still, serves, ttl, unpinned, room]

theorem execPauseLimitExpiry_ends (paused : q.state = .paused) (still : q.parking = false)
    (shut : q.parkTtl = 0 ∨ (s.acct q.acct).epochPin = true ∨ vaultRoom s q < q.pages.length) :
    execPauseLimitExpiry seq s = .next (endSeq seq.toNat .expired 7 s) := by
  have shut : (q.parkTtl != 0 && !(s.acct q.acct).epochPin && decide (q.pages.length ≤ vaultRoom s q)) = false := by
    rcases shut with h | h | h <;> simp [h]
  simp [execPauseLimitExpiry, hq, paused, still, serves, shut]

section
variable (paused : q.state = .paused) (parking : q.parking = true) (turn : parkTurn s (s.physDie q.acct (q.home / 4)) = some seq.toNat)
include paused parking turn

omit hq in
/-- A park whose turn it is goes on. -/
theorem parkDone_open :
    (!s.acctServes q.acct || q.state != .paused || !q.parking || parkTurn s (s.physDie q.acct (q.home / 4)) != some seq.toNat) =
      false := by
  simp [serves, paused, parking, turn]

theorem execParkDone_parks (moved : movePages seq.toNat q true (q.home / 4) s = .done v) :
    execParkDone seq true s = .next (finishWait (.seqPause seq.toNat) .ok [] (setSeqState seq.toNat .parked
      (v.onSeq seq.toNat fun q => { q with parking := false, reserved := 0, drafts := [] }))) := by
  unfold execParkDone
  dsimp only
  rw [hq]
  refine check_passed (parkDone_open serves paused parking turn) ?_
  rw [moved]
  rfl

theorem execParkDone_fails :
    execParkDone seq false s = .next (finishWait (.seqPause seq.toNat) .dataError []
      ((s.onSeq seq.toNat fun q => { q with parking := false }).onSeq seq.toNat fun q => { q with drafts := [] })) := by
  unfold execParkDone
  dsimp only
  rw [hq]
  exact check_passed (parkDone_open serves paused parking turn) rfl

end

theorem execRestoreDone_binds (prefill : q.state = .prefill) (restoring : q.restoring = true)
    (moved : movePages seq.toNat q false q.home s = .done v) :
    execRestoreDone seq true s = .next (v.onSeq seq.toNat fun q => { q with restoring := false, bound := true }) := by
  simp [execRestoreDone, hq, serves, prefill, restoring, moved]

end

/-! ## Expiries (R259, R268, R308) -/

section
variable {seq : BitVec 14} {s : State} {q : Seq} (hq : s.seq seq.toNat = some q)
include hq

theorem execAdmitWaitExpiry_ends (waits : q.state = .admitted) :
    execAdmitWaitExpiry seq s = .next (endSeq seq.toNat .expired 4 s) := by
  simp [execAdmitWaitExpiry, hq, waits]

theorem execParkTtlExpiry_ends (parked : q.state = .parked) : execParkTtlExpiry seq s = .next (endSeq seq.toNat .expired 8 s) := by
  simp [execParkTtlExpiry, hq, parked]

theorem execEntryAutoRelease_frees (final : q.state.final = true) : execEntryAutoRelease seq s = .next (freeEntry seq.toNat s) := by
  simp [execEntryAutoRelease, hq, final]

section
variable (live : q.state.final = false) (lifetime : q.lifetime ≠ 0)
include live lifetime

theorem execLifetimeExpiry_ends (chunk : q.chunk = none) : execLifetimeExpiry seq s = .next (endSeq seq.toNat .expired 5 s) := by
  simp [execLifetimeExpiry, hq, live, lifetime, chunk]

theorem execLifetimeExpiry_stops {x : PkgId × Nat × Nat} (chunk : q.chunk = some x) : execLifetimeExpiry seq s =
    .next (beginStop x.1 .cancelled (s.onSeq seq.toNat fun q => { q with expired := true })) := by
  simp [execLifetimeExpiry, hq, live, lifetime, chunk]

end
end

/-- Settles O38: each event goes as its equation above says, and an end changes the entry of its sequence alone. -/
theorem sequencesAreGrantedExpireAndEnd : Obligations.SequencesAreGrantedExpireAndEnd := by
  unfold Obligations.SequencesAreGrantedExpireAndEnd
  refine ⟨?grant, ?land, fun seq s q hq => ⟨?wait, ?lifetime, ?pause, ?parked, ?final, ?park, ?restore⟩, ?ended⟩
  case grant =>
    intro slot s i h q m head hm hq serves place
    exact ⟨execAdmitGrant_grants head hm serves place, grantSeq_seq hq⟩
  case land =>
    intro seq s v q m x rest l hq imports hm serves r
    exact execImportDone_lands hq serves imports hm
  case wait => exact execAdmitWaitExpiry_ends hq
  case lifetime =>
    exact fun live some => ⟨execLifetimeExpiry_ends hq live some, fun x => execLifetimeExpiry_stops hq live some⟩
  case pause =>
    exact fun paused still serves => ⟨execPauseLimitExpiry_parks hq serves paused still,
      execPauseLimitExpiry_ends hq serves paused still⟩
  case parked => exact execParkTtlExpiry_ends hq
  case final => exact execEntryAutoRelease_frees hq
  case park =>
    exact fun paused parking serves turn => ⟨fun v => execParkDone_parks hq serves paused parking turn,
      execParkDone_fails hq serves paused parking turn⟩
  case restore => exact fun prefill restoring serves v => execRestoreDone_binds hq serves prefill restoring
  case ended =>
    intro i cause st s q hq
    obtain ⟨x, hx, e⟩ := endSeq_seq st cause hq
    refine ⟨⟨x, hx, e.state, e.endCause, e.pages, e.drafts, e.imports, e.chunk, e.reserved, e.handle, e.pos⟩, fun j apart => ?_⟩
    rw [endSeq_seq_ne st cause hq apart]

end Sys2Proof.Machine
end

section
/-!
PROOFS. What the operations of prefill, frames and waves leave alone: accesses to memory leave the work of the part, draws and tags change
the generation tables alone, and an end keeps what is said of a model's settled grid.
-/
namespace Sys2Proof.Machine

/-! ## Accesses to memory and counts leave the work of the part -/

theorem num_sameWork (a i n : Nat) (s : State) : SameWork s (s.num a i n) := ⟨rfl, rfl, rfl, rfl, rfl, rfl⟩

theorem bump_sameWork (src die : Nat) (a u : Option Nat) (n : Nat) (s : State) : SameWork s (s.bump src die a u n) :=
  ⟨rfl, rfl, rfl, rfl, rfl, rfl⟩

theorem countConds_sameWork (acct die : Nat) (unit : Option Nat) (c : Conds) (s : State) :
    SameWork s (countConds acct die unit c s) :=
  countConds_keeps (fun _ _ _ _ h => h.trans (num_sameWork ..)) (fun _ _ _ _ _ _ h => h.trans (bump_sameWork ..)) _ _ _ _ (.refl s)

/-- A failed read changes the memory's health and what is told of retired rows (R355). -/
theorem discover_eq (a n : Nat) (s : State) : ∃ chip ft, s.discover a n = { s with chip := chip, ft := ft } := by
  unfold State.discover
  split
  · exact ⟨_, _, rfl⟩
  · next d _ =>
    by_cases none : ((s.dieMem d).failing.filter fun k => touchesCode a n k).isEmpty = true
    · rw [if_pos none]
      exact ⟨_, _, rfl⟩
    · rw [if_neg none]
      refine iteInduction (motive := fun t : State => ∃ chip ft, t = { s with chip := chip, ft := ft }) ?_ ?_
      · exact fun _ => ⟨_, _, rfl⟩
      · exact fun _ => ⟨_, _, rfl⟩

theorem discover_sameWork (a n : Nat) (s : State) : SameWork s (s.discover a n) := by
  obtain ⟨_, _, found⟩ := discover_eq a n s
  exact found ▸ ⟨rfl, rfl, rfl, rfl, rfl, rfl⟩

theorem discover_mem (a n : Nat) (s : State) : (s.discover a n).mem = s.mem := by
  obtain ⟨_, _, found⟩ := discover_eq a n s
  rw [found]

theorem discoverAll_sameWork (rs : List (Nat × Nat)) (s : State) : SameWork s (s.discoverAll rs) :=
  .foldl (fun _ _ => discover_sameWork ..) rs s

theorem retireRow_sameWork (acct k : Nat) (s : State) : SameWork s (retireRow acct k s).2 := by
  unfold retireRow
  split
  · exact .refl s
  · dsimp only
    split
    · exact ⟨rfl, rfl, rfl, rfl, rfl, rfl⟩
    · refine SameWork.trans ?_ (postAll_onlyMail ..).sameWork
      exact ⟨rfl, rfl, rfl, rfl, rfl, rfl⟩

theorem engineRead_sameWork (t : Traffic) (acct : Nat) (rs : List (Nat × Nat)) (s : State) :
    SameWork s (s.engineRead t acct rs).2 := by
  unfold State.engineRead
  split
  · exact charge_sameWork ..
  · exact charge_sameWork ..
  · exact (retireRow_sameWork ..).trans (charge_sameWork ..)
  · exact discoverAll_sameWork ..

theorem layerStep_sameWork (c : Copy) (plan : Bytes) (k : KvSet) (q : Seq) (j l : Nat) (x : List Word) (s : State) :
    SameWork s (layerStep c plan k q j l x s).1 := ⟨rfl, rfl, rfl, rfl, rfl, rfl⟩

theorem positionLogits_sameWork (c : Copy) (plan : Bytes) (k : KvSet) (q : Seq) (tok j : Nat) (s : State) :
    SameWork s (positionLogits c plan k q tok j s).1 :=
  List.foldlRecOn (motive := fun r : State × _ => SameWork s r.1) _ _ (.refl s) fun _ hr _ _ => hr.trans (layerStep_sameWork ..)

theorem stepTokens_sameWork (slot : Nat) (m : Model) (epoch : Nat) (q : Seq) (drafts : List (Nat × Word)) (s : State) :
    SameWork s (stepTokens slot m epoch q drafts s).1 := by
  unfold stepTokens
  split
  · exact .refl s
  · extract_lets c inputs
    generalize inputs.zipIdx = ts
    have free : ∀ s : State, SameWork s s.free.2 := fun _ => ⟨rfl, rfl, rfl, rfl, rfl, rfl⟩
    refine SameWork.trans (List.foldlRecOn (motive := fun r : State × _ => SameWork s r.1) ts _ (.refl s) ?_) (free _)
    exact fun _ hr _ _ => hr.trans (positionLogits_sameWork ..)

theorem writeRing_sameWork (k : Nat) (recs : List Bytes) (s : State) : SameWork s (writeRing k recs s) := by
  unfold writeRing
  split
  · exact .refl s
  · split
    · exact .refl s
    · exact ((SameWork.foldl (fun _ _ => write_sameWork ..) _ _).trans (write_sameWork ..)).trans (meter_sameWork ..)

theorem copyRange_sameWork (acct src dst n : Nat) (s : State) : SameWork s (copyRange acct src dst n s) := by
  unfold copyRange
  dsimp only
  split
  · exact ((charge_sameWork ..).trans (discover_sameWork ..)).trans ⟨rfl, rfl, rfl, rfl, rfl, rfl⟩
  · exact (charge_sameWork ..).trans (write_sameWork ..)

theorem prologue_sameWork (p : Pkg) (first : Bool) (s : State) : SameWork s (prologue p first s) := by
  have shadow : ∀ s (r : Region), SameWork s (if first then copyRange p.id.acct.toNat r.base r.aux r.len s
      else copyRange p.id.acct.toNat r.aux r.base r.len s) := fun _ _ => by split <;> exact copyRange_sameWork ..
  have temp : ∀ s (r : Region), SameWork s (s.wipeRange r.base r.len) := fun _ _ => ⟨rfl, rfl, rfl, rfl, rfl, rfl⟩
  have code : ∀ s (r : Region), SameWork s (copyRange p.id.acct.toNat r.base (coreAddr r.core (64 * r.aux)) r.len s) :=
    fun _ _ => copyRange_sameWork ..
  have copied := ((SameWork.foldl temp (p.regions.filter fun r => r.role == 4) s).trans
    (SameWork.foldl code (p.regions.filter fun r => r.role == 5) _)).trans
      (SameWork.foldl shadow (p.regions.filter fun r => r.role == 3) _)
  unfold prologue
  dsimp only
  split
  · exact copied
  · exact copied.trans (write_sameWork ..)

/-! ## Draws, tags and publication change the generation tables alone -/

/-- Two states that differ at most in the generation tables and in the free values used. -/
def OnlyGens (s t : State) : Prop := ∃ gens ctr, t = { s with gens := gens, freeCtr := ctr }

section
variable {s t u : State}

theorem OnlyGens.refl (s : State) : OnlyGens s s := ⟨_, _, rfl⟩

theorem OnlyGens.trans (h : OnlyGens s t) (g : OnlyGens t u) : OnlyGens s u := by
  obtain ⟨_, _, rfl⟩ := h
  obtain ⟨_, _, rfl⟩ := g
  exact ⟨_, _, rfl⟩

theorem OnlyGens.foldl {α : Type} {f : State → α → State} (h : ∀ s x, OnlyGens s (f s x)) (l : List α) (s : State) :
    OnlyGens s (l.foldl f s) := List.foldlRecOn l f (.refl s) fun _ hs x _ => hs.trans (h _ x)

theorem OnlyGens.models (h : OnlyGens s t) : t.models = s.models := by obtain ⟨_, _, rfl⟩ := h; rfl
theorem OnlyGens.cores (h : OnlyGens s t) : t.cores = s.cores := by obtain ⟨_, _, rfl⟩ := h; rfl
theorem OnlyGens.mem (h : OnlyGens s t) : t.mem = s.mem := by obtain ⟨_, _, rfl⟩ := h; rfl

end

theorem onGens_onlyGens (f : GenState → GenState) (s : State) : OnlyGens s (s.onGens f) := ⟨_, _, rfl⟩

theorem onSeq_onlyGens (i : Nat) (f : Seq → Seq) (s : State) : OnlyGens s (s.onSeq i f) := ⟨_, _, rfl⟩

/-- Pages of `n` slots with the tags of slots `a` to `b - 1` set. -/
def tagPages (n a b tag : Nat) (ps : List Page) : List Page := ps.zipIdx.map fun p =>
  { p.1 with tags := p.1.tags.zipIdx.map fun t => if decide (a ≤ p.2 * n + t.2) && decide (p.2 * n + t.2 < b) then tag else t.1 }

/-- Tagging slots of a sequence changes the tags of its own pages. -/
theorem tagSlots_eq (i a b tag : Nat) (s : State) :
    ∃ f : List Page → List Page, tagSlots i a b tag s = s.onSeq i fun q => { q with pages := f q.pages } := by
  have nothing : s = s.onSeq i fun q => { q with pages := id q.pages } := (s.onSeq_id i).symm
  unfold tagSlots
  split
  · exact ⟨id, nothing⟩
  · split
    · exact ⟨id, nothing⟩
    · next m _ =>
      exact ⟨tagPages m.kv.ptok a b tag, rfl⟩

theorem tagSlots_onlyGens (i a b tag : Nat) (s : State) : OnlyGens s (tagSlots i a b tag s) := by
  obtain ⟨f, tagged⟩ := tagSlots_eq i a b tag s
  exact tagged ▸ onSeq_onlyGens ..

theorem tget_map_values {α : Type} (t : Tbl α) (f : α → α) (k : Nat) : tget (t.map fun x => (x.1, f x.2)) k = (tget t k).map f := by
  unfold tget
  induction t with
  | nil => rfl
  | cons x t ih =>
    rw [List.map_cons, List.lookup_cons, List.lookup_cons, ih]
    split <;> rfl

/-- A sequence whose imports that want a frame have its bytes. -/
def keepBytes (l : FrameLoc) (b : Bytes) (q : Seq) : Seq :=
  { q with imports := q.imports.map fun i => if i.loc == l && i.kept.isNone then { i with kept := some b } else i }

theorem takeFrame_seq (l : FrameLoc) (s : State) (j : Nat) :
    (takeFrame l s).seq j = (s.seq j).map (keepBytes l (s.frameBytes l)) :=
  tget_map_values s.gens.seqs (keepBytes l (s.frameBytes l)) j

theorem takeFrame_keeps (l : FrameLoc) (s : State) : SeqsKeep (·.state) s (takeFrame l s) := fun j => by
  rw [takeFrame_seq, Option.map_map]
  rfl

/-- A frame that is drawn: what a lookup keeps of it stays with the imports, and every sequence keeps its state. -/
theorem drawFrame_keeps {slot u : Nat} {vault : Bool} {s t : State} {l : FrameLoc} (h : drawFrame slot vault u s = some (l, t)) :
    OnlyGens s t ∧ SeqsKeep (·.state) s t := by
  unfold drawFrame at h
  split at h
  · cases h
    exact ⟨⟨_, _, rfl⟩, .of_seqs rfl⟩
  · obtain ⟨x, -, taken⟩ := Option.map_eq_some_iff.1 h
    cases taken
    exact ⟨⟨_, _, rfl⟩, takeFrame_keeps _ s⟩

theorem drawPages_keeps (i n : Nat) (s : State) : OnlyGens s (drawPages i n s) ∧ SeqsKeep (·.state) s (drawPages i n s) := by
  have nothing : ∀ s, OnlyGens s s ∧ SeqsKeep (·.state) s s := fun s => ⟨.refl s, .refl s⟩
  induction n with
  | zero => exact nothing s
  | succ n ih =>
    unfold drawPages
    split
    · exact nothing s
    · split
      · exact nothing s
      · dsimp only
        split
        · exact ih
        · split
          · exact ih
          · split
            · exact ih
            · next frame =>
              obtain ⟨gens, state⟩ := drawFrame_keeps frame
              refine ⟨(ih.1.trans gens).trans (onSeq_onlyGens ..), (ih.2.trans state).trans (.onSeq ?_ i _)⟩
              exact fun _ => rfl

theorem bindSeq_onlyGens (m : Model) (i : Nat) (s : State) : OnlyGens s (bindSeq m i s) := by
  unfold bindSeq
  split
  · exact .refl s
  · exact ((onSeq_onlyGens ..).trans (drawPages_keeps ..).1).trans (tagSlots_onlyGens ..)

/-- A chunk that is bound keeps or drops what its sequence refers to, in the state that the sequence has. -/
theorem bindChunk_keeps (i : Nat) (m : Model) (pin : Bool) (s : State) :
    OnlyGens s (bindChunk i m pin s) ∧ SeqsKeep (·.state) s (bindChunk i m pin s) := by
  unfold bindChunk
  extract_lets epoch bound
  have first : SeqsKeep (·.state) s bound := by
    refine .onSeq (fun q => ?_) i s
    split
    · rfl
    · split <;> rfl
  split
  · exact ⟨onSeq_onlyGens .., first⟩
  · refine ⟨(onSeq_onlyGens ..).trans (onSeq_onlyGens ..), first.trans (.onSeq (fun q => ?_) i _)⟩
    split
    · rfl
    · split <;> rfl

theorem domainInst_onlyGens (a d : Nat) (s : State) : OnlyGens s (domainInst a d s).2 := by
  obtain ⟨_, _, found⟩ := domainInst_eq a d s
  exact found ▸ onGens_onlyGens ..

theorem publishInst_onlyGens (q : Seq) (s : State) : OnlyGens s (publishInst q s).2 := by
  unfold publishInst
  split
  · exact domainInst_onlyGens ..
  · split <;> exact .refl s

theorem publishPage_onlyGens (acct slot dom inst epoch quota : Nat) (hash : DWord) (parent : Option Nat) (toks : List Nat)
    (loc : FrameLoc) (s : State) : OnlyGens s (publishPage acct slot dom inst epoch quota hash parent toks loc s) := by
  unfold publishPage
  dsimp only
  split
  · exact .refl s
  · exact onGens_onlyGens ..

theorem publishSeq_onlyGens (i : Nat) (s : State) : OnlyGens s (publishSeq i s) := by
  unfold publishSeq
  split
  · exact .refl s
  · next q _ =>
    split
    · exact .refl s
    · next m _ =>
      have found := publishInst_onlyGens q s
      generalize publishInst q s = r at found ⊢
      obtain ⟨inst, u⟩ := r
      have passed : ∀ n, OnlyGens s (u.onSeq i fun q => { q with published := n }) := fun _ => found.trans (onSeq_onlyGens ..)
      dsimp only
      split
      · exact passed _
      · split
        · exact passed _
        · refine List.foldlRecOn (motive := fun r : State × _ => OnlyGens s r.1) _ _ (passed _) fun r hr j _ => ?_
          split
          · exact hr
          · refine OnlyGens.trans hr ?_
            cases q.pages[j]? with
            | none => exact .refl _
            | some p =>
              dsimp only
              split
              · exact publishPage_onlyGens ..
              · exact .refl _

end Sys2Proof.Machine
end

section
/-!
PROOFS. Prefill launches, first tokens, frames and waves: the model of a group along its commits and its ends, and one equation for each
way an event goes.
-/
namespace Sys2Proof.Machine

/-! ## The models along commits -/

theorem freeTentative_models (i : Nat) (s : State) : (freeTentative i s).models = s.models := by
  unfold freeTentative
  split
  · rfl
  · next q _ =>
    split
    · rfl
    · next m _ => exact (SameWork.foldl (fun s k => scrambleSlot_sameWork q m k s) _ s).models

theorem commitStep_models (i slot0 : Nat) (toks : List Tok) (epoch : Nat) (prefill : Bool) (s : State) :
    (commitStep i slot0 toks epoch prefill s).1.models = s.models := by
  unfold commitStep
  split
  · rfl
  · refine (publishSeq_onlyGens ..).models.trans ((onSeq_onlyGens ..).models.trans ((freeTentative_models ..).trans ?_))
    exact ((onGens_onlyGens ..).trans (tagSlots_onlyGens ..)).models

theorem commitSeq_models (k : Nat) (m : Model) (epoch : Nat) (weights bad : Bool) (i : Nat) (drafts : List (Nat × Word)) (s : State) :
    (commitSeq k m epoch weights bad i drafts s).1.models = s.models := by
  unfold commitSeq
  split
  · rfl
  · next q _ =>
    have read := (engineRead_sameWork .stream q.acct (s.kvSpots q) s).models
    generalize s.engineRead .stream q.acct (s.kvSpots q) = r at read ⊢
    obtain ⟨ok, u⟩ := r
    dsimp only
    split
    · exact read
    · split
      · exact read
      · have step := (stepTokens_sameWork k m epoch q drafts u).models
        generalize stepTokens k m epoch q drafts u = d at step ⊢
        obtain ⟨v, toks, cs⟩ := d
        have counted := ((countConds_sameWork q.acct ((u.acctDies q.acct).getD (q.home / 4) 0) none cs v).models.trans step).trans read
        dsimp only
        split
        · exact counted
        · exact (commitStep_models ..).trans counted

/-! ## A group's model along ends (R259, R272, R274) -/

/-- The model in a window slot satisfies `P`. -/
def AtModel (k : Nat) (P : Model → Prop) (s : State) : Prop := ∃ m, s.model k = some m ∧ P m

/-- A wave without a sequence. -/
def Wave.without (i : Nat) (w : Wave) : Wave := { w with seqs := w.seqs.filter fun x => x.1 != i }

/-- What is said of a model stays true when a sequence leaves its waves, and when its grid stops. -/
structure OutlastsEnds (P : Model → Prop) : Prop where
  leave : ∀ m i, P m →
    P { m with gen := { m.gen with waves := m.gen.waves.map (Wave.without i), running := m.gen.running.map (Wave.without i) } }
  stop : ∀ m, P m → P { m with gen := { applyStaged m.gen with grid := none, waves := [] } }

theorem applyStaged_running (g : GenSet) : (applyStaged g).running = g.running := by
  refine List.foldlRecOn (motive := fun x : GenSet => x.running = g.running) g.staged _ rfl fun x hx y _ => Eq.trans ?_ hx
  split <;> rfl

section
variable {k : Nat} {P : Model → Prop} {s t : State}

theorem AtModel.congr (h : AtModel k P s) (e : t.models = s.models) : AtModel k P t := by
  unfold AtModel State.model at h ⊢
  rwa [e]

theorem AtModel.onSeq (h : AtModel k P s) (i : Nat) (f : Seq → Seq) : AtModel k P (s.onSeq i f) := h.congr rfl

/-- A change of any model that keeps what is said. -/
theorem AtModel.onModel (h : AtModel k P s) (j : Nat) {f : Model → Model} (hf : ∀ m, P m → P (f m)) :
    AtModel k P (s.onModel j f) := by
  obtain ⟨m, hm, hP⟩ := h
  by_cases hj : j = k
  · subst hj
    exact ⟨f m, model_onModel_same hm f, hf m hP⟩
  · exact ⟨m, by rw [State.model_onModel, if_neg hj, hm], hP⟩

variable (out : OutlastsEnds P)
include out

theorem AtModel.setSeqState (h : AtModel k P s) (i : Nat) (st : SeqState) : AtModel k P (setSeqState i st s) := by
  have told : AtModel k P (notifySeq i (s.onSeq i fun q => { q with state := st, tLast := s.mtime })) :=
    h.congr (notifySeq_onlyMail ..).models
  unfold Machine.setSeqState
  dsimp only
  split
  · unfold stopIdleGrid
    split
    · exact told
    · exact told.onModel _ out.stop
  · exact told

theorem AtModel.endSeq (h : AtModel k P s) (i : Nat) (st : SeqState) (cause : Nat) : AtModel k P (endSeq i st cause s) := by
  unfold Machine.endSeq
  split
  · exact h
  · next q _ =>
    have left : AtModel k P (leaveWaves i q.slot (freeTentative i s)) :=
      (h.congr (freeTentative_models ..)).onModel q.slot fun m => out.leave m i
    refine AtModel.congr ?_ ((finishWait_onlyMail ..).trans (finishWait_onlyMail ..)).models
    exact AtModel.setSeqState out (left.onSeq i _) i st

/-- A sequence whose step is over, and whose SEQ_PAUSE waited for it, is PAUSED (R280). -/
theorem AtModel.paused (h : AtModel k P s) (i : Nat) : AtModel k P (finishWait (.seqPause i) .ok []
    (Machine.setSeqState i .paused (s.onSeq i fun q => { q with pausing := false }))) :=
  (AtModel.setSeqState out (h.onSeq i _) i .paused).congr (finishWait_onlyMail ..).models

theorem AtModel.settleSeq (h : AtModel k P s) (e : StepEnd) : AtModel k P (settleSeq e s) := by
  unfold Machine.settleSeq
  split
  · exact h.endSeq out ..
  · split
    · exact h
    · split
      · exact h.paused out _
      · exact h

theorem AtModel.dropWave (h : AtModel k P s) (j : Nat) (w : Wave) : AtModel k P (dropWave j w s) := by
  unfold Machine.dropWave
  extract_lets limit
  refine List.foldlRecOn _ _ h fun u hu x _ => ?_
  extract_lets freed late
  have hlate : AtModel k P late := (hu.congr (freeTentative_models x.1 u)).onSeq x.1 _
  split
  · exact hlate
  · extract_lets die seen
    have hseen : AtModel k P seen := hlate.congr rfl
    split
    · exact hseen.endSeq out ..
    · split
      · exact hseen.paused out _
      · exact hseen

end

end Sys2Proof.Machine
end

section
/-!
PROOFS. One equation or one summary for each way a prefill launch, a first token, a frame or a wave goes.
-/
namespace Sys2Proof.Machine

/-! ## Prefill launches (R269 to R271, R293 to R295) -/

theorem acceptPkg_gens (p : Pkg) (s : State) : (acceptPkg p s).gens = s.gens := by
  unfold acceptPkg addTensors
  split
  · rfl
  · split <;> rfl

theorem acceptPkg_cores (p : Pkg) (s : State) : (acceptPkg p s).cores = s.cores := by
  unfold acceptPkg addTensors
  split
  · rfl
  · split <;> rfl

/-- The package that a launch submits, once its prologue has run: its cores have its phase, and it runs, bound to an epoch. -/
def runLaunch (m : Model) (p : Pkg) (s : State) : State :=
  let u := takePhase p.phase p.cores (prologue p true (acceptPkg p s))
  u.onPkg p.id fun p => { p with state := .running, shadowed := true, tStart := u.mtime, epoch := BitVec.ofNat 64 m.w.epoch }

theorem runLaunch_gens (m : Model) (p : Pkg) (s : State) : (runLaunch m p s).gens = s.gens :=
  (takePhase_keeps State.gens (fun _ _ _ => rfl) ..).trans ((prologue_sameWork ..).gens.trans (acceptPkg_gens ..))

theorem runLaunch_phase {m : Model} {p : Pkg} {s : State} {c : Nat} (mine : c ∈ p.cores) (hc : c < s.cores.length) :
    ((runLaunch m p s).core c).phase = some p.phase := by
  have cores : (prologue p true (acceptPkg p s)).cores = s.cores := (prologue_sameWork ..).cores.trans (acceptPkg_cores ..)
  exact takePhase_phase (s := prologue p true (acceptPkg p s)) (cores.symm ▸ hc) (.inl mine)

/-- The state in which a sequence has launched its chunk up to position `e` as a package. -/
def launchChunk (i : Nat) (q : Seq) (e : Nat) (m : Model) (p : Pkg) (s : State) : State :=
  (runLaunch m p (tagSlots i q.chunkPos e 1 s)).onSeq i fun q => { q with chunk := some (p.id, q.chunkPos, e - q.chunkPos) }

theorem launchChunk_seq {i : Nat} {q : Seq} {s : State} (hq : s.seq i = some q) (e : Nat) (m : Model) (p : Pkg) :
    ∃ x, (launchChunk i q e m p s).seq i = some x ∧ x.chunk = some (p.id, q.chunkPos, e - q.chunkPos) ∧ x.state = q.state := by
  obtain ⟨f, tagged⟩ := tagSlots_eq i q.chunkPos e 1 s
  have held : (runLaunch m p (tagSlots i q.chunkPos e 1 s)).seq i = some { q with pages := f q.pages } := by
    rw [seq_congr (congrArg GenState.seqs (runLaunch_gens ..)), tagged]
    exact seq_onSeq_same hq _
  exact ⟨_, seq_onSeq_same held _, rfl, rfl⟩

theorem launchChunk_phase {i e : Nat} {q : Seq} {m : Model} {p : Pkg} {s : State} {c : Nat} (mine : c ∈ p.cores)
    (hc : c < s.cores.length) : ((launchChunk i q e m p s).core c).phase = some p.phase :=
  runLaunch_phase (m := m) (s := tagSlots i q.chunkPos e 1 s) mine ((tagSlots_onlyGens ..).cores.symm ▸ hc)

section
variable {seq : BitVec 14} {s : State} {q q1 q2 : Seq} {m : Model} {p : Pkg}

/-- The trial package of a template, whose resources a launch of a sequence asks for. -/
def trialPkg (s : State) (q : Seq) (t : Pkg) : Pkg := { t with id := ⟨BitVec.ofNat 10 q.acct, 0⟩, order := s.pkgOrder }

/-- The resources of a template are free for a launch (R270). -/
structure LaunchFree (s : State) (q : Seq) (t : Pkg) : Prop where
  pools : poolsOk s (trialPkg s q t) = true
  regions : ∀ r ∈ t.regions, noConflict s (trialPkg s q t) r = true
  phase : (trialPkg s q t).phaseOpen s = true
  model : (trialPkg s q t).modelOpen s = true
  roll : (trialPkg s q t).waitsRoll s = false

/-- A chunk that nothing holds back launches. -/
theorem execPrefillLaunch_launches (hq : s.seq seq.toNat = some q) (hm : s.model q.slot = some m) (hp : m.gen.template = some p)
    (launchable : q.launchable = true) (first : ∀ x ∈ s.seqsOf q.slot, x.2.launchable = true → q.order ≤ x.2.order)
    (free : LaunchFree s q p) (serves : s.acctServes q.acct = true) (p0 : s.chip.power.pstate = 0) (ready : m.w.ready = true)
    (copied : m.w.gencopy = true) (awake : p.dies.any s.chip.power.override.halts = false)
    (h1 : (bindChunk seq.toNat m (s.acct q.acct).epochPin s).seq seq.toNat = some q1)
    (h2 : (drawPages seq.toNat (((q1.chunkEnd m).1 - 1) / m.kv.ptok + 1)
      (bindChunk seq.toNat m (s.acct q.acct).epochPin s)).seq seq.toNat = some q2)
    (room : (launchPkg (drawPages seq.toNat (((q1.chunkEnd m).1 - 1) / m.kv.ptok + 1)
      (bindChunk seq.toNat m (s.acct q.acct).epochPin s)) q2 m p).2.length ≤ (p.regions.headD ⟨0, 0, 0, 0, 0, 0⟩).len) :
    execPrefillLaunch seq s = .next (launchChunk seq.toNat q2 (q1.chunkEnd m).1 m
      (launchPkg (drawPages seq.toNat (((q1.chunkEnd m).1 - 1) / m.kv.ptok + 1)
        (bindChunk seq.toNat m (s.acct q.acct).epochPin s)) q2 m p).1
      (drawPages seq.toNat (((q1.chunkEnd m).1 - 1) / m.kv.ptok + 1) (bindChunk seq.toNat m (s.acct q.acct).epochPin s))) := by
  have earlier : ((s.seqsOf q.slot).any fun x => x.2.launchable && decide (x.2.order < q.order)) = false := by
    simp only [List.any_eq_false, Bool.and_eq_true, decide_eq_true_eq, not_and, Nat.not_lt]
    exact first
  have open_ : (poolsOk s (trialPkg s q p) && (p.regions.all fun r => noConflict s (trialPkg s q p) r) &&
      (trialPkg s q p).phaseOpen s && (trialPkg s q p).modelOpen s && !(trialPkg s q p).waitsRoll s) = true := by
    rw [free.pools, List.all_eq_true.2 free.regions, free.phase, free.model, free.roll]; rfl
  have goes : (!q.launchable || ((s.seqsOf q.slot).any fun x => x.2.launchable && decide (x.2.order < q.order)) ||
      !(poolsOk s (trialPkg s q p) && (p.regions.all fun r => noConflict s (trialPkg s q p) r) &&
        (trialPkg s q p).phaseOpen s && (trialPkg s q p).modelOpen s && !(trialPkg s q p).waitsRoll s) ||
      !s.acctServes q.acct || s.chip.power.pstate != 0 || !m.w.ready || !m.w.gencopy ||
      p.dies.any s.chip.power.override.halts) = false := by
    rw [launchable, earlier, open_, serves, p0, ready, copied, awake]; rfl
  unfold execPrefillLaunch
  dsimp only
  rw [hq]
  dsimp only
  rw [hm]
  dsimp only
  rw [hp]
  refine check_passed goes ?_
  rw [h1]
  dsimp only
  rw [h2]
  exact check_passed (decide_eq_false (Nat.not_lt.2 room)) rfl

end

/-! ## First tokens (R270, R276) -/

section
variable {seq : BitVec 14} {s : State} {q : Seq} {m : Model} {p : Pkg} {id : PkgId} {pos len : Nat}
  (hq : s.seq seq.toNat = some q) (chunk : q.chunk = some (id, pos, len)) (hm : s.model q.slot = some m) (hp : s.pkg id = some p)
  (done : p.state = .done) (ok : p.status = .ok) (uncancelled : q.cancelBy = none) (unexpired : q.expired = false)
  (serves : s.acctServes q.acct = true)
include hq chunk hm hp done ok uncancelled unexpired serves

/-- The end of a chunk before the last commits its slots. -/
theorem execFirstTokenCommit_commits (short : pos + len < q.pos) : execFirstTokenCommit seq s = .next (publishSeq seq.toNat
    (tagSlots seq.toNat pos (pos + len) 2 (s.onSeq seq.toNat fun q => { q with chunk := none, chunkPos := pos + len }))) := by
  have inside : ¬q.pos ≤ pos + len := Nat.not_le.2 short
  simp [execFirstTokenCommit, hq, chunk, hm, hp, done, ok, uncancelled, unexpired, serves, inside, short]

/-- The end of the last chunk commits the first token, and what follows depends on whether it meets a stop condition. -/
theorem execFirstTokenCommit_delivers (last : q.pos ≤ pos + len) (ring : s.hostWaits m.gen.ring = false)
    (sampled : fieldAt p.sampled 0x3C 4 = 0) {r : State × List Bytes × Option Nat}
    (hr : r = commitStep seq.toNat pos [⟨fieldAt p.sampled 0x30 4, BitVec.ofNat 32 (fieldAt p.sampled 0x34 4), false⟩] p.epoch.toNat
      true (s.onSeq seq.toNat fun q => { q with chunk := none, chunkPos := pos + len })) :
    execFirstTokenCommit seq s = .next (match r.2.2 with
      | some c => endSeq seq.toNat .done c (writeRing q.slot r.2.1 r.1)
      | none => enterDecode seq.toNat (writeRing q.slot r.2.1 r.1)) := by
  subst hr
  have inside : ¬pos + len < q.pos := Nat.not_lt.2 last
  simp [execFirstTokenCommit, hq, chunk, hm, hp, done, ok, uncancelled, unexpired, serves, inside, ring, sampled] <;> rfl

end

/-! ## Frames (R263, R271, R272) -/

theorem length_le_of_mem_chunks {α : Type} {n : Nat} {l c : List α} (h : c ∈ chunks n l) : c.length ≤ n := by
  have fuelled : ∀ fuel (l : List α), c ∈ chunksFuel n fuel l → c.length ≤ n := by
    intro fuel
    induction fuel with
    | zero => exact fun l h => absurd h List.not_mem_nil
    | succ fuel ih =>
      intro l h
      unfold chunksFuel at h
      split at h
      · exact absurd h List.not_mem_nil
      · rcases List.mem_cons.1 h with rfl | h
        · exact List.length_take_le ..
        · exact ih _ h
  exact fuelled _ l h

/-- Choosing the sequences of a frame counts what the ring holds back, and what a failed read of the ring found. -/
theorem frameSeqs_keeps (k : Nat) (m : Model) (s : State) :
    (frameSeqs k m s).1.models = s.models ∧ (frameSeqs k m s).1.mem = s.mem := by
  unfold frameSeqs
  extract_lets xs space u r
  have read : u.models = s.models ∧ u.mem = s.mem := by
    unfold u
    split
    · exact ⟨(discover_sameWork ..).models, discover_mem ..⟩
    · exact ⟨rfl, rfl⟩
  refine List.foldlRecOn (motive := fun r : State × _ => r.1.models = s.models ∧ r.1.mem = s.mem) xs _ read fun r hr x _ => ?_
  split <;> exact hr

/-- A row that ends in a state says what that state's model satisfies. -/
theorem AtModel.next {k : Nat} {P : Model → Prop} {t : State} (h : AtModel k P t) :
    ∃ u m', (.next t : Result State) = .next u ∧ u.model k = some m' ∧ P m' := by
  obtain ⟨m', hm', hP⟩ := h
  exact ⟨t, m', rfl, hm', hP⟩

section
variable {slot : BitVec 6} {s : State} {m : Model} (hm : s.model slot.toNat = some m)
include hm

/-- A frame of a group that serves moves the grid by its length, and forms waves of at most WAVE sequences. -/
theorem execFrameStart_forms {g : Nat × Nat} (grid : m.gen.grid = some g) (live : ∃ x ∈ s.seqsOf slot.toNat, x.2.loads = true)
    (still : m.gen.running = none) (serves : s.acctServes m.map.acct = true) (ring : s.hostWaits m.gen.ring = false) :
    ∃ t m', execFrameStart slot s = .next t ∧ t.mem = s.mem ∧ t.model slot.toNat = some m' ∧ m'.gen.staged = [] ∧
      m'.gen.grid = some (g.1 + g.2, m'.gen.period) ∧ m'.gen.running = none ∧ m'.w = m.w ∧
      ∀ w ∈ m'.gen.waves, w.seqs.length ≤ max 1 m'.gen.wave := by
  have live : ((s.seqsOf slot.toNat).any fun x => x.2.loads) = true := List.any_eq_true.2 live
  have staged := model_onModel_same hm fun m => { m with gen := applyStaged m.gen }
  obtain ⟨models, mem⟩ := frameSeqs_keeps slot.toNat { m with gen := applyStaged m.gen }
    (s.onModel slot.toNat fun m => { m with gen := applyStaged m.gen })
  simp only [execFrameStart, hm, grid, live, still, serves, ring, staged, Option.isSome_none, Bool.not_true, Bool.or_self,
    Bool.false_eq_true, if_false]
  generalize frameSeqs slot.toNat { m with gen := applyStaged m.gen }
    (s.onModel slot.toNat fun m => { m with gen := applyStaged m.gen }) = r at models mem ⊢
  have chosen : r.1.model slot.toNat = some { m with gen := applyStaged m.gen } := by rw [State.model, models]; exact staged
  refine ⟨_, _, rfl, mem, model_onModel_same chosen _, rfl, rfl, rfl, rfl, fun w hw => ?_⟩
  rcases List.mem_append.1 hw with hw | hw
  all_goals
    obtain ⟨c, hc, rfl⟩ := List.mem_map.1 hw
    exact (List.length_map ..).trans_le (length_le_of_mem_chunks hc)

/-! ## Waves (R271, R273, R274, R277) -/

/-- The sequences of a wave that it still finds in DECODE. -/
def liveOf (s : State) (w : Wave) : List (Nat × Seq) := w.seqs.filterMap fun x => match s.seq x.1 with
  | some q => if q.state == .decode && !q.pausing then some (x.1, q) else none
  | none => none

omit hm in
theorem exists_of_mem_liveOf {w : Wave} {y : Nat × Seq} (h : y ∈ liveOf s w) : ∃ x ∈ w.seqs, x.1 = y.1 := by
  obtain ⟨x, hx, found⟩ := List.mem_filterMap.1 h
  refine ⟨x, hx, ?_⟩
  split at found
  · split at found
    · cases found; rfl
    · cases found
  · cases found

/-- The epoch that a wave binds: that of the first of its sequences (R279). -/
def waveEpoch (m : Model) (live : List (Nat × Seq)) : Nat := match live with
  | [] => m.w.epoch
  | x :: _ => x.2.pinned.getD m.w.epoch

/-- A wave as it starts: with its live sequences that have the epoch it binds, and their drafts. -/
def boundWave (s : State) (m : Model) (w : Wave) : Wave :=
  ⟨((liveOf s w).filter fun x => x.2.pinned.getD m.w.epoch == waveEpoch m (liveOf s w)).map fun x => (x.1, x.2.drafts),
    waveEpoch m (liveOf s w)⟩

omit hm in
theorem exists_of_mem_boundWave {w : Wave} {x : Nat × List (Nat × Word)} (h : x ∈ (boundWave s m w).seqs) :
    ∃ y ∈ w.seqs, y.1 = x.1 := by
  obtain ⟨y, hy, rfl⟩ := List.mem_map.1 h
  exact exists_of_mem_liveOf (List.mem_of_mem_filter hy)

/-- The first wave of a group that serves starts, with sequences of its own. -/
theorem execWaveStart_starts {w : Wave} {rest : List Wave} (waves : m.gen.waves = w :: rest) (still : m.gen.running = none)
    (unshut : m.w.waveShut = false) (copied : m.w.gencopy = true) (group : groupServes s m = true)
    (serves : s.acctServes m.map.acct = true) (p0 : s.chip.power.pstate = 0) :
    ∃ t m', execWaveStart slot s = .next t ∧ t.model slot.toNat = some m' ∧ m'.gen.waves = rest ∧ m'.w = m.w ∧
      ∀ w', m'.gen.running = some w' → w'.seqs ≠ [] ∧ ∀ x ∈ w'.seqs, ∃ y ∈ w.seqs, y.1 = x.1 := by
  have goes : (m.gen.running.isSome || m.w.waveShut || !m.w.gencopy || !groupServes s m || !s.acctServes m.map.acct ||
      s.chip.power.pstate != 0) = false := by
    rw [still, unshut, copied, group, serves, p0]; rfl
  have bound : ∀ xs : List (Nat × Seq), (xs.foldl (fun s x => bindSeq m x.1 s) s).model slot.toNat = some m := fun xs => by
    rw [State.model, (OnlyGens.foldl (fun s (x : Nat × Seq) => bindSeq_onlyGens m x.1 s) xs s).models]
    exact hm
  unfold execWaveStart
  dsimp only
  rw [hm]
  dsimp only
  rw [waves]
  dsimp only
  rw [goes]
  refine ⟨_, _, rfl, model_onModel_same (bound _) fun x => { x with gen := { x.gen with
    waves := rest, running := if (boundWave s m w).seqs.isEmpty then none else some (boundWave s m w) } }, rfl, rfl, fun w' started => ?_⟩
  dsimp only at started
  split at started
  · cases started
  · next some =>
    cases started
    exact ⟨by simpa using some, fun x hx => exists_of_mem_boundWave hx⟩

/-- The commit point leaves no wave running. -/
theorem execWaveCommit_ends {w : Wave} (bad : List (BitVec 14)) (run : m.gen.running = some w) (group : groupRuns s m = true)
    (serves : s.acctServes m.map.acct = true) (ring : s.hostWaits m.gen.ring = false) :
    ∃ t m', execWaveCommit slot bad s = .next t ∧ t.model slot.toNat = some m' ∧ m'.gen.running = none ∧ m'.w = m.w := by
  have goes : (!groupRuns s m || !s.acctServes m.map.acct || s.hostWaits m.gen.ring) = false := by rw [group, serves, ring]; rfl
  have outlasts : OutlastsEnds fun x => x.gen.running = none ∧ x.w = m.w := by
    refine ⟨fun x i ⟨run, w⟩ => ⟨by rw [run]; rfl, w⟩, fun x ⟨run, w⟩ => ⟨(applyStaged_running _).trans run, w⟩⟩
  have start := model_onModel_same hm fun m => { m with gen := { m.gen with running := none } }
  unfold execWaveCommit
  dsimp only
  rw [hm]
  dsimp only
  rw [run]
  dsimp only
  rw [goes]
  have read : AtModel slot.toNat (fun x => x.gen.running = none ∧ x.w = m.w) (State.engineRead .stream m.map.acct
      (Copy.spots ⟨slot.toNat, m.map, m.w, w.epoch⟩)
      (meterWave m (s.onModel slot.toNat fun m => { m with gen := { m.gen with running := none } }))).2 :=
    AtModel.congr ⟨_, start, rfl, rfl⟩ (engineRead_sameWork ..).models
  refine AtModel.next (P := fun x => x.gen.running = none ∧ x.w = m.w) ?_
  refine List.foldlRecOn (motive := AtModel slot.toNat _) _ _ (AtModel.congr ?_ (writeRing_sameWork ..).models) fun u hu e _ =>
    AtModel.settleSeq outlasts hu e
  refine List.foldlRecOn (motive := fun r : State × List StepEnd => AtModel slot.toNat _ r.1) _ _ read fun r hr x _ => ?_
  exact hr.congr (commitSeq_models ..)

theorem stopWave_model : (stopWave slot.toNat s).model slot.toNat = some { m with gen := { m.gen with running := none } } := by
  unfold stopWave
  rw [hm]
  dsimp only
  split
  · have run := model_onModel_same hm fun m => { m with gen := { m.gen with running := none } }
    exact run
  · next still =>
    have still : m.gen.running = none := by simpa using still
    rw [hm, ← still]

/-- The end of a frame leaves no wave, and the grid as it was or stopped. -/
theorem execFrameEnd_ends : ∃ t m', execFrameEnd slot s = .next t ∧ t.model slot.toNat = some m' ∧ m'.gen.running = none ∧
    m'.gen.waves = [] ∧ m'.w = m.w ∧ (m'.gen.grid = m.gen.grid ∨ m'.gen.grid = none) := by
  have outlasts : OutlastsEnds fun x => x.gen.running = none ∧ x.gen.waves = [] ∧ x.w = m.w ∧
      (x.gen.grid = m.gen.grid ∨ x.gen.grid = none) := by
    refine ⟨fun x i ⟨run, waves, w, grid⟩ => ?_, fun x ⟨run, _, w, _⟩ => ?_⟩
    · exact ⟨by rw [run]; rfl, by rw [waves]; rfl, w, grid⟩
    · exact ⟨(applyStaged_running _).trans run, rfl, w, .inr rfl⟩
  unfold execFrameEnd
  dsimp only
  rw [hm]
  dsimp only
  have start := model_onModel_same (stopWave_model hm) fun m => { m with gen := { m.gen with waves := [] } }
  refine AtModel.next (P := fun x => x.gen.running = none ∧ x.gen.waves = [] ∧ x.w = m.w ∧
    (x.gen.grid = m.gen.grid ∨ x.gen.grid = none)) ?_
  exact List.foldlRecOn (motive := AtModel slot.toNat _) _ _ ⟨_, start, rfl, rfl, rfl, .inl rfl⟩ fun u hu w _ =>
    AtModel.dropWave outlasts hu slot.toNat w

end

/-- Settles O37: each row goes as its equation or its summary above says; a launch keeps the state of its sequence, for binding and
drawing do. -/
theorem generationRuns : Obligations.GenerationRuns := by
  unfold Obligations.GenerationRuns
  refine ⟨?launch, ?commit, fun slot s m hm => ⟨?start, ?wave, ?commits, execFrameEnd_ends hm⟩⟩
  case launch =>
    intro seq s q q1 q2 m p hq hm hp launchable first free serves p0 ready copied awake v1 h1 v2 h2 room
    obtain ⟨pools, regions, phase, model, roll⟩ := free
    have row := execPrefillLaunch_launches hq hm hp launchable first ⟨pools, regions, phase, model, roll⟩ serves p0 ready copied awake
      h1 h2 room
    have prefill : q.state = .prefill := by
      simp only [Seq.launchable, Bool.and_eq_true, beq_iff_eq] at launchable
      exact launchable.1.1.1
    have kept : q2.state = q.state := by
      obtain ⟨x, hx, same⟩ := ((bindChunk_keeps seq.toNat m (s.acct q.acct).epochPin s).2.trans
        (drawPages_keeps seq.toNat (((q1.chunkEnd m).1 - 1) / m.kv.ptok + 1) v1).2).some hq
      cases hx.symm.trans h2
      exact same
    obtain ⟨x, hx, chunk, state⟩ := launchChunk_seq h2 (q1.chunkEnd m).1 m (launchPkg v2 q2 m p).1
    exact ⟨_, x, row, hx, chunk, state.trans (kept.trans prefill), fun c mine hc => launchChunk_phase mine hc⟩
  case commit =>
    intro seq s q m p id pos len hq chunk hm hp done ok uncancelled unexpired serves v
    refine ⟨execFirstTokenCommit_commits hq chunk hm hp done ok uncancelled unexpired serves, ?_⟩
    intro last ring sampled r
    have row := execFirstTokenCommit_delivers hq chunk hm hp done ok uncancelled unexpired serves last ring sampled (r := r) rfl
    exact ⟨fun none => by rw [none] at row; exact row, fun c some => by rw [some] at row; exact row⟩
  case start => exact fun g grid live => execFrameStart_forms hm grid live
  case wave => exact fun w rest waves still unshut copied => execWaveStart_starts hm waves still unshut copied
  case commits => exact fun w bad run => execWaveCommit_ends hm bad run

end Sys2Proof.Machine
end

section
/-!
PROOFS. KV pools and sharing domains (R286 to R288, R296): a pool of granted frames is recorded, and the commands of the Index and of
domains pass their checks and change the tables as they say.
-/
namespace Sys2Proof.Machine

/-! ## Pools (R288) -/

/-- A model with a pool in a member's quarter, or in the Vault of a die. -/
def withPool (vault : Bool) (unit : Nat) (p : Pool) (m : Model) : Model :=
  { m with kv := if vault then { m.kv with vaults := tset m.kv.vaults unit p } else { m.kv with pools := tset m.kv.pools unit p } }

/-- Frames of a unit that no page, entry or lookup uses. -/
def UnusedFrames (u : State) (k : Nat) (vault : Bool) (unit : Nat) : Prop :=
  ∀ l ∈ framesOf u k vault unit, u.frameHeld l = false ∧ u.frameIndexed l = false ∧ u.frameWanted l = false

section
variable {c : Cmd} {u : State} {k : Nat} {m : Model}

/-- A pool of granted frames in their place is recorded for an idle model. -/
theorem setPool_records {vault ok : Bool} {unit : Nat} {inPlace : Nat → Nat → Bool} (tail : cmdTail c 16 = true)
    (zero : cmdZ c 3 1 = true) (hok : ok = true) (addr : addrOk (cmdU c 8 8) = true) (aligned : cmdU c 8 8 % 64 = 0)
    (hk : u.slotOf (cmdA c) (cmdU c 0 2) = some k) (hm : u.model k = some m) (row : m.kv.kvRow ≠ 0)
    (member : (vault || m.map.members.contains unit) = true) (frames : 0 < cmdU c 4 4)
    (granted : u.inGrants (cmdA c) (cmdU c 8 8) (cmdU c 4 4 * m.frameBytes) = true)
    (place : inPlace (cmdU c 8 8) (cmdU c 4 4 * m.frameBytes) = true) (idle : u.modelBusy k = false)
    (unused : UnusedFrames u k vault unit) :
    setPool c vault ok unit inPlace u = .done .ok [] (u.onModel k (withPool vault unit ⟨cmdU c 8 8, cmdU c 4 4⟩)) := by
  have fields : (!cmdTail c 16 || !cmdZ c 3 1 || !ok || !addrOk (cmdU c 8 8) || cmdU c 8 8 % 64 != 0) = false := by
    rw [tail, zero, hok, addr, aligned]; rfl
  have shape : (m.kv.kvRow == 0 || !(vault || m.map.members.contains unit)) = false := by
    rw [beq_eq_false_iff_ne.2 row, member]; rfl
  have range : (cmdU c 4 4 != 0 && !(u.inGrants (cmdA c) (cmdU c 8 8) (cmdU c 4 4 * m.frameBytes) &&
      inPlace (cmdU c 8 8) (cmdU c 4 4 * m.frameBytes))) = false := by
    rw [granted, place]; exact Bool.and_false _
  have used : ((framesOf u k vault unit).any fun l => u.frameHeld l || u.frameIndexed l || u.frameWanted l) = false := by
    refine List.any_eq_false.2 fun l hl => ?_
    obtain ⟨held, indexed, wanted⟩ := unused l hl
    simp [held, indexed, wanted]
  have nonempty : (cmdU c 4 4 == 0) = false := beq_eq_false_iff_ne.2 frames.ne'
  unfold setPool cmdSlot
  refine check_passed fields ?_
  rw [hk]
  dsimp only
  rw [hm]
  refine check_passed shape (check_passed range (check_passed (by rw [idle, used]; rfl) ?_))
  rw [nonempty]
  rfl

end

/-! ## Demotion (R305) -/

/-- A free value changes nothing that an access meets. -/
theorem free_meets (s : State) (rs : List (Nat × Nat)) : s.free.2.meets rs = s.meets rs := rfl

/-- A page whose bytes read without error is read, and asks for its credits. -/
theorem readPage_clear {acct : Nat} {l : FrameLoc} {s : State}
    (clear : s.meets [(s.pageAddr l, (s.frameBytes l).length)] = .clear) :
    readPage acct l s = (true, s.frameBytes l, s.charge .kvMove acct [(s.pageAddr l, (s.frameBytes l).length)]) := by
  simp only [readPage, State.engineRead, clear]

/-- A choice by a free value among some frames is one of them. -/
theorem getD_mod_mem {α : Type} (l : α) (ls : List α) (n : Nat) : (l :: ls).getD (n % (ls.length + 1)) l ∈ l :: ls := by
  have inside : n % (ls.length + 1) < (l :: ls).length := Nat.mod_lt _ ls.length.succ_pos
  rw [List.getD_eq_getElem _ _ inside]
  exact List.getElem_mem inside

section
variable {slot : BitVec 6} {member : BitVec 5} {s : State} {m : Model} {e : IdxEntry} (hm : s.model slot.toNat = some m)
  (crowded : m.kv.cacheHi * (framesOf s slot.toNat false member.toNat).length <
    (cachedFrames s slot.toNat false member.toNat).length * 100)
  (oldest : oldestEntry s ((cachedFrames s slot.toNat false member.toNat).filter fun l => !s.frameWanted l) = some e)
include hm crowded oldest

/-- Where no Vault frame of the die is free, the oldest entry of a member over CACHE_HI goes. -/
theorem execDemotion_drops (full : freeFrames s slot.toNat true (member.toNat / 4) = []) :
    execDemotion slot member s = .next (dropEntries (fun x => x.id == e.id) s) := by
  unfold execDemotion
  dsimp only
  rw [hm]
  refine check_passed (decide_eq_false (Nat.not_le.2 crowded)) ?_
  rw [oldest]
  dsimp only
  rw [full, ite_self]

/-- Where VCACHE_HI leaves room and the bytes read, the oldest entry of a member over CACHE_HI moves to a free Vault frame. -/
theorem execDemotion_moves (free : freeFrames s slot.toNat true (member.toNat / 4) ≠ [])
    (room : ((cachedFrames s slot.toNat true (member.toNat / 4)).length + 1) * 100 ≤
      m.kv.vcacheHi * (framesOf s slot.toNat true (member.toNat / 4)).length)
    (clear : s.meets [(s.pageAddr e.loc, (s.frameBytes e.loc).length)] = .clear) :
    ∃ l ∈ freeFrames s slot.toNat true (member.toNat / 4), ∃ t, execDemotion slot member s = .next t ∧
      t.gens.index = s.gens.index.map fun x => if x.id == e.id then { x with loc := l } else x := by
  obtain ⟨l, ls, frames⟩ := List.exists_cons_of_ne_nil free
  have read := readPage_clear (acct := e.acct) (l := e.loc) (s := s.free.2) ((free_meets ..).trans clear)
  refine ⟨(l :: ls).getD (s.free.1.toNat % (ls.length + 1)) l, ?free, ?t, ?row, ?index⟩
  case free =>
    rw [frames]
    exact getD_mod_mem ..
  case row =>
    unfold execDemotion
    dsimp only
    rw [hm]
    refine check_passed (decide_eq_false (Nat.not_le.2 crowded)) ?_
    rw [oldest]
    dsimp only
    rw [decide_eq_true room, if_pos rfl, frames]
    dsimp only
    rw [read]
    rfl
  case index => rfl

end

/-! ## The commands of KV pools and the Index (R286 to R288, R303) -/

/-- The entries that remain are those that are not removed. -/
theorem mem_dropEntries_index {p : IdxEntry → Bool} {s : State} {e : IdxEntry} :
    e ∈ (dropEntries p s).gens.index ↔ e ∈ s.gens.index ∧ ¬p e = true := by
  simp [dropEntries, State.onGens]

/-- Settles O17: each command passes its checks on the caller's model, and a demotion drops or moves the oldest entry. -/
theorem kvCommandsComplete : Obligations.KvCommandsComplete := by
  unfold Obligations.KvCommandsComplete
  refine ⟨?model, ?pool, ?vault, ?flush, ?query, fun slot member s m e hm => ?demotion⟩
  case model =>
    intro c s u k h tail zero value hk idle
    have fields : (!cmdTail c 16 || !cmdZ c 3 5 || !kvValueOk (cmdU c 2 1) (cmdU c 8 8)) = false := by rw [tail, zero, value]; rfl
    have free : (decide (cmdU c 2 1 ≤ 3) && (u.modelBusy k || u.modelPages k)) = false := by
      rcases idle with late | ⟨busy, pages⟩
      · rw [decide_eq_false (Nat.not_le.2 late)]; rfl
      · rw [busy, pages]; exact Bool.and_false _
    change execKvModelSet c s = _
    refine runCmd_ok h (check_passed fields ?_)
    rw [cmdSlot, hk]
    exact check_passed free rfl
  case pool =>
    intro c s u k m h tail zero die se least most addr aligned hk hm row member frames granted place idle unused
    change execKvPoolSet c s = _
    exact runCmd_ok h (setPool_records tail zero (by simp [least, most, die]) addr aligned hk hm row
      (by simpa using member) frames granted place idle unused)
  case vault =>
    intro c s u k off off' m h tail zero die most addr aligned hk hm row frames granted first last idle unused
    change execKvVaultSet c s = _
    refine runCmd_ok h (setPool_records tail zero (decide_eq_true most) addr aligned hk hm row rfl frames granted ?place idle unused)
    case place =>
      rw [first, last]
      simp [die]
  case flush =>
    intro c s u k h tail hk
    refine ⟨dropEntries (fun e => e.acct == cmdA c && e.slot == k) u, ?_, fun e => ?_, rfl⟩
    · change execKvFlush c s = _
      refine runCmd_ok h (need_met tail ?_)
      rw [cmdSlot, hk]
    · rw [mem_dropEntries_index, Bool.and_eq_true, beq_iff_eq, beq_iff_eq]
  case query =>
    intro c s u k h tail hk
    refine ⟨?counts, ?row, ?length⟩
    case row =>
      change execKvPoolQuery c s = _
      refine runCmd_ok h (need_met tail ?_)
      rw [cmdSlot, hk]
    case length => simp
  case demotion =>
    intro cached crowded oldest
    exact ⟨execDemotion_drops hm crowded oldest, execDemotion_moves hm crowded oldest⟩

/-! ## Sharing domains (R296) -/

/-- The lowest free number of a domain. -/
theorem lowestDomain {u : State} {n : Nat} (least : 1 ≤ n) (most : n ≤ 1023) (free : tget u.gens.domains n = none)
    (taken : ∀ k, 1 ≤ k → k < n → (tget u.gens.domains k).isSome) :
    (((List.range 1023).map (· + 1)).find? fun n => (tget u.gens.domains n).isNone) = some n := by
  obtain ⟨i, rfl⟩ := Nat.exists_eq_add_of_le' least
  rw [List.find?_map, Option.map_eq_some_iff]
  refine ⟨i, List.find?_range_eq_some.2 ⟨?_, List.mem_range.2 most, fun j hj => ?_⟩, rfl⟩
  · rw [Function.comp_apply, free]; rfl
  · simpa using taken (j + 1) j.succ_pos (Nat.succ_lt_succ hj)

/-- Of a domain that an account has left, neither a member nor a grant is the account's. -/
theorem Domain.leave_without {d d' : Domain} {a : Nat} (left : d.leave a = some d') :
    a ∉ d'.members ∧ ∀ g ∈ d'.grants, g.1 ≠ a := by
  simp only [Domain.leave, Option.ite_none_left_eq_some] at left
  obtain ⟨-, same⟩ := left
  cases same
  simp

/-- No domain of the number keeps the account that has left it. -/
theorem leaveDomain_without {n a : Nat} {s : State} {x : Nat × Domain} (hx : x ∈ (leaveDomain n a s).gens.domains) (hn : x.1 = n) :
    a ∉ x.2.members ∧ ∀ g ∈ x.2.grants, g.1 ≠ a := by
  obtain ⟨y, -, left⟩ := List.mem_filterMap.1 hx
  by_cases named : y.1 = n
  · rw [if_pos (beq_iff_eq.2 named)] at left
    obtain ⟨d, hd, same⟩ := Option.map_eq_some_iff.1 left
    cases same
    exact Domain.leave_without hd
  · rw [if_neg (by simpa using named)] at left
    cases left
    exact absurd hn named

/-- The entries that remain are those of other domains and of other accounts. -/
theorem mem_leaveDomain_index {n a : Nat} {s : State} {e : IdxEntry} :
    e ∈ (leaveDomain n a s).gens.index ↔ e ∈ s.gens.index ∧ ¬(e.dom = n ∧ e.acct = a) := by
  simp [leaveDomain, State.onGens, -not_and, not_and_or]

/-- A sequence publishes in a shared domain exactly where the membership that it was admitted under still stands. -/
theorem publishInst_shared {q : Seq} {s : State} {d : Domain} {inst stamp : Nat} (shared : q.domain ≠ 0)
    (hd : tget s.gens.domains q.domain = some d) (joined : q.joined = some (inst, stamp)) :
    publishInst q s =
      (if q.acct ∈ d.members ∧ d.inst = inst ∧ tget d.stamps q.acct = some stamp then some inst else none, s) := by
  simp [publishInst, shared, hd, joined, and_assoc]

/-- Settles O18: each command passes its checks and leaves the domain as it says, and publication asks whether the membership
of the admission still stands. -/
theorem kvDomainCommandsComplete : Obligations.KvDomainCommandsComplete := by
  unfold Obligations.KvDomainCommandsComplete
  have numbered : ∀ {c : Cmd} {k : Nat}, cmdTail c k = true → 1 ≤ cmdU c 0 2 → cmdU c 0 2 ≤ 1023 →
      (!cmdTail c k || cmdU c 0 2 == 0 || decide (1023 < cmdU c 0 2)) = false := fun tail least most => by
    rw [tail, beq_eq_false_iff_ne.2 (Nat.one_le_iff_ne_zero.1 least), decide_eq_false (Nat.not_lt.2 most)]; rfl
  refine ⟨?create, ?grant, ?join, ?leave, ?publish⟩
  case create =>
    intro c s u n h tail least most free taken quota
    change execKvDomainCreate c s = _
    refine runCmd_ok h (need_met tail ?_)
    rw [lowestDomain least most free taken]
    exact check_passed (decide_eq_false (Nat.not_le.2 quota)) rfl
  case grant =>
    intro c s u d h tail least most account hd member
    have fields : (!cmdTail c 4 || cmdU c 0 2 == 0 || decide (1023 < cmdU c 0 2) || decide (1023 < cmdU c 2 2)) = false := by
      rw [numbered tail least most, decide_eq_false (Nat.not_lt.2 account)]; rfl
    change execKvDomainGrant c s = _
    refine runCmd_ok h (check_passed fields ?_)
    rw [hd]
    refine need_met (List.contains_iff_mem.2 member) ?_
    simp only [List.contains_iff_mem]
    rfl
  case join =>
    intro c s u d by_ h tail least most hd granted left
    have invited : (d.grants.any fun g => g.2 == cmdA c) = true := List.any_eq_true.2 ⟨_, granted, beq_self_eq_true _⟩
    change execKvDomainJoin c s = _
    refine runCmd_ok h (check_passed (numbered tail least most) ?_)
    rw [hd]
    refine need_met invited ?_
    simp only [List.contains_iff_mem]
    rfl
  case leave =>
    intro c s u d h tail least most hd member
    refine ⟨leaveDomain (cmdU c 0 2) (cmdA c) u, ?_, fun x => leaveDomain_without, fun e => mem_leaveDomain_index, rfl⟩
    change execKvDomainLeave c s = _
    refine runCmd_ok h (check_passed (numbered tail least most) ?_)
    rw [hd]
    exact need_met (List.contains_iff_mem.2 member) rfl
  case publish =>
    intro q s d inst stamp shared hd joined
    rw [publishInst_shared shared hd joined]
    refine ⟨fun member same stamped => by rw [if_pos ⟨member, same, stamped⟩], fun gone => ?_⟩
    have ended : ¬(q.acct ∈ d.members ∧ d.inst = inst ∧ tget d.stamps q.acct = some stamp) := by
      rintro ⟨member, same, stamped⟩
      rcases gone with left | createdAnew | joinedAnew
      · exact left member
      · exact createdAnew same
      · exact joinedAnew stamped
    rw [if_neg ended]

end Sys2Proof.Machine
end

section
/-!
PROOFS. WT_CREATE: the tables that it reads, the checks of R315 on what they hold, and the model that it enters.
-/
namespace Sys2Proof.Machine

/-! ## Reads that change nothing but the credits that they ask for (R358) -/

/-- Two states that differ at most in the credits that are asked for. -/
def OnlyDemand (s t : State) : Prop := ∃ d, t = { s with demand := d }

theorem OnlyDemand.refl (s : State) : OnlyDemand s s := ⟨_, rfl⟩

theorem took_onlyDemand {s t : State} (h : OnlyDemand s t) (a : Nat) (rs : List (Nat × Nat)) : OnlyDemand s (t.took a rs) := by
  obtain ⟨_, rfl⟩ := h
  exact ⟨_, rfl⟩

/-- A state with other models differs from the first in these and in the credits that are asked for. -/
theorem OnlyDemand.models_replaced {u v : State} {ms : Tbl Model} (h : OnlyDemand { u with models := ms } v) :
    v.models = ms ∧ ({ v with models := u.models, demand := u.demand } : State) = u := by
  obtain ⟨_, rfl⟩ := h
  exact ⟨rfl, rfl⟩

/-- A WT_CREATE completes OK, in the state `w` but for the credits that are asked for. -/
def CreatesIn (w : State) (r : Res) : Prop := ∃ v, r = createEnd .ok noEntry v ∧ OnlyDemand w v

theorem CreatesIn.after_took {w : State} {r : Res} (h : CreatesIn w r) (a : Nat) (rs : List (Nat × Nat)) :
    CreatesIn w (r.after (State.took a rs)) := by
  obtain ⟨v, rfl, same⟩ := h
  exact ⟨v.took a rs, rfl, took_onlyDemand same a rs⟩

section
variable {w s : State} {acct a size n : Nat} {k : List Bytes → Res}

/-- A table of entries that is read without error is what the command goes on with. -/
theorem readTable_creates (entries : n ≠ 0) (reads : s.reads a (size * n) = true)
    (h : CreatesIn w (k (chunks size (s.read a (size * n))))) : CreatesIn w (readTable acct a size n s k) := by
  rw [readTable, if_neg (by simpa using entries), readHeld_ok _ _ reads]
  exact h.after_took ..

/-- A table that may be left out is not read where it is (R312). -/
theorem readTable_creates_optional (reads : n = 0 ∨ s.reads a (size * n) = true)
    (h : CreatesIn w (k (if n = 0 then [] else chunks size (s.read a (size * n))))) :
    CreatesIn w (readTable acct a size n s k) := by
  by_cases out : n = 0
  · rw [if_pos out] at h
    rwa [readTable, if_pos (beq_iff_eq.2 out)]
  · rw [if_neg out] at h
    exact readTable_creates out (reads.resolve_left out) h

end

/-- A block whose own fields are legal has tensors, training shards and parts (R312). -/
theorem blockOk_counts {b : Bytes} (h : blockOk b = true) : mapU b 4 4 ≠ 0 ∧ mapU b 8 4 ≠ 0 ∧ mapU b 0x38 2 ≠ 0 := by
  simp only [blockOk, Bool.and_eq_true, bne_iff_ne] at h
  tauto

/-! ## The checks of R315 and the model that is entered -/

/-- No entry of a list fails a check that all of them pass. -/
theorem firstBadAt_none {α : Type} {l : List α} {ok : α → Bool} (base : Nat) (h : ∀ x ∈ l, ok x = true) :
    firstBadAt base l ok = none := by
  rw [firstBadAt, Option.map_eq_none_iff, List.findIdx?_eq_none_iff]
  intro x hx
  rw [h x hx]
  rfl

/-- The model that WT_CREATE enters: the tables of its map, and the settings of a model that is not loaded (R315). -/
def newModel (c : Cmd) (b : Bytes) (traw sraw graw praw araw : List Bytes) (part : Nat) (s : State) : Model :=
  let x := s.acct (cmdA c)
  { map := { acct := cmdA c, num := mapU b 0 2, layers := mapU b 2 2, vocab := mapU b 0x40 4,
             job := BitVec.ofNat 32 (mapU b 0x3C 4), part := part, parts := praw.map leNat, tensors := traw.map tensorOf,
             shards := sraw.map trainShardOf, gshards := graw.map genShardOf, arenas := araw.map arenaOf,
             layout := layoutDigest part traw sraw, swap := !x.quota.classB || x.epochPin },
    w := Weights.create (traw.map fun t => fieldAt t 0x18 2), led := LedModel.create, kv := KvSet.create,
    gen := GenSet.create x.quota.classB, ft := FtModel.create, amax := [], unrolled := [] }

/-- No shard of a table fails a check of this part's shards that those pass. -/
theorem firstBadAt_ofPart {part : Nat} {xs : List Shard} {ok : Shard → Bool} (base : Nat)
    (h : ∀ x ∈ xs, x.part = part → ok x = true) : firstBadAt base xs (fun x => x.part != part || ok x) = none := by
  refine firstBadAt_none base fun x hx => ?_
  by_cases mine : x.part = part
  · rw [h x hx mine, Bool.or_true]
  · rw [bne_iff_ne.2 mine, Bool.true_or]

section
variable {c : Cmd} {b : Bytes} {traw sraw graw praw araw : List Bytes} {part slot : Nat} {u : State}
  (fields : firstRow [firstBadAt 0 traw (tensorOk (mapU b 2 2)),
    firstBadAt (traw.map tensorOf).length sraw (trainShardOk (traw.map tensorOf) praw.length),
    firstBadAt ((traw.map tensorOf).length + (sraw.map trainShardOf).length) graw
      (genShardOk (traw.map tensorOf) praw.length)] = none)
  (parts : ∀ p ∈ praw, leNat p < 8192) (arenas : araw.all arenaOk = true)
  (rows : firstRow (mapRows (traw.map tensorOf) (sraw.map trainShardOf) (graw.map genShardOf)) = none)
  (vocab : graw.map genShardOf = [] ∨ mapU b 0x40 4 ≠ 0)
  (here : (praw.map leNat).findIdx? (fun p => some p == u.chip.fabric.addr) = some part)
  (unused : u.slotOf (cmdA c) (mapU b 0 2) = none)
  (held : ((araw.map arenaOf).zipIdx.all fun a => arenaHeld u (cmdA c) a.2 a.1) = true)
  (dies : ∀ x ∈ sraw.map trainShardOf ++ graw.map genShardOf, x.part = part → x.die < (u.acctDies (cmdA c)).length)
  (quota : (u.models.filter fun m => m.2.map.acct == cmdA c).length < (u.acct (cmdA c)).quota.models)
  (space : mapsHeld u + mapBytes (traw.map tensorOf).length (sraw.map trainShardOf).length (graw.map genShardOf).length ≤ 2 ^ 28)
  (engines : ∀ x ∈ graw.map genShardOf, x.part = part → engineTaken u ((u.acctDies (cmdA c)).getD x.die 8) x.se = false)
  (low : slot < 64) (free : u.model slot = none) (taken : ∀ j < slot, u.model j ≠ none)
include fields parts arenas rows vocab here unused held dies quota space engines low free taken

/-- A map that passes every check enters its model in the lowest free window slot (R315, R316). -/
theorem createModel_enters : createModel c b traw sraw graw praw araw u = createEnd .ok noEntry
    { u with models := tset u.models slot (newModel c b traw sraw graw praw araw part u) } := by
  have legal : ((praw.map leNat).any (fun p => decide (8192 ≤ p)) || !(araw.all arenaOk)) = false := by
    simpa [arenas] using parts
  have counted : (!(graw.map genShardOf).isEmpty && mapU b 0x40 4 == 0) = false := by
    rcases vocab with trainOnly | words
    · rw [trainOnly]; rfl
    · rw [beq_eq_false_iff_ne.2 words, Bool.and_false]
  have onDies := fun base (xs : List Shard) (hx : ∀ x ∈ xs, x ∈ sraw.map trainShardOf ++ graw.map genShardOf) =>
    firstBadAt_ofPart (part := part) (ok := fun x => decide (x.die < (u.acctDies (cmdA c)).length)) base
      fun x h mine => decide_eq_true (dies x (hx x h) mine)
  have engineFree := fun base => firstBadAt_ofPart
    (ok := fun x => !engineTaken u ((u.acctDies (cmdA c)).getD x.die 8) x.se) base fun x h mine => by rw [engines x h mine]; rfl
  have lowest : (List.range 64).find? (fun i => (u.model i).isNone) = some slot :=
    List.find?_range_eq_some.2 ⟨by rw [free]; rfl, List.mem_range.2 low, fun j hj => by
      simpa [Option.isSome_iff_ne_none] using taken j hj⟩
  unfold createModel
  dsimp only
  rw [List.length_map (as := praw), fields]
  refine check_passed legal ?_
  rw [rows]
  refine check_passed counted ?_
  rw [here]
  refine check_passed (by rw [unused]; rfl) (need_met held ?_)
  rw [onDies _ _ fun x => List.mem_append_left _, onDies _ _ fun x => List.mem_append_right _]
  refine check_passed (by rw [decide_eq_false (Nat.not_le.2 quota), decide_eq_false (Nat.not_lt.2 space)]; rfl) ?_
  rw [engineFree, lowest]
  rfl

end

/-- Settles O39: the block and its tables are read, the map passes every check, and its model is entered. -/
theorem wtCreateCompletes : Obligations.WtCreateCompletes := by
  unfold Obligations.WtCreateCompletes
  intro c s u slot part h tail addr aligned heldB readsB f traw sraw graw praw araw ts ss gs dies block
  rintro ⟨heldT, readsT⟩ ⟨heldS, readsS⟩ tableG ⟨heldP, readsP⟩ ⟨heldA, readsA⟩
  intro fields parts arenas rows vocab here unused held onDies quota space engines low free taken
  obtain ⟨someT, someS, someP⟩ := blockOk_counts block
  have entered := createModel_enters fields parts arenas rows vocab here unused held onDies quota space engines low free taken
  have ownFields : (!cmdTail c 8 || !addrOk (cmdU c 0 8) || cmdU c 0 8 % 64 != 0) = false := by
    rw [tail, addr, aligned]; rfl
  have heldG : (f 0xC 4 == 0 || u.inAccount (cmdA c) (f 0x20 8) (32 * f 0xC 4)) = true := by
    rcases tableG with out | ⟨mine, -⟩
    · rw [out]; rfl
    · rw [mine, Bool.or_true]
  have tables : (u.inAccount (cmdA c) (f 0x10 8) (64 * f 4 4) && u.inAccount (cmdA c) (f 0x18 8) (32 * f 8 4) &&
      (f 0xC 4 == 0 || u.inAccount (cmdA c) (f 0x20 8) (32 * f 0xC 4)) &&
      u.inAccount (cmdA c) (f 0x28 8) (4 * f 0x38 2) && u.inAccount (cmdA c) (f 0x30 8) 256) = true := by
    rw [heldT, heldS, heldG, heldP, heldA]; rfl
  have created : CreatesIn _ (readTable (cmdA c) (f 0x10 8) 64 (f 4 4) u fun traw =>
      readTable (cmdA c) (f 0x18 8) 32 (f 8 4) u fun sraw => readTable (cmdA c) (f 0x20 8) 32 (f 0xC 4) u fun graw =>
        readTable (cmdA c) (f 0x28 8) 4 (f 0x38 2) u fun praw => readTable (cmdA c) (f 0x30 8) 32 8 u fun araw =>
          createModel c (u.read (cmdU c 0 8) 128) traw sraw graw praw araw u) :=
    readTable_creates someT readsT <| readTable_creates someS readsS <|
      readTable_creates_optional (tableG.imp_right And.right) <| readTable_creates someP readsP <|
        readTable_creates (by decide) readsA ⟨_, entered, .refl _⟩
  obtain ⟨v, done, same⟩ := created.after_took (cmdA c) [(cmdU c 0 8, 128)]
  obtain ⟨models, rest⟩ := same.models_replaced
  refine ⟨newModel c (u.read (cmdU c 0 8) 128) traw sraw graw praw araw part u, v, ?_, models, rest,
    rfl, rfl, rfl, rfl, rfl, rfl, rfl, rfl⟩
  change execWtCreate c s = _
  refine runCmd_ok h (check_passed ownFields (need_met heldB ?_))
  rw [readHeld_ok _ _ readsB]
  exact need_met block (need_met tables done)

end Sys2Proof.Machine
end

section
/-!
PROOFS. The ends of moving operations: their limits, what a flip's copies and a turn's end leave of the model's weights, and the
messages of barriers.
-/
namespace Sys2Proof.Machine

/-! ## Limits (R326, R330, R340, R426) -/

section
variable {slot : BitVec 6} {s : State} {p : Nat} {o : MoveOp} {m : Model}

/-- The limit fails a part that waits for no decision. -/
theorem limitExpires_free {k tensor : Nat} (h : o.again = true ∨ awaitsDecision s m o = false) :
    limitExpires p k m o tensor s = failHere p k m o .timeout tensor s := by
  refine check_passed ?_ rfl
  rcases h with again | still
  · rw [again]; rfl
  · rw [still, Bool.and_false]

/-- The limit leaves a part that waits for a decision as it is. -/
theorem limitExpires_waits {k tensor : Nat} (h : ¬(o.again = true ∨ awaitsDecision s m o = false)) :
    limitExpires p k m o tensor s = s := by
  obtain ⟨first, waits⟩ := not_or.1 h
  refine if_pos ?_
  rw [Bool.eq_false_of_not_eq_true first, Bool.eq_true_of_not_eq_false waits]
  rfl

/-- A row that is the limit of an operation goes one of two ways. -/
theorem limitExpires_cases {k tensor : Nat} {r : Result State} (h : r = .next (limitExpires p k m o tensor s)) :
    (o.again = true ∨ awaitsDecision s m o = false → r = .next (failHere p k m o .timeout tensor s)) ∧
      (¬(o.again = true ∨ awaitsDecision s m o = false) → r = .next s) :=
  ⟨fun free => h.trans (congrArg _ (limitExpires_free free)), fun waits => h.trans (congrArg _ (limitExpires_waits waits))⟩

variable (running : s.runningMove slot.toNat = some (p, o)) (hm : s.model slot.toNat = some m)
include running hm

theorem execLoadLimitExpiry_load (kind : o.kind = .load) :
    execLoadLimitExpiry slot s = .next (limitExpires p slot.toNat m o (o.tensor m) s) := by
  simp [execLoadLimitExpiry, running, hm, kind]

theorem execTurnLimitExpiry_turn (kind : o.kind = .turn ∨ o.kind = .rebuild) :
    execTurnLimitExpiry slot s = .next (limitExpires p slot.toNat m o (o.tensor m) s) := by
  simp [execTurnLimitExpiry, running, hm, kind]

theorem execLearnLimitExpiry_learn (kind : o.kind = .learn) :
    execLearnLimitExpiry slot s = .next (limitExpires p slot.toNat m o noEntry s) := by
  simp [execLearnLimitExpiry, running, hm, kind]

/-- The counted time of an INPLACE operation starts as the last wave behind its closed barrier ends (R41, R333). -/
theorem execInplaceDrainEnd_drained (kind : o.kind = .turn ∨ o.kind = .rebuild) (begun : o.t0 ≠ none)
    (undrained : o.drained = none) (idle : m.gen.running = none) : execInplaceDrainEnd slot s =
      .next (onRunning p (fun o => { o with drained := some s.mtime, ovr0 := s.ovrTotal }) s) := by
  simp [execInplaceDrainEnd, running, hm, kind, Option.isSome_iff_ne_none.2 begun, undrained, idle]

end

/-! ## What leaves the weights of a model alone -/

/-- Two states that hold the same memory, and whose models in a window slot have the same map and the same record of weights. -/
structure SameWeights (k : Nat) (s t : State) : Prop where
  mem : t.mem = s.mem
  weights : (t.model k).map (fun m => (m.map, m.w)) = (s.model k).map fun m => (m.map, m.w)

section
variable {k : Nat} {s t u : State}

theorem SameWeights.refl (k : Nat) (s : State) : SameWeights k s s := ⟨rfl, rfl⟩

theorem SameWeights.trans (h : SameWeights k s t) (g : SameWeights k t u) : SameWeights k s u :=
  ⟨g.mem.trans h.mem, g.weights.trans h.weights⟩

theorem SameWeights.of_models (mem : t.mem = s.mem) (models : t.models = s.models) : SameWeights k s t :=
  ⟨mem, by rw [State.model, models, State.model]⟩

theorem OnlyTold.sameWeights (h : OnlyTold s t) : SameWeights k s t := .of_models h.mem h.models

/-- A change of a model that keeps its map and its record of weights. -/
theorem SameWeights.onModel (j : Nat) (f : Model → Model) (s : State)
    (hf : ∀ m, (f m).map = m.map ∧ (f m).w = m.w := by exact fun _ => ⟨rfl, rfl⟩) : SameWeights k s (s.onModel j f) := by
  refine ⟨rfl, ?_⟩
  rw [State.model_onModel]
  split
  · rw [Option.map_map]
    exact congrArg (fun g => (s.model k).map g) (funext fun m => Prod.ext (hf m).1 (hf m).2)
  · rfl

theorem SameWeights.ite (c : Prop) [Decidable c] (ht : SameWeights k s t) (hu : SameWeights k s u) :
    SameWeights k s (if c then t else u) := by
  split
  · exact ht
  · exact hu

/-- The model in the slot is still there, with its map and weights. -/
theorem SameWeights.model {m : Model} (h : SameWeights k s t) (hm : s.model k = some m) :
    ∃ x, t.model k = some x ∧ x.map = m.map ∧ x.w = m.w := by
  have found := h.weights
  rw [hm, Option.map_some, Option.map_eq_some_iff] at found
  obtain ⟨x, hx, same⟩ := found
  obtain ⟨map, w⟩ := Prod.mk.inj same
  exact ⟨x, hx, map, w⟩

end

/-! ## The copies that a flip starts (R441, R442) -/

theorem sendPart_onlyTold (die : Option Nat) (j : JobSlot) (part kind : Nat) (data : Bytes) (s : State) :
    OnlyTold s (sendPart die j part kind data s) := launch_onlyTold ..

theorem tellReading_onlyTold (m : Model) (on : Bool) (s : State) : OnlyTold s (tellReading m on s) := by
  unfold tellReading
  split
  · exact sendPart_onlyTold ..
  · exact .refl s

theorem sendDeposit_onlyTold (m : Model) (c : CopyJob) (whole : Bool) (t : DWord) (s : State) :
    OnlyTold s (sendDeposit m c whole t s) := by
  unfold sendDeposit
  split
  · exact .refl s
  · exact .foldl (fun _ _ => sendPart_onlyTold ..) _ _

theorem dropSent_sameWeights (k acct model : Nat) (s : State) : SameWeights k s (dropSent acct model s) := .of_models rfl rfl

theorem setLater_sameWeights (k slot : Nat) (m : Model) (later : List (Nat × Word)) (s : State) :
    SameWeights k s (setLater slot m later s) :=
  .ite _ (.onModel slot _ s) (.trans (.onModel slot _ s) (tellReading_onlyTold ..).sameWeights)

theorem startDrain_sameWeights (k p slot : Nat) (m : Model) (id flags kind : Nat) (crossing request : Bool) (s : State) :
    SameWeights k s (startDrain p slot m id flags kind crossing request s) := by
  unfold startDrain
  have noted : SameWeights k s (snapshot slot m flags kind crossing request s).2 := .of_models rfl rfl
  generalize snapshot slot m flags kind crossing request s = r at noted ⊢
  obtain ⟨c, v⟩ := r
  dsimp -zeta only
  extract_lets o begun left
  have hbegun : SameWeights k s begun := noted.trans (.of_models rfl rfl)
  have hleft : SameWeights k s left := .ite _ (hbegun.trans (setLater_sameWeights ..)) hbegun
  exact .ite _ ((hleft.trans (dropSent_sameWeights ..)).trans (sendDeposit_onlyTold ..).sameWeights) hleft

theorem flipDrain_sameWeights (k p slot : Nat) (d : Decision) (s : State) : SameWeights k s (flipDrain p slot d s) := by
  unfold flipDrain
  split
  · exact .refl k s
  · extract_lets f periodic flags clear id served cleared mail begun
    have hbegun : SameWeights k s begun := (SameWeights.onModel slot clear s).trans (.of_models (t := begun) rfl rfl)
    split
    · exact .refl k s
    · split
      · exact .onModel slot _ s
      · exact hbegun.trans (startDrain_sameWeights ..)

/-! ## The end of a turn (R223, R334) -/

theorem finishWait_sameWeights (k : Nat) (key : WaitKey) (st : Status) (payload : Bytes) (s : State) :
    SameWeights k s (finishWait key st payload s) := (finishWait_onlyMail ..).onlyTold.sameWeights

/-- A held UPD_BEGIN is decided on the record of the step alone. -/
theorem resolveHeld_sameWeights (k slot : Nat) (s : State) : SameWeights k s (resolveHeld slot s) := by
  unfold resolveHeld
  split
  · exact .refl k s
  · split
    · exact .refl k s
    · split
      · exact .trans (.onModel slot _ s) (finishWait_sameWeights ..)
      · exact .trans (.onModel slot _ s) (finishWait_sameWeights ..)

/-- A model whose turn or rebuild has ended: its wave barrier is open, and an end that is no flip is counted (R337). -/
def turnEnded (outcome : Nat) (m : Model) : Model :=
  { m with w := { m.w with waveShut := false, holdPkgs := false, failed := m.w.failed + (if outcome == 0 then 0 else 1) } }

theorem endTurn_sameWeights (k p slot : Nat) (o : MoveOp) (st : Status) (outcome part us : Nat) (s : State) :
    SameWeights k (s.onModel slot (turnEnded outcome)) (endTurn p slot o st outcome part us s) := by
  unfold endTurn
  extract_lets ended dropped resolved
  have hdropped : SameWeights k ended dropped := .ite _ (.refl k ended) (.of_models rfl rfl)
  have hresolved : SameWeights k ended resolved := hdropped.trans (resolveHeld_sameWeights ..)
  split
  · exact hresolved
  · exact hresolved.trans (finishWait_sameWeights ..)

/-- The flip of a turn leaves the model's map and the memory, and of its weights' record what R334 says. -/
theorem flipTurn_flips (p : Nat) {slot : Nat} {m : Model} (o : MoveOp) (d : Decision) {s : State} (hm : s.model slot = some m) :
    ∃ x, (flipTurn p slot m o d s).model slot = some x ∧ x.w.epoch = m.w.epoch + 1 ∧ x.w.activeB = !m.w.activeB ∧
      x.w.staged = false ∧ x.w.turns = m.w.turns + 1 ∧ x.w.waveShut = false ∧ x.map = m.map ∧
      (flipTurn p slot m o d s).mem = s.mem := by
  unfold flipTurn
  extract_lets old gen held us anchors weights w flipped dropped
  have hflipped := model_onModel_same hm fun m =>
    { m with w := w, kv := { m.kv with shareTag := 0 }, unrolled := m.amax.map (·.1) }
  have ready : SameWeights slot flipped (dropRunning p dropped) := .of_models rfl rfl
  have copied := ready.trans (flipDrain_sameWeights slot p slot d _)
  obtain ⟨y, hy, ymap, yw⟩ := copied.model hflipped
  have ended := endTurn_sameWeights slot p slot o .ok 0 0xFFFF us (flipDrain p slot d (dropRunning p dropped))
  obtain ⟨x, hx, xmap, xw⟩ := ended.model (model_onModel_same hy _)
  refine ⟨x, hx, ?_⟩
  rw [xmap, xw, turnEnded, yw, ymap]
  exact ⟨rfl, rfl, rfl, rfl, rfl, rfl, ended.mem.trans copied.mem⟩

/-- Settles O42: limits and messages go one way each, and the flip of a turn writes the weights' record alone. -/
theorem movingOperationsEnd : Obligations.MovingOperationsEnd := by
  unfold Obligations.MovingOperationsEnd
  refine ⟨fun slot s p o m running hm => ⟨?load, ?turn, ?learn, ?drain⟩, ?old, fun r s => ⟨?report, ?stray⟩,
    fun d s => ⟨?decision, ?lost⟩, fun p slot m o d s hm => flipTurn_flips p o d hm⟩
  case load => exact fun kind => limitExpires_cases (execLoadLimitExpiry_load running hm kind)
  case turn => exact fun kind => limitExpires_cases (execTurnLimitExpiry_turn running hm kind)
  case learn => exact fun kind => limitExpires_cases (execLearnLimitExpiry_learn running hm kind)
  case drain => exact execInplaceDrainEnd_drained running hm
  case old =>
    intro slot s m hm old free
    change execOldEpochFree slot s = _
    unfold execOldEpochFree
    rw [hm]
    refine check_passed ?_ rfl
    rw [beq_eq_false_iff_ne.2 old, free]
    rfl
  case report =>
    intro j joined coordinator
    change execBarrierReport r s = _
    unfold execBarrierReport
    rw [joined]
    exact congrArg _ (if_pos (beq_iff_eq.2 coordinator))
  case stray =>
    intro stranger
    change execBarrierReport r s = _
    unfold execBarrierReport
    rw [stranger]
  case decision =>
    intro j joined other u
    have heard : execBarrierDecision d s =
        .next (if (barrierOf u d.job d.kind d.inst).decision.isSome then u else applyDecision d (recordDecision d u)) := by
      unfold execBarrierDecision
      rw [joined]
      exact if_neg (by simpa using other)
    change (_ → execBarrierDecision d s = _) ∧ (_ → execBarrierDecision d s = _)
    rw [heard]
    refine ⟨fun first => ?_, fun known => ?_⟩
    · rw [first]; rfl
    · rw [if_pos (Option.isSome_iff_ne_none.2 known)]
  case lost =>
    intro stranger
    change execBarrierDecision d s = _
    unfold execBarrierDecision
    rw [stranger]

end Sys2Proof.Machine
end

section
/-!
PROOFS. What a step does to memory and to the queue: every operation of the model leaves the queue as it is and keeps the form of
memory, so does every command, and a step takes the front of the queue alone.
-/
namespace Sys2Proof.Machine

/-! ## In order -/

/-- The queue is as it was, and memory is in canonical form if it was. -/
structure Orderly (s t : State) : Prop where
  wf : s.mem.wf → t.mem.wf
  pending : t.pending = s.pending

/-- A next state that is reached in order. -/
inductive OrderlyNext (s : State) : Result State → Prop
  | next {t : State} (h : Orderly s t) : OrderlyNext s (.next t)

/-- An answer of a command's own rules whose state is reached in order. -/
inductive OrderlyRes (s : State) : Res → Prop
  | done {st : Status} {p : Bytes} {t : State} (h : Orderly s t) : OrderlyRes s (.done st p t)
  | wait {key : WaitKey} {t : State} (h : Orderly s t) : OrderlyRes s (.wait key t)
  | gone {t : State} (h : Orderly s t) : OrderlyRes s (.gone t)
  | hold : OrderlyRes s .hold

section
variable {s t u : State}

theorem Orderly.refl (s : State) : Orderly s s := ⟨id, rfl⟩

theorem Orderly.trans (h : Orderly s t) (g : Orderly t u) : Orderly s u := ⟨g.wf ∘ h.wf, g.pending.trans h.pending⟩

/-- A change of anything but memory and the queue. -/
theorem Orderly.upd {out freeCtr mtime mail ten chip cores pkgs pkgOrder svcTurn demand models moves moveCtr led gens ft}
    (h : Orderly s t) :
    Orderly s ⟨t.pending, out, freeCtr, mtime, t.mem, mail, ten, chip, cores, pkgs, pkgOrder, svcTurn, demand, models, moves,
      moveCtr, led, gens, ft⟩ := ⟨h.wf, h.pending⟩

/-- A change of memory that keeps its form, and of anything but the queue. -/
theorem Orderly.store {out freeCtr mtime mem mail ten chip cores pkgs pkgOrder svcTurn demand models moves moveCtr led gens ft}
    (h : Orderly s t) (hm : t.mem.wf → Memory.wf mem) :
    Orderly s ⟨t.pending, out, freeCtr, mtime, mem, mail, ten, chip, cores, pkgs, pkgOrder, svcTurn, demand, models, moves,
      moveCtr, led, gens, ft⟩ := ⟨fun w => hm (h.wf w), h.pending⟩

theorem Orderly.ite_of {α : Type} {p : α → State} {c : Prop} [Decidable c] {a b : α} (ha : Orderly s (p a))
    (hb : Orderly s (p b)) : Orderly s (p (if c then a else b)) := by
  split
  · exact ha
  · exact hb

theorem Orderly.ite {c : Prop} [Decidable c] (ht : Orderly s t) (hu : Orderly s u) : Orderly s (if c then t else u) :=
  .ite_of (p := fun t => t) ht hu

theorem OrderlyNext.ite {c : Prop} [Decidable c] {a b : Result State} (ha : OrderlyNext s a) (hb : OrderlyNext s b) :
    OrderlyNext s (if c then a else b) := by
  split
  · exact ha
  · exact hb

theorem OrderlyRes.ite {c : Prop} [Decidable c] {a b : Res} (ha : OrderlyRes s a) (hb : OrderlyRes s b) :
    OrderlyRes s (if c then a else b) := by
  split
  · exact ha
  · exact hb

/-- A command that fails a check changes nothing. -/
theorem OrderlyRes.check {c : Prop} [Decidable c] {st : Status} {r : Res} (h : Orderly s t) (hr : OrderlyRes s r) :
    OrderlyRes s (if c then fail st t else r) := .ite (.done h) hr

theorem Orderly.foldl_of {α β : Type} {p : β → State} {f : β → α → β} {l : List α} {b : β}
    (hf : ∀ b x, Orderly s (p b) → Orderly s (p (f b x))) (h : Orderly s (p b)) : Orderly s (p (l.foldl f b)) := by
  induction l generalizing b with
  | nil => exact h
  | cons x l ih => exact ih (hf _ _ h)

theorem Orderly.foldl {α : Type} {f : State → α → State} {l : List α} (hf : ∀ t x, Orderly s t → Orderly s (f t x))
    (h : Orderly s t) : Orderly s (l.foldl f t) :=
  .foldl_of (p := fun t => t) hf h

theorem Orderly.foldl_fst {α β : Type} {f : State × β → α → State × β} {l : List α} {b : State × β}
    (hf : ∀ b x, Orderly s b.1 → Orderly s (f b x).1) (h : Orderly s b.1) : Orderly s (l.foldl f b).1 :=
  .foldl_of (p := Prod.fst) hf h

theorem Orderly.foldl_snd {α β : Type} {f : β × State → α → β × State} {l : List α} {b : β × State}
    (hf : ∀ b x, Orderly s b.2 → Orderly s (f b x).2) (h : Orderly s b.2) : Orderly s (l.foldl f b).2 :=
  .foldl_of (p := Prod.snd) hf h

theorem Orderly.of_fst {β : Type} {p : State × β} {b : β} (h : Orderly s p.1) (e : p = (u, b)) : Orderly s u := by
  subst e
  exact h

theorem Orderly.of_snd {α : Type} {p : α × State} {a : α} (h : Orderly s p.2) (e : p = (a, u)) : Orderly s u := by
  subst e
  exact h

theorem Orderly.of_mid {α β : Type} {p : α × State × β} {a : α} {b : β} (h : Orderly s p.2.1) (e : p = (a, u, b)) :
    Orderly s u := by
  subst e
  exact h

theorem Orderly.of_last {α β : Type} {p : α × β × State} {a : α} {b : β} (h : Orderly s p.2.2) (e : p = (a, b, u)) :
    Orderly s u := by
  subst e
  exact h

end

/-! ## Memory, mailboxes and the course of a command -/

section
variable {s t u : State}

theorem free_orderly (h : Orderly s t) :
    Orderly s t.free.2 := h.upd

theorem write_orderly {a : Nat} {bs : Bytes} (h : Orderly s t) : Orderly s (t.write a bs) := h.store (Memory.store_wf · _ _)

theorem scramble_orderly {a n : Nat} (h : Orderly s t) : Orderly s (t.scramble a n) := .upd (write_orderly h)

theorem launch_orderly {w : Waiter} (h : Orderly s t) : Orderly s (launch w t) := .ite h.upd h.upd

theorem flushWaits_orderly (h : Orderly s t) : Orderly s (flushWaits t) := .foldl (fun _ _ h => launch_orderly h) h.upd

theorem sendTo_orderly {die : Option Nat} {dst : Nat} {job : Word} {kind : Nat} {data : Bytes} (h : Orderly s t) :
    Orderly s (sendTo die dst job kind data t) := launch_orderly h

theorem discover_orderly {a n : Nat} (h : Orderly s t) : Orderly s (t.discover a n) := by
  fun_cases t.discover a n
  case case1 | case2 => exact h
  case case3 | case4 => exact h.upd

theorem whenOn_orderly (h : Orderly s t) (g : Orderly s u) :
    Orderly s (t.whenOn u) := .ite h g

theorem raiseVec_orderly {fn vec : Nat} (h : Orderly s t) : Orderly s (raiseVec fn vec t) := .ite h.upd h.upd

theorem raiseNtf_orderly {fn : Nat} (h : Orderly s t) : Orderly s (raiseNtf fn t) := .ite (raiseVec_orderly h.upd) h.upd

theorem post_orderly {fn kind : Nat} {st : Status} {args : Bytes} (h : Orderly s t) : Orderly s (post fn kind st args t) := by
  fun_cases post fn kind st args t
  case case1 => exact h
  case case2 => exact h.upd
  case case3 | case4 | case5 => exact raiseNtf_orderly h.upd

theorem postAll_orderly {fns : List Nat} {kind : Nat} {st : Status} {args : Bytes} (h : Orderly s t) :
    Orderly s (postAll fns kind st args t) := .foldl (fun _ _ h => post_orderly h) h

theorem flushOverflow_orderly {fn : Nat} (h : Orderly s t) : Orderly s (flushOverflow fn t) := .ite (raiseNtf_orderly h.upd) h

theorem flushOne_orderly {fn : Nat} (h : Orderly s t) : Orderly s (flushOne fn t) := by
  fun_cases flushOne fn t
  · exact h
  · exact raiseNtf_orderly h.upd
  · exact h

theorem flushHeld_orderly {fn : Nat} (h : Orderly s t) : Orderly s (flushHeld fn t) :=
  .ite h <| .foldl (fun _ _ h => flushOne_orderly h) h

theorem discoverAll_orderly {rs : List (Nat × Nat)} (h : Orderly s t) : Orderly s (t.discoverAll rs) :=
  .foldl (fun _ _ h => discover_orderly h) h

theorem putKey_orderly {k : Nat} {bs : Bytes} (h : Orderly s t) : Orderly s (t.putKey k bs) :=
  .ite (h.store (Memory.put_wf · _ _)) <| .upd (h.store (Memory.put_wf · _ _))

theorem putHigh_orderly {slot : Nat} {m : ModelMap} {bufB : Bool} {i r c : Nat} {bs : Bytes} (h : Orderly s t) :
    Orderly s (putHigh slot m bufB i r c bs t) := by
  fun_cases putHigh slot m bufB i r c bs t
  · exact putKey_orderly h
  · exact h

theorem putLow_orderly {slot : Nat} {m : ModelMap} {i r c : Nat} {bs : Bytes} (h : Orderly s t) :
    Orderly s (putLow slot m i r c bs t) := by
  fun_cases putLow slot m i r c bs t
  · exact putKey_orderly h
  · exact h

theorem putState_orderly {slot k : Nat} {m : ModelMap} {i r c : Nat} {bs : Bytes} (h : Orderly s t) :
    Orderly s (putState slot k m i r c bs t) := by
  fun_cases putState slot k m i r c bs t
  · exact putKey_orderly h
  · exact h

theorem retireRow_orderly {acct k : Nat} (h : Orderly s t) : Orderly s (retireRow acct k t).2 := by
  fun_cases retireRow acct k t
  · exact h
  · exact h.upd
  · exact postAll_orderly h.upd

theorem engineRead_orderly {tr : Traffic} {acct : Nat} {rs : List (Nat × Nat)} (h : Orderly s t) :
    Orderly s (State.engineRead tr acct rs t).2 := by
  fun_cases State.engineRead tr acct rs t
  · exact h.upd
  · exact h.upd
  · exact .upd (retireRow_orderly h)
  · exact discoverAll_orderly h

theorem writeResp_orderly {c : Cmd} {r : Resp} (h : Orderly s t) : Orderly s (writeResp c r t) := raiseVec_orderly h.upd

theorem tellDone_orderly {c : Cmd} {r : Resp} (h : Orderly s t) : Orderly s (tellDone c r t) := .ite (post_orderly h) h

theorem complete_orderly {c : Cmd} {op : Nat} {st : Status} {payload : Bytes} (h : Orderly s t) :
    Orderly s (complete c op st payload t) := tellDone_orderly <| .ite h.upd (writeResp_orderly h)

theorem finishWait_orderly {key : WaitKey} {st : Status} {payload : Bytes} (h : Orderly s t) :
    Orderly s (finishWait key st payload t) := .foldl (fun _ _ h => complete_orderly h) h.upd

theorem finishAll_orderly {fn : Nat} {st : Status} (h : Orderly s t) : Orderly s (finishAll fn st t) :=
  .foldl (fun _ _ h => complete_orderly h) h.upd

theorem wakeUp_orderly (h : Orderly s t) : Orderly s (wakeUp t) := .ite h.upd (.ite h.upd h)

theorem runCmd_orderly {op : Nat} {c : Cmd} {body : State → Res} (h : Orderly s t)
    (hb : ∀ u, Orderly s u → OrderlyRes s (body u)) : OrderlyNext s (runCmd op c t body) := by
  have d : Orderly s (dropTaken c t) := h.upd
  unfold runCmd
  dsimp only
  split
  · exact .next h
  split
  · exact .next (complete_orderly (.ite (wakeUp_orderly d) d))
  · exact .next (complete_orderly (.ite (wakeUp_orderly d) d))
  split
  · exact .next (wakeUp_orderly d.upd)
  have hr := hb _ d
  generalize body (dropTaken c t) = r at hr ⊢
  cases hr
  case done g => exact .next (complete_orderly (.ite d g))
  case wait g => exact .next g.upd
  case gone g => exact .next g
  case hold => exact .next h

theorem readHeld_orderly {a n : Nat} {failed : State → Res} {k : Res} (h : Orderly s t)
    (hf : ∀ u, Orderly s u → OrderlyRes s (failed u)) (hk : OrderlyRes s k) : OrderlyRes s (readHeld a n t failed k) := by
  fun_cases readHeld a n t failed k
  · exact .hold
  · exact hf _ (discover_orderly h)
  · exact hk

theorem Res.after_orderly {f : State → State} {r : Res} (hf : ∀ u, Orderly s u → Orderly s (f u)) (hr : OrderlyRes s r) :
    OrderlyRes s (r.after f) := by
  cases hr
  case done g => exact .done (hf _ g)
  case wait g => exact .wait (hf _ g)
  case gone g => exact .gone (hf _ g)
  case hold => exact .hold

theorem give_orderly {acct a : Nat} {bs : Bytes} (h : Orderly s t) : Orderly s (State.give acct a bs t) := write_orderly h.upd

theorem readFor_orderly {c : Cmd} {a n : Nat} {k : Bytes → Res} (h : Orderly s t) (hk : ∀ bs, OrderlyRes s (k bs)) :
    OrderlyRes s (readFor c a n t k) := by
  fun_cases readFor c a n t k
  · exact .done h
  · exact readHeld_orderly h (fun _ g => .done g) (Res.after_orderly (fun _ g => g.upd) (hk _))

theorem writeFor_orderly {c : Cmd} {a n : Nat} {k : (Bytes → State) → Res} (h : Orderly s t)
    (hk : ∀ w, (∀ bs, Orderly s (w bs)) → OrderlyRes s (k w)) : OrderlyRes s (writeFor c a n t k) := by
  fun_cases writeFor c a n t k
  · exact .done h
  · exact .hold
  · exact .done h
  · exact hk _ fun _ => give_orderly h

theorem wakeFor_orderly {fn slot : Nat} (h : Orderly s t) : Orderly s (wakeFor fn slot t) := .ite (wakeUp_orderly h) h

theorem ringDoorbell_orderly {fn : Nat} {value : Word} (h : Orderly s t) : Orderly s (ringDoorbell fn value t) :=
  .ite h.upd (wakeFor_orderly h.upd)

theorem moveTail_orderly {fn : Nat} {value : Word} (h : Orderly s t) : Orderly s (moveTail fn value t) :=
  flushHeld_orderly (flushOverflow_orderly h.upd)

theorem execCmdDb_orderly {fn : BitVec 10} {value : Word} (h : Orderly s t) : OrderlyNext s (execCmdDb fn value t) :=
  .next <| .ite h (ringDoorbell_orderly h)

theorem execCommandTake_orderly {port : BitVec 2} (h : Orderly s t) : OrderlyNext s (execCommandTake port t) := by
  fun_cases execCommandTake port t
  · exact .next h
  · exact .next <| complete_orderly <| .upd (wakeFor_orderly h.upd)
  · exact .next <| complete_orderly <| .upd <| .upd (wakeFor_orderly h.upd)
  · exact .next <| complete_orderly <| .upd <| .upd (wakeFor_orderly h.upd)
  · exact .next <| .upd <| .upd <| .upd (wakeFor_orderly h.upd)

theorem execFirmwareAccept_orderly (h : Orderly s t) :
    OrderlyNext s (execFirmwareAccept t) := by
  unfold execFirmwareAccept
  split
  · exact .next h
  · exact .next h.upd

theorem execNtfTail_orderly {fn : BitVec 10} {value : Word} (h : Orderly s t) : OrderlyNext s (execNtfTail fn value t) :=
  .next <| .ite h (moveTail_orderly h)

theorem execNegotiate_orderly {c : Cmd} (h : Orderly s t) : OrderlyNext s (execNegotiate c t) :=
  runCmd_orderly h fun _ h => .check h <| .check h <| .check h (.done h.upd)

theorem execIdentify_orderly {c : Cmd} (h : Orderly s t) : OrderlyNext s (execIdentify c t) :=
  runCmd_orderly h fun _ h => .check h (.done h)

theorem execNotifyMask_orderly {c : Cmd} (h : Orderly s t) : OrderlyNext s (execNotifyMask c t) :=
  runCmd_orderly h fun _ h => .check h (.done h.upd)

theorem execMailboxResumed_orderly (h : Orderly s t) : OrderlyNext s (execMailboxResumed t) := by
  fun_cases execMailboxResumed t
  exact .next <| .foldl (fun _ _ h => flushHeld_orderly <| .upd <| .foldl (fun _ _ g => writeResp_orderly g) <|
      .ite (flushOverflow_orderly h.upd) <| post_orderly (flushOverflow_orderly h.upd)) <| .of_snd (free_orderly h) ‹_›

end

/-! ## Pages, packages and transfers -/

section
variable {s t u : State}

theorem drawFrame_orderly {slot u : Nat} {vault : Bool} {l : FrameLoc} {v : State} (h : Orderly s t)
    (e : drawFrame slot vault u t = some (l, v)) : Orderly s v := by
  unfold drawFrame at e
  split at e
  · cases e
    exact h.upd
  · obtain ⟨_, _, e⟩ := Option.map_eq_some_iff.1 e
    cases e
    exact h.upd

theorem readPage_orderly {acct : Nat} {l : FrameLoc} (h : Orderly s t) : Orderly s (readPage acct l t).2.2 := by
  fun_cases readPage acct l t
  exact .of_snd (engineRead_orderly h) ‹_›

theorem writePage_orderly {acct : Nat} {l : FrameLoc} {b : Bytes} (h : Orderly s t) : Orderly s (writePage acct l b t) :=
  write_orderly h.upd

theorem privateInst_orderly {acct : Nat} (h : Orderly s t) : Orderly s (privateInst acct t).2 := by
  fun_cases privateInst acct t
  · exact h
  · exact h.upd

theorem domainInst_orderly {acct dom : Nat} (h : Orderly s t) : Orderly s (domainInst acct dom t).2 := by
  refine .ite_of (p := Prod.snd) ?_ ?_
  · split
    · exact .of_snd (privateInst_orderly h) ‹_›
  split
  · exact h
  · exact h

theorem publishPage_orderly {acct slot dom inst epoch quota : Nat} {hash : DWord} {parent : Option Nat} {toks : List Nat}
    {loc : FrameLoc} (h : Orderly s t) :
    Orderly s (publishPage acct slot dom inst epoch quota hash parent toks loc t) := .ite h h.upd

theorem publishInst_orderly {q : Seq} (h : Orderly s t) : Orderly s (publishInst q t).2 := by
  refine .ite_of (p := Prod.snd) (domainInst_orderly h) ?_
  split
  · exact h
  · exact h

theorem publishSeq_orderly {i : Nat} (h : Orderly s t) : Orderly s (publishSeq i t) := by
  fun_cases publishSeq i t
  case case1 | case2 => exact h
  case case3 | case4 => exact .upd <| .of_snd (publishInst_orderly h) ‹_›
  case case5 =>
    refine .foldl_fst (fun _ _ h => ?_) <| .upd <| .of_snd (publishInst_orderly h) ‹_›
    split
    · exact h
    split
    · exact .ite (publishPage_orderly h) h
    · exact h

theorem execKvModelSet_orderly {c : Cmd} (h : Orderly s t) : OrderlyNext s (execKvModelSet c t) := by
  refine runCmd_orderly h fun _ h => .check h ?_
  split
  · exact .done h
  · exact .check h (.done h.upd)

theorem setPool_orderly {c : Cmd} {vault okField : Bool} {unit : Nat} {inPlace : Nat → Nat → Bool} (h : Orderly s t) :
    OrderlyRes s (setPool c vault okField unit inPlace t) := by
  refine .check h ?_
  split
  · exact .done h
  split
  · exact .done h
  · exact .check h <| .check h <| .check h (.done h.upd)

theorem execKvPoolSet_orderly {c : Cmd} (h : Orderly s t) : OrderlyNext s (execKvPoolSet c t) :=
  runCmd_orderly h fun _ h => setPool_orderly h

theorem execKvVaultSet_orderly {c : Cmd} (h : Orderly s t) : OrderlyNext s (execKvVaultSet c t) :=
  runCmd_orderly h fun _ h => setPool_orderly h

theorem execKvDomainCreate_orderly {c : Cmd} (h : Orderly s t) : OrderlyNext s (execKvDomainCreate c t) := by
  refine runCmd_orderly h fun _ h => .check h ?_
  split
  · exact .done h
  · exact .check h (.done h.upd)

theorem execKvDomainGrant_orderly {c : Cmd} (h : Orderly s t) : OrderlyNext s (execKvDomainGrant c t) := by
  refine runCmd_orderly h fun _ h => .check h ?_
  split
  · exact .done h
  · exact .check h (.done h.upd)

theorem execKvDomainJoin_orderly {c : Cmd} (h : Orderly s t) : OrderlyNext s (execKvDomainJoin c t) := by
  refine runCmd_orderly h fun _ h => .check h ?_
  split
  · exact .done h
  · exact .check h (.done h.upd)

theorem execKvDomainLeave_orderly {c : Cmd} (h : Orderly s t) : OrderlyNext s (execKvDomainLeave c t) := by
  refine runCmd_orderly h fun _ h => .check h ?_
  split
  · exact .done h
  · exact .check h (.done h.upd)

theorem execKvFlush_orderly {c : Cmd} (h : Orderly s t) : OrderlyNext s (execKvFlush c t) := by
  refine runCmd_orderly h fun _ h => .check h ?_
  split
  · exact .done h
  · exact .done h.upd

theorem execKvPoolQuery_orderly {c : Cmd} (h : Orderly s t) : OrderlyNext s (execKvPoolQuery c t) := by
  refine runCmd_orderly h fun _ h => .check h ?_
  split
  · exact .done h
  · exact .done h

theorem execDemotion_orderly {slot : BitVec 6} {member : BitVec 5} (h : Orderly s t) :
    OrderlyNext s (execDemotion slot member t) := by
  fun_cases execDemotion slot member t
  case case1 | case2 | case3 => exact .next h
  case case4 => exact .next h.upd
  case case5 => exact .next <| .upd <| .of_last (readPage_orderly <| .of_snd (free_orderly h) ‹_›) ‹_›
  case case6 => exact .next <| .upd <| writePage_orderly <| .of_last (readPage_orderly <| .of_snd (free_orderly h) ‹_›) ‹_›

theorem pageTime_orderly {ns : Nat} (h : Orderly s t) : Orderly s (pageTime ns t) := .ite h <| .foldl (fun _ _ h => h.upd) h

theorem owedVecs_orderly (h : Orderly s t) : Orderly s (owedVecs t) := .foldl (fun _ _ h => raiseNtf_orderly h) h

theorem tick_orderly (h : Orderly s t) : Orderly s (tick t) := owedVecs_orderly (pageTime_orderly h.upd)

theorem signalSem_orderly {id : PkgId} {e : Nat} (h : Orderly s t) : Orderly s (signalSem id e t) := by
  fun_cases signalSem id e t
  case case1 | case2 | case3 => exact h
  case case4 | case5 => exact h.upd

theorem issueSignal_orderly {d : DescId} {e : Nat} (h : Orderly s t) : Orderly s (issueSignal d e t) := by
  fun_cases issueSignal d e t
  · exact h
  · exact h
  · exact h.upd
  · exact signalSem_orderly h.upd
  · exact signalSem_orderly h

theorem amaxMerge_orderly {p : Pkg} {tid : Nat} {w : Word} (h : Orderly s t) : Orderly s (amaxMerge p tid w t) := by
  refine .ite h (.ite h.upd ?_)
  split
  · exact h.upd
  · exact h

theorem copyRange_orderly {acct src dst n : Nat} (h : Orderly s t) : Orderly s (copyRange acct src dst n t) :=
  .ite (scramble_orderly (discover_orderly h.upd)) (write_orderly h.upd)

theorem restoreRw_orderly {p : Pkg} (h : Orderly s t) : Orderly s (restoreRw p t) :=
  .foldl (fun _ _ h => .ite (copyRange_orderly h) h) h

theorem scrambleOut_orderly {p : Pkg} {forced : Bool} (h : Orderly s t) : Orderly s (scrambleOut p forced t) :=
  .foldl (fun _ _ h => .ite (scramble_orderly h) h) h

theorem putRecord_orderly {acct at_ : Nat} {bs : Bytes} (h : Orderly s t) : Orderly s (putRecord acct at_ bs t) :=
  write_orderly h.upd

theorem endPkg_orderly {id : PkgId} {st : Status} (h : Orderly s t) : Orderly s (endPkg id st t) := by
  fun_cases endPkg id st t
  · exact h
  · exact finishWait_orderly <| .ite (.upd <| .upd <| .ite (restoreRw_orderly <| .ite (scrambleOut_orderly h.upd) h.upd) <|
        .ite (scrambleOut_orderly h.upd) h.upd) <| post_orderly <| putRecord_orderly <| .upd <| .upd <|
        .ite (restoreRw_orderly <| .ite (scrambleOut_orderly h.upd) h.upd) <| .ite (scrambleOut_orderly h.upd) h.upd

theorem tryEndStop_orderly {id : PkgId} (h : Orderly s t) : Orderly s (tryEndStop id t) := by
  fun_cases tryEndStop id t
  · exact h
  · exact endPkg_orderly h
  · exact h

theorem beginStop_orderly {id : PkgId} {st : Status} (h : Orderly s t) : Orderly s (beginStop id st t) := by
  fun_cases beginStop id st t
  · exact h
  · exact h
  · exact tryEndStop_orderly h.upd

theorem killPkgs_orderly {keep : Pkg → Bool} {st : Status} (h : Orderly s t) : Orderly s (killPkgs keep st t) :=
  .foldl (fun _ _ h => endPkg_orderly h) h

theorem settle_orderly {id : PkgId} (h : Orderly s t) : Orderly s (settle id t) := by
  fun_cases settle id t
  · exact h
  · exact tryEndStop_orderly h
  · exact h.upd
  · exact endPkg_orderly h
  · exact h

theorem releaseLinks_orderly {id : PkgId} {rkeys : List Word} (h : Orderly s t) : Orderly s (releaseLinks id rkeys t) :=
  .ite h <| .foldl (fun _ _ h => settle_orderly h) h.upd

theorem completeDesc_orderly {d : DescId} {result : Word} (h : Orderly s t) : Orderly s (completeDesc d result t) := by
  fun_cases completeDesc d result t
  · exact h
  · exact h
  · exact settle_orderly <| issueSignal_orderly <| .ite h.upd (putRecord_orderly h.upd)

theorem wipeRange_orderly {a n : Nat} (h : Orderly s t) : Orderly s (t.wipeRange a n) := h.store (Memory.wipe_wf · _ _)

theorem prologue_orderly {p : Pkg} {first : Bool} (h : Orderly s t) : Orderly s (prologue p first t) := by
  fun_cases prologue p first t
  · exact .foldl (fun _ _ h => .ite (copyRange_orderly h) (copyRange_orderly h)) <|
        .foldl (fun _ _ h => copyRange_orderly h) <| .foldl (fun _ _ h => wipeRange_orderly h) h
  · exact write_orderly <| .foldl (fun _ _ h => .ite (copyRange_orderly h) (copyRange_orderly h)) <|
        .foldl (fun _ _ h => copyRange_orderly h) <| .foldl (fun _ _ h => wipeRange_orderly h) h

theorem restartPkg_orderly {id : PkgId} (h : Orderly s t) : Orderly s (restartPkg id t) := by
  fun_cases restartPkg id t
  · exact h
  · exact .upd (prologue_orderly h.upd)

theorem countReplay_orderly {id : PkgId} (h : Orderly s t) (e : countReplay id t = some u) : Orderly s u := by
  unfold countReplay at e
  split at e
  · cases e
  split at e
  · cases e
  · cases e
    exact h.upd

theorem replayPkg_orderly {id : PkgId} {n : Nat} (h : Orderly s t) : Orderly s (replayPkg id n t) := by
  induction n generalizing t with
  | zero => exact beginStop_orderly h
  | succ n ih =>
    unfold replayPkg
    split
    · exact beginStop_orderly h
    rename_i c counted
    have hc := countReplay_orderly h counted
    split
    · exact hc
    split
    · exact hc
    split
    · exact restartPkg_orderly hc
    · exact restartPkg_orderly hc
    · exact beginStop_orderly (discoverAll_orderly hc)
    · exact beginStop_orderly (discoverAll_orderly hc)
    · exact .ite (ih (retireRow_orderly hc)) (beginStop_orderly (retireRow_orderly hc))

theorem integrityFail_orderly {id : PkgId} (h : Orderly s t) : Orderly s (integrityFail id t) := by
  fun_cases integrityFail id t
  · exact h
  · exact h
  · exact replayPkg_orderly h

theorem stopWith_orderly {id : PkgId} {leave : State → State} (h : Orderly s t)
    (hleave : ∀ u, Orderly s u → Orderly s (leave u)) :
    Orderly s (stopWith id leave t) := tryEndStop_orderly <| beginStop_orderly (hleave _ h)

theorem parityFail_orderly {id : PkgId} {leave : State → State} {k : Nat} (h : Orderly s t)
    (hleave : ∀ u, Orderly s u → Orderly s (leave u)) :
    Orderly s (parityFail id leave k t) := by
  fun_cases parityFail id leave k t
  · exact tryEndStop_orderly <| integrityFail_orderly <| hleave _ (retireRow_orderly h)
  · exact stopWith_orderly (retireRow_orderly h) fun _ h => hleave _ h

theorem structFail_orderly {id : PkgId} {die : Nat} (h : Orderly s t) : Orderly s (structFail id die t) :=
  stopWith_orderly h.upd fun _ h => h

theorem workReads_orderly {id : PkgId} {tr : Traffic} {leave : State → State} {rs : List (Nat × Nat)} {k : State → State}
    (h : Orderly s t) (hleave : ∀ u, Orderly s u → Orderly s (leave u)) (hk : ∀ u, Orderly s u → Orderly s (k u)) :
    Orderly s (workReads id tr leave rs t k) := by
  fun_cases workReads id tr leave rs t k
  · exact hk _ h.upd
  · exact h
  · exact stopWith_orderly h fun _ h => hleave _ h
  · exact parityFail_orderly h fun _ h => hleave _ h
  · exact stopWith_orderly (discoverAll_orderly h) fun _ h => hleave _ h

theorem pkgReads_orderly {id : PkgId} {tr : Traffic} {rs : List (Nat × Nat)} {k : State → State} (h : Orderly s t)
    (hk : ∀ u, Orderly s u → Orderly s (k u)) :
    Orderly s (pkgReads id tr rs t k) := workReads_orderly h (fun _ h => h) fun _ h => hk _ h

theorem workWrites_orderly {id : PkgId} {tr : Traffic} {leave : State → State} {rs : List (Nat × Nat)} {k : State → State}
    (h : Orderly s t) (hleave : ∀ u, Orderly s u → Orderly s (leave u)) (hk : ∀ u, Orderly s u → Orderly s (k u)) :
    Orderly s (workWrites id tr leave rs t k) := .ite h <| .ite (stopWith_orderly h fun _ h => hleave _ h) (hk _ h.upd)

theorem pkgWrites_orderly {id : PkgId} {tr : Traffic} {rs : List (Nat × Nat)} {k : State → State} (h : Orderly s t)
    (hk : ∀ u, Orderly s u → Orderly s (k u)) :
    Orderly s (pkgWrites id tr rs t k) := workWrites_orderly h (fun _ h => h) fun _ h => hk _ h

theorem meterCycles_orderly {acct i die : Nat} (h : Orderly s t) : Orderly s (meterCycles acct i die t) := .upd (free_orderly h)

theorem Xf.copy_orderly {x : Xf} {epoch seg : Nat} (h : Orderly s t) : Orderly s (Xf.copy x epoch seg t) :=
  .foldl (fun _ _ h => write_orderly h) h

theorem Pf.copySeg_orderly {x : Pf} {slot : Nat} {m : Model} {die epoch seg : Nat} (h : Orderly s t) :
    Orderly s (Pf.copySeg x slot m die epoch seg t) := write_orderly h

theorem carry_orderly {ms : List (Vc × List Hop)} {k : State → State} (h : Orderly s t)
    (hk : ∀ u, Orderly s u → Orderly s (k u)) :
    Orderly s (State.carry ms t k) := by
  fun_cases State.carry ms t k
  · exact hk _ h.upd
  · exact h

end

/-! ## Vector programs -/

section
variable {s t u : State}

theorem hartOp_orderly {hart : Hart} {i : Instr} {k : Thread → State → State} (h : Orderly s t)
    (hk : ∀ x0 u, Orderly s u → Orderly s (k x0 u)) :
    OrderlyNext s (hartOp hart i t k) := by
  fun_cases hartOp hart i t k
  · exact .next h
  · exact .next <| workReads_orderly h (fun _ h => h.upd) fun _ h => .ite (.upd (hk _ _ h.upd)) (hk _ _ h.upd)
  · exact .next h

theorem scalarOp_orderly {hart : Hart} {i : Instr} {f : Thread → Thread} (h : Orderly s t) :
    OrderlyNext s (scalarOp hart i t f) := hartOp_orderly h fun _ _ h => h.upd

theorem vectorOp_orderly {hart : Hart} {i : Instr} {f : Thread → Core → Core} (h : Orderly s t) :
    OrderlyNext s (vectorOp hart i t f) := hartOp_orderly h fun _ _ h => h.upd

theorem progReads_orderly {hart : Hart} {rs : List (Nat × Nat)} {k : State → State} (h : Orderly s t)
    (hk : ∀ u, Orderly s u → Orderly s (k u)) :
    Orderly s (progReads hart rs t k) := by
  fun_cases progReads hart rs t k
  · exact workReads_orderly h (fun _ h => h.upd) fun _ h => hk _ h
  · exact hk _ h

theorem vecBin_orderly {hart : Hart} {i : Instr} {fmt : VFmt} {d a : BitVec 5} {b : VSrc} {pm : BitVec 3} {op : Val → Val → Val}
    (h : Orderly s t) :
    OrderlyNext s (vecBin hart i fmt d a b pm op t) := vectorOp_orderly h

theorem winWrite_orderly {core : Nat} {win : Nat × Nat} {off : DWord} {bs : Bytes} (h : Orderly s t) :
    Orderly s (winWrite core win off bs t) := .foldl (fun _ _ h => write_orderly h) h

theorem unitOffset_orderly {xa : DWord} (h : Orderly s t) : Orderly s (unitOffset xa t).2 := by
  refine .ite_of (p := Prod.snd) h ?_
  split
  · exact .of_snd (free_orderly h) ‹_›

theorem countConds_orderly {acct die : Nat} {unit : Option Nat} {c : Conds} (h : Orderly s t) :
    Orderly s (countConds acct die unit c t) := by
  have metered : ∀ {u : State} (i n : Nat), Orderly s u → Orderly s (if n == 0 then u else u.num acct i n) :=
    fun _ _ h => .ite h h.upd
  have counted : ∀ {u : State} (src n : Nat), Orderly s u → Orderly s (if n == 0 then u else u.bump src die (some acct) unit n) :=
    fun _ _ h => .ite h h.upd
  exact counted _ _ <| counted _ _ <| counted _ _ <| metered _ _ <| metered _ _ <| metered _ _ <| metered _ _ <| metered _ _ <|
    metered _ _ <| metered _ _ h

theorem progConds_orderly {hart : Hart} {shadow : Nat} {c : Conds} (h : Orderly s t) :
    Orderly s (progConds hart shadow c t) := by
  fun_cases progConds hart shadow c t
  · exact h
  · exact .upd <| .ite (countConds_orderly h) <| .upd (countConds_orderly h)

theorem intForm_orderly {op : IntOp} {hart : Hart} {i : Instr} {d a b : BitVec 5} (h : Orderly s t) :
    OrderlyNext s (intForm op hart i d a b t) := scalarOp_orderly h

theorem execAdd_orderly {hart : Hart} {d a b : BitVec 5} (h : Orderly s t) : OrderlyNext s (execAdd hart d a b t) :=
  intForm_orderly h

theorem execSub_orderly {hart : Hart} {d a b : BitVec 5} (h : Orderly s t) : OrderlyNext s (execSub hart d a b t) :=
  intForm_orderly h

theorem execAnd_orderly {hart : Hart} {d a b : BitVec 5} (h : Orderly s t) : OrderlyNext s (execAnd hart d a b t) :=
  intForm_orderly h

theorem execOr_orderly {hart : Hart} {d a b : BitVec 5} (h : Orderly s t) : OrderlyNext s (execOr hart d a b t) :=
  intForm_orderly h

theorem execXor_orderly {hart : Hart} {d a b : BitVec 5} (h : Orderly s t) : OrderlyNext s (execXor hart d a b t) :=
  intForm_orderly h

theorem execSll_orderly {hart : Hart} {d a b : BitVec 5} (h : Orderly s t) : OrderlyNext s (execSll hart d a b t) :=
  intForm_orderly h

theorem execSrl_orderly {hart : Hart} {d a b : BitVec 5} (h : Orderly s t) : OrderlyNext s (execSrl hart d a b t) :=
  intForm_orderly h

theorem execSra_orderly {hart : Hart} {d a b : BitVec 5} (h : Orderly s t) : OrderlyNext s (execSra hart d a b t) :=
  intForm_orderly h

theorem execSlt_orderly {hart : Hart} {d a b : BitVec 5} (h : Orderly s t) : OrderlyNext s (execSlt hart d a b t) :=
  intForm_orderly h

theorem execSltu_orderly {hart : Hart} {d a b : BitVec 5} (h : Orderly s t) : OrderlyNext s (execSltu hart d a b t) :=
  intForm_orderly h

theorem execMin_orderly {hart : Hart} {d a b : BitVec 5} (h : Orderly s t) : OrderlyNext s (execMin hart d a b t) :=
  intForm_orderly h

theorem execMax_orderly {hart : Hart} {d a b : BitVec 5} (h : Orderly s t) : OrderlyNext s (execMax hart d a b t) :=
  intForm_orderly h

theorem execMul_orderly {hart : Hart} {d a b : BitVec 5} (h : Orderly s t) : OrderlyNext s (execMul hart d a b t) :=
  intForm_orderly h

theorem execAddi_orderly {hart : Hart} {d a : BitVec 5} {imm : BitVec 16} (h : Orderly s t) :
    OrderlyNext s (execAddi hart d a imm t) := scalarOp_orderly h

theorem execAndi_orderly {hart : Hart} {d a : BitVec 5} {imm : BitVec 16} (h : Orderly s t) :
    OrderlyNext s (execAndi hart d a imm t) := scalarOp_orderly h

theorem execOri_orderly {hart : Hart} {d a : BitVec 5} {imm : BitVec 16} (h : Orderly s t) :
    OrderlyNext s (execOri hart d a imm t) := scalarOp_orderly h

theorem execXori_orderly {hart : Hart} {d a : BitVec 5} {imm : BitVec 16} (h : Orderly s t) :
    OrderlyNext s (execXori hart d a imm t) := scalarOp_orderly h

theorem execShi_orderly {hart : Hart} {d a : BitVec 5} {kind : ShiftOp} {amt : BitVec 6} (h : Orderly s t) :
    OrderlyNext s (execShi hart d a kind amt t) := scalarOp_orderly h

theorem execLui_orderly {hart : Hart} {d : BitVec 5} {imm : BitVec 16} (h : Orderly s t) :
    OrderlyNext s (execLui hart d imm t) := scalarOp_orderly h

theorem execSlti_orderly {hart : Hart} {d a : BitVec 5} {imm : BitVec 16} (h : Orderly s t) :
    OrderlyNext s (execSlti hart d a imm t) := scalarOp_orderly h

theorem fpForm_orderly {op : Val → Val → Val} {hart : Hart} {i : Instr} {d a b : BitVec 5} (h : Orderly s t) :
    OrderlyNext s (fpForm op hart i d a b t) := scalarOp_orderly h

theorem fpTest_orderly {op : Val → Val → Bool} {hart : Hart} {i : Instr} {d a b : BitVec 5} (h : Orderly s t) :
    OrderlyNext s (fpTest op hart i d a b t) := scalarOp_orderly h

theorem execFadd_orderly {hart : Hart} {d a b : BitVec 5} (h : Orderly s t) : OrderlyNext s (execFadd hart d a b t) :=
  fpForm_orderly h

theorem execFsub_orderly {hart : Hart} {d a b : BitVec 5} (h : Orderly s t) : OrderlyNext s (execFsub hart d a b t) :=
  fpForm_orderly h

theorem execFmul_orderly {hart : Hart} {d a b : BitVec 5} (h : Orderly s t) : OrderlyNext s (execFmul hart d a b t) :=
  fpForm_orderly h

theorem execFdiv_orderly {hart : Hart} {d a b : BitVec 5} (h : Orderly s t) : OrderlyNext s (execFdiv hart d a b t) :=
  fpForm_orderly h

theorem execFsqrt_orderly {hart : Hart} {d a : BitVec 5} (h : Orderly s t) : OrderlyNext s (execFsqrt hart d a t) :=
  scalarOp_orderly h

theorem execFmin_orderly {hart : Hart} {d a b : BitVec 5} (h : Orderly s t) : OrderlyNext s (execFmin hart d a b t) :=
  fpForm_orderly h

theorem execFmax_orderly {hart : Hart} {d a b : BitVec 5} (h : Orderly s t) : OrderlyNext s (execFmax hart d a b t) :=
  fpForm_orderly h

theorem execFfma_orderly {hart : Hart} {d a b : BitVec 5} (h : Orderly s t) : OrderlyNext s (execFfma hart d a b t) :=
  scalarOp_orderly h

theorem execFeq_orderly {hart : Hart} {d a b : BitVec 5} (h : Orderly s t) : OrderlyNext s (execFeq hart d a b t) :=
  fpTest_orderly h

theorem execFlt_orderly {hart : Hart} {d a b : BitVec 5} (h : Orderly s t) : OrderlyNext s (execFlt hart d a b t) :=
  fpTest_orderly h

theorem execFle_orderly {hart : Hart} {d a b : BitVec 5} (h : Orderly s t) : OrderlyNext s (execFle hart d a b t) :=
  fpTest_orderly h

theorem execFunord_orderly {hart : Hart} {d a b : BitVec 5} (h : Orderly s t) : OrderlyNext s (execFunord hart d a b t) :=
  fpTest_orderly h

theorem execFcvt_orderly {hart : Hart} {d a : BitVec 5} {op : FcvtOp} (h : Orderly s t) :
    OrderlyNext s (execFcvt hart d a op t) := hartOp_orderly h fun _ _ h => .ite (progConds_orderly h.upd) h.upd

theorem execBr_orderly {hart : Hart} {cond : Cond} {a : BitVec 5} {off : BitVec 16} (h : Orderly s t) :
    OrderlyNext s (execBr hart cond a off t) := hartOp_orderly h fun _ _ h => h.upd

theorem progEnd_orderly {core : Nat} (h : Orderly s t) : Orderly s (progEnd core t) := by
  fun_cases progEnd core t
  case case1 | case6 => exact h
  case case2 => exact tryEndStop_orderly <| beginStop_orderly <| .upd (meterCycles_orderly h)
  case case3 => exact completeDesc_orderly <| .upd <| .upd (meterCycles_orderly h)
  case case4 | case5 => exact .upd <| .upd (meterCycles_orderly h)

theorem execHalt_orderly {hart : Hart} (h : Orderly s t) : OrderlyNext s (execHalt hart t) :=
  hartOp_orderly h fun _ _ h => progEnd_orderly h.upd

theorem execSemwait_orderly {hart : Hart} {imm : BitVec 8} {a : BitVec 5} (h : Orderly s t) :
    OrderlyNext s (execSemwait hart imm a t) := hartOp_orderly h fun _ _ h => h.upd

theorem execSemsignal_orderly {hart : Hart} {imm : BitVec 8} (h : Orderly s t) : OrderlyNext s (execSemsignal hart imm t) := by
  refine .ite (.next h) <| hartOp_orderly h fun _ _ h => ?_
  split
  · exact h
  · exact issueSignal_orderly h

theorem execXpost_orderly {hart : Hart} {d a : BitVec 5} {w : BitVec 3} (h : Orderly s t) :
    OrderlyNext s (execXpost hart d a w t) := by
  refine hartOp_orderly h fun _ _ h => progReads_orderly (unitOffset_orderly h) fun _ g => ?_
  split
  split
  · exact g
  split
  · exact g
  · exact .ite g.upd g.upd

theorem execLd_orderly {hart : Hart} {d a : BitVec 5} {w : BitVec 3} {size : BitVec 2} {sx : Bool} {disp : BitVec 10}
    (h : Orderly s t) :
    OrderlyNext s (execLd hart d a w size sx disp t) := hartOp_orderly h fun _ _ h => progReads_orderly h fun _ g => g.upd

theorem execSt_orderly {hart : Hart} {d a : BitVec 5} {w : BitVec 3} {size : BitVec 2} {disp : BitVec 10} (h : Orderly s t) :
    OrderlyNext s (execSt hart d a w size disp t) := hartOp_orderly h fun _ _ h => write_orderly h

theorem execVadd_orderly {hart : Hart} {fmt : VFmt} {d a : BitVec 5} {b : VSrc} {pm : BitVec 3} (h : Orderly s t) :
    OrderlyNext s (execVadd hart fmt d a b pm t) := vecBin_orderly h

theorem execVsub_orderly {hart : Hart} {fmt : VFmt} {d a : BitVec 5} {b : VSrc} {pm : BitVec 3} (h : Orderly s t) :
    OrderlyNext s (execVsub hart fmt d a b pm t) := vecBin_orderly h

theorem execVmul_orderly {hart : Hart} {fmt : VFmt} {d a : BitVec 5} {b : VSrc} {pm : BitVec 3} (h : Orderly s t) :
    OrderlyNext s (execVmul hart fmt d a b pm t) := vecBin_orderly h

theorem execVfma_orderly {hart : Hart} {fmt : VFmt} {d a : BitVec 5} {b : VSrc} {pm : BitVec 3} (h : Orderly s t) :
    OrderlyNext s (execVfma hart fmt d a b pm t) := vectorOp_orderly h

theorem execVmin_orderly {hart : Hart} {fmt : VFmt} {d a : BitVec 5} {b : VSrc} {pm : BitVec 3} (h : Orderly s t) :
    OrderlyNext s (execVmin hart fmt d a b pm t) := vecBin_orderly h

theorem execVmax_orderly {hart : Hart} {fmt : VFmt} {d a : BitVec 5} {b : VSrc} {pm : BitVec 3} (h : Orderly s t) :
    OrderlyNext s (execVmax hart fmt d a b pm t) := vecBin_orderly h

theorem execVdiv_orderly {hart : Hart} {fmt : VFmt} {d a : BitVec 5} {b : VSrc} {pm : BitVec 3} (h : Orderly s t) :
    OrderlyNext s (execVdiv hart fmt d a b pm t) := vecBin_orderly h

theorem execVsqrt_orderly {hart : Hart} {fmt : VFmt} {d a : BitVec 5} {pm : BitVec 3} (h : Orderly s t) :
    OrderlyNext s (execVsqrt hart fmt d a pm t) := vectorOp_orderly h

theorem execVcmp_orderly {hart : Hart} {op : CmpOp} {d : BitVec 3} {a b : BitVec 5} {pm : BitVec 3} (h : Orderly s t) :
    OrderlyNext s (execVcmp hart op d a b pm t) := vectorOp_orderly h

theorem maskForm_orderly {f : Bool → Bool → Bool} {hart : Hart} {i : Instr} {d a b pm : BitVec 3} (h : Orderly s t) :
    OrderlyNext s (maskForm f hart i d a b pm t) := vectorOp_orderly h

theorem execPand_orderly {hart : Hart} {d a b pm : BitVec 3} (h : Orderly s t) : OrderlyNext s (execPand hart d a b pm t) :=
  maskForm_orderly h

theorem execPor_orderly {hart : Hart} {d a b pm : BitVec 3} (h : Orderly s t) : OrderlyNext s (execPor hart d a b pm t) :=
  maskForm_orderly h

theorem execPxor_orderly {hart : Hart} {d a b pm : BitVec 3} (h : Orderly s t) : OrderlyNext s (execPxor hart d a b pm t) :=
  maskForm_orderly h

theorem execPandn_orderly {hart : Hart} {d a b pm : BitVec 3} (h : Orderly s t) : OrderlyNext s (execPandn hart d a b pm t) :=
  maskForm_orderly h

theorem execPnot_orderly {hart : Hart} {d a pm : BitVec 3} (h : Orderly s t) : OrderlyNext s (execPnot hart d a pm t) :=
  vectorOp_orderly h

theorem execVsel_orderly {hart : Hart} {d a b : BitVec 5} {pm : BitVec 3} (h : Orderly s t) :
    OrderlyNext s (execVsel hart d a b pm t) := vectorOp_orderly h

theorem execVintOp_orderly {hart : Hart} {op : IntOp} {d a b : BitVec 5} {pm : BitVec 3} (h : Orderly s t) :
    OrderlyNext s (execVintOp hart op d a b pm t) := vectorOp_orderly h

theorem execViota_orderly {hart : Hart} {d : BitVec 5} {pm : BitVec 3} (h : Orderly s t) :
    OrderlyNext s (execViota hart d pm t) := vectorOp_orderly h

theorem execVcvt_orderly {hart : Hart} {d a : BitVec 5} {src dst : SFmt} {cvt : BitVec 4} {pm : BitVec 3} (h : Orderly s t) :
    OrderlyNext s (execVcvt hart d a src dst cvt pm t) := by
  fun_cases execVcvt hart d a src dst cvt pm t
  exact hartOp_orderly h fun _ _ h => progConds_orderly h.upd

theorem execVmxPack_orderly {hart : Hart} {d a : BitVec 5} {fmt : MFmt} {pm : BitVec 3} (h : Orderly s t) :
    OrderlyNext s (execVmxPack hart d a fmt pm t) := hartOp_orderly h fun _ _ h => progConds_orderly h.upd

theorem execVmxUnpack_orderly {hart : Hart} {d a : BitVec 5} {fmt : MFmt} {pm : BitVec 3} (h : Orderly s t) :
    OrderlyNext s (execVmxUnpack hart d a fmt pm t) := hartOp_orderly h fun _ _ h => progConds_orderly h.upd

theorem execVfn_orderly {hart : Hart} {d a : BitVec 5} {f : Fn} {pm : BitVec 3} (h : Orderly s t) :
    OrderlyNext s (execVfn hart d a f pm t) := vectorOp_orderly h

theorem execVact_orderly {hart : Hart} {d a b : BitVec 5} {act : Act} {pm : BitVec 3} (h : Orderly s t) :
    OrderlyNext s (execVact hart d a b act pm t) := vectorOp_orderly h

theorem execVdact_orderly {hart : Hart} {d a b : BitVec 5} {act : Act} {pm : BitVec 3} (h : Orderly s t) :
    OrderlyNext s (execVdact hart d a b act pm t) := vectorOp_orderly h

theorem execApset_orderly {hart : Hart} {a : BitVec 5} (h : Orderly s t) : OrderlyNext s (execApset hart a t) :=
  scalarOp_orderly h

theorem execVperm_orderly {hart : Hart} {d a b : BitVec 5} {pm : BitVec 3} (h : Orderly s t) :
    OrderlyNext s (execVperm hart d a b pm t) := vectorOp_orderly h

theorem execVbcast_orderly {hart : Hart} {d a : BitVec 5} {pm : BitVec 3} (h : Orderly s t) :
    OrderlyNext s (execVbcast hart d a pm t) := vectorOp_orderly h

theorem execVrot_orderly {hart : Hart} {d a b : BitVec 5} {pm : BitVec 3} (h : Orderly s t) :
    OrderlyNext s (execVrot hart d a b pm t) := vectorOp_orderly h

theorem execVlane_orderly {hart : Hart} {d a b : BitVec 5} {pm : BitVec 3} (h : Orderly s t) :
    OrderlyNext s (execVlane hart d a b pm t) := vectorOp_orderly h

theorem execVrand_orderly {hart : Hart} {d a b : BitVec 5} {pm : BitVec 3} (h : Orderly s t) :
    OrderlyNext s (execVrand hart d a b pm t) := vectorOp_orderly h

theorem execVrclr_orderly {hart : Hart} {d : BitVec 3} (h : Orderly s t) : OrderlyNext s (execVrclr hart d t) :=
  vectorOp_orderly h

theorem execVrsum_orderly {hart : Hart} {d : BitVec 3} {a : BitVec 5} {pm : BitVec 3} (h : Orderly s t) :
    OrderlyNext s (execVrsum hart d a pm t) := vectorOp_orderly h

theorem execVrdot_orderly {hart : Hart} {d : BitVec 3} {a b : BitVec 5} {pm : BitVec 3} (h : Orderly s t) :
    OrderlyNext s (execVrdot hart d a b pm t) := vectorOp_orderly h

theorem execVrfin_orderly {hart : Hart} {d : BitVec 5} {a : BitVec 3} {b : BitVec 5} (h : Orderly s t) :
    OrderlyNext s (execVrfin hart d a b t) := by
  refine hartOp_orderly h fun _ _ h => progConds_orderly ?_
  split
  · split
    · exact .ite (.ite h.upd h.upd) <| amaxMerge_orderly (.ite h.upd h.upd)
    · exact .ite h.upd h.upd
  · exact .ite h.upd h.upd

theorem reduceMinMax_orderly {op : Val → Val → Val} {hart : Hart} {i : Instr} {d a : BitVec 5} {pm : BitVec 3} {join : Bool}
    (h : Orderly s t) :
    OrderlyNext s (reduceMinMax op hart i d a pm join t) := by
  refine hartOp_orderly h fun _ _ h => ?_
  split
  · split
    dsimp only
    split
    · exact .upd <| .of_snd (free_orderly h) ‹_›
    · exact h.upd
  split
  dsimp only
  split
  · exact .upd <| .of_snd (free_orderly h) ‹_›
  · exact h.upd

theorem execVrmax_orderly {hart : Hart} {d a : BitVec 5} {pm : BitVec 3} {merge : Bool} (h : Orderly s t) :
    OrderlyNext s (execVrmax hart d a pm merge t) := reduceMinMax_orderly h

theorem execVrmin_orderly {hart : Hart} {d a : BitVec 5} {pm : BitVec 3} {merge : Bool} (h : Orderly s t) :
    OrderlyNext s (execVrmin hart d a pm merge t) := reduceMinMax_orderly h

theorem execVrarg_orderly {hart : Hart} {d a b : BitVec 5} {pm : BitVec 3} (h : Orderly s t) :
    OrderlyNext s (execVrarg hart d a b pm t) := by
  refine hartOp_orderly h fun _ _ h => ?_
  split
  dsimp only
  split
  · exact .upd <| .of_snd (free_orderly h) ‹_›
  · exact .ite (.upd <| .of_snd (free_orderly h) ‹_›) h.upd

theorem execVrput_orderly {hart : Hart} {d : BitVec 3} {a : BitVec 5} {w : BitVec 3} (h : Orderly s t) :
    OrderlyNext s (execVrput hart d a w t) := hartOp_orderly h fun _ _ h => winWrite_orderly (unitOffset_orderly h)

theorem execVrget_orderly {hart : Hart} {d : BitVec 3} {a : BitVec 5} {w : BitVec 3} (h : Orderly s t) :
    OrderlyNext s (execVrget hart d a w t) := by
  refine hartOp_orderly h (fun _ _ h => ?_)
  split
  refine progReads_orderly (.of_snd (unitOffset_orderly h) ‹_›) (fun _ h => ?_)
  split
  · exact h.upd
  split
  · exact structFail_orderly h
  · exact h

theorem execVld_orderly {hart : Hart} {fmt : VFmt} {d a : BitVec 5} {w pm : BitVec 3} (h : Orderly s t) :
    OrderlyNext s (execVld hart fmt d a w pm t) := by
  fun_cases execVld hart fmt d a w pm t
  exact hartOp_orderly h fun _ _ h => progReads_orderly (unitOffset_orderly h) fun _ g => g.upd

theorem storeLanes_orderly {a : Nat} {ps : List (Bool × Word)} (h : Orderly s t) : Orderly s (storeLanes a ps t) := by
  induction ps generalizing a t with
  | nil => exact h
  | cons p ps ih => exact ih (.ite (write_orderly h) h)

theorem storeUnit_orderly {a : Nat} {ps : List (Bool × Word)} (h : Orderly s t) : Orderly s (storeUnit a ps t) :=
  .ite (write_orderly h) (storeLanes_orderly h)

theorem execVst_orderly {hart : Hart} {fmt : VFmt} {d a : BitVec 5} {w pm : BitVec 3} (h : Orderly s t) :
    OrderlyNext s (execVst hart fmt d a w pm t) := by
  fun_cases execVst hart fmt d a w pm t
  exact hartOp_orderly h fun _ _ h => .foldl (fun _ _ g => storeUnit_orderly g) (unitOffset_orderly h)

theorem elemOffset_orderly {x : DWord} (h : Orderly s t) : Orderly s (elemOffset x t).2 :=
  .ite_of (p := Prod.snd) h (free_orderly h)

theorem execVgather_orderly {hart : Hart} {d a b : BitVec 5} {w pm : BitVec 3} (h : Orderly s t) :
    OrderlyNext s (execVgather hart d a b w pm t) := by
  fun_cases execVgather hart d a b w pm t
  exact hartOp_orderly h fun _ _ h => progReads_orderly (elemOffset_orderly h) fun _ g => g.upd

theorem execVscatter_orderly {hart : Hart} {d a b : BitVec 5} {w pm : BitVec 3} (h : Orderly s t) :
    OrderlyNext s (execVscatter hart d a b w pm t) := by
  fun_cases execVscatter hart d a b w pm t
  exact hartOp_orderly h fun _ _ h => .foldl (fun _ _ g => .ite (write_orderly g) <|
      write_orderly (free_orderly g)) (elemOffset_orderly h)

theorem execVsample_orderly {hart : Hart} {a : BitVec 5} {w : BitVec 3} (h : Orderly s t) :
    OrderlyNext s (execVsample hart a w t) := by
  fun_cases execVsample hart a w t
  exact hartOp_orderly h fun _ _ h => progReads_orderly (unitOffset_orderly h) fun _ g => .ite (progConds_orderly
      (winWrite_orderly g)) <| progReads_orderly g fun _ k => progConds_orderly (winWrite_orderly k)

end

/-! ## Tiles, collectives and the loader -/

section
variable {s t u : State}

theorem countProducts_orderly {acct core : Nat} {x : Desc} {as bs : List (List Val)} (h : Orderly s t) :
    Orderly s (countProducts acct core x as bs t) := .upd <| .upd <| .upd (free_orderly h)

theorem writeCodes_orderly {acct a w : Nat} {codes : List Nat} (h : Orderly s t) : Orderly s (writeCodes acct a w codes t) :=
  write_orderly h.upd

theorem OutPlane.store_orderly {o : OutPlane} {acct m n : Nat} {vals : List Word} (h : Orderly s t) :
    Orderly s (OutPlane.store o acct m n vals t).1 := by
  refine .ite_of (p := Prod.fst) (.foldl (fun _ _ h => write_orderly h) <| .foldl (fun _ _ h => writeCodes_orderly h) h) ?_
  exact .foldl (fun _ _ h => writeCodes_orderly h) h

theorem epilogue_orderly {p : Pkg} {d : Desc} {outs : List LaOut} (h : Orderly s t) :
    Orderly s (epilogue p d outs t).1 := by
  have amax := amaxMerge_orderly (p := p) (tid := d.tensorId)
    (w := finiteMax ((outs.filter fun o => !o.nonfinite).map (·.word))) h
  unfold epilogue
  exact .ite_of (p := Prod.fst)
    (OutPlane.store_orderly (OutPlane.store_orderly (.ite_of (p := Prod.fst) (OutPlane.store_orderly amax) amax)))
    (OutPlane.store_orderly (.ite_of (p := Prod.fst) (OutPlane.store_orderly amax) amax))

theorem Pkg.rerunProducts_orderly {p : Pkg} {i : Nat} {last : Desc} {A : Int} (h : Orderly s t) :
    Orderly s (Pkg.rerunProducts p i last A t).2 := by
  refine .foldl_snd (fun _ _ h => ?_) h
  split
  · exact countProducts_orderly h
  · exact h

theorem rerunTile_orderly {p : Pkg} {i : Nat} {A : Int} (h : Orderly s t) :
    Orderly s (rerunTile p i A t).1 := by
  fun_cases rerunTile p i A t
  · exact h
  · exact pkgReads_orderly h (fun _ h => h)
  · exact structFail_orderly (.of_snd (Pkg.rerunProducts_orderly h.upd) ‹_›)
  · exact pkgWrites_orderly (.of_snd (Pkg.rerunProducts_orderly h.upd) ‹_›) (fun _ h => h)
  · exact .of_snd (Pkg.rerunProducts_orderly h.upd) ‹_›
  · exact write_orderly (.upd (.upd (.upd (.upd (.upd (.of_snd (Pkg.rerunProducts_orderly h.upd) ‹_›))))))

theorem rerunGroup_orderly {p : Pkg} {rgroup pass : Nat} {A : Int} {r : Rerun} (h : Orderly s r.state) :
    Orderly s (rerunGroup p rgroup pass A r).state := by
  refine .foldl_of (p := Rerun.state) (fun r d h => ?_) h
  exact .ite_of (p := Rerun.state) h (.ite_of (p := Rerun.state) (rerunTile_orderly h) h.upd)

theorem rerunProducers_orderly {p : Pkg} {rgroup pass : Nat} {A : Int} {r : Rerun} {asked : Asked} (h : Orderly s t)
    (e : rerunProducers p rgroup pass A t = some (r, asked)) : Orderly s r.state := by
  have own : Orderly s (rerunGroup p rgroup pass A ⟨t, false, true⟩).state := rerunGroup_orderly h
  unfold rerunProducers at e
  split at e
  · cases e
    exact h
  dsimp only at e
  split at e
  · cases e
  split at e
  · cases e
    exact h
  split at e
  · cases e
    exact .foldl_of (p := Rerun.state) (fun _ _ h => rerunGroup_orderly h) own
  · cases e
    exact .foldl (fun _ _ h => sendTo_orderly h) (.foldl_of (p := Rerun.state) (fun _ _ h => rerunGroup_orderly h) own)

theorem execTile_orderly {d : DescId} (h : Orderly s t) : OrderlyNext s (execTile d t) := by
  fun_cases execTile d t
  case case1 | case2 | case4 | case6 => exact .next h
  case case3 => exact .next <| stopWith_orderly h fun _ h => h.upd
  case case5 =>
    exact .next <| workReads_orderly h (fun _ h => h.upd) fun _ h => .upd <| .ite (countProducts_orderly h) <|
        .upd (countProducts_orderly h)

theorem finishTile_orderly {p : Pkg} {core : Nat} {first : DescId} {chain : List Nat} {rgroup result : Nat} (h : Orderly s t) :
    Orderly s (finishTile p core first chain rgroup result t) := by
  fun_cases finishTile p core first chain rgroup result t
  · exact .foldl (fun _ _ h => completeDesc_orderly h) <| releaseLinks_orderly <| .foldl (fun _ _ h => h.upd) <|
        .upd (meterCycles_orderly h)
  · exact releaseLinks_orderly <| .foldl (fun _ _ h => h.upd) <| .upd (meterCycles_orderly h)

theorem passEnd_orderly {p : Pkg} {first : DescId} {core : Nat} {chain : List Nat} {run : TileRun} {last : Desc} {acc : List La}
    (h : Orderly s t) :
    Orderly s (passEnd p first core chain run last acc t) := by
  refine .ite (carry_orderly h fun _ h => workWrites_orderly h (fun _ g => g.upd) fun _ g => finishTile_orderly (write_orderly
      g.upd)) <| .ite ?_ <| workWrites_orderly h (fun _ h => h.upd) fun _ h => finishTile_orderly <|
      countConds_orderly (epilogue_orderly h)
  split
  · exact stopWith_orderly h fun _ h => h.upd
  · exact .ite (rerunProducers_orderly h ‹_›) <| .upd <| .upd <| .upd (rerunProducers_orderly h ‹_›)

theorem execTilePassEnd_orderly {d : DescId} (h : Orderly s t) : OrderlyNext s (execTilePassEnd d t) := by
  fun_cases execTilePassEnd d t
  case case1 | case2 | case4 => exact .next h
  case case3 =>
    refine .next <| workReads_orderly h (fun _ h => h.upd) fun _ h => ?_
    split
    · dsimp only
      split
      · exact structFail_orderly h.upd
      · exact passEnd_orderly h
    dsimp only
    split
    · exact structFail_orderly h.upd
    · exact passEnd_orderly h

theorem contribute_orderly {p : Pkg} {x : Desc} {c : Coll} {seat : Seat} {r : Round} (h : Orderly s t) :
    Orderly s (contribute p x c seat r t) := by
  fun_cases contribute p x c seat r t
  refine carry_orderly h fun _ h => pkgReads_orderly h fun _ g => ?_
  split
  · exact structFail_orderly g
  · exact .foldl (fun _ _ h => sendTo_orderly h) g.upd

theorem tellRerun_orderly {o : Owed} {held : Bool} (h : Orderly s t) : Orderly s (tellRerun o held t) := sendTo_orderly h

theorem answerOne_orderly {o : Owed} (h : Orderly s t) : Orderly s (answerOne t o) := .ite h (tellRerun_orderly h.upd)

theorem answerOwed_orderly (h : Orderly s t) : Orderly s (answerOwed t) := .foldl (fun _ _ h => answerOne_orderly h) h

theorem deliver_orderly {d : DescId} {c : Coll} {res : Bytes} (h : Orderly s t) : Orderly s (deliver d c res t) := by
  fun_cases deliver d c res t
  · exact releaseLinks_orderly h.upd
  · exact pkgWrites_orderly h fun _ h => releaseLinks_orderly <| .upd <| .upd (write_orderly h)

theorem collectRow_orderly {op : Nat} {d : DescId} (h : Orderly s t) : OrderlyNext s (collectRow op d t) := by
  fun_cases collectRow op d t
  case case1 | case2 | case6 => exact .next h
  case case3 => exact .next (structFail_orderly h)
  case case4 => exact .next (deliver_orderly h)
  case case5 => exact .next (.ite h h.upd)
  case case7 => exact .next (contribute_orderly h.upd)

theorem execAllreduce_orderly {d : DescId} (h : Orderly s t) : OrderlyNext s (execAllreduce d t) := collectRow_orderly h

theorem execReduce_orderly {d : DescId} (h : Orderly s t) : OrderlyNext s (execReduce d t) := collectRow_orderly h

theorem execBroadcast_orderly {d : DescId} (h : Orderly s t) : OrderlyNext s (execBroadcast d t) := collectRow_orderly h

theorem execAllgather_orderly {d : DescId} (h : Orderly s t) : OrderlyNext s (execAllgather d t) := collectRow_orderly h

theorem execBarrier_orderly {d : DescId} (h : Orderly s t) : OrderlyNext s (execBarrier d t) := collectRow_orderly h

theorem failRound_orderly {d : DescId} {c : Coll} {seat : Seat} {die : Nat} (h : Orderly s t) :
    Orderly s (failRound d c seat die t) := structFail_orderly h.upd

theorem finishRound_orderly {d : DescId} {c : Coll} {seat : Seat} {die result : Nat} {out : Bytes} (h : Orderly s t) :
    Orderly s (finishRound d c seat die result out t) := answerOwed_orderly (deliver_orderly h.upd)

theorem longSums_orderly {c : Coll} {sums : List La} {members : Nat} (h : Orderly s t) :
    Orderly s (longSums c sums members t).2 := by
  refine .ite_of (p := Prod.snd) h ?_
  exact h.upd

theorem longSeen_orderly {acct die : Nat} {c : Coll} {sums : List La} {sent : List Bytes} (h : Orderly s t) :
    Orderly s (longSeen acct die c sums sent t).2 := by
  fun_cases longSeen acct die c sums sent t
  exact .upd <| .upd <| .of_snd (longSums_orderly h) ‹_›

theorem laRound_orderly {d : DescId} {p : Pkg} {x : Desc} {c : Coll} {seat : Seat} {r : Round} {sent : List Bytes}
    {las : List (List La)} (h : Orderly s t) :
    Orderly s (laRound d p x c seat r sent las t) := by
  refine .ite ?_ <| .ite (finishRound_orderly <| .upd (longSeen_orderly h)) <|
      .ite (finishRound_orderly (longSeen_orderly h)) <| finishRound_orderly <| countConds_orderly <|
      amaxMerge_orderly (longSeen_orderly h)
  split
  · exact stopWith_orderly h fun _ h => h
  · exact .ite (rerunProducers_orderly h ‹_›) <| .upd <| .upd <| longSeen_orderly (rerunProducers_orderly h ‹_›)

theorem execRoundComplete_orderly {d : DescId} {others : List (Nat × Bytes)} (h : Orderly s t) :
    OrderlyNext s (execRoundComplete d others t) := by
  fun_cases execRoundComplete d others t
  case case1 | case2 | case3 | case4 | case6 => exact .next h
  case case5 => exact .next <| .ite (deliver_orderly h) h
  case case7 => exact .next <| stopWith_orderly h fun _ h => h
  case case8 => exact .next <| .ite (contribute_orderly h) h
  case case9 | case10 | case12 => exact .next <| failRound_orderly <| .ite (contribute_orderly h) h
  case case11 => exact .next <| laRound_orderly <| .ite (contribute_orderly h) h
  case case13 => exact .next <| finishRound_orderly <| .ite (contribute_orderly h) h

theorem landPut_orderly {acct drop off : Nat} {js : JobSlot} {data : Bytes} (h : Orderly s t)
    (e : landPut acct js drop off data t = some u) : Orderly s u := by
  unfold landPut at e
  split at e
  · cases e
  split at e
  · cases e
  · cases e
    exact .upd (write_orderly h.upd)

theorem bumpSomeDie_orderly {src : Nat} (h : Orderly s t) : Orderly s (bumpSomeDie src t) := .upd (free_orderly h)

theorem discardMsg_orderly (h : Orderly s t) : Orderly s (discardMsg t) := whenOn_orderly h <| .upd (bumpSomeDie_orderly h)

theorem execPut_orderly {d : DescId} (h : Orderly s t) : OrderlyNext s (execPut d t) := by
  fun_cases execPut d t
  case case1 | case2 | case4 => exact .next h
  case case3 => exact .next (structFail_orderly h)
  case case5 =>
    refine .next <| carry_orderly h fun _ h => pkgReads_orderly h fun _ g => .ite ?_ <| .ite (.upd <|
        free_orderly (sendTo_orderly g.upd)) <| structFail_orderly <| free_orderly (sendTo_orderly g.upd)
    split
    · exact structFail_orderly (discardMsg_orderly g.upd)
    · exact .upd (landPut_orderly g.upd ‹_›)

theorem execPutLanded_orderly {src : BitVec 13} {job : Word} {drop : BitVec 6} {off : Nat} {data : Bytes} (h : Orderly s t) :
    OrderlyNext s (execPutLanded src job drop off data t) := by
  fun_cases execPutLanded src job drop off data t
  · exact .next (discardMsg_orderly h)
  · exact .next (discardMsg_orderly h)
  · exact .next <| wakeUp_orderly (landPut_orderly h ‹_›)

theorem rerunShare_orderly {pass : Nat} {r : Rerun} {q : Pkg × Nat} (h : Orderly s r.state) :
    Orderly s (rerunShare pass r q).state := by
  unfold rerunShare
  split
  · exact h
  · exact rerunGroup_orderly h

theorem execRerunRequest_orderly {src : BitVec 13} {job rkey : Word} {pass : BitVec 2} (h : Orderly s t) :
    OrderlyNext s (execRerunRequest src job rkey pass t) := by
  have shares : ∀ {qs : List (Pkg × Nat)} {r : Rerun}, Orderly s r.state →
      Orderly s (qs.foldl (rerunShare pass.toNat) r).state := .foldl_of (p := Rerun.state) fun _ _ h => rerunShare_orderly h
  have awake := wakeUp_orderly h
  fun_cases execRerunRequest src job rkey pass t
  · exact .next (discardMsg_orderly h)
  · exact .next (answerOne_orderly awake)
  · exact .next (tellRerun_orderly awake)
  · exact .next awake
  · exact .next (shares awake)
  · exact .next (answerOne_orderly (shares awake).upd)

theorem execPackageStart_orderly {p : PkgId} (h : Orderly s t) : OrderlyNext s (execPackageStart p t) := by
  fun_cases execPackageStart p t
  case case1 | case2 | case4 => exact .next h
  case case3 => exact .next h.upd
  case case5 => exact .next <| pkgReads_orderly h fun _ h => .upd <| .foldl (fun _ _ g => g.upd) (prologue_orderly h)

theorem startDesc_orderly {p : Pkg} {i : Nat} {d : Desc} (h : Orderly s t) : Orderly s (startDesc p i d t) := .ite h.upd h.upd

theorem closeDesc_orderly {d : DescId} {p : Pkg} {x : Desc} {result : Word} (h : Orderly s t) :
    Orderly s (closeDesc d p x result t) := carry_orderly h fun _ h => completeDesc_orderly h

theorem execDescriptorStart_orderly {d : DescId} (h : Orderly s t) : OrderlyNext s (execDescriptorStart d t) := by
  fun_cases execDescriptorStart d t
  case case1 | case2 | case6 => exact .next h
  case case3 => exact .next <| closeDesc_orderly (startDesc_orderly h)
  case case4 => exact .next (startDesc_orderly h)
  case case5 => exact .next <| .upd (startDesc_orderly h)

theorem execVectorProgram_orderly {d : DescId} (h : Orderly s t) : OrderlyNext s (execVectorProgram d t) := by
  fun_cases execVectorProgram d t
  · exact .next h
  · exact .next h
  · exact .next h.upd

theorem segmentTurn_orderly {d : DescId} {p : Pkg} {x : Desc} {f : State → State} (h : Orderly s t)
    (hf : ∀ u, Orderly s u → Orderly s (f u)) :
    Orderly s (segmentTurn d p x t f) := .ite (hf _ h.upd) h

theorem xferSegment_orderly {d : DescId} {p : Pkg} {die : Nat} {b : Bytes} {seg : Nat} {k : State → State} (h : Orderly s t)
    (hk : ∀ u, Orderly s u → Orderly s (k u)) :
    Orderly s (xferSegment d p die b seg k t) := by
  fun_cases xferSegment d p die b seg k t
  · exact h
  · exact carry_orderly h fun _ h => pkgReads_orderly h fun _ g => pkgWrites_orderly g fun _ k => hk _ <|
        .upd (Xf.copy_orderly k)

theorem postedSegment_orderly {d : DescId} {p : Pkg} {x : Desc} (h : Orderly s t) : Orderly s (postedSegment d p x t) := by
  fun_cases postedSegment d p x t
  · exact h
  · exact carry_orderly h fun _ h => xferSegment_orderly h fun _ g => .ite g.upd <| progEnd_orderly (signalSem_orderly g.upd)

theorem execXfer_orderly {d : DescId} (h : Orderly s t) : OrderlyNext s (execXfer d t) := by
  fun_cases execXfer d t
  · exact .next h
  · exact .next <| segmentTurn_orderly h fun _ h => postedSegment_orderly h
  · exact .next <| segmentTurn_orderly h fun _ h => xferSegment_orderly h fun _ g => g.upd
  · exact .next h

theorem execSync_orderly {d : DescId} (h : Orderly s t) : OrderlyNext s (execSync d t) := by
  fun_cases execSync d t
  case case1 | case2 | case5 => exact .next h
  case case3 => exact .next (closeDesc_orderly h)
  case case4 => exact .next <| closeDesc_orderly (startDesc_orderly h)

theorem execPrefetch_orderly {d : DescId} (h : Orderly s t) : OrderlyNext s (execPrefetch d t) := by
  fun_cases execPrefetch d t
  case case1 | case2 | case3 | case4 => exact .next h
  case case5 =>
    exact .next <| segmentTurn_orderly h fun _ h => .ite h <| carry_orderly h fun _ g => pkgReads_orderly g fun _ k =>
        pkgWrites_orderly k fun _ j => .upd (Pf.copySeg_orderly j)

theorem execDescriptorComplete_orderly {d : DescId} (h : Orderly s t) : OrderlyNext s (execDescriptorComplete d t) := by
  fun_cases execDescriptorComplete d t
  · exact .next h
  · exact .next h
  · exact .next <| carry_orderly h fun _ h => .foldl (fun _ _ g => completeDesc_orderly g) h
  · exact .next (closeDesc_orderly h)

theorem execRunLimitExpiry_orderly {p : PkgId} (h : Orderly s t) : OrderlyNext s (execRunLimitExpiry p t) := by
  fun_cases execRunLimitExpiry p t
  · exact .next h
  · exact .next (endPkg_orderly h.upd)
  · exact .next (beginStop_orderly h)
  · exact .next h

theorem execVectorTimeLimit_orderly {core : BitVec 7} (h : Orderly s t) : OrderlyNext s (execVectorTimeLimit core t) := by
  fun_cases execVectorTimeLimit core t
  · exact .next h
  · exact .next <| progEnd_orderly <| .upd (beginStop_orderly h.upd)

theorem execBudgetExhausted_orderly {hart : Hart} (h : Orderly s t) : OrderlyNext s (execBudgetExhausted hart t) := by
  fun_cases execBudgetExhausted hart t
  · exact .next h
  · exact .next (progEnd_orderly h.upd)
  · exact .next h

theorem execForcedStop_orderly {p : PkgId} (h : Orderly s t) : OrderlyNext s (execForcedStop p t) := by
  fun_cases execForcedStop p t
  · exact .next h
  · exact .next <| .ite (endPkg_orderly h) h

theorem execWpCancel_orderly {c : Cmd} (h : Orderly s t) : OrderlyNext s (execWpCancel c t) := by
  refine runCmd_orderly h fun _ h => .check h ?_
  split
  · exact .done h
  refine .check h ?_
  dsimp only
  split
  · exact .check (beginStop_orderly h) <| .wait (beginStop_orderly h)
  · exact .done (beginStop_orderly h)

theorem execWpQuery_orderly {c : Cmd} (h : Orderly s t) : OrderlyNext s (execWpQuery c t) := by
  refine runCmd_orderly h fun _ h => .check h ?_
  split
  · exact .done h
  · exact .done h

theorem execSemRead_orderly {c : Cmd} (h : Orderly s t) : OrderlyNext s (execSemRead c t) := by
  refine runCmd_orderly h fun _ h => ?_
  split
  · exact .done h
  · exact .check h (.done h)

theorem execSemSet_orderly {c : Cmd} (h : Orderly s t) : OrderlyNext s (execSemSet c t) := by
  refine runCmd_orderly h fun _ h => ?_
  split
  · exact .done h
  · exact .check h (.done h.upd)

theorem execSemSignal_orderly {c : Cmd} (h : Orderly s t) : OrderlyNext s (execSemSignal c t) := by
  refine runCmd_orderly h fun _ h => ?_
  split
  · exact .done h
  · exact .check h (.done h.upd)

theorem addTensors_orderly {p : Pkg} {ts : List Nat} (h : Orderly s t) : Orderly s (addTensors p ts t) := by
  refine .ite h.upd ?_
  split
  · exact h.upd
  · exact h

theorem acceptPkg_orderly {p : Pkg} (h : Orderly s t) : Orderly s (acceptPkg p t) :=
  putRecord_orderly <| .upd <| .upd (addTensors_orderly h)

theorem discoverCode_orderly {p : Pkg} (h : Orderly s t) : Orderly s (discoverCode p t) :=
  .foldl (fun _ _ h => .ite (discover_orderly h) h) h

theorem execWpSubmit_orderly {c : Cmd} (h : Orderly s t) : OrderlyNext s (execWpSubmit c t) := by
  refine runCmd_orderly h fun _ h => .ite (.done h) <| .ite (.done h) ?_
  split
  · exact .done h
  · exact .done (discover_orderly h)
  · exact .hold
  split
  · exact .done h
  · exact .ite (.done (discoverCode_orderly h)) <| .done <| .upd (acceptPkg_orderly h)

end

/-! ## Sequences, models and accounts -/

section
variable {s t u : State}

theorem layerStep_orderly {c : Copy} {plan : Bytes} {k : KvSet} {q : Seq} {j l : Nat} {x : List Word} (h : Orderly s t) :
    Orderly s (layerStep c plan k q j l x t).1 := by
  fun_cases layerStep c plan k q j l x t
  exact write_orderly (write_orderly h.upd)

theorem positionLogits_orderly {c : Copy} {plan : Bytes} {k : KvSet} {q : Seq} {tok j : Nat} (h : Orderly s t) :
    Orderly s (positionLogits c plan k q tok j t).1 := by
  fun_cases positionLogits c plan k q tok j t
  refine .of_fst (.foldl_fst (fun _ _ h => ?_) h) ‹_›
  split
  · exact .of_fst (layerStep_orderly h) ‹_›

theorem stepTokens_orderly {slot : Nat} {m : Model} {epoch : Nat} {q : Seq} {drafts : List (Nat × Word)} (h : Orderly s t) :
    Orderly s (stepTokens slot m epoch q drafts t).1 := by
  fun_cases stepTokens slot m epoch q drafts t
  · exact h
  · refine .of_snd (free_orderly <| .of_fst (.foldl_fst (fun _ _ h => ?_) h) ‹_›) ‹_›
    split
    · exact .of_fst (positionLogits_orderly h) ‹_›

theorem notifySeq_orderly {i : Nat} (h : Orderly s t) : Orderly s (notifySeq i t) := by
  fun_cases notifySeq i t
  · exact h
  · exact post_orderly h

theorem stopIdleGrid_orderly {slot : Nat} (h : Orderly s t) : Orderly s (stopIdleGrid slot t) := .ite h h.upd

theorem setSeqState_orderly {i : Nat} {st : SeqState} (h : Orderly s t) : Orderly s (setSeqState i st t) := by
  fun_cases setSeqState i st t
  · exact stopIdleGrid_orderly (notifySeq_orderly h.upd)
  · exact notifySeq_orderly h.upd

theorem scrambleSlot_orderly {q : Seq} {m : Model} {slot : Nat} (h : Orderly s t) : Orderly s (scrambleSlot q m slot t) := by
  refine .foldl (fun _ _ h => ?_) h
  split
  · exact h
  · exact scramble_orderly h

theorem freeTentative_orderly {i : Nat} (h : Orderly s t) : Orderly s (freeTentative i t) := by
  fun_cases freeTentative i t
  · exact h
  · exact h
  · exact .upd <| .foldl (fun _ _ h => scrambleSlot_orderly h) h

theorem endSeq_orderly {i : Nat} {st : SeqState} {cause : Nat} (h : Orderly s t) : Orderly s (endSeq i st cause t) := by
  fun_cases endSeq i st cause t
  · exact h
  · exact finishWait_orderly <| finishWait_orderly <| setSeqState_orderly <| .upd <| .upd (freeTentative_orderly h)

theorem faultModel_orderly {slot cause : Nat} (h : Orderly s t) : Orderly s (faultModel slot cause t) :=
  .foldl (fun _ _ h => endSeq_orderly h) h

theorem lookupPrompt_orderly {i : Nat} (h : Orderly s t) : Orderly s (lookupPrompt i t) := by
  fun_cases lookupPrompt i t
  · exact h
  · exact h
  · exact .upd <| .upd <| .of_snd (domainInst_orderly h) ‹_›

theorem grantSeq_orderly {i home : Nat} (h : Orderly s t) : Orderly s (grantSeq i home t) := by
  fun_cases grantSeq i home t
  · exact h
  · exact h
  · exact lookupPrompt_orderly (setSeqState_orderly h.upd)
  · exact .upd (setSeqState_orderly h.upd)

theorem execAdmitGrant_orderly {slot : BitVec 6} (h : Orderly s t) : OrderlyNext s (execAdmitGrant slot t) := by
  fun_cases execAdmitGrant slot t
  · exact .next (grantSeq_orderly h)
  · exact .next h
  · exact .next h

theorem importRead_orderly {acct : Nat} {x : Import} (h : Orderly s t) : Orderly s (importRead acct x t).2.2 := by
  fun_cases importRead acct x t
  · exact h
  · exact readPage_orderly h

theorem execImportDone_orderly {seq : BitVec 14} {ok : Bool} (h : Orderly s t) :
    OrderlyNext s (execImportDone seq ok t) := by
  fun_cases execImportDone seq ok t
  case case1 => exact .next h
  case case2 read _ => exact .next (.upd (.upd (.of_last (importRead_orderly h) read)))
  case case3 read _ _ => exact .next (.upd (.of_last (importRead_orderly h) read))
  case case4 read _ _ _ drawn _ =>
    exact .next (.upd (writePage_orderly (drawFrame_orderly (.of_last (importRead_orderly h) read) drawn)))
  case case5 => exact .next h

theorem drawPages_orderly {i n : Nat} (h : Orderly s t) : Orderly s (drawPages i n t) := by
  induction n with
  | zero => exact h
  | succ n ih =>
    unfold drawPages
    split
    · exact h
    split
    · exact h
    dsimp only
    split
    · exact ih
    split
    · exact ih
    split
    · exact ih
    · exact (drawFrame_orderly ih ‹_›).upd

theorem tagSlots_orderly {i a b tag : Nat} (h : Orderly s t) : Orderly s (tagSlots i a b tag t) := by
  fun_cases tagSlots i a b tag t
  · exact h
  · exact h
  · exact h.upd

theorem bindChunk_orderly {i : Nat} {m : Model} {pin : Bool} (h : Orderly s t) : Orderly s (bindChunk i m pin t) :=
  .ite h.upd h.upd

theorem execPrefillLaunch_orderly {seq : BitVec 14} (h : Orderly s t) : OrderlyNext s (execPrefillLaunch seq t) := by
  fun_cases execPrefillLaunch seq t
  case case1 | case2 | case3 | case4 => exact .next h
  case case5 => exact .next (bindChunk_orderly h)
  case case6 => exact .next <| drawPages_orderly (bindChunk_orderly h)
  case case7 => exact .next <| endSeq_orderly <| drawPages_orderly (bindChunk_orderly h)
  case case8 =>
    exact .next <| .upd <| .upd <| .foldl (fun _ _ h => h.upd) <| prologue_orderly <| acceptPkg_orderly <|
        tagSlots_orderly <| drawPages_orderly (bindChunk_orderly h)

theorem writeRing_orderly {slot : Nat} {recs : List Bytes} (h : Orderly s t) : Orderly s (writeRing slot recs t) := by
  fun_cases writeRing slot recs t
  · exact h
  · exact h
  · exact .upd <| write_orderly <| .foldl (fun _ _ h => write_orderly h) h

theorem commitStep_orderly {i slot0 : Nat} {toks : List Tok} {epoch : Nat} {prefill : Bool} (h : Orderly s t) :
    Orderly s (commitStep i slot0 toks epoch prefill t).1 := by
  fun_cases commitStep i slot0 toks epoch prefill t
  · exact h
  · exact publishSeq_orderly <| .upd <| freeTentative_orderly (tagSlots_orderly h.upd)

theorem enterDecode_orderly {i : Nat} (h : Orderly s t) : Orderly s (enterDecode i t) := by
  fun_cases enterDecode i t
  · exact h
  · exact .upd (setSeqState_orderly h)

theorem execFirstTokenCommit_orderly {seq : BitVec 14} (h : Orderly s t) : OrderlyNext s (execFirstTokenCommit seq t) := by
  fun_cases execFirstTokenCommit seq t
  case case1 | case3 | case7 | case11 => exact .next h
  case case2 | case4 | case5 => exact .next (endSeq_orderly h)
  case case6 => exact .next <| .ite (endSeq_orderly h.upd) (endSeq_orderly h)
  case case8 => exact .next <| publishSeq_orderly (tagSlots_orderly h.upd)
  case case9 => exact .next (endSeq_orderly h.upd)
  case case10 =>
    refine .next ?_
    split
    · exact endSeq_orderly <| writeRing_orderly <| .of_fst (commitStep_orderly h.upd) ‹_›
    · exact enterDecode_orderly <| writeRing_orderly <| .of_fst (commitStep_orderly h.upd) ‹_›

theorem meterWave_orderly {m : Model} (h : Orderly s t) : Orderly s (meterWave m t) := meterCycles_orderly h

theorem stopWave_orderly {slot : Nat} (h : Orderly s t) : Orderly s (stopWave slot t) := by
  fun_cases stopWave slot t
  · exact meterWave_orderly h.upd
  · exact h
  · exact h

theorem dropWave_orderly {slot : Nat} {w : Wave} (h : Orderly s t) : Orderly s (dropWave slot w t) := by
  refine .foldl (fun _ _ h => ?_) h
  split
  all_goals
    dsimp only
    split
    · exact .upd (freeTentative_orderly h)
    · exact .ite (endSeq_orderly <| .upd <| .upd <| .upd (freeTentative_orderly h)) <| .ite (finishWait_orderly <|
          setSeqState_orderly <| .upd <| .upd <| .upd <| .upd (freeTentative_orderly h)) <| .upd <| .upd <|
          .upd (freeTentative_orderly h)

theorem execFrameEnd_orderly {slot : BitVec 6} (h : Orderly s t) : OrderlyNext s (execFrameEnd slot t) := by
  fun_cases execFrameEnd slot t
  · exact .next h
  · exact .next <| .foldl (fun _ _ h => dropWave_orderly h) <| .upd (stopWave_orderly h)

theorem frameSeqs_orderly {slot : Nat} {m : Model} (h : Orderly s t) : Orderly s (frameSeqs slot m t).1 := by
  fun_cases frameSeqs slot m t
  exact .foldl_fst (fun _ _ h => .ite_of (p := Prod.fst) h h.upd) <| .ite (discover_orderly h) h

theorem execFrameStart_orderly {slot : BitVec 6} (h : Orderly s t) : OrderlyNext s (execFrameStart slot t) := by
  fun_cases execFrameStart slot t
  case case1 | case2 | case4 => exact .next h
  case case3 => exact .next (stopIdleGrid_orderly h)
  case case5 => exact .next h.upd
  case case6 => exact .next <| .upd <| .of_fst (frameSeqs_orderly h.upd) ‹_›

theorem wipeWhere_orderly {p : Nat → Bool} (h : Orderly s t) : Orderly s (t.wipeWhere p) := h.store (Memory.wf_filter · _)

theorem wipeDie_orderly {d : Nat} (h : Orderly s t) : Orderly s (wipeDie d t) := wipeWhere_orderly h

theorem endMoves_orderly {p : MoveOp → Bool} {st : Status} (h : Orderly s t) : Orderly s (endMoves p st t) :=
  .foldl (fun _ _ h => finishWait_orderly h) h.upd

theorem wipeRanges_orderly {rs : List (Nat × Nat)} (h : Orderly s t) : Orderly s (wipeRanges rs t) :=
  .foldl (fun _ _ h => h.store (Memory.wipe_wf · _ _)) h

theorem readKeys_orderly {tr : Traffic} {acct : Nat} {ks : List (Nat × Nat)} (h : Orderly s t) :
    Orderly s (State.readKeys tr acct ks t).2 := engineRead_orderly h

theorem dropModel_orderly {slot : Nat} (h : Orderly s t) : Orderly s (dropModel slot t) :=
  .upd <| .upd <| .upd (wipeWhere_orderly h)

theorem sendPart_orderly {die : Option Nat} {j : JobSlot} {part kind : Nat} {data : Bytes} (h : Orderly s t) :
    Orderly s (sendPart die j part kind data t) := sendTo_orderly h

theorem sendParts_orderly {j : JobSlot} {kind : Nat} {data : Bytes} (h : Orderly s t) : Orderly s (sendParts j kind data t) :=
  .foldl (fun _ _ h => sendPart_orderly h) h

theorem tellReading_orderly {m : Model} {on : Bool} (h : Orderly s t) : Orderly s (tellReading m on t) := by
  fun_cases tellReading m on t
  · exact sendPart_orderly h
  · exact h

theorem setLater_orderly {slot : Nat} {m : Model} {later : List (Nat × Word)} (h : Orderly s t) :
    Orderly s (setLater slot m later t) := .ite h.upd (tellReading_orderly h.upd)

theorem dropLater_orderly {slot : Nat} {m : Model} (h : Orderly s t) : Orderly s (dropLater slot m t) := setLater_orderly h

theorem loseDeposits_orderly {p : Deposit → Bool} (h : Orderly s t) : Orderly s (loseDeposits p t) := by
  refine .upd <| .foldl (fun _ _ h => ?_) h
  split
  · exact sendPart_orderly h
  · exact h

theorem dropWaves_orderly {slot : Nat} (h : Orderly s t) : Orderly s (dropWaves slot t) := by
  refine .upd ?_
  split
  · exact dropLater_orderly <| stopWave_orderly <| .foldl (fun _ _ h => freeTentative_orderly h) h
  · exact stopWave_orderly <| .foldl (fun _ _ h => freeTentative_orderly h) h

theorem beginAcctStop_orderly {a : Nat} (h : Orderly s t) : Orderly s (beginAcctStop a t) := by
  fun_cases beginAcctStop a t
  exact .upd <| .upd <| .upd <| .foldl (fun _ _ h => dropWaves_orderly h) <| .foldl (fun _ _ h => beginStop_orderly h.upd) h.upd

theorem disableCause_orderly {a : Nat} {f : Causes → Causes} (h : Orderly s t) : Orderly s (disableCause a f t) :=
  .ite (beginAcctStop_orderly h.upd) h.upd

theorem enterEnabled_orderly {a : Nat} (h : Orderly s t) : Orderly s (enterEnabled a t) := .ite h.upd h.upd

theorem dropGen_orderly {a : Nat} (h : Orderly s t) : Orderly s (dropGen a t) := by
  refine .upd <| .foldl (fun _ _ h => ?_) h
  split
  · exact .ite h.upd h
  · exact h

theorem killAndWipe_orderly {a : Nat} (h : Orderly s t) : Orderly s (killAndWipe a t) := by
  fun_cases killAndWipe a t
  exact wipeWhere_orderly <| wipeRanges_orderly (killPkgs_orderly h)

theorem stopWork_orderly {a : Nat} (h : Orderly s t) : Orderly s (stopWork a t) := by
  fun_cases stopWork a t
  exact .upd <| .ite (.upd <| .upd <| .upd <| dropGen_orderly <| .foldl (fun _ _ h => dropModel_orderly h) <|
      wipeWhere_orderly <| loseDeposits_orderly (killAndWipe_orderly h)) <| .upd <| .upd <| dropGen_orderly <|
      .foldl (fun _ _ h => dropModel_orderly h) <| wipeWhere_orderly <| loseDeposits_orderly (killAndWipe_orderly h)

theorem settleAcct_orderly {a : Nat} (h : Orderly s t) : Orderly s (settleAcct a t) :=
  .ite h.upd <| .ite h.upd (enterEnabled_orderly h.upd)

theorem endCancelled_orderly {a : Nat} (h : Orderly s t) : Orderly s (endCancelled a t) :=
  .foldl (fun _ _ h => endPkg_orderly h) h

theorem settleWipe_orderly {a : Nat} (h : Orderly s t) : Orderly s (settleWipe a t) := .foldl (fun _ _ h => h.upd) h

theorem execFunctionStopDone_orderly {acct : BitVec 10} (h : Orderly s t) : OrderlyNext s (execFunctionStopDone acct t) := by
  fun_cases execFunctionStopDone acct t
  · exact .next h
  · exact .next <| finishWait_orderly <| settleAcct_orderly <| stopWork_orderly <| settleWipe_orderly <|
        finishAll_orderly (endCancelled_orderly h)

theorem quotaCmd_orderly {c : Cmd} {k : Nat → Quota → Res} (h : Orderly s t) (hk : ∀ x0 x1, OrderlyRes s (k x0 x1)) :
    OrderlyRes s (quotaCmd c t k) := .check h <| .check h <| readFor_orderly h fun _ => .ite (hk _ _) (.done h)

theorem execAcctCreate_orderly {c : Cmd} (h : Orderly s t) : OrderlyNext s (execAcctCreate c t) :=
  runCmd_orderly h fun _ h => quotaCmd_orderly h fun _ _ => .check h <| .check h <| .done <|
    .ite h.upd (enterEnabled_orderly h.upd)

theorem execAcctModify_orderly {c : Cmd} (h : Orderly s t) : OrderlyNext s (execAcctModify c t) :=
  runCmd_orderly h fun _ h => quotaCmd_orderly h fun _ _ => .check h <| .check h <| .check h <| .check h <| .check h <|
    .done <| .upd (.ite h h.upd)

theorem acctCmd_orderly {c : Cmd} {k : Nat → Res} (h : Orderly s t) (hk : ∀ x0, OrderlyRes s (k x0)) :
    OrderlyRes s (acctCmd c t k) := .check h <| .check h <| .check h (hk _)

theorem execAcctDisable_orderly {c : Cmd} (h : Orderly s t) : OrderlyNext s (execAcctDisable c t) :=
  runCmd_orderly h fun _ h => acctCmd_orderly h fun _ => .check h <| .check (disableCause_orderly h) <|
    .wait (disableCause_orderly h)

theorem execAcctEnable_orderly {c : Cmd} (h : Orderly s t) : OrderlyNext s (execAcctEnable c t) :=
  runCmd_orderly h fun _ h => acctCmd_orderly h fun _ => .check h <| .done <| .ite (enterEnabled_orderly h.upd) h.upd

theorem execAcctDestroy_orderly {c : Cmd} (h : Orderly s t) : OrderlyNext s (execAcctDestroy c t) :=
  runCmd_orderly h fun _ h => acctCmd_orderly h fun _ => .check h <| .check h.upd <| .wait (disableCause_orderly h)

theorem execAcctQuery_orderly {c : Cmd} (h : Orderly s t) : OrderlyNext s (execAcctQuery c t) :=
  runCmd_orderly h fun _ h => .check h <| .check h <| .check h <| .check h <| writeFor_orderly h fun _ g => .done (g _)

theorem execAcctMemGrant_orderly {c : Cmd} (h : Orderly s t) : OrderlyNext s (execAcctMemGrant c t) := by
  refine runCmd_orderly h fun _ h => .check h ?_
  split
  · exact .done h
  · exact .check h <| .check h <| .check h <| .done <| .upd (wipeWhere_orderly h)

theorem execAcctMemRevoke_orderly {c : Cmd} (h : Orderly s t) : OrderlyNext s (execAcctMemRevoke c t) := by
  refine runCmd_orderly h fun _ h => .check h ?_
  split
  · exact .done h
  · exact .check h <| .check h <| .check h <| .done <| .upd (wipeWhere_orderly h)

theorem retag_orderly (h : Orderly s t) : Orderly s (retag t) :=
  .foldl (fun _ _ h => h.upd) <| .foldl (fun _ _ h => .foldl (fun _ _ g => g.upd) h) h

theorem execPartSet_orderly {c : Cmd} (h : Orderly s t) : OrderlyNext s (execPartSet c t) :=
  runCmd_orderly h fun _ h => .check h <| .check h <| .check h <| .check h <| .done <| .upd <| retag_orderly <|
    .foldl (fun _ _ g => wipeDie_orderly g) h.upd

theorem execRightSet_orderly {c : Cmd} (h : Orderly s t) : OrderlyNext s (execRightSet c t) :=
  runCmd_orderly h fun _ h => .check h <| .check h <| .check h <| .check h <| .check h.upd (.done h.upd)

theorem execAcctFlagsSet_orderly {c : Cmd} (h : Orderly s t) : OrderlyNext s (execAcctFlagsSet c t) :=
  runCmd_orderly h fun _ h => .check h <| .check h (.done h.upd)

end

/-! ## Registers, the ledger's operations, copies and weights -/

section
variable {s t u : State}

theorem unmask_orderly {fn vec : Nat} (h : Orderly s t) : Orderly s (unmask fn vec t) := .ite h.upd h.upd

theorem execMsixUnmask_orderly {fn : BitVec 10} {vector : BitVec 6} (h : Orderly s t) :
    OrderlyNext s (execMsixUnmask fn vector t) := .next <| .ite h (unmask_orderly h)

theorem msixWrite_orderly {fn off : Nat} {w : Word} (h : Orderly s t) : Orderly s (msixWrite fn off w t) := by
  fun_cases msixWrite fn off w t
  case case1 | case2 | case3 | case4 => exact h.upd
  case case5 => exact unmask_orderly h

theorem funcWrite_orderly {fn off : Nat} {w : Word} (h : Orderly s t) : Orderly s (funcWrite fn off w t) := by
  fun_cases funcWrite fn off w t
  case case1 | case2 | case3 | case5 | case6 | case8 | case9 | case10 | case11 => exact h.upd
  case case4 => exact moveTail_orderly h
  case case7 | case12 => exact h

theorem execRegisterWrite_orderly {fn : BitVec 10} {off : BitVec 20} {data : Bytes} (h : Orderly s t) :
    OrderlyNext s (execRegisterWrite fn off data t) := by
  fun_cases execRegisterWrite fn off data t
  · exact .next h
  · exact .next (ringDoorbell_orderly h)
  · exact .next <| .ite (funcWrite_orderly h) h
  · exact .next h.upd
  · exact .next <| .ite (msixWrite_orderly h) <| .ite (msixWrite_orderly (msixWrite_orderly h)) h
  · exact .next h

theorem execMtimeLoRead_orderly {fn : BitVec 10} (h : Orderly s t) : OrderlyNext s (execMtimeLoRead fn t) :=
  .next (.ite h h.upd)

theorem execCntValLowRead_orderly {fn : BitVec 10} {scope : BitVec 4} {index : BitVec 5} (h : Orderly s t) :
    OrderlyNext s (execCntValLowRead fn scope index t) := .ite (.next h) <| .ite (.next h.upd) (.next h.upd)

theorem apReads_orderly {fn a len : Nat} (h : Orderly s t) : Orderly s (apReads fn a len t) :=
  .ite (.upd <| .upd (discover_orderly h)) h.upd

theorem execApertureRead_orderly {fn : BitVec 10} {off : BitVec 36} {len : Nat} (h : Orderly s t) :
    OrderlyNext s (execApertureRead fn off len t) := by
  refine .ite (.next h) ?_
  split
  · exact .next h.upd
  · exact .next <| carry_orderly h fun _ h => apReads_orderly h.upd

theorem execApertureWrite_orderly {fn : BitVec 10} {off : BitVec 36} {data : Bytes} (h : Orderly s t) :
    OrderlyNext s (execApertureWrite fn off data t) := by
  refine .ite (.next h) ?_
  split
  · exact .next h.upd
  · exact .next <| carry_orderly h fun _ h => .ite h.upd (write_orderly h.upd)

theorem onLed_orderly {ld : BitVec 2} {f : LedRegs → LedRegs} (h : Orderly s t) : OrderlyNext s (onLed ld f t) :=
  .next (whenOn_orderly h h.upd)

theorem execLdgMov_orderly {ld : BitVec 2} {d a : BitVec 8} (h : Orderly s t) : OrderlyNext s (execLdgMov ld d a t) :=
  onLed_orderly h

theorem execLdgAdd_orderly {ld : BitVec 2} {d a b : BitVec 8} (h : Orderly s t) : OrderlyNext s (execLdgAdd ld d a b t) :=
  onLed_orderly h

theorem execLdgSub_orderly {ld : BitVec 2} {d a b : BitVec 8} (h : Orderly s t) : OrderlyNext s (execLdgSub ld d a b t) :=
  onLed_orderly h

theorem execLdgMul_orderly {ld : BitVec 2} {d a b : BitVec 8} (h : Orderly s t) : OrderlyNext s (execLdgMul ld d a b t) :=
  onLed_orderly h

theorem execLdgFma_orderly {ld : BitVec 2} {d a b c : BitVec 8} (h : Orderly s t) : OrderlyNext s (execLdgFma ld d a b c t) :=
  onLed_orderly h

theorem execLdgDiv_orderly {ld : BitVec 2} {d a b : BitVec 8} (h : Orderly s t) : OrderlyNext s (execLdgDiv ld d a b t) :=
  onLed_orderly h

theorem execLdgSqrt_orderly {ld : BitVec 2} {d a : BitVec 8} (h : Orderly s t) : OrderlyNext s (execLdgSqrt ld d a t) :=
  onLed_orderly h

theorem execLdgMin_orderly {ld : BitVec 2} {d a b : BitVec 8} (h : Orderly s t) : OrderlyNext s (execLdgMin ld d a b t) :=
  onLed_orderly h

theorem execLdgMax_orderly {ld : BitVec 2} {d a b : BitVec 8} (h : Orderly s t) : OrderlyNext s (execLdgMax ld d a b t) :=
  onLed_orderly h

theorem execLdgFn_orderly {ld : BitVec 2} {d a : BitVec 8} {f : Fn} (h : Orderly s t) : OrderlyNext s (execLdgFn ld d a f t) :=
  onLed_orderly h

theorem execSign_orderly {ld : BitVec 2} {d a : BitVec 8} (h : Orderly s t) : OrderlyNext s (execSign ld d a t) :=
  onLed_orderly h

theorem execSel_orderly {ld : BitVec 2} {d a b c : BitVec 8} (h : Orderly s t) : OrderlyNext s (execSel ld d a b c t) :=
  onLed_orderly h

theorem execAbs_orderly {ld : BitVec 2} {d a : BitVec 8} (h : Orderly s t) : OrderlyNext s (execAbs ld d a t) := onLed_orderly h

theorem execRsum_orderly {ld : BitVec 2} {d a : BitVec 8} {scope : Scope} {imm : BitVec 16} (h : Orderly s t) :
    OrderlyNext s (execRsum ld d a scope imm t) := onLed_orderly h

theorem execRdot_orderly {ld : BitVec 2} {d a b : BitVec 8} {scope : Scope} {imm : BitVec 16} (h : Orderly s t) :
    OrderlyNext s (execRdot ld d a b scope imm t) := onLed_orderly h

theorem execRmax_orderly {ld : BitVec 2} {d a : BitVec 8} {scope : Scope} (h : Orderly s t) :
    OrderlyNext s (execRmax ld d a scope t) := onLed_orderly h

theorem execGram_orderly {ld : BitVec 2} {d a : BitVec 8} {trans : Bool} {imm : BitVec 16} (h : Orderly s t) :
    OrderlyNext s (execGram ld d a trans imm t) := onLed_orderly h

theorem execQema_orderly {ld : BitVec 2} {d a b c : BitVec 8} (h : Orderly s t) : OrderlyNext s (execQema ld d a b c t) :=
  onLed_orderly h

theorem execMml_orderly {ld : BitVec 2} {d a c : BitVec 8} {trans : Bool} {imm : BitVec 16} (h : Orderly s t) :
    OrderlyNext s (execMml ld d a c trans imm t) := onLed_orderly h

theorem execMmr_orderly {ld : BitVec 2} {d a c : BitVec 8} {trans : Bool} {imm : BitVec 16} (h : Orderly s t) :
    OrderlyNext s (execMmr ld d a c trans imm t) := onLed_orderly h

theorem execCir_orderly {ld : BitVec 2} {d a b : BitVec 8} (h : Orderly s t) : OrderlyNext s (execCir ld d a b t) :=
  onLed_orderly h

theorem execNsnorm_orderly {ld : BitVec 2} {d a : BitVec 8} {imm : BitVec 16} (h : Orderly s t) :
    OrderlyNext s (execNsnorm ld d a imm t) := onLed_orderly h

theorem execNsstep_orderly {ld : BitVec 2} {d a b : BitVec 8} {imm : BitVec 16} (h : Orderly s t) :
    OrderlyNext s (execNsstep ld d a b imm t) := onLed_orderly h

theorem resolveHeld_orderly {slot : Nat} (h : Orderly s t) : Orderly s (resolveHeld slot t) := by
  fun_cases resolveHeld slot t
  case case1 | case2 => exact h
  case case3 | case4 => exact finishWait_orderly h.upd

theorem sendDeposit_orderly {m : Model} {c : CopyJob} {whole : Bool} {t₀ : DWord} (h : Orderly s t) :
    Orderly s (sendDeposit m c whole t₀ t) := by
  fun_cases sendDeposit m c whole t₀ t
  · exact h
  · exact .foldl (fun _ _ h => sendPart_orderly h) h

theorem startDrain_orderly {p slot : Nat} {m : Model} {id flags kind : Nat} {crossing request : Bool} (h : Orderly s t) :
    Orderly s (startDrain p slot m id flags kind crossing request t) := by
  fun_cases startDrain p slot m id flags kind crossing request t
  · exact sendDeposit_orderly <| .upd <| .ite (dropLater_orderly <| .upd (.of_snd h.upd ‹_›)) <| .upd (.of_snd h.upd ‹_›)
  · exact .ite (dropLater_orderly <| .upd (.of_snd h.upd ‹_›)) <| .upd (.of_snd h.upd ‹_›)

theorem restoreShard_orderly {slot : Nat} {m : Model} {g : Group} {x : Shard × Nat} {b : Bytes} (h : Orderly s t) :
    Orderly s (restoreShard slot m g x b t) := by
  fun_cases restoreShard slot m g x b t
  · exact .foldl (fun _ _ h => h.upd) <| .foldl (fun _ _ h => .foldl (fun _ _ g => .ite g (putState_orderly g)) <|
        .ite (putHigh_orderly h) <| putLow_orderly (putHigh_orderly h)) h
  · exact .foldl (fun _ _ h => .foldl (fun _ _ g => .ite g (putState_orderly g)) <| .ite (putHigh_orderly h) <|
        putLow_orderly (putHigh_orderly h)) h

theorem restoreShards_orderly {slot : Nat} {m : Model} {xs : List (Shard × Nat)} {b : Bytes} (h : Orderly s t) :
    Orderly s (restoreShards slot m xs b t) := by
  induction xs generalizing b t with
  | nil => exact h
  | cons x xs ih =>
    unfold restoreShards
    split
    · exact ih h
    · exact ih (restoreShard_orderly h)

theorem restoreCopy_orderly {slot : Nat} {m : Model} {image : Bytes} (h : Orderly s t) :
    Orderly s (restoreCopy slot m image t) := .foldl (fun _ _ h => restoreShards_orderly (.ite h.upd h)) h

theorem createEnd_orderly {st : Status} {idx : Nat} (h : Orderly s t) : OrderlyRes s (createEnd st idx t) := .done h

theorem readTable_orderly {acct a size n : Nat} {k : List Bytes → Res} (h : Orderly s t) (hk : ∀ x0, OrderlyRes s (k x0)) :
    OrderlyRes s (readTable acct a size n t k) := by
  fun_cases readTable acct a size n t k
  · exact hk _
  · exact readHeld_orderly h (fun _ h => createEnd_orderly h) <| Res.after_orderly (fun _ h => h.upd) (hk _)

theorem createModel_orderly {c : Cmd} {b : Bytes} {traw sraw graw praw araw : List Bytes} (h : Orderly s t) :
    OrderlyRes s (createModel c b traw sraw graw praw araw t) := by
  fun_cases createModel c b traw sraw graw praw araw t
  case case1 | case2 | case3 | case4 | case5 | case6 | case7 | case8 | case9 | case10 | case11 => exact createEnd_orderly h
  case case12 => exact createEnd_orderly h.upd

theorem execWtCreate_orderly {c : Cmd} (h : Orderly s t) : OrderlyNext s (execWtCreate c t) :=
  runCmd_orderly h fun _ h => .ite (createEnd_orderly h) <| .ite (createEnd_orderly h) <|
    readHeld_orderly h (fun _ g => createEnd_orderly g) <| .ite (createEnd_orderly h) <| .ite (createEnd_orderly h) <|
    Res.after_orderly (fun _ g => g.upd) <| readTable_orderly h fun _ => readTable_orderly h fun _ => readTable_orderly h fun _
    => readTable_orderly h fun _ => readTable_orderly h fun _ => createModel_orderly h

theorem onModelCmd_orderly {c : Cmd} {num : Nat} {ok : Bool} {k : Nat → Model → Res} (h : Orderly s t)
    (hk : ∀ x0 x1, OrderlyRes s (k x0 x1)) :
    OrderlyRes s (onModelCmd c num ok t k) := by
  refine .check h ?_
  split
  · exact .done h
  split
  · exact .done h
  · exact hk _ _

theorem requestMove_orderly {c : Cmd} {slot : Nat} {m : Model} {kind : MoveKind} {limit : Nat} {f : MoveOp → MoveOp}
    (h : Orderly s t) :
    OrderlyRes s (requestMove c slot m kind limit f t) := .check h (.wait h.upd)

theorem execWtLoad_orderly {c : Cmd} (h : Orderly s t) : OrderlyNext s (execWtLoad c t) :=
  runCmd_orderly h fun _ h => onModelCmd_orderly h fun _ _ => .check h <| .check h <| .check h <| .check h <| .check h <|
    .check h <| .check h (requestMove_orderly h)

theorem execWtTurn_orderly {c : Cmd} (h : Orderly s t) : OrderlyNext s (execWtTurn c t) :=
  runCmd_orderly h fun _ h => onModelCmd_orderly h fun _ _ => .check h (requestMove_orderly h)

theorem execWtLearn_orderly {c : Cmd} (h : Orderly s t) : OrderlyNext s (execWtLearn c t) :=
  runCmd_orderly h fun _ h => onModelCmd_orderly h fun _ _ => .check h (requestMove_orderly h)

theorem execWtRebuild_orderly {c : Cmd} (h : Orderly s t) : OrderlyNext s (execWtRebuild c t) :=
  runCmd_orderly h fun _ h => onModelCmd_orderly h fun _ _ => .ite (.check h (requestMove_orderly h)) <|
    readFor_orderly h fun _ => .check h <| .check h <| .check h <| .check h (requestMove_orderly h)

theorem execWtQuery_orderly {c : Cmd} (h : Orderly s t) : OrderlyNext s (execWtQuery c t) :=
  runCmd_orderly h fun _ h => onModelCmd_orderly h fun _ _ => writeFor_orderly h fun _ k => .done (k _)

theorem execWtAnchorSet_orderly {c : Cmd} (h : Orderly s t) : OrderlyNext s (execWtAnchorSet c t) := by
  refine runCmd_orderly h fun _ h => onModelCmd_orderly h fun _ _ => ?_
  split
  · exact .done h
  · exact .check h <| .check h (.done h.upd)

theorem withdrawCopy_orderly {slot : Nat} (h : Orderly s t) : Orderly s (withdrawCopy slot t) := faultModel_orderly h.upd

theorem execWtGenDrop_orderly {c : Cmd} (h : Orderly s t) : OrderlyNext s (execWtGenDrop c t) :=
  runCmd_orderly h fun _ h => onModelCmd_orderly h fun _ _ => .check h <| .done (withdrawCopy_orderly h)

theorem execWtUnload_orderly {c : Cmd} (h : Orderly s t) : OrderlyNext s (execWtUnload c t) :=
  runCmd_orderly h fun _ h => onModelCmd_orderly h fun _ _ => .check h <| .done <| dropModel_orderly <|
    wipeRanges_orderly <| .upd (finishWait_orderly h)

end

/-! ## Moving operations and the ledger's passes -/

section
variable {s t u : State}

theorem landRows_orderly {acct : Nat} {lines : List (Nat × Bytes)} (h : Orderly s t) : Orderly s (landRows acct lines t) :=
  .foldl (fun _ _ h => putKey_orderly h) h.upd

theorem mintShard_orderly {slot : Nat} {m : Model} {o : MoveOp} {slot1 : Bool} {x : Shard × Nat} (h : Orderly s t) :
    Orderly s (mintShard slot m o slot1 x t) := .foldl (fun _ _ h => putKey_orderly (putKey_orderly h)) h

theorem carryFrozen_orderly {slot : Nat} {old new : ModelMap} (h : Orderly s t) : Orderly s (carryFrozen slot old new t) := by
  refine .foldl (fun _ _ h => .foldl (fun _ _ g => .foldl (fun _ _ k => .foldl (fun _ _ j => ?_) k.upd) g) h) h
  split
  · exact .ite (putKey_orderly (putKey_orderly j)) (putKey_orderly j)
  · exact j

theorem mintFor_orderly {slot : Nat} {m : Model} {o : MoveOp} {x : Shard × Nat} (h : Orderly s t) :
    Orderly s (mintFor slot m o x t) := .ite (mintShard_orderly (mintShard_orderly h)) (mintShard_orderly h)

theorem endTurn_orderly {p slot : Nat} {o : MoveOp} {st : Status} {outcome part us : Nat} (h : Orderly s t) :
    Orderly s (endTurn p slot o st outcome part us t) := by
  fun_cases endTurn p slot o st outcome part us t
  · exact resolveHeld_orderly (.ite h.upd h.upd)
  · exact finishWait_orderly <| resolveHeld_orderly (.ite h.upd h.upd)

theorem commitLoad_orderly {p slot : Nat} {o : MoveOp} (h : Orderly s t) : Orderly s (commitLoad p slot o t) :=
  finishWait_orderly h.upd

theorem flipDrain_orderly {p slot : Nat} {d : Decision} (h : Orderly s t) : Orderly s (flipDrain p slot d t) := by
  fun_cases flipDrain p slot d t
  · exact h
  · exact h
  · exact h.upd
  · exact startDrain_orderly h.upd

theorem flipTurn_orderly {p slot : Nat} {m : Model} {o : MoveOp} {d : Decision} (h : Orderly s t) :
    Orderly s (flipTurn p slot m o d t) := endTurn_orderly (flipDrain_orderly h.upd)

theorem flipRebuild_orderly {p slot : Nat} {m : Model} {o : MoveOp} (h : Orderly s t) : Orderly s (flipRebuild p slot m o t) :=
  endTurn_orderly <| .upd <| .upd <| .ite (carryFrozen_orderly h) h

theorem endWithdrawn_orderly {p slot : Nat} {m : Model} {o : MoveOp} {st : Status} {part : Nat} (h : Orderly s t) :
    Orderly s (endWithdrawn p slot m o st part t) := endTurn_orderly (withdrawCopy_orderly h)

theorem Memory.wf_putBytes {m : Memory} {cs : List Host.Cell} (w : m.wf) :
    (cs.foldl (fun m c => m.put c.1 [c.2]) m).wf := by
  induction cs generalizing m with
  | nil => exact w
  | cons c cs ih => exact ih (Memory.put_wf w _ _)

theorem undoLoad_orderly {slot : Nat} {o : MoveOp} {st : Status} (h : Orderly s t) :
    Orderly s (undoLoad slot o st t) :=
  .ite (h.store fun w => Memory.wf_putBytes (Memory.clear_wf w _ _)) h

theorem failMove_orderly {p slot : Nat} {m : Model} {o : MoveOp} {st : Status} {part tensor : Nat} (h : Orderly s t) :
    Orderly s (failMove p slot m o st part tensor t) := by
  fun_cases failMove p slot m o st part tensor t
  · exact finishWait_orderly <| .upd (undoLoad_orderly h)
  · exact finishWait_orderly h.upd
  · exact h.upd
  · exact endTurn_orderly h
  · exact endWithdrawn_orderly h
  · exact h
  · exact h

theorem applyEnd_orderly {d : Decision} (h : Orderly s t) : Orderly s (applyEnd d t) := by
  fun_cases applyEnd d t
  case case1 | case2 | case4 | case9 | case10 => exact h
  case case3 => exact failMove_orderly h
  case case5 => exact commitLoad_orderly h
  case case6 => exact finishWait_orderly h.upd
  case case7 => exact flipTurn_orderly h
  case case8 => exact flipRebuild_orderly h

theorem decideWith_orderly {act : Decision → State → State} {d : Decision} (h : Orderly s t)
    (hact : ∀ x0 u, Orderly s u → Orderly s (act x0 u)) :
    Orderly s (decideWith act d t) := by
  refine hact _ _ ?_
  split
  · exact sendParts_orderly h.upd
  · exact h.upd

theorem takeWith_orderly {act : Decision → State → State} {r : Report} (h : Orderly s t)
    (hact : ∀ x0 u, Orderly s u → Orderly s (act x0 u)) :
    Orderly s (takeWith act r t) := by
  fun_cases takeWith act r t
  · exact h
  · exact decideWith_orderly h fun _ _ h => hact _ _ h
  · exact decideWith_orderly h.upd fun _ _ h => hact _ _ h
  · exact h.upd

theorem reportWith_orderly {act : Decision → State → State} {m : Model} {o : MoveOp} {kind : BarrierKind} {ready : Bool}
    {st : Status} {tensor : Nat} (h : Orderly s t) (hact : ∀ x0 u, Orderly s u → Orderly s (act x0 u)) :
    Orderly s (reportWith act m o kind ready st tensor t) := by
  refine .ite (takeWith_orderly h.upd fun _ _ h => hact _ _ h) ?_
  split
  · exact sendPart_orderly h.upd
  · exact h.upd

theorem reportReady_orderly {p slot : Nat} (h : Orderly s t) : Orderly s (reportReady p slot t) := by
  fun_cases reportReady p slot t
  · exact reportWith_orderly h.upd fun _ _ h => applyEnd_orderly h
  · exact h
  · exact h

theorem failHere_orderly {p slot : Nat} {m : Model} {o : MoveOp} {st : Status} {tensor : Nat} (h : Orderly s t) :
    Orderly s (failHere p slot m o st tensor t) := by
  refine .ite (endWithdrawn_orderly h) ?_
  split
  · exact reportWith_orderly h.upd fun _ _ h => applyEnd_orderly h
  · exact h

theorem copyBuilt_orderly {p slot : Nat} (h : Orderly s t) : Orderly s (copyBuilt p slot t) := by
  fun_cases copyBuilt p slot t
  · exact endTurn_orderly h.upd
  · exact reportReady_orderly h
  · exact h

theorem buildOrPass_orderly {p slot : Nat} (h : Orderly s t) : Orderly s (buildOrPass p slot t) := by
  fun_cases buildOrPass p slot t
  · exact copyBuilt_orderly h
  · exact h
  · exact h

theorem applyEntry_orderly {d : Decision} (h : Orderly s t) : Orderly s (applyEntry d t) := by
  fun_cases applyEntry d t
  · exact h
  · exact h
  · exact buildOrPass_orderly h.upd
  · exact reportReady_orderly h.upd

theorem applyDecision_orderly {d : Decision} (h : Orderly s t) : Orderly s (applyDecision d t) :=
  .ite (applyEntry_orderly h) (applyEnd_orderly h)

theorem execBarrierReport_orderly {r : Report} (h : Orderly s t) : OrderlyNext s (execBarrierReport r t) := by
  fun_cases execBarrierReport r t
  · exact .next (discardMsg_orderly h)
  · exact .next <| .ite (takeWith_orderly (wakeUp_orderly h) fun _ _ h => applyDecision_orderly h) (wakeUp_orderly h)

theorem execBarrierDecision_orderly {d : Decision} (h : Orderly s t) : OrderlyNext s (execBarrierDecision d t) := by
  fun_cases execBarrierDecision d t
  · exact .next (discardMsg_orderly h)
  · exact .next (wakeUp_orderly h)
  · exact .next <| .ite (sendPart_orderly (wakeUp_orderly h)) <| applyDecision_orderly <| .upd <|
        sendPart_orderly (wakeUp_orderly h)

theorem hearAck_orderly {j : JobSlot} {part : Nat} {kind : BarrierKind} {inst : Word} (h : Orderly s t) :
    Orderly s (hearAck j part kind inst t) := .ite h h.upd

theorem answerAsk_orderly {j : JobSlot} {part : Nat} {kind : BarrierKind} {inst : Word} (h : Orderly s t) :
    Orderly s (answerAsk j part kind inst t) := by
  fun_cases answerAsk j part kind inst t
  · exact sendPart_orderly h
  · exact h

theorem repeatBarrier_orderly {b : Barrier} (h : Orderly s t) : Orderly s (repeatBarrier b t) := by
  fun_cases repeatBarrier b t
  case case1 | case2 | case4 => exact h
  case case3 | case5 => exact .foldl (fun _ _ h => sendPart_orderly h) h

theorem repeatBarriers_orderly (h : Orderly s t) : Orderly s (repeatBarriers t) :=
  .foldl (fun _ _ h => repeatBarrier_orderly h) h

theorem tryEntry_orderly {p slot : Nat} (h : Orderly s t) : Orderly s (tryEntry p slot t) := by
  fun_cases tryEntry p slot t
  · exact h
  · exact reportWith_orderly h.upd fun _ _ h => applyDecision_orderly h
  · exact h

theorem beginMove_orderly {p : Nat} {m : Model} {o : MoveOp} (h : Orderly s t) : Orderly s (beginMove p m o t) := by
  fun_cases beginMove p m o t
  · exact failMove_orderly h.upd
  · exact .upd <| .upd <| .upd (wipeWhere_orderly h)
  · exact tryEntry_orderly h.upd
  · exact tryEntry_orderly h.upd
  · exact reportReady_orderly h.upd
  · exact startDrain_orderly h
  · exact h.upd

theorem execMovingOpStart_orderly {part : BitVec 3} (h : Orderly s t) : OrderlyNext s (execMovingOpStart part t) := by
  fun_cases execMovingOpStart part t
  · exact .next <| .ite (tryEntry_orderly h) h
  · exact .next h
  · exact .next h
  · exact .next h.upd
  · exact .next (finishWait_orderly h.upd)
  · exact .next (beginMove_orderly h.upd)

theorem segFailed_orderly {p slot : Nat} {m : Model} {o : MoveOp} {x : Shard} (h : Orderly s t) :
    Orderly s (segFailed p slot m o x t) := .ite (failHere_orderly h) h.upd

theorem fetchDone_orderly {p slot : Nat} (h : Orderly s t) : Orderly s (fetchDone p slot t) := by
  fun_cases fetchDone p slot t
  · exact h.upd
  · exact reportReady_orderly h.upd
  · exact buildOrPass_orderly h.upd

theorem putLoaded_orderly {slot : Nat} {m : Model} {i r c : Nat} {x : Shard} {split : Bool} {hs : List (BitVec 16 × BitVec 16)}
    (h : Orderly s t) :
    Orderly s (putLoaded slot m i r c x split hs t) := by
  fun_cases putLoaded slot m i r c x split hs t
  · exact putLow_orderly <| putHigh_orderly (putHigh_orderly h.upd)
  · exact putHigh_orderly (putHigh_orderly h.upd)

theorem execLoadSegment_orderly {slot : BitVec 6} {ok : Bool} (h : Orderly s t) :
    OrderlyNext s (execLoadSegment slot ok t) := by
  fun_cases execLoadSegment slot ok t
  case case1 | case3 => exact .next h
  case case2 => exact .next <| .ite h (fetchDone_orderly h)
  case case4 => exact .next (segFailed_orderly h.upd)
  case case5 => exact .next h.upd
  case case6 | case7 => exact .next (failHere_orderly h.upd)
  case case8 =>
    exact .next <| .ite (fetchDone_orderly <| .upd <| .foldl (fun _ _ h => putLoaded_orderly h) h.upd) <| .upd <|
        .foldl (fun _ _ h => putLoaded_orderly h) h.upd

theorem limitExpires_orderly {p slot : Nat} {m : Model} {o : MoveOp} {tensor : Nat} (h : Orderly s t) :
    Orderly s (limitExpires p slot m o tensor t) := .ite h (failHere_orderly h)

theorem execLoadLimitExpiry_orderly {slot : BitVec 6} (h : Orderly s t) : OrderlyNext s (execLoadLimitExpiry slot t) := by
  fun_cases execLoadLimitExpiry slot t
  · exact .next <| .ite (limitExpires_orderly h) h
  · exact .next h

theorem segAgain_orderly {p slot : Nat} {m : Model} {o : MoveOp} {i : Nat} {g : MoveSeg} {f : MoveOp → MoveOp} (h : Orderly s t)
    :
    Orderly s (segAgain p slot m o i g f t) := .ite (failHere_orderly h) h.upd

theorem execReshardSegment_orderly {slot : BitVec 6} {data : Option Bytes} {ok : Bool} (h : Orderly s t) :
    OrderlyNext s (execReshardSegment slot data ok t) := by
  fun_cases execReshardSegment slot data ok t
  case case1 | case2 | case5 | case6 => exact .next h
  case case3 => exact .next <| segAgain_orderly <| .of_snd (.ite_of (p := Prod.snd) (readKeys_orderly h) h) ‹_›
  case case4 => exact .next (segAgain_orderly h)
  case case7 =>
    exact .next <| carry_orderly (.of_snd (.ite_of (p := Prod.snd) (readKeys_orderly h) h) ‹_›) fun _ h => .upd <|
        .ite (landRows_orderly h) <| .upd (landRows_orderly h)

theorem reland_orderly {p slot : Nat} {m : Model} {o : MoveOp} {l : Nat} (h : Orderly s t) :
    Orderly s (reland p slot m o l t) := by
  fun_cases reland p slot m o l t
  · exact segAgain_orderly h
  · exact h

theorem execMintLayer_orderly {slot : BitVec 6} (h : Orderly s t) : OrderlyNext s (execMintLayer slot t) := by
  fun_cases execMintLayer slot t
  case case1 | case2 | case3 => exact .next h
  case case4 => exact .next <| reland_orderly <| .of_snd (readKeys_orderly h) ‹_›
  case case5 =>
    exact .next <| .ite (copyBuilt_orderly <| .upd <| .foldl (fun _ _ h => h.store (Memory.clear_wf · _ _)) <|
        .foldl (fun _ _ h => mintFor_orderly h) <| .upd <| .of_snd (readKeys_orderly h) ‹_›) <| .upd <|
        .foldl (fun _ _ h => h.store (Memory.clear_wf · _ _)) <| .foldl (fun _ _ h => mintFor_orderly h) <| .upd <|
        .of_snd (readKeys_orderly h) ‹_›

theorem execTurnLimitExpiry_orderly {slot : BitVec 6} (h : Orderly s t) : OrderlyNext s (execTurnLimitExpiry slot t) := by
  fun_cases execTurnLimitExpiry slot t
  · exact .next <| .ite (limitExpires_orderly h) h
  · exact .next h

theorem execInplaceDrainEnd_orderly {slot : BitVec 6} (h : Orderly s t) : OrderlyNext s (execInplaceDrainEnd slot t) := by
  fun_cases execInplaceDrainEnd slot t
  · exact .next (.ite h.upd h)
  · exact .next h

theorem execOldEpochFree_orderly {slot : BitVec 6} (h : Orderly s t) : OrderlyNext s (execOldEpochFree slot t) := by
  fun_cases execOldEpochFree slot t
  · exact .next h
  · exact .next h
  · exact .next h.upd

theorem execLearnLimitExpiry_orderly {slot : BitVec 6} (h : Orderly s t) : OrderlyNext s (execLearnLimitExpiry slot t) := by
  fun_cases execLearnLimitExpiry slot t
  · exact .next <| .ite (limitExpires_orderly h) h
  · exact .next h

theorem discardUnits_orderly {slot : Nat} {t₀ : Tensor} {n acct : Nat} (h : Orderly s t) :
    Orderly s (discardUnits slot t₀ n acct t) := .ite h h.upd

theorem stageUnits_orderly {slot : Nat} {m : Model} {i : Nat} {us : List StagedUnit} (h : Orderly s t) :
    Orderly s (stageUnits slot m i us t) := by
  fun_cases stageUnits slot m i us t
  case case1 | case2 | case3 => exact h.upd

theorem forwardUnits_orderly {slot : Nat} {m : Model} {x : Shard × Nat} {us : List StagedUnit} (h : Orderly s t) :
    Orderly s (forwardUnits slot m x us t) := by
  refine .ite h <| .foldl (fun _ _ h => .ite (stageUnits_orderly h) ?_) h
  split
  · exact sendPart_orderly h
  · exact h

theorem stageRows_orderly {d : DescId} {slot : Nat} {m : Model} {f : Feed} {x : Shard × Nat} {seg : Nat} (h : Orderly s t) :
    Orderly s (stageRows d slot m f x seg t) := .upd <| forwardUnits_orderly <| discardUnits_orderly (stageUnits_orderly h)

theorem discardFeed_orderly {d : DescId} {slot : Nat} {m : Model} {f : Feed} {bit : Nat} (h : Orderly s t) :
    Orderly s (discardFeed d slot m f bit t) := .upd (discardUnits_orderly h)

theorem feedTurn_orderly {d : DescId} {p : Pkg} {x : Desc} {f : State → State} (h : Orderly s t)
    (hf : ∀ u, Orderly s u → Orderly s (f u)) :
    Orderly s (feedTurn d p x t f) := .ite (hf _ h.upd) h

theorem denyCommit_orderly {slot : Nat} (h : Orderly s t) : Orderly s (denyCommit slot t) := by
  fun_cases denyCommit slot t
  · exact finishWait_orderly h.upd
  · exact h
  · exact h

theorem execLfeed_orderly {d : DescId} (h : Orderly s t) : OrderlyNext s (execLfeed d t) := by
  fun_cases execLfeed d t
  case case1 | case2 | case3 | case4 | case5 | case6 | case10 => exact .next h
  case case7 | case8 => exact .next (discardFeed_orderly h)
  case case9 => exact .next <| discardFeed_orderly (denyCommit_orderly h.upd)
  case case11 => exact .next <| feedTurn_orderly h fun _ h => pkgReads_orderly h fun _ g => stageRows_orderly g

theorem passOneBlock_orderly {ld : Nat} {m : Model} {st : LedStep} {b : BlockJob} (h : Orderly s t) :
    Orderly s (passOneBlock ld m st b t) := .ite h h.upd

theorem sendWides_orderly {m : Model} {layer : Nat} {ws : List Wide} {failed : List Nat} (h : Orderly s t) :
    Orderly s (sendWides m layer ws failed t) := by
  fun_cases sendWides m layer ws failed t
  · exact h
  · exact sendParts_orderly h.upd

theorem execLayerPass1_orderly {slot : BitVec 6} {ld : BitVec 2} {layer : BitVec 16} (h : Orderly s t) :
    OrderlyNext s (execLayerPass1 slot ld layer t) := by
  fun_cases execLayerPass1 slot ld layer t
  case case1 | case2 | case3 => exact .next h
  case case4 => exact .next <| .of_snd (readKeys_orderly h) ‹_›
  case case5 => exact .next <| .upd <| .foldl (fun _ _ h => passOneBlock_orderly h) <| .of_snd (readKeys_orderly h) ‹_›
  case case6 =>
    exact .next <| .ite (sendWides_orderly <| .upd <| .foldl (fun _ _ h => passOneBlock_orderly h) <|
        .of_snd (readKeys_orderly h) ‹_›) <| .upd <| .foldl (fun _ _ h => passOneBlock_orderly h) <|
        .of_snd (readKeys_orderly h) ‹_›

theorem countOuts_orderly {acct : Nat} {os : List LaOut} (h : Orderly s t) : Orderly s (countOuts acct os t) :=
  countConds_orderly h

theorem raiseSingular_orderly {m : Model} {st : LedStep} {layer : Nat} {groups : List Nat} (h : Orderly s t) :
    Orderly s (raiseSingular m st layer groups t) := .foldl (fun _ _ h => .upd (post_orderly h)) h

theorem combineWides_orderly {slot : Nat} {m : Model} {l : Nat} {others : List Wide} {failed : List Nat} (h : Orderly s t) :
    Orderly s (combineWides slot m l others failed t) := by
  fun_cases combineWides slot m l others failed t
  · exact h.upd
  · exact h.upd
  · exact countOuts_orderly (raiseSingular_orderly h.upd)

theorem execLedgerCombine_orderly {slot : BitVec 6} {layer : BitVec 16} {others : List WideMsg}
    {failed : List (BitVec 13 × BitVec 12)} (h : Orderly s t) :
    OrderlyNext s (execLedgerCombine slot layer others failed t) := by
  fun_cases execLedgerCombine slot layer others failed t
  · exact .next h
  · exact .next h
  · exact .next <| combineWides_orderly <| .foldl (fun _ _ h => discardMsg_orderly h) h

theorem BlockJob.store_orderly {b : BlockJob} {m : Model} {outs : List ElemOut} (h : Orderly s t) :
    Orderly s (BlockJob.store b m outs t) := by
  fun_cases BlockJob.store b m outs t
  exact .foldl (fun _ _ h => .foldl (fun _ _ g => .ite g (putState_orderly g)) <| .ite (putHigh_orderly h) <|
      putLow_orderly (putHigh_orderly h)) h

theorem passTwoBlock_orderly {ld : Nat} {m : Model} {st : LedStep} {b : BlockJob} (h : Orderly s t) :
    Orderly s (passTwoBlock ld m st b t) := by
  have numbered : ∀ {u : State} (a i n : Nat), Orderly s u → Orderly s (if n == 0 then u else u.num a i n) :=
    fun _ _ _ h => .ite h h.upd
  have skipped : ∀ {u : State} (a n : Nat), Orderly s u →
      Orderly s (if n == 0 then u else (u.num a 8 n).bump 0x800 8 (some a) none n) :=
    fun _ _ h => .ite h (.upd (t := State.num _ _ _ _) h.upd)
  fun_cases passTwoBlock ld m st b t
  · exact .upd <| numbered _ _ _ <| skipped _ _ <| countConds_orderly <| .upd <| .ite (.upd <| .upd (BlockJob.store_orderly h)) <|
      .upd (BlockJob.store_orderly h)
  · exact numbered _ _ _ <| skipped _ _ <| countConds_orderly <| .upd <| .ite (.upd <| .upd (BlockJob.store_orderly h)) <|
      .upd (BlockJob.store_orderly h)

theorem copyFrozen_orderly {slot : Nat} {m : Model} {x : Shard × Nat} (h : Orderly s t) : Orderly s (copyFrozen slot m x t) :=
  .foldl (fun _ _ h => putHigh_orderly h) h

theorem sendMirrors_orderly {slot : Nat} {m : Model} {x : Shard × Nat} (h : Orderly s t) :
    Orderly s (sendMirrors slot m x t) := by
  fun_cases sendMirrors slot m x t
  · exact h
  · exact .foldl (fun _ _ h => sendPart_orderly h) h

theorem tryCommit_orderly {slot : Nat} (h : Orderly s t) : Orderly s (tryCommit slot t) := by
  fun_cases tryCommit slot t
  case case1 | case2 | case3 => exact h
  case case4 => exact finishWait_orderly <| .upd <| sendWides_orderly (countOuts_orderly h)

theorem failStep_orderly {slot : Nat} (h : Orderly s t) : Orderly s (failStep slot t) := by
  fun_cases failStep slot t
  · exact h
  · exact h
  · exact finishWait_orderly h.upd

theorem readLayers_orderly {slot : Nat} {m : Model} {ls : List Nat} (h : Orderly s t) : Orderly s (readLayers slot m ls t).2 :=
  readKeys_orderly h

theorem drainReads_orderly {slot layer : Nat} {m : Model} (h : Orderly s t) : Orderly s (drainReads slot layer m t).2 := by
  fun_cases drainReads slot layer m t
  case case1 | case3 | case4 => exact h
  case case2 => exact .ite (.upd <| .of_snd (readLayers_orderly h) ‹_›) <| .of_snd (readLayers_orderly h) ‹_›

theorem updateShard_orderly {k d : Nat} {m : Model} {st : LedStep} {x : Shard × Nat} (h : Orderly s t) :
    Orderly s (updateShard k d m st t x) := by
  fun_cases updateShard k d m st t x
  · exact copyFrozen_orderly h
  · exact .foldl (fun _ _ h => passTwoBlock_orderly h) h
  · exact h

theorem execLayerPass2_orderly {slot : BitVec 6} {ld : BitVec 2} {layer : BitVec 16} (h : Orderly s t) :
    OrderlyNext s (execLayerPass2 slot ld layer t) := by
  have drained : ∀ k l m, Orderly s (drainReads k l m t).2 := fun _ _ _ => drainReads_orderly h
  fun_cases execLayerPass2 slot ld layer t
  case case1 => exact .next h
  case case2 => exact .next h
  case case3 => exact .next h
  case case4 drain _ _ read _ =>
    exact .next (.of_snd (.ite_of (p := Prod.snd) (.of_snd (drained ..) drain)
      (readKeys_orderly (.of_snd (drained ..) drain))) read)
  case case5 drain _ _ read _ _ _ _ =>
    have left := Orderly.of_snd (.ite_of (p := Prod.snd) (.of_snd (drained ..) drain)
      (readKeys_orderly (.of_snd (drained ..) drain))) read
    exact .next (tryCommit_orderly (.foldl (fun _ _ h => sendMirrors_orderly h)
      (.upd (.foldl (fun _ _ h => updateShard_orderly h) (.upd (.upd left))))))

theorem landMirror_orderly {slot : Nat} {m : Model} {x : Shard × Nat} {b : Bytes} (h : Orderly s t) :
    Orderly s (landMirror slot m x b t) := .foldl (fun _ _ h => putHigh_orderly h) h.upd

theorem tryRestoreEnd_orderly {p slot : Nat} (h : Orderly s t) : Orderly s (tryRestoreEnd p slot t) := by
  fun_cases tryRestoreEnd p slot t
  case case1 | case3 | case4 => exact h
  case case2 => exact finishWait_orderly h.upd

theorem retryCommits_orderly (h : Orderly s t) : Orderly s (retryCommits t) := by
  refine .foldl (fun _ _ h => ?_) <| .foldl (fun _ _ h => tryCommit_orderly h) h
  split
  · exact tryRestoreEnd_orderly h
  · exact h

theorem stageTwin_orderly {slot : Nat} {m : Model} {x : Shard × Nat} {b : Bytes} (h : Orderly s t) :
    Orderly s (stageTwin slot m x b t) := .ite (stageUnits_orderly h) h

theorem takeMirror_orderly {slot : Nat} {m : Model} {x : Shard × Nat} {data : Option Bytes} (h : Orderly s t) :
    Orderly s (takeMirror slot m x data t) := by
  fun_cases takeMirror slot m x data t
  case case1 => exact stageTwin_orderly h
  case case2 | case3 | case4 | case6 | case8 => exact h
  case case5 => exact tryCommit_orderly <| .upd (landMirror_orderly h)
  case case7 => exact tryRestoreEnd_orderly <| .upd (landMirror_orderly h)

theorem execMirrorTransfer_orderly {slot : BitVec 6} {shard : Nat} {data : Option (BitVec 13 × Bytes)} (h : Orderly s t) :
    OrderlyNext s (execMirrorTransfer slot shard data t) := by
  fun_cases execMirrorTransfer slot shard data t
  case case1 | case2 => exact .next h
  case case3 | case5 => exact .next (takeMirror_orderly h)
  case case4 => exact .next (discardMsg_orderly h)

theorem execFeedLimitExpiry_orderly {slot : BitVec 6} (h : Orderly s t) : OrderlyNext s (execFeedLimitExpiry slot t) := by
  fun_cases execFeedLimitExpiry slot t
  case case1 | case2 | case3 => exact .next h
  case case4 => exact .next (finishWait_orderly h.upd)

end

/-! ## Ports, the fabric, power, the Beacon and counters -/

section
variable {s t u : State}

theorem sendFrame_orderly {type dst : Nat} {payload : Bytes} (h : Orderly s t) : Orderly s (sendFrame type dst payload t) := by
  fun_cases sendFrame type dst payload t
  · exact h
  · exact h.upd

theorem sendHealthAs_orderly {m : MState} (h : Orderly s t) : Orderly s (sendHealthAs m t) := sendFrame_orderly h

theorem sendHealth_orderly (h : Orderly s t) : Orderly s (sendHealth t) := sendHealthAs_orderly h

theorem execHealthSend_orderly (h : Orderly s t) : OrderlyNext s (execHealthSend t) :=
  .next <| .ite (repeatBarriers_orderly (sendHealth_orderly h)) h

theorem routesChanged_orderly (h : Orderly s t) : Orderly s (routesChanged t) := retryCommits_orderly (flushWaits_orderly h)

theorem resendSegments_orderly {p : Nat} (h : Orderly s t) : Orderly s (resendSegments p t) := .ite h <| .upd (free_orderly h)

theorem unroute_orderly {p : Nat} (h : Orderly s t) : Orderly s (unroute p t) := .ite h (resendSegments_orderly h.upd)

theorem reroute_orderly {p : Nat} (h : Orderly s t) : Orderly s (reroute p t) := routesChanged_orderly h.upd

theorem directRoute_orderly {a : Nat} (h : Orderly s t) : Orderly s (directRoute a t) :=
  .ite (.ite h (routesChanged_orderly h.upd)) (routesChanged_orderly h.upd)

theorem hostDown_orderly {n : Nat} (h : Orderly s t) : Orderly s (hostDown n t) := .ite h h.upd

theorem darken_orderly {p cause : Nat} (h : Orderly s t) : Orderly s (darken p cause t) :=
  .ite h <| .ite h.upd <| .ite (unroute_orderly h.upd) (hostDown_orderly h.upd)

theorem darkenAll_orderly {ps : List Nat} {cause : Nat} (h : Orderly s t) : Orderly s (darkenAll ps cause t) :=
  sendHealth_orderly <| .foldl (fun _ _ h => darken_orderly h) h

theorem relightAll_orderly {cause : Nat} (h : Orderly s t) : Orderly s (relightAll cause t) := .foldl (fun _ _ h => h.upd) h

theorem execPortQuery_orderly {c : Cmd} (h : Orderly s t) : OrderlyNext s (execPortQuery c t) :=
  runCmd_orderly h fun _ h => .check h <| .check h <| writeFor_orderly h fun _ g => .done (g _)

theorem execPortBoundsSet_orderly {c : Cmd} (h : Orderly s t) : OrderlyNext s (execPortBoundsSet c t) :=
  runCmd_orderly h fun _ h => .check h <| .check h (.done h.upd)

theorem tellLit_orderly {old : State} (h : Orderly s t) : Orderly s (tellLit old t) := .ite h (sendHealth_orderly h)

theorem execPortEnable_orderly {c : Cmd} (h : Orderly s t) : OrderlyNext s (execPortEnable c t) :=
  runCmd_orderly h fun _ h => .check h <| .check h <| .check h <| .check (.ite (darkenAll_orderly h) <|
    tellLit_orderly (darken_orderly h)) <| .done <| .ite (sendHealth_orderly h.upd) (tellLit_orderly h.upd)

theorem carriesAgain_orderly {p : Nat} (h : Orderly s t) : Orderly s (carriesAgain p t) := .ite (routesChanged_orderly h) h

theorem retrain_orderly {p : Nat} (h : Orderly s t) : Orderly s (retrain p t) := .ite h.upd <| .upd (hostDown_orderly h.upd)

theorem lightUp_orderly (h : Orderly s t) : Orderly s (lightUp t) := .ite (tellLit_orderly (relightAll_orderly h)) h

theorem execFlitCrcFail_orderly {port : BitVec 6} (h : Orderly s t) : OrderlyNext s (execFlitCrcFail port t) :=
  .next <| .ite h <| .ite (retrain_orderly h.upd) h.upd

theorem execPortRetrain_orderly {port : BitVec 6} (h : Orderly s t) : OrderlyNext s (execPortRetrain port t) :=
  .next <| .ite h (retrain_orderly h)

theorem execPortTrained_orderly {port : BitVec 6} {good : BitVec 8} {peer : Option (BitVec 13)} {peerPort : BitVec 6}
    {tx rx : BitVec 16} (h : Orderly s t) :
    OrderlyNext s (execPortTrained port good peer peerPort tx rx t) := by
  fun_cases execPortTrained port good peer peerPort tx rx t
  · exact .next (lightUp_orderly h)
  · exact .next <| .ite (.ite (.upd (lightUp_orderly h)) <| .foldl (fun _ _ h => directRoute_orderly h) <|
        .upd (lightUp_orderly h)) <| reroute_orderly <| .ite (.upd (lightUp_orderly h)) <|
        .foldl (fun _ _ h => directRoute_orderly h) <| .upd (lightUp_orderly h)

theorem execPortDown_orderly {port : BitVec 6} (h : Orderly s t) : OrderlyNext s (execPortDown port t) :=
  .ite (.next h) <| .next (unroute_orderly h.upd)

theorem execSeekingRetry_orderly {port : BitVec 6} (h : Orderly s t) : OrderlyNext s (execSeekingRetry port t) := .next h.upd

theorem protectNotice_orderly {cause phase : Nat} (h : Orderly s t) : Orderly s (protectNotice cause phase t) :=
  postAll_orderly h

theorem laserGuard_orderly {p l : Nat} {off : Bool} (h : Orderly s t) : Orderly s (laserGuard p l off t) := by
  fun_cases laserGuard p l off t
  · exact .upd <| .of_snd (free_orderly h) ‹_›
  · exact sendHealth_orderly <| protectNotice_orderly <| .upd <| .upd <| .of_snd (free_orderly h) ‹_›

theorem execLaserProtect_orderly {port : BitVec 7} {lambda : BitVec 4} {off : Bool} (h : Orderly s t) :
    OrderlyNext s (execLaserProtect port lambda off t) := .ite (.next h) <| .next (laserGuard_orderly h)

theorem execLaserFault_orderly {port : BitVec 7} {_lambda : BitVec 4} (h : Orderly s t) :
    OrderlyNext s (execLaserFault port _lambda t) := .ite (.next h) <| .next <| .upd (darken_orderly h)

theorem execHostLinkDown_orderly {port : BitVec 2} (h : Orderly s t) : OrderlyNext s (execHostLinkDown port t) :=
  .next (hostDown_orderly h.upd)

theorem assignRight_orderly (h : Orderly s t) : Orderly s (assignRight t) := by
  refine .ite h ?_
  split
  · exact h.upd
  · exact h

theorem execHostLinkUp_orderly {port : BitVec 2} {rate : BitVec 3} {width : BitVec 2} {flit sris : Bool} (h : Orderly s t) :
    OrderlyNext s (execHostLinkUp port rate width flit sris t) := by
  fun_cases execHostLinkUp port rate width flit sris t
  · exact .next (lightUp_orderly h)
  · exact .next <| assignRight_orderly <| .upd <| .upd (lightUp_orderly h)

theorem execHostLinkTrainFail_orderly {port : BitVec 2} (h : Orderly s t) : OrderlyNext s (execHostLinkTrainFail port t) :=
  .ite (.next (lightUp_orderly h)) <| .next <| .upd <| .upd <| .upd (lightUp_orderly h)

theorem execHostOutageTimeout_orderly {port : BitVec 2} (h : Orderly s t) : OrderlyNext s (execHostOutageTimeout port t) :=
  .next h.upd

theorem execFabOrigin_orderly {c : Cmd} (h : Orderly s t) : OrderlyNext s (execFabOrigin c t) :=
  runCmd_orderly h fun _ h => .check h <| .check h <| .check h <| .wait (sendFrame_orderly h.upd)

theorem execEnumTimeout_orderly (h : Orderly s t) : OrderlyNext s (execEnumTimeout t) :=
  .ite (.next h) <| .next (finishWait_orderly h.upd)

theorem execFabAddrQuery_orderly {c : Cmd} (h : Orderly s t) : OrderlyNext s (execFabAddrQuery c t) :=
  runCmd_orderly h fun _ h => .check h (.done h)

theorem execFabRouteSet_orderly {c : Cmd} (h : Orderly s t) : OrderlyNext s (execFabRouteSet c t) :=
  runCmd_orderly h fun _ h => .check h <| .check h <| readFor_orderly h fun _ => .check h <| .done (routesChanged_orderly h.upd)

theorem execFabRouteQuery_orderly {c : Cmd} (h : Orderly s t) : OrderlyNext s (execFabRouteQuery c t) :=
  runCmd_orderly h fun _ h => .check h <| writeFor_orderly h fun _ g => .done (g _)

theorem execFabJobJoin_orderly {c : Cmd} (h : Orderly s t) : OrderlyNext s (execFabJobJoin c t) := by
  refine runCmd_orderly h fun _ h => .check h <| readFor_orderly h fun _ => .check h <| .check h <| .check h (.check h ?_)
  split
  · exact .done h
  · exact .check h <| .done (sendParts_orderly h.upd)

theorem execJoinMessage_orderly {job : Word} {part : BitVec 13} {digest : DWord} {table : List (BitVec 13)} (h : Orderly s t) :
    OrderlyNext s (execJoinMessage job part digest table t) := .next <| whenOn_orderly h <| .upd <| .ite (wakeUp_orderly h) h

theorem onJob_orderly {c : Cmd} {n : Nat} {ok : Bool} {k : Nat → JobSlot → Res} (h : Orderly s t)
    (hk : ∀ x0 x1, OrderlyRes s (k x0 x1)) :
    OrderlyRes s (onJob c n ok t k) := by
  refine .check h ?_
  split
  · dsimp only
    split
    · exact .done h
    · exact hk _ _
  · exact .done h

theorem execFabJobLeave_orderly {c : Cmd} (h : Orderly s t) : OrderlyNext s (execFabJobLeave c t) :=
  runCmd_orderly h fun _ h => onJob_orderly h fun _ _ => .check h (.done h.upd)

theorem execFabGroupSet_orderly {c : Cmd} (h : Orderly s t) : OrderlyNext s (execFabGroupSet c t) :=
  runCmd_orderly h fun _ h => onJob_orderly h fun _ _ => readFor_orderly h fun _ => .check h <| .check h (.done h.upd)

theorem execFabDropSet_orderly {c : Cmd} (h : Orderly s t) : OrderlyNext s (execFabDropSet c t) :=
  runCmd_orderly h fun _ h => onJob_orderly h fun _ _ => .check h <| .check h.upd <| .check h (.done h.upd)

theorem execFabJobQuery_orderly {c : Cmd} (h : Orderly s t) : OrderlyNext s (execFabJobQuery c t) :=
  runCmd_orderly h fun _ h => onJob_orderly h fun _ _ => .done h

theorem losePart_orderly {acct : Nat} {job : Word} {part cause : Nat} (h : Orderly s t) :
    Orderly s (losePart acct job part cause t) := .upd (post_orderly h)

theorem execJobFault_orderly {src : BitVec 13} {job : Word} (h : Orderly s t) : OrderlyNext s (execJobFault src job t) := by
  fun_cases execJobFault src job t
  · exact .next (discardMsg_orderly h)
  · exact .next <| losePart_orderly (wakeUp_orderly h)

theorem execPartLostTimeout_orderly {job : Word} {part : BitVec 13} (h : Orderly s t) :
    OrderlyNext s (execPartLostTimeout job part t) := by
  fun_cases execPartLostTimeout job part t
  · exact .next h
  · exact .next <| .ite (losePart_orderly h) h

theorem execDepositLost_orderly {src : BitVec 13} {job : Word} {model : BitVec 16} {_die : BitVec 3} (h : Orderly s t) :
    OrderlyNext s (execDepositLost src job model _die t) := by
  fun_cases execDepositLost src job model _die t
  · exact .next (discardMsg_orderly h)
  · exact .next <| post_orderly <| .upd (wakeUp_orderly h)
  · exact .next <| .upd <| post_orderly <| .upd (wakeUp_orderly h)

theorem landDeposit_orderly {acct part model die : Nat} {data : Bytes} (h : Orderly s t) :
    Orderly s (landDeposit acct part model die data t) := by
  fun_cases landDeposit acct part model die data t
  case case1 | case2 => exact h
  case case3 | case4 => exact .upd (write_orderly h.upd)
  case case5 => exact .upd <| write_orderly <| write_orderly (write_orderly h.upd)

theorem transitFlit_orderly {src dst : Nat} {job : Word} {vc level : Nat} {data : Bytes} (h : Orderly s t) :
    Orderly s (transitFlit src dst job vc level data t) := .ite (.upd (bumpSomeDie_orderly h)) (launch_orderly h)

theorem execFabricMessage_orderly {src : BitVec 13} {job : Word} {body : FabBody} (h : Orderly s t) :
    OrderlyNext s (execFabricMessage src job body t) := by
  have deliver : ∀ f : Nat → JobSlot → State → State, (∀ a j u, Orderly s u → Orderly s (f a j u)) →
      Orderly s (match t.recipient src.toNat job with
        | none => discardMsg t
        | some (acct, js) => f acct js (wakeUp t)) := by
    intro f hf
    split
    · exact discardMsg_orderly h
    · exact hf _ _ _ (wakeUp_orderly h)
  cases body
  case deposit => exact .next (deliver _ fun _ _ _ h => landDeposit_orderly h)
  case transit => exact .next (.ite (deliver _ fun _ _ _ h => h) (whenOn_orderly h (transitFlit_orderly h)))
  case ackDecision => exact .next (deliver _ fun _ _ _ h => hearAck_orderly h)
  case askDecision => exact .next (deliver _ fun _ _ _ h => answerAsk_orderly h)
  case reran => exact .next (deliver _ fun _ _ _ h => .upd h.upd)
  case depositRead => exact .next (deliver _ fun _ _ _ h => h.upd)
  case other => exact .next (deliver _ fun _ _ _ h => h)

theorem duplicateAddr_orderly (h : Orderly s t) : Orderly s (duplicateAddr t) :=
  .ite h <| .upd <| darkenAll_orderly <| .upd (postAll_orderly h)

theorem execMemMapQuery_orderly {c : Cmd} (h : Orderly s t) : OrderlyNext s (execMemMapQuery c t) :=
  runCmd_orderly h fun _ h => .check h <| .ite (.done h) <| writeFor_orderly h fun _ g => .done (g _)

theorem onCredits_orderly {vault : Bool} {die : Nat} {f : Credits → Credits} (h : Orderly s t) :
    Orderly s (t.onCredits vault die f) := .ite h.upd h.upd

theorem execMemCreditSet_orderly {c : Cmd} (h : Orderly s t) : OrderlyNext s (execMemCreditSet c t) :=
  runCmd_orderly h fun _ h => .check h <| .check h <| .check h <| .check h <| .done <|
    .foldl (fun _ _ g => onCredits_orderly g) h

theorem execMemCreditQuery_orderly {c : Cmd} (h : Orderly s t) : OrderlyNext s (execMemCreditQuery c t) := by
  refine runCmd_orderly h fun _ h => .check h ?_
  split
  · exact .done h
  · exact .done h

theorem execMemErrQuery_orderly {c : Cmd} (h : Orderly s t) : OrderlyNext s (execMemErrQuery c t) := by
  refine runCmd_orderly h fun _ h => .check h ?_
  split
  · exact .done h
  · exact .done h

theorem granted_orderly {vault : Bool} {die quarter acct n : Nat} {p : CreditReq → Bool} (h : Orderly s t) :
    Orderly s (granted vault die quarter acct n p t) := .ite h.upd h.upd

theorem grantPeriod_orderly {vault : Bool} {die quarter : Nat} {wants : List Wants} {got : List Nat} (h : Orderly s t) :
    Orderly s (grantPeriod vault die quarter wants got t) :=
  .foldl (fun _ _ h => .foldl (fun _ _ g => granted_orderly g) (onCredits_orderly h)) h

theorem hbmPeriod_orderly {die quarter : Nat} (h : Orderly s t) : Orderly s (hbmPeriod die quarter t) :=
  grantPeriod_orderly <| .foldl (fun _ _ h => granted_orderly h) (onCredits_orderly h)

theorem vaultPeriod_orderly {ld : Nat} (h : Orderly s t) : Orderly s (vaultPeriod ld t) := by
  fun_cases vaultPeriod ld t
  · exact grantPeriod_orderly <| onCredits_orderly <| grantPeriod_orderly (onCredits_orderly h)
  · exact grantPeriod_orderly <| onCredits_orderly <| grantPeriod_orderly (onCredits_orderly h)

theorem execCreditPeriod_orderly {reqs : List CreditReq} (h : Orderly s t) : OrderlyNext s (execCreditPeriod reqs t) := by
  fun_cases execCreditPeriod reqs t
  exact .next <| .foldl (fun _ _ h => vaultPeriod_orderly h) <| .foldl (fun _ _ h => .foldl (fun _ _ g => hbmPeriod_orderly g)
      h) h.upd

theorem execGovernorEval_orderly {arrays vectors : List Nat} {inputW : Nat} (h : Orderly s t) :
    OrderlyNext s (execGovernorEval arrays vectors inputW t) := .ite (.next h) <| .ite (.next h.upd) (.next h.upd)

theorem settleOverride_orderly (h : Orderly s t) : Orderly s (settleOverride t) :=
  .ite h <| sendHealth_orderly <| .foldl (fun _ _ h => protectNotice_orderly h) h.upd

theorem execDividerStep_orderly {die : BitVec 3} (h : Orderly s t) : OrderlyNext s (execDividerStep die t) := by
  fun_cases execDividerStep die t
  · exact .next h
  · exact .next h
  · exact .next (settleOverride_orderly h.upd)

theorem applyBounds_orderly {b : Bounds} (h : Orderly s t) : Orderly s (applyBounds b t) := settleOverride_orderly h.upd

theorem enterPower_orderly {t₀ : Nat} (h : Orderly s t) : Orderly s (enterPower t₀ t) :=
  .ite (darkenAll_orderly h.upd) (sendHealth_orderly h.upd)

theorem execPwrStateSet_orderly {c : Cmd} (h : Orderly s t) : OrderlyNext s (execPwrStateSet c t) :=
  runCmd_orderly h fun _ h => .check h <| .check h <| .check h <| .ite (.done h) <| .check h <| .wait (enterPower_orderly h)

theorem execPowerEntryDone_orderly (h : Orderly s t) : OrderlyNext s (execPowerEntryDone t) := by
  fun_cases execPowerEntryDone t
  · exact .next h
  · exact .next h
  · exact .next <| .ite (wakeUp_orderly <| finishWait_orderly <|
        .ite (sendHealth_orderly (relightAll_orderly h.upd)) h.upd) <| finishWait_orderly <|
        .ite (sendHealth_orderly (relightAll_orderly h.upd)) h.upd

theorem execWake_orderly (h : Orderly s t) : OrderlyNext s (execWake t) := .next (wakeUp_orderly h)

theorem execWakeOnLight_orderly {port : BitVec 2} (h : Orderly s t) : OrderlyNext s (execWakeOnLight port t) :=
  .next <| .ite (wakeUp_orderly h) h

theorem resumeHeld_orderly (h : Orderly s t) : Orderly s (resumeHeld t) := .foldl (fun _ _ h => h.upd) h.upd

theorem execPowerExitDone_orderly (h : Orderly s t) : OrderlyNext s (execPowerExitDone t) := by
  refine .ite (.next h) <| .next <| resumeHeld_orderly <| sendHealth_orderly (relightAll_orderly ?_)
  split
  · exact applyBounds_orderly h.upd
  · exact h.upd

theorem execPwrQuery_orderly {c : Cmd} (h : Orderly s t) : OrderlyNext s (execPwrQuery c t) :=
  runCmd_orderly h fun _ h => .check h (.done h)

theorem execPwrBoundsSet_orderly {c : Cmd} (h : Orderly s t) : OrderlyNext s (execPwrBoundsSet c t) :=
  runCmd_orderly h fun _ h => .check h <| .check h <| .check h <| .check h <| .check h.upd <| .done (applyBounds_orderly h)

theorem enterOverride_orderly {cause : Nat} {dies : List Nat} {f : Override → Override} (h : Orderly s t) :
    Orderly s (enterOverride cause dies f t) := .ite h.upd <| sendHealth_orderly (protectNotice_orderly h.upd)

theorem leaveOverride_orderly {cause : Nat} {dies : List Nat} {f : Override → Override} (h : Orderly s t) :
    Orderly s (leaveOverride cause dies f t) := settleOverride_orderly h.upd

theorem dieHot_orderly {d n : Nat} (h : Orderly s t) : Orderly s (dieHot d n t) :=
  .ite h.upd <| .ite h.upd <| .upd (enterOverride_orderly h)

theorem currentHigh_orderly (h : Orderly s t) : Orderly s (currentHigh t) :=
  .ite h <| .foldl (fun _ _ h => h.upd) (enterOverride_orderly h)

theorem execThermalOverride_orderly {what : Sensor} (h : Orderly s t) : OrderlyNext s (execThermalOverride what t) := by
  refine .ite (.next h) (.next ?_)
  split
  · exact dieHot_orderly h
  · exact .ite h (enterOverride_orderly h)
  · exact .ite h (enterOverride_orderly h)
  · exact .ite h.upd (enterOverride_orderly h)
  · exact currentHigh_orderly h
  · exact .ite h (laserGuard_orderly h)

theorem execCurrentOverride_orderly (h : Orderly s t) : OrderlyNext s (execCurrentOverride t) :=
  .next <| .ite h (currentHigh_orderly h)

theorem laserCool_orderly {p : Nat} (h : Orderly s t) : Orderly s (laserCool p t) :=
  .ite h.upd <| .ite (.upd (retrain_orderly h.upd)) (carriesAgain_orderly h.upd)

theorem execOverrideClear_orderly {what : Sensor} (h : Orderly s t) : OrderlyNext s (execOverrideClear what t) := by
  refine .next ?_
  split
  case h_6 =>
    exact .ite h <| .ite (.ite h.upd (leaveOverride_orderly h)) <| laserCool_orderly <| .ite h.upd (leaveOverride_orderly h)
  all_goals exact .ite h <| .ite h.upd (leaveOverride_orderly h)

theorem execSupplyDroop_orderly {rail : Bool} (h : Orderly s t) : OrderlyNext s (execSupplyDroop rail t) :=
  .ite (.next h) <| .next <| .ite (currentHigh_orderly h.upd) h.upd

theorem forwardFrame_orderly {b : Bytes} (h : Orderly s t) : Orderly s (forwardFrame b t) := .ite h h.upd

theorem actSleep_orderly {b : Bytes} (h : Orderly s t) : Orderly s (actSleep b t) := .ite h.upd <| .ite h (enterPower_orderly h)

theorem ownFrame_orderly {b : Bytes} (h : Orderly s t) : Orderly s (ownFrame b t) := by
  fun_cases ownFrame b t
  case case1 => exact duplicateAddr_orderly h
  case case2 => exact wakeUp_orderly h
  case case3 | case5 | case9 => exact h
  case case4 => exact actSleep_orderly h
  case case6 | case7 => exact h.upd
  case case8 => exact finishWait_orderly h.upd

theorem actEnum_orderly {b : Bytes} (h : Orderly s t) : Orderly s (actEnum b t).2 := by
  fun_cases actEnum b t
  case case1 | case2 | case3 => exact h.upd

theorem beaconFrame_orderly {frame : BitVec 512} (h : Orderly s t) : Orderly s (beaconFrame frame t) := by
  fun_cases beaconFrame frame t
  · exact h
  · exact h.upd
  · exact ownFrame_orderly h
  · exact .ite_of (p := Prod.snd) (actEnum_orderly h) <| .ite_of (p := Prod.snd) h.upd <|
        .ite_of (p := Prod.snd) (wakeUp_orderly h) <| .ite_of (p := Prod.snd) (actSleep_orderly h) h
  · exact forwardFrame_orderly <| .ite_of (p := Prod.snd) (actEnum_orderly h) <| .ite_of (p := Prod.snd) h.upd <|
        .ite_of (p := Prod.snd) (wakeUp_orderly h) <| .ite_of (p := Prod.snd) (actSleep_orderly h) h

theorem execBeaconEnum_orderly {frame : BitVec 512} (h : Orderly s t) : OrderlyNext s (execBeaconEnum frame t) :=
  .next (beaconFrame_orderly h)

theorem execBeaconHealth_orderly {frame : BitVec 512} (h : Orderly s t) : OrderlyNext s (execBeaconHealth frame t) :=
  .next (beaconFrame_orderly h)

theorem execBeaconWake_orderly {frame : BitVec 512} (h : Orderly s t) : OrderlyNext s (execBeaconWake frame t) :=
  .next (beaconFrame_orderly h)

theorem execBeaconSleep_orderly {frame : BitVec 512} (h : Orderly s t) : OrderlyNext s (execBeaconSleep frame t) :=
  .next (beaconFrame_orderly h)

theorem execBeaconFrameDropped_orderly (h : Orderly s t) : OrderlyNext s (execBeaconFrameDropped t) := .next h.upd

theorem execBeaconEntryAge_orderly {addr : BitVec 13} (h : Orderly s t) : OrderlyNext s (execBeaconEntryAge addr t) :=
  .next h.upd

theorem execBeaconBreak_orderly (h : Orderly s t) : OrderlyNext s (execBeaconBreak t) :=
  .ite (.next h) <| .next (postAll_orderly h.upd)

theorem execBeaconLightRestored_orderly (h : Orderly s t) : OrderlyNext s (execBeaconLightRestored t) :=
  .ite (.next h) <| .next (postAll_orderly h.upd)

theorem execBeaconStatus_orderly {c : Cmd} (h : Orderly s t) : OrderlyNext s (execBeaconStatus c t) :=
  runCmd_orderly h fun _ h => .check h <| .check h <| writeFor_orderly h fun _ g => .done (g _)

theorem execBeaconSend_orderly {c : Cmd} (h : Orderly s t) : OrderlyNext s (execBeaconSend c t) :=
  runCmd_orderly h fun _ h => .check h <| .check h <| .check h <| .done (sendFrame_orderly h)

theorem execTallyCopy_orderly (h : Orderly s t) : OrderlyNext s (execTallyCopy t) := .next (whenOn_orderly h h.upd)

theorem execTallyRead_orderly {c : Cmd} (h : Orderly s t) : OrderlyNext s (execTallyRead c t) :=
  runCmd_orderly h fun _ h => .check h (.done h)

theorem execTallyReadAll_orderly {c : Cmd} (h : Orderly s t) : OrderlyNext s (execTallyReadAll c t) :=
  runCmd_orderly h fun _ h => .check h <| .check h <| writeFor_orderly h fun _ g => .done (g _)

theorem execCntSet_orderly {c : Cmd} (h : Orderly s t) : OrderlyNext s (execCntSet c t) :=
  runCmd_orderly h fun _ h => .check h <| .check h (.done h.upd)

theorem latchClear_orderly {scope : Nat} {clear : Bool} (h : Orderly s t) : Orderly s (latchClear scope clear t) := .ite h.upd h

theorem execCntSnap_orderly {c : Cmd} (h : Orderly s t) : OrderlyNext s (execCntSnap c t) :=
  runCmd_orderly h fun _ h => .check h <| .check h <| writeFor_orderly h.upd fun _ g => .done <| latchClear_orderly <|
    .upd <| .upd (g _)

theorem execCntSample_orderly {c : Cmd} (h : Orderly s t) : OrderlyNext s (execCntSample c t) :=
  runCmd_orderly h fun _ h => .check h <| .check h <| .check h.upd <| .check h (.done h.upd)

theorem execSampleLatch_orderly {scope : BitVec 4} (h : Orderly s t) : OrderlyNext s (execSampleLatch scope t) := by
  fun_cases execSampleLatch scope t
  · exact .next h
  · exact .next h.upd
  · exact .next h
  · exact .next (latchClear_orderly h.upd)
  · exact .next <| latchClear_orderly <| .upd <| .upd <| .upd (give_orderly h.upd)

theorem execCntCatalog_orderly {c : Cmd} (h : Orderly s t) : OrderlyNext s (execCntCatalog c t) :=
  runCmd_orderly h fun _ h => .check h <| writeFor_orderly h fun _ g => .done (g _)

theorem execNumRead_orderly {c : Cmd} (h : Orderly s t) : OrderlyNext s (execNumRead c t) :=
  runCmd_orderly h fun _ h => .check h (.done h)

theorem execNumAmaxRead_orderly {c : Cmd} (h : Orderly s t) : OrderlyNext s (execNumAmaxRead c t) := by
  refine runCmd_orderly h fun _ h => .check h ?_
  split
  · exact .done h
  · exact writeFor_orderly h fun _ h => .done (h _)

theorem execNumAmaxSet_orderly {c : Cmd} (h : Orderly s t) : OrderlyNext s (execNumAmaxSet c t) := by
  refine runCmd_orderly h fun _ h => .check h ?_
  split
  · exact .done h
  refine .check h <| .check h (.check h.upd ?_)
  split
  · exact .done h.upd
  · exact .done h

theorem execNumAmaxRoll_orderly {c : Cmd} (h : Orderly s t) : OrderlyNext s (execNumAmaxRoll c t) :=
  runCmd_orderly h fun _ h => .check h <| .check h (.done h.upd)

theorem execAmaxRoll_orderly {slot : BitVec 6} {tid : Word} {others : List (BitVec 13 × Word)} (h : Orderly s t) :
    OrderlyNext s (execAmaxRoll slot tid others t) := by
  fun_cases execAmaxRoll slot tid others t
  · exact .next h
  · exact .next h
  · refine .next (.upd ?_)
    dsimp +zetaDelta only
    split
    · exact sendParts_orderly <| .foldl (fun _ _ h => discardMsg_orderly h) h
    · exact .foldl (fun _ _ h => discardMsg_orderly h) h

end

/-! ## Units, resets and firmware -/

section
variable {s t u : State}

theorem execUnitQuery_orderly {c : Cmd} (h : Orderly s t) : OrderlyNext s (execUnitQuery c t) :=
  runCmd_orderly h fun _ h => .check h <| .check h (.done h)

theorem conflict_orderly {kind index outcome : Nat} (h : Orderly s t) : Orderly s (conflict kind index outcome t) :=
  postAll_orderly h

theorem fenceCore_orderly {i : Nat} (h : Orderly s t) : Orderly s (fenceCore i t) :=
  .foldl (fun _ _ h => beginStop_orderly h) h.upd

theorem fenceEffects_orderly {kind index : Nat} (h : Orderly s t) : Orderly s (fenceEffects kind index t) := by
  fun_cases fenceEffects kind index t
  · exact .foldl (fun _ _ h => fenceCore_orderly h) h
  · exact fenceCore_orderly h
  · exact h.upd
  · exact unroute_orderly h
  · exact h

theorem compareViews_orderly {k i : Nat} (h : Orderly s t) : Orderly s (compareViews k i t) :=
  .ite h <| conflict_orderly (fenceEffects_orderly h.upd)

theorem execUnitFence_orderly {kind index data tag : BitVec 8} (h : Orderly s t) :
    OrderlyNext s (execUnitFence kind index data tag t) := .ite (.next h) <| .next (compareViews_orderly h.upd)

theorem reinitUnit_orderly {kind index : Nat} (h : Orderly s t) : Orderly s (reinitUnit kind index t) := by
  fun_cases reinitUnit kind index t
  · exact wipeWhere_orderly <| wipeWhere_orderly <| .foldl (fun _ _ h => h.upd) h
  · exact wipeWhere_orderly h.upd
  · exact .foldl (fun _ _ h => .ite (stopWave_orderly h) h) h
  · exact wipeWhere_orderly <| wipeWhere_orderly <| .upd (loseDeposits_orderly h)
  · exact wipeWhere_orderly (wipeWhere_orderly h)
  · exact h

theorem loseUnit_orderly {kind index : Nat} (h : Orderly s t) : Orderly s (loseUnit kind index t) := by
  fun_cases loseUnit kind index t
  exact sendHealth_orderly <| .upd <| .foldl (fun _ _ h => .foldl (fun _ _ g => sendPart_orderly g) h) <|
      .foldl (fun _ _ h => .ite (fenceEffects_orderly h.upd) h) <| fenceEffects_orderly <| .upd (postAll_orderly h)

theorem execUnitLost_orderly {kind index : BitVec 8} (h : Orderly s t) : OrderlyNext s (execUnitLost kind index t) :=
  .ite (.next h) <| .next (loseUnit_orderly h)

theorem endPartResets_orderly (h : Orderly s t) : Orderly s (endPartResets t) :=
  .foldl (fun _ _ h => finishWait_orderly h.upd) h

theorem execReconciliation_orderly {kind index : BitVec 8} {passed : Bool} {data tag : BitVec 8} (h : Orderly s t) :
    OrderlyNext s (execReconciliation kind index passed data tag t) := by
  fun_cases execReconciliation kind index passed data tag t
  · exact .next h
  · exact .next h.upd
  · exact .next h
  · exact .next <| endPartResets_orderly <| finishWait_orderly <| .ite (reroute_orderly <| .ite (compareViews_orderly <|
        .ite (loseUnit_orderly <| conflict_orderly <| .upd <| .upd (reinitUnit_orderly h)) <| conflict_orderly <| .upd <|
        .upd (reinitUnit_orderly h)) <| .ite (loseUnit_orderly <| conflict_orderly <| .upd <|
        .upd (reinitUnit_orderly h)) <| conflict_orderly <| .upd <| .upd (reinitUnit_orderly h)) <|
        .ite (compareViews_orderly <| .ite (loseUnit_orderly <| conflict_orderly <| .upd <| .upd (reinitUnit_orderly h)) <|
        conflict_orderly <| .upd <| .upd (reinitUnit_orderly h)) <| .ite (loseUnit_orderly <| conflict_orderly <| .upd <|
        .upd (reinitUnit_orderly h)) <| conflict_orderly <| .upd <| .upd (reinitUnit_orderly h)

theorem execUnitReconcile_orderly {c : Cmd} (h : Orderly s t) : OrderlyNext s (execUnitReconcile c t) :=
  runCmd_orderly h fun _ h => .check h <| .check h <| .ite (.wait h) <| .ite (.wait h.upd) (.done h)

theorem coordinatorFails_orderly {p : Nat} (h : Orderly s t) : Orderly s (coordinatorFails p t) := by
  fun_cases coordinatorFails p t
  case case1 | case2 | case4 => exact h
  case case3 => exact decideWith_orderly h fun _ _ h => h

theorem abortWaits_orderly {accts : List Nat} (h : Orderly s t) : Orderly s (abortWaits accts t) :=
  .foldl (fun _ _ h => complete_orderly h) h.upd

theorem reconcileAll_orderly {n : Nat} (h : Orderly s t) : Orderly s (reconcileAll n t) := .foldl (fun _ _ h => .ite h h.upd) h

theorem resetPartition_orderly {n : Nat} (h : Orderly s t) : Orderly s (resetPartition n t) := by
  fun_cases resetPartition n t
  exact endPartResets_orderly <| reconcileAll_orderly <| .upd <| .upd <| .upd <| .upd <| .foldl (fun _ _ h => .upd <|
      .upd (wipeDie_orderly h)) <| .upd <| .foldl (fun _ _ h => dropModel_orderly h) <| .upd <| abortWaits_orderly <|
      endMoves_orderly <| killPkgs_orderly <| killPkgs_orderly <| loseDeposits_orderly (coordinatorFails_orderly h.upd)

theorem loseWork_orderly (h : Orderly s t) : Orderly s (loseWork t) := .upd <| .upd (wipeWhere_orderly h)

theorem coldState_orderly (h : Orderly s t) : Orderly s (coldState t) := .upd (loseWork_orderly h)

theorem warmState_orderly (h : Orderly s t) : Orderly s (warmState t) := .upd (loseWork_orderly h)

theorem darkenForReset_orderly (h : Orderly s t) : Orderly s (darkenForReset t) :=
  .upd <| .foldl (fun _ _ h => darken_orderly h) h

theorem healthResetting_orderly {ms : Nat} (h : Orderly s t) : Orderly s (healthResetting ms t) := sendHealth_orderly h.upd

theorem announceReset_orderly (h : Orderly s t) : Orderly s (announceReset t) :=
  loseDeposits_orderly <| .foldl (fun _ _ h => coordinatorFails_orderly h) h

theorem resetModule_orderly {k : ResetKind} (h : Orderly s t) : Orderly s (resetModule k t) := by
  fun_cases resetModule k t
  · exact coldState_orderly <| healthResetting_orderly <| darkenForReset_orderly (announceReset_orderly h.upd)
  · exact warmState_orderly <| healthResetting_orderly <| darkenForReset_orderly (announceReset_orderly h.upd)

theorem coldStart_orderly (h : Orderly s t) : Orderly s (coldStart t) := coldState_orderly (.ite h.upd h.upd)

theorem execPwrReset_orderly {c : Cmd} (h : Orderly s t) : OrderlyNext s (execPwrReset c t) :=
  .ite (.next <| .ite (coldStart_orderly h) h) <| runCmd_orderly h fun _ h => .check h <| .check h <|
    .ite (.gone (resetModule_orderly h)) <| .ite (.gone (resetModule_orderly h)) <| .check h <| .check h <|
    .ite (.wait (resetPartition_orderly h)) <| .done (resetPartition_orderly h)

theorem powerOff_orderly (h : Orderly s t) : Orderly s (powerOff t) :=
  .upd <| .upd <| coldState_orderly <| .upd (darkenForReset_orderly h)

theorem execPowerInputLoss_orderly (h : Orderly s t) : OrderlyNext s (execPowerInputLoss t) :=
  .ite (.next h) <| .next <| .upd (powerOff_orderly h)

theorem execThermalTrip_orderly (h : Orderly s t) : OrderlyNext s (execThermalTrip t) :=
  .ite (.next h) <| .next <| sendHealth_orderly <| .upd <| .upd <| .upd (powerOff_orderly h)

theorem execPowerInputEnter_orderly (h : Orderly s t) : OrderlyNext s (execPowerInputEnter t) :=
  .next <| .ite h (coldStart_orderly h)

theorem finishWipe_orderly (h : Orderly s t) : Orderly s (finishWipe t) := .ite h.upd h

theorem backToRun_orderly (h : Orderly s t) : Orderly s (backToRun t) := sendHealth_orderly h.upd

theorem fallBack_orderly {type : BitVec 2} (h : Orderly s t) : Orderly s (fallBack t type) := .ite h h.upd

theorem execMailboxReady_orderly (h : Orderly s t) : OrderlyNext s (execMailboxReady t) := by
  fun_cases execMailboxReady t
  · exact .next h
  · exact .next <| backToRun_orderly <| assignRight_orderly <| .upd <| retag_orderly <| relightAll_orderly <| .upd <|
        .foldl (fun _ _ h => fallBack_orderly h) <| finishWipe_orderly <| .of_snd (free_orderly h) ‹_›

theorem execFwWrite_orderly {c : Cmd} (h : Orderly s t) : OrderlyNext s (execFwWrite c t) :=
  runCmd_orderly h fun _ h => .check h <| .check h <| .check h <| .ite .hold <| .check h <| .check h <| .check h <|
    .check h <| .check h <| .check h <| .check h (.done h.upd)

theorem darkenGroup_orderly {g : Nat} (h : Orderly s t) : Orderly s (darkenGroup g t) := darkenAll_orderly h.upd

theorem relightGroup_orderly {g : Nat} (h : Orderly s t) : Orderly s (relightGroup g t) :=
  sendHealth_orderly <| .upd <| .foldl (fun _ _ h => h.upd) h

theorem beginType_orderly (h : Orderly s t) : Orderly s (beginType t) := by
  fun_cases beginType t
  · exact h
  · exact darkenGroup_orderly h.upd
  · exact h.upd
  · exact h.upd

theorem endActivation_orderly {st : Status} {failed : Nat} (h : Orderly s t) : Orderly s (endActivation st failed t) :=
  finishWait_orderly (backToRun_orderly h.upd)

theorem typeDone_orderly (h : Orderly s t) : Orderly s (typeDone t) := by
  fun_cases typeDone t
  · exact h
  · exact endActivation_orderly h.upd
  · exact beginType_orderly h.upd

theorem typeFails_orderly (h : Orderly s t) : Orderly s (typeFails t) := by
  fun_cases typeFails t
  · exact h
  · exact endActivation_orderly <| .ite (relightGroup_orderly h.upd) h.upd

theorem execFwActivate_orderly {c : Cmd} (h : Orderly s t) : OrderlyNext s (execFwActivate c t) :=
  runCmd_orderly h fun _ h => .check h <| .check h <| .check h <| .check h <| .check h <| .check h <| .wait <|
    beginType_orderly (sendHealth_orderly h.upd)

theorem execFirmwareReady_orderly {ok : Bool} (h : Orderly s t) : OrderlyNext s (execFirmwareReady ok t) := by
  fun_cases execFirmwareReady ok t
  · exact .next h
  · exact .next <| .ite (typeFails_orderly h) <| .ite h (typeDone_orderly h)

theorem execOpticsGroupRelit_orderly (h : Orderly s t) : OrderlyNext s (execOpticsGroupRelit t) := by
  fun_cases execOpticsGroupRelit t
  · exact .next h
  · exact .next h
  · refine .next ?_
    split
    · exact typeDone_orderly <| .upd (relightGroup_orderly h)
    · exact darkenGroup_orderly <| .upd (relightGroup_orderly h)

theorem execFwQuery_orderly {c : Cmd} (h : Orderly s t) : OrderlyNext s (execFwQuery c t) :=
  runCmd_orderly h fun _ h => .check h (.done h)

theorem execFwFloorRaise_orderly {c : Cmd} (h : Orderly s t) : OrderlyNext s (execFwFloorRaise c t) :=
  runCmd_orderly h fun _ h => .check h <| .check h <| .check h <| .check h <| .check h (.done h.upd)

theorem execFwLock_orderly {c : Cmd} (h : Orderly s t) : OrderlyNext s (execFwLock c t) :=
  runCmd_orderly h fun _ h => .check h <| .check h <| .check h <| .check h (.done h.upd)

theorem execLcNonce_orderly {c : Cmd} (h : Orderly s t) : OrderlyNext s (execLcNonce c t) :=
  runCmd_orderly h fun _ h => .check h (.done h.upd)

theorem changeLife_orderly {act : Nat} {to_ : LifeCycle} {key : Bytes} (h : Orderly s t) :
    Orderly s (changeLife act to_ key t) := by
  fun_cases changeLife act to_ key t
  exact coldState_orderly <| .upd <| .upd <| .upd <| healthResetting_orderly <| darkenForReset_orderly <|
      .foldl (fun _ _ h => finishAll_orderly h) (announceReset_orderly h)

theorem execLcChange_orderly {c : Cmd} (h : Orderly s t) : OrderlyNext s (execLcChange c t) := by
  refine runCmd_orderly h fun _ h => .check h <| .check h <| readHeld_orderly h (fun _ g => .done g) (.check h ?_)
  split
  · exact .done h
  · exact .check h <| .check h <| .check h <| .check h <| .check h.upd <| .gone (changeLife_orderly h)

end

/-! ## Commands of sequences, secure copies and the ledger -/

section
variable {s t u : State}

theorem bindSeq_orderly {m : Model} {i : Nat} (h : Orderly s t) : Orderly s (bindSeq m i t) := by
  fun_cases bindSeq m i t
  · exact h
  · exact tagSlots_orderly (drawPages_orderly h.upd)

theorem execWaveStart_orderly {slot : BitVec 6} (h : Orderly s t) : OrderlyNext s (execWaveStart slot t) := by
  fun_cases execWaveStart slot t
  case case1 | case2 | case3 => exact .next h
  case case4 => exact .next <| .upd <| .foldl (fun _ _ h => bindSeq_orderly h) h

theorem commitSeq_orderly {slot : Nat} {m : Model} {epoch : Nat} {weights bad : Bool} {i : Nat} {drafts : List (Nat × Word)}
    (h : Orderly s t) :
    Orderly s (commitSeq slot m epoch weights bad i drafts t).1 := by
  fun_cases commitSeq slot m epoch weights bad i drafts t
  · exact h
  · exact .of_snd (engineRead_orderly h) ‹_›
  · exact .upd <| .of_snd (engineRead_orderly h) ‹_›
  · exact .upd <| countConds_orderly <| .of_fst (stepTokens_orderly <| .of_snd (engineRead_orderly h) ‹_›) ‹_›
  · exact .of_fst (commitStep_orderly <| .upd <| countConds_orderly <| .of_fst (stepTokens_orderly <|
        .of_snd (engineRead_orderly h) ‹_›) ‹_›) ‹_›

theorem settleSeq_orderly {e : StepEnd} (h : Orderly s t) : Orderly s (settleSeq e t) := by
  fun_cases settleSeq e t
  · exact endSeq_orderly h
  · exact h
  · exact finishWait_orderly (setSeqState_orderly h.upd)
  · exact h

theorem execWaveCommit_orderly {slot : BitVec 6} {bad : List (BitVec 14)} (h : Orderly s t) :
    OrderlyNext s (execWaveCommit slot bad t) := by
  fun_cases execWaveCommit slot bad t
  case case1 | case2 | case3 => exact .next h
  case case4 =>
    refine .next <| .foldl (fun _ _ h => settleSeq_orderly h) <| writeRing_orderly <| .foldl_fst (fun _ _ h => ?_) <|
        .of_snd (engineRead_orderly (meterWave_orderly h.upd)) ‹_›
    split
    · exact .of_fst (commitSeq_orderly h) ‹_›

theorem readPages_orderly {acct : Nat} {ps : List Page} (h : Orderly s t) : Orderly s (readPages acct ps t).2.2 := by
  induction ps generalizing t with
  | nil => exact h
  | cons p ps ih => exact ih (readPage_orderly h)

theorem copyPages_orderly {i acct slot n : Nat} {vault : Bool} {ps : List (Page × Bytes)} (h : Orderly s t)
    (e : copyPages i acct slot vault n ps t = some u) : Orderly s u := by
  induction ps generalizing t with
  | nil => cases e; exact h
  | cons p ps ih =>
    unfold copyPages at e
    split at e
    · cases e
    · exact ih (writePage_orderly (drawFrame_orderly h ‹_›)).upd e

inductive OrderlyMoved (s : State) : Moved → Prop
  | done {t : State} (h : Orderly s t) : OrderlyMoved s (.done t)
  | unread {t : State} (h : Orderly s t) : OrderlyMoved s (.unread t)
  | noRoom : OrderlyMoved s .noRoom

theorem OrderlyMoved.of_done {r : Moved} (h : OrderlyMoved s r) (e : r = .done u) : Orderly s u := by
  subst e
  cases h
  assumption

theorem OrderlyMoved.of_unread {r : Moved} (h : OrderlyMoved s r) (e : r = .unread u) : Orderly s u := by
  subst e
  cases h
  assumption

theorem movePages_orderly {i n : Nat} {q : Seq} {vault : Bool} (h : Orderly s t) :
    OrderlyMoved s (movePages i q vault n t) := by
  fun_cases movePages i q vault n t
  · exact .unread (.of_last (readPages_orderly h) ‹_›)
  · exact .noRoom
  · exact .done (copyPages_orderly (.of_last (readPages_orderly h) ‹_›) ‹_›).upd

theorem execParkDone_orderly {seq : BitVec 14} {ok : Bool} (h : Orderly s t) :
    OrderlyNext s (execParkDone seq ok t) := by
  fun_cases execParkDone seq ok t
  · exact .next h
  · exact .next h
  · exact .next (finishWait_orderly h.upd)
  · exact .next (finishWait_orderly (.upd ((movePages_orderly h).of_unread ‹_›).upd))
  · exact .next (.ite (finishWait_orderly h.upd) (endSeq_orderly h.upd))
  · exact .next (finishWait_orderly (setSeqState_orderly (.upd ((movePages_orderly h).of_done ‹_›))))

theorem execRestoreDone_orderly {seq : BitVec 14} {ok : Bool} (h : Orderly s t) :
    OrderlyNext s (execRestoreDone seq ok t) := by
  have moved : ∀ q, OrderlyMoved s (if ok then movePages seq.toNat q false q.home t else .noRoom) := by
    intro q
    split
    · exact movePages_orderly h
    · exact .noRoom
  fun_cases execRestoreDone seq ok t
  · exact .next h
  · exact .next h
  · exact .next (endSeq_orderly h)
  · exact .next (endSeq_orderly ((moved _).of_unread ‹_›))
  · exact .next (.upd ((moved _).of_done ‹_›))

theorem execAdmitWaitExpiry_orderly {seq : BitVec 14} (h : Orderly s t) : OrderlyNext s (execAdmitWaitExpiry seq t) := by
  fun_cases execAdmitWaitExpiry seq t
  · exact .next h
  · exact .next <| .ite (endSeq_orderly h) h

theorem execLifetimeExpiry_orderly {seq : BitVec 14} (h : Orderly s t) : OrderlyNext s (execLifetimeExpiry seq t) := by
  fun_cases execLifetimeExpiry seq t
  · exact .next h
  · exact .next h
  · exact .next (beginStop_orderly h.upd)
  · exact .next (endSeq_orderly h)

theorem execPauseLimitExpiry_orderly {seq : BitVec 14} (h : Orderly s t) : OrderlyNext s (execPauseLimitExpiry seq t) := by
  fun_cases execPauseLimitExpiry seq t
  · exact .next h
  · exact .next h
  · exact .next h.upd
  · exact .next (endSeq_orderly h)

theorem execParkTtlExpiry_orderly {seq : BitVec 14} (h : Orderly s t) : OrderlyNext s (execParkTtlExpiry seq t) := by
  fun_cases execParkTtlExpiry seq t
  · exact .next h
  · exact .next <| .ite (endSeq_orderly h) h

theorem execEntryAutoRelease_orderly {seq : BitVec 14} (h : Orderly s t) : OrderlyNext s (execEntryAutoRelease seq t) := by
  fun_cases execEntryAutoRelease seq t
  · exact .next h
  · exact .next (.ite h.upd h)

theorem queueSeq_orderly {i slot : Nat} (h : Orderly s t) : Orderly s (queueSeq i slot t).1 := by
  fun_cases queueSeq i slot t
  · exact grantSeq_orderly h
  · exact notifySeq_orderly h
  · exact notifySeq_orderly h

theorem execSeqAdmit_orderly {c : Cmd} (h : Orderly s t) :
    OrderlyNext s (execSeqAdmit c t) := by
  refine runCmd_orderly h (fun _ h => .check h (readFor_orderly h (fun _ => .check h (.check h ?_))))
  split
  · exact .done h
  split
  · exact .done h
  dsimp only
  refine .check h (readFor_orderly h (fun _ => .check h (.check h (.check h ?_))))
  generalize ((List.range 16384).find? _).getD 16384 = i
  exact .check h (.check h (.done (queueSeq_orderly (.upd h.upd))))

theorem onHandle_orderly {c : Cmd} {n : Nat} {ok : Bool} {k : Nat → Seq → Res} (h : Orderly s t)
    (hk : ∀ x0 x1, OrderlyRes s (k x0 x1)) :
    OrderlyRes s (onHandle c n ok t k) := by
  refine .check h ?_
  split
  · exact .done h
  · exact hk _ _

theorem execSeqCancel_orderly {c : Cmd} (h : Orderly s t) : OrderlyNext s (execSeqCancel c t) := by
  refine runCmd_orderly h fun _ h => onHandle_orderly h fun _ _ => .check h ?_
  split
  · exact .wait (beginStop_orderly h.upd)
  · exact .done (endSeq_orderly h.upd)

theorem execSeqQuery_orderly {c : Cmd} (h : Orderly s t) :
    OrderlyNext s (execSeqQuery c t) := by
  refine runCmd_orderly h (fun _ h => .check h (writeFor_orderly h (fun _ written => ?_)))
  split
  · exact .done h
  · exact .done (written _)

theorem execSeqPause_orderly {c : Cmd} (h : Orderly s t) : OrderlyNext s (execSeqPause c t) :=
  runCmd_orderly h fun _ h => onHandle_orderly h fun _ _ => .check h <| .ite (.wait h.upd) <| .done (setSeqState_orderly h.upd)

theorem execSeqResume_orderly {c : Cmd} (h : Orderly s t) : OrderlyNext s (execSeqResume c t) :=
  runCmd_orderly h fun _ h => onHandle_orderly h fun _ _ => .ite (.done <| enterDecode_orderly <|
    .ite (finishWait_orderly h.upd) h) <| .ite (.done (queueSeq_orderly h.upd)) (.done h)

theorem execSeqPark_orderly {c : Cmd} (h : Orderly s t) : OrderlyNext s (execSeqPark c t) :=
  runCmd_orderly h fun _ h => onHandle_orderly h fun _ _ => .check h <| .check h (.wait h.upd)

theorem execSeqRelease_orderly {c : Cmd} (h : Orderly s t) : OrderlyNext s (execSeqRelease c t) :=
  runCmd_orderly h fun _ h => onHandle_orderly h fun _ _ => .check h.upd (.done h)

theorem execSeqDraft_orderly {c : Cmd} (h : Orderly s t) : OrderlyNext s (execSeqDraft c t) :=
  runCmd_orderly h fun _ h => onHandle_orderly h fun _ _ => .check h <| .check h <| .check h (.done h.upd)

theorem execSeqModelSet_orderly {c : Cmd} (h : Orderly s t) : OrderlyNext s (execSeqModelSet c t) := by
  refine runCmd_orderly h fun _ h => .check h ?_
  split
  · exact .done h
  split
  · exact .done h
  · exact .check h <| .check h <| .check h (.done h.upd)

theorem execSeqPrefillSet_orderly {c : Cmd} (h : Orderly s t) : OrderlyNext s (execSeqPrefillSet c t) := by
  refine runCmd_orderly h fun _ h => .check h ?_
  split
  · exact .done h
  split
  · exact .done h
  refine .check h (.check h ?_)
  split
  · exact .done h
  · exact .done (discover_orderly h)
  · exact .hold
  refine .check h ?_
  split
  · exact .done h
  · exact .ite (.done (discoverCode_orderly h)) (.done h.upd)

theorem execSeqDecodeSet_orderly {c : Cmd} (h : Orderly s t) : OrderlyNext s (execSeqDecodeSet c t) := by
  refine runCmd_orderly h fun _ h => .check h ?_
  split
  · exact .done h
  split
  · exact .done h
  · exact readFor_orderly h fun _ => readFor_orderly h fun _ => .check h <| .check h (.done h.upd)

theorem riskAccount_orderly {xs : List Nat} {a : Nat} (h : Orderly s t) : Orderly s (riskAccount xs t a) := by
  refine .ite (.upd (post_orderly h.upd)) <| .ite h (.ite h.upd ?_)
  split
  · exact h.upd
  · exact .ite h.upd h

theorem strike_orderly {k : Nat} (h : Orderly s t) : Orderly s (strike t k) := by
  fun_cases strike t k
  case case1 | case2 | case3 | case4 => exact h.upd
  case case5 => exact h

theorem waveFailed_orderly {slot : Nat} (h : Orderly s t) : Orderly s (waveFailed slot t) := by
  fun_cases waveFailed slot t
  · exact h
  · exact h
  · exact .foldl (fun _ _ h => endSeq_orderly h) (stopWave_orderly h)

theorem segmentFailed_orderly {slot : Nat} (h : Orderly s t) : Orderly s (segmentFailed slot t) := by
  fun_cases segmentFailed slot t
  case case1 => exact segAgain_orderly h
  case case2 | case3 | case5 | case6 => exact h
  case case4 => exact segFailed_orderly h

theorem flitFailed_orderly {x : BitVec 3 × BitVec 3 × LinkUse} (h : Orderly s t) : Orderly s (flitFailed t x) := by
  fun_cases flitFailed t x
  case case1 => exact stopWith_orderly h.upd fun _ h => h
  case case2 | case3 | case6 => exact h.upd
  case case4 => exact waveFailed_orderly h.upd
  case case5 => exact segmentFailed_orderly h.upd

theorem ledgerSeen_orderly {x : BitVec 2 × Bool} (h : Orderly s t) : Orderly s (ledgerSeen t x) := .ite h.upd h.upd

theorem fecSeen_orderly {x : BitVec 7 × Nat} (h : Orderly s t) : Orderly s (fecSeen t x) := .ite h h.upd

theorem healthSeen_orderly {r : RiskIn} (h : Orderly s t) : Orderly s (healthSeen r t) := by
  fun_cases healthSeen r t
  exact .upd <| .foldl (fun _ _ h => h.upd) <| .foldl (fun _ _ h => fecSeen_orderly h) <|
      .foldl (fun _ _ h => ledgerSeen_orderly h) <| .foldl (fun _ _ h => h.upd) <|
      .foldl (fun _ _ h => flitFailed_orderly h) <| .foldl (fun _ _ h => strike_orderly h) <| .foldl (fun _ _ h => h.upd) h

theorem loseOut_orderly (h : Orderly s t) : Orderly s (loseOut t) := .foldl (fun _ _ h => loseUnit_orderly h) h

theorem execRiskUpdate_orderly {r : RiskIn} (h : Orderly s t) : OrderlyNext s (execRiskUpdate r t) := by
  fun_cases execRiskUpdate r t
  exact .next <| whenOn_orderly h <| .foldl (fun _ _ h => riskAccount_orderly h) <| .upd <|
      loseOut_orderly (healthSeen_orderly h)

theorem execFtRiskQuery_orderly {c : Cmd} (h : Orderly s t) : OrderlyNext s (execFtRiskQuery c t) :=
  runCmd_orderly h fun _ h => .check h (.done h)

theorem execFtThreshSet_orderly {c : Cmd} (h : Orderly s t) : OrderlyNext s (execFtThreshSet c t) :=
  runCmd_orderly h fun _ h => .check h (.done h.upd)

theorem execFtPlanSet_orderly {c : Cmd} (h : Orderly s t) : OrderlyNext s (execFtPlanSet c t) :=
  runCmd_orderly h fun _ h => onModelCmd_orderly h fun _ _ => .ite (.check h <| .done (finishWait_orderly h.upd)) <|
    readFor_orderly h fun _ => .check h <| .check h <| .check h <| .check h <| .check h (.done h.upd)

theorem execFtDepositSet_orderly {c : Cmd} (h : Orderly s t) : OrderlyNext s (execFtDepositSet c t) :=
  runCmd_orderly h fun _ h => onModelCmd_orderly h fun _ _ => .check h <| .check h <| .check h <| .check h.upd (.done h.upd)

theorem execFtSecure_orderly {c : Cmd} (h : Orderly s t) : OrderlyNext s (execFtSecure c t) :=
  runCmd_orderly h fun _ h => onModelCmd_orderly h fun _ _ => .check h <| .ite (.wait h.upd) <| .check h <|
    .check h (requestMove_orderly h)

theorem execFtCkptList_orderly {c : Cmd} (h : Orderly s t) : OrderlyNext s (execFtCkptList c t) :=
  runCmd_orderly h fun _ h => onModelCmd_orderly h fun _ _ => .ite (.done h) <| writeFor_orderly h fun _ k => .done (k _)

theorem execFtCkptDrop_orderly {c : Cmd} (h : Orderly s t) : OrderlyNext s (execFtCkptDrop c t) :=
  runCmd_orderly h fun _ h => onModelCmd_orderly h fun _ _ => .check h <| .check h (.done h.upd)

theorem execFtExport_orderly {c : Cmd} (h : Orderly s t) : OrderlyNext s (execFtExport c t) := by
  refine runCmd_orderly h fun _ h => onModelCmd_orderly h fun _ _ => ?_
  split
  · exact .done h
  · exact .check h <| .ite .hold <| .check h.upd <| .check h <| .done <| .upd (write_orderly h)

theorem execFtStatus_orderly {c : Cmd} (h : Orderly s t) : OrderlyNext s (execFtStatus c t) :=
  runCmd_orderly h fun _ h => onModelCmd_orderly h fun _ _ => .done h

theorem drainDone_orderly {p slot : Nat} {m : Model} {o : MoveOp} {c : CopyJob} (h : Orderly s t) :
    Orderly s (drainDone p slot m o c t) := by
  fun_cases drainDone p slot m o c t
  exact finishWait_orderly <| .upd <| post_orderly <| .ite (setLater_orderly <| .upd <| .ite (.upd <|
      .upd (sendDeposit_orderly h)) h.upd) <| .upd <| .ite (.upd <| .upd (sendDeposit_orderly h)) h.upd

theorem abandonDeposit_orderly {m : Model} (h : Orderly s t) : Orderly s (abandonDeposit m t) := by
  fun_cases abandonDeposit m t
  · exact h
  · exact .foldl (fun _ _ h => sendPart_orderly h) h

theorem drainFailed_orderly {p : Nat} {m : Model} {o : MoveOp} {c : CopyJob} {st : Status} (h : Orderly s t) :
    Orderly s (drainFailed p m o c st t) := by
  fun_cases drainFailed p m o c st t
  · exact .upd <| .upd <| .ite (abandonDeposit_orderly (post_orderly h)) (post_orderly h)
  · exact finishWait_orderly <| .upd <| .ite (abandonDeposit_orderly (post_orderly h)) (post_orderly h)

theorem execDrainCommit_orderly {slot : BitVec 6} {result : CopyEnd} (h : Orderly s t) :
    OrderlyNext s (execDrainCommit slot result t) := by
  fun_cases execDrainCommit slot result t
  · exact .next (drainFailed_orderly h)
  · exact .next h
  · exact .next <| .ite (drainDone_orderly <| .of_snd (readLayers_orderly h) ‹_›) <| drainFailed_orderly <|
        .of_snd (readLayers_orderly h) ‹_›
  · exact .next h

theorem laterUnread_orderly {m : Model} {layer : Nat} {seqno : Word} (h : Orderly s t) :
    Orderly s (laterUnread m layer seqno t) := .ite h.upd h

theorem laterFailed_orderly {slot : Nat} {m : Model} {layer : Nat} {seqno : Word} {st : Status} (h : Orderly s t) :
    Orderly s (laterFailed slot m layer seqno st t) := post_orderly (setLater_orderly h)

theorem laterDone_orderly {slot : Nat} {m : Model} {layer : Nat} {src : Bytes × Bytes} (h : Orderly s t) :
    Orderly s (laterDone slot m layer src t) :=
  post_orderly <| setLater_orderly <| .upd <| .ite (.upd (write_orderly h.upd)) h.upd

theorem execLaterLayerCopy_orderly {slot : BitVec 6} {result : CopyEnd} (h : Orderly s t) :
    OrderlyNext s (execLaterLayerCopy slot result t) := by
  fun_cases execLaterLayerCopy slot result t
  case case1 | case2 | case3 | case7 => exact .next h
  case case4 => exact .next <| laterFailed_orderly <| .ite (laterUnread_orderly h) h
  case case5 => exact .next <| laterFailed_orderly (laterUnread_orderly h)
  case case6 | case8 => exact .next (laterFailed_orderly h)
  case case9 => exact .next (laterDone_orderly h)

theorem execDrainLimitExpiry_orderly {slot : BitVec 6} (h : Orderly s t) : OrderlyNext s (execDrainLimitExpiry slot t) := by
  fun_cases execDrainLimitExpiry slot t
  · exact .next h
  · exact .next (drainFailed_orderly h)
  · exact .next (laterFailed_orderly h)
  · exact .next h

theorem execFtRestore_orderly {c : Cmd} (h : Orderly s t) : OrderlyNext s (execFtRestore c t) :=
  runCmd_orderly h fun _ h => onModelCmd_orderly h fun _ _ => .check h <| .ite .hold <| .check h <| .check h <|
    .check h (requestMove_orderly h)

theorem restoreMirrors_orderly {slot : Nat} {m : Model} (h : Orderly s t) : Orderly s (restoreMirrors slot m t) := by
  fun_cases restoreMirrors slot m t
  exact .foldl (fun _ _ h => .foldl (fun _ _ g => landMirror_orderly g) (sendMirrors_orderly h)) h

theorem restoreUnread_orderly {m : Model} {c : CopyJob} (h : Orderly s t) : Orderly s (restoreUnread m c t) := by
  refine .ite h ?_
  split
  · exact h.upd
  · exact h

theorem execCkptRestoreDone_orderly {slot : BitVec 6} {data : Option Bytes} {ok : Bool} (h : Orderly s t) :
    OrderlyNext s (execCkptRestoreDone slot data ok t) := by
  fun_cases execCkptRestoreDone slot data ok t
  case case1 | case2 | case4 | case6 | case9 => exact .next h
  case case3 | case5 => exact .next <| finishWait_orderly <| .upd <| .ite (restoreUnread_orderly h) h
  case case7 => exact .next (finishWait_orderly h.upd)
  case case8 => exact .next <| tryRestoreEnd_orderly <| .upd <| restoreMirrors_orderly (restoreCopy_orderly h.upd)

theorem restoreUnreached_orderly {dst : Nat} {mirrors : Bool} {m : Model} {p : Nat} {o : MoveOp} (h : Orderly s t) :
    Orderly s (restoreUnreached dst mirrors m p o t) := by
  fun_cases restoreUnreached dst mirrors m p o t
  · exact finishWait_orderly h.upd
  · exact h
  · exact h

theorem copyUnreached_orderly {dst : Nat} {waits : List Waiter} {x : Nat × Model} (h : Orderly s t) :
    Orderly s (copyUnreached dst waits t x) := by
  have restored : ∀ mirrors : Bool, Orderly s (match t.runningMove x.1 with
      | some (p, o) => restoreUnreached dst mirrors x.2 p o t
      | none => t) := fun _ => by
    split
    · exact restoreUnreached_orderly h
    · exact h
  have stepped : ∀ {u : State} (mirrors : Bool), Orderly s u → Orderly s (if mirrors then failStep x.1 u else u) :=
    fun _ h => .ite (failStep_orderly h) h
  fun_cases copyUnreached dst waits t x
  case case1 => exact drainFailed_orderly (stepped _ (restored _))
  case case3 => exact laterFailed_orderly (stepped _ (restored _))
  case case2 | case4 | case5 => exact stepped _ (restored _)

theorem execRouteWaitTimeout_orderly {dst : BitVec 13} (h : Orderly s t) : OrderlyNext s (execRouteWaitTimeout dst t) := by
  fun_cases execRouteWaitTimeout dst t
  exact .next <| .foldl (fun _ _ h => copyUnreached_orderly h) <| .upd <| .foldl (fun _ _ h => structFail_orderly h) h

theorem execUpdProgLoad_orderly {c : Cmd} (h : Orderly s t) : OrderlyNext s (execUpdProgLoad c t) := by
  refine runCmd_orderly h fun _ h => .check h <| readFor_orderly h fun _ => .check h ?_
  split
  · dsimp only
    split
    · exact .done h
    · exact .done h
  dsimp only
  split
  · exact .done h
  · exact .done h.upd

theorem execUpdProgFree_orderly {c : Cmd} (h : Orderly s t) : OrderlyNext s (execUpdProgFree c t) := by
  refine runCmd_orderly h fun _ h => .check h ?_
  split
  · exact .done h
  · exact .check h <| .check h (.done h.upd)

theorem execUpdGroupSet_orderly {c : Cmd} (h : Orderly s t) : OrderlyNext s (execUpdGroupSet c t) :=
  runCmd_orderly h fun _ h => .check h <| .check h <| readFor_orderly h fun _ => .check h <| .check h <| .check h <|
    .check h <| .check h (.done h.upd)

theorem execUpdGroupRead_orderly {c : Cmd} (h : Orderly s t) : OrderlyNext s (execUpdGroupRead c t) := by
  refine runCmd_orderly h fun _ h => .check h ?_
  split
  · exact .done h
  · exact .check h <| writeFor_orderly h fun _ h => .done (h _)

theorem execUpdGroupFree_orderly {c : Cmd} (h : Orderly s t) : OrderlyNext s (execUpdGroupFree c t) := by
  refine runCmd_orderly h fun _ h => .check h ?_
  split
  · exact .done h
  · exact .check h <| .check h (.done h.upd)

theorem execUpdModelSet_orderly {c : Cmd} (h : Orderly s t) : OrderlyNext s (execUpdModelSet c t) :=
  runCmd_orderly h fun _ h => onModelCmd_orderly h fun _ _ => .check h <| .check h (.done h.upd)

theorem execUpdBegin_orderly {c : Cmd} (h : Orderly s t) : OrderlyNext s (execUpdBegin c t) :=
  runCmd_orderly h fun _ h => onModelCmd_orderly h fun _ _ => .check h <| .check h <| .ite (.wait h.upd) <|
    .check h (.done h.upd)

theorem execUpdCommit_orderly {c : Cmd} (h : Orderly s t) : OrderlyNext s (execUpdCommit c t) := by
  refine runCmd_orderly h fun _ h => onModelCmd_orderly h fun _ _ => ?_
  split
  · exact .done h
  · exact .check h <| .ite (.done (tryCommit_orderly h.upd)) (.wait h.upd)

theorem execUpdAbort_orderly {c : Cmd} (h : Orderly s t) : OrderlyNext s (execUpdAbort c t) := by
  refine runCmd_orderly h fun _ h => onModelCmd_orderly h fun _ _ => ?_
  split
  · exact .done h
  · exact .done <| .upd (finishWait_orderly h)

theorem execUpdStatus_orderly {c : Cmd} (h : Orderly s t) : OrderlyNext s (execUpdStatus c t) :=
  runCmd_orderly h fun _ h => onModelCmd_orderly h fun _ _ => .done h

theorem execUpdMonRead_orderly {c : Cmd} (h : Orderly s t) : OrderlyNext s (execUpdMonRead c t) := by
  refine runCmd_orderly h fun _ h => onModelCmd_orderly h fun _ _ => ?_
  split
  · exact .done h
  · exact .ite (.done h) <| writeFor_orderly h fun _ h => .done (h _)

theorem functionReset_orderly {fn : Nat} (h : Orderly s t) : Orderly s (functionReset fn t) := by
  refine .ite h ?_
  dsimp only
  split
  · exact disableCause_orderly h.upd
  · exact disableCause_orderly h.upd
  · exact .ite h.upd h.upd
  · exact h.upd

theorem portReset_orderly {p : Nat} (h : Orderly s t) : Orderly s (portReset p t) :=
  .foldl (fun _ _ h => functionReset_orderly h) h.upd

theorem execFunctionLevelReset_orderly {fn : BitVec 10} (h : Orderly s t) : OrderlyNext s (execFunctionLevelReset fn t) :=
  .next <| .ite (functionReset_orderly h.upd) h

theorem execHotReset_orderly {port : BitVec 2} (h : Orderly s t) : OrderlyNext s (execHotReset port t) :=
  .next <| whenOn_orderly h (portReset_orderly h)

theorem execLinkDisable_orderly {port : BitVec 2} (h : Orderly s t) : OrderlyNext s (execLinkDisable port t) :=
  .next <| whenOn_orderly h <| .upd <| hostDown_orderly (portReset_orderly h)

theorem execVfDisable_orderly {port : BitVec 2} {num : BitVec 8} (h : Orderly s t) : OrderlyNext s (execVfDisable port num t) :=
  .next <| whenOn_orderly h <| .foldl (fun _ _ h => .upd (disableCause_orderly h)) h.upd

theorem functionAppears_orderly {a : Nat} (h : Orderly s t) : Orderly s (functionAppears a t) := by
  fun_cases functionAppears a t
  · exact .upd <| .ite (enterEnabled_orderly h.upd) h.upd
  · exact .ite (enterEnabled_orderly h.upd) h.upd

theorem execVfEnable_orderly {port : BitVec 2} {num : BitVec 8} (h : Orderly s t) : OrderlyNext s (execVfEnable port num t) :=
  .next <| whenOn_orderly h <| .foldl (fun _ _ h => functionAppears_orderly h) h.upd

end

/-! ## The dispatch and the step -/

/-- Every command keeps to the order, chapter by chapter. -/
theorem exec_orderly {i : Instr} {s t : State} (h : Orderly s t) : OrderlyNext s (exec i t) := by
  cases i
  -- Memory, mailboxes and the course of a command
  case cmdDb => exact execCmdDb_orderly h
  case commandTake => exact execCommandTake_orderly h
  case firmwareAccept => apply execFirmwareAccept_orderly h
  case ntfTail => exact execNtfTail_orderly h
  case negotiate => exact execNegotiate_orderly h
  case identify => exact execIdentify_orderly h
  case notifyMask => exact execNotifyMask_orderly h
  case mailboxResumed => exact execMailboxResumed_orderly h
  -- Pages, packages and transfers
  case kvModelSet => exact execKvModelSet_orderly h
  case kvPoolSet => exact execKvPoolSet_orderly h
  case kvVaultSet => exact execKvVaultSet_orderly h
  case kvDomainCreate => exact execKvDomainCreate_orderly h
  case kvDomainGrant => exact execKvDomainGrant_orderly h
  case kvDomainJoin => exact execKvDomainJoin_orderly h
  case kvDomainLeave => exact execKvDomainLeave_orderly h
  case kvFlush => exact execKvFlush_orderly h
  case kvPoolQuery => exact execKvPoolQuery_orderly h
  case demotion => exact execDemotion_orderly h
  -- Vector programs
  case add => exact execAdd_orderly h
  case sub => exact execSub_orderly h
  case and => exact execAnd_orderly h
  case or => exact execOr_orderly h
  case xor => exact execXor_orderly h
  case sll => exact execSll_orderly h
  case srl => exact execSrl_orderly h
  case sra => exact execSra_orderly h
  case slt => exact execSlt_orderly h
  case sltu => exact execSltu_orderly h
  case min => exact execMin_orderly h
  case max => exact execMax_orderly h
  case mul => exact execMul_orderly h
  case addi => exact execAddi_orderly h
  case andi => exact execAndi_orderly h
  case ori => exact execOri_orderly h
  case xori => exact execXori_orderly h
  case shi => exact execShi_orderly h
  case lui => exact execLui_orderly h
  case slti => exact execSlti_orderly h
  case fadd => exact execFadd_orderly h
  case fsub => exact execFsub_orderly h
  case fmul => exact execFmul_orderly h
  case fdiv => exact execFdiv_orderly h
  case fsqrt => exact execFsqrt_orderly h
  case fmin => exact execFmin_orderly h
  case fmax => exact execFmax_orderly h
  case ffma => exact execFfma_orderly h
  case feq => exact execFeq_orderly h
  case flt => exact execFlt_orderly h
  case fle => exact execFle_orderly h
  case funord => exact execFunord_orderly h
  case fcvt => exact execFcvt_orderly h
  case br => exact execBr_orderly h
  case halt => exact execHalt_orderly h
  case semwait => exact execSemwait_orderly h
  case semsignal => exact execSemsignal_orderly h
  case xpost => exact execXpost_orderly h
  case ld => exact execLd_orderly h
  case st => exact execSt_orderly h
  case vadd => exact execVadd_orderly h
  case vsub => exact execVsub_orderly h
  case vmul => exact execVmul_orderly h
  case vfma => exact execVfma_orderly h
  case vmin => exact execVmin_orderly h
  case vmax => exact execVmax_orderly h
  case vdiv => exact execVdiv_orderly h
  case vsqrt => exact execVsqrt_orderly h
  case vcmp => exact execVcmp_orderly h
  case pand => exact execPand_orderly h
  case por => exact execPor_orderly h
  case pxor => exact execPxor_orderly h
  case pandn => exact execPandn_orderly h
  case pnot => exact execPnot_orderly h
  case vsel => exact execVsel_orderly h
  case vintOp => exact execVintOp_orderly h
  case viota => exact execViota_orderly h
  case vcvt => exact execVcvt_orderly h
  case vmxPack => exact execVmxPack_orderly h
  case vmxUnpack => exact execVmxUnpack_orderly h
  case vfn => exact execVfn_orderly h
  case vact => exact execVact_orderly h
  case vdact => exact execVdact_orderly h
  case apset => exact execApset_orderly h
  case vperm => exact execVperm_orderly h
  case vbcast => exact execVbcast_orderly h
  case vrot => exact execVrot_orderly h
  case vlane => exact execVlane_orderly h
  case vrand => exact execVrand_orderly h
  case vrclr => exact execVrclr_orderly h
  case vrsum => exact execVrsum_orderly h
  case vrdot => exact execVrdot_orderly h
  case vrfin => exact execVrfin_orderly h
  case vrmax => exact execVrmax_orderly h
  case vrmin => exact execVrmin_orderly h
  case vrarg => exact execVrarg_orderly h
  case vrput => exact execVrput_orderly h
  case vrget => exact execVrget_orderly h
  case vld => exact execVld_orderly h
  case vst => exact execVst_orderly h
  case vgather => exact execVgather_orderly h
  case vscatter => exact execVscatter_orderly h
  case vsample => exact execVsample_orderly h
  -- Tiles, collectives and the loader
  case tile => exact execTile_orderly h
  case tilePassEnd => exact execTilePassEnd_orderly h
  case allreduce => exact execAllreduce_orderly h
  case reduce => exact execReduce_orderly h
  case broadcast => exact execBroadcast_orderly h
  case allgather => exact execAllgather_orderly h
  case barrier => exact execBarrier_orderly h
  case roundComplete => exact execRoundComplete_orderly h
  case put => exact execPut_orderly h
  case putLanded => exact execPutLanded_orderly h
  case rerunRequest => exact execRerunRequest_orderly h
  case packageStart => exact execPackageStart_orderly h
  case descriptorStart => exact execDescriptorStart_orderly h
  case vectorProgram => exact execVectorProgram_orderly h
  case xfer => exact execXfer_orderly h
  case sync => exact execSync_orderly h
  case prefetch => exact execPrefetch_orderly h
  case descriptorComplete => exact execDescriptorComplete_orderly h
  case runLimitExpiry => exact execRunLimitExpiry_orderly h
  case vectorTimeLimit => exact execVectorTimeLimit_orderly h
  case budgetExhausted => exact execBudgetExhausted_orderly h
  case forcedStop => exact execForcedStop_orderly h
  case wpCancel => exact execWpCancel_orderly h
  case wpQuery => exact execWpQuery_orderly h
  case semRead => exact execSemRead_orderly h
  case semSet => exact execSemSet_orderly h
  case semSignal => exact execSemSignal_orderly h
  case wpSubmit => exact execWpSubmit_orderly h
  -- Sequences, models and accounts
  case admitGrant => exact execAdmitGrant_orderly h
  case importDone => exact execImportDone_orderly h
  case prefillLaunch => exact execPrefillLaunch_orderly h
  case firstTokenCommit => exact execFirstTokenCommit_orderly h
  case frameEnd => exact execFrameEnd_orderly h
  case frameStart => exact execFrameStart_orderly h
  case functionStopDone => exact execFunctionStopDone_orderly h
  case acctCreate => exact execAcctCreate_orderly h
  case acctModify => exact execAcctModify_orderly h
  case acctDisable => exact execAcctDisable_orderly h
  case acctEnable => exact execAcctEnable_orderly h
  case acctDestroy => exact execAcctDestroy_orderly h
  case acctQuery => exact execAcctQuery_orderly h
  case acctMemGrant => exact execAcctMemGrant_orderly h
  case acctMemRevoke => exact execAcctMemRevoke_orderly h
  case partSet => exact execPartSet_orderly h
  case rightSet => exact execRightSet_orderly h
  case acctFlagsSet => exact execAcctFlagsSet_orderly h
  -- Registers, the ledger's operations, copies and weights
  case msixUnmask => exact execMsixUnmask_orderly h
  case registerWrite => exact execRegisterWrite_orderly h
  case mtimeLoRead => exact execMtimeLoRead_orderly h
  case cntValLowRead => exact execCntValLowRead_orderly h
  case apertureRead => exact execApertureRead_orderly h
  case apertureWrite => exact execApertureWrite_orderly h
  case ldgMov => exact execLdgMov_orderly h
  case ldgAdd => exact execLdgAdd_orderly h
  case ldgSub => exact execLdgSub_orderly h
  case ldgMul => exact execLdgMul_orderly h
  case ldgFma => exact execLdgFma_orderly h
  case ldgDiv => exact execLdgDiv_orderly h
  case ldgSqrt => exact execLdgSqrt_orderly h
  case ldgMin => exact execLdgMin_orderly h
  case ldgMax => exact execLdgMax_orderly h
  case ldgFn => exact execLdgFn_orderly h
  case sign => exact execSign_orderly h
  case sel => exact execSel_orderly h
  case abs => exact execAbs_orderly h
  case rsum => exact execRsum_orderly h
  case rdot => exact execRdot_orderly h
  case rmax => exact execRmax_orderly h
  case gram => exact execGram_orderly h
  case qema => exact execQema_orderly h
  case mml => exact execMml_orderly h
  case mmr => exact execMmr_orderly h
  case cir => exact execCir_orderly h
  case nsnorm => exact execNsnorm_orderly h
  case nsstep => exact execNsstep_orderly h
  case wtCreate => exact execWtCreate_orderly h
  case wtLoad => exact execWtLoad_orderly h
  case wtTurn => exact execWtTurn_orderly h
  case wtLearn => exact execWtLearn_orderly h
  case wtRebuild => exact execWtRebuild_orderly h
  case wtQuery => exact execWtQuery_orderly h
  case wtAnchorSet => exact execWtAnchorSet_orderly h
  case wtGenDrop => exact execWtGenDrop_orderly h
  case wtUnload => exact execWtUnload_orderly h
  -- Moving operations and the ledger's passes
  case barrierReport => exact execBarrierReport_orderly h
  case barrierDecision => exact execBarrierDecision_orderly h
  case movingOpStart => exact execMovingOpStart_orderly h
  case loadSegment => exact execLoadSegment_orderly h
  case loadLimitExpiry => exact execLoadLimitExpiry_orderly h
  case reshardSegment => exact execReshardSegment_orderly h
  case mintLayer => exact execMintLayer_orderly h
  case turnLimitExpiry => exact execTurnLimitExpiry_orderly h
  case inplaceDrainEnd => exact execInplaceDrainEnd_orderly h
  case oldEpochFree => exact execOldEpochFree_orderly h
  case learnLimitExpiry => exact execLearnLimitExpiry_orderly h
  case lfeed => exact execLfeed_orderly h
  case layerPass1 => exact execLayerPass1_orderly h
  case ledgerCombine => exact execLedgerCombine_orderly h
  case layerPass2 => exact execLayerPass2_orderly h
  case mirrorTransfer => exact execMirrorTransfer_orderly h
  case feedLimitExpiry => exact execFeedLimitExpiry_orderly h
  -- Ports, the fabric, power, the Beacon and counters
  case healthSend => exact execHealthSend_orderly h
  case portQuery => exact execPortQuery_orderly h
  case portBoundsSet => exact execPortBoundsSet_orderly h
  case portEnable => exact execPortEnable_orderly h
  case flitCrcFail => exact execFlitCrcFail_orderly h
  case portRetrain => exact execPortRetrain_orderly h
  case portTrained => exact execPortTrained_orderly h
  case portDown => exact execPortDown_orderly h
  case seekingRetry => exact execSeekingRetry_orderly h
  case laserProtect => exact execLaserProtect_orderly h
  case laserFault port colour => exact execLaserFault_orderly (_lambda := colour) h
  case hostLinkDown => exact execHostLinkDown_orderly h
  case hostLinkUp => exact execHostLinkUp_orderly h
  case hostLinkTrainFail => exact execHostLinkTrainFail_orderly h
  case hostOutageTimeout => exact execHostOutageTimeout_orderly h
  case fabOrigin => exact execFabOrigin_orderly h
  case enumTimeout => exact execEnumTimeout_orderly h
  case fabAddrQuery => exact execFabAddrQuery_orderly h
  case fabRouteSet => exact execFabRouteSet_orderly h
  case fabRouteQuery => exact execFabRouteQuery_orderly h
  case fabJobJoin => exact execFabJobJoin_orderly h
  case joinMessage => exact execJoinMessage_orderly h
  case fabJobLeave => exact execFabJobLeave_orderly h
  case fabGroupSet => exact execFabGroupSet_orderly h
  case fabDropSet => exact execFabDropSet_orderly h
  case fabJobQuery => exact execFabJobQuery_orderly h
  case jobFault => exact execJobFault_orderly h
  case partLostTimeout => exact execPartLostTimeout_orderly h
  case depositLost src job model die => exact execDepositLost_orderly (_die := die) h
  case fabricMessage => exact execFabricMessage_orderly h
  case memMapQuery => exact execMemMapQuery_orderly h
  case memCreditSet => exact execMemCreditSet_orderly h
  case memCreditQuery => exact execMemCreditQuery_orderly h
  case memErrQuery => exact execMemErrQuery_orderly h
  case creditPeriod => exact execCreditPeriod_orderly h
  case governorEval => exact execGovernorEval_orderly h
  case dividerStep => exact execDividerStep_orderly h
  case pwrStateSet => exact execPwrStateSet_orderly h
  case powerEntryDone => exact execPowerEntryDone_orderly h
  case wake => exact execWake_orderly h
  case wakeOnLight => exact execWakeOnLight_orderly h
  case powerExitDone => exact execPowerExitDone_orderly h
  case pwrQuery => exact execPwrQuery_orderly h
  case pwrBoundsSet => exact execPwrBoundsSet_orderly h
  case thermalOverride => exact execThermalOverride_orderly h
  case currentOverride => exact execCurrentOverride_orderly h
  case overrideClear => exact execOverrideClear_orderly h
  case supplyDroop => exact execSupplyDroop_orderly h
  case beaconEnum => exact execBeaconEnum_orderly h
  case beaconHealth => exact execBeaconHealth_orderly h
  case beaconWake => exact execBeaconWake_orderly h
  case beaconSleep => exact execBeaconSleep_orderly h
  case beaconFrameDropped => exact execBeaconFrameDropped_orderly h
  case beaconEntryAge => exact execBeaconEntryAge_orderly h
  case beaconBreak => exact execBeaconBreak_orderly h
  case beaconLightRestored => exact execBeaconLightRestored_orderly h
  case beaconStatus => exact execBeaconStatus_orderly h
  case beaconSend => exact execBeaconSend_orderly h
  case tallyCopy => exact execTallyCopy_orderly h
  case tallyRead => exact execTallyRead_orderly h
  case tallyReadAll => exact execTallyReadAll_orderly h
  case cntSet => exact execCntSet_orderly h
  case cntSnap => exact execCntSnap_orderly h
  case cntSample => exact execCntSample_orderly h
  case sampleLatch => exact execSampleLatch_orderly h
  case cntCatalog => exact execCntCatalog_orderly h
  case numRead => exact execNumRead_orderly h
  case numAmaxRead => exact execNumAmaxRead_orderly h
  case numAmaxSet => exact execNumAmaxSet_orderly h
  case numAmaxRoll => exact execNumAmaxRoll_orderly h
  case amaxRoll => exact execAmaxRoll_orderly h
  -- Units, resets and firmware
  case unitQuery => exact execUnitQuery_orderly h
  case unitFence => exact execUnitFence_orderly h
  case unitLost => exact execUnitLost_orderly h
  case reconciliation => exact execReconciliation_orderly h
  case unitReconcile => exact execUnitReconcile_orderly h
  case pwrReset => exact execPwrReset_orderly h
  case powerInputLoss => exact execPowerInputLoss_orderly h
  case thermalTrip => exact execThermalTrip_orderly h
  case powerInputEnter => exact execPowerInputEnter_orderly h
  case mailboxReady => exact execMailboxReady_orderly h
  case fwWrite => exact execFwWrite_orderly h
  case fwActivate => exact execFwActivate_orderly h
  case firmwareReady => exact execFirmwareReady_orderly h
  case opticsGroupRelit => exact execOpticsGroupRelit_orderly h
  case fwQuery => exact execFwQuery_orderly h
  case fwFloorRaise => exact execFwFloorRaise_orderly h
  case fwLock => exact execFwLock_orderly h
  case lcNonce => exact execLcNonce_orderly h
  case lcChange => exact execLcChange_orderly h
  -- Commands of sequences, secure copies and the ledger
  case waveStart => exact execWaveStart_orderly h
  case waveCommit => exact execWaveCommit_orderly h
  case parkDone => exact execParkDone_orderly h
  case restoreDone => exact execRestoreDone_orderly h
  case admitWaitExpiry => exact execAdmitWaitExpiry_orderly h
  case lifetimeExpiry => exact execLifetimeExpiry_orderly h
  case pauseLimitExpiry => exact execPauseLimitExpiry_orderly h
  case parkTtlExpiry => exact execParkTtlExpiry_orderly h
  case entryAutoRelease => exact execEntryAutoRelease_orderly h
  case seqAdmit => exact execSeqAdmit_orderly h
  case seqCancel => exact execSeqCancel_orderly h
  case seqQuery => exact execSeqQuery_orderly h
  case seqPause => exact execSeqPause_orderly h
  case seqResume => exact execSeqResume_orderly h
  case seqPark => exact execSeqPark_orderly h
  case seqRelease => exact execSeqRelease_orderly h
  case seqDraft => exact execSeqDraft_orderly h
  case seqModelSet => exact execSeqModelSet_orderly h
  case seqPrefillSet => exact execSeqPrefillSet_orderly h
  case seqDecodeSet => exact execSeqDecodeSet_orderly h
  case riskUpdate => exact execRiskUpdate_orderly h
  case ftRiskQuery => exact execFtRiskQuery_orderly h
  case ftThreshSet => exact execFtThreshSet_orderly h
  case ftPlanSet => exact execFtPlanSet_orderly h
  case ftDepositSet => exact execFtDepositSet_orderly h
  case ftSecure => exact execFtSecure_orderly h
  case ftCkptList => exact execFtCkptList_orderly h
  case ftCkptDrop => exact execFtCkptDrop_orderly h
  case ftExport => exact execFtExport_orderly h
  case ftStatus => exact execFtStatus_orderly h
  case drainCommit => exact execDrainCommit_orderly h
  case laterLayerCopy => exact execLaterLayerCopy_orderly h
  case drainLimitExpiry => exact execDrainLimitExpiry_orderly h
  case ftRestore => exact execFtRestore_orderly h
  case ckptRestoreDone => exact execCkptRestoreDone_orderly h
  case routeWaitTimeout => exact execRouteWaitTimeout_orderly h
  case updProgLoad => exact execUpdProgLoad_orderly h
  case updProgFree => exact execUpdProgFree_orderly h
  case updGroupSet => exact execUpdGroupSet_orderly h
  case updGroupRead => exact execUpdGroupRead_orderly h
  case updGroupFree => exact execUpdGroupFree_orderly h
  case updModelSet => exact execUpdModelSet_orderly h
  case updBegin => exact execUpdBegin_orderly h
  case updCommit => exact execUpdCommit_orderly h
  case updAbort => exact execUpdAbort_orderly h
  case updStatus => exact execUpdStatus_orderly h
  case updMonRead => exact execUpdMonRead_orderly h
  case functionLevelReset => exact execFunctionLevelReset_orderly h
  case hotReset => exact execHotReset_orderly h
  case linkDisable => exact execLinkDisable_orderly h
  case vfDisable => exact execVfDisable_orderly h
  case vfEnable => exact execVfEnable_orderly h

theorem OrderlyNext.of_next {s u : State} {r : Result State} (h : OrderlyNext s r) (e : r = .next u) : Orderly s u := by
  subst e
  cases h
  assumption

/-- Settles O57: every operation of the model is orderly, so the tick and each command are, and a step takes the front alone. -/
theorem memoryStaysCanonicalAndQueueServed : Obligations.MemoryStaysCanonicalAndQueueServed := by
  unfold Obligations.MemoryStaysCanonicalAndQueueServed
  intro s t taken
  unfold step at taken
  split at taken
  case h_1 empty =>
    obtain rfl := Host.Outcome.next.inj taken
    have ticked := tick_orderly (.refl s)
    exact ⟨ticked.wf, by rw [ticked.pending, empty, List.drop_nil]⟩
  case h_2 i rest front =>
    have ran := (exec_orderly (.refl _)).of_next taken
    exact ⟨ran.wf, by rw [ran.pending, front, List.drop_one, List.tail_cons]⟩

end Sys2Proof.Machine
end

section
/-!
PROOFS. The two views of a die's HBM (11, R345): a byte is reached by its storage key, and a byte of a quarter view has the key
of its striped offset.
-/
namespace Sys2Proof.Machine

/-! ## One byte -/

/-- One byte is one run of keys, in whichever view it is named. -/
theorem pieces_one (a : Nat) : pieces a 1 = [(keyOf a, 1)] := by
  by_cases quarter : quarterBase ≤ a ∧ a < vaultBase
  · have runs : (a + 1 + 8191) / 8192 - a / 8192 = 1 := by omega
    have len : min ((a / 8192 + 1) * 8192) (a + 1) - a = 1 := by omega
    simp [pieces, quarter, runs, len]
  · simp [pieces_plain quarter, keyOf, quarter]

/-- Reading one byte gives the byte at its key. -/
theorem State.read_one (s : State) (a : Nat) : s.read a 1 = [s.byteAt a] := by
  simp [State.read, Memory.load, pieces_one, Memory.bytes_eq, State.byteAt]

/-- Writing one byte is a write at its key. -/
theorem State.write_one_mem (s : State) (a : Nat) (b : Byte) : (s.write a [b]).mem = s.mem.put (keyOf a) [b] := by
  simp [State.write_mem, Memory.store, pieces_one, Memory.putRuns]

theorem State.byteAt_write_same (s : State) {a x : Nat} (b : Byte) (same : keyOf x = keyOf a) :
    (s.write a [b]).byteAt x = b := by
  rw [State.byteAt, State.write_one_mem, same]
  exact Memory.get_put_in _ _ 0 [b] (by simp)

theorem State.byteAt_write_other (s : State) {a x : Nat} (b : Byte) (other : keyOf x ≠ keyOf a) :
    (s.write a [b]).byteAt x = s.byteAt x := by
  rw [State.byteAt, State.write_one_mem]
  exact Memory.get_put_out _ _ _ _ (by simp only [List.length_singleton]; omega)

/-! ## The striped offset -/

/-- An offset of the quarter view fills, in the striped view, a place within its band of 2^26 bytes. -/
theorem stripedOf_band {m o : Nat} (hm : m < 4) : stripedOf m o / 2 ^ 26 = o / 2 ^ 24 ∧
    stripedOf m o / 512 % 2 ^ 17 = o / 512 % 2 ^ 15 / 16 * 64 + (16 * m + o / 512 % 2 ^ 15 % 16) ∧
    stripedOf m o % 512 = o % 512 := by
  simp only [stripedOf]
  omega

theorem stripedOf_lt {m o : Nat} (hm : m < 4) (ho : o < 24 * 2 ^ 30) : stripedOf m o < 96 * 2 ^ 30 := by
  have band := (stripedOf_band (o := o) hm).1
  omega

/-- A byte of the striped view is its own key. -/
theorem keyOf_striped {n x : Nat} (hn : n < 8) (hx : x < 96 * 2 ^ 30) : keyOf (n * 2 ^ 37 + x) = n * 2 ^ 37 + x := by
  rw [keyOf, if_neg]
  simp only [quarterBase]
  omega

/-- The key of a byte of a quarter view. -/
theorem keyOf_quarter {n m o : Nat} (hn : n < 8) (hm : m < 4) (ho : o < 24 * 2 ^ 30) :
    keyOf (quarterBase + n * 2 ^ 37 + m * 2 ^ 35 + o) = n * 2 ^ 37 + stripedOf m o := by
  have within : quarterBase ≤ quarterBase + n * 2 ^ 37 + m * 2 ^ 35 + o ∧
      quarterBase + n * 2 ^ 37 + m * 2 ^ 35 + o < vaultBase := by
    simp only [quarterBase, vaultBase]
    omega
  have off : quarterBase + n * 2 ^ 37 + m * 2 ^ 35 + o - quarterBase = n * 2 ^ 37 + m * 2 ^ 35 + o := by omega
  have die : (n * 2 ^ 37 + m * 2 ^ 35 + o) / 2 ^ 37 = n := by omega
  have quarter : (n * 2 ^ 37 + m * 2 ^ 35 + o) / 2 ^ 35 % 4 = m := by omega
  have rest : (n * 2 ^ 37 + m * 2 ^ 35 + o) % 2 ^ 35 = o := by omega
  simp only [keyOf, if_pos within, off, die, quarter, rest]

/-- Settles O60: the byte of the striped view is the one at the striped offset, whose key is the quarter byte's. -/
theorem hbmViewsReachTheSameBytes : Obligations.HbmViewsReachTheSameBytes := by
  unfold Obligations.HbmViewsReachTheSameBytes
  intro s n m o b hn hm ho q g
  obtain ⟨band, place, byte⟩ := stripedOf_band (o := o) hm
  have below := stripedOf_lt hm ho
  have keyQ : keyOf q = n * 2 ^ 37 + stripedOf m o := keyOf_quarter hn hm ho
  have same : keyOf (n * 2 ^ 37 + stripedOf m o) = keyOf q := (keyOf_striped hn below).trans keyQ.symm
  refine ⟨stripedOf m o, below, ⟨?_, ?_⟩, ?_, ?_, ?_, fun x hx apart => ?_⟩
  · omega
  · omega
  · rw [State.read_one, State.read_one, State.byteAt, State.byteAt, same]
  · rw [State.read_one, State.byteAt_write_same s b rfl]
  · rw [State.read_one, State.byteAt_write_same s b same]
  · have other : keyOf (n * 2 ^ 37 + x) ≠ keyOf q := by rw [keyOf_striped hn hx, keyQ]; omega
    rw [State.read_one, State.byteAt_write_other s b other, State.read_one]

end Sys2Proof.Machine
end

section
/-!
PROOFS. The routes between dies, the crossing of the network from empty buffers, and the bounds of the Teller's credits (01 R22,
11 R360, R361, R368, R369).
-/
namespace Sys2Proof.Machine

/-! ## Routes (R369) -/

theorem dieHops_routes : ∀ a < 8, ∀ b < 8,
    (dieHops a b).length ≤ 2 ∧ (dieHops a b).map (·.level) = List.range (dieHops a b).length ∧
    (∀ h ∈ dieHops a b, h.src < 8 ∧ (h.dst = (h.src + 1) % 8 ∨ h.dst = (h.src + 7) % 8 ∨ h.dst = (h.src + 4) % 8)) ∧
    (dieHops a b).map (·.dst) = match (b + 8 - a) % 8 with
      | 0 => [] | 1 => [(a + 1) % 8] | 2 => [(a + 1) % 8, (a + 2) % 8] | 3 => [(a + 4) % 8, (a + 3) % 8]
      | 4 => [(a + 4) % 8] | 5 => [(a + 4) % 8, (a + 5) % 8] | 6 => [(a + 7) % 8, (a + 6) % 8] | _ => [(a + 7) % 8] := by
  decide

/-! ## Crossing from empty buffers (R368) -/

/-- Two hops that need different input buffers, whatever the channel. -/
def Hop.Apart (h g : Hop) : Prop := h.link ≠ g.link ∨ h.level % 2 ≠ g.level % 2

theorem Hop.Apart.key_ne {h g : Hop} (apart : h.Apart g) (vc : Vc) : h.key vc ≠ g.key vc := by
  unfold Hop.Apart at apart
  unfold Hop.key
  omega

/-- The network where one flit lies in the input buffer of a hop. -/
def Noc.holding (n : Noc) (k : Nat) : Noc := { n with held := [(k, 1)] }

theorem hold_empty {n : Noc} (empty : n.held = []) (k : Nat) : n.hold k true = n.holding k := by
  simp [Noc.hold, Noc.holding, empty, tgetD, tset]

theorem holding_release {n : Noc} (empty : n.held = []) (k : Nat) : (n.holding k).hold k false = n := by
  rw [← hold_empty empty, hold_hold k n empty]

/-- A flit moves on: it enters the next buffer before it leaves the one that it holds (R370). -/
theorem holding_advance (n : Noc) {k j : Nat} (apart : k ≠ j) : ((n.holding k).hold j true).hold k false = n.holding j := by
  have e : (k == j) = false := by simpa using apart
  have f : (j == k) = false := by simpa using apart.symm
  rcases Nat.lt_or_gt_of_ne apart with g | g <;>
    simp [Noc.hold, Noc.holding, tgetD, tset, terase, List.lookup, e, f, apart.symm, g, Nat.le_of_lt g]

theorem credit_empty {n : Noc} (empty : n.held = []) (vc : Vc) (h : Hop) : n.credit vc h = true := by
  simp [Noc.credit, empty, tgetD]

theorem credit_holding (n : Noc) {vc : Vc} {h : Hop} {k : Nat} (apart : k ≠ h.key vc) : (n.holding k).credit vc h = true := by
  have e : (h.key vc == k) = false := by simpa using apart.symm
  simp [Noc.credit, Noc.holding, tgetD, e]

/-- A message that is under way crosses the rest of its route, and leaves every buffer empty. -/
theorem cross_holding {n : Noc} (empty : n.held = []) (vc : Vc) (h : Hop) (hs : List Hop)
    (route : List.IsChain Hop.Apart (h :: hs)) : Noc.cross vc (some h) hs (n.holding (h.key vc)) = some n := by
  induction hs generalizing h with
  | nil => simp [Noc.cross, holding_release empty]
  | cons g hs ih =>
    obtain ⟨apart, rest⟩ := List.isChain_cons_cons.1 route
    have other := apart.key_ne vc
    simp only [Noc.cross, credit_holding n other, if_true, holding_advance n other]
    exact ih g rest

/-- From empty buffers a message crosses a route whose hops need one buffer after another, and leaves them empty. -/
theorem cross_route {n : Noc} (empty : n.held = []) (vc : Vc) {hs : List Hop} (route : hs.IsChain Hop.Apart) :
    Noc.cross vc none hs n = some n := by
  cases hs with
  | nil => rfl
  | cons h hs =>
    simp only [Noc.cross, credit_empty empty, if_true, hold_empty empty]
    exact cross_holding empty vc h hs route

theorem crossAll_routes {n : Noc} (empty : n.held = []) (ms : List (Vc × List Hop))
    (routes : ∀ x ∈ ms, x.2.IsChain Hop.Apart) : n.crossAll ms = some n := by
  induction ms with
  | nil => rfl
  | cons x xs ih =>
    obtain ⟨first, rest⟩ := List.forall_mem_cons.1 routes
    simp only [Noc.crossAll, cross_route empty x.1 first]
    exact ih rest

/-! ## The routes to what serves an address -/

theorem dieHops_apart : ∀ a < 8, ∀ d < 8, (dieHops a d).IsChain Hop.Apart ∧
    (dieHops a d ++ [Hop.mk d (8 + d / 2) 0]).IsChain Hop.Apart ∧ (Hop.mk (8 + d / 2) d 0 :: dieHops d a).IsChain Hop.Apart := by
  unfold Hop.Apart
  decide

/-- The map puts every byte of on-part memory on a die of the part (R343). -/
theorem locOf_die_lt {x d : Nat} {l : Loc} (place : locOf x = some l) (die : l.die = some d) : d < 8 := by
  have quarters : quarterBase = 2 ^ 40 := rfl
  have vaults : vaultBase = 2 ^ 41 := rfl
  have srams : dieSramBase = 3 * 2 ^ 40 := rfl
  simp only [locOf, Bool.and_eq_true, decide_eq_true_eq] at place
  split_ifs at place
  all_goals
    obtain rfl := Option.some.inj place
    simp only [Loc.die, Option.some.injEq, reduceCtorEq] at die
  all_goals omega

theorem locOf_port_lt {x p o : Nat} (place : locOf x = some (.host p o)) : p < 4 := by
  simp only [locOf] at place
  split_ifs at place <;> simp only [Option.some.injEq, reduceCtorEq, Loc.host.injEq] at place
  next host =>
    have base : hostBase = 2 ^ 48 := rfl
    omega

theorem servedAt_lt {x d : Nat} {vault : Bool} (served : servedAt x = some (d, vault)) : d < 8 := by
  unfold servedAt at served
  split at served
  next p o place =>
    cases served
    have := locOf_port_lt place
    omega
  next e o place =>
    cases served
    exact locOf_die_lt place rfl
  next l _ _ place =>
    obtain ⟨e, he, eq⟩ := Option.map_eq_some_iff.1 served
    cases eq
    exact locOf_die_lt place he
  next => cases served

theorem hopsTo_apart {die : Nat} (hdie : die < 8) (x : Nat) : (hopsTo die x).IsChain Hop.Apart := by
  unfold hopsTo
  split
  next d vault served =>
    obtain ⟨plain, ledger, -⟩ := dieHops_apart die hdie d (servedAt_lt served)
    cases vault
    · simpa using plain
    · exact ledger
  next => exact .nil

theorem hopsFrom_apart {die : Nat} (hdie : die < 8) (x : Nat) : (hopsFrom die x).IsChain Hop.Apart := by
  unfold hopsFrom
  split
  next d vault served =>
    have hd := servedAt_lt served
    cases vault
    · simpa using (dieHops_apart d hd die hdie).1
    · exact (dieHops_apart die hdie d hd).2.2
  next => exact .nil

/-- Messages to ranges and the answers back cross from empty buffers. -/
theorem crossAll_exchange {n : Noc} (empty : n.held = []) {die : Nat} (hdie : die < 8) (vc : Vc) (rs : List (Nat × Nat)) :
    n.crossAll (rs.flatMap fun r => [(vc, hopsTo die r.1), (.rsp, hopsFrom die r.1)]) = some n := by
  refine crossAll_routes empty _ fun x hx => ?_
  obtain ⟨r, -, sent⟩ := List.mem_flatMap.1 hx
  simp only [List.mem_cons, List.not_mem_nil, or_false] at sent
  rcases sent with rfl | rfl
  · exact hopsTo_apart hdie r.1
  · exact hopsFrom_apart hdie r.1

/-! ## KV movements (R360) -/

theorem kvShares_sum_le (left : Nat) (rs : List CreditReq) : ((kvShares left rs).map (·.2)).sum ≤ left := by
  induction rs generalizing left with
  | nil => simp [kvShares]
  | cons r rs ih =>
    have rest := ih (left - r.count)
    simp only [kvShares, List.map_cons, List.sum_cons]
    omega

theorem mem_kvShares {left : Nat} {rs : List CreditReq} {g : CreditReq × Nat} (h : g ∈ kvShares left rs) :
    g.1 ∈ rs ∧ g.2 ≤ g.1.count := by
  induction rs generalizing left with
  | nil => simp [kvShares] at h
  | cons r rs ih =>
    rcases List.mem_cons.1 h with rfl | h
    · exact ⟨List.mem_cons_self, Nat.min_le_right _ _⟩
    · exact ⟨List.mem_cons_of_mem _ (ih h).1, (ih h).2⟩

/-! ## Lending (R361) -/

/-- What lending may leave: at most the pool more in sum, and to each class from what it has up to its room more. -/
structure LentWithin (pool : Nat) (room got r : List Nat) : Prop where
  len : r.length = got.length
  sum : r.sum ≤ got.sum + pool
  each : ∀ i < got.length, got.getD i 0 ≤ r.getD i 0 ∧ r.getD i 0 ≤ got.getD i 0 + room.getD i 0

theorem LentWithin.refl (pool : Nat) (room got : List Nat) : LentWithin pool room got got :=
  ⟨rfl, Nat.le_add_right _ _, fun _ _ => ⟨Nat.le_refl _, Nat.le_add_right _ _⟩⟩

theorem sum_lmod_succ_le (l : List Nat) (i : Nat) : (lmod l i (· + 1)).sum ≤ l.sum + 1 := by
  induction l generalizing i with
  | nil => simp [lmod]
  | cons x xs ih =>
    cases i with
    | zero => simp [lmod]; omega
    | succ i => simpa [lmod, Nat.add_assoc] using ih i

/-- One credit to a class with room, and then the rest of the pool. -/
theorem LentWithin.step {pool i : Nat} {room got r : List Nat} (sized : room.length = got.length) (has : room.getD i 0 ≠ 0)
    (rest : LentWithin pool (lmod room i (· - 1)) (lmod got i (· + 1)) r) : LentWithin (pool + 1) room got r where
  len := by simpa using rest.len
  sum := by
    have one := sum_lmod_succ_le got i
    have more := rest.sum
    omega
  each j hj := by
    have more := rest.each j (by simpa using hj)
    simp only [getD_lmod] at more
    grind

theorem lend_within (pool turn : Nat) (room got : List Nat) (sized : room.length = got.length) :
    LentWithin pool room got (lend pool turn room got).1 := by
  induction pool generalizing turn room got with
  | zero => exact .refl 0 room got
  | succ pool ih =>
    unfold lend
    split
    next => exact .refl _ room got
    next i found =>
      have has : room.getD i 0 ≠ 0 := by simpa using List.find?_some found
      exact .step sized has (ih _ _ _ (by simpa using sized))

/-- Settles O16: the routes by their finite table, the crossing hop by hop from empty buffers, the credits by induction on the
requests and on the pool. -/
theorem routesAndCreditsKeepTheirBounds : Obligations.RoutesAndCreditsKeepTheirBounds := by
  unfold Obligations.RoutesAndCreditsKeepTheirBounds
  refine ⟨dieHops_routes, fun die x d o _ vault => ?_, fun die rs n hdie empty => ?_, fun ms s k stuck => ?_,
    fun s die quarter floor => ?_, fun pool turn room got sized => ?_⟩
  · have served : servedAt x = some (d, true) := by rw [servedAt, vault]
    simp [hopsTo, hopsFrom, served]
  · exact ⟨crossAll_exchange empty hdie .req rs, crossAll_exchange empty hdie .xfr rs, crossAll_exchange empty hdie .req rs⟩
  · rw [State.carry, stuck]
  · refine ⟨kvShares_sum_le _ _, fun g hg => ?_⟩
    obtain ⟨queued, within⟩ := mem_kvShares hg
    obtain ⟨inDemand, asked⟩ := List.mem_filter.1 queued
    exact ⟨inDemand, by simp_all, within⟩
  · obtain ⟨len, sum, each⟩ := lend_within pool turn room got sized
    exact ⟨len, sum, each⟩

end Sys2Proof.Machine
end

section
/-!
PROOFS. The memory commands and the credit period (11 R359, R361, R365 to R367): each command passes its checks, and a period
divides credits without touching the settings, memory or anyone's work.
-/
namespace Sys2Proof.Machine

/-! ## The settings of a credit pool -/

/-- The floors and caps in force, and those that are staged. -/
def Credits.settings (x : Credits) : (List Nat × List Nat) × Option (List Nat × List Nat) := ((x.floors, x.caps), x.staged)

theorem getD_lmod_or {α : Type} (l : List α) (i j : Nat) (f : α → α) (d : α) :
    (lmod l i f).getD j d = l.getD j d ∨ (lmod l i f).getD j d = f (l.getD j d) := by
  rw [getD_lmod]
  split
  · exact .inr rfl
  · exact .inl rfl

theorem credits_onCredits (s : State) (v w : Bool) (d e : Nat) (f : Credits → Credits) :
    (s.onCredits v d f).credits w e = s.credits w e ∨ (s.onCredits v d f).credits w e = f (s.credits w e) :=
  match v, w with
  | false, false => getD_lmod_or s.chip.hbmCred d e f Credits.hbm
  | true, true => getD_lmod_or s.chip.vaultCred d e f Credits.vault
  | false, true | true, false => .inl rfl

theorem settings_onCredits {f : Credits → Credits} (keeps : ∀ x, (f x).settings = x.settings) (s : State) (v w : Bool) (d e : Nat) :
    ((s.onCredits v d f).credits w e).settings = (s.credits w e).settings := by
  rcases credits_onCredits s v w d e f with same | changed
  · rw [same]
  · rw [changed, keeps]

/-! ## What a credit period keeps -/

/-- A state and a later one of the same credit period: credits, demand and meters may differ. -/
structure PeriodKeeps (s t : State) : Prop where
  mem : t.mem = s.mem
  grants : t.ten.grants = s.ten.grants
  cores : t.cores = s.cores
  models : t.models = s.models
  mail : t.mail = s.mail
  pkgs : t.pkgs = s.pkgs
  settings : ∀ v d, (t.credits v d).settings = (s.credits v d).settings

theorem PeriodKeeps.refl (s : State) : PeriodKeeps s s := ⟨rfl, rfl, rfl, rfl, rfl, rfl, fun _ _ => rfl⟩

theorem PeriodKeeps.trans {s t u : State} (h : PeriodKeeps s t) (g : PeriodKeeps t u) : PeriodKeeps s u where
  mem := g.mem.trans h.mem
  grants := g.grants.trans h.grants
  cores := g.cores.trans h.cores
  models := g.models.trans h.models
  mail := g.mail.trans h.mail
  pkgs := g.pkgs.trans h.pkgs
  settings v d := (g.settings v d).trans (h.settings v d)

theorem PeriodKeeps.foldl {α : Type} {f : State → α → State} (step : ∀ s x, PeriodKeeps s (f s x)) (xs : List α) (s : State) :
    PeriodKeeps s (xs.foldl f s) := by
  induction xs generalizing s with
  | nil => exact .refl s
  | cons x xs ih => exact (step s x).trans (ih _)

theorem onCredits_periodKeeps {f : Credits → Credits} (keeps : ∀ x, (f x).settings = x.settings) (v : Bool) (d : Nat) (s : State) :
    PeriodKeeps s (s.onCredits v d f) := by
  refine ⟨?_, ?_, ?_, ?_, ?_, ?_, fun w e => settings_onCredits keeps s v w d e⟩ <;> cases v <;> rfl

theorem granted_periodKeeps (v : Bool) (die quarter acct n : Nat) (p : CreditReq → Bool) (s : State) :
    PeriodKeeps s (granted v die quarter acct n p s) := by
  cases v <;> exact ⟨rfl, rfl, rfl, rfl, rfl, rfl, fun _ _ => rfl⟩

theorem grantPeriod_periodKeeps (v : Bool) (die quarter : Nat) (wants : List Wants) (got : List Nat) (s : State) :
    PeriodKeeps s (grantPeriod v die quarter wants got s) := by
  refine .foldl (fun s w => ?_) _ s
  refine .trans (onCredits_periodKeeps ?_ v die s) (.foldl (fun s g => granted_periodKeeps ..) _ _)
  exact fun _ => rfl

theorem hbmPeriod_periodKeeps (die quarter : Nat) (s : State) : PeriodKeeps s (hbmPeriod die quarter s) := by
  refine .trans (.trans (onCredits_periodKeeps ?_ false die s) (.foldl (fun s g => granted_periodKeeps ..) _ _))
    (grantPeriod_periodKeeps ..)
  exact fun _ => rfl

/-- The close of a share: its classes' idle periods and turn, and the grants of its accounts. -/
theorem shareClose_periodKeeps (d n : Nat) (wants : List Wants) (got : List Nat) (s : State) :
    PeriodKeeps s (grantPeriod true d 0 wants got (s.onCredits true d fun x => ({ x with turn := [n] }).idled 0 got)) := by
  refine .trans (onCredits_periodKeeps ?_ true d s) (grantPeriod_periodKeeps ..)
  exact fun _ => rfl

theorem vaultPeriod_periodKeeps (ld : Nat) (s : State) : PeriodKeeps s (vaultPeriod ld s) := by
  unfold vaultPeriod
  dsimp only
  split
  · exact (shareClose_periodKeeps ..).trans (shareClose_periodKeeps ..)
  · exact (shareClose_periodKeeps ..).trans (shareClose_periodKeeps ..)

/-- The state in which the credits of a period are divided: the staged settings are in force, and the requests have joined. -/
def periodStart (reqs : List CreditReq) (s : State) : State :=
  { s with
    chip := { s.chip with hbmCred := s.chip.hbmCred.map Credits.apply, vaultCred := s.chip.vaultCred.map Credits.apply },
    demand := (reqs.filter fun r => r.count != 0 && (s.acct r.acct.toNat).state == .enabled).foldl joinDemand
      (s.demand.filter fun r => (s.acct r.acct.toNat).state == .enabled || (s.acct r.acct.toNat).state == .stopping) }

theorem credits_periodStart (reqs : List CreditReq) {s : State} {d : Nat} (hbm : d < s.chip.hbmCred.length)
    (vault : d < s.chip.vaultCred.length) (v : Bool) :
    ((periodStart reqs s).credits v d).settings = ((s.credits v d).coming, none) := by
  cases v <;> simp [periodStart, State.credits, hbm, vault, Credits.apply, Credits.settings]

/-- A period divides credits from its start on. -/
theorem execCreditPeriod_keeps (reqs : List CreditReq) (s : State) :
    ∃ t, execCreditPeriod reqs s = .next t ∧ PeriodKeeps (periodStart reqs s) t :=
  ⟨_, rfl, .trans (.foldl (fun s d => .foldl (fun s q => hbmPeriod_periodKeeps d q s) _ s) _ _)
    (.foldl (fun s l => vaultPeriod_periodKeeps l s) _ _)⟩

/-! ## The memory commands -/

section
variable {c : Cmd} {s u : State} {d : Nat}

theorem execMemMapQuery_ok (h : Runs 0x201 c s u) (tail : cmdTail c 8 = true) (addr : addrOk (cmdU c 0 8) = true)
    (aligned : cmdU c 0 8 % 64 = 0)
    (room : memoryMap u (cmdA c) = [] ∨ u.inAccount (cmdA c) (cmdU c 0 8) (16 * (memoryMap u (cmdA c)).length) = true ∧
      u.writes (cmdU c 0 8) (16 * (memoryMap u (cmdA c)).length) = true) :
    execMemMapQuery c s = .next (complete c 0x201 .ok (leBytes 4 (memoryMap u (cmdA c)).length)
      (if memoryMap u (cmdA c) = [] then u else u.give (cmdA c) (cmdU c 0 8) (memoryMap u (cmdA c)).flatten)) := by
  refine runCmd_ok h (check_passed (by simp [tail, addr, aligned]) ?_)
  by_cases none : memoryMap u (cmdA c) = []
  · simp [none]
  · obtain ⟨mine, writes⟩ := room.resolve_left none
    rw [writeFor_ok _ mine writes]
    simp [none]

theorem execMemCreditSet_ok (h : Runs 0x202 c s u) (tail : cmdTail c 8 = true) (zero : cmdZ c 5 3 = true) {vault : Bool}
    (pool : (cmdU c 1 1 == 1) = vault) (pools : cmdU c 1 1 < 2) (cls : cmdU c 2 1 < (if vault then 3 else 6))
    (notDecode : vault = true ∨ cmdU c 2 1 ≠ 0)
    (die : (u.partDies (u.acct (cmdA c)).quota.partition)[cmdU c 0 1]? = some d) (one : cmdU c 0 1 ≠ 0xFF)
    (low : (floorRange vault (cmdU c 2 1)).1 ≤ cmdU c 3 1) (high : cmdU c 3 1 ≤ (floorRange vault (cmdU c 2 1)).2)
    (some_ : 0 < cmdU c 4 1) (most : cmdU c 4 1 ≤ 100) (below : cmdU c 3 1 ≤ cmdU c 4 1)
    (right : u.hasPartRight (cmdA c) (u.acct (cmdA c)).quota.partition = true)
    (sum : ((u.credits vault d).change (cmdU c 2 1) (cmdU c 3 1) (cmdU c 4 1)).1.sum ≤ 100) :
    execMemCreditSet c s = .next (complete c 0x202 .ok [] (u.onCredits vault d fun x =>
      { x with staged := some (x.change (cmdU c 2 1) (cmdU c 3 1) (cmdU c 4 1)) })) := by
  obtain ⟨within, rfl⟩ := List.getElem?_eq_some_iff.1 die
  have named : (if cmdU c 0 1 == 0xFF then u.partDies (u.acct (cmdA c)).quota.partition
      else ((u.partDies (u.acct (cmdA c)).quota.partition).drop (cmdU c 0 1)).take 1) =
      [(u.partDies (u.acct (cmdA c)).quota.partition)[cmdU c 0 1]] := by
    rw [if_neg (by simpa using one), List.drop_eq_getElem_cons within, List.take_succ_cons, List.take_zero]
  refine runCmd_ok h ?_
  dsimp only
  rw [named, pool]
  refine check_passed ?_ (need_met right (check_passed ?_ (check_passed ?_ rfl)))
  · have oneDie : (cmdU c 0 1 != 0xFF && decide ((u.partDies (u.acct (cmdA c)).quota.partition).length ≤ cmdU c 0 1)) = false := by
      simp [within]
    simp only [tail, zero, oneDie, Bool.not_true, Bool.or_false, Bool.false_or, Bool.or_eq_false_iff, decide_eq_false_iff_not,
      beq_iff_eq]
    omega
  · simpa using sum
  · rcases notDecode with isVault | other
    · simp [isVault]
    · simp [other]

theorem execMemCreditQuery_ok (h : Runs 0x203 c s u) (tail : cmdTail c 8 = true) (zero : cmdZ c 2 6 = true) (pool : cmdU c 1 1 < 2)
    (die : (u.acctDies (cmdA c))[cmdU c 0 1]? = some d) :
    execMemCreditQuery c s = .next (complete c 0x203 .ok
      (padTo 6 ((u.credits (cmdU c 1 1 == 1) d).floors.flatMap (leBytes 1)) ++
        padTo 6 ((u.credits (cmdU c 1 1 == 1) d).caps.flatMap (leBytes 1))) u) := by
  refine runCmd_ok h (check_passed (by simp [tail, zero, pool]) ?_)
  rw [queryDie, die]

theorem execMemErrQuery_ok (h : Runs 0x204 c s u) (tail : cmdTail c 8 = true) (zero : cmdZ c 1 7 = true)
    (die : (u.acctDies (cmdA c))[cmdU c 0 1]? = some d) :
    execMemErrQuery c s = .next (complete c 0x204 .ok (errorRecord u d) u) := by
  refine runCmd_ok h (check_passed (by simp [tail, zero]) ?_)
  rw [queryDie, die]

end

/-- Settles O13: the four commands pass their checks one after another, and every grant of a period leaves the settings alone. -/
theorem memoryCommandsComplete : Obligations.MemoryCommandsComplete := by
  unfold Obligations.MemoryCommandsComplete
  refine ⟨?_, ?_, ?_, ?_, fun reqs s => ?_⟩
  · intro c s u runs tail addr aligned room
    exact execMemMapQuery_ok runs tail addr aligned room
  · intro c s u d runs tail zero vault pools cls notDecode die one low high some_ most below right sum
    exact execMemCreditSet_ok runs tail zero rfl pools cls notDecode die one low high some_ most below right sum
  · intro c s u d runs tail zero pools die
    exact execMemCreditQuery_ok runs tail zero pools die
  · intro c s u d runs tail zero die
    exact execMemErrQuery_ok runs tail zero die
  · obtain ⟨t, ran, mem, grants, cores, models, mail, pkgs, settings⟩ := execCreditPeriod_keeps reqs s
    refine ⟨t, ran, fun d _ v hbm vault => ?_, mem, grants, cores, models, mail, pkgs⟩
    have inForce := (settings v d).trans (credits_periodStart reqs hbm vault v)
    obtain ⟨both, staged⟩ := Prod.mk.inj inForce
    exact ⟨congrArg Prod.fst both, congrArg Prod.snd both, staged⟩

end Sys2Proof.Machine
end

section
/-!
PROOFS. The commands on ports and on the Beacon: each passes its checks, and a port that PORT_ENABLE darkens or lights leaves every
other port as it is.
-/
namespace Sys2Proof.Machine

/-! ## One port's darkness leaves every other port as it is (R376, R408) -/

theorem State.port_onPort_ne {p q : Nat} (h : q ≠ p) (f : Port → Port) (s : State) : (s.onPort p f).port q = s.port q := by
  rw [State.port_onPort, if_neg fun hit => h hit.1.symm]

theorem unroute_port_ne {p q : Nat} (h : q ≠ p) (s : State) : (unroute p s).port q = s.port q := by
  have again : ∀ s, (resendSegments p s).port q = s.port q := fun s => by
    unfold resendSegments
    split
    · rfl
    · exact State.port_onPort_ne h ..
  fun_cases unroute p s
  · rfl
  · exact again _

/-- A lit fabric port that is darkened shows the cause, and has left every route. -/
theorem darken_lit {p : Nat} (cause : Nat) {s : State} (fabric : p < 64) (hp : p < s.chip.ports.length) (lit : (s.port p).causes = []) :
    ((darken p cause s).port p).state = .dark ∧ ((darken p cause s).port p).cause = cause ∧
      (∀ r ∈ (darken p cause s).chip.fabric.routes, p ∉ r.2.ports) ∧ ∀ q, q ≠ p → (darken p cause s).port q = s.port q := by
  have dark : darken p cause s = unroute p (s.onPort p fun x =>
      { x with state := .dark, causes := [cause], lamA := 0, lamB := 0, override := false, offA := 0, offB := 0, darkNs := s.mtime }) := by
    simp [darken, lit, fabric]
  rw [dark]
  refine ⟨?_, ?_, unroute_routes (by omega) _, fun q other => ?_⟩
  · rw [unroute_port, State.port_onPort_same _ hp]
  · rw [unroute_port, State.port_onPort_same _ hp]
    rfl
  · rw [unroute_port_ne other, State.port_onPort_ne other]

/-- A port that other causes hold dark takes one more. -/
theorem darken_dark {p cause : Nat} {s : State} (held : (s.port p).causes ≠ []) (new : cause ∉ (s.port p).causes) :
    darken p cause s = s.onPort p fun x => { x with causes := x.causes ++ [cause] } := by
  have new : (s.port p).causes.contains cause = false := by simpa using new
  exact (if_neg (by rw [new]; exact Bool.false_ne_true)).trans (if_pos (by simpa using held))

/-- A port whose last cause of darkness ends seeks. -/
theorem relight_last {p cause : Nat} {s : State} (hp : p < s.chip.ports.length) (last : (s.port p).causes = [cause]) :
    ((relight p cause s).port p).state = .seeking ∧ ((relight p cause s).port p).causes = [] := by
  rw [relight, State.port_onPort_same _ hp]
  simp [last, Port.lit, Port.shine]

/-! ## The commands -/

section
variable {c : Cmd} {s u : State}

theorem execPortQuery_ok (h : Runs 0xB01 c s u) (tail : cmdTail c 16 = true) (zero : cmdZ c 1 7 = true) (known : cmdU c 0 1 < 69)
    (addr : addrOk (cmdU c 8 8) = true)
    (may : (if cmdU c 0 1 < 64 then mayPort c (cmdU c 0 1) u
      else if cmdU c 0 1 < 68 then portOf (cmdA c) == cmdU c 0 1 - 64 else mayBeacon c u) = true)
    (mine : u.inAccount (cmdA c) (cmdU c 8 8) 64 = true) (writes : u.writes (cmdU c 8 8) 64 = true) :
    execPortQuery c s = .next (complete c 0xB01 .ok [] (u.give (cmdA c) (cmdU c 8 8) (portRecord u (cmdU c 0 1)))) := by
  refine runCmd_ok h (check_passed ?_ (need_met may ?_))
  · rw [tail, zero, addr, decide_eq_false (Nat.not_le.2 known)]
    rfl
  · rw [writeFor_ok _ mine writes]
    rfl

/-- A port between new bounds, its launch power inside them where it is lit (R390). -/
def Port.bound (lo hi : BitVec 16) (x : Port) : Port :=
  let x := { x with lo := lo, hi := hi }
  if x.lamA == 0 && x.lamB == 0 then x else { x with tx := x.held x.tx }

theorem Port.bound_ends (lo hi : BitVec 16) (x : Port) : (x.bound lo hi).lo = lo ∧ (x.bound lo hi).hi = hi := by
  unfold Port.bound
  dsimp only
  split <;> exact ⟨rfl, rfl⟩

theorem Port.bound_inside {lo hi : BitVec 16} {x : Port} (order : lo.toInt ≤ hi.toInt) (lit : x.lamA ≠ 0) (free : x.override = false) :
    lo.toInt ≤ (x.bound lo hi).tx.toInt ∧ (x.bound lo hi).tx.toInt ≤ hi.toInt := by
  have lit : (x.lamA == 0 && x.lamB == 0) = false := by rw [beq_eq_false_iff_ne.2 lit]; rfl
  have inside := Port.held_inside (x := { x with lo := lo, hi := hi }) free x.tx order
  unfold Port.bound
  dsimp only
  rw [lit]
  exact inside

theorem execPortBoundsSet_ok (h : Runs 0xB02 c s u) (tail : cmdTail c 8 = true) (zero : cmdZ c 1 1 = true) (zero' : cmdZ c 6 2 = true)
    (known : cmdU c 0 1 < 68) {lo hi : BitVec 16} (hlo : BitVec.ofNat 16 (cmdU c 2 2) = lo) (hhi : BitVec.ofNat 16 (cmdU c 4 2) = hi)
    (low : boundOk lo = true) (high : boundOk hi = true) (order : lo.toInt ≤ hi.toInt) (may : mayPort c (cmdU c 0 1) u = true) :
    execPortBoundsSet c s = .next (complete c 0xB02 .ok [] (u.onPort (cmdU c 0 1) (Port.bound lo hi))) := by
  subst hlo hhi
  refine runCmd_ok h (check_passed ?_ (need_met may rfl))
  rw [tail, zero, zero', low, high, decide_eq_false (Nat.not_le.2 known), decide_eq_false (Int.not_lt.2 order)]
  rfl

/-- PORT_ENABLE reaches the port that it names. -/
theorem execPortEnable_ok {v : State} (h : Runs 0xB03 c s u) (tail : cmdTail c 8 = true) (zero : cmdZ c 2 6 = true)
    (fabric : cmdU c 0 1 < 64) (may : mayPort c (cmdU c 0 1) u = true) (known : cmdU c 1 1 < 2)
    (still : (cmdU c 1 1 == 0 && portMoving u (cmdU c 0 1)) = false)
    (goes : (if (cmdU c 1 1 == 0) = true then
      if (u.port (cmdU c 0 1)).causes.isEmpty then darkenAll [cmdU c 0 1] 2 u else tellLit u (darken (cmdU c 0 1) 2 u)
      else if (u.port (cmdU c 0 1)).causes == [2] then sendHealth (relight (cmdU c 0 1) 2 u)
        else tellLit u (relight (cmdU c 0 1) 2 u)) = v) :
    execPortEnable c s = .next (complete c 0xB03 .ok [] v) := by
  subst goes
  refine runCmd_ok h (check_passed ?_ (need_met may (check_passed still ?_)))
  · rw [tail, zero, decide_eq_false (Nat.not_le.2 fabric), decide_eq_false (Nat.not_le.2 known)]
    rfl
  · split <;> rfl

theorem execBeaconStatus_ok (h : Runs 0xB04 c s u) (tail : cmdTail c 16 = true) (zero : cmdZ c 4 4 = true) (range : addrRange c = true)
    (addr : addrOk (cmdU c 8 8) = true) (may : mayBeacon c u = true)
    (mine : u.inAccount (cmdA c) (cmdU c 8 8) (16 * cmdU c 2 2) = true) (writes : u.writes (cmdU c 8 8) (16 * cmdU c 2 2) = true) :
    execBeaconStatus c s = .next (complete c 0xB04 .ok (leBytes 2 (cmdU c 2 2))
      (u.give (cmdA c) (cmdU c 8 8) ((List.range (cmdU c 2 2)).flatMap fun i => entryBytes u (cmdU c 0 2 + i)))) := by
  refine runCmd_ok h (check_passed ?_ (need_met may ?_))
  · rw [tail, zero, range, addr]
    rfl
  · rw [writeFor_ok _ mine writes]

theorem execBeaconSend_ok (h : Runs 0xB05 c s u) (tail : cmdTail c 4 = true) (zero : cmdU c 0 2 / 2 ^ 13 % 4 = 0)
    (may : mayBeacon c u = true) (addr : u.chip.fabric.addr ≠ none)
    (kind : cmdU c 2 1 = 1 ∧ cmdU c 3 1 = 0 ∨ cmdU c 2 1 = 2 ∧ 1 ≤ cmdU c 3 1 ∧ cmdU c 3 1 ≤ 3) :
    execBeaconSend c s = .next (complete c 0xB05 .ok []
      (sendFrame (cmdU c 2 1 + 2) (cmdU c 0 2) (leBytes 1 (cmdU c 3 1)) u)) := by
  have addr : u.chip.fabric.addr.isNone = false := Option.isNone_eq_false_iff.2 (Option.isSome_iff_ne_none.2 addr)
  have zero : cmdU c 0 2 / 8192 % 4 = 0 := zero
  refine runCmd_ok h (check_passed ?_ (need_met may (check_passed addr rfl)))
  rcases kind with ⟨wake, none⟩ | ⟨sleep, low, high⟩
  · simp [tail, zero, wake, none]
  · simp [tail, zero, sleep, high, Nat.ne_of_gt low]

end

/-- Settles O52: each command passes its checks; PORT_ENABLE darkens a lit port behind its HEALTH frame, adds its cause to a dark one,
and lights a port that no other cause holds. -/
theorem portAndBeaconCommandsComplete : Obligations.PortAndBeaconCommandsComplete := by
  unfold Obligations.PortAndBeaconCommandsComplete
  refine ⟨?query, ?bounds, ?enable, ?status, ?send⟩
  case query =>
    intro c s u h tail zero known addr may mine writes
    exact execPortQuery_ok h tail zero known addr may mine writes
  case bounds =>
    intro c s u h tail zero zero' known lo hi low high order may hp
    refine ⟨_, execPortBoundsSet_ok h tail zero zero' known rfl rfl low high order may, ?_⟩
    rw [State.port_onPort_same _ hp]
    obtain ⟨atLo, atHi⟩ := Port.bound_ends lo hi (u.port (cmdU c 0 1))
    exact ⟨atLo, atHi, Port.bound_inside order, fun p other => State.port_onPort_ne other ..⟩
  case enable =>
    intro c s u h tail zero fabric may hp
    refine ⟨?dark, ?more, ?lit⟩
    case dark =>
      intro off still lit
      refine ⟨darkenAll [cmdU c 0 1] 2 u, execPortEnable_ok h tail zero fabric may (by omega) (by simp [still]) ?_, ?_⟩
      · rw [off, lit]
        rfl
      · have sent := sendHealth_onlyFrames (darken (cmdU c 0 1) 2 u)
        obtain ⟨dark, cause, routes, others⟩ := darken_lit 2 fabric hp lit
        refine ⟨?_, ?_, ?_, fun p other => ?_⟩
        · exact (congrArg Port.state (sent.samePorts.port _)).trans dark
        · exact (congrArg Port.cause (sent.samePorts.port _)).trans cause
        · rw [show (darkenAll [cmdU c 0 1] 2 u).chip.fabric = _ from sent.onlyLights.fabric]
          exact routes
        · exact (sent.samePorts.port p).trans (others p other)
    case more =>
      intro off still held new
      refine execPortEnable_ok h tail zero fabric may (by omega) (by simp [still]) ?_
      rw [darken_dark held new, off]
      simp [held]
    case lit =>
      intro on last
      refine ⟨sendHealth (relight (cmdU c 0 1) 2 u), execPortEnable_ok h tail zero fabric may (by omega) (by simp [on]) ?_, ?_⟩
      · rw [on, last]
        rfl
      · rw [(sendHealth_onlyFrames _).samePorts.port]
        exact relight_last hp last
  case status =>
    intro c s u h tail zero range addr may mine writes
    exact execBeaconStatus_ok h tail zero range addr may mine writes
  case send =>
    intro c s u h tail zero may addr kind
    exact execBeaconSend_ok h tail zero may addr kind

end Sys2Proof.Machine
end

section
/-!
PROOFS. What notifications and completions leave of the mailboxes: the commands that wait, are held or are taken, and the pauses.
-/
namespace Sys2Proof.Machine

/-- Two states whose mailboxes hold the same commands: as many functions, with the same pauses and the same commands taken, and the
same commands that wait or are held. -/
structure SameQueues (s t : State) : Prop where
  waiting : t.mail.waiting = s.mail.waiting
  heldWake : t.mail.heldWake = s.mail.heldWake
  length : t.mail.funcs.length = s.mail.funcs.length
  taken : ∀ fn, (t.func fn).taken = (s.func fn).taken
  paused : ∀ fn, (t.func fn).paused = (s.func fn).paused

theorem SameQueues.of_mail {s t : State} (h : t.mail = s.mail) : SameQueues s t := by
  have func : ∀ fn, t.func fn = s.func fn := fun fn => by rw [State.func, h, State.func]
  exact ⟨by rw [h], by rw [h], by rw [h], fun fn => by rw [func], fun fn => by rw [func]⟩

theorem SameQueues.refl (s : State) : SameQueues s s := .of_mail rfl

theorem SameQueues.trans {s t u : State} (h : SameQueues s t) (g : SameQueues t u) : SameQueues s u :=
  ⟨g.waiting.trans h.waiting, g.heldWake.trans h.heldWake, g.length.trans h.length, fun fn => (g.taken fn).trans (h.taken fn),
    fun fn => (g.paused fn).trans (h.paused fn)⟩

theorem SameQueues.foldl {α : Type} {f : State → α → State} (h : ∀ s x, SameQueues s (f s x)) (l : List α) (s : State) :
    SameQueues s (l.foldl f s) := List.foldlRecOn l f (.refl s) fun _ hs x _ => hs.trans (h _ x)

/-- A change of a mailbox that keeps its pause and the commands taken. -/
theorem onFunc_sameQueues (i : Nat) (f : Func → Func) (s : State)
    (hf : ∀ x, (f x).taken = x.taken ∧ (f x).paused = x.paused := by exact fun _ => ⟨rfl, rfl⟩) : SameQueues s (s.onFunc i f) := by
  have each : ∀ fn, ((s.onFunc i f).func fn).taken = (s.func fn).taken ∧ ((s.onFunc i f).func fn).paused = (s.func fn).paused :=
    fun fn => by
      rw [State.func_onFunc]
      split
      · exact hf _
      · exact ⟨rfl, rfl⟩
  exact ⟨rfl, rfl, length_lmod .., fun fn => (each fn).1, fun fn => (each fn).2⟩

theorem raiseVec_sameQueues (fn vec : Nat) (s : State) : SameQueues s (raiseVec fn vec s) := by
  unfold raiseVec
  dsimp only
  split <;> exact ⟨rfl, rfl, rfl, fun _ => rfl, fun _ => rfl⟩

theorem raiseNtf_sameQueues (fn : Nat) (s : State) : SameQueues s (raiseNtf fn s) := by
  fun_cases raiseNtf fn s
  · exact (onFunc_sameQueues ..).trans (raiseVec_sameQueues ..)
  · exact onFunc_sameQueues ..

theorem post_sameQueues (fn kind : Nat) (st : Status) (args : Bytes) (s : State) : SameQueues s (post fn kind st args s) := by
  fun_cases post fn kind st args s
  · exact .refl s
  · exact onFunc_sameQueues ..
  all_goals exact (onFunc_sameQueues ..).trans (raiseNtf_sameQueues ..)

theorem postAll_sameQueues (fns : List Nat) (kind : Nat) (st : Status) (args : Bytes) (s : State) :
    SameQueues s (postAll fns kind st args s) := .foldl (fun _ _ => post_sameQueues ..) _ _

theorem writeResp_sameQueues (c : Cmd) (r : Resp) (s : State) : SameQueues s (writeResp c r s) :=
  (onFunc_sameQueues ..).trans (raiseVec_sameQueues ..)

theorem complete_sameQueues (c : Cmd) (op : Nat) (st : Status) (payload : Bytes) (s : State) :
    SameQueues s (complete c op st payload s) := by
  have told : ∀ r s, SameQueues s (tellDone c r s) := fun r s => by
    unfold tellDone
    split
    · exact post_sameQueues ..
    · exact .refl s
  refine SameQueues.trans ?_ (told ..)
  split
  · exact onFunc_sameQueues ..
  · exact writeResp_sameQueues ..

/-- What completes waits no more, and the rest waits on. -/
theorem finishWait_waiting (key : WaitKey) (st : Status) (payload : Bytes) (s : State) :
    (finishWait key st payload s).mail.waiting = s.mail.waiting.filter fun w => w.key != key :=
  (SameQueues.foldl (fun _ _ => complete_sameQueues ..) _ _).waiting

/-- No command waits any more for what has been answered. -/
theorem finishWait_none {key : WaitKey} {st : Status} {payload : Bytes} {s : State} :
    ∀ w ∈ (finishWait key st payload s).mail.waiting, w.key ≠ key := by
  rw [finishWait_waiting]
  exact fun w hw => by simpa using (List.mem_filter.1 hw).2

end Sys2Proof.Machine
end

section
/-!
PROOFS. Frames of the Beacon: a frame of another module acts by its type and goes on or stays, and the events of the status table
and of a round.
-/
namespace Sys2Proof.Machine

/-- A little-endian number is below the power of 256 of its length. -/
theorem leNat_lt (bs : Bytes) : leNat bs < 256 ^ bs.length := by
  induction bs with
  | nil => exact Nat.one_pos
  | cons b bs ih =>
    have := b.isLt
    rw [leNat, List.length_cons, Nat.pow_succ]
    omega

theorem fieldAt_lt (bs : Bytes) (off n : Nat) : fieldAt bs off n < 256 ^ n :=
  (leNat_lt _).trans_le (Nat.pow_le_pow_right (by decide) (List.length_take_le ..))

/-! ## What a frame does (R393) -/

theorem dropFrame_dropped (s : State) : (dropFrame s).chip.beacon.dropped = s.chip.beacon.dropped + 1 := rfl

/-- What the frame of another module does here, and the frame as it goes on. -/
def frameActs (b : Bytes) (s : State) : Bytes × State :=
  if fieldAt b 0 1 == 1 then actEnum b s
  else if fieldAt b 0 1 == 2 then (b, actHealth b s)
  else if frameForUs s b && fieldAt b 0 1 == 3 then (b, wakeUp s)
  else if frameForUs s b && fieldAt b 0 1 == 4 then (b, actSleep b s)
  else (b, s)

section
variable {frame : BitVec 512} {b : Bytes} {s : State}

theorem beaconFrame_drops (present : s.chip.power.inputPresent = true)
    (bad : frameCrcOk (leBytes 64 frame.toNat) = false ∨ frameFieldsOk (leBytes 64 frame.toNat) = false) :
    beaconFrame frame s = dropFrame s := by
  unfold beaconFrame
  rw [present]
  rcases bad with bad | bad <;> simp [bad]

/-- Sending a frame on changes what has left the part, and nothing else. -/
theorem forwardFrame_out (b : Bytes) (s : State) : ∃ out, forwardFrame b s = { s with out := out } := by
  unfold forwardFrame
  dsimp only
  split <;> exact ⟨_, rfl⟩

/-- The frame of another module does what it does, whether or not it goes on. -/
theorem beaconFrame_acts (hb : leBytes 64 frame.toNat = b) (present : s.chip.power.inputPresent = true) (crc : frameCrcOk b = true)
    (fields : frameFieldsOk b = true) (other : s.chip.fabric.addr ≠ some (fieldAt b 4 2)) :
    ∃ out, beaconFrame frame s = { (frameActs b s).2 with out := out } := by
  have other : frameIsOurs s b = false := by simpa [frameIsOurs] using other
  subst hb
  unfold beaconFrame
  simp only [present, crc, fields, other, Bool.not_true, Bool.or_self, Bool.false_eq_true, if_false]
  split
  · exact ⟨_, rfl⟩
  · exact forwardFrame_out ..

/-- A WAKE frame of this module that comes round and is for it too wakes it. -/
theorem beaconFrame_ownWake (hb : leBytes 64 frame.toNat = b) (present : s.chip.power.inputPresent = true) (crc : frameCrcOk b = true)
    (fields : frameFieldsOk b = true) (ours : s.chip.fabric.addr = some (fieldAt b 4 2))
    (sent : sentRecently s (fieldAt b 8 4) = true) (type : fieldAt b 0 1 = 3) (us : frameForUs s b = true) :
    beaconFrame frame s = wakeUp s := by
  have ours : frameIsOurs s b = true := by simpa [frameIsOurs] using ours
  subst hb
  simp [beaconFrame, present, crc, fields, ours, ownFrame, sent, type, us]

/-! ## By type (R395, R396, R400) -/

theorem frameActs_enum (type : fieldAt b 0 1 = 1) : frameActs b s = actEnum b s := by simp [frameActs, type]

theorem frameActs_health (type : fieldAt b 0 1 = 2) : frameActs b s = (b, actHealth b s) := by simp [frameActs, type]

theorem frameActs_wake (type : fieldAt b 0 1 = 3) (us : frameForUs s b = true) : frameActs b s = (b, wakeUp s) := by
  simp [frameActs, type, us]

theorem frameActs_sleep (type : fieldAt b 0 1 = 4) (us : frameForUs s b = true) : frameActs b s = (b, actSleep b s) := by
  simp [frameActs, type, us]

/-- A module without an address takes the next one. -/
theorem actEnum_takes (none : s.chip.fabric.addr = none) (room : fieldAt b 0xC 2 < 8191) :
    (actEnum b s).2.chip.fabric.addr = some (fieldAt b 0xC 2 + 1) ∧
      (actEnum b s).2.chip.fabric.lastRound.toNat = fieldAt b 0x10 4 ∧ (actEnum b s).2.mem = s.mem := by
  have room : (fieldAt b 0xC 2 == 8191) = false := beq_eq_false_iff_ne.2 (Nat.ne_of_lt room)
  have round : (BitVec.ofNat 32 (fieldAt b 0x10 4)).toNat = fieldAt b 0x10 4 := Nat.mod_eq_of_lt (fieldAt_lt b 0x10 4)
  unfold actEnum
  dsimp only
  rw [State.onFabric_fabric, none, room]
  exact ⟨rfl, round, rfl⟩

/-- A module with an address keeps it. -/
theorem actEnum_keeps {a : Nat} (addr : s.chip.fabric.addr = some a) :
    (actEnum b s).2.chip.fabric.addr = some a ∧ (actEnum b s).2.mem = s.mem := by
  unfold actEnum
  dsimp only
  rw [State.onFabric_fabric, addr]
  exact ⟨addr, rfl⟩

/-- Where no account holds the module's right, a SLEEP frame is counted. -/
theorem actSleep_counts (unheld : s.ten.modRight = none) :
    (actSleep b s).chip.beacon.sleepIgnored = s.chip.beacon.sleepIgnored + 1 ∧ (actSleep b s).chip.power = s.chip.power := by
  unfold actSleep
  rw [unheld]
  exact ⟨rfl, rfl⟩

/-- Where its right allows it and nothing is under way, a SLEEP frame is obeyed. -/
theorem actSleep_enters {a : Nat} (held : s.ten.modRight = some a) (remote : (s.acct a).remoteSleep = true)
    (enabled : (s.acct a).state = .enabled) (deep : 1 ≤ fieldAt b 0xC 1) (known : fieldAt b 0xC 1 ≤ 3)
    (stays : s.chip.power.exiting = false) (idle : s.engaged = false) (awake : s.chip.power.pstate = 0)
    (rests : s.chip.power.target = none) : actSleep b s = enterPower (fieldAt b 0xC 1) s := by
  have deep' : fieldAt b 0xC 1 ≠ 0 := Nat.ne_of_gt deep
  have known : ¬ 3 < fieldAt b 0xC 1 := Nat.not_lt.2 known
  simp [actSleep, held, remote, enabled, deep', deep'.symm, known, stays, idle, awake, rests]

end

/-- Settles O54: a frame of another module acts by its type, and what goes on changes nothing here; the status table changes entry by
entry, and what is told of a break or a round leaves the Beacon and the fabric as they are. -/
theorem beaconFramesTakeEffect : Obligations.BeaconFramesTakeEffect := by
  unfold Obligations.BeaconFramesTakeEffect
  refine ⟨?frames, fun s => rfl, ?age, fun s => ⟨?dark, ?light, ?timeout⟩⟩
  case frames =>
    intro frame s present b
    refine ⟨fun bad => ⟨congrArg Host.Outcome.next (beaconFrame_drops present bad), dropFrame_dropped s⟩, ?other, ?own⟩
    case other =>
      intro crc fields other
      obtain ⟨out, acts⟩ := beaconFrame_acts (frame := frame) rfl present crc fields other
      refine ⟨?takes, ?keeps, ?health, ?wake, ?ignored, ?sleep⟩
      case takes =>
        intro type none room
        refine ⟨_, rfl, ?_⟩
        rw [acts, frameActs_enum type]
        exact actEnum_takes none room
      case keeps =>
        intro a type addr
        refine ⟨_, rfl, ?_⟩
        rw [acts, frameActs_enum type]
        exact actEnum_keeps addr
      case health =>
        intro type
        refine ⟨_, rfl, ?_⟩
        rw [acts, frameActs_health type]
        exact ⟨tget_tset_same .., rfl⟩
      case wake =>
        intro type us
        refine ⟨_, rfl, ?_⟩
        rw [acts, frameActs_wake type us]
      case ignored =>
        intro type us unheld
        refine ⟨_, rfl, ?_⟩
        rw [acts, frameActs_sleep type us]
        exact actSleep_counts unheld
      case sleep =>
        intro a type us held remote enabled deep known stays idle awake rests
        refine ⟨_, rfl, ?_⟩
        rw [acts, frameActs_sleep type us]
        exact congrArg (·.chip.power) (actSleep_enters held remote enabled deep known stays idle awake rests)
    case own =>
      intro crc fields ours sent type us
      exact congrArg Host.Outcome.next (beaconFrame_ownWake rfl present crc fields ours sent type us)
  case age =>
    intro addr s e he
    have aged : ∀ j, tget (s.chip.beacon.table.map fun x => if x.1 == addr.toNat then (x.1, { x.2 with known := false }) else x) j =
        if addr.toNat = j then (tget s.chip.beacon.table j).map fun e => { e with known := false } else tget s.chip.beacon.table j :=
      fun j => tget_map s.chip.beacon.table addr.toNat j fun e => { e with known := false }
    refine ⟨_, rfl, ?_, fun j other => ?_⟩
    · exact (aged _).trans (by rw [if_pos rfl, he]; rfl)
    · exact (aged j).trans (if_neg (Ne.symm other))
  case dark =>
    intro lit
    refine ⟨_, check_passed lit rfl, ?_⟩
    rw [(postAll_onlyMail ..).chip]
    refine ⟨rfl, fun x hx => ?_⟩
    obtain ⟨y, -, rfl⟩ := List.mem_map.1 hx
    rfl
  case light =>
    intro broken
    refine ⟨_, need_met broken rfl, ?_⟩
    rw [(postAll_onlyMail ..).chip]
    exact ⟨rfl, rfl⟩
  case timeout =>
    intro x hx
    refine ⟨_, check_passed (by rw [hx]; rfl) rfl, ?_⟩
    rw [(finishWait_onlyMail ..).chip]
    exact ⟨rfl, rfl, finishWait_none⟩

end Sys2Proof.Machine
end

section
/-!
PROOFS. Power states, dividers and protections: what notices and lights leave of the power state, how each operation on dividers and
overrides changes it, and one equation for each event.
-/
namespace Sys2Proof.Machine

/-! ## What notices and lights leave alone -/

/-- Two states with the same power state and the same commands in their mailboxes. -/
structure SamePower (s t : State) : Prop where
  power : t.chip.power = s.chip.power
  queues : SameQueues s t

theorem SamePower.refl (s : State) : SamePower s s := ⟨rfl, .refl s⟩

theorem SamePower.trans {s t u : State} (h : SamePower s t) (g : SamePower t u) : SamePower s u :=
  ⟨g.power.trans h.power, h.queues.trans g.queues⟩

theorem SamePower.foldl {α : Type} {f : State → α → State} (h : ∀ s x, SamePower s (f s x)) (l : List α) (s : State) :
    SamePower s (l.foldl f s) := List.foldlRecOn l f (.refl s) fun _ hs x _ => hs.trans (h _ x)

theorem OnlyFrames.samePower {s t : State} (h : OnlyFrames s t) : SamePower s t := by
  obtain ⟨_, _, rfl⟩ := h
  exact ⟨rfl, .of_mail rfl⟩

theorem protectNotice_samePower (cause phase : Nat) (s : State) : SamePower s (protectNotice cause phase s) :=
  ⟨congrArg Chip.power (protectNotice_onlyMail ..).chip, postAll_sameQueues ..⟩

theorem onPower_sameQueues (f : Power → Power) (s : State) : SameQueues s (s.onPower f) := .of_mail rfl

theorem relightAll_samePower (cause : Nat) (s : State) : SamePower s (relightAll cause s) := by
  have each : ∀ s p, SamePower s (relight p cause s) := fun s p => ⟨rfl, .of_mail rfl⟩
  unfold relightAll
  generalize List.range 68 = ps
  exact .foldl each ps s

/-! ## Protections that end (R525) -/

/-- A power state but for the time that protections have taken and those whose dies are still to return. -/
def Power.settledAs (leaving : List (Nat × List Nat)) (ns : DWord) (since : Option DWord) (p : Power) : Power :=
  { p with override := { p.override with leaving := leaving }, ovrNs := ns, ovrSince := since }

theorem Power.stopClock_settles (now : DWord) (p : Power) : ∃ ns since, p.stopClock now = p.settledAs p.override.leaving ns since := by
  unfold Power.stopClock
  split
  · exact ⟨_, _, rfl⟩
  · split <;> exact ⟨_, _, rfl⟩

/-- Protections that have ended change what they have taken and what is still to return, and post notices. -/
theorem settleOverride_settles (s : State) : SameQueues s (settleOverride s) ∧
    ∃ leaving ns since, (settleOverride s).chip.power = s.chip.power.settledAs leaving ns since := by
  unfold settleOverride
  dsimp only
  split
  · exact ⟨.refl s, _, _, _, rfl⟩
  · generalize hr : (s.chip.power.override.leaving.filter fun x => !x.2.all s.chip.power.settled) = rest
    obtain ⟨ns, since, stopped⟩ := Power.stopClock_settles s.mtime
      { s.chip.power with override := { s.chip.power.override with leaving := rest } }
    have told := SamePower.foldl (fun s (x : Nat × List Nat) => protectNotice_samePower x.1 1 s)
      (s.chip.power.override.leaving.filter fun x => x.2.all s.chip.power.settled)
      (s.onPower fun p => Power.stopClock s.mtime { p with override := { p.override with leaving := rest } })
    have sent := told.trans (sendHealth_onlyFrames _).samePower
    exact ⟨(onPower_sameQueues ..).trans sent.queues, rest, ns, since, sent.power.trans stopped⟩

/-- What a protection that comes into force leaves of the power state. -/
theorem enterOverride_power (cause : Nat) (dies : List Nat) (f : Override → Override) (s : State) :
    (enterOverride cause dies f s).chip.power = { s.chip.power with
      override := { f s.chip.power.override with leaving := s.chip.power.override.leaving.filter (· != (cause, dies)) },
      ovrSince := some (s.chip.power.ovrSince.getD s.mtime) } := by
  unfold enterOverride
  dsimp only
  split
  · rfl
  · exact ((protectNotice_samePower ..).trans (sendHealth_onlyFrames _).samePower).power

/-! ## Wakes, entries and exits (R512 to R515) -/

theorem wakeUp_exits {s : State} (low : s.chip.power.pstate ≠ 0) (rests : s.chip.power.target = none) :
    wakeUp s = s.onPower fun p => { p with exiting := true, target := some 0 } := by
  simp [wakeUp, low, rests]

theorem wakeUp_latches {s : State} {x : Nat} (target : s.chip.power.target = some x) (enters : s.chip.power.exiting = false) :
    wakeUp s = s.onPower fun p => { p with wakeLatch := true } := by
  simp [wakeUp, target, enters]

/-- Commands that are taken again join those taken, function by function. -/
theorem takenAgain (held : List Taken) (s : State) :
    let t := held.foldl (fun s x => s.onFunc (cmdA x.cmd) fun f => { f with taken := f.taken ++ [x] }) s
    t.chip = s.chip ∧ t.mail.heldWake = s.mail.heldWake ∧ (∀ fn, ∀ x ∈ (s.func fn).taken, x ∈ (t.func fn).taken) ∧
      ∀ x ∈ held, cmdA x.cmd < s.mail.funcs.length → x ∈ (t.func (cmdA x.cmd)).taken := by
  induction held generalizing s with
  | nil => exact ⟨rfl, rfl, fun _ _ h => h, fun _ h => absurd h List.not_mem_nil⟩
  | cons y held ih =>
    obtain ⟨chip, heldWake, old, new⟩ := ih (s.onFunc (cmdA y.cmd) fun f => { f with taken := f.taken ++ [y] })
    refine ⟨chip, heldWake, fun fn x hx => old fn x ?_, fun x hx hfn => ?_⟩
    · rw [State.func_onFunc]
      split
      · exact List.mem_append_left _ hx
      · exact hx
    · rcases List.mem_cons.1 hx with rfl | hx
      · refine old _ x ?_
        rw [State.func_onFunc, if_pos ⟨rfl, hfn⟩]
        exact List.mem_append_right _ (List.mem_singleton_self x)
      · exact new x hx ((length_lmod ..).symm ▸ hfn)

/-- The state in which P0 is reached, with the staged bounds in force. -/
def awake (s : State) : State :=
  let u := s.onPower fun p => { p with pstate := 0, target := none, exiting := false, wakeLatch := false }
  match s.chip.power.staged with
  | some b => applyBounds b u
  | none => u

theorem awake_reached (s : State) : (awake s).chip.power.pstate = 0 ∧ (awake s).chip.power.target = none ∧
    (awake s).chip.power.exiting = false ∧ (awake s).chip.power.staged = none ∧ SameQueues s (awake s) := by
  unfold awake
  dsimp only
  split
  · next b _ =>
    unfold applyBounds
    generalize hw : State.onPower _ _ = w
    have same : SameQueues s w := hw ▸ .of_mail rfl
    obtain ⟨queues, leaving, ns, since, power⟩ := settleOverride_settles w
    rw [power]
    subst hw
    exact ⟨rfl, rfl, rfl, rfl, same.trans queues⟩
  · next none => exact ⟨rfl, rfl, rfl, none, .of_mail rfl⟩

/-- POWER_EXIT_DONE of an exit that runs: P0 is reached, the optics are lit, and what was held is taken again. -/
theorem execPowerExitDone_exits {s : State} (exits : s.chip.power.exiting = true) :
    execPowerExitDone s = .next (resumeHeld (sendHealth (relightAll 1 (awake s)))) := need_met exits rfl

/-- POWER_ENTRY_DONE of an entry that no wake has met: the state is reached, and the commands that wait for it complete. -/
theorem execPowerEntryDone_enters {s : State} {x : Nat} (target : s.chip.power.target = some x) (enters : s.chip.power.exiting = false)
    (calm : s.chip.power.wakeLatch = false) : ∃ v, execPowerEntryDone s = .next (finishWait .power .ok (leBytes 1 x) v) ∧
      v.chip.power.pstate = x ∧ v.chip.power.target = none := by
  have lights : ∀ (c : Prop) [Decidable c] (w : State), SamePower w (if c then sendHealth (relightAll 1 w) else w) := fun c _ w => by
    split
    · exact (relightAll_samePower 1 w).trans (sendHealth_onlyFrames _).samePower
    · exact .refl w
  simp only [execPowerEntryDone, target, enters, calm, Bool.false_eq_true, if_false]
  refine ⟨_, rfl, ?_⟩
  rw [(lights _ _).power]
  exact ⟨rfl, rfl⟩

/-! ## Dividers (R509, R523) -/

theorem getElem?_lmod {α : Type} (l : List α) (i j : Nat) (f : α → α) :
    (lmod l i f)[j]? = if i = j then l[j]?.map f else l[j]? := by
  rw [lmod, List.getElem?_modify]
  split <;> simp

/-- The dividers of `div'` are those of `div`, die by die, or slower. -/
def Slowed (div div' : List Nat) : Prop :=
  div'.length = div.length ∧ ∀ d x : Nat, div[d]? = some x → x ∈ [4, 5, 6, 8] → ∃ y ∈ [4, 5, 6, 8], div'[d]? = some y ∧ x ≤ y

theorem Slowed.refl (div : List Nat) : Slowed div div := ⟨rfl, fun _ x hx known => ⟨x, known, hx, le_rfl⟩⟩

theorem Slowed.trans {a b c : List Nat} (h : Slowed a b) (g : Slowed b c) : Slowed a c := by
  refine ⟨g.1.trans h.1, fun d x hx known => ?_⟩
  obtain ⟨y, known, hy, le⟩ := h.2 d x hx known
  obtain ⟨z, known, hz, le'⟩ := g.2 d y hy known
  exact ⟨z, known, hz, le.trans le'⟩

theorem slower_slows : ∀ x ∈ [4, 5, 6, 8], slower x ∈ [4, 5, 6, 8] ∧ x ≤ slower x := by decide

theorem lmod_slower_slowed (div : List Nat) (k : Nat) : Slowed div (lmod div k slower) := by
  refine ⟨length_lmod .., fun d x hx known => ?_⟩
  rw [getElem?_lmod, hx]
  split
  · exact ⟨slower x, (slower_slows x known).1, rfl, (slower_slows x known).2⟩
  · exact ⟨x, known, rfl, le_rfl⟩

/-- The procedure of R523 makes no die faster. -/
theorem slowDies_slowed (s : State) (may : Nat → Bool) (extra n : Nat) (div : List Nat) : Slowed div (slowDies s may extra n div) := by
  induction n generalizing div with
  | zero => exact .refl div
  | succ n ih =>
    unfold slowDies
    split
    · exact .refl div
    · split
      · exact .refl div
      · next d _ => exact (lmod_slower_slowed div d).trans (ih _)

theorem Power.slowDown_slowed (s : State) (extra : Nat) (p : Power) : Slowed p.div (p.slowDown s extra).div := slowDies_slowed ..

section
variable {arrays vectors : List Nat} {w : Nat} {s : State} (on : s.off = false)
include on

/-- Outside P0 an evaluation only measures. -/
theorem execGovernorEval_low (low : s.chip.power.pstate ≠ 0) :
    execGovernorEval arrays vectors w s = .next (s.onPower (Power.measure arrays vectors w)) := by
  refine check_passed on (if_pos ?_)
  exact bne_iff_ne.2 low

/-- In P0, above the envelope, an evaluation slows dies. -/
theorem execGovernorEval_high (awake : s.chip.power.pstate = 0) (high : s.chip.power.bounds.envelope < w) :
    let u := s.onPower (Power.measure arrays vectors w)
    ∃ extra, execGovernorEval arrays vectors w s = .next (u.onPower fun p => (p.slowDown u extra).choose u extra) := by
  intro u
  let extra := w * 100000000 - inputEstimate u.chip.power u.chip.power.div
  refine ⟨extra, check_passed on (check_passed (bne_eq_false_iff_eq.2 awake) ?_)⟩
  refine congrArg Host.Outcome.next (congrArg u.onPower (funext fun p => congrArg (Power.choose u extra) (if_pos ?_)))
  exact Bool.or_eq_true_iff.2 (.inr (decide_eq_true high))

end

/-- DIVIDER_STEP of a die that is to rise moves it one step; protections may end with it. -/
theorem execDividerStep_steps {die : BitVec 3} {s : State} {to_ : Nat} (on : s.off = false)
    (rises : tget s.chip.power.rising die.toNat = some to_) :
    ∃ t, execDividerStep die s = .next t ∧
      t.chip.power.div = lmod s.chip.power.div die.toNat (fun _ => faster (s.chip.power.div.getD die.toNat 4)) ∧
      (faster (s.chip.power.div.getD die.toNat 4) ≤ to_ → tget t.chip.power.rising die.toNat = none) := by
  simp only [execDividerStep, rises, on, Bool.false_eq_true, if_false]
  refine ⟨_, rfl, ?_⟩
  generalize hw : State.onPower _ _ = v
  obtain ⟨-, leaving, ns, since, power⟩ := settleOverride_settles v
  rw [power]
  subst hw
  refine ⟨rfl, fun reached => ?_⟩
  have there : decide (faster (s.chip.power.div.getD die.toNat 4) ≤ to_) = true := decide_eq_true reached
  simp only [Power.settledAs, State.onPower_power, there, if_true, tget_terase_same]

/-! ## Overrides (R525) -/

theorem mem_addOnce {α : Type} [BEq α] [LawfulBEq α] (l : List α) (x : α) : x ∈ addOnce l x := by
  unfold addOnce
  split
  · next held => exact List.contains_iff_mem.1 held
  · exact List.mem_append_right _ (List.mem_singleton_self x)

theorem slowest_div (d j : Nat) (s : State) :
    (slowest d s).chip.power.div[j]? = if d = j then s.chip.power.div[j]?.map fun _ => 8 else s.chip.power.div[j]? :=
  getElem?_lmod ..

/-- A die that no protection holds goes to divider 8 when a sensor of it reaches its limit. -/
theorem dieHot_first {d : Nat} (n : Nat) {s : State} (free : ∀ x ∈ s.chip.power.override.dies, x.1 ≠ d) :
    dieHot d n s = slowest d (enterOverride 1 [d] (fun o => { o with dies := addOnce o.dies (d, n) }) s) := by
  have new : s.chip.power.override.dies.contains (d, n) = false := by
    rw [List.contains_eq_mem, decide_eq_false_iff_not]
    exact fun held => free _ held rfl
  have none : (s.chip.power.override.dies.any fun x => x.1 == d) = false := by simpa using free
  exact check_passed new (check_passed none rfl)

/-- A sensor that has already sent its die to divider 8 halts it there. -/
theorem dieHot_again {d n : Nat} {s : State} (held : (d, n) ∈ s.chip.power.override.dies) : dieHot d n s = s.onPower fun p =>
    { p with override := { s.chip.power.override with halted := addOnce s.chip.power.override.halted (d, n) } } :=
  if_pos (List.contains_iff_mem.2 held)

/-- Dies that go to divider 8, one after another, are there. -/
theorem slowest_all (ds : List Nat) (s : State) :
    let t := ds.foldl (fun s d => slowest d s) s
    t.chip.power.override = s.chip.power.override ∧ t.chip.power.ovrSince = s.chip.power.ovrSince ∧
      t.chip.power.div.length = s.chip.power.div.length ∧
      ∀ j y : Nat, t.chip.power.div[j]? = some y → j ∈ ds ∨ s.chip.power.div[j]? = some 8 → y = 8 := by
  induction ds generalizing s with
  | nil =>
    refine ⟨rfl, rfl, rfl, fun j y hy slow => ?_⟩
    rcases slow with none | slow
    · exact absurd none List.not_mem_nil
    · exact Option.some.inj (hy.symm.trans slow)
  | cons d ds ih =>
    obtain ⟨override, since, length, slow⟩ := ih (slowest d s)
    refine ⟨override, since, length.trans (length_lmod ..), fun j y hy goes => slow j y hy ?_⟩
    have within : j < s.chip.power.div.length := by
      rw [← length.trans (length_lmod ..)]
      exact (List.getElem?_eq_some_iff.1 hy).1
    by_cases hd : d = j
    · exact .inr (by rw [slowest_div, if_pos hd, List.getElem?_eq_getElem within]; rfl)
    · rw [slowest_div, if_neg hd]
      exact goes.imp_left fun goes => (List.mem_cons.1 goes).resolve_left (Ne.symm hd)

theorem currentHigh_power {s : State} (free : s.chip.power.override.current = false) (dies : s.chip.power.div.length = 8) :
    (currentHigh s).chip.power.override.current = true ∧ (currentHigh s).chip.power.ovrSince ≠ none ∧
      ∀ d ∈ (currentHigh s).chip.power.div, d = 8 := by
  have goes : currentHigh s = (List.range 8).foldl (fun s d => slowest d s)
      (enterOverride 2 (List.range 8) (fun o => { o with current := true }) s) := if_neg (by rw [free]; exact Bool.false_ne_true)
  rw [goes]
  have entered := enterOverride_power 2 (List.range 8) (fun o => { o with current := true }) s
  obtain ⟨override, since, length, slow⟩ :=
    slowest_all (List.range 8) (enterOverride 2 (List.range 8) (fun o => { o with current := true }) s)
  rw [override, since]
  rw [entered] at length ⊢
  refine ⟨rfl, Option.some_ne_none _, fun d hd => ?_⟩
  obtain ⟨j, hj⟩ := List.mem_iff_getElem?.1 hd
  refine slow j d hj (.inl (List.mem_range.2 ?_))
  rw [← dies, ← length]
  exact (List.getElem?_eq_some_iff.1 hj).1

/-- A current override that clears leaves the dividers as they are until they rise. -/
theorem execOverrideClear_current {s : State} (on : s.off = false) (held : s.chip.power.override.current = true) :
    ∃ t, execOverrideClear .current s = .next t ∧ t.chip.power.override.current = false ∧
      t.chip.power.override.dies = s.chip.power.override.dies ∧ t.chip.power.div = s.chip.power.div := by
  refine ⟨leaveOverride 2 (List.range 8) (fun o => { o with current := false }) s, ?_, ?_⟩
  · exact congrArg Host.Outcome.next (need_met held (if_neg (by simp [on])))
  · unfold leaveOverride
    generalize hw : State.onPower _ _ = w
    obtain ⟨-, leaving, ns, since, power⟩ := settleOverride_settles w
    rw [power]
    subst hw
    exact ⟨rfl, rfl, rfl⟩

/-- Settles O50: each event goes as its equation above says; notices, lights and protections that end leave the rest of the power
state as the event left it. -/
theorem powerEventsTakeEffect : Obligations.PowerEventsTakeEffect := by
  unfold Obligations.PowerEventsTakeEffect
  refine ⟨fun s => ⟨?wake, ?latch, ?light, ?entry, ?exit⟩, fun arrays vectors w s on => ⟨?low, ?high⟩, ?step,
    fun i n s on hi => ⟨?first, ?again⟩, ?current, ?clear, ?droop⟩
  case wake =>
    intro low rests
    exact ⟨_, congrArg Host.Outcome.next (wakeUp_exits low rests), rfl, rfl, rfl⟩
  case latch =>
    intro x target enters
    exact ⟨_, congrArg Host.Outcome.next (wakeUp_latches target enters), rfl⟩
  case light =>
    intro port deep rests dark lit
    have low : s.chip.power.pstate ≠ 0 := by rw [deep]; decide
    refine ⟨_, congrArg Host.Outcome.next ((if_pos ?_).trans (wakeUp_exits low rests)), rfl, rfl⟩
    rw [deep, dark, lit]
    rfl
  case entry =>
    intro x target enters calm
    obtain ⟨v, step, pstate, none⟩ := execPowerEntryDone_enters target enters calm
    refine ⟨_, step, ?_⟩
    rw [(finishWait_onlyMail ..).chip]
    exact ⟨pstate, none, finishWait_none⟩
  case exit =>
    intro exits
    obtain ⟨pstate, none, ended, staged, queues⟩ := awake_reached s
    have lit := (relightAll_samePower 1 (awake s)).trans (sendHealth_onlyFrames _).samePower
    have queues := queues.trans lit.queues
    generalize hv : sendHealth (relightAll 1 (awake s)) = v at lit queues
    obtain ⟨chip, held, -, again⟩ := takenAgain v.mail.heldWake { v with mail := { v.mail with heldWake := [] } }
    refine ⟨resumeHeld v, hv ▸ execPowerExitDone_exits exits, ?_⟩
    rw [show (resumeHeld v).chip.power = (awake s).chip.power from (congrArg Chip.power chip).trans lit.power]
    refine ⟨pstate, none, ended, staged, held, fun h hh hfn => ?_⟩
    exact again h (queues.heldWake ▸ hh) (queues.length ▸ hfn)
  case low =>
    intro low
    exact ⟨_, execGovernorEval_low on low, rfl, rfl, rfl⟩
  case high =>
    intro awake high
    obtain ⟨extra, step⟩ := execGovernorEval_high (arrays := arrays) (vectors := vectors) on awake high
    obtain ⟨length, slower⟩ :=
      Power.slowDown_slowed (s.onPower (Power.measure arrays vectors w)) extra (s.chip.power.measure arrays vectors w)
    refine ⟨_, step, rfl, rfl, ?_⟩
    refine ⟨length, fun d x y hx known hy => ?_⟩
    obtain ⟨z, -, hz, le⟩ := slower d x hx known
    exact (Option.some.inj (hz.symm.trans hy)) ▸ le
  case step =>
    intro die s x to_ on rises hx
    obtain ⟨t, step, div, done⟩ := execDividerStep_steps on rises
    have now : s.chip.power.div.getD die.toNat 4 = x := by rw [List.getD_eq_getElem?_getD, hx]; rfl
    rw [now] at div done
    refine ⟨t, step, ?_, fun d other => ?_, done⟩
    · rw [div, getElem?_lmod, if_pos rfl, hx]
      rfl
    · rw [div, getElem?_lmod, if_neg (Ne.symm other)]
  case first =>
    intro free
    refine ⟨_, check_passed on (congrArg Host.Outcome.next (dieHot_first n.toNat free)), ?_⟩
    rw [slowest_div, if_pos rfl]
    have entered := enterOverride_power 1 [i.toNat] (fun o => { o with dies := addOnce o.dies (i.toNat, n.toNat) }) s
    generalize enterOverride .. = v at entered ⊢
    refine ⟨?_, ?_, ?_⟩
    · rw [entered, List.getElem?_eq_getElem hi]
      rfl
    · exact (congrArg (fun p => p.override.dies) entered) ▸ mem_addOnce ..
    · exact (congrArg Power.ovrSince entered) ▸ Option.some_ne_none _
  case again =>
    intro held
    exact ⟨_, check_passed on (congrArg Host.Outcome.next (dieHot_again held)), mem_addOnce .., rfl⟩
  case current =>
    intro s on free dies
    exact ⟨_, congrArg Host.Outcome.next (check_passed on rfl), currentHigh_power free dies⟩
  case clear =>
    intro s on held
    exact execOverrideClear_current on held
  case droop =>
    intro s on
    refine ⟨_, check_passed on rfl, rfl, fun rare => ?_, rfl, rfl⟩
    have counted : s.mtime ∈ (s.chip.power.droops.filter fun t => decide (s.mtime.toNat < t.toNat + 60000000000)) ++ [s.mtime] :=
      List.mem_append_right _ (List.mem_singleton_self _)
    simp only [Bool.false_and, Bool.false_eq_true, if_false, State.onPower_power]
    split
    · next x last => rwa [if_pos (decide_eq_true (rare x last))]
    · rwa [if_pos rfl]

end Sys2Proof.Machine
end

section
/-!
PROOFS. What the instant at which an account's stop begins leaves alone: the host links, the states of accounts, the commands that
wait, and the mailbox of a function that a reset has cleared.
-/
namespace Sys2Proof.Machine

/-! ## A stop leaves a cleared mailbox clear (R470, R506) -/

/-- Account `a` and the host links are as before, and no command has begun to wait; a mailbox of `a` that has no version, and for which
no command waits, is as before too. -/
structure StopKeeps (a : Nat) (s t : State) : Prop where
  links : t.chip.links = s.chip.links
  waiting : t.mail.waiting ⊆ s.mail.waiting
  state : (t.acct a).state = (s.acct a).state
  causes : (t.acct a).causes = (s.acct a).causes
  func : (s.func a).abi = 0 → (∀ w ∈ s.mail.waiting, cmdA w.cmd ≠ a) → t.func a = s.func a

section
variable {a : Nat} {s t u : State}

theorem StopKeeps.refl (s : State) : StopKeeps a s s := ⟨rfl, fun _ h => h, rfl, rfl, fun _ _ => rfl⟩

theorem StopKeeps.trans (h : StopKeeps a s t) (g : StopKeeps a t u) : StopKeeps a s u := by
  refine ⟨g.links.trans h.links, fun _ hw => h.waiting (g.waiting hw), g.state.trans h.state, g.causes.trans h.causes,
    fun abi none => ?_⟩
  have same := h.func abi none
  exact (g.func (by rw [same]; exact abi) fun w hw => none w (h.waiting hw)).trans same

/-- A change of anything but the mailboxes, the accounts and the host links. -/
theorem StopKeeps.upd {pending out freeCtr mtime mem grants parts modRight partRights stops gaps dieMem hbmCred vaultCred units counters
    samplers missed srcRem ports power fw beacon fabric noc cores pkgs pkgOrder svcTurn demand models moves moveCtr led gens ft}
    (h : StopKeeps a s t) :
    StopKeeps a s ⟨pending, out, freeCtr, mtime, mem, t.mail, ⟨t.ten.accts, grants, parts, modRight, partRights, stops, gaps⟩,
      ⟨dieMem, hbmCred, vaultCred, units, counters, samplers, missed, srcRem, t.chip.links, ports, power, fw, beacon, fabric, noc⟩,
      cores, pkgs, pkgOrder, svcTurn, demand, models, moves, moveCtr, led, gens, ft⟩ :=
  ⟨h.links, h.waiting, h.state, h.causes, h.func⟩

theorem StopKeeps.ite {c : Prop} [Decidable c] (ht : StopKeeps a s t) (hu : StopKeeps a s u) : StopKeeps a s (if c then t else u) := by
  split
  · exact ht
  · exact hu

theorem StopKeeps.foldl {α : Type} {f : State → α → State} {l : List α} (h : StopKeeps a s t)
    (hf : ∀ t x, StopKeeps a s t → StopKeeps a s (f t x)) : StopKeeps a s (l.foldl f t) := List.foldlRecOn l f h fun _ h x _ => hf _ x h

/-! ### Accounts, memory and messages -/

theorem onAcct_stopKeeps {b : Nat} {f : Account → Account} (h : StopKeeps a s t)
    (hf : ∀ x, (f x).state = x.state ∧ (f x).causes = x.causes := by exact fun _ => ⟨rfl, rfl⟩) : StopKeeps a s (t.onAcct b f) := by
  have kept : ((t.onAcct b f).acct a).state = (t.acct a).state ∧ ((t.onAcct b f).acct a).causes = (t.acct a).causes := by
    rw [State.acct_onAcct]
    split
    · exact hf _
    · exact ⟨rfl, rfl⟩
  exact ⟨h.links, h.waiting, kept.1.trans h.state, kept.2.trans h.causes, h.func⟩

theorem mend_links (c : Chip) (x n : Nat) : (c.mend x n).links = c.links := by
  unfold Chip.mend
  split <;> rfl

theorem write_stopKeeps {x : Nat} {bs : Bytes} (h : StopKeeps a s t) : StopKeeps a s (t.write x bs) :=
  ⟨(mend_links ..).trans h.links, h.waiting, h.state, h.causes, h.func⟩

theorem scramble_stopKeeps {x n : Nat} (h : StopKeeps a s t) : StopKeeps a s (t.scramble x n) := .upd (write_stopKeeps h)

theorem discover_stopKeeps {x n : Nat} (h : StopKeeps a s t) : StopKeeps a s (t.discover x n) := by
  fun_cases t.discover x n
  case case1 | case2 => exact h
  case case3 | case4 => exact h.upd

theorem launch_stopKeeps {w : Waiter} (h : StopKeeps a s t) : StopKeeps a s (launch w t) := .ite h.upd h.upd

end

/-! ### Notifications and completions -/

section
variable {a b : Nat} (other : b ≠ a)

theorem raiseVec_func (a fn vec : Nat) (s : State) : (raiseVec fn vec s).func a = s.func a := by
  unfold raiseVec
  dsimp only
  split <;> rfl

include other

theorem raiseNtf_func_ne (s : State) : (raiseNtf b s).func a = s.func a := by
  fun_cases raiseNtf b s
  · exact (raiseVec_func ..).trans (State.func_onFunc_ne s other _)
  · exact State.func_onFunc_ne s other _

theorem post_func_ne (kind : Nat) (st : Status) (args : Bytes) (s : State) : (post b kind st args s).func a = s.func a := by
  fun_cases post b kind st args s
  · rfl
  · exact State.func_onFunc_ne s other _
  all_goals exact (raiseNtf_func_ne other _).trans (State.func_onFunc_ne s other _)

end

/-- A completion touches the mailbox of its own function alone. -/
theorem complete_func_ne {a : Nat} {c : Cmd} (other : cmdA c ≠ a) (op : Nat) (st : Status) (payload : Bytes) (s : State) :
    (complete c op st payload s).func a = s.func a := by
  have told : ∀ r s, (tellDone c r s).func a = s.func a := fun r s => by
    unfold tellDone
    split
    · exact post_func_ne other ..
    · rfl
  refine (told ..).trans ?_
  split
  · exact State.func_onFunc_ne s other _
  · exact (raiseVec_func ..).trans (State.func_onFunc_ne s other _)

/-- A function without a version receives no notification. -/
theorem post_unversioned {fn : Nat} {s : State} (abi : (s.func fn).abi = 0) (kind : Nat) (st : Status) (args : Bytes) :
    post fn kind st args s = s := by
  have version : 0 < ntfVersion kind := by
    unfold ntfVersion
    split
    · decide
    · split <;> decide
  exact if_pos (Bool.or_eq_true_iff.2 (.inl (decide_eq_true (by rw [abi]; exact version))))

section
variable {a : Nat} {s t : State}

theorem StopKeeps.of_mail (h : OnlyMail s t) (waiting : t.mail.waiting ⊆ s.mail.waiting)
    (func : (s.func a).abi = 0 → (∀ w ∈ s.mail.waiting, cmdA w.cmd ≠ a) → t.func a = s.func a) : StopKeeps a s t := by
  obtain ⟨_, _, rfl⟩ := h
  exact ⟨rfl, waiting, rfl, rfl, func⟩

theorem post_stopKeeps {fn kind : Nat} {st : Status} {args : Bytes} (h : StopKeeps a s t) : StopKeeps a s (post fn kind st args t) := by
  refine h.trans (.of_mail (post_onlyMail ..) (by rw [(post_sameQueues ..).waiting]; exact fun _ h => h) fun abi _ => ?_)
  by_cases mine : fn = a
  · subst mine
    rw [post_unversioned abi]
  · exact post_func_ne mine ..

theorem finishWait_stopKeeps {key : WaitKey} {st : Status} {payload : Bytes} (h : StopKeeps a s t) :
    StopKeeps a s (finishWait key st payload t) := by
  refine h.trans (.of_mail (finishWait_onlyMail ..) (by rw [finishWait_waiting]; exact List.filter_subset_self _) fun _ none => ?_)
  unfold finishWait
  refine List.foldlRecOn (motive := fun u : State => u.func a = t.func a) _ _ rfl fun u hu w hw => ?_
  exact (complete_func_ne (none w (List.mem_of_mem_filter hw)) ..).trans hu

/-! ### The stop procedure of a package (R178) -/

theorem scrambleOut_stopKeeps {p : Pkg} {forced : Bool} (h : StopKeeps a s t) : StopKeeps a s (scrambleOut p forced t) :=
  h.foldl fun _ _ h => .ite (scramble_stopKeeps h) h

theorem copyRange_stopKeeps {acct src dst n : Nat} (h : StopKeeps a s t) : StopKeeps a s (copyRange acct src dst n t) :=
  .ite (scramble_stopKeeps (discover_stopKeeps h.upd)) (write_stopKeeps h.upd)

theorem restoreRw_stopKeeps {p : Pkg} (h : StopKeeps a s t) : StopKeeps a s (restoreRw p t) :=
  h.foldl fun _ _ h => .ite (copyRange_stopKeeps h) h

theorem putRecord_stopKeeps {acct x : Nat} {bs : Bytes} (h : StopKeeps a s t) : StopKeeps a s (putRecord acct x bs t) :=
  write_stopKeeps h.upd

theorem endPkg_stopKeeps {id : PkgId} {st : Status} (h : StopKeeps a s t) : StopKeeps a s (endPkg id st t) := by
  fun_cases endPkg id st t
  · exact h
  · exact finishWait_stopKeeps <| .ite (.upd <| onAcct_stopKeeps <| .ite (restoreRw_stopKeeps <| .ite (scrambleOut_stopKeeps h.upd) h.upd) <|
        .ite (scrambleOut_stopKeeps h.upd) h.upd) <| post_stopKeeps <| putRecord_stopKeeps <| .upd <| onAcct_stopKeeps <|
        .ite (restoreRw_stopKeeps <| .ite (scrambleOut_stopKeeps h.upd) h.upd) <| .ite (scrambleOut_stopKeeps h.upd) h.upd

theorem tryEndStop_stopKeeps {id : PkgId} (h : StopKeeps a s t) : StopKeeps a s (tryEndStop id t) := by
  fun_cases tryEndStop id t
  · exact h
  · exact endPkg_stopKeeps h
  · exact h

theorem beginStop_stopKeeps {id : PkgId} {st : Status} (h : StopKeeps a s t) : StopKeeps a s (beginStop id st t) := by
  fun_cases beginStop id st t
  · exact h
  · exact h
  · exact tryEndStop_stopKeeps h.upd

/-! ### The instant D of an account's stop (R470, R471) -/

theorem scrambleSlot_stopKeeps {q : Seq} {m : Model} {slot : Nat} (h : StopKeeps a s t) :
    StopKeeps a s (scrambleSlot q m slot t) := by
  refine h.foldl fun _ _ h => ?_
  split
  · exact h
  · exact scramble_stopKeeps h

theorem freeTentative_stopKeeps {i : Nat} (h : StopKeeps a s t) : StopKeeps a s (freeTentative i t) := by
  fun_cases freeTentative i t
  · exact h
  · exact h
  · exact .upd <| h.foldl fun _ _ h => scrambleSlot_stopKeeps h

theorem meterWave_stopKeeps {m : Model} (h : StopKeeps a s t) : StopKeeps a s (meterWave m t) := onAcct_stopKeeps h.upd

theorem stopWave_stopKeeps {slot : Nat} (h : StopKeeps a s t) : StopKeeps a s (stopWave slot t) := by
  fun_cases stopWave slot t
  · exact meterWave_stopKeeps h.upd
  · exact h
  · exact h

theorem tellReading_stopKeeps {m : Model} {on : Bool} (h : StopKeeps a s t) : StopKeeps a s (tellReading m on t) := by
  fun_cases tellReading m on t
  · exact launch_stopKeeps h
  · exact h

theorem dropLater_stopKeeps {slot : Nat} {m : Model} (h : StopKeeps a s t) : StopKeeps a s (dropLater slot m t) :=
  .ite h.upd (tellReading_stopKeeps h.upd)

theorem dropWaves_stopKeeps {slot : Nat} (h : StopKeeps a s t) : StopKeeps a s (dropWaves slot t) := by
  have stopped := stopWave_stopKeeps (slot := slot) <|
    h.foldl (f := fun s i => freeTentative i s) (l := (t.seqsOf slot).map (·.1)) fun _ _ h => freeTentative_stopKeeps h
  refine .upd ?_
  split
  · exact dropLater_stopKeeps stopped
  · exact stopped

/-- Once account `a` is STOPPING, the rest of the instant D keeps it so. -/
theorem beginAcctStop_keeps (a : Nat) (s : State) :
    StopKeeps a (s.onAcct a fun x => { x with state := .stopping }) (beginAcctStop a s) := by
  have stopping : StopKeeps a (s.onAcct a fun x => { x with state := .stopping }) (s.onAcct a fun x => { x with state := .stopping }) :=
    .refl _
  unfold beginAcctStop
  exact .upd <| .upd <| .upd <| .foldl (.foldl stopping.upd fun _ _ h => beginStop_stopKeeps h.upd) fun _ _ h => dropWaves_stopKeeps h

end

end Sys2Proof.Machine
end

section
/-!
PROOFS. The input, trips, start-up, activations, the pause of the mailboxes, FUNCTION resets, virtual functions and the end of an
account's stop.
-/
namespace Sys2Proof.Machine

/-! ## What light and darkness leave alone (R375, R376) -/

/-- The firmware, the power state, module time and what fault tolerance keeps are as before. -/
structure SameCore (s t : State) : Prop where
  fw : t.chip.fw = s.chip.fw
  power : t.chip.power = s.chip.power
  mtime : t.mtime = s.mtime
  ft : t.ft = s.ft

/-- The mailboxes and the host links are as before. -/
structure SameFront (s t : State) : Prop where
  mail : t.mail = s.mail
  links : t.chip.links = s.chip.links

section
variable {s t u : State}

theorem SameCore.refl (s : State) : SameCore s s := ⟨rfl, rfl, rfl, rfl⟩

theorem SameCore.trans (h : SameCore s t) (g : SameCore t u) : SameCore s u :=
  ⟨g.fw.trans h.fw, g.power.trans h.power, g.mtime.trans h.mtime, g.ft.trans h.ft⟩

/-- The same, after a change of something else. -/
theorem SameCore.after (g : SameCore t u) (fw : t.chip.fw = s.chip.fw := by exact rfl)
    (power : t.chip.power = s.chip.power := by exact rfl) (mtime : t.mtime = s.mtime := by exact rfl)
    (ft : t.ft = s.ft := by exact rfl) : SameCore s u := .trans ⟨fw, power, mtime, ft⟩ g

theorem SameCore.foldl {α : Type} {f : State → α → State} (h : ∀ s x, SameCore s (f s x)) (l : List α) (s : State) :
    SameCore s (l.foldl f s) := List.foldlRecOn l f (.refl s) fun _ hs x _ => hs.trans (h _ x)

theorem OnlyFrames.sameCore (h : OnlyFrames s t) : SameCore s t := by
  obtain ⟨_, _, rfl⟩ := h
  exact ⟨rfl, rfl, rfl, rfl⟩

theorem OnlyMail.sameCore (h : OnlyMail s t) : SameCore s t := by
  obtain ⟨_, _, rfl⟩ := h
  exact ⟨rfl, rfl, rfl, rfl⟩

theorem SameFront.refl (s : State) : SameFront s s := ⟨rfl, rfl⟩

theorem SameFront.trans (h : SameFront s t) (g : SameFront t u) : SameFront s u := ⟨g.mail.trans h.mail, g.links.trans h.links⟩

/-- The same, after a change of something else. -/
theorem SameFront.after (g : SameFront t u) (mail : t.mail = s.mail := by exact rfl)
    (links : t.chip.links = s.chip.links := by exact rfl) : SameFront s u := .trans ⟨mail, links⟩ g

theorem SameFront.foldl {α : Type} {f : State → α → State} (h : ∀ s x, SameFront s (f s x)) (l : List α) (s : State) :
    SameFront s (l.foldl f s) := List.foldlRecOn l f (.refl s) fun _ hs x _ => hs.trans (h _ x)

theorem OnlyFrames.sameFront (h : OnlyFrames s t) : SameFront s t := by
  obtain ⟨_, _, rfl⟩ := h
  exact ⟨rfl, rfl⟩

theorem SameFront.fnExists (h : SameFront s t) (fn : Nat) : t.fnExists fn = s.fnExists fn := by
  rw [State.fnExists, State.link, h.links, State.fnExists, State.link]

theorem SameFront.func (h : SameFront s t) (fn : Nat) : t.func fn = s.func fn := by rw [State.func, h.mail, State.func]

end

theorem resendSegments_sameCore (p : Nat) (s : State) : SameCore s (resendSegments p s) := by
  unfold resendSegments
  split <;> exact ⟨rfl, rfl, rfl, rfl⟩

theorem unroute_sameCore (p : Nat) (s : State) : SameCore s (unroute p s) := by
  fun_cases unroute p s
  · exact .refl s
  · exact (resendSegments_sameCore ..).after

theorem hostDown_sameCore (n : Nat) (s : State) : SameCore s (hostDown n s) := by
  unfold hostDown
  split <;> exact ⟨rfl, rfl, rfl, rfl⟩

theorem darken_sameCore (p cause : Nat) (s : State) : SameCore s (darken p cause s) := by
  fun_cases darken p cause s
  · exact .refl s
  · exact ⟨rfl, rfl, rfl, rfl⟩
  · exact (unroute_sameCore ..).after
  · exact (hostDown_sameCore ..).after

theorem relight_sameCore (p cause : Nat) (s : State) : SameCore s (relight p cause s) := ⟨rfl, rfl, rfl, rfl⟩

theorem relight_sameFront (p cause : Nat) (s : State) : SameFront s (relight p cause s) := ⟨rfl, rfl⟩

theorem relightAll_same (cause : Nat) (s : State) : SameCore s (relightAll cause s) ∧ SameFront s (relightAll cause s) :=
  ⟨.foldl (fun s p => relight_sameCore p cause s) _ s, .foldl (fun s p => relight_sameFront p cause s) _ s⟩

theorem darkenGroup_sameCore (g : Nat) (s : State) : SameCore s (darkenGroup g s) := by
  have dark := SameCore.foldl (fun s p => darken_sameCore p 4 s) (groupPorts g) (s.onBeacon fun b => { b with expect := 2500 })
  exact (dark.trans (sendHealth_onlyFrames _).sameCore).after

theorem relightGroup_sameCore (g : Nat) (s : State) : SameCore s (relightGroup g s) := by
  have lit := SameCore.foldl (fun s p => relight_sameCore p 4 s) (groupPorts g) s
  exact lit.trans (sendHealth_onlyFrames _).sameCore.after

/-! ## The input and trips (R526, R588) -/

theorem darkenForReset_keeps (s : State) :
    (darkenForReset s).chip.fw = s.chip.fw ∧ (darkenForReset s).mtime = s.mtime ∧ (darkenForReset s).ft = s.ft := by
  have dark := SameCore.foldl (fun s p => darken_sameCore p 5 s) (List.range 68) s
  unfold darkenForReset
  generalize List.foldl _ _ _ = d at dark ⊢
  exact ⟨dark.fw, dark.mtime, dark.ft⟩

/-- What a module that stops at once leaves is what a COLD reset keeps. -/
theorem powerOff_leaves (s : State) :
    (powerOff s).pkgs = [] ∧ (powerOff s).models = [] ∧ (powerOff s).mail = Mail.reset ∧ (powerOff s).mtime = s.mtime ∧
      (powerOff s).ft.ckpts = s.ft.ckpts ∧ (powerOff s).chip.fw.floor = s.chip.fw.floor := by
  obtain ⟨fw, mtime, ft⟩ := darkenForReset_keeps s
  have ckpts : (darkenForReset s).ft.ckpts = s.ft.ckpts := by rw [ft]
  have floor : (darkenForReset s).chip.fw.floor = s.chip.fw.floor := by rw [fw]
  unfold powerOff
  generalize darkenForReset s = d at mtime ckpts floor ⊢
  exact ⟨rfl, rfl, rfl, mtime, ckpts, floor⟩

/-- A HEALTH frame does not change what HEALTH frames say. -/
theorem sendHealth_mstate (s : State) : (sendHealth s).chip.beacon.mstate = s.chip.beacon.mstate := by
  unfold sendHealth sendHealthAs sendFrame
  split <;> rfl

theorem powerInputLoss_leaves {s : State} (present : s.chip.power.inputPresent = true) :
    ∃ t, exec .powerInputLoss s = .next t ∧ t.chip.power.inputPresent = false ∧ t.pkgs = [] ∧ t.models = [] ∧ t.mail = Mail.reset ∧
      t.ft.ckpts = s.ft.ckpts ∧ t.chip.fw.floor = s.chip.fw.floor := by
  have run : exec .powerInputLoss s = .next ((powerOff s).onPower fun p => { p with inputPresent := false }) := by
    change execPowerInputLoss s = _
    rw [execPowerInputLoss, present]
    rfl
  obtain ⟨pkgs, models, mail, -, ckpts, floor⟩ := powerOff_leaves s
  generalize powerOff s = d at *
  exact ⟨_, run, rfl, pkgs, models, mail, ckpts, floor⟩

theorem thermalTrip_leaves {s : State} (present : s.chip.power.inputPresent = true) (fine : s.chip.power.tripped = false) :
    ∃ t, exec .thermalTrip s = .next t ∧ t.chip.power.tripped = true ∧ t.chip.beacon.mstate = .fault ∧ t.pkgs = [] ∧
      t.mail = Mail.reset ∧ t.chip.fabric.addr = s.chip.fabric.addr ∧ t.mtime = s.mtime := by
  change ∃ t, execThermalTrip s = _ ∧ _
  obtain ⟨pkgs, -, mail, mtime, -⟩ := powerOff_leaves s
  simp only [execThermalTrip, present, fine, Bool.not_true, Bool.or_self, Bool.false_eq_true, if_false]
  generalize powerOff s = d at pkgs mail mtime ⊢
  refine ⟨_, rfl, ?_⟩
  generalize hu : State.onBeacon _ _ = u
  have mstate := sendHealth_mstate u
  obtain ⟨_, _, sent⟩ := sendHealth_onlyFrames u
  rw [sent] at mstate ⊢
  subst hu
  exact ⟨rfl, mstate, pkgs, mail, rfl, mtime⟩

/-- After a loss of the input the COLD reset starts at module time 0. -/
theorem coldStart_absent {s : State} (absent : s.chip.power.inputPresent = false) :
    ∃ u : State, coldStart s = coldState u ∧ u.mtime = 0 ∧ u.ft = s.ft := by
  unfold coldStart
  dsimp only
  rw [if_neg (by rw [absent]; decide)]
  exact ⟨_, rfl, rfl, rfl⟩

theorem powerInputEnter_starts {s : State} (absent : s.chip.power.inputPresent = false) :
    ∃ t, exec .powerInputEnter s = .next t ∧ t.mtime = 0 ∧ t.chip.power.inputPresent = true ∧
      t.chip.power.resetting = some .cold ∧ t.ft.ckpts = s.ft.ckpts := by
  obtain ⟨u, cold, mtime, ft⟩ := coldStart_absent absent
  have ckpts : u.ft.ckpts = s.ft.ckpts := by rw [ft]
  have run : exec .powerInputEnter s = .next (coldState u) := by
    change execPowerInputEnter s = _
    rw [execPowerInputEnter, absent, ← cold]
    rfl
  exact ⟨_, run, mtime, rfl, rfl, ckpts⟩

/-! ## Start-up (R530, R531, R539) -/

theorem fallBack_sameFront (s : State) (type : BitVec 2) : SameFront s (fallBack s type) := by
  unfold fallBack
  split <;> exact ⟨rfl, rfl⟩

theorem finishWipe_sameFront (s : State) : SameFront s (finishWipe s) := by
  unfold finishWipe
  dsimp only
  split <;> exact ⟨rfl, rfl⟩

/-- The Keeper's choice of images rests on the chip alone. -/
theorem fallBack_chip {s t : State} (h : s.chip = t.chip) (type : BitVec 2) : (fallBack s type).chip = (fallBack t type).chip := by
  simp only [fallBack, State.fwType, State.onFw, apply_ite State.chip, h]

theorem foldl_fallBack_chip {s t : State} (h : s.chip = t.chip) (types : List (BitVec 2)) :
    (types.foldl fallBack s).chip = (types.foldl fallBack t).chip := by
  induction types generalizing s t with
  | nil => exact h
  | cons type types ih => exact ih (fallBack_chip h type)

theorem finishWipe_chip {s t : State} (h : s.chip = t.chip) : (finishWipe s).chip = (finishWipe t).chip := by
  simp only [finishWipe, eraseStrongbox, State.onFw, apply_ite State.chip, h]

theorem onUnit_same (kind i : Nat) (f : UnitRec → UnitRec) (s : State) :
    SameCore s (s.onUnit kind i f) ∧ SameFront s (s.onUnit kind i f) := ⟨⟨rfl, rfl, rfl, rfl⟩, ⟨rfl, rfl⟩⟩

theorem retag_sameCore (s : State) : SameCore s (retag s) :=
  SameCore.trans (.foldl (fun s _ => .foldl (fun _ _ => (onUnit_same ..).1) _ s) _ s) (.foldl (fun _ _ => (onUnit_same ..).1) _ _)

theorem retag_sameFront (s : State) : SameFront s (retag s) :=
  SameFront.trans (.foldl (fun s _ => .foldl (fun _ _ => (onUnit_same ..).2) _ s) _ s) (.foldl (fun _ _ => (onUnit_same ..).2) _ _)

theorem readyAll_sameCore (s : State) : SameCore s (readyAll s) := ⟨rfl, rfl, rfl, rfl⟩

theorem readyAll_func (s : State) {fn : Nat} (hfn : fn < s.mail.funcs.length) (exist : s.fnExists fn = true) :
    ((readyAll s).func fn).ready = true := by
  simp [readyAll, State.func, List.getD_eq_getElem?_getD, hfn, exist]

theorem backToRun_same (s : State) : SameCore s (backToRun s) ∧ SameFront s (backToRun s) := by
  have frames := sendHealth_onlyFrames (s.onBeacon fun b => { b with mstate := if s.faulty then .fault else .run, expect := 0xFFFF })
  exact ⟨frames.sameCore.after, frames.sameFront.after⟩

theorem assignRight_same (s : State) : SameCore s (assignRight s) ∧ SameFront s (assignRight s) := by
  unfold assignRight
  split
  · exact ⟨.refl s, .refl s⟩
  · split <;> exact ⟨⟨rfl, rfl, rfl, rfl⟩, ⟨rfl, rfl⟩⟩

theorem mailboxReady_ends {s : State} {k : ResetKind} (starting : s.chip.power.resetting = some k) :
    ∃ t, exec .mailboxReady s = .next t ∧ t.chip.power.resetting = none ∧ t.chip.power.mailboxReady = true ∧
      t.chip.fw = ((lateTypes (Config.freeValue s.freeCtr)).foldl fallBack (finishWipe s)).chip.fw ∧
      ∀ fn < s.mail.funcs.length, s.fnExists fn = true → (t.func fn).ready = true := by
  have run : exec .mailboxReady s = .next (backToRun (assignRight (readyAll (retag (relightAll 5
      (((lateTypes (Config.freeValue s.freeCtr)).foldl fallBack (finishWipe { s with freeCtr := s.freeCtr + 1 })).onPower
        fun p => { p with resetting := none, mailboxReady := true })))))) := by
    change execMailboxReady s = _
    rw [execMailboxReady, starting]
    rfl
  refine ⟨_, run, ?_⟩
  generalize started : (lateTypes (Config.freeValue s.freeCtr)).foldl fallBack (finishWipe { s with freeCtr := s.freeCtr + 1 }) = u
  have front : SameFront s u := by
    rw [← started]
    exact (finishWipe_sameFront _).after.trans (.foldl fallBack_sameFront _ _)
  have images : u.chip = ((lateTypes (Config.freeValue s.freeCtr)).foldl fallBack (finishWipe s)).chip := by
    have same : ({ s with freeCtr := s.freeCtr + 1 } : State).chip = s.chip := rfl
    rw [← started]
    exact foldl_fallBack_chip (finishWipe_chip same) _
  generalize lit : u.onPower (fun p => { p with resetting := none, mailboxReady := true }) = v
  have ready : SameFront u v ∧ v.chip.power.resetting = none ∧ v.chip.power.mailboxReady = true ∧ v.chip.fw = u.chip.fw := by
    rw [← lit]
    exact ⟨⟨rfl, rfl⟩, rfl, rfl, rfl⟩
  obtain ⟨lights, resetting, mailbox, fw⟩ := ready
  obtain ⟨litCore, litFront⟩ := relightAll_same 5 v
  have tagged := (front.trans lights).trans (litFront.trans (retag_sameFront _))
  obtain ⟨rightCore, rightFront⟩ := assignRight_same (readyAll (retag (relightAll 5 v)))
  obtain ⟨runCore, runFront⟩ := backToRun_same (assignRight (readyAll (retag (relightAll 5 v))))
  have all := (((litCore.trans (retag_sameCore _)).trans (readyAll_sameCore _)).trans rightCore).trans runCore
  refine ⟨by rw [all.power, resetting], by rw [all.power, mailbox], by rw [all.fw, fw, images], fun fn hfn exist => ?_⟩
  rw [(rightFront.trans runFront).func]
  exact readyAll_func _ (by rw [tagged.mail]; exact hfn) (by rw [tagged.fnExists]; exact exist)

/-! ## Activations (R543, R544) -/

theorem endActivation_none (st : Status) (failed : Nat) (s : State) : (endActivation st failed s).chip.fw.activation = none := by
  unfold endActivation
  rw [(finishWait_onlyMail ..).sameCore.fw, (backToRun_same _).1.fw]
  rfl

section
variable {s : State} {x : Activation} (running : s.chip.fw.activation = some x)
include running

theorem firmwareReady_done (other : x.left.headD 0 ≠ 2) : exec (.firmwareReady true) s = .next (typeDone s) := by
  change execFirmwareReady true s = _
  simp only [execFirmwareReady, running, Bool.not_true, Bool.false_eq_true, if_false, beq_iff_eq, other]

theorem firmwareReady_fails : exec (.firmwareReady false) s = .next (typeFails s) ∧ (typeFails s).chip.fw.activation = none := by
  constructor
  · change execFirmwareReady false s = _
    simp [execFirmwareReady, running]
  · simp only [typeFails, running]
    exact endActivation_none ..

theorem opticsGroupRelit_next {g g' : Nat} {rest : List Nat} (optics : x.left.headD 0 = 2) (groups : x.groups = g :: g' :: rest) :
    ∃ t, exec .opticsGroupRelit s = .next t ∧
      ∃ y, t.chip.fw.activation = some y ∧ y.groups = g' :: rest ∧ y.groupsDone = x.groupsDone ++ [g] ∧ y.left = x.left := by
  have run : exec .opticsGroupRelit s = .next (darkenGroup g' ((relightGroup g s).onActivation fun a =>
      { a with groups := a.groups.drop 1, groupsDone := a.groupsDone ++ a.groups.take 1 })) := by
    change execOpticsGroupRelit s = _
    simp only [execOpticsGroupRelit, running, optics, groups]
    rfl
  refine ⟨_, run, ⟨x.left, x.done, x.groups.drop 1, x.groupsDone ++ x.groups.take 1, x.old⟩, ?_, ?_⟩
  · rw [(darkenGroup_sameCore ..).fw]
    simp only [State.onActivation, State.onFw, (relightGroup_sameCore ..).fw, running, Option.map_some]
  · simp [groups]

end

end Sys2Proof.Machine
end

section
/-!
PROOFS. The end of a pause, FUNCTION resets, virtual functions and the end of an account's stop.
-/
namespace Sys2Proof.Machine

/-! ## The end of a pause (R487) -/

theorem flushOverflow_sameQueues (fn : Nat) (s : State) : SameQueues s (flushOverflow fn s) := by
  unfold flushOverflow
  dsimp only
  split
  · exact (onFunc_sameQueues ..).trans (raiseNtf_sameQueues ..)
  · exact .refl s

theorem flushOne_sameQueues (fn : Nat) (s : State) : SameQueues s (flushOne fn s) := by
  fun_cases flushOne fn s
  · exact .refl s
  · exact (onFunc_sameQueues ..).trans (raiseNtf_sameQueues ..)
  · exact .refl s

theorem flushHeld_sameQueues (fn : Nat) (s : State) : SameQueues s (flushHeld fn s) := by
  unfold flushHeld
  split
  · exact .refl s
  · exact .foldl (fun _ _ => flushOne_sameQueues ..) _ s

/-- What MAILBOX_RESUMED does for one function, `ms` telling how long the pause was. -/
def resumeFunc (ms : DWord) (s : State) (fn : Nat) : State :=
  let f := s.func fn
  let s := flushOverflow fn (s.onFunc fn fun f => { f with paused := false, heldNtf := [], heldResp := [] })
  let s := if f.abi == 0 then s else post fn 0x11 .ok (leBytes 4 (ms.toNat % 401)) s
  let s := f.heldResp.foldl (fun s r => writeResp r.1 r.2 s) s
  flushHeld fn (s.onFunc fn fun g => { g with heldNtf := f.heldNtf })

theorem mailboxResumed_next (s : State) :
    exec .mailboxResumed s = .next (((List.range 1024).filter fun fn => (s.func fn).paused).foldl
      (resumeFunc (Config.freeValue s.freeCtr)) { s with freeCtr := s.freeCtr + 1 }) := by
  change execMailboxResumed s = _
  unfold execMailboxResumed
  generalize List.range 1024 = fns
  rfl

theorem writeResps_sameQueues (rs : List (Cmd × Resp)) (s : State) :
    SameQueues s (rs.foldl (fun s r => writeResp r.1 r.2 s) s) := .foldl (fun _ _ => writeResp_sameQueues ..) _ _

theorem ite_sameQueues {c : Prop} [Decidable c] {s t u : State} (ht : SameQueues s t) (hu : SameQueues s u) :
    SameQueues s (if c then t else u) := by
  split
  · exact ht
  · exact hu

/-- The pause of the function ends, and that of no other. -/
theorem resumeFunc_paused (ms : DWord) (s : State) (fn g : Nat) :
    ((resumeFunc ms s fn).func g).paused = if fn = g then false else (s.func g).paused := by
  have rest : SameQueues (s.onFunc fn fun f => { f with paused := false, heldNtf := [], heldResp := [] }) (resumeFunc ms s fn) := by
    unfold resumeFunc
    dsimp only
    generalize s.onFunc fn _ = u
    have flushed := flushOverflow_sameQueues fn u
    generalize flushOverflow fn u = v at flushed ⊢
    refine SameQueues.trans ?_ (flushHeld_sameQueues fn _)
    refine SameQueues.trans ?_ (onFunc_sameQueues fn _ _)
    refine SameQueues.trans ?_ (writeResps_sameQueues _ _)
    exact ite_sameQueues flushed (flushed.trans (post_sameQueues ..))
  rw [rest.paused, State.func_onFunc]
  by_cases same : fn = g
  · subst same
    rw [if_pos rfl]
    split
    · rfl
    · next none =>
      have outside : s.mail.funcs.length ≤ fn := by simpa using none
      rw [State.func, List.getD_eq_default _ _ outside]
      rfl
  · rw [if_neg (fun h => same h.1), if_neg same]

/-- Once every function in a list has been resumed, none of them is paused, nor is one that was not. -/
theorem foldl_resumeFunc_paused (ms : DWord) (fns : List Nat) (s : State) {g : Nat} (h : g ∈ fns ∨ (s.func g).paused = false) :
    ((fns.foldl (resumeFunc ms) s).func g).paused = false := by
  induction fns generalizing s with
  | nil => exact h.resolve_left (by simp)
  | cons fn fns ih =>
    refine ih (resumeFunc ms s fn) ?_
    rw [resumeFunc_paused]
    rcases h with mem | free
    · rcases List.mem_cons.1 mem with rfl | mem
      · exact .inr (if_pos rfl)
      · exact .inl mem
    · rw [free]
      exact .inr (ite_self _)

theorem mailboxResumed_unpaused (s : State) : ∃ t, exec .mailboxResumed s = .next t ∧ ∀ fn < 1024, (t.func fn).paused = false := by
  refine ⟨_, mailboxResumed_next s, fun fn hfn => foldl_resumeFunc_paused _ _ _ ?_⟩
  by_cases paused : (s.func fn).paused = true
  · exact .inl (List.mem_filter.2 ⟨List.mem_range.2 hfn, paused⟩)
  · exact .inr (Bool.not_eq_true _ ▸ paused)

/-! ## FUNCTION resets (R382, R456, R506) -/

theorem ite_links {c : Prop} [Decidable c] {s t u : State} (ht : t.chip.links = s.chip.links) (hu : u.chip.links = s.chip.links) :
    (if c then t else u).chip.links = s.chip.links := by
  split
  · exact ht
  · exact hu

theorem disableCause_links (a : Nat) (f : Causes → Causes) (s : State) : (disableCause a f s).chip.links = s.chip.links := by
  exact ite_links (beginAcctStop_keeps ..).links rfl

theorem functionReset_links (fn : Nat) (s : State) : (functionReset fn s).chip.links = s.chip.links := by
  refine ite_links rfl ?_
  dsimp only
  split
  · exact disableCause_links ..
  · exact disableCause_links ..
  · exact ite_links rfl rfl
  · rfl

/-- Links that each step of a loop leaves alone are as before. -/
theorem foldl_links {α : Type} {f : State → α → State} (h : ∀ s x, (f s x).chip.links = s.chip.links) (l : List α) (s : State) :
    (l.foldl f s).chip.links = s.chip.links := 
  List.foldlRecOn (motive := fun t : State => t.chip.links = s.chip.links) l f rfl fun _ hs x _ => (h _ x).trans hs

theorem portReset_links (p : Nat) (s : State) : (portReset p s).chip.links = s.chip.links := by
  rw [portReset, foldl_links fun _ _ => functionReset_links ..]
  rfl

theorem link_of_links {s t : State} (h : t.chip.links = s.chip.links) (n : Nat) : t.link n = s.link n := by
  rw [State.link, h, State.link]

/-- A state of an account other than the fresh one shows that the account is there. -/
theorem acct_lt {s : State} {a : Nat} (h : (s.acct a).state ≠ .none) : a < s.ten.accts.length := by
  by_contra outside
  rw [State.acct, List.getD_eq_default _ _ (Nat.le_of_not_lt outside)] at h
  exact h rfl

/-- The Tally copied and the nonce forgotten leave the states of accounts. -/
theorem beforeReset_acct_state (s : State) (a : Nat) : ((beforeReset s).acct a).state = (s.acct a).state := by
  have mapped : (beforeReset s).ten.accts = s.ten.accts.map fun a => { a with copied := s.mtime, copy := a.meters } := rfl
  simp only [State.acct, mapped, List.getD_eq_getElem?_getD, List.getElem?_map]
  cases s.ten.accts[a]? <;> rfl

/-- A cause that comes into force for an ENABLED account stops it, and its mailbox, where a reset has cleared it, stays clear. -/
theorem disableCause_stops {a : Nat} (f : Causes → Causes) {s : State} (enabled : (s.acct a).state = .enabled)
    (abi : (s.func a).abi = 0) (none : ∀ w ∈ s.mail.waiting, cmdA w.cmd ≠ a) :
    (disableCause a f s).func a = s.func a ∧ (∀ w ∈ (disableCause a f s).mail.waiting, cmdA w.cmd ≠ a) ∧
      ((disableCause a f s).acct a).state = .stopping ∧ ((disableCause a f s).acct a).causes = f (s.acct a).causes := by
  have there : a < s.ten.accts.length := acct_lt (by rw [enabled]; decide)
  have stop : disableCause a f s = beginAcctStop a (s.onAcct a fun x => { x with causes := f x.causes }) := by
    rw [disableCause, enabled]
    rfl
  rw [stop]
  have kept := beginAcctStop_keeps a (s.onAcct a fun x => { x with causes := f x.causes })
  have length : a < (s.onAcct a fun x => { x with causes := f x.causes }).ten.accts.length := by
    rw [State.onAcct, length_lmod]
    exact there
  refine ⟨kept.func abi none, fun w hw => none w (kept.waiting hw), ?_, ?_⟩
  · rw [kept.state, State.acct_onAcct, if_pos ⟨rfl, length⟩]
  · rw [kept.causes, State.acct_onAcct, if_pos ⟨rfl, length⟩, State.acct_onAcct, if_pos ⟨rfl, there⟩]

theorem functionReset_resets {fn : Nat} {s : State} (exist : s.fnExists fn = true) (enabled : (s.acct fn).state = .enabled)
    (there : fn < s.mail.funcs.length) :
    (functionReset fn s).func fn = Func.reset ∧ (∀ w ∈ (functionReset fn s).mail.waiting, cmdA w.cmd ≠ fn) ∧
      ((functionReset fn s).acct fn).state = .stopping ∧ ((functionReset fn s).acct fn).causes.reset = true := by
  generalize cleared : forgetCmds fn ((s.onFunc fn fun _ => Func.reset).onAper fn fun _ => Aper.reset) = u
  have func : u.func fn = Func.reset := by
    rw [← cleared]
    exact (State.func_onFunc s fn fn _).trans (if_pos ⟨rfl, there⟩)
  have none : ∀ w ∈ u.mail.waiting, cmdA w.cmd ≠ fn := by
    rw [← cleared]
    exact fun w hw => by simpa using (List.mem_filter.1 hw).2
  have acct : (u.acct fn).state = .enabled := by
    rw [← cleared]
    exact enabled
  have reset : functionReset fn s = disableCause fn (fun c => { c with reset := true }) u := by
    rw [functionReset, exist]
    dsimp only [Bool.not_true, Bool.false_eq_true, if_false]
    rw [cleared, acct]
    rfl
  rw [reset]
  obtain ⟨same, left, state, causes⟩ := disableCause_stops (fun c => { c with reset := true }) acct (by rw [func]; rfl) none
  exact ⟨same.trans func, left, state, by rw [causes]⟩

theorem functionLevelReset_resets {fn : BitVec 10} {s : State} (on : s.off = false) (exist : s.fnExists fn.toNat = true)
    (enabled : (s.acct fn.toNat).state = .enabled) (there : fn.toNat < s.mail.funcs.length) :
    ∃ t, exec (.functionLevelReset fn) s = .next t ∧ t.func fn.toNat = Func.reset ∧
      (∀ w ∈ t.mail.waiting, cmdA w.cmd ≠ fn.toNat) ∧ (t.acct fn.toNat).state = .stopping ∧
      (t.acct fn.toNat).causes.reset = true := by
  refine ⟨functionReset fn.toNat (beforeReset s), ?_,
    functionReset_resets exist ((beforeReset_acct_state s _).trans enabled) there⟩
  change execFunctionLevelReset fn s = _
  rw [execFunctionLevelReset, exist, on]
  rfl

/-! ## Host ports (R382, R383, R456) -/

theorem functionAppears_links (a : Nat) (s : State) : (functionAppears a s).chip.links = s.chip.links := by
  unfold functionAppears
  dsimp only
  generalize hu : s.onAcct a _ = u
  have same : u.chip.links = s.chip.links := by
    rw [← hu]
    rfl
  have entered : ∀ c : Bool, (if c = true then enterEnabled a u else u).chip.links = s.chip.links := fun c => by
    cases c
    · exact same
    · rw [if_pos rfl]
      exact ite_links same same
  exact ite_links (entered _) (entered _)

section
variable {s : State} (on : s.off = false) (port : BitVec 2)
include on

theorem hotReset_resets : exec (.hotReset port) s = .next (portReset port.toNat s) := by
  change execHotReset port s = _
  rw [execHotReset, State.whenOn_on _ on]

theorem linkDisable_down (there : port.toNat < s.chip.links.length) (up : (s.link port.toNat).up = true) :
    ∃ t, exec (.linkDisable port) s = .next t ∧ (t.link port.toNat).up = false ∧
      (t.link port.toNat).numVfs = (s.link port.toNat).numVfs := by
  have links := portReset_links port.toNat s
  have link := link_of_links links port.toNat
  have down := hostDown_link (s := portReset port.toNat s) (by rw [links]; exact there) (by rw [link]; exact up)
  rw [link] at down
  have run : exec (.linkDisable port) s = .next ((hostDown port.toNat (portReset port.toNat s)).onPort (64 + port.toNat) fun x =>
      if x.cause == 0 then Port.lit (64 + port.toNat) { x with state := .seeking } else x) := by
    change execLinkDisable port s = _
    rw [execLinkDisable, State.whenOn_on _ on]
  refine ⟨_, run, ?_⟩
  generalize hostDown port.toNat (portReset port.toNat s) = u at down ⊢
  rw [show State.link (u.onPort _ _) port.toNat = u.link port.toNat from rfl, down]
  exact ⟨rfl, rfl⟩

theorem vfDisable_lowers (there : port.toNat < s.chip.links.length) (num : BitVec 8) :
    ∃ t, exec (.vfDisable port num) s = .next t ∧ (t.link port.toNat).numVfs = min (s.link port.toNat).numVfs num.toNat := by
  change ∃ t, execVfDisable port num s = _ ∧ _
  simp only [execVfDisable, State.whenOn_on _ on]
  refine ⟨_, rfl, ?_⟩
  have kept := foldl_links (f := fun s a => (disableCause a (fun c => { c with absent := true }) s).onFunc a
    fun f => { f with ready := false }) fun s a => disableCause_links a _ s
  rw [link_of_links (kept _ _), State.link_onLink_same _ there]

theorem vfEnable_raises (there : port.toNat < s.chip.links.length) (num : BitVec 8) :
    ∃ t, exec (.vfEnable port num) s = .next t ∧ (t.link port.toNat).numVfs = max (s.link port.toNat).numVfs num.toNat := by
  change ∃ t, execVfEnable port num s = _ ∧ _
  simp only [execVfEnable, State.whenOn_on _ on]
  refine ⟨_, rfl, ?_⟩
  rw [link_of_links (foldl_links (fun _ _ => functionAppears_links ..) _ _), State.link_onLink_same _ there]

end

/-! ## The end of an account's stop (R471, R472) -/

theorem onAcct_state_ne {a : Nat} {f : Account → Account} {st : AcctState} (s : State) (hf : ∀ x, (f x).state ≠ st)
    (fresh : st ≠ .none) : ((s.onAcct a f).acct a).state ≠ st := by
  rw [State.acct_onAcct]
  split
  · exact hf _
  · next out =>
    intro h
    exact out ⟨rfl, acct_lt (by rw [h]; exact fresh)⟩

theorem settleAcct_settled (a : Nat) (s : State) :
    ((settleAcct a s).acct a).state ≠ .stopping ∧ (settleAcct a s).pkgs = s.pkgs := by
  have entered : ∀ s : State, ((enterEnabled a s).acct a).state ≠ .stopping ∧ (enterEnabled a s).pkgs = s.pkgs := fun s => by
    have state := onAcct_state_ne (a := a) (f := fun x => { x with state := .enabled }) (st := .stopping) s (fun _ => nofun) (by decide)
    unfold enterEnabled
    dsimp only
    split <;> exact ⟨state, rfl⟩
  unfold settleAcct
  dsimp only
  split
  · exact ⟨onAcct_state_ne _ (fun _ => nofun) (by decide), rfl⟩
  · split
    · exact ⟨onAcct_state_ne _ (fun _ => nofun) (by decide), rfl⟩
    · exact entered _

/-- No package of the account outlives its stop. -/
theorem stopWork_pkgs (a : Nat) (s : State) : ∀ p ∈ (stopWork a s).pkgs, p.id.acct.toNat ≠ a := by
  unfold stopWork
  dsimp only
  intro p hp
  have kept : ∀ l : List Pkg, p ∈ l.filter (fun p => p.id.acct.toNat != a) → p.id.acct.toNat ≠ a := fun _ h => by
    simpa using (List.mem_filter.1 h).2
  split at hp <;> exact kept _ hp

theorem functionStopDone_ends {a : BitVec 10} {s : State} (stopping : (s.acct a.toNat).state = .stopping) :
    ∃ t, exec (.functionStopDone a) s = .next t ∧ (t.acct a.toNat).state ≠ .stopping ∧
      (∀ w ∈ t.mail.waiting, w.key ≠ .acctStop a.toNat) ∧ (∀ p ∈ t.pkgs, p.id.acct.toNat ≠ a.toNat) := by
  have run : exec (.functionStopDone a) s = .next (finishWait (.acctStop a.toNat) .ok [] (settleAcct a.toNat (stopWork a.toNat
      (settleWipe a.toNat (finishAll a.toNat .functionDisabled (endCancelled a.toNat s)))))) := by
    change execFunctionStopDone a s = _
    rw [execFunctionStopDone, stopping]
    rfl
  generalize settleWipe a.toNat (finishAll a.toNat .functionDisabled (endCancelled a.toNat s)) = u at run
  obtain ⟨state, pkgs⟩ := settleAcct_settled a.toNat (stopWork a.toNat u)
  have told := finishWait_onlyMail (.acctStop a.toNat) .ok [] (settleAcct a.toNat (stopWork a.toNat u))
  refine ⟨_, run, ?_, finishWait_none, ?_⟩
  · obtain ⟨_, _, told⟩ := told
    rw [told]
    exact state
  · rw [told.pkgs, pkgs]
    exact stopWork_pkgs _ _

/-- Settles O51: what follows a reset (light, HEALTH frames, the start of an account's stop) leaves what the reset has set. -/
theorem resetsStartUpAndFunctionsTakeEffect : Obligations.ResetsStartUpAndFunctionsTakeEffect := by
  unfold Obligations.ResetsStartUpAndFunctionsTakeEffect
  exact ⟨fun s => ⟨powerInputLoss_leaves, thermalTrip_leaves, powerInputEnter_starts, fun _ => mailboxReady_ends, fun x running =>
      ⟨firmwareReady_done running, firmwareReady_fails running, fun _ _ _ => opticsGroupRelit_next running⟩, mailboxResumed_unpaused s⟩,
    fun _ _ => functionLevelReset_resets, fun port s on => ⟨hotReset_resets on port, linkDisable_down on port, fun num there =>
      ⟨vfDisable_lowers on port there num, vfEnable_raises on port there num⟩⟩, fun _ _ stopping _ => functionStopDone_ends stopping⟩

end Sys2Proof.Machine
end

section
/-!
PROOFS. The numerics monitors and the event counters (19 R552 to R566): an entry of a table after it is set, the largest of what the
parts of a job have sent, and how a counter goes on.
-/
namespace Sys2Proof.Machine

/-! ## Tables -/

/-- Setting a key leaves every other as it was. -/
@[simp] theorem tget_tset_ne {α : Type} (t : Tbl α) {j k : Nat} (v : α) (h : j ≠ k) : tget (tset t k v) j = tget t j := by
  have apart : (j == k) = false := beq_eq_false_iff_ne.2 h
  unfold tget tset
  rw [lookup_append, List.lookup_cons, apart]
  rcases Nat.lt_or_gt_of_ne h with below | above
  · rw [lookup_filter_eq t _ j fun _ => decide_eq_true below,
      lookup_filter_none t _ j fun _ => decide_eq_false (Nat.lt_asymm below), Option.or_none]
  · rw [lookup_filter_none t _ j fun _ => decide_eq_false (Nat.lt_asymm above),
      lookup_filter_eq t _ j fun _ => decide_eq_true above, Option.none_or]

/-! ## The commands on monitors (R563, R565, R566) -/

section
variable {c : Cmd} {s u : State}

theorem execNumRead_returns (h : Runs 0xA18 c s u) (tail : cmdTail c 0 = true) :
    execNumRead c s = .next (complete c 0xA18 .ok
      (leBytes 8 u.mtime.toNat ++ (u.acct (cmdA c)).num.flatMap fun m => leBytes 8 m.toNat) u) :=
  runCmd_ok h (need_met tail rfl)

/-- MODEL 0 names the account's own table. -/
theorem amaxOf_zero {a m : Nat} (own : m = 0) : amaxOf u a m = some (u.acct a).amax := if_pos (beq_iff_eq.2 own)

/-- The entries of a table in a range of tensors. -/
def amaxIn (t : Tbl Amax) (first n : Nat) : Tbl Amax := t.filter fun x => decide (first ≤ x.1) && decide (x.1 < first + n)

theorem execNumAmaxRead_writes (h : Runs 0xA19 c s u) (tail : cmdTail c 24 = true) (zero : cmdZ c 2 2 = true)
    (zero' : cmdZ c 12 4 = true) (own : cmdU c 0 2 = 0) (nonempty : 0 < cmdU c 8 4) (few : cmdU c 8 4 ≤ 16384)
    (addr : addrOk (cmdU c 16 8) = true) (held : u.inAccount (cmdA c) (cmdU c 16 8) (16 * cmdU c 8 4) = true)
    (goes : u.writes (cmdU c 16 8) (16 * cmdU c 8 4) = true) :
    execNumAmaxRead c s = .next (complete c 0xA19 .ok
      (leBytes 4 (amaxIn (u.acct (cmdA c)).amax (cmdU c 4 4) (cmdU c 8 4)).length)
      (u.give (cmdA c) (cmdU c 16 8) ((amaxIn (u.acct (cmdA c)).amax (cmdU c 4 4) (cmdU c 8 4)).flatMap amaxRecord))) := by
  have fields : (!cmdTail c 24 || !cmdZ c 2 2 || !cmdZ c 12 4 || cmdU c 8 4 == 0 || decide (16384 < cmdU c 8 4) ||
      !addrOk (cmdU c 16 8)) = false := by
    simp [tail, zero, zero', addr, Nat.ne_of_gt nonempty, few]
  refine runCmd_ok h (check_passed fields ?_)
  simp only [amaxOf_zero own]
  exact writeFor_ok _ held goes

/-- The state in which the PREV of an account's entry is set. -/
def amaxSet (a tid w : Nat) (e : Amax) (u : State) : State :=
  u.onAcct a fun x => { x with amax := tset x.amax tid { e with prev := BitVec.ofNat 32 w } }

theorem amaxSet_amax {a : Nat} (there : a < u.ten.accts.length) (tid w : Nat) (e : Amax) :
    ((amaxSet a tid w e u).acct a).amax = tset (u.acct a).amax tid { e with prev := BitVec.ofNat 32 w } := by
  rw [amaxSet, State.acct_onAcct, if_pos ⟨rfl, there⟩]

theorem execNumAmaxSet_sets {e : Amax} (h : Runs 0xA1A c s u) (tail : cmdTail c 16 = true) (zero : cmdZ c 2 2 = true)
    (zero' : cmdZ c 12 4 = true) (own : cmdU c 0 2 = 0) (finite : cmdU c 8 4 < 0x7F800000)
    (entry : tget (u.acct (cmdA c)).amax (cmdU c 4 4) = some e) (idle : modelBusy u (cmdA c) 0 = false) :
    execNumAmaxSet c s = .next (complete c 0xA1A .ok [] (amaxSet (cmdA c) (cmdU c 4 4) (cmdU c 8 4) e u)) := by
  have fields : (!cmdTail c 16 || !cmdZ c 2 2 || !cmdZ c 12 4 || decide (0x7F800000 ≤ cmdU c 8 4)) = false := by
    simp [tail, zero, zero', finite]
  have known : (tget (u.acct (cmdA c)).amax (cmdU c 4 4)).isNone = false := by rw [entry]; rfl
  have prior : tgetD (u.acct (cmdA c)).amax (cmdU c 4 4) ⟨0, 0, 0⟩ = e := congrArg (Option.getD · _) entry
  refine runCmd_ok h (check_passed fields ?_)
  simp only [amaxOf_zero own]
  refine check_passed known (check_passed (by rw [own]; exact idle) ((if_pos (beq_iff_eq.2 own)).trans ?_))
  refine congrArg (Res.done .ok []) (onAcct_congr ?_)
  rw [prior]

theorem execNumAmaxRoll_rolls (h : Runs 0xA1B c s u) (tail : cmdTail c 0 = true) (idle : modelBusy u (cmdA c) 0 = false) :
    execNumAmaxRoll c s = .next (complete c 0xA1B .ok (leBytes 4 (u.acct (cmdA c)).amax.length)
      (u.onAcct (cmdA c) fun a => { a with amax := (u.acct (cmdA c)).amax.map fun x =>
        (x.1, { x.2 with prev := x.2.cur, cur := 0 }) })) :=
  runCmd_ok h (need_met tail (check_passed idle rfl))

end

/-! ## The roll of a model's entry (R424, R565) -/

theorem wordMax_toNat (a b : Word) : (wordMax a b).toNat = max a.toNat b.toNat := by
  unfold wordMax
  split <;> omega

theorem wordMax_eq_or (a b : Word) : wordMax a b = a ∨ wordMax a b = b := by
  unfold wordMax
  split
  · exact .inr rfl
  · exact .inl rfl

/-- The largest of some words is one of them, and none of them is larger. -/
theorem foldl_wordMax (l : List Word) (a : Word) : (l.foldl wordMax a = a ∨ l.foldl wordMax a ∈ l) ∧
    a.toNat ≤ (l.foldl wordMax a).toNat ∧ ∀ x ∈ l, x.toNat ≤ (l.foldl wordMax a).toNat := by
  induction l generalizing a with
  | nil => exact ⟨.inl rfl, le_rfl, nofun⟩
  | cons b l ih =>
    obtain ⟨is, low, all⟩ := ih (wordMax a b)
    rw [wordMax_toNat] at low
    refine ⟨?_, (le_max_left ..).trans low, List.forall_mem_cons.2 ⟨(le_max_right ..).trans low, all⟩⟩
    rcases is with is | is
    · exact (wordMax_eq_or a b).imp is.trans fun e => is.trans e ▸ List.mem_cons_self
    · exact .inr (List.mem_cons_of_mem _ is)

/-- What the joined parts of a job have sent. -/
def heardFrom (s : State) (job : Word) (others : List (BitVec 13 × Word)) : List Word :=
  (others.filter fun x => (s.joinedBy job x.1).isSome).map (·.2)

/-- A model's entry that has rolled, to a maximum. -/
def rolledTo (t : Nat) (top : Word) (x : Model) : Model :=
  { x with amax := tset x.amax t ⟨0, top, BitVec.ofNat 64 x.w.epoch⟩, unrolled := x.unrolled.filter (· != t) }

/-- The state in which the part has told its job its own maximum, and has discarded what parts that are not joined sent. -/
def maximumTold (m : Model) (t : Nat) (others : List (BitVec 13 × Word)) (s : State) : State :=
  let u := (others.filter fun x => !(s.joinedBy m.map.job x.1).isSome).foldl (fun s _ => discardMsg s) s
  match u.jobOf m.map.acct m.map.job with
  | some j => sendParts j 9 (leBytes 2 m.map.num ++ leBytes 4 t ++ leBytes 4 (tgetD m.amax t ⟨0, 0, 0⟩).cur.toNat) u
  | none => u

theorem maximumTold_onlyTold (m : Model) (t : Nat) (others : List (BitVec 13 × Word)) (s : State) :
    OnlyTold s (maximumTold m t others s) := by
  unfold maximumTold
  extract_lets u
  have dropped : OnlyTold s u := .foldl (fun _ _ => discardMsg_onlyTold ..) _ _
  split
  · exact dropped.trans (.foldl (fun _ _ => launch_onlyTold ..) _ _)
  · exact dropped

/-- An entry that is still to roll, and that no resident package of an old epoch names, rolls. -/
theorem execAmaxRoll_rolls {slot : BitVec 6} {tid : Word} (others : List (BitVec 13 × Word)) {s : State} {m : Model}
    (hm : s.model slot.toNat = some m) (due : tid.toNat ∈ m.unrolled)
    (young : ∀ p ∈ s.pkgs, p.resident = true → p.model = m.map.num → p.id.acct.toNat = m.map.acct → p.epoch ≠ 0 →
      p.epoch.toNat ≠ m.w.epoch → tid.toNat ∉ p.tensors) :
    execAmaxRoll slot tid others s = .next ((maximumTold m tid.toNat others s).onModel slot.toNat (rolledTo tid.toNat
      ((heardFrom s m.map.job others).foldl wordMax (tgetD m.amax tid.toNat ⟨0, 0, 0⟩).cur))) := by
  have rolls : (!m.unrolled.contains tid.toNat || s.pkgs.any fun p => p.resident && p.model == m.map.num &&
      p.id.acct.toNat == m.map.acct && p.epoch != 0 && p.epoch.toNat != m.w.epoch && p.tensors.contains tid.toNat) = false := by
    simpa [due] using young
  rw [execAmaxRoll, hm]
  exact check_passed rolls rfl

/-! ## How a counter goes on (R552, R555, R557, R558) -/

/-- A counter is enabled for a source, its filter's account has not been destroyed, and an event passes its filters. -/
def Counter.Passes (k : Counter) (src : Nat) (acct unit : Option Nat) : Prop :=
  k.en = true ∧ k.dead = false ∧ k.src.toNat = src ∧ (k.afilt = true → acct = some k.account.toNat) ∧
    (k.ufilt = true → unit = some k.unit.toNat)

section
variable {k : Counter} {src n : Nat} {acct unit : Option Nat}

theorem Counter.passes_iff : k.Passes src acct unit ↔ (k.en && !k.dead && k.src.toNat == src &&
    (!k.afilt || acct == some k.account.toNat) && (!k.ufilt || unit == some k.unit.toNat)) = true := by
  have filter : ∀ (b : Bool) (x y : Option Nat), (!b || x == y) = true ↔ (b = true → x = y) := fun b x y => by
    cases b <;> simp
  simp only [Bool.and_eq_true, filter, Bool.not_eq_true', beq_iff_eq, Counter.Passes, and_assoc]

theorem Counter.see_passing (h : k.Passes src acct unit) : k.see src acct unit n = k.count n := if_pos (passes_iff.1 h)

theorem Counter.see_other (h : ¬ k.Passes src acct unit) : k.see src acct unit n = k := if_neg (h ∘ passes_iff.2)

theorem Counter.count_value : (k.count n).value.toNat = (k.value.toNat + n) % 2 ^ 48 := BitVec.toNat_ofNat ..

theorem Counter.count_ovf : (k.count n).ovf = true ↔ k.ovf = true ∨ 2 ^ 48 ≤ k.value.toNat + n := by
  rw [Counter.count, Bool.or_eq_true, decide_eq_true_iff]

end

/-- A counter that does not count unseen. -/
theorem Counter.goOn_seen {k : Counter} (h : k.en = false ∨ k.dead = true ∨ unseenSource k.src.toNat = false) (n : Nat) :
    k.goOn n = (k, n) := by
  refine if_neg (ne_true_of_eq_false ?_)
  rcases h with h | h | h <;> simp [h]

theorem foldl_goOn_seen {l : List Counter} (h : ∀ k ∈ l, k.en = false ∨ k.dead = true ∨ unseenSource k.src.toNat = false)
    (done : List Counter) (n : Nat) :
    l.foldl (fun r c => (r.1 ++ [(c.goOn r.2).1], (c.goOn r.2).2)) (done, n) = (done ++ l, n) := by
  induction l generalizing done with
  | nil => rw [List.foldl_nil, List.append_nil]
  | cons k l ih =>
    obtain ⟨here, rest⟩ := List.forall_mem_cons.1 h
    rw [List.foldl_cons, Counter.goOn_seen here, ih rest, List.append_assoc]
    rfl

/-- Setting the counters of a scope to what they are changes none of them. -/
theorem countersOf_set_self (s : State) (scope : Nat) :
    (s.onCounters scope fun _ => s.countersOf scope).countersOf scope = s.countersOf scope := by
  rw [State.onCounters, State.countersOf, getD_lmod]
  split <;> rfl

/-- Looking at a scope that the model sees changes nothing of it, and uses no free value. -/
theorem countUnseen_seen {scope : Nat} {s : State}
    (h : ∀ k ∈ s.countersOf scope, k.en = false ∨ k.dead = true ∨ unseenSource k.src.toNat = false) :
    (countUnseen scope s).countersOf scope = s.countersOf scope ∧ (countUnseen scope s).freeCtr = s.freeCtr := by
  unfold countUnseen
  rw [foldl_goOn_seen h]
  exact ⟨countersOf_set_self s scope, rfl⟩

/-- Settles O15: each command passes its checks, the roll of an entry takes the largest of what was heard, and a counter counts what
passes it. -/
theorem numericsMonitorsTakeEffect : Obligations.NumericsMonitorsTakeEffect := by
  unfold Obligations.NumericsMonitorsTakeEffect
  refine ⟨?read, ?amaxRead, ?amaxSet, ?amaxRoll, ?modelRoll, ?counter, fun _ _ => countUnseen_seen⟩
  case read => exact fun _ _ _ => execNumRead_returns
  case amaxRead =>
    intro c s u h tail zero zero' own nonempty few addr held goes rs
    exact execNumAmaxRead_writes h tail zero zero' own nonempty few addr held goes
  case amaxSet =>
    intro c s u e h tail zero zero' own finite entry idle there
    refine ⟨_, execNumAmaxSet_sets h tail zero zero' own finite entry idle, ?_, fun k apart => ?_, rfl⟩
    · rw [amaxSet_amax there, tget_tset_same]
    · rw [amaxSet_amax there, tget_tset_ne _ _ apart]
  case amaxRoll => exact fun _ _ _ => execNumAmaxRoll_rolls
  case modelRoll =>
    intro slot tid others s m hm due young
    have told := maximumTold_onlyTold m tid.toNat others s
    have model : (maximumTold m tid.toNat others s).model slot.toNat = some m := by rw [State.model, told.models]; exact hm
    obtain ⟨is, low, all⟩ := foldl_wordMax (heardFrom s m.map.job others) (tgetD m.amax tid.toNat ⟨0, 0, 0⟩).cur
    refine ⟨_, _, execAmaxRoll_rolls others hm due young, model_onModel_same model _,
      ⟨_, tget_tset_same .., rfl, rfl, is, low, all⟩, ?_, told.mem⟩
    exact fun kept => by simpa using (List.mem_filter.1 kept).2
  case counter =>
    intro k src n acct unit passes
    refine ⟨fun h => ?_, Counter.see_other⟩
    rw [Counter.see_passing h]
    exact ⟨Counter.count_value, Counter.count_ovf, rfl⟩

end Sys2Proof.Machine
end

section
/-!
PROOFS. Collectives (13 R411 to R424): one equation for each way in which a PUT, a contribution, the end of a round or a rerun
request goes.
-/
namespace Sys2Proof.Machine

/-! ## PUT (R411, R414, R417) -/

section
variable {s : State} {acct drop off : Nat} {data : Bytes} {js : JobSlot} {r : Drop}

/-- Bytes within a drop whose memory is written without error land, and the drop's semaphore is signalled. -/
theorem landPut_lands (hr : tget js.drops drop = some r) (fits : off + data.length ≤ 64 * r.len)
    (goes : s.writes (r.base + off) data.length = true) : landPut acct js drop off data s =
      some (signalAcct acct r.sem ((s.charge .fabric acct [(r.base + off, data.length)]).write (r.base + off) data)) := by
  have within : (decide (64 * r.len < off + data.length) || !s.writes (r.base + off) data.length) = false := by simp [fits, goes]
  rw [landPut, hr]
  exact check_passed within rfl

end

/-- A PUT to this part itself lands in the drop once its messages have crossed and its source has been read. -/
theorem execPut_here {d : DescId} {s : State} {p : Pkg} {x : Desc} {c : Coll} {n : Nat} {js : JobSlot} {r : Drop} {nn : Noc}
    (hd : s.desc d = some (p, x)) (kind : x.kind = 5) (hc : collOf x.raw = c) (hn : 64 * c.count = n) (op : c.op = 1)
    (started : x.state = .started) (fresh : x.progress = 0) (running : p.running = true)
    (hjs : s.jobSlot d.pkg.acct.toNat c.jslot = some js) (here : c.peer = js.part) (hr : tget js.drops c.drop = some r)
    (len : (s.readFor p.epoch.toNat c.src n).length = n) (fits : c.dst + n ≤ 64 * r.len)
    (clear : s.meets (s.spotsFor p.epoch.toNat c.src n) = .clear) (goes : s.writes (r.base + c.dst) n = true)
    (crosses : s.chip.noc.crossAll (dataMsgs (p.die x) [(r.base + c.dst, n)]) = some nn) :
    execPut d s = .next ((signalAcct d.pkg.acct.toNat r.sem ((((((crossed s nn).charge .fabric d.pkg.acct.toNat
      (s.spotsFor p.epoch.toNat c.src n)).meter d.pkg.acct.toNat 8 (hostLen c.src n) (p.die x))).charge .fabric d.pkg.acct.toNat
        [(r.base + c.dst, n)]).write (r.base + c.dst) (s.readFor p.epoch.toNat c.src n))).onDesc d
          fun x => { x with progress := 1 }) := by
  subst hc hn
  have due : (x.kind != 5 || (collOf x.raw).op != 1 || x.state != .started || x.progress != 0 || !p.running) = false := by
    simp [kind, op, started, fresh, running]
  have self : ((collOf x.raw).peer == js.part) = true := beq_iff_eq.2 here
  have lands := landPut_lands (acct := d.pkg.acct.toNat) (s := ((crossed s nn).charge .fabric d.pkg.acct.toNat
    (s.spotsFor p.epoch.toNat (collOf x.raw).src (64 * (collOf x.raw).count))).meter d.pkg.acct.toNat 8
      (hostLen (collOf x.raw).src (64 * (collOf x.raw).count)) (p.die x)) hr (by rw [len]; exact fits) (by rw [len]; exact goes)
  rw [len] at lands
  rw [execPut, hd]
  refine check_passed due ?_
  rw [hjs]
  refine check_passed (by rw [bne, self]; rfl) (congrArg Host.Outcome.next ?_)
  simp only [hr, self, if_true]
  rw [carry_crosses _ crosses]
  have clear : (crossed s nn).meets ((crossed s nn).spotsFor p.epoch.toNat (collOf x.raw).src (64 * (collOf x.raw).count)) =
      .clear := clear
  refine (workReads_clear _ clear).trans ?_
  split
  · next lost => exact absurd (lost.symm.trans lands) nofun
  · next u landed => rw [Option.some.inj (landed.symm.trans lands)]

/-! ## Contributions (R418) -/

/-- A descriptor of a collective whose seat exists, whose die reaches the other parts, and whose round this member has not joined,
joins the round and contributes to it. -/
theorem collectRow_joins {op : Nat} {d : DescId} {s : State} {p : Pkg} {x : Desc} {t : Seat} {c : Coll} {base : Int}
    (hd : s.desc d = some (p, x)) (kind : x.kind = 5) (started : x.state = .started) (fresh : x.progress = 0)
    (running : p.running = true) (hc : collOf x.raw = c) (hb : (if c.arith = 1 then p.anchor s c.anchor c.tensor else 0) = base)
    (seat : seatOf s p x c = some t) (unjoined : s.roundOf t.slot.job c (p.die x) = none)
    (reaches : t.reaches (p.die x) s = true) (hop : c.op = op) :
    let r : Round := ⟨t.slot.job, c.group, c.cid, c.round, p.die x, d, base, 0,
      List.replicate (if c.arith = 1 then c.count else 0) none, [], none, false, [], .none⟩
    collectRow op d s = .next (contribute p x c t r (s.onFabric fun f => { f with rounds := f.rounds ++ [r] })) := by
  subst hc hb hop
  have due : (x.kind != 5 || (collOf x.raw).op != (collOf x.raw).op || x.state != .started || x.progress != 0 || !p.running) =
      false := by
    simp [kind, started, fresh, running]
  intro r
  rw [collectRow, hd]
  refine check_passed due ?_
  rw [seat]
  dsimp only
  rw [unjoined]
  refine need_met reaches ?_
  simp only [beq_iff_eq]
  rfl

/-! ## The end of a round (R418 to R420) -/

theorem untag_self (tag : Bytes) : untag tag tag = some [] := by
  rw [untag, List.take_length, beq_self_eq_true, if_pos rfl, List.drop_length]

/-- Every member's contribution to a barrier is its tag alone. -/
theorem allSome_untag_self {α : Type} (l : List α) (tag : Bytes) :
    ((l.map fun _ => tag).map (untag tag)).allSome = some (l.map fun _ => []) := by
  induction l with
  | nil => rfl
  | cons x l ih =>
    rw [List.allSome] at ih ⊢
    rw [List.map_cons, List.map_cons, untag_self, List.mapM_cons, ih]
    rfl

/-- Contributions without bytes are what a barrier asks for. -/
theorem plainOk_barrier {α : Type} {c : Coll} (op : c.op = 6) (t : Seat) (l : List α) :
    plainOk c t (l.map fun _ => []) = true := by simp [plainOk, op]

section
variable {d : DescId} {others : List (Nat × Bytes)} {s : State} {p : Pkg} {x : Desc} {t : Seat} {r : Round}
  (hd : s.desc d = some (p, x)) (kind : x.kind = 5) (resident : p.resident = true) (goesOn : p.state ≠ .stopping)
  (seat : seatOf s p x (collOf x.raw) = some t) (joined : s.roundOf t.slot.job (collOf x.raw) (p.die x) = some r)

include hd kind resident goesOn seat joined

/-- A round that has completed delivers its kept result. -/
theorem execRoundComplete_delivers {b : Bytes} (kept : r.result = some b) (started : x.state = .started) (fresh : x.progress = 0) :
    execRoundComplete d others s = .next (deliver d (collOf x.raw) b s) := by
  simp [execRoundComplete, hd, kind, resident, goesOn, seat, joined, kept, started, fresh]

/-- A barrier's round that every member has contributed to completes with result 0. -/
theorem execRoundComplete_barrier (running : r.result = none) (op : (collOf x.raw).op = 6) (arith : (collOf x.raw).arith = 0)
    (sent : r.pass < r.sent.length) (all : gather s p (collOf x.raw) t r others =
      some (t.members.map fun _ => roundTag (collOf x.raw) t.members (passAnchor r.base r.pass))) :
    execRoundComplete d others s = .next (finishRound d (collOf x.raw) t (p.die x) 0 [] s) := by
  have output : plainOutput (collOf x.raw) t (t.members.map fun _ => []) = [] := by simp [plainOutput, op]
  have due : (x.kind != 5 || !p.resident || p.state == .stopping) = false := by simp [kind, resident, goesOn]
  have contributed : decide (r.sent.length ≤ r.pass) = false := decide_eq_false (Nat.not_le.2 sent)
  have plain : ((collOf x.raw).arith == 1) = false := by rw [arith]; rfl
  rw [execRoundComplete, hd]
  refine check_passed due ?_
  rw [seat]
  dsimp only
  rw [joined]
  dsimp only
  rw [running]
  simp only [contributed, Bool.false_and, Bool.false_eq_true, if_false, all, allSome_untag_self]
  refine check_passed plain (need_met (plainOk_barrier op ..) ?_)
  rw [output]

end

/-! ## Messages of other parts (R411, R414, R424) -/

section
variable {src : BitVec 13} {job : Word} {s : State}

theorem execPutLanded_stranger {drop : BitVec 6} {off : Nat} {data : Bytes} (stranger : s.recipient src.toNat job = none) :
    execPutLanded src job drop off data s = .next (discardMsg s) := by rw [execPutLanded, stranger]

theorem execPutLanded_lands {drop : BitVec 6} {off acct : Nat} {data : Bytes} {js : JobSlot} {r : Drop}
    (joined : s.recipient src.toNat job = some (acct, js)) (hr : tget js.drops drop.toNat = some r)
    (fits : off + data.length ≤ 64 * r.len) (goes : s.writes (r.base + off) data.length = true) :
    execPutLanded src job drop off data s = .next (wakeUp (signalAcct acct r.sem
      ((s.charge .fabric acct [(r.base + off, data.length)]).write (r.base + off) data))) := by
  rw [execPutLanded, joined]
  dsimp only
  rw [landPut_lands hr fits goes]

variable {rkey : Word} {pass : BitVec 2} {acct : Nat} {js : JobSlot} {u : State}

theorem execRerunRequest_stranger (stranger : s.recipient src.toNat job = none) :
    execRerunRequest src job rkey pass s = .next (discardMsg s) := by rw [execRerunRequest, stranger]

/-- A part that holds no producer under an RKEY says so. -/
theorem execRerunRequest_none (joined : s.recipient src.toNat job = some (acct, js)) (hu : wakeUp s = u)
    (new : (⟨src.toNat, job, rkey, pass.toNat⟩ : Owed) ∉ u.chip.fabric.owed)
    (nobody : linkedProducers u (BitVec.ofNat 10 acct) rkey = []) :
    execRerunRequest src job rkey pass s = .next (tellRerun ⟨src.toNat, job, rkey, pass.toNat⟩ false u) := by
  simp [execRerunRequest, joined, hu, new, nobody]

/-- The producers of one package run again at the anchor of the pass that their own anchor word gives (R65, R185). -/
theorem execRerunRequest_reruns {q : Pkg} {g : Nat} {y : Desc} (joined : s.recipient src.toNat job = some (acct, js))
    (hu : wakeUp s = u) (new : (⟨src.toNat, job, rkey, pass.toNat⟩ : Owed) ∉ u.chip.fabric.owed)
    (one : linkedProducers u (BitVec.ofNat 10 acct) rkey = [(q, g)]) (held : producerGone u (BitVec.ofNat 10 acct) rkey = false)
    (ran : q.produced g = true) (first : (q.descs.find? fun y => y.produces g) = some y) (tile : y.kind = 1) :
    let o : Owed := ⟨src.toNat, job, rkey, pass.toNat⟩
    let r := rerunGroup q g pass.toNat (passAnchor (q.anchor u y.anchorWord y.tensorId) pass.toNat) ⟨u, false, true⟩
    execRerunRequest src job rkey pass s = .next (if r.ok then
      answerOne (r.state.onFabric fun f => { f with owed := f.owed ++ [o] }) o else r.state) := by
  intro o r
  have share : rerunShare pass.toNat ⟨u, false, true⟩ (q, g) = r := by simp [rerunShare, first, tile, r]
  have fresh : u.chip.fabric.owed.contains o = false := by simpa using new
  rw [execRerunRequest, joined]
  simp only [hu, one]
  refine check_passed fresh (check_passed held (check_passed (by simp [ran]) ?_))
  rw [List.foldl_cons, List.foldl_nil, share]
  cases r.ok <;> rfl

end

/-- Settles O22: each row goes as its equation above says. -/
theorem collectivesTakeEffect : Obligations.CollectivesTakeEffect := by
  unfold Obligations.CollectivesTakeEffect
  refine ⟨?put, ?contribute, ?complete, ?landed, ?rerun⟩
  case put =>
    intro d s p x js r nn hd kind c n acct op started fresh running hjs here hr len fits clear goes crosses
    exact execPut_here hd kind rfl rfl op started fresh running hjs here hr len fits clear goes crosses
  case contribute =>
    intro d s p x t hd kind started fresh running c base r v seat unjoined reaches
    have joins : ∀ op, c.op = op → collectRow op d s = .next v := fun op =>
      collectRow_joins hd kind started fresh running rfl rfl seat unjoined reaches
    exact ⟨joins 2, joins 3, joins 4, joins 5, joins 6⟩
  case complete =>
    intro d others s p x t r hd kind resident goesOn seat joined
    exact ⟨fun b => execRoundComplete_delivers hd kind resident goesOn seat joined,
      execRoundComplete_barrier hd kind resident goesOn seat joined⟩
  case landed =>
    exact fun src job drop off data s => ⟨fun _ _ _ => execPutLanded_lands, execPutLanded_stranger⟩
  case rerun =>
    intro src job rkey pass s
    exact ⟨execRerunRequest_stranger, fun _ _ _ _ _ joined => execRerunRequest_reruns joined rfl,
      fun _ _ joined => execRerunRequest_none joined rfl⟩

end Sys2Proof.Machine
end

section
/-!
PROOFS. Fabric addresses, routes and messages (13 R400 to R411): the frame that begins a round, the routes that a command sets and
that what follows a change of routes keeps, and one equation for each way a message goes.
-/
namespace Sys2Proof.Machine

/-! ## A round of enumeration (R400) -/

/-- The first byte of a frame is its type. -/
theorem fieldAt_sealFrame (b : Byte) (bs : Bytes) : fieldAt (sealFrame (b :: bs)) 0 1 = b.toNat := rfl

/-- A module with an address sends the frame. -/
theorem sendFrame_sends {s : State} {a : Nat} (addr : s.chip.fabric.addr = some a) (type dst : Nat) (payload : Bytes) :
    ∃ fr, (sendFrame type dst payload s).out = s.out ++ [.beacon fr] ∧ fieldAt fr 0 1 = type % 256 := by
  unfold sendFrame
  rw [addr]
  exact ⟨_, rfl, (fieldAt_sealFrame ..).trans (BitVec.toNat_ofNat ..)⟩

section
variable {c : Cmd} {s u : State}

/-- The state of an origin that has begun the next round of enumeration. -/
def roundBegun (u : State) : State :=
  u.onFabric fun f => { f with addr := some 0, round := f.round + 1, enumSent := some u.mtime }

theorem execFabOrigin_begins (h : Runs 0xB10 c s u) (tail : cmdTail c 0 = true) (right : u.hasModRight (cmdA c) = true)
    (first : u.chip.fabric.addr = none ∨ u.chip.fabric.addr = some 0) :
    ∃ payload, execFabOrigin c s = .next (waitsFor c 0xB10 .enum (sendFrame 1 0x8000 payload (roundBegun u))) := by
  have origin : ((u.chip.fabric.addr.getD 0) != 0) = false := by rcases first with e | e <;> rw [e] <;> rfl
  exact ⟨enumPayload 0 false (roundBegun u).chip.fabric.round (if u.chip.fabric.addr.isNone then 1 else 0),
    runCmd_wait h (need_met tail (need_met right (check_passed origin rfl)))⟩

theorem execFabAddrQuery_returns (h : Runs 0xB11 c s u) (tail : cmdTail c 0 = true) :
    execFabAddrQuery c s = .next (complete c 0xB11 .ok
      (leBytes 2 (addrWord u.chip.fabric.addr) ++ [0, 0] ++ leBytes 4 u.chip.fabric.lastRound.toNat) u) :=
  runCmd_ok h (need_met tail rfl)

end

/-! ## What a change of routes brings about keeps them (R231, R404, R408) -/

/-- Two states with the same routes and the same memory. -/
structure SameRoutes (s t : State) : Prop where
  routes : t.chip.fabric.routes = s.chip.fabric.routes
  mem : t.mem = s.mem

theorem SameRoutes.refl (s : State) : SameRoutes s s := ⟨rfl, rfl⟩

theorem SameRoutes.trans {s t u : State} (h : SameRoutes s t) (g : SameRoutes t u) : SameRoutes s u :=
  ⟨g.routes.trans h.routes, g.mem.trans h.mem⟩

theorem SameRoutes.foldl {α : Type} {f : State → α → State} (h : ∀ s x, SameRoutes s (f s x)) (l : List α) (s : State) :
    SameRoutes s (l.foldl f s) := List.foldlRecOn l f (.refl s) fun _ hs x _ => hs.trans (h _ x)

theorem OnlyMail.sameRoutes {s t : State} (h : OnlyMail s t) : SameRoutes s t := by
  obtain ⟨_, _, rfl⟩ := h
  exact ⟨rfl, rfl⟩

theorem launch_sameRoutes (w : Waiter) (s : State) : SameRoutes s (launch w s) := by
  unfold launch
  split <;> exact ⟨rfl, rfl⟩

theorem flushWaits_sameRoutes (s : State) : SameRoutes s (flushWaits s) :=
  .trans (t := s.onFabric fun f => { f with waits := [] }) ⟨rfl, rfl⟩ (.foldl (fun _ _ => launch_sameRoutes ..) _ _)

theorem num_sameRoutes (a i n : Nat) (s : State) : SameRoutes s (s.num a i n) := ⟨rfl, rfl⟩

theorem bump_sameRoutes (src die : Nat) (a u : Option Nat) (n : Nat) (s : State) : SameRoutes s (s.bump src die a u n) :=
  ⟨rfl, rfl⟩

theorem onModel_sameRoutes (slot : Nat) (f : Model → Model) (s : State) : SameRoutes s (s.onModel slot f) := ⟨rfl, rfl⟩

theorem dropRunning_sameRoutes (p : Nat) (s : State) : SameRoutes s (dropRunning p s) := ⟨rfl, rfl⟩

theorem took_sameRoutes (a : Nat) (rs : List (Nat × Nat)) (s : State) : SameRoutes s (s.took a rs) := ⟨rfl, rfl⟩

theorem countConds_sameRoutes (acct die : Nat) (unit : Option Nat) (c : Conds) (s : State) :
    SameRoutes s (countConds acct die unit c s) :=
  countConds_keeps (fun _ _ _ _ h => h.trans (num_sameRoutes ..)) (fun _ _ _ _ _ _ h => h.trans (bump_sameRoutes ..)) _ _ _ _
    (.refl s)

theorem sendWides_sameRoutes (m : Model) (layer : Nat) (ws : List Wide) (failed : List Nat) (s : State) :
    SameRoutes s (sendWides m layer ws failed s) := by
  unfold sendWides
  split
  · exact .refl s
  · exact ((num_sameRoutes ..).trans (bump_sameRoutes ..)).trans (.foldl (fun _ _ => launch_sameRoutes ..) _ _)

theorem tryCommit_sameRoutes (slot : Nat) (s : State) : SameRoutes s (tryCommit slot s) := by
  fun_cases tryCommit slot s
  case case4 =>
    exact (((countConds_sameRoutes ..).trans (sendWides_sameRoutes ..)).trans (onModel_sameRoutes ..)).trans
      (finishWait_onlyMail ..).sameRoutes
  all_goals exact .refl s

theorem tryRestoreEnd_sameRoutes (p slot : Nat) (s : State) : SameRoutes s (tryRestoreEnd p slot s) := by
  fun_cases tryRestoreEnd p slot s
  case case2 => exact ((onModel_sameRoutes ..).trans (dropRunning_sameRoutes ..)).trans (finishWait_onlyMail ..).sameRoutes
  all_goals exact .refl s

theorem routesChanged_sameRoutes (s : State) : SameRoutes s (routesChanged s) := by
  refine (flushWaits_sameRoutes s).trans (.trans (.foldl (fun _ _ => tryCommit_sameRoutes ..) _ _) (.foldl (fun s p => ?_) _ _))
  split
  · exact tryRestoreEnd_sameRoutes ..
  · exact .refl s

/-! ## The length of what is read, and of its pieces -/

/-- Where a run of a range in the quarter view begins. -/
def runStart (a i : Nat) : Nat := if i == 0 then a else (a / 8192 + i) * 8192

/-- The runs of a range in the quarter view join up: those up to a run reach its end. -/
theorem sum_runs (a n k : Nat) :
    ((List.range (k + 1)).map fun i => min ((runStart a i / 8192 + 1) * 8192) (a + n) - runStart a i).sum =
      min ((a / 8192 + k + 1) * 8192) (a + n) - a := by
  induction k with
  | zero => simp [runStart]
  | succ k ih =>
    have next : runStart a (k + 1) = (a / 8192 + (k + 1)) * 8192 := rfl
    rw [List.range_succ, List.map_append, List.sum_append, ih, List.map_singleton, List.sum_singleton, next]
    omega

/-- A range has the length of its runs. -/
theorem sum_pieces (a n : Nat) : ((pieces a n).map (·.2)).sum = n := by
  unfold pieces
  split
  · rw [List.map_map]
    cases runs : (a + n + 8191) / 8192 - a / 8192 with
    | zero =>
      have : n = 0 := by omega
      rw [this]
      rfl
    | succ k =>
      refine (sum_runs a n k).trans ?_
      omega
  · simp

@[simp] theorem State.length_read (s : State) (a n : Nat) : (s.read a n).length = n := by
  have run : ∀ p : Nat × Nat, (s.mem.bytes p.1 p.2).length = p.2 := fun p => by simp [Memory.bytes]
  rw [State.read, Memory.load, List.length_flatMap]
  simp only [run]
  exact sum_pieces a n

/-- A list that fills no more than `m` pieces has no more. -/
theorem length_chunks_le {α : Type} {n m : Nat} {l : List α} (h : l.length ≤ n * m) : (chunks n l).length ≤ m := by
  have fuelled : ∀ fuel (l : List α) (m : Nat), l.length ≤ n * m → (chunksFuel n fuel l).length ≤ m := by
    intro fuel
    induction fuel with
    | zero => exact fun _ m _ => Nat.zero_le m
    | succ fuel ih =>
      intro l m h
      unfold chunksFuel
      split
      · exact Nat.zero_le m
      · next full =>
        have nonempty : 0 < l.length := List.length_pos_iff.2 (by simpa using full)
        cases m with
        | zero => omega
        | succ m =>
          refine Nat.succ_le_succ (ih _ m ?_)
          rw [List.length_drop]
          rw [Nat.mul_succ] at h
          omega
  exact fuelled _ l m h

/-! ## The commands on routes (R404, R409) -/

/-- A route of a range that begins at an address is set. -/
def putRoute (first : Nat) (f : Fabric) (x : Option Route × Nat) : Fabric :=
  { f with routes := tset f.routes (first + x.2) (x.1.getD Route.none), removed := terase f.removed (first + x.2) }

/-- Routes outside the range stay. -/
theorem putRoutes_outside (first d : Nat) (rs : List (Option Route)) (i : Nat) (f : Fabric)
    (out : d < first + i ∨ first + i + rs.length ≤ d) :
    tget ((rs.zipIdx i).foldl (putRoute first) f).routes d = tget f.routes d := by
  induction rs generalizing i f with
  | nil => rfl
  | cons r rs ih =>
    rw [List.length_cons] at out
    rw [List.zipIdx_cons, List.foldl_cons, ih _ _ (by omega)]
    exact tget_tset_ne _ _ (by omega)

/-- Each route of the range is set to its own value. -/
theorem putRoutes_inside {first j : Nat} {r : Route} {rs : List (Option Route)} (h : rs[j]? = some (some r)) (i : Nat)
    (f : Fabric) : tget ((rs.zipIdx i).foldl (putRoute first) f).routes (first + i + j) = some r := by
  induction rs generalizing i j f with
  | nil => cases h
  | cons x rs ih =>
    rw [List.zipIdx_cons, List.foldl_cons]
    cases j with
    | zero =>
      cases h
      rw [putRoutes_outside _ _ _ _ _ (.inl (by omega))]
      exact tget_tset_same ..
    | succ j => exact (congrArg (tget _) (by omega)).trans (ih h (i + 1) _)

section
variable {c : Cmd} {s u : State} (tail : cmdTail c 16 = true) (zero : cmdZ c 4 4 = true) (range : addrRange c = true)
  (addr : addrOk (cmdU c 8 8) = true)

/-- The state in which a range of routes is set. -/
def routesPut (c : Cmd) (u : State) : State := u.onFabric fun f =>
  ((chunks 8 (u.read (cmdU c 8 8) (8 * cmdU c 2 2))).map routeOf).zipIdx.foldl (putRoute (cmdU c 0 2)) f

/-- The state in which what follows from them has happened too. -/
def routesSet (c : Cmd) (u : State) : State :=
  (routesChanged (routesPut c u)).took (cmdA c) [(cmdU c 8 8, 8 * cmdU c 2 2)]

include tail zero range addr

theorem routeFields_legal : (!cmdTail c 16 || !cmdZ c 4 4 || !addrRange c || !addrOk (cmdU c 8 8)) = false := by
  rw [tail, zero, range, addr]
  rfl

theorem execFabRouteSet_sets (h : Runs 0xB12 c s u) (held : u.inAccount (cmdA c) (cmdU c 8 8) (8 * cmdU c 2 2) = true)
    (right : u.hasModRight (cmdA c) = true) (goes : u.reads (cmdU c 8 8) (8 * cmdU c 2 2) = true)
    (legal : ∀ b ∈ chunks 8 (u.read (cmdU c 8 8) (8 * cmdU c 2 2)), routeOf b ≠ none) :
    execFabRouteSet c s = .next (complete c 0xB12 .ok [] (routesSet c u)) := by
  have legal : (((chunks 8 (u.read (cmdU c 8 8) (8 * cmdU c 2 2))).map routeOf).any Option.isNone) = false := by
    simpa [List.any_map, List.any_eq_false, Option.isSome_iff_ne_none] using legal
  refine runCmd_ok h (check_passed (routeFields_legal tail zero range addr) (need_met right (readFor_done held goes ?_)))
  exact check_passed legal rfl

theorem execFabRouteQuery_writes (h : Runs 0xB13 c s u) (held : u.inAccount (cmdA c) (cmdU c 8 8) (8 * cmdU c 2 2) = true)
    (goes : u.writes (cmdU c 8 8) (8 * cmdU c 2 2) = true) :
    execFabRouteQuery c s = .next (complete c 0xB13 .ok (leBytes 2 (cmdU c 2 2)) (u.give (cmdA c) (cmdU c 8 8)
      ((List.range (cmdU c 2 2)).flatMap fun i => (tgetD u.chip.fabric.routes (cmdU c 0 2 + i) Route.none).bytes))) :=
  runCmd_ok h (check_passed (routeFields_legal tail zero range addr) (writeFor_ok _ held goes))

end

theorem routesSet_sameRoutes (c : Cmd) (u : State) : SameRoutes (routesPut c u) (routesSet c u) :=
  (routesChanged_sameRoutes _).trans (took_sameRoutes ..)

theorem routesSet_inside {c : Cmd} {u : State} {i : Nat} {b : Bytes}
    (hb : (chunks 8 (u.read (cmdU c 8 8) (8 * cmdU c 2 2)))[i]? = some b) (legal : routeOf b ≠ none) :
    tget (routesSet c u).chip.fabric.routes (cmdU c 0 2 + i) = routeOf b := by
  obtain ⟨r, hr⟩ := Option.ne_none_iff_exists'.1 legal
  rw [(routesSet_sameRoutes c u).routes, hr]
  exact putRoutes_inside (by rw [List.getElem?_map, hb, ← hr]; rfl) 0 _

theorem routesSet_outside {c : Cmd} {d : Nat} (u : State) (out : d < cmdU c 0 2 ∨ cmdU c 0 2 + cmdU c 2 2 ≤ d) :
    tget (routesSet c u).chip.fabric.routes d = tget u.chip.fabric.routes d := by
  have few : ((chunks 8 (u.read (cmdU c 8 8) (8 * cmdU c 2 2))).map routeOf).length ≤ cmdU c 2 2 := by
    rw [List.length_map]
    exact length_chunks_le (State.length_read ..).le
  rw [(routesSet_sameRoutes c u).routes]
  exact putRoutes_outside _ _ _ 0 _ (by omega)

/-! ## Messages (R406, R410, R411) -/

/-- Waking the module changes its power state alone. -/
theorem wakeUp_eq (s : State) : ∃ f, wakeUp s = s.onPower f := by
  fun_cases wakeUp s
  · exact ⟨_, rfl⟩
  · exact ⟨_, rfl⟩
  · exact ⟨id, rfl⟩

/-- A job slot once a part's join has arrived: one with the same job, key digest and table counts the part as joined. -/
def JobSlot.heard (job : Word) (p : Nat) (digest : DWord) (table : List Nat) (js : JobSlot) : JobSlot :=
  if js.job == job && Config.jkeyDigest js.jkey == digest && js.table == table && !js.joined.contains p then
    { js with joined := js.joined ++ [p] }
  else js

theorem JobSlot.heard_joined {job : Word} {digest : DWord} {table : List Nat} {js : JobSlot} (hj : js.job = job)
    (hd : Config.jkeyDigest js.jkey = digest) (ht : js.table = table) (p : Nat) :
    p ∈ (js.heard job p digest table).joined ∧ ∀ q ∈ js.joined, q ∈ (js.heard job p digest table).joined := by
  subst hj hd ht
  by_cases known : p ∈ js.joined
  · have same : js.heard js.job p (Config.jkeyDigest js.jkey) js.table = js := by simp [JobSlot.heard, known]
    rw [same]
    exact ⟨known, fun _ h => h⟩
  · have added : js.heard js.job p (Config.jkeyDigest js.jkey) js.table = { js with joined := js.joined ++ [p] } := by
      simp [JobSlot.heard, known]
    rw [added]
    exact ⟨List.mem_concat_self, fun _ h => List.mem_append_left _ h⟩

/-- A join changes each job slot by what it hears, and nothing of memory. -/
theorem execJoinMessage_hears {job : Word} {part : BitVec 13} {digest : DWord} {table : List (BitVec 13)} {s : State}
    (on : s.off = false) : ∃ t, execJoinMessage job part digest table s = .next t ∧ t.mem = s.mem ∧
      t.chip.fabric.slots = s.chip.fabric.slots.map fun x => (x.1, x.2.heard job part.toNat digest (table.map (·.toNat))) := by
  refine ⟨_, congrArg Host.Outcome.next (State.whenOn_on _ on), ?_⟩
  have wakes : ∃ f, (if s.chip.fabric.slots.any fun x => x.2.job == job then wakeUp s else s) = s.onPower f := by
    split
    · exact wakeUp_eq s
    · exact ⟨id, rfl⟩
  obtain ⟨f, wakes⟩ := wakes
  rw [wakes]
  refine ⟨rfl, List.map_congr_left fun x _ => ?_⟩
  unfold JobSlot.heard
  split <;> rfl

section
variable {src : BitVec 13} {job : Word} {s : State}

/-- A message of a job that is not joined here is discarded. -/
theorem execFabricMessage_stranger {body : FabBody} (message : ∀ d v l b, body ≠ .transit d v l b)
    (stranger : s.recipient src.toNat job = none) : execFabricMessage src job body s = .next (discardMsg s) := by
  unfold execFabricMessage
  rw [stranger]
  cases body with
  | transit d v l b => exact absurd rfl (message d v l b)
  | _ => rfl

theorem execFabricMessage_other {a : Nat} {js : JobSlot} (joined : s.recipient src.toNat job = some (a, js)) :
    execFabricMessage src job .other s = .next (wakeUp s) := by rw [execFabricMessage, joined]

theorem execFabricMessage_deposit {a : Nat} {js : JobSlot} (joined : s.recipient src.toNat job = some (a, js)) (model : BitVec 16)
    (die : BitVec 3) (data : Bytes) : execFabricMessage src job (.deposit model die data) s =
      .next (landDeposit a (js.partOf src.toNat) model.toNat die.toNat data (wakeUp s)) := by rw [execFabricMessage, joined]

theorem discardMsg_discarded (on : s.off = false) :
    (discardMsg s).chip.fabric.discarded = s.chip.fabric.discarded + 1 := by rw [discardMsg, State.whenOn_on _ on]; rfl

theorem execFabricMessage_passes {d : BitVec 13} {v : BitVec 2} {l : BitVec 3} {data : Bytes} (on : s.off = false)
    (other : s.chip.fabric.addr ≠ some d.toNat) : execFabricMessage src job (.transit d v l data) s =
      .next (transitFlit src.toNat d.toNat job v.toNat l.toNat data s) := by
  have other : (s.chip.fabric.addr == some d.toNat) = false := beq_eq_false_iff_ne.2 other
  exact congrArg Host.Outcome.next (check_passed other (State.whenOn_on _ on))

theorem transitFlit_loops (src dst : Nat) (job : Word) (vc : Nat) (data : Bytes) (s : State) :
    (transitFlit src dst job vc 7 data s).chip.fabric.routeLoops = s.chip.fabric.routeLoops + 1 ∧
      (transitFlit src dst job vc 7 data s).out = s.out := ⟨rfl, rfl⟩

theorem transitFlit_launches {dst level : Nat} (src : Nat) (job : Word) (vc : Nat) (data : Bytes) (below : level ≠ 7)
    (route : noRoute s dst = false) : transitFlit src dst job vc level data s =
      s.emit (.fabric ⟨src, dst, job, vc, level + 1, 0, data⟩) := by
  have route : (!noRoute s dst) = true := by rw [route]; rfl
  exact check_passed (beq_eq_false_iff_ne.2 below) (if_pos route)

end

/-- Settles O55: the commands pass their checks, what a change of routes brings about keeps the routes, and each message goes as its
equation says. -/
theorem fabricRoutesAndMessages : Obligations.FabricRoutesAndMessages := by
  unfold Obligations.FabricRoutesAndMessages
  refine ⟨?origin, fun _ _ _ => execFabAddrQuery_returns, ?routes, ?join, ?message⟩
  case origin =>
    intro c s u h tail right first
    obtain ⟨payload, begins⟩ := execFabOrigin_begins h tail right first
    have frame := sendFrame_onlyFrames 1 0x8000 payload (roundBegun u)
    have fabric := frame.onlyLights.fabric
    refine ⟨_, begins, ?_, ?_, ?_, sendFrame_sends rfl 1 0x8000 payload⟩
    all_goals
      rw [fabric]
      rfl
  case routes =>
    intro c s u tail zero range addr held
    refine ⟨fun h right goes legal => ?_, fun h goes => execFabRouteQuery_writes tail zero range addr h held goes⟩
    exact ⟨_, execFabRouteSet_sets tail zero range addr h held right goes legal,
      fun i b hb => routesSet_inside hb (legal b (List.mem_of_getElem? hb)), fun d => routesSet_outside u,
      (routesSet_sameRoutes c u).mem⟩
  case join =>
    intro job part digest table s k js on hjs hjob hdigest htable
    obtain ⟨t, step, mem, slots⟩ := execJoinMessage_hears (job := job) (part := part) (digest := digest) (table := table) on
    have slot : tget t.chip.fabric.slots k = some (js.heard job part.toNat digest (table.map (·.toNat))) := by
      rw [slots, tget_map_values, hjs]
      rfl
    exact ⟨t, step, ⟨_, slot, JobSlot.heard_joined hjob hdigest htable _⟩, mem⟩
  case message =>
    intro src job s on
    refine ⟨fun body message stranger => ⟨execFabricMessage_stranger message stranger, discardMsg_discarded on⟩,
      fun d v l data other => ⟨fun top => ?_, fun below route => ?_⟩,
      fun a js joined => ⟨execFabricMessage_other joined, execFabricMessage_deposit joined⟩⟩
    · subst top
      exact ⟨_, execFabricMessage_passes on other, transitFlit_loops ..⟩
    · have below : l.toNat ≠ 7 := fun e => below (BitVec.eq_of_toNat_eq e)
      exact (execFabricMessage_passes on other).trans (congrArg _ (transitFlit_launches _ _ _ _ below route))

end Sys2Proof.Machine
end

section
/-!
PROOFS. What a step does to module time, the fuses, the life-cycle state and OWNER_LOCK: every operation of the model leaves module time as
it is and moves the fuses one way, and so does every command but for what the spec excuses it from.
-/
namespace Sys2Proof.Machine

/-! ## Time and fuses -/

/-- What a command may be excused from keeping: module time, the life-cycle state, OWNER_LOCK. -/
structure Excuse where
  time : Prop
  life : Prop
  lock : Prop

/-- The fuses, the life-cycle state and OWNER_LOCK. -/
def Firmware.fuses (f : Firmware) : Nat × Nat × Bool × LifeCycle × Bool := (f.floor, f.claims, f.startFuse, f.lifecycle, f.lock)

/-- What may happen to the fuses, the life-cycle state and OWNER_LOCK (R540, R541, R548, R550). -/
structure Fused (ε : Excuse) (f g : Firmware) : Prop where
  floor : f.floor ≤ g.floor
  claims : g.claims ≤ f.claims
  start : f.startFuse = true → g.startFuse = true
  final : f.lifecycle = .decommissioned → g.lifecycle = .decommissioned
  life : g.lifecycle = f.lifecycle ∨ ε.life
  lock : f.lock = true → g.lock = true ∨ ε.lock

theorem Fused.refl {ε : Excuse} (f : Firmware) : Fused ε f f := ⟨le_rfl, le_rfl, id, id, .inl rfl, .inl⟩

theorem Fused.same {ε : Excuse} {f g : Firmware} (h : g.fuses = f.fuses) : Fused ε f g := by
  simp only [Firmware.fuses, Prod.mk.injEq] at h
  obtain ⟨floor, claims, start, life, lock⟩ := h
  exact ⟨floor.ge, claims.le, start.trans, life.trans, .inl life, .inl ∘ lock.trans⟩

theorem Fused.trans {ε : Excuse} {f g k : Firmware} (a : Fused ε f g) (b : Fused ε g k) : Fused ε f k where
  floor := a.floor.trans b.floor
  claims := b.claims.trans a.claims
  start := b.start ∘ a.start
  final := b.final ∘ a.final
  life := b.life.elim (fun same => a.life.imp_left same.trans) .inr
  lock locked := (a.lock locked).elim b.lock .inr

/-- Between two states module time has stood still and the fuses have moved one way, but for what is excused. -/
structure Steady (ε : Excuse) (s t : State) : Prop where
  time : t.mtime = s.mtime ∨ ε.time
  fuses : Fused ε s.chip.fw t.chip.fw

/-- A next state that is reached steadily. -/
inductive SteadyNext (ε : Excuse) (s : State) : Result State → Prop
  | next {t : State} (h : Steady ε s t) : SteadyNext ε s (.next t)

/-- An answer of a command's own rules whose state is reached steadily. -/
inductive SteadyRes (ε : Excuse) (s : State) : Res → Prop
  | done {st : Status} {p : Bytes} {t : State} (h : Steady ε s t) : SteadyRes ε s (.done st p t)
  | wait {key : WaitKey} {t : State} (h : Steady ε s t) : SteadyRes ε s (.wait key t)
  | gone {t : State} (h : Steady ε s t) : SteadyRes ε s (.gone t)
  | hold : SteadyRes ε s .hold

section
variable {ε : Excuse} {s t u : State}

theorem Steady.refl (s : State) : Steady ε s s := ⟨.inl rfl, .refl _⟩

/-- A change of fields that hold neither module time nor the firmware's record. -/
theorem Steady.upd {pending out freeCtr mem mail ten cores pkgs pkgOrder svcTurn demand models moves moveCtr led gens ft}
    {dieMem hbmCred vaultCred units counters samplers missed srcRem links ports power beacon fabric noc} (h : Steady ε s t) :
    Steady ε s ⟨pending, out, freeCtr, t.mtime, mem, mail, ten, ⟨dieMem, hbmCred, vaultCred, units, counters, samplers, missed,
      srcRem, links, ports, power, t.chip.fw, beacon, fabric, noc⟩, cores, pkgs, pkgOrder, svcTurn, demand, models, moves, moveCtr,
      led, gens, ft⟩ := ⟨h.time, h.fuses⟩

/-- A change of the firmware's record that the fuses allow. -/
theorem Steady.onFw {f : Firmware → Firmware} (h : Steady ε s t) (hf : Fused ε t.chip.fw (f t.chip.fw)) : Steady ε s (t.onFw f) :=
  ⟨h.time, h.fuses.trans hf⟩

/-- A change that leaves module time, the fuses, the life-cycle state and OWNER_LOCK as they are. -/
theorem Steady.same (h : Steady ε s t) (hm : u.mtime = t.mtime) (hf : u.chip.fw.fuses = t.chip.fw.fuses) : Steady ε s u :=
  ⟨hm ▸ h.time, h.fuses.trans (.same hf)⟩

/-- A change of the firmware's images, nonce or activation. -/
theorem Steady.onImages {f : Firmware → Firmware} (h : Steady ε s t) (hf : (f t.chip.fw).fuses = t.chip.fw.fuses) :
    Steady ε s (t.onFw f) := h.same rfl hf

theorem Steady.ite_of {α : Type} {p : α → State} {c : Prop} [Decidable c] {a b : α} (ha : Steady ε s (p a))
    (hb : Steady ε s (p b)) : Steady ε s (p (if c then a else b)) := by
  split
  · exact ha
  · exact hb

theorem Steady.ite {c : Prop} [Decidable c] (ht : Steady ε s t) (hu : Steady ε s u) : Steady ε s (if c then t else u) :=
  .ite_of (p := fun t => t) ht hu

theorem SteadyNext.ite {c : Prop} [Decidable c] {a b : Result State} (ha : SteadyNext ε s a) (hb : SteadyNext ε s b) :
    SteadyNext ε s (if c then a else b) := by
  split
  · exact ha
  · exact hb

theorem SteadyRes.ite {c : Prop} [Decidable c] {a b : Res} (ha : SteadyRes ε s a) (hb : SteadyRes ε s b) :
    SteadyRes ε s (if c then a else b) := by
  split
  · exact ha
  · exact hb

/-- A command that fails a check changes nothing. -/
theorem SteadyRes.check {c : Prop} [Decidable c] {st : Status} {r : Res} (h : Steady ε s t) (hr : SteadyRes ε s r) :
    SteadyRes ε s (if c then fail st t else r) := .ite (.done h) hr

theorem Steady.foldl_of {α β : Type} {p : β → State} {f : β → α → β} {l : List α} {b : β}
    (hf : ∀ b x, Steady ε s (p b) → Steady ε s (p (f b x))) (h : Steady ε s (p b)) : Steady ε s (p (l.foldl f b)) := by
  induction l generalizing b with
  | nil => exact h
  | cons x l ih => exact ih (hf _ _ h)

theorem Steady.foldl {α : Type} {f : State → α → State} {l : List α} (hf : ∀ t x, Steady ε s t → Steady ε s (f t x))
    (h : Steady ε s t) : Steady ε s (l.foldl f t) :=
  .foldl_of (p := fun t => t) hf h

theorem Steady.foldl_fst {α β : Type} {f : State × β → α → State × β} {l : List α} {b : State × β}
    (hf : ∀ b x, Steady ε s b.1 → Steady ε s (f b x).1) (h : Steady ε s b.1) : Steady ε s (l.foldl f b).1 :=
  .foldl_of (p := Prod.fst) hf h

theorem Steady.foldl_snd {α β : Type} {f : β × State → α → β × State} {l : List α} {b : β × State}
    (hf : ∀ b x, Steady ε s b.2 → Steady ε s (f b x).2) (h : Steady ε s b.2) : Steady ε s (l.foldl f b).2 :=
  .foldl_of (p := Prod.snd) hf h

theorem Steady.of_fst {β : Type} {p : State × β} {b : β} (h : Steady ε s p.1) (e : p = (u, b)) : Steady ε s u := by
  subst e
  exact h

theorem Steady.of_snd {α : Type} {p : α × State} {a : α} (h : Steady ε s p.2) (e : p = (a, u)) : Steady ε s u := by
  subst e
  exact h

theorem Steady.of_mid {α β : Type} {p : α × State × β} {a : α} {b : β} (h : Steady ε s p.2.1) (e : p = (a, u, b)) :
    Steady ε s u := by
  subst e
  exact h

theorem Steady.of_last {α β : Type} {p : α × β × State} {a : α} {b : β} (h : Steady ε s p.2.2) (e : p = (a, b, u)) :
    Steady ε s u := by
  subst e
  exact h

end


/-! ## The named changes of a field -/

section
variable {ε : Excuse} {s t : State}

theorem onAcct_steady {a : Nat} {f : Account → Account} (h : Steady ε s t) : Steady ε s (t.onAcct a f) := h.upd
theorem onPower_steady {f : Power → Power} (h : Steady ε s t) : Steady ε s (t.onPower f) := h.upd
theorem onFabric_steady {f : Fabric → Fabric} (h : Steady ε s t) : Steady ε s (t.onFabric f) := h.upd
theorem onBeacon_steady {f : Beacon → Beacon} (h : Steady ε s t) : Steady ε s (t.onBeacon f) := h.upd
theorem onGens_steady {f : GenState → GenState} (h : Steady ε s t) : Steady ε s (t.onGens f) := h.upd
theorem onMoves_steady {p : Nat} {f : PartMoves → PartMoves} (h : Steady ε s t) : Steady ε s (t.onMoves p f) := h.upd
theorem onStep_steady {slot : Nat} {f : LedStep → LedStep} (h : Steady ε s t) : Steady ε s (onStep slot f t) := h.upd
theorem onCounters_steady {scope : Nat} {f : List Counter → List Counter} (h : Steady ε s t) :
    Steady ε s (t.onCounters scope f) := h.upd
theorem withdrawUnits_steady {p : Grant → Bool} (h : Steady ε s t) : Steady ε s (withdrawUnits p t) := h.upd
theorem num_steady {a i n : Nat} (h : Steady ε s t) : Steady ε s (t.num a i n) := h.upd
theorem charge_steady {k : Traffic} {a : Nat} {rs : List (Nat × Nat)} (h : Steady ε s t) : Steady ε s (t.charge k a rs) := h.upd
theorem bump_steady {src die n : Nat} {acct unit : Option Nat} (h : Steady ε s t) : Steady ε s (t.bump src die acct unit n) := h.upd

end

/-! ## Memory, mailboxes and the course of a command -/

section
variable {ε : Excuse} {s t u : State}

theorem free_steady (h : Steady ε s t) :
    Steady ε s t.free.2 := h.upd

theorem Chip.mend_fw (c : Chip) (a n : Nat) : (c.mend a n).fw = c.fw := by
  fun_cases Chip.mend c a n <;> rfl

theorem write_steady {a : Nat} {bs : Bytes} (h : Steady ε s t) : Steady ε s (t.write a bs) :=
  h.same rfl (congrArg _ (Chip.mend_fw ..))

theorem scramble_steady {a n : Nat} (h : Steady ε s t) : Steady ε s (t.scramble a n) := .upd (write_steady h)

theorem launch_steady {w : Waiter} (h : Steady ε s t) : Steady ε s (launch w t) := .ite h.upd h.upd

theorem flushWaits_steady (h : Steady ε s t) : Steady ε s (flushWaits t) := .foldl (fun _ _ h => launch_steady h) h.upd

theorem sendTo_steady {die : Option Nat} {dst : Nat} {job : Word} {kind : Nat} {data : Bytes} (h : Steady ε s t) :
    Steady ε s (sendTo die dst job kind data t) := launch_steady h

theorem discover_steady {a n : Nat} (h : Steady ε s t) : Steady ε s (t.discover a n) := by
  fun_cases t.discover a n
  case case1 | case2 => exact h
  case case3 | case4 => exact h.upd

theorem whenOn_steady (h : Steady ε s t) (g : Steady ε s u) :
    Steady ε s (t.whenOn u) := .ite h g

theorem raiseVec_steady {fn vec : Nat} (h : Steady ε s t) : Steady ε s (raiseVec fn vec t) := .ite h.upd h.upd

theorem raiseNtf_steady {fn : Nat} (h : Steady ε s t) : Steady ε s (raiseNtf fn t) := .ite (raiseVec_steady h.upd) h.upd

theorem post_steady {fn kind : Nat} {st : Status} {args : Bytes} (h : Steady ε s t) : Steady ε s (post fn kind st args t) := by
  fun_cases post fn kind st args t
  case case1 => exact h
  case case2 => exact h.upd
  case case3 | case4 | case5 => exact raiseNtf_steady h.upd

theorem postAll_steady {fns : List Nat} {kind : Nat} {st : Status} {args : Bytes} (h : Steady ε s t) :
    Steady ε s (postAll fns kind st args t) := .foldl (fun _ _ h => post_steady h) h

theorem flushOverflow_steady {fn : Nat} (h : Steady ε s t) : Steady ε s (flushOverflow fn t) := .ite (raiseNtf_steady h.upd) h

theorem flushOne_steady {fn : Nat} (h : Steady ε s t) : Steady ε s (flushOne fn t) := by
  fun_cases flushOne fn t
  · exact h
  · exact raiseNtf_steady h.upd
  · exact h

theorem flushHeld_steady {fn : Nat} (h : Steady ε s t) : Steady ε s (flushHeld fn t) :=
  .ite h <| .foldl (fun _ _ h => flushOne_steady h) h

theorem discoverAll_steady {rs : List (Nat × Nat)} (h : Steady ε s t) : Steady ε s (t.discoverAll rs) :=
  .foldl (fun _ _ h => discover_steady h) h

theorem Chip.mendAll_fw (rs : List (Nat × Nat)) (c : Chip) : (rs.foldl (fun c r => c.mend r.1 r.2) c).fw = c.fw := by
  induction rs generalizing c with
  | nil => rfl
  | cons r rs ih => exact (ih _).trans (Chip.mend_fw ..)

theorem putKey_steady {k : Nat} {bs : Bytes} (h : Steady ε s t) : Steady ε s (t.putKey k bs) :=
  .ite h.upd <| h.same rfl (congrArg _ (Chip.mendAll_fw ..))

theorem putHigh_steady {slot : Nat} {m : ModelMap} {bufB : Bool} {i r c : Nat} {bs : Bytes} (h : Steady ε s t) :
    Steady ε s (putHigh slot m bufB i r c bs t) := by
  fun_cases putHigh slot m bufB i r c bs t
  · exact putKey_steady h
  · exact h

theorem putLow_steady {slot : Nat} {m : ModelMap} {i r c : Nat} {bs : Bytes} (h : Steady ε s t) :
    Steady ε s (putLow slot m i r c bs t) := by
  fun_cases putLow slot m i r c bs t
  · exact putKey_steady h
  · exact h

theorem putState_steady {slot k : Nat} {m : ModelMap} {i r c : Nat} {bs : Bytes} (h : Steady ε s t) :
    Steady ε s (putState slot k m i r c bs t) := by
  fun_cases putState slot k m i r c bs t
  · exact putKey_steady h
  · exact h

theorem retireRow_steady {acct k : Nat} (h : Steady ε s t) : Steady ε s (retireRow acct k t).2 := by
  fun_cases retireRow acct k t
  · exact h
  · exact h.upd
  · exact postAll_steady h.upd

theorem engineRead_steady {tr : Traffic} {acct : Nat} {rs : List (Nat × Nat)} (h : Steady ε s t) :
    Steady ε s (State.engineRead tr acct rs t).2 := by
  fun_cases State.engineRead tr acct rs t
  · exact h.upd
  · exact h.upd
  · exact .upd (retireRow_steady h)
  · exact discoverAll_steady h

theorem writeResp_steady {c : Cmd} {r : Resp} (h : Steady ε s t) : Steady ε s (writeResp c r t) := raiseVec_steady h.upd

theorem tellDone_steady {c : Cmd} {r : Resp} (h : Steady ε s t) : Steady ε s (tellDone c r t) := .ite (post_steady h) h

theorem complete_steady {c : Cmd} {op : Nat} {st : Status} {payload : Bytes} (h : Steady ε s t) :
    Steady ε s (complete c op st payload t) := tellDone_steady <| .ite h.upd (writeResp_steady h)

theorem finishWait_steady {key : WaitKey} {st : Status} {payload : Bytes} (h : Steady ε s t) :
    Steady ε s (finishWait key st payload t) := .foldl (fun _ _ h => complete_steady h) h.upd

theorem finishAll_steady {fn : Nat} {st : Status} (h : Steady ε s t) : Steady ε s (finishAll fn st t) :=
  .foldl (fun _ _ h => complete_steady h) h.upd

theorem wakeUp_steady (h : Steady ε s t) : Steady ε s (wakeUp t) := .ite h.upd (.ite h.upd h)

theorem runCmd_steady {op : Nat} {c : Cmd} {body : State → Res} (h : Steady ε s t)
    (hb : ∀ u, Steady ε s u → SteadyRes ε s (body u)) : SteadyNext ε s (runCmd op c t body) := by
  have d : Steady ε s (dropTaken c t) := h.upd
  unfold runCmd
  dsimp only
  split
  · exact .next h
  split
  · exact .next (complete_steady (.ite (wakeUp_steady d) d))
  · exact .next (complete_steady (.ite (wakeUp_steady d) d))
  split
  · exact .next (wakeUp_steady d.upd)
  have hr := hb _ d
  generalize body (dropTaken c t) = r at hr ⊢
  cases hr
  case done g => exact .next (complete_steady (.ite d g))
  case wait g => exact .next g.upd
  case gone g => exact .next g
  case hold => exact .next h

theorem readHeld_steady {a n : Nat} {failed : State → Res} {k : Res} (h : Steady ε s t)
    (hf : ∀ u, Steady ε s u → SteadyRes ε s (failed u)) (hk : SteadyRes ε s k) : SteadyRes ε s (readHeld a n t failed k) := by
  fun_cases readHeld a n t failed k
  · exact .hold
  · exact hf _ (discover_steady h)
  · exact hk

theorem Res.after_steady {f : State → State} {r : Res} (hf : ∀ u, Steady ε s u → Steady ε s (f u)) (hr : SteadyRes ε s r) :
    SteadyRes ε s (r.after f) := by
  cases hr
  case done g => exact .done (hf _ g)
  case wait g => exact .wait (hf _ g)
  case gone g => exact .gone (hf _ g)
  case hold => exact .hold

theorem give_steady {acct a : Nat} {bs : Bytes} (h : Steady ε s t) : Steady ε s (State.give acct a bs t) := write_steady h.upd

theorem readFor_steady {c : Cmd} {a n : Nat} {k : Bytes → Res} (h : Steady ε s t) (hk : ∀ bs, SteadyRes ε s (k bs)) :
    SteadyRes ε s (readFor c a n t k) := by
  fun_cases readFor c a n t k
  · exact .done h
  · exact readHeld_steady h (fun _ g => .done g) (Res.after_steady (fun _ g => g.upd) (hk _))

theorem writeFor_steady {c : Cmd} {a n : Nat} {k : (Bytes → State) → Res} (h : Steady ε s t)
    (hk : ∀ w, (∀ bs, Steady ε s (w bs)) → SteadyRes ε s (k w)) : SteadyRes ε s (writeFor c a n t k) := by
  fun_cases writeFor c a n t k
  · exact .done h
  · exact .hold
  · exact .done h
  · exact hk _ fun _ => give_steady h

theorem wakeFor_steady {fn slot : Nat} (h : Steady ε s t) : Steady ε s (wakeFor fn slot t) := .ite (wakeUp_steady h) h

theorem ringDoorbell_steady {fn : Nat} {value : Word} (h : Steady ε s t) : Steady ε s (ringDoorbell fn value t) :=
  .ite h.upd (wakeFor_steady h.upd)

theorem moveTail_steady {fn : Nat} {value : Word} (h : Steady ε s t) : Steady ε s (moveTail fn value t) :=
  flushHeld_steady (flushOverflow_steady h.upd)

theorem execCommandTake_steady {port : BitVec 2} (h : Steady ε s t) : SteadyNext ε s (execCommandTake port t) := by
  fun_cases execCommandTake port t
  · exact .next h
  · exact .next <| complete_steady <| .upd (wakeFor_steady h.upd)
  · exact .next <| complete_steady <| .upd <| .upd (wakeFor_steady h.upd)
  · exact .next <| complete_steady <| .upd <| .upd (wakeFor_steady h.upd)
  · exact .next <| .upd <| .upd <| .upd (wakeFor_steady h.upd)

theorem execFirmwareAccept_steady (h : Steady ε s t) :
    SteadyNext ε s (execFirmwareAccept t) := by
  unfold execFirmwareAccept
  split
  · exact .next h
  · exact .next h.upd

theorem execMailboxResumed_steady (h : Steady ε s t) : SteadyNext ε s (execMailboxResumed t) := by
  fun_cases execMailboxResumed t
  exact .next <| .foldl (fun _ _ h => flushHeld_steady <| .upd <| .foldl (fun _ _ g => writeResp_steady g) <|
      .ite (flushOverflow_steady h.upd) <| post_steady (flushOverflow_steady h.upd)) <| .of_snd (free_steady h) ‹_›

end

/-! ## Pages, packages and transfers -/

section
variable {ε : Excuse} {s t u : State}

theorem drawFrame_steady {slot u : Nat} {vault : Bool} {l : FrameLoc} {v : State} (h : Steady ε s t)
    (e : drawFrame slot vault u t = some (l, v)) : Steady ε s v := by
  unfold drawFrame at e
  split at e
  · cases e
    exact h.upd
  · obtain ⟨_, _, e⟩ := Option.map_eq_some_iff.1 e
    cases e
    exact h.upd

theorem readPage_steady {acct : Nat} {l : FrameLoc} (h : Steady ε s t) : Steady ε s (readPage acct l t).2.2 := by
  fun_cases readPage acct l t
  exact .of_snd (engineRead_steady h) ‹_›

theorem writePage_steady {acct : Nat} {l : FrameLoc} {b : Bytes} (h : Steady ε s t) : Steady ε s (writePage acct l b t) :=
  write_steady h.upd

theorem privateInst_steady {acct : Nat} (h : Steady ε s t) : Steady ε s (privateInst acct t).2 := by
  fun_cases privateInst acct t
  · exact h
  · exact h.upd

theorem domainInst_steady {acct dom : Nat} (h : Steady ε s t) : Steady ε s (domainInst acct dom t).2 := by
  refine .ite_of (p := Prod.snd) ?_ ?_
  · split
    · exact .of_snd (privateInst_steady h) ‹_›
  split
  · exact h
  · exact h

theorem publishPage_steady {acct slot dom inst epoch quota : Nat} {hash : DWord} {parent : Option Nat} {toks : List Nat}
    {loc : FrameLoc} (h : Steady ε s t) :
    Steady ε s (publishPage acct slot dom inst epoch quota hash parent toks loc t) := .ite h h.upd

theorem publishInst_steady {q : Seq} (h : Steady ε s t) : Steady ε s (publishInst q t).2 := by
  refine .ite_of (p := Prod.snd) (domainInst_steady h) ?_
  split
  · exact h
  · exact h

theorem publishSeq_steady {i : Nat} (h : Steady ε s t) : Steady ε s (publishSeq i t) := by
  fun_cases publishSeq i t
  case case1 | case2 => exact h
  case case3 | case4 => exact .upd <| .of_snd (publishInst_steady h) ‹_›
  case case5 =>
    refine .foldl_fst (fun _ _ h => ?_) <| .upd <| .of_snd (publishInst_steady h) ‹_›
    split
    · exact h
    split
    · exact .ite (publishPage_steady h) h
    · exact h

theorem setPool_steady {c : Cmd} {vault okField : Bool} {unit : Nat} {inPlace : Nat → Nat → Bool} (h : Steady ε s t) :
    SteadyRes ε s (setPool c vault okField unit inPlace t) := by
  refine .check h ?_
  split
  · exact .done h
  split
  · exact .done h
  · exact .check h <| .check h <| .check h (.done h.upd)

theorem execKvFlush_steady {c : Cmd} (h : Steady ε s t) : SteadyNext ε s (execKvFlush c t) := by
  refine runCmd_steady h fun _ h => .check h ?_
  split
  · exact .done h
  · exact .done h.upd

theorem execDemotion_steady {slot : BitVec 6} {member : BitVec 5} (h : Steady ε s t) :
    SteadyNext ε s (execDemotion slot member t) := by
  fun_cases execDemotion slot member t
  case case1 | case2 | case3 => exact .next h
  case case4 => exact .next h.upd
  case case5 => exact .next <| .upd <| .of_last (readPage_steady <| .of_snd (free_steady h) ‹_›) ‹_›
  case case6 => exact .next <| .upd <| writePage_steady <| .of_last (readPage_steady <| .of_snd (free_steady h) ‹_›) ‹_›

theorem pageTime_steady {ns : Nat} (h : Steady ε s t) : Steady ε s (pageTime ns t) := .ite h <| .foldl (fun _ _ h => h.upd) h

theorem owedVecs_steady (h : Steady ε s t) : Steady ε s (owedVecs t) := .foldl (fun _ _ h => raiseNtf_steady h) h

theorem signalSem_steady {id : PkgId} {e : Nat} (h : Steady ε s t) : Steady ε s (signalSem id e t) := by
  fun_cases signalSem id e t
  case case1 | case2 | case3 => exact h
  case case4 | case5 => exact h.upd

theorem issueSignal_steady {d : DescId} {e : Nat} (h : Steady ε s t) : Steady ε s (issueSignal d e t) := by
  fun_cases issueSignal d e t
  · exact h
  · exact h
  · exact h.upd
  · exact signalSem_steady h.upd
  · exact signalSem_steady h

theorem amaxMerge_steady {p : Pkg} {tid : Nat} {w : Word} (h : Steady ε s t) : Steady ε s (amaxMerge p tid w t) := by
  refine .ite h (.ite h.upd ?_)
  split
  · exact h.upd
  · exact h

theorem copyRange_steady {acct src dst n : Nat} (h : Steady ε s t) : Steady ε s (copyRange acct src dst n t) :=
  .ite (scramble_steady (discover_steady h.upd)) (write_steady h.upd)

theorem restoreRw_steady {p : Pkg} (h : Steady ε s t) : Steady ε s (restoreRw p t) :=
  .foldl (fun _ _ h => .ite (copyRange_steady h) h) h

theorem scrambleOut_steady {p : Pkg} {forced : Bool} (h : Steady ε s t) : Steady ε s (scrambleOut p forced t) :=
  .foldl (fun _ _ h => .ite (scramble_steady h) h) h

theorem putRecord_steady {acct at_ : Nat} {bs : Bytes} (h : Steady ε s t) : Steady ε s (putRecord acct at_ bs t) :=
  write_steady h.upd

theorem endPkg_steady {id : PkgId} {st : Status} (h : Steady ε s t) : Steady ε s (endPkg id st t) := by
  fun_cases endPkg id st t
  · exact h
  · exact finishWait_steady <| .ite (.upd <| .upd <| .ite (restoreRw_steady <| .ite (scrambleOut_steady h.upd) h.upd) <|
        .ite (scrambleOut_steady h.upd) h.upd) <| post_steady <| putRecord_steady <| .upd <| .upd <|
        .ite (restoreRw_steady <| .ite (scrambleOut_steady h.upd) h.upd) <| .ite (scrambleOut_steady h.upd) h.upd

theorem tryEndStop_steady {id : PkgId} (h : Steady ε s t) : Steady ε s (tryEndStop id t) := by
  fun_cases tryEndStop id t
  · exact h
  · exact endPkg_steady h
  · exact h

theorem beginStop_steady {id : PkgId} {st : Status} (h : Steady ε s t) : Steady ε s (beginStop id st t) := by
  fun_cases beginStop id st t
  · exact h
  · exact h
  · exact tryEndStop_steady h.upd

theorem killPkgs_steady {keep : Pkg → Bool} {st : Status} (h : Steady ε s t) : Steady ε s (killPkgs keep st t) :=
  .foldl (fun _ _ h => endPkg_steady h) h

theorem settle_steady {id : PkgId} (h : Steady ε s t) : Steady ε s (settle id t) := by
  fun_cases settle id t
  · exact h
  · exact tryEndStop_steady h
  · exact h.upd
  · exact endPkg_steady h
  · exact h

theorem releaseLinks_steady {id : PkgId} {rkeys : List Word} (h : Steady ε s t) : Steady ε s (releaseLinks id rkeys t) :=
  .ite h <| .foldl (fun _ _ h => settle_steady h) h.upd

theorem completeDesc_steady {d : DescId} {result : Word} (h : Steady ε s t) : Steady ε s (completeDesc d result t) := by
  fun_cases completeDesc d result t
  · exact h
  · exact h
  · exact settle_steady <| issueSignal_steady <| .ite h.upd (putRecord_steady h.upd)

theorem wipeRange_steady {a n : Nat} (h : Steady ε s t) : Steady ε s (t.wipeRange a n) :=
  h.same rfl (congrArg _ (Chip.mend_fw ..))

theorem prologue_steady {p : Pkg} {first : Bool} (h : Steady ε s t) : Steady ε s (prologue p first t) := by
  fun_cases prologue p first t
  · exact .foldl (fun _ _ h => .ite (copyRange_steady h) (copyRange_steady h)) <|
        .foldl (fun _ _ h => copyRange_steady h) <| .foldl (fun _ _ h => wipeRange_steady h) h
  · exact write_steady <| .foldl (fun _ _ h => .ite (copyRange_steady h) (copyRange_steady h)) <|
        .foldl (fun _ _ h => copyRange_steady h) <| .foldl (fun _ _ h => wipeRange_steady h) h

theorem restartPkg_steady {id : PkgId} (h : Steady ε s t) : Steady ε s (restartPkg id t) := by
  fun_cases restartPkg id t
  · exact h
  · exact .upd (prologue_steady h.upd)

theorem countReplay_steady {id : PkgId} (h : Steady ε s t) (e : countReplay id t = some u) : Steady ε s u := by
  unfold countReplay at e
  split at e
  · cases e
  split at e
  · cases e
  · cases e
    exact h.upd

theorem replayPkg_steady {id : PkgId} {n : Nat} (h : Steady ε s t) : Steady ε s (replayPkg id n t) := by
  induction n generalizing t with
  | zero => exact beginStop_steady h
  | succ n ih =>
    unfold replayPkg
    split
    · exact beginStop_steady h
    rename_i c counted
    have hc := countReplay_steady h counted
    split
    · exact hc
    split
    · exact hc
    split
    · exact restartPkg_steady hc
    · exact restartPkg_steady hc
    · exact beginStop_steady (discoverAll_steady hc)
    · exact beginStop_steady (discoverAll_steady hc)
    · exact .ite (ih (retireRow_steady hc)) (beginStop_steady (retireRow_steady hc))

theorem integrityFail_steady {id : PkgId} (h : Steady ε s t) : Steady ε s (integrityFail id t) := by
  fun_cases integrityFail id t
  · exact h
  · exact h
  · exact replayPkg_steady h

theorem stopWith_steady {id : PkgId} {leave : State → State} (h : Steady ε s t)
    (hleave : ∀ u, Steady ε s u → Steady ε s (leave u)) :
    Steady ε s (stopWith id leave t) := tryEndStop_steady <| beginStop_steady (hleave _ h)

theorem parityFail_steady {id : PkgId} {leave : State → State} {k : Nat} (h : Steady ε s t)
    (hleave : ∀ u, Steady ε s u → Steady ε s (leave u)) :
    Steady ε s (parityFail id leave k t) := by
  fun_cases parityFail id leave k t
  · exact tryEndStop_steady <| integrityFail_steady <| hleave _ (retireRow_steady h)
  · exact stopWith_steady (retireRow_steady h) fun _ h => hleave _ h

theorem structFail_steady {id : PkgId} {die : Nat} (h : Steady ε s t) : Steady ε s (structFail id die t) :=
  stopWith_steady h.upd fun _ h => h

theorem workReads_steady {id : PkgId} {tr : Traffic} {leave : State → State} {rs : List (Nat × Nat)} {k : State → State}
    (h : Steady ε s t) (hleave : ∀ u, Steady ε s u → Steady ε s (leave u)) (hk : ∀ u, Steady ε s u → Steady ε s (k u)) :
    Steady ε s (workReads id tr leave rs t k) := by
  fun_cases workReads id tr leave rs t k
  · exact hk _ h.upd
  · exact h
  · exact stopWith_steady h fun _ h => hleave _ h
  · exact parityFail_steady h fun _ h => hleave _ h
  · exact stopWith_steady (discoverAll_steady h) fun _ h => hleave _ h

theorem pkgReads_steady {id : PkgId} {tr : Traffic} {rs : List (Nat × Nat)} {k : State → State} (h : Steady ε s t)
    (hk : ∀ u, Steady ε s u → Steady ε s (k u)) :
    Steady ε s (pkgReads id tr rs t k) := workReads_steady h (fun _ h => h) fun _ h => hk _ h

theorem workWrites_steady {id : PkgId} {tr : Traffic} {leave : State → State} {rs : List (Nat × Nat)} {k : State → State}
    (h : Steady ε s t) (hleave : ∀ u, Steady ε s u → Steady ε s (leave u)) (hk : ∀ u, Steady ε s u → Steady ε s (k u)) :
    Steady ε s (workWrites id tr leave rs t k) := .ite h <| .ite (stopWith_steady h fun _ h => hleave _ h) (hk _ h.upd)

theorem pkgWrites_steady {id : PkgId} {tr : Traffic} {rs : List (Nat × Nat)} {k : State → State} (h : Steady ε s t)
    (hk : ∀ u, Steady ε s u → Steady ε s (k u)) :
    Steady ε s (pkgWrites id tr rs t k) := workWrites_steady h (fun _ h => h) fun _ h => hk _ h

theorem meterCycles_steady {acct i die : Nat} (h : Steady ε s t) : Steady ε s (meterCycles acct i die t) := .upd (free_steady h)

theorem Xf.copy_steady {x : Xf} {epoch seg : Nat} (h : Steady ε s t) : Steady ε s (Xf.copy x epoch seg t) :=
  .foldl (fun _ _ h => write_steady h) h

theorem Pf.copySeg_steady {x : Pf} {slot : Nat} {m : Model} {die epoch seg : Nat} (h : Steady ε s t) :
    Steady ε s (Pf.copySeg x slot m die epoch seg t) := write_steady h

theorem carry_steady {ms : List (Vc × List Hop)} {k : State → State} (h : Steady ε s t)
    (hk : ∀ u, Steady ε s u → Steady ε s (k u)) :
    Steady ε s (State.carry ms t k) := by
  fun_cases State.carry ms t k
  · exact hk _ h.upd
  · exact h

end

/-! ## Vector programs -/

section
variable {ε : Excuse} {s t u : State}

theorem hartOp_steady {hart : Hart} {i : Instr} {k : Thread → State → State} (h : Steady ε s t)
    (hk : ∀ x0 u, Steady ε s u → Steady ε s (k x0 u)) :
    SteadyNext ε s (hartOp hart i t k) := by
  fun_cases hartOp hart i t k
  · exact .next h
  · exact .next <| workReads_steady h (fun _ h => h.upd) fun _ h => .ite (.upd (hk _ _ h.upd)) (hk _ _ h.upd)
  · exact .next h

theorem scalarOp_steady {hart : Hart} {i : Instr} {f : Thread → Thread} (h : Steady ε s t) :
    SteadyNext ε s (scalarOp hart i t f) := hartOp_steady h fun _ _ h => h.upd

theorem vectorOp_steady {hart : Hart} {i : Instr} {f : Thread → Core → Core} (h : Steady ε s t) :
    SteadyNext ε s (vectorOp hart i t f) := hartOp_steady h fun _ _ h => h.upd

theorem progReads_steady {hart : Hart} {rs : List (Nat × Nat)} {k : State → State} (h : Steady ε s t)
    (hk : ∀ u, Steady ε s u → Steady ε s (k u)) :
    Steady ε s (progReads hart rs t k) := by
  fun_cases progReads hart rs t k
  · exact workReads_steady h (fun _ h => h.upd) fun _ h => hk _ h
  · exact hk _ h

theorem vecBin_steady {hart : Hart} {i : Instr} {fmt : VFmt} {d a : BitVec 5} {b : VSrc} {pm : BitVec 3} {op : Val → Val → Val}
    (h : Steady ε s t) :
    SteadyNext ε s (vecBin hart i fmt d a b pm op t) := vectorOp_steady h

theorem winWrite_steady {core : Nat} {win : Nat × Nat} {off : DWord} {bs : Bytes} (h : Steady ε s t) :
    Steady ε s (winWrite core win off bs t) := .foldl (fun _ _ h => write_steady h) h

theorem unitOffset_steady {xa : DWord} (h : Steady ε s t) : Steady ε s (unitOffset xa t).2 := by
  refine .ite_of (p := Prod.snd) h ?_
  split
  · exact .of_snd (free_steady h) ‹_›

theorem countConds_steady {acct die : Nat} {unit : Option Nat} {c : Conds} (h : Steady ε s t) :
    Steady ε s (countConds acct die unit c t) := by
  have metered : ∀ {u : State} (i n : Nat), Steady ε s u → Steady ε s (if n == 0 then u else u.num acct i n) :=
    fun _ _ h => .ite h h.upd
  have counted : ∀ {u : State} (src n : Nat), Steady ε s u → Steady ε s (if n == 0 then u else u.bump src die (some acct) unit n) :=
    fun _ _ h => .ite h h.upd
  exact counted _ _ <| counted _ _ <| counted _ _ <| metered _ _ <| metered _ _ <| metered _ _ <| metered _ _ <| metered _ _ <|
    metered _ _ <| metered _ _ h

theorem progConds_steady {hart : Hart} {shadow : Nat} {c : Conds} (h : Steady ε s t) :
    Steady ε s (progConds hart shadow c t) := by
  fun_cases progConds hart shadow c t
  · exact h
  · exact .upd <| .ite (countConds_steady h) <| .upd (countConds_steady h)

theorem intForm_steady {op : IntOp} {hart : Hart} {i : Instr} {d a b : BitVec 5} (h : Steady ε s t) :
    SteadyNext ε s (intForm op hart i d a b t) := scalarOp_steady h

theorem fpForm_steady {op : Val → Val → Val} {hart : Hart} {i : Instr} {d a b : BitVec 5} (h : Steady ε s t) :
    SteadyNext ε s (fpForm op hart i d a b t) := scalarOp_steady h

theorem fpTest_steady {op : Val → Val → Bool} {hart : Hart} {i : Instr} {d a b : BitVec 5} (h : Steady ε s t) :
    SteadyNext ε s (fpTest op hart i d a b t) := scalarOp_steady h

theorem progEnd_steady {core : Nat} (h : Steady ε s t) : Steady ε s (progEnd core t) := by
  fun_cases progEnd core t
  case case1 | case6 => exact h
  case case2 => exact tryEndStop_steady <| beginStop_steady <| .upd (meterCycles_steady h)
  case case3 => exact completeDesc_steady <| .upd <| .upd (meterCycles_steady h)
  case case4 | case5 => exact .upd <| .upd (meterCycles_steady h)

theorem execSemsignal_steady {hart : Hart} {imm : BitVec 8} (h : Steady ε s t) : SteadyNext ε s (execSemsignal hart imm t) := by
  refine .ite (.next h) <| hartOp_steady h fun _ _ h => ?_
  split
  · exact h
  · exact issueSignal_steady h

theorem execXpost_steady {hart : Hart} {d a : BitVec 5} {w : BitVec 3} (h : Steady ε s t) :
    SteadyNext ε s (execXpost hart d a w t) := by
  refine hartOp_steady h fun _ _ h => progReads_steady (unitOffset_steady h) fun _ g => ?_
  split
  split
  · exact g
  split
  · exact g
  · exact .ite g.upd g.upd

theorem maskForm_steady {f : Bool → Bool → Bool} {hart : Hart} {i : Instr} {d a b pm : BitVec 3} (h : Steady ε s t) :
    SteadyNext ε s (maskForm f hart i d a b pm t) := vectorOp_steady h

theorem execVcvt_steady {hart : Hart} {d a : BitVec 5} {src dst : SFmt} {cvt : BitVec 4} {pm : BitVec 3} (h : Steady ε s t) :
    SteadyNext ε s (execVcvt hart d a src dst cvt pm t) := by
  fun_cases execVcvt hart d a src dst cvt pm t
  exact hartOp_steady h fun _ _ h => progConds_steady h.upd

theorem execVrfin_steady {hart : Hart} {d : BitVec 5} {a : BitVec 3} {b : BitVec 5} (h : Steady ε s t) :
    SteadyNext ε s (execVrfin hart d a b t) := by
  refine hartOp_steady h fun _ _ h => progConds_steady ?_
  split
  · split
    · exact .ite (.ite h.upd h.upd) <| amaxMerge_steady (.ite h.upd h.upd)
    · exact .ite h.upd h.upd
  · exact .ite h.upd h.upd

theorem reduceMinMax_steady {op : Val → Val → Val} {hart : Hart} {i : Instr} {d a : BitVec 5} {pm : BitVec 3} {join : Bool}
    (h : Steady ε s t) :
    SteadyNext ε s (reduceMinMax op hart i d a pm join t) := by
  refine hartOp_steady h fun _ _ h => ?_
  split
  · split
    dsimp only
    split
    · exact .upd <| .of_snd (free_steady h) ‹_›
    · exact h.upd
  split
  dsimp only
  split
  · exact .upd <| .of_snd (free_steady h) ‹_›
  · exact h.upd

theorem execVrarg_steady {hart : Hart} {d a b : BitVec 5} {pm : BitVec 3} (h : Steady ε s t) :
    SteadyNext ε s (execVrarg hart d a b pm t) := by
  refine hartOp_steady h fun _ _ h => ?_
  split
  dsimp only
  split
  · exact .upd <| .of_snd (free_steady h) ‹_›
  · exact .ite (.upd <| .of_snd (free_steady h) ‹_›) h.upd

theorem execVrget_steady {hart : Hart} {d : BitVec 3} {a : BitVec 5} {w : BitVec 3} (h : Steady ε s t) :
    SteadyNext ε s (execVrget hart d a w t) := by
  refine hartOp_steady h (fun _ _ h => ?_)
  split
  refine progReads_steady (.of_snd (unitOffset_steady h) ‹_›) (fun _ h => ?_)
  split
  · exact h.upd
  split
  · exact structFail_steady h
  · exact h

theorem execVld_steady {hart : Hart} {fmt : VFmt} {d a : BitVec 5} {w pm : BitVec 3} (h : Steady ε s t) :
    SteadyNext ε s (execVld hart fmt d a w pm t) := by
  fun_cases execVld hart fmt d a w pm t
  exact hartOp_steady h fun _ _ h => progReads_steady (unitOffset_steady h) fun _ g => g.upd

theorem storeLanes_steady {a : Nat} {ps : List (Bool × Word)} (h : Steady ε s t) : Steady ε s (storeLanes a ps t) := by
  induction ps generalizing a t with
  | nil => exact h
  | cons p ps ih => exact ih (.ite (write_steady h) h)

theorem storeUnit_steady {a : Nat} {ps : List (Bool × Word)} (h : Steady ε s t) : Steady ε s (storeUnit a ps t) :=
  .ite (write_steady h) (storeLanes_steady h)

theorem execVst_steady {hart : Hart} {fmt : VFmt} {d a : BitVec 5} {w pm : BitVec 3} (h : Steady ε s t) :
    SteadyNext ε s (execVst hart fmt d a w pm t) := by
  fun_cases execVst hart fmt d a w pm t
  exact hartOp_steady h fun _ _ h => .foldl (fun _ _ g => storeUnit_steady g) (unitOffset_steady h)

theorem elemOffset_steady {x : DWord} (h : Steady ε s t) : Steady ε s (elemOffset x t).2 :=
  .ite_of (p := Prod.snd) h (free_steady h)

theorem execVgather_steady {hart : Hart} {d a b : BitVec 5} {w pm : BitVec 3} (h : Steady ε s t) :
    SteadyNext ε s (execVgather hart d a b w pm t) := by
  fun_cases execVgather hart d a b w pm t
  exact hartOp_steady h fun _ _ h => progReads_steady (elemOffset_steady h) fun _ g => g.upd

theorem execVscatter_steady {hart : Hart} {d a b : BitVec 5} {w pm : BitVec 3} (h : Steady ε s t) :
    SteadyNext ε s (execVscatter hart d a b w pm t) := by
  fun_cases execVscatter hart d a b w pm t
  exact hartOp_steady h fun _ _ h => .foldl (fun _ _ g => .ite (write_steady g) <|
      write_steady (free_steady g)) (elemOffset_steady h)

theorem execVsample_steady {hart : Hart} {a : BitVec 5} {w : BitVec 3} (h : Steady ε s t) :
    SteadyNext ε s (execVsample hart a w t) := by
  fun_cases execVsample hart a w t
  exact hartOp_steady h fun _ _ h => progReads_steady (unitOffset_steady h) fun _ g => .ite (progConds_steady
      (winWrite_steady g)) <| progReads_steady g fun _ k => progConds_steady (winWrite_steady k)

end

/-! ## Tiles, collectives and the loader -/

section
variable {ε : Excuse} {s t u : State}

theorem countProducts_steady {acct core : Nat} {x : Desc} {as bs : List (List Val)} (h : Steady ε s t) :
    Steady ε s (countProducts acct core x as bs t) := .upd <| .upd <| .upd (free_steady h)

theorem writeCodes_steady {acct a w : Nat} {codes : List Nat} (h : Steady ε s t) : Steady ε s (writeCodes acct a w codes t) :=
  write_steady h.upd

theorem OutPlane.store_steady {o : OutPlane} {acct m n : Nat} {vals : List Word} (h : Steady ε s t) :
    Steady ε s (OutPlane.store o acct m n vals t).1 := by
  refine .ite_of (p := Prod.fst) (.foldl (fun _ _ h => write_steady h) <| .foldl (fun _ _ h => writeCodes_steady h) h) ?_
  exact .foldl (fun _ _ h => writeCodes_steady h) h

theorem epilogue_steady {p : Pkg} {d : Desc} {outs : List LaOut} (h : Steady ε s t) :
    Steady ε s (epilogue p d outs t).1 := by
  have amax := amaxMerge_steady (p := p) (tid := d.tensorId)
    (w := finiteMax ((outs.filter fun o => !o.nonfinite).map (·.word))) h
  unfold epilogue
  exact .ite_of (p := Prod.fst)
    (OutPlane.store_steady (OutPlane.store_steady (.ite_of (p := Prod.fst) (OutPlane.store_steady amax) amax)))
    (OutPlane.store_steady (.ite_of (p := Prod.fst) (OutPlane.store_steady amax) amax))

theorem Pkg.rerunProducts_steady {p : Pkg} {i : Nat} {last : Desc} {A : Int} (h : Steady ε s t) :
    Steady ε s (Pkg.rerunProducts p i last A t).2 := by
  refine .foldl_snd (fun _ _ h => ?_) h
  split
  · exact countProducts_steady h
  · exact h

theorem rerunTile_steady {p : Pkg} {i : Nat} {A : Int} (h : Steady ε s t) :
    Steady ε s (rerunTile p i A t).1 := by
  fun_cases rerunTile p i A t
  · exact h
  · exact pkgReads_steady h (fun _ h => h)
  · exact structFail_steady (.of_snd (Pkg.rerunProducts_steady h.upd) ‹_›)
  · exact pkgWrites_steady (.of_snd (Pkg.rerunProducts_steady h.upd) ‹_›) (fun _ h => h)
  · exact .of_snd (Pkg.rerunProducts_steady h.upd) ‹_›
  · exact write_steady <| charge_steady <| bump_steady <| num_steady <| bump_steady <| num_steady <|
      .of_snd (Pkg.rerunProducts_steady h.upd) ‹_›

theorem rerunGroup_steady {p : Pkg} {rgroup pass : Nat} {A : Int} {r : Rerun} (h : Steady ε s r.state) :
    Steady ε s (rerunGroup p rgroup pass A r).state := by
  refine .foldl_of (p := Rerun.state) (fun r d h => ?_) h
  exact .ite_of (p := Rerun.state) h (.ite_of (p := Rerun.state) (rerunTile_steady h) h.upd)

theorem rerunProducers_steady {p : Pkg} {rgroup pass : Nat} {A : Int} {r : Rerun} {asked : Asked} (h : Steady ε s t)
    (e : rerunProducers p rgroup pass A t = some (r, asked)) : Steady ε s r.state := by
  have own : Steady ε s (rerunGroup p rgroup pass A ⟨t, false, true⟩).state := rerunGroup_steady h
  unfold rerunProducers at e
  split at e
  · cases e
    exact h
  dsimp only at e
  split at e
  · cases e
  split at e
  · cases e
    exact h
  split at e
  · cases e
    exact .foldl_of (p := Rerun.state) (fun _ _ h => rerunGroup_steady h) own
  · cases e
    exact .foldl (fun _ _ h => sendTo_steady h) (.foldl_of (p := Rerun.state) (fun _ _ h => rerunGroup_steady h) own)

theorem execTile_steady {d : DescId} (h : Steady ε s t) : SteadyNext ε s (execTile d t) := by
  fun_cases execTile d t
  case case1 | case2 | case4 | case6 => exact .next h
  case case3 => exact .next <| stopWith_steady h fun _ h => h.upd
  case case5 =>
    exact .next <| workReads_steady h (fun _ h => h.upd) fun _ h => .upd <| .ite (countProducts_steady h) <|
        .upd (countProducts_steady h)

theorem finishTile_steady {p : Pkg} {core : Nat} {first : DescId} {chain : List Nat} {rgroup result : Nat} (h : Steady ε s t) :
    Steady ε s (finishTile p core first chain rgroup result t) := by
  fun_cases finishTile p core first chain rgroup result t
  · exact .foldl (fun _ _ h => completeDesc_steady h) <| releaseLinks_steady <| .foldl (fun _ _ h => h.upd) <|
        .upd (meterCycles_steady h)
  · exact releaseLinks_steady <| .foldl (fun _ _ h => h.upd) <| .upd (meterCycles_steady h)

theorem passEnd_steady {p : Pkg} {first : DescId} {core : Nat} {chain : List Nat} {run : TileRun} {last : Desc} {acc : List La}
    (h : Steady ε s t) :
    Steady ε s (passEnd p first core chain run last acc t) := by
  refine .ite (carry_steady h fun _ h => workWrites_steady h (fun _ g => g.upd) fun _ g => finishTile_steady (write_steady
      g.upd)) <| .ite ?_ <| workWrites_steady h (fun _ h => h.upd) fun _ h => finishTile_steady <|
      countConds_steady (epilogue_steady h)
  split
  · exact stopWith_steady h fun _ h => h.upd
  · exact .ite (rerunProducers_steady h ‹_›) <| .upd <| .upd <| .upd (rerunProducers_steady h ‹_›)

theorem execTilePassEnd_steady {d : DescId} (h : Steady ε s t) : SteadyNext ε s (execTilePassEnd d t) := by
  fun_cases execTilePassEnd d t
  case case1 | case2 | case4 => exact .next h
  case case3 =>
    refine .next <| workReads_steady h (fun _ h => h.upd) fun _ h => ?_
    split
    · dsimp only
      split
      · exact structFail_steady h.upd
      · exact passEnd_steady h
    dsimp only
    split
    · exact structFail_steady h.upd
    · exact passEnd_steady h

theorem contribute_steady {p : Pkg} {x : Desc} {c : Coll} {seat : Seat} {r : Round} (h : Steady ε s t) :
    Steady ε s (contribute p x c seat r t) := by
  fun_cases contribute p x c seat r t
  refine carry_steady h fun _ h => pkgReads_steady h fun _ g => ?_
  split
  · exact structFail_steady g
  · exact .foldl (fun _ _ h => sendTo_steady h) g.upd

theorem tellRerun_steady {o : Owed} {held : Bool} (h : Steady ε s t) : Steady ε s (tellRerun o held t) := sendTo_steady h

theorem answerOne_steady {o : Owed} (h : Steady ε s t) : Steady ε s (answerOne t o) := .ite h (tellRerun_steady h.upd)

theorem answerOwed_steady (h : Steady ε s t) : Steady ε s (answerOwed t) := .foldl (fun _ _ h => answerOne_steady h) h

theorem deliver_steady {d : DescId} {c : Coll} {res : Bytes} (h : Steady ε s t) : Steady ε s (deliver d c res t) := by
  fun_cases deliver d c res t
  · exact releaseLinks_steady h.upd
  · exact pkgWrites_steady h fun _ h => releaseLinks_steady <| .upd <| .upd (write_steady h)

theorem collectRow_steady {op : Nat} {d : DescId} (h : Steady ε s t) : SteadyNext ε s (collectRow op d t) := by
  fun_cases collectRow op d t
  case case1 | case2 | case6 => exact .next h
  case case3 => exact .next (structFail_steady h)
  case case4 => exact .next (deliver_steady h)
  case case5 => exact .next (.ite h h.upd)
  case case7 => exact .next (contribute_steady h.upd)

theorem failRound_steady {d : DescId} {c : Coll} {seat : Seat} {die : Nat} (h : Steady ε s t) :
    Steady ε s (failRound d c seat die t) := structFail_steady h.upd

theorem finishRound_steady {d : DescId} {c : Coll} {seat : Seat} {die result : Nat} {out : Bytes} (h : Steady ε s t) :
    Steady ε s (finishRound d c seat die result out t) := answerOwed_steady (deliver_steady h.upd)

theorem longSums_steady {c : Coll} {sums : List La} {members : Nat} (h : Steady ε s t) :
    Steady ε s (longSums c sums members t).2 := by
  refine .ite_of (p := Prod.snd) h ?_
  exact h.upd

theorem longSeen_steady {acct die : Nat} {c : Coll} {sums : List La} {sent : List Bytes} (h : Steady ε s t) :
    Steady ε s (longSeen acct die c sums sent t).2 := by
  fun_cases longSeen acct die c sums sent t
  exact .upd <| .upd <| .of_snd (longSums_steady h) ‹_›

theorem laRound_steady {d : DescId} {p : Pkg} {x : Desc} {c : Coll} {seat : Seat} {r : Round} {sent : List Bytes}
    {las : List (List La)} (h : Steady ε s t) :
    Steady ε s (laRound d p x c seat r sent las t) := by
  refine .ite ?_ <| .ite (finishRound_steady <| .upd (longSeen_steady h)) <|
      .ite (finishRound_steady (longSeen_steady h)) <| finishRound_steady <| countConds_steady <|
      amaxMerge_steady (longSeen_steady h)
  split
  · exact stopWith_steady h fun _ h => h
  · exact .ite (rerunProducers_steady h ‹_›) <| .upd <| .upd <| longSeen_steady (rerunProducers_steady h ‹_›)

theorem execRoundComplete_steady {d : DescId} {others : List (Nat × Bytes)} (h : Steady ε s t) :
    SteadyNext ε s (execRoundComplete d others t) := by
  fun_cases execRoundComplete d others t
  case case1 | case2 | case3 | case4 | case6 => exact .next h
  case case5 => exact .next <| .ite (deliver_steady h) h
  case case7 => exact .next <| stopWith_steady h fun _ h => h
  case case8 => exact .next <| .ite (contribute_steady h) h
  case case9 | case10 | case12 => exact .next <| failRound_steady <| .ite (contribute_steady h) h
  case case11 => exact .next <| laRound_steady <| .ite (contribute_steady h) h
  case case13 => exact .next <| finishRound_steady <| .ite (contribute_steady h) h

theorem landPut_steady {acct drop off : Nat} {js : JobSlot} {data : Bytes} (h : Steady ε s t)
    (e : landPut acct js drop off data t = some u) : Steady ε s u := by
  unfold landPut at e
  split at e
  · cases e
  split at e
  · cases e
  · cases e
    exact .upd (write_steady h.upd)

theorem bumpSomeDie_steady {src : Nat} (h : Steady ε s t) : Steady ε s (bumpSomeDie src t) := .upd (free_steady h)

theorem discardMsg_steady (h : Steady ε s t) : Steady ε s (discardMsg t) := whenOn_steady h <| .upd (bumpSomeDie_steady h)

theorem execPut_steady {d : DescId} (h : Steady ε s t) : SteadyNext ε s (execPut d t) := by
  fun_cases execPut d t
  case case1 | case2 | case4 => exact .next h
  case case3 => exact .next (structFail_steady h)
  case case5 =>
    refine .next <| carry_steady h fun _ h => pkgReads_steady h fun _ g => .ite ?_ <| .ite (.upd <|
        free_steady (sendTo_steady g.upd)) <| structFail_steady <| free_steady (sendTo_steady g.upd)
    split
    · exact structFail_steady (discardMsg_steady g.upd)
    · exact .upd (landPut_steady g.upd ‹_›)

theorem execPutLanded_steady {src : BitVec 13} {job : Word} {drop : BitVec 6} {off : Nat} {data : Bytes} (h : Steady ε s t) :
    SteadyNext ε s (execPutLanded src job drop off data t) := by
  fun_cases execPutLanded src job drop off data t
  · exact .next (discardMsg_steady h)
  · exact .next (discardMsg_steady h)
  · exact .next <| wakeUp_steady (landPut_steady h ‹_›)

theorem rerunShare_steady {pass : Nat} {r : Rerun} {q : Pkg × Nat} (h : Steady ε s r.state) :
    Steady ε s (rerunShare pass r q).state := by
  unfold rerunShare
  split
  · exact h
  · exact rerunGroup_steady h

theorem execRerunRequest_steady {src : BitVec 13} {job rkey : Word} {pass : BitVec 2} (h : Steady ε s t) :
    SteadyNext ε s (execRerunRequest src job rkey pass t) := by
  have shares : ∀ {qs : List (Pkg × Nat)} {r : Rerun}, Steady ε s r.state →
      Steady ε s (qs.foldl (rerunShare pass.toNat) r).state := .foldl_of (p := Rerun.state) fun _ _ h => rerunShare_steady h
  have awake := wakeUp_steady h
  fun_cases execRerunRequest src job rkey pass t
  · exact .next (discardMsg_steady h)
  · exact .next (answerOne_steady awake)
  · exact .next (tellRerun_steady awake)
  · exact .next awake
  · exact .next (shares awake)
  · exact .next (answerOne_steady (shares awake).upd)

theorem execPackageStart_steady {p : PkgId} (h : Steady ε s t) : SteadyNext ε s (execPackageStart p t) := by
  fun_cases execPackageStart p t
  case case1 | case2 | case4 => exact .next h
  case case3 => exact .next h.upd
  case case5 => exact .next <| pkgReads_steady h fun _ h => .upd <| .foldl (fun _ _ g => g.upd) (prologue_steady h)

theorem startDesc_steady {p : Pkg} {i : Nat} {d : Desc} (h : Steady ε s t) : Steady ε s (startDesc p i d t) := .ite h.upd h.upd

theorem closeDesc_steady {d : DescId} {p : Pkg} {x : Desc} {result : Word} (h : Steady ε s t) :
    Steady ε s (closeDesc d p x result t) := carry_steady h fun _ h => completeDesc_steady h

theorem execDescriptorStart_steady {d : DescId} (h : Steady ε s t) : SteadyNext ε s (execDescriptorStart d t) := by
  fun_cases execDescriptorStart d t
  case case1 | case2 | case6 => exact .next h
  case case3 => exact .next <| closeDesc_steady (startDesc_steady h)
  case case4 => exact .next (startDesc_steady h)
  case case5 => exact .next <| .upd (startDesc_steady h)

theorem execVectorProgram_steady {d : DescId} (h : Steady ε s t) : SteadyNext ε s (execVectorProgram d t) := by
  fun_cases execVectorProgram d t
  · exact .next h
  · exact .next h
  · exact .next h.upd

theorem segmentTurn_steady {d : DescId} {p : Pkg} {x : Desc} {f : State → State} (h : Steady ε s t)
    (hf : ∀ u, Steady ε s u → Steady ε s (f u)) :
    Steady ε s (segmentTurn d p x t f) := .ite (hf _ h.upd) h

theorem xferSegment_steady {d : DescId} {p : Pkg} {die : Nat} {b : Bytes} {seg : Nat} {k : State → State} (h : Steady ε s t)
    (hk : ∀ u, Steady ε s u → Steady ε s (k u)) :
    Steady ε s (xferSegment d p die b seg k t) := by
  fun_cases xferSegment d p die b seg k t
  · exact h
  · exact carry_steady h fun _ h => pkgReads_steady h fun _ g => pkgWrites_steady g fun _ k => hk _ <|
        .upd (Xf.copy_steady k)

theorem postedSegment_steady {d : DescId} {p : Pkg} {x : Desc} (h : Steady ε s t) : Steady ε s (postedSegment d p x t) := by
  fun_cases postedSegment d p x t
  · exact h
  · exact carry_steady h fun _ h => xferSegment_steady h fun _ g => .ite g.upd <| progEnd_steady (signalSem_steady g.upd)

theorem execXfer_steady {d : DescId} (h : Steady ε s t) : SteadyNext ε s (execXfer d t) := by
  fun_cases execXfer d t
  · exact .next h
  · exact .next <| segmentTurn_steady h fun _ h => postedSegment_steady h
  · exact .next <| segmentTurn_steady h fun _ h => xferSegment_steady h fun _ g => g.upd
  · exact .next h

theorem execSync_steady {d : DescId} (h : Steady ε s t) : SteadyNext ε s (execSync d t) := by
  fun_cases execSync d t
  case case1 | case2 | case5 => exact .next h
  case case3 => exact .next (closeDesc_steady h)
  case case4 => exact .next <| closeDesc_steady (startDesc_steady h)

theorem execPrefetch_steady {d : DescId} (h : Steady ε s t) : SteadyNext ε s (execPrefetch d t) := by
  fun_cases execPrefetch d t
  case case1 | case2 | case3 | case4 => exact .next h
  case case5 =>
    exact .next <| segmentTurn_steady h fun _ h => .ite h <| carry_steady h fun _ g => pkgReads_steady g fun _ k =>
        pkgWrites_steady k fun _ j => .upd (Pf.copySeg_steady j)

theorem execDescriptorComplete_steady {d : DescId} (h : Steady ε s t) : SteadyNext ε s (execDescriptorComplete d t) := by
  fun_cases execDescriptorComplete d t
  · exact .next h
  · exact .next h
  · exact .next <| carry_steady h fun _ h => .foldl (fun _ _ g => completeDesc_steady g) h
  · exact .next (closeDesc_steady h)

theorem execRunLimitExpiry_steady {p : PkgId} (h : Steady ε s t) : SteadyNext ε s (execRunLimitExpiry p t) := by
  fun_cases execRunLimitExpiry p t
  · exact .next h
  · exact .next (endPkg_steady h.upd)
  · exact .next (beginStop_steady h)
  · exact .next h

theorem execVectorTimeLimit_steady {core : BitVec 7} (h : Steady ε s t) : SteadyNext ε s (execVectorTimeLimit core t) := by
  fun_cases execVectorTimeLimit core t
  · exact .next h
  · exact .next <| progEnd_steady <| .upd (beginStop_steady h.upd)

theorem execBudgetExhausted_steady {hart : Hart} (h : Steady ε s t) : SteadyNext ε s (execBudgetExhausted hart t) := by
  fun_cases execBudgetExhausted hart t
  · exact .next h
  · exact .next (progEnd_steady h.upd)
  · exact .next h

theorem execForcedStop_steady {p : PkgId} (h : Steady ε s t) : SteadyNext ε s (execForcedStop p t) := by
  fun_cases execForcedStop p t
  · exact .next h
  · exact .next <| .ite (endPkg_steady h) h

theorem execWpCancel_steady {c : Cmd} (h : Steady ε s t) : SteadyNext ε s (execWpCancel c t) := by
  refine runCmd_steady h fun _ h => .check h ?_
  split
  · exact .done h
  refine .check h ?_
  dsimp only
  split
  · exact .check (beginStop_steady h) <| .wait (beginStop_steady h)
  · exact .done (beginStop_steady h)

theorem execSemRead_steady {c : Cmd} (h : Steady ε s t) : SteadyNext ε s (execSemRead c t) := by
  refine runCmd_steady h fun _ h => ?_
  split
  · exact .done h
  · exact .check h (.done h)

theorem addTensors_steady {p : Pkg} {ts : List Nat} (h : Steady ε s t) : Steady ε s (addTensors p ts t) := by
  refine .ite h.upd ?_
  split
  · exact h.upd
  · exact h

theorem acceptPkg_steady {p : Pkg} (h : Steady ε s t) : Steady ε s (acceptPkg p t) :=
  putRecord_steady <| .upd <| .upd (addTensors_steady h)

theorem discoverCode_steady {p : Pkg} (h : Steady ε s t) : Steady ε s (discoverCode p t) :=
  .foldl (fun _ _ h => .ite (discover_steady h) h) h

theorem execWpSubmit_steady {c : Cmd} (h : Steady ε s t) : SteadyNext ε s (execWpSubmit c t) := by
  refine runCmd_steady h fun _ h => .ite (.done h) <| .ite (.done h) ?_
  split
  · exact .done h
  · exact .done (discover_steady h)
  · exact .hold
  split
  · exact .done h
  · exact .ite (.done (discoverCode_steady h)) <| .done <| .upd (acceptPkg_steady h)

end

/-! ## Sequences, models and accounts -/

section
variable {ε : Excuse} {s t u : State}

theorem layerStep_steady {c : Copy} {plan : Bytes} {k : KvSet} {q : Seq} {j l : Nat} {x : List Word} (h : Steady ε s t) :
    Steady ε s (layerStep c plan k q j l x t).1 := by
  fun_cases layerStep c plan k q j l x t
  exact write_steady (write_steady h.upd)

theorem positionLogits_steady {c : Copy} {plan : Bytes} {k : KvSet} {q : Seq} {tok j : Nat} (h : Steady ε s t) :
    Steady ε s (positionLogits c plan k q tok j t).1 := by
  fun_cases positionLogits c plan k q tok j t
  refine .of_fst (.foldl_fst (fun _ _ h => ?_) h) ‹_›
  split
  · exact .of_fst (layerStep_steady h) ‹_›

theorem stepTokens_steady {slot : Nat} {m : Model} {epoch : Nat} {q : Seq} {drafts : List (Nat × Word)} (h : Steady ε s t) :
    Steady ε s (stepTokens slot m epoch q drafts t).1 := by
  fun_cases stepTokens slot m epoch q drafts t
  · exact h
  · refine .of_snd (free_steady <| .of_fst (.foldl_fst (fun _ _ h => ?_) h) ‹_›) ‹_›
    split
    · exact .of_fst (positionLogits_steady h) ‹_›

theorem notifySeq_steady {i : Nat} (h : Steady ε s t) : Steady ε s (notifySeq i t) := by
  fun_cases notifySeq i t
  · exact h
  · exact post_steady h

theorem stopIdleGrid_steady {slot : Nat} (h : Steady ε s t) : Steady ε s (stopIdleGrid slot t) := .ite h h.upd

theorem setSeqState_steady {i : Nat} {st : SeqState} (h : Steady ε s t) : Steady ε s (setSeqState i st t) := by
  fun_cases setSeqState i st t
  · exact stopIdleGrid_steady (notifySeq_steady h.upd)
  · exact notifySeq_steady h.upd

theorem scrambleSlot_steady {q : Seq} {m : Model} {slot : Nat} (h : Steady ε s t) : Steady ε s (scrambleSlot q m slot t) := by
  refine .foldl (fun _ _ h => ?_) h
  split
  · exact h
  · exact scramble_steady h

theorem freeTentative_steady {i : Nat} (h : Steady ε s t) : Steady ε s (freeTentative i t) := by
  fun_cases freeTentative i t
  · exact h
  · exact h
  · exact .upd <| .foldl (fun _ _ h => scrambleSlot_steady h) h

theorem endSeq_steady {i : Nat} {st : SeqState} {cause : Nat} (h : Steady ε s t) : Steady ε s (endSeq i st cause t) := by
  fun_cases endSeq i st cause t
  · exact h
  · exact finishWait_steady <| finishWait_steady <| setSeqState_steady <| .upd <| .upd (freeTentative_steady h)

theorem faultModel_steady {slot cause : Nat} (h : Steady ε s t) : Steady ε s (faultModel slot cause t) :=
  .foldl (fun _ _ h => endSeq_steady h) h

theorem lookupPrompt_steady {i : Nat} (h : Steady ε s t) : Steady ε s (lookupPrompt i t) := by
  fun_cases lookupPrompt i t
  · exact h
  · exact h
  · exact .upd <| .upd <| .of_snd (domainInst_steady h) ‹_›

theorem grantSeq_steady {i home : Nat} (h : Steady ε s t) : Steady ε s (grantSeq i home t) := by
  fun_cases grantSeq i home t
  · exact h
  · exact h
  · exact lookupPrompt_steady (setSeqState_steady h.upd)
  · exact .upd (setSeqState_steady h.upd)

theorem execAdmitGrant_steady {slot : BitVec 6} (h : Steady ε s t) : SteadyNext ε s (execAdmitGrant slot t) := by
  fun_cases execAdmitGrant slot t
  · exact .next (grantSeq_steady h)
  · exact .next h
  · exact .next h

theorem importRead_steady {acct : Nat} {x : Import} (h : Steady ε s t) : Steady ε s (importRead acct x t).2.2 := by
  fun_cases importRead acct x t
  · exact h
  · exact readPage_steady h

theorem execImportDone_steady {seq : BitVec 14} {ok : Bool} (h : Steady ε s t) :
    SteadyNext ε s (execImportDone seq ok t) := by
  fun_cases execImportDone seq ok t
  case case1 => exact .next h
  case case2 read _ => exact .next (.upd (.upd (.of_last (importRead_steady h) read)))
  case case3 read _ _ => exact .next (.upd (.of_last (importRead_steady h) read))
  case case4 read _ _ _ drawn _ =>
    exact .next (.upd (writePage_steady (drawFrame_steady (.of_last (importRead_steady h) read) drawn)))
  case case5 => exact .next h

theorem drawPages_steady {i n : Nat} (h : Steady ε s t) : Steady ε s (drawPages i n t) := by
  induction n with
  | zero => exact h
  | succ n ih =>
    unfold drawPages
    split
    · exact h
    split
    · exact h
    dsimp only
    split
    · exact ih
    split
    · exact ih
    split
    · exact ih
    · exact (drawFrame_steady ih ‹_›).upd

theorem tagSlots_steady {i a b tag : Nat} (h : Steady ε s t) : Steady ε s (tagSlots i a b tag t) := by
  fun_cases tagSlots i a b tag t
  · exact h
  · exact h
  · exact h.upd

theorem bindChunk_steady {i : Nat} {m : Model} {pin : Bool} (h : Steady ε s t) : Steady ε s (bindChunk i m pin t) :=
  .ite h.upd h.upd

theorem execPrefillLaunch_steady {seq : BitVec 14} (h : Steady ε s t) : SteadyNext ε s (execPrefillLaunch seq t) := by
  fun_cases execPrefillLaunch seq t
  case case1 | case2 | case3 | case4 => exact .next h
  case case5 => exact .next (bindChunk_steady h)
  case case6 => exact .next <| drawPages_steady (bindChunk_steady h)
  case case7 => exact .next <| endSeq_steady <| drawPages_steady (bindChunk_steady h)
  case case8 =>
    exact .next <| .upd <| .upd <| .foldl (fun _ _ h => h.upd) <| prologue_steady <| acceptPkg_steady <|
        tagSlots_steady <| drawPages_steady (bindChunk_steady h)

theorem writeRing_steady {slot : Nat} {recs : List Bytes} (h : Steady ε s t) : Steady ε s (writeRing slot recs t) := by
  fun_cases writeRing slot recs t
  · exact h
  · exact h
  · exact .upd <| write_steady <| .foldl (fun _ _ h => write_steady h) h

theorem commitStep_steady {i slot0 : Nat} {toks : List Tok} {epoch : Nat} {prefill : Bool} (h : Steady ε s t) :
    Steady ε s (commitStep i slot0 toks epoch prefill t).1 := by
  fun_cases commitStep i slot0 toks epoch prefill t
  · exact h
  · exact publishSeq_steady <| .upd <| freeTentative_steady (tagSlots_steady h.upd)

theorem enterDecode_steady {i : Nat} (h : Steady ε s t) : Steady ε s (enterDecode i t) := by
  fun_cases enterDecode i t
  · exact h
  · exact .upd (setSeqState_steady h)

theorem execFirstTokenCommit_steady {seq : BitVec 14} (h : Steady ε s t) : SteadyNext ε s (execFirstTokenCommit seq t) := by
  fun_cases execFirstTokenCommit seq t
  case case1 | case3 | case7 | case11 => exact .next h
  case case2 | case4 | case5 => exact .next (endSeq_steady h)
  case case6 => exact .next <| .ite (endSeq_steady h.upd) (endSeq_steady h)
  case case8 => exact .next <| publishSeq_steady (tagSlots_steady h.upd)
  case case9 => exact .next (endSeq_steady h.upd)
  case case10 =>
    refine .next ?_
    split
    · exact endSeq_steady <| writeRing_steady <| .of_fst (commitStep_steady h.upd) ‹_›
    · exact enterDecode_steady <| writeRing_steady <| .of_fst (commitStep_steady h.upd) ‹_›

theorem meterWave_steady {m : Model} (h : Steady ε s t) : Steady ε s (meterWave m t) := meterCycles_steady h

theorem stopWave_steady {slot : Nat} (h : Steady ε s t) : Steady ε s (stopWave slot t) := by
  fun_cases stopWave slot t
  · exact meterWave_steady h.upd
  · exact h
  · exact h

theorem dropWave_steady {slot : Nat} {w : Wave} (h : Steady ε s t) : Steady ε s (dropWave slot w t) := by
  refine .foldl (fun _ _ h => ?_) h
  split
  all_goals
    dsimp only
    split
    · exact .upd (freeTentative_steady h)
    · exact .ite (endSeq_steady <| .upd <| .upd <| .upd (freeTentative_steady h)) <| .ite (finishWait_steady <|
          setSeqState_steady <| .upd <| .upd <| .upd <| .upd (freeTentative_steady h)) <| .upd <| .upd <|
          .upd (freeTentative_steady h)

theorem execFrameEnd_steady {slot : BitVec 6} (h : Steady ε s t) : SteadyNext ε s (execFrameEnd slot t) := by
  fun_cases execFrameEnd slot t
  · exact .next h
  · exact .next <| .foldl (fun _ _ h => dropWave_steady h) <| .upd (stopWave_steady h)

theorem frameSeqs_steady {slot : Nat} {m : Model} (h : Steady ε s t) : Steady ε s (frameSeqs slot m t).1 := by
  fun_cases frameSeqs slot m t
  exact .foldl_fst (fun _ _ h => .ite_of (p := Prod.fst) h h.upd) <| .ite (discover_steady h) h

theorem execFrameStart_steady {slot : BitVec 6} (h : Steady ε s t) : SteadyNext ε s (execFrameStart slot t) := by
  fun_cases execFrameStart slot t
  case case1 | case2 | case4 => exact .next h
  case case3 => exact .next (stopIdleGrid_steady h)
  case case5 => exact .next h.upd
  case case6 => exact .next <| .upd <| .of_fst (frameSeqs_steady h.upd) ‹_›

theorem wipeWhere_steady {p : Nat → Bool} (h : Steady ε s t) : Steady ε s (t.wipeWhere p) := h.upd

theorem wipeDie_steady {d : Nat} (h : Steady ε s t) : Steady ε s (wipeDie d t) := wipeWhere_steady h

theorem endMoves_steady {p : MoveOp → Bool} {st : Status} (h : Steady ε s t) : Steady ε s (endMoves p st t) :=
  .foldl (fun _ _ h => finishWait_steady h) h.upd

theorem wipeRanges_steady {rs : List (Nat × Nat)} (h : Steady ε s t) : Steady ε s (wipeRanges rs t) :=
  .foldl (fun _ _ h => wipeRange_steady h) h

theorem readKeys_steady {tr : Traffic} {acct : Nat} {ks : List (Nat × Nat)} (h : Steady ε s t) :
    Steady ε s (State.readKeys tr acct ks t).2 := engineRead_steady h

theorem dropModel_steady {slot : Nat} (h : Steady ε s t) : Steady ε s (dropModel slot t) :=
  .upd <| .upd <| .upd (wipeWhere_steady h)

theorem sendPart_steady {die : Option Nat} {j : JobSlot} {part kind : Nat} {data : Bytes} (h : Steady ε s t) :
    Steady ε s (sendPart die j part kind data t) := sendTo_steady h

theorem sendParts_steady {j : JobSlot} {kind : Nat} {data : Bytes} (h : Steady ε s t) : Steady ε s (sendParts j kind data t) :=
  .foldl (fun _ _ h => sendPart_steady h) h

theorem tellReading_steady {m : Model} {on : Bool} (h : Steady ε s t) : Steady ε s (tellReading m on t) := by
  fun_cases tellReading m on t
  · exact sendPart_steady h
  · exact h

theorem setLater_steady {slot : Nat} {m : Model} {later : List (Nat × Word)} (h : Steady ε s t) :
    Steady ε s (setLater slot m later t) := .ite h.upd (tellReading_steady h.upd)

theorem dropLater_steady {slot : Nat} {m : Model} (h : Steady ε s t) : Steady ε s (dropLater slot m t) := setLater_steady h

theorem loseDeposits_steady {p : Deposit → Bool} (h : Steady ε s t) : Steady ε s (loseDeposits p t) := by
  refine .upd <| .foldl (fun _ _ h => ?_) h
  split
  · exact sendPart_steady h
  · exact h

theorem dropWaves_steady {slot : Nat} (h : Steady ε s t) : Steady ε s (dropWaves slot t) := by
  refine .upd ?_
  split
  · exact dropLater_steady <| stopWave_steady <| .foldl (fun _ _ h => freeTentative_steady h) h
  · exact stopWave_steady <| .foldl (fun _ _ h => freeTentative_steady h) h

theorem beginAcctStop_steady {a : Nat} (h : Steady ε s t) : Steady ε s (beginAcctStop a t) := by
  fun_cases beginAcctStop a t
  exact .upd <| .upd <| .upd <| .foldl (fun _ _ h => dropWaves_steady h) <| .foldl (fun _ _ h => beginStop_steady h.upd) h.upd

theorem disableCause_steady {a : Nat} {f : Causes → Causes} (h : Steady ε s t) : Steady ε s (disableCause a f t) :=
  .ite (beginAcctStop_steady h.upd) h.upd

theorem enterEnabled_steady {a : Nat} (h : Steady ε s t) : Steady ε s (enterEnabled a t) := .ite h.upd h.upd

theorem dropGen_steady {a : Nat} (h : Steady ε s t) : Steady ε s (dropGen a t) := by
  refine .upd <| .foldl (fun _ _ h => ?_) h
  split
  · exact .ite h.upd h
  · exact h

theorem killAndWipe_steady {a : Nat} (h : Steady ε s t) : Steady ε s (killAndWipe a t) := by
  fun_cases killAndWipe a t
  exact wipeWhere_steady <| wipeRanges_steady (killPkgs_steady h)

theorem stopWork_steady {a : Nat} (h : Steady ε s t) : Steady ε s (stopWork a t) := by
  have cleared : ∀ {u : State} {b : Bool} {f : Fabric → Fabric} {pkgs demand}, Steady ε s u →
      Steady ε s (if b then withdrawUnits (fun g => g.acct == a) { u.onFabric f with pkgs, demand }
        else { u.onFabric f with pkgs, demand }) := fun h => .ite h.upd h.upd
  unfold stopWork
  exact onAcct_steady <| cleared <| dropGen_steady <| .foldl (fun _ _ h => dropModel_steady h) <|
    wipeWhere_steady <| loseDeposits_steady (killAndWipe_steady h)

theorem settleAcct_steady {a : Nat} (h : Steady ε s t) : Steady ε s (settleAcct a t) :=
  .ite h.upd <| .ite h.upd (enterEnabled_steady h.upd)

theorem endCancelled_steady {a : Nat} (h : Steady ε s t) : Steady ε s (endCancelled a t) :=
  .foldl (fun _ _ h => endPkg_steady h) h

theorem settleWipe_steady {a : Nat} (h : Steady ε s t) : Steady ε s (settleWipe a t) := .foldl (fun _ _ h => h.upd) h

theorem execFunctionStopDone_steady {acct : BitVec 10} (h : Steady ε s t) : SteadyNext ε s (execFunctionStopDone acct t) := by
  fun_cases execFunctionStopDone acct t
  · exact .next h
  · exact .next <| finishWait_steady <| settleAcct_steady <| stopWork_steady <| settleWipe_steady <|
        finishAll_steady (endCancelled_steady h)

theorem quotaCmd_steady {c : Cmd} {k : Nat → Quota → Res} (h : Steady ε s t) (hk : ∀ x0 x1, SteadyRes ε s (k x0 x1)) :
    SteadyRes ε s (quotaCmd c t k) := .check h <| .check h <| readFor_steady h fun _ => .ite (hk _ _) (.done h)

theorem acctCmd_steady {c : Cmd} {k : Nat → Res} (h : Steady ε s t) (hk : ∀ x0, SteadyRes ε s (k x0)) :
    SteadyRes ε s (acctCmd c t k) := .check h <| .check h <| .check h (hk _)

theorem retag_steady (h : Steady ε s t) : Steady ε s (retag t) :=
  .foldl (fun _ _ h => h.upd) <| .foldl (fun _ _ h => .foldl (fun _ _ g => g.upd) h) h

end

/-! ## Registers, the ledger's operations, copies and weights -/

section
variable {ε : Excuse} {s t u : State}

theorem unmask_steady {fn vec : Nat} (h : Steady ε s t) : Steady ε s (unmask fn vec t) := .ite h.upd h.upd

theorem msixWrite_steady {fn off : Nat} {w : Word} (h : Steady ε s t) : Steady ε s (msixWrite fn off w t) := by
  fun_cases msixWrite fn off w t
  case case1 | case2 | case3 | case4 => exact h.upd
  case case5 => exact unmask_steady h

theorem funcWrite_steady {fn off : Nat} {w : Word} (h : Steady ε s t) : Steady ε s (funcWrite fn off w t) := by
  fun_cases funcWrite fn off w t
  case case1 | case2 | case3 | case5 | case6 | case8 | case9 | case10 | case11 => exact h.upd
  case case4 => exact moveTail_steady h
  case case7 | case12 => exact h

theorem execRegisterWrite_steady {fn : BitVec 10} {off : BitVec 20} {data : Bytes} (h : Steady ε s t) :
    SteadyNext ε s (execRegisterWrite fn off data t) := by
  fun_cases execRegisterWrite fn off data t
  · exact .next h
  · exact .next (ringDoorbell_steady h)
  · exact .next <| .ite (funcWrite_steady h) h
  · exact .next h.upd
  · exact .next <| .ite (msixWrite_steady h) <| .ite (msixWrite_steady (msixWrite_steady h)) h
  · exact .next h

theorem apReads_steady {fn a len : Nat} (h : Steady ε s t) : Steady ε s (apReads fn a len t) :=
  .ite (.upd <| .upd (discover_steady h)) h.upd

theorem execApertureRead_steady {fn : BitVec 10} {off : BitVec 36} {len : Nat} (h : Steady ε s t) :
    SteadyNext ε s (execApertureRead fn off len t) := by
  refine .ite (.next h) ?_
  split
  · exact .next h.upd
  · exact .next <| carry_steady h fun _ h => apReads_steady h.upd

theorem execApertureWrite_steady {fn : BitVec 10} {off : BitVec 36} {data : Bytes} (h : Steady ε s t) :
    SteadyNext ε s (execApertureWrite fn off data t) := by
  refine .ite (.next h) ?_
  split
  · exact .next h.upd
  · exact .next <| carry_steady h fun _ h => .ite h.upd (write_steady h.upd)

theorem onLed_steady {ld : BitVec 2} {f : LedRegs → LedRegs} (h : Steady ε s t) : SteadyNext ε s (onLed ld f t) :=
  .next (whenOn_steady h h.upd)

theorem resolveHeld_steady {slot : Nat} (h : Steady ε s t) : Steady ε s (resolveHeld slot t) := by
  fun_cases resolveHeld slot t
  case case1 | case2 => exact h
  case case3 | case4 => exact finishWait_steady h.upd

theorem sendDeposit_steady {m : Model} {c : CopyJob} {whole : Bool} {t₀ : DWord} (h : Steady ε s t) :
    Steady ε s (sendDeposit m c whole t₀ t) := by
  fun_cases sendDeposit m c whole t₀ t
  · exact h
  · exact .foldl (fun _ _ h => sendPart_steady h) h

theorem startDrain_steady {p slot : Nat} {m : Model} {id flags kind : Nat} {crossing request : Bool} (h : Steady ε s t) :
    Steady ε s (startDrain p slot m id flags kind crossing request t) := by
  fun_cases startDrain p slot m id flags kind crossing request t
  · exact sendDeposit_steady <| .upd <| .ite (dropLater_steady <| .upd (.of_snd h.upd ‹_›)) <| .upd (.of_snd h.upd ‹_›)
  · exact .ite (dropLater_steady <| .upd (.of_snd h.upd ‹_›)) <| .upd (.of_snd h.upd ‹_›)

theorem restoreShard_steady {slot : Nat} {m : Model} {g : Group} {x : Shard × Nat} {b : Bytes} (h : Steady ε s t) :
    Steady ε s (restoreShard slot m g x b t) := by
  fun_cases restoreShard slot m g x b t
  · exact .foldl (fun _ _ h => h.upd) <| .foldl (fun _ _ h => .foldl (fun _ _ g => .ite g (putState_steady g)) <|
        .ite (putHigh_steady h) <| putLow_steady (putHigh_steady h)) h
  · exact .foldl (fun _ _ h => .foldl (fun _ _ g => .ite g (putState_steady g)) <| .ite (putHigh_steady h) <|
        putLow_steady (putHigh_steady h)) h

theorem restoreShards_steady {slot : Nat} {m : Model} {xs : List (Shard × Nat)} {b : Bytes} (h : Steady ε s t) :
    Steady ε s (restoreShards slot m xs b t) := by
  induction xs generalizing b t with
  | nil => exact h
  | cons x xs ih =>
    unfold restoreShards
    split
    · exact ih h
    · exact ih (restoreShard_steady h)

theorem restoreCopy_steady {slot : Nat} {m : Model} {image : Bytes} (h : Steady ε s t) :
    Steady ε s (restoreCopy slot m image t) := .foldl (fun _ _ h => restoreShards_steady (.ite h.upd h)) h

theorem createEnd_steady {st : Status} {idx : Nat} (h : Steady ε s t) : SteadyRes ε s (createEnd st idx t) := .done h

theorem readTable_steady {acct a size n : Nat} {k : List Bytes → Res} (h : Steady ε s t) (hk : ∀ x0, SteadyRes ε s (k x0)) :
    SteadyRes ε s (readTable acct a size n t k) := by
  fun_cases readTable acct a size n t k
  · exact hk _
  · exact readHeld_steady h (fun _ h => createEnd_steady h) <| Res.after_steady (fun _ h => h.upd) (hk _)

theorem createModel_steady {c : Cmd} {b : Bytes} {traw sraw graw praw araw : List Bytes} (h : Steady ε s t) :
    SteadyRes ε s (createModel c b traw sraw graw praw araw t) := by
  fun_cases createModel c b traw sraw graw praw araw t
  case case1 | case2 | case3 | case4 | case5 | case6 | case7 | case8 | case9 | case10 | case11 => exact createEnd_steady h
  case case12 => exact createEnd_steady h.upd

theorem onModelCmd_steady {c : Cmd} {num : Nat} {ok : Bool} {k : Nat → Model → Res} (h : Steady ε s t)
    (hk : ∀ x0 x1, SteadyRes ε s (k x0 x1)) :
    SteadyRes ε s (onModelCmd c num ok t k) := by
  refine .check h ?_
  split
  · exact .done h
  split
  · exact .done h
  · exact hk _ _

theorem requestMove_steady {c : Cmd} {slot : Nat} {m : Model} {kind : MoveKind} {limit : Nat} {f : MoveOp → MoveOp}
    (h : Steady ε s t) :
    SteadyRes ε s (requestMove c slot m kind limit f t) := .check h (.wait h.upd)

theorem execWtAnchorSet_steady {c : Cmd} (h : Steady ε s t) : SteadyNext ε s (execWtAnchorSet c t) := by
  refine runCmd_steady h fun _ h => onModelCmd_steady h fun _ _ => ?_
  split
  · exact .done h
  · exact .check h <| .check h (.done h.upd)

theorem withdrawCopy_steady {slot : Nat} (h : Steady ε s t) : Steady ε s (withdrawCopy slot t) := faultModel_steady h.upd

end

/-! ## Moving operations and the ledger's passes -/

section
variable {ε : Excuse} {s t u : State}

theorem landRows_steady {acct : Nat} {lines : List (Nat × Bytes)} (h : Steady ε s t) : Steady ε s (landRows acct lines t) :=
  .foldl (fun _ _ h => putKey_steady h) h.upd

theorem mintShard_steady {slot : Nat} {m : Model} {o : MoveOp} {slot1 : Bool} {x : Shard × Nat} (h : Steady ε s t) :
    Steady ε s (mintShard slot m o slot1 x t) := .foldl (fun _ _ h => putKey_steady (putKey_steady h)) h

theorem carryFrozen_steady {slot : Nat} {old new : ModelMap} (h : Steady ε s t) : Steady ε s (carryFrozen slot old new t) := by
  refine .foldl (fun _ _ h => .foldl (fun _ _ g => .foldl (fun _ _ k => .foldl (fun _ _ j => ?_) k.upd) g) h) h
  split
  · exact .ite (putKey_steady (putKey_steady j)) (putKey_steady j)
  · exact j

theorem mintFor_steady {slot : Nat} {m : Model} {o : MoveOp} {x : Shard × Nat} (h : Steady ε s t) :
    Steady ε s (mintFor slot m o x t) := .ite (mintShard_steady (mintShard_steady h)) (mintShard_steady h)

theorem endTurn_steady {p slot : Nat} {o : MoveOp} {st : Status} {outcome part us : Nat} (h : Steady ε s t) :
    Steady ε s (endTurn p slot o st outcome part us t) := by
  fun_cases endTurn p slot o st outcome part us t
  · exact resolveHeld_steady (.ite h.upd h.upd)
  · exact finishWait_steady <| resolveHeld_steady (.ite h.upd h.upd)

theorem commitLoad_steady {p slot : Nat} {o : MoveOp} (h : Steady ε s t) : Steady ε s (commitLoad p slot o t) :=
  finishWait_steady h.upd

theorem flipDrain_steady {p slot : Nat} {d : Decision} (h : Steady ε s t) : Steady ε s (flipDrain p slot d t) := by
  fun_cases flipDrain p slot d t
  · exact h
  · exact h
  · exact h.upd
  · exact startDrain_steady h.upd

theorem flipTurn_steady {p slot : Nat} {m : Model} {o : MoveOp} {d : Decision} (h : Steady ε s t) :
    Steady ε s (flipTurn p slot m o d t) := endTurn_steady (flipDrain_steady h.upd)

theorem flipRebuild_steady {p slot : Nat} {m : Model} {o : MoveOp} (h : Steady ε s t) : Steady ε s (flipRebuild p slot m o t) :=
  endTurn_steady <| .upd <| .upd <| .ite (carryFrozen_steady h) h

theorem endWithdrawn_steady {p slot : Nat} {m : Model} {o : MoveOp} {st : Status} {part : Nat} (h : Steady ε s t) :
    Steady ε s (endWithdrawn p slot m o st part t) := endTurn_steady (withdrawCopy_steady h)

theorem undoLoad_steady {slot : Nat} {o : MoveOp} {st : Status} (h : Steady ε s t) :
    Steady ε s (undoLoad slot o st t) :=
  .ite h.upd h

theorem failMove_steady {p slot : Nat} {m : Model} {o : MoveOp} {st : Status} {part tensor : Nat} (h : Steady ε s t) :
    Steady ε s (failMove p slot m o st part tensor t) := by
  fun_cases failMove p slot m o st part tensor t
  · exact finishWait_steady <| .upd (undoLoad_steady h)
  · exact finishWait_steady h.upd
  · exact h.upd
  · exact endTurn_steady h
  · exact endWithdrawn_steady h
  · exact h
  · exact h

theorem applyEnd_steady {d : Decision} (h : Steady ε s t) : Steady ε s (applyEnd d t) := by
  fun_cases applyEnd d t
  case case1 | case2 | case4 | case9 | case10 => exact h
  case case3 => exact failMove_steady h
  case case5 => exact commitLoad_steady h
  case case6 => exact finishWait_steady h.upd
  case case7 => exact flipTurn_steady h
  case case8 => exact flipRebuild_steady h

theorem decideWith_steady {act : Decision → State → State} {d : Decision} (h : Steady ε s t)
    (hact : ∀ x0 u, Steady ε s u → Steady ε s (act x0 u)) :
    Steady ε s (decideWith act d t) := by
  refine hact _ _ ?_
  split
  · exact sendParts_steady h.upd
  · exact h.upd

theorem takeWith_steady {act : Decision → State → State} {r : Report} (h : Steady ε s t)
    (hact : ∀ x0 u, Steady ε s u → Steady ε s (act x0 u)) :
    Steady ε s (takeWith act r t) := by
  fun_cases takeWith act r t
  · exact h
  · exact decideWith_steady h fun _ _ h => hact _ _ h
  · exact decideWith_steady h.upd fun _ _ h => hact _ _ h
  · exact h.upd

theorem reportWith_steady {act : Decision → State → State} {m : Model} {o : MoveOp} {kind : BarrierKind} {ready : Bool}
    {st : Status} {tensor : Nat} (h : Steady ε s t) (hact : ∀ x0 u, Steady ε s u → Steady ε s (act x0 u)) :
    Steady ε s (reportWith act m o kind ready st tensor t) := by
  refine .ite (takeWith_steady h.upd fun _ _ h => hact _ _ h) ?_
  split
  · exact sendPart_steady h.upd
  · exact h.upd

theorem reportReady_steady {p slot : Nat} (h : Steady ε s t) : Steady ε s (reportReady p slot t) := by
  fun_cases reportReady p slot t
  · exact reportWith_steady h.upd fun _ _ h => applyEnd_steady h
  · exact h
  · exact h

theorem failHere_steady {p slot : Nat} {m : Model} {o : MoveOp} {st : Status} {tensor : Nat} (h : Steady ε s t) :
    Steady ε s (failHere p slot m o st tensor t) := by
  refine .ite (endWithdrawn_steady h) ?_
  split
  · exact reportWith_steady h.upd fun _ _ h => applyEnd_steady h
  · exact h

theorem copyBuilt_steady {p slot : Nat} (h : Steady ε s t) : Steady ε s (copyBuilt p slot t) := by
  fun_cases copyBuilt p slot t
  · exact endTurn_steady h.upd
  · exact reportReady_steady h
  · exact h

theorem buildOrPass_steady {p slot : Nat} (h : Steady ε s t) : Steady ε s (buildOrPass p slot t) := by
  fun_cases buildOrPass p slot t
  · exact copyBuilt_steady h
  · exact h
  · exact h

theorem applyEntry_steady {d : Decision} (h : Steady ε s t) : Steady ε s (applyEntry d t) := by
  fun_cases applyEntry d t
  · exact h
  · exact h
  · exact buildOrPass_steady h.upd
  · exact reportReady_steady h.upd

theorem applyDecision_steady {d : Decision} (h : Steady ε s t) : Steady ε s (applyDecision d t) :=
  .ite (applyEntry_steady h) (applyEnd_steady h)

theorem execBarrierReport_steady {r : Report} (h : Steady ε s t) : SteadyNext ε s (execBarrierReport r t) := by
  fun_cases execBarrierReport r t
  · exact .next (discardMsg_steady h)
  · exact .next <| .ite (takeWith_steady (wakeUp_steady h) fun _ _ h => applyDecision_steady h) (wakeUp_steady h)

theorem execBarrierDecision_steady {d : Decision} (h : Steady ε s t) : SteadyNext ε s (execBarrierDecision d t) := by
  fun_cases execBarrierDecision d t
  · exact .next (discardMsg_steady h)
  · exact .next (wakeUp_steady h)
  · exact .next <| .ite (sendPart_steady (wakeUp_steady h)) <| applyDecision_steady <| .upd <|
        sendPart_steady (wakeUp_steady h)

theorem hearAck_steady {j : JobSlot} {part : Nat} {kind : BarrierKind} {inst : Word} (h : Steady ε s t) :
    Steady ε s (hearAck j part kind inst t) := .ite h h.upd

theorem answerAsk_steady {j : JobSlot} {part : Nat} {kind : BarrierKind} {inst : Word} (h : Steady ε s t) :
    Steady ε s (answerAsk j part kind inst t) := by
  fun_cases answerAsk j part kind inst t
  · exact sendPart_steady h
  · exact h

theorem repeatBarrier_steady {b : Barrier} (h : Steady ε s t) : Steady ε s (repeatBarrier b t) := by
  fun_cases repeatBarrier b t
  case case1 | case2 | case4 => exact h
  case case3 | case5 => exact .foldl (fun _ _ h => sendPart_steady h) h

theorem repeatBarriers_steady (h : Steady ε s t) : Steady ε s (repeatBarriers t) :=
  .foldl (fun _ _ h => repeatBarrier_steady h) h

theorem tryEntry_steady {p slot : Nat} (h : Steady ε s t) : Steady ε s (tryEntry p slot t) := by
  fun_cases tryEntry p slot t
  · exact h
  · exact reportWith_steady h.upd fun _ _ h => applyDecision_steady h
  · exact h

theorem Chip.mendArenas_fw (as : List Arena) (c : Chip) :
    (as.foldl (fun c a => c.mend a.vbase (64 * a.vlen)) c).fw = c.fw := by
  induction as generalizing c with
  | nil => rfl
  | cons a as ih => exact (ih _).trans (Chip.mend_fw ..)

theorem beginMove_steady {p : Nat} {m : Model} {o : MoveOp} (h : Steady ε s t) : Steady ε s (beginMove p m o t) := by
  fun_cases beginMove p m o t
  case case1 => exact failMove_steady (onMoves_steady h)
  case case2 =>
    refine onMoves_steady (Steady.same (charge_steady (wipeWhere_steady h)) rfl (congrArg _ (Chip.mendArenas_fw ..)))
  case case3 | case4 => exact tryEntry_steady h.upd
  case case5 => exact reportReady_steady h.upd
  case case6 => exact startDrain_steady h
  case case7 => exact h.upd

theorem execMovingOpStart_steady {part : BitVec 3} (h : Steady ε s t) : SteadyNext ε s (execMovingOpStart part t) := by
  fun_cases execMovingOpStart part t
  · exact .next <| .ite (tryEntry_steady h) h
  · exact .next h
  · exact .next h
  · exact .next h.upd
  · exact .next (finishWait_steady h.upd)
  · exact .next (beginMove_steady h.upd)

theorem segFailed_steady {p slot : Nat} {m : Model} {o : MoveOp} {x : Shard} (h : Steady ε s t) :
    Steady ε s (segFailed p slot m o x t) := .ite (failHere_steady h) h.upd

theorem fetchDone_steady {p slot : Nat} (h : Steady ε s t) : Steady ε s (fetchDone p slot t) := by
  fun_cases fetchDone p slot t
  · exact h.upd
  · exact reportReady_steady h.upd
  · exact buildOrPass_steady h.upd

theorem putLoaded_steady {slot : Nat} {m : Model} {i r c : Nat} {x : Shard} {split : Bool} {hs : List (BitVec 16 × BitVec 16)}
    (h : Steady ε s t) :
    Steady ε s (putLoaded slot m i r c x split hs t) := by
  fun_cases putLoaded slot m i r c x split hs t
  · exact putLow_steady <| putHigh_steady (putHigh_steady h.upd)
  · exact putHigh_steady (putHigh_steady h.upd)

theorem execLoadSegment_steady {slot : BitVec 6} {ok : Bool} (h : Steady ε s t) :
    SteadyNext ε s (execLoadSegment slot ok t) := by
  fun_cases execLoadSegment slot ok t
  case case1 | case3 => exact .next h
  case case2 => exact .next <| .ite h (fetchDone_steady h)
  case case4 => exact .next (segFailed_steady h.upd)
  case case5 => exact .next h.upd
  case case6 | case7 => exact .next (failHere_steady h.upd)
  case case8 =>
    exact .next <| .ite (fetchDone_steady <| .upd <| .foldl (fun _ _ h => putLoaded_steady h) h.upd) <| .upd <|
        .foldl (fun _ _ h => putLoaded_steady h) h.upd

theorem limitExpires_steady {p slot : Nat} {m : Model} {o : MoveOp} {tensor : Nat} (h : Steady ε s t) :
    Steady ε s (limitExpires p slot m o tensor t) := .ite h (failHere_steady h)

theorem execLoadLimitExpiry_steady {slot : BitVec 6} (h : Steady ε s t) : SteadyNext ε s (execLoadLimitExpiry slot t) := by
  fun_cases execLoadLimitExpiry slot t
  · exact .next <| .ite (limitExpires_steady h) h
  · exact .next h

theorem segAgain_steady {p slot : Nat} {m : Model} {o : MoveOp} {i : Nat} {g : MoveSeg} {f : MoveOp → MoveOp} (h : Steady ε s t)
    :
    Steady ε s (segAgain p slot m o i g f t) := .ite (failHere_steady h) h.upd

theorem execReshardSegment_steady {slot : BitVec 6} {data : Option Bytes} {ok : Bool} (h : Steady ε s t) :
    SteadyNext ε s (execReshardSegment slot data ok t) := by
  fun_cases execReshardSegment slot data ok t
  case case1 | case2 | case5 | case6 => exact .next h
  case case3 => exact .next <| segAgain_steady <| .of_snd (.ite_of (p := Prod.snd) (readKeys_steady h) h) ‹_›
  case case4 => exact .next (segAgain_steady h)
  case case7 =>
    exact .next <| carry_steady (.of_snd (.ite_of (p := Prod.snd) (readKeys_steady h) h) ‹_›) fun _ h => .upd <|
        .ite (landRows_steady h) <| .upd (landRows_steady h)

theorem reland_steady {p slot : Nat} {m : Model} {o : MoveOp} {l : Nat} (h : Steady ε s t) :
    Steady ε s (reland p slot m o l t) := by
  fun_cases reland p slot m o l t
  · exact segAgain_steady h
  · exact h

theorem execMintLayer_steady {slot : BitVec 6} (h : Steady ε s t) : SteadyNext ε s (execMintLayer slot t) := by
  fun_cases execMintLayer slot t
  case case1 | case2 | case3 => exact .next h
  case case4 => exact .next <| reland_steady <| .of_snd (readKeys_steady h) ‹_›
  case case5 =>
    exact .next <| .ite (copyBuilt_steady <| .upd <| .foldl (fun _ _ h => h.upd) <|
        .foldl (fun _ _ h => mintFor_steady h) <| .upd <| .of_snd (readKeys_steady h) ‹_›) <| .upd <|
        .foldl (fun _ _ h => h.upd) <| .foldl (fun _ _ h => mintFor_steady h) <| .upd <|
        .of_snd (readKeys_steady h) ‹_›

theorem execTurnLimitExpiry_steady {slot : BitVec 6} (h : Steady ε s t) : SteadyNext ε s (execTurnLimitExpiry slot t) := by
  fun_cases execTurnLimitExpiry slot t
  · exact .next <| .ite (limitExpires_steady h) h
  · exact .next h

theorem execInplaceDrainEnd_steady {slot : BitVec 6} (h : Steady ε s t) : SteadyNext ε s (execInplaceDrainEnd slot t) := by
  fun_cases execInplaceDrainEnd slot t
  · exact .next (.ite h.upd h)
  · exact .next h

theorem execOldEpochFree_steady {slot : BitVec 6} (h : Steady ε s t) : SteadyNext ε s (execOldEpochFree slot t) := by
  fun_cases execOldEpochFree slot t
  · exact .next h
  · exact .next h
  · exact .next h.upd

theorem execLearnLimitExpiry_steady {slot : BitVec 6} (h : Steady ε s t) : SteadyNext ε s (execLearnLimitExpiry slot t) := by
  fun_cases execLearnLimitExpiry slot t
  · exact .next <| .ite (limitExpires_steady h) h
  · exact .next h

theorem discardUnits_steady {slot : Nat} {t₀ : Tensor} {n acct : Nat} (h : Steady ε s t) :
    Steady ε s (discardUnits slot t₀ n acct t) := .ite h h.upd

theorem stageUnits_steady {slot : Nat} {m : Model} {i : Nat} {us : List StagedUnit} (h : Steady ε s t) :
    Steady ε s (stageUnits slot m i us t) := by
  fun_cases stageUnits slot m i us t
  case case1 | case2 | case3 => exact h.upd

theorem forwardUnits_steady {slot : Nat} {m : Model} {x : Shard × Nat} {us : List StagedUnit} (h : Steady ε s t) :
    Steady ε s (forwardUnits slot m x us t) := by
  refine .ite h <| .foldl (fun _ _ h => .ite (stageUnits_steady h) ?_) h
  split
  · exact sendPart_steady h
  · exact h

theorem stageRows_steady {d : DescId} {slot : Nat} {m : Model} {f : Feed} {x : Shard × Nat} {seg : Nat} (h : Steady ε s t) :
    Steady ε s (stageRows d slot m f x seg t) := .upd <| forwardUnits_steady <| discardUnits_steady (stageUnits_steady h)

theorem discardFeed_steady {d : DescId} {slot : Nat} {m : Model} {f : Feed} {bit : Nat} (h : Steady ε s t) :
    Steady ε s (discardFeed d slot m f bit t) := .upd (discardUnits_steady h)

theorem feedTurn_steady {d : DescId} {p : Pkg} {x : Desc} {f : State → State} (h : Steady ε s t)
    (hf : ∀ u, Steady ε s u → Steady ε s (f u)) :
    Steady ε s (feedTurn d p x t f) := .ite (hf _ h.upd) h

theorem denyCommit_steady {slot : Nat} (h : Steady ε s t) : Steady ε s (denyCommit slot t) := by
  fun_cases denyCommit slot t
  · exact finishWait_steady h.upd
  · exact h
  · exact h

theorem execLfeed_steady {d : DescId} (h : Steady ε s t) : SteadyNext ε s (execLfeed d t) := by
  fun_cases execLfeed d t
  case case1 | case2 | case3 | case4 | case5 | case6 | case10 => exact .next h
  case case7 | case8 => exact .next (discardFeed_steady h)
  case case9 => exact .next <| discardFeed_steady (denyCommit_steady h.upd)
  case case11 => exact .next <| feedTurn_steady h fun _ h => pkgReads_steady h fun _ g => stageRows_steady g

theorem passOneBlock_steady {ld : Nat} {m : Model} {st : LedStep} {b : BlockJob} (h : Steady ε s t) :
    Steady ε s (passOneBlock ld m st b t) := .ite h h.upd

theorem sendWides_steady {m : Model} {layer : Nat} {ws : List Wide} {failed : List Nat} (h : Steady ε s t) :
    Steady ε s (sendWides m layer ws failed t) := by
  fun_cases sendWides m layer ws failed t
  · exact h
  · exact sendParts_steady h.upd

theorem execLayerPass1_steady {slot : BitVec 6} {ld : BitVec 2} {layer : BitVec 16} (h : Steady ε s t) :
    SteadyNext ε s (execLayerPass1 slot ld layer t) := by
  fun_cases execLayerPass1 slot ld layer t
  case case1 | case2 | case3 => exact .next h
  case case4 => exact .next <| .of_snd (readKeys_steady h) ‹_›
  case case5 => exact .next <| .upd <| .foldl (fun _ _ h => passOneBlock_steady h) <| .of_snd (readKeys_steady h) ‹_›
  case case6 =>
    exact .next <| .ite (sendWides_steady <| .upd <| .foldl (fun _ _ h => passOneBlock_steady h) <|
        .of_snd (readKeys_steady h) ‹_›) <| .upd <| .foldl (fun _ _ h => passOneBlock_steady h) <|
        .of_snd (readKeys_steady h) ‹_›

theorem countOuts_steady {acct : Nat} {os : List LaOut} (h : Steady ε s t) : Steady ε s (countOuts acct os t) :=
  countConds_steady h

theorem raiseSingular_steady {m : Model} {st : LedStep} {layer : Nat} {groups : List Nat} (h : Steady ε s t) :
    Steady ε s (raiseSingular m st layer groups t) := .foldl (fun _ _ h => .upd (post_steady h)) h

theorem combineWides_steady {slot : Nat} {m : Model} {l : Nat} {others : List Wide} {failed : List Nat} (h : Steady ε s t) :
    Steady ε s (combineWides slot m l others failed t) := by
  fun_cases combineWides slot m l others failed t
  · exact h.upd
  · exact h.upd
  · exact countOuts_steady (raiseSingular_steady h.upd)

theorem execLedgerCombine_steady {slot : BitVec 6} {layer : BitVec 16} {others : List WideMsg}
    {failed : List (BitVec 13 × BitVec 12)} (h : Steady ε s t) :
    SteadyNext ε s (execLedgerCombine slot layer others failed t) := by
  fun_cases execLedgerCombine slot layer others failed t
  · exact .next h
  · exact .next h
  · exact .next <| combineWides_steady <| .foldl (fun _ _ h => discardMsg_steady h) h

theorem BlockJob.store_steady {b : BlockJob} {m : Model} {outs : List ElemOut} (h : Steady ε s t) :
    Steady ε s (BlockJob.store b m outs t) := by
  fun_cases BlockJob.store b m outs t
  exact .foldl (fun _ _ h => .foldl (fun _ _ g => .ite g (putState_steady g)) <| .ite (putHigh_steady h) <|
      putLow_steady (putHigh_steady h)) h

theorem passTwoBlock_steady {ld : Nat} {m : Model} {st : LedStep} {b : BlockJob} (h : Steady ε s t) :
    Steady ε s (passTwoBlock ld m st b t) := by
  have numbered : ∀ {u : State} {a i n : Nat}, Steady ε s u → Steady ε s (if n == 0 then u else u.num a i n) :=
    fun h => .ite h (num_steady h)
  have skipped : ∀ {u : State} {a n : Nat}, Steady ε s u →
      Steady ε s (if n == 0 then u else (u.num a 8 n).bump 0x800 8 (some a) none n) :=
    fun h => .ite h (bump_steady (num_steady h))
  have stored : ∀ {u : State} {c : Prop} [Decidable c] {freeCtr led led'}, Steady ε s u →
      Steady ε s (if c then { { u with freeCtr, led } with led := led' } else { u with freeCtr, led }) := fun h => .ite h.upd h.upd
  have damped : ∀ {u : State} {b : Bool} {a : Nat}, Steady ε s u → Steady ε s (if b then u.num a 10 1 else u) :=
    fun h => .ite (num_steady h) h
  unfold passTwoBlock
  exact damped <| numbered <| skipped <| countConds_steady <| onStep_steady <| stored (BlockJob.store_steady h)

theorem copyFrozen_steady {slot : Nat} {m : Model} {x : Shard × Nat} (h : Steady ε s t) : Steady ε s (copyFrozen slot m x t) :=
  .foldl (fun _ _ h => putHigh_steady h) h

theorem sendMirrors_steady {slot : Nat} {m : Model} {x : Shard × Nat} (h : Steady ε s t) :
    Steady ε s (sendMirrors slot m x t) := by
  fun_cases sendMirrors slot m x t
  · exact h
  · exact .foldl (fun _ _ h => sendPart_steady h) h

theorem tryCommit_steady {slot : Nat} (h : Steady ε s t) : Steady ε s (tryCommit slot t) := by
  fun_cases tryCommit slot t
  case case1 | case2 | case3 => exact h
  case case4 => exact finishWait_steady <| .upd <| sendWides_steady (countOuts_steady h)

theorem failStep_steady {slot : Nat} (h : Steady ε s t) : Steady ε s (failStep slot t) := by
  fun_cases failStep slot t
  · exact h
  · exact h
  · exact finishWait_steady h.upd

theorem readLayers_steady {slot : Nat} {m : Model} {ls : List Nat} (h : Steady ε s t) : Steady ε s (readLayers slot m ls t).2 :=
  readKeys_steady h

theorem drainReads_steady {slot layer : Nat} {m : Model} (h : Steady ε s t) : Steady ε s (drainReads slot layer m t).2 := by
  fun_cases drainReads slot layer m t
  case case1 | case3 | case4 => exact h
  case case2 => exact .ite (.upd <| .of_snd (readLayers_steady h) ‹_›) <| .of_snd (readLayers_steady h) ‹_›

theorem updateShard_steady {k d : Nat} {m : Model} {st : LedStep} {x : Shard × Nat} (h : Steady ε s t) :
    Steady ε s (updateShard k d m st t x) := by
  fun_cases updateShard k d m st t x
  · exact copyFrozen_steady h
  · exact .foldl (fun _ _ h => passTwoBlock_steady h) h
  · exact h

theorem execLayerPass2_steady {slot : BitVec 6} {ld : BitVec 2} {layer : BitVec 16} (h : Steady ε s t) :
    SteadyNext ε s (execLayerPass2 slot ld layer t) := by
  have drained : ∀ k l m, Steady ε s (drainReads k l m t).2 := fun _ _ _ => drainReads_steady h
  fun_cases execLayerPass2 slot ld layer t
  case case1 => exact .next h
  case case2 => exact .next h
  case case3 => exact .next h
  case case4 drain _ _ read _ =>
    exact .next (.of_snd (.ite_of (p := Prod.snd) (.of_snd (drained ..) drain)
      (readKeys_steady (.of_snd (drained ..) drain))) read)
  case case5 drain _ _ read _ _ _ _ =>
    have left := Steady.of_snd (.ite_of (p := Prod.snd) (.of_snd (drained ..) drain)
      (readKeys_steady (.of_snd (drained ..) drain))) read
    exact .next (tryCommit_steady (.foldl (fun _ _ h => sendMirrors_steady h)
      (.upd (.foldl (fun _ _ h => updateShard_steady h) (.upd (.upd left))))))

theorem landMirror_steady {slot : Nat} {m : Model} {x : Shard × Nat} {b : Bytes} (h : Steady ε s t) :
    Steady ε s (landMirror slot m x b t) := .foldl (fun _ _ h => putHigh_steady h) h.upd

theorem tryRestoreEnd_steady {p slot : Nat} (h : Steady ε s t) : Steady ε s (tryRestoreEnd p slot t) := by
  fun_cases tryRestoreEnd p slot t
  case case1 | case3 | case4 => exact h
  case case2 => exact finishWait_steady h.upd

theorem retryCommits_steady (h : Steady ε s t) : Steady ε s (retryCommits t) := by
  refine .foldl (fun _ _ h => ?_) <| .foldl (fun _ _ h => tryCommit_steady h) h
  split
  · exact tryRestoreEnd_steady h
  · exact h

theorem stageTwin_steady {slot : Nat} {m : Model} {x : Shard × Nat} {b : Bytes} (h : Steady ε s t) :
    Steady ε s (stageTwin slot m x b t) := .ite (stageUnits_steady h) h

theorem takeMirror_steady {slot : Nat} {m : Model} {x : Shard × Nat} {data : Option Bytes} (h : Steady ε s t) :
    Steady ε s (takeMirror slot m x data t) := by
  fun_cases takeMirror slot m x data t
  case case1 => exact stageTwin_steady h
  case case2 | case3 | case4 | case6 | case8 => exact h
  case case5 => exact tryCommit_steady <| .upd (landMirror_steady h)
  case case7 => exact tryRestoreEnd_steady <| .upd (landMirror_steady h)

theorem execMirrorTransfer_steady {slot : BitVec 6} {shard : Nat} {data : Option (BitVec 13 × Bytes)} (h : Steady ε s t) :
    SteadyNext ε s (execMirrorTransfer slot shard data t) := by
  fun_cases execMirrorTransfer slot shard data t
  case case1 | case2 => exact .next h
  case case3 | case5 => exact .next (takeMirror_steady h)
  case case4 => exact .next (discardMsg_steady h)

theorem execFeedLimitExpiry_steady {slot : BitVec 6} (h : Steady ε s t) : SteadyNext ε s (execFeedLimitExpiry slot t) := by
  fun_cases execFeedLimitExpiry slot t
  case case1 | case2 | case3 => exact .next h
  case case4 => exact .next (finishWait_steady h.upd)

end

/-! ## Ports, the fabric, power, the Beacon and counters -/

section
variable {ε : Excuse} {s t u : State}

theorem sendFrame_steady {type dst : Nat} {payload : Bytes} (h : Steady ε s t) : Steady ε s (sendFrame type dst payload t) := by
  fun_cases sendFrame type dst payload t
  · exact h
  · exact h.upd

theorem sendHealthAs_steady {m : MState} (h : Steady ε s t) : Steady ε s (sendHealthAs m t) := sendFrame_steady h

theorem sendHealth_steady (h : Steady ε s t) : Steady ε s (sendHealth t) := sendHealthAs_steady h

theorem routesChanged_steady (h : Steady ε s t) : Steady ε s (routesChanged t) := retryCommits_steady (flushWaits_steady h)

theorem resendSegments_steady {p : Nat} (h : Steady ε s t) : Steady ε s (resendSegments p t) := .ite h <| .upd (free_steady h)

theorem unroute_steady {p : Nat} (h : Steady ε s t) : Steady ε s (unroute p t) := .ite h (resendSegments_steady h.upd)

theorem reroute_steady {p : Nat} (h : Steady ε s t) : Steady ε s (reroute p t) := routesChanged_steady h.upd

theorem directRoute_steady {a : Nat} (h : Steady ε s t) : Steady ε s (directRoute a t) :=
  .ite (.ite h (routesChanged_steady h.upd)) (routesChanged_steady h.upd)

theorem hostDown_steady {n : Nat} (h : Steady ε s t) : Steady ε s (hostDown n t) := .ite h h.upd

theorem darken_steady {p cause : Nat} (h : Steady ε s t) : Steady ε s (darken p cause t) :=
  .ite h <| .ite h.upd <| .ite (unroute_steady h.upd) (hostDown_steady h.upd)

theorem darkenAll_steady {ps : List Nat} {cause : Nat} (h : Steady ε s t) : Steady ε s (darkenAll ps cause t) :=
  sendHealth_steady <| .foldl (fun _ _ h => darken_steady h) h

theorem relightAll_steady {cause : Nat} (h : Steady ε s t) : Steady ε s (relightAll cause t) := .foldl (fun _ _ h => h.upd) h

theorem tellLit_steady {old : State} (h : Steady ε s t) : Steady ε s (tellLit old t) := .ite h (sendHealth_steady h)

theorem carriesAgain_steady {p : Nat} (h : Steady ε s t) : Steady ε s (carriesAgain p t) := .ite (routesChanged_steady h) h

theorem retrain_steady {p : Nat} (h : Steady ε s t) : Steady ε s (retrain p t) := .ite h.upd <| .upd (hostDown_steady h.upd)

theorem lightUp_steady (h : Steady ε s t) : Steady ε s (lightUp t) := .ite (tellLit_steady (relightAll_steady h)) h

theorem execPortTrained_steady {port : BitVec 6} {good : BitVec 8} {peer : Option (BitVec 13)} {peerPort : BitVec 6}
    {tx rx : BitVec 16} (h : Steady ε s t) :
    SteadyNext ε s (execPortTrained port good peer peerPort tx rx t) := by
  fun_cases execPortTrained port good peer peerPort tx rx t
  · exact .next (lightUp_steady h)
  · exact .next <| .ite (.ite (.upd (lightUp_steady h)) <| .foldl (fun _ _ h => directRoute_steady h) <|
        .upd (lightUp_steady h)) <| reroute_steady <| .ite (.upd (lightUp_steady h)) <|
        .foldl (fun _ _ h => directRoute_steady h) <| .upd (lightUp_steady h)

theorem protectNotice_steady {cause phase : Nat} (h : Steady ε s t) : Steady ε s (protectNotice cause phase t) :=
  postAll_steady h

theorem laserGuard_steady {p l : Nat} {off : Bool} (h : Steady ε s t) : Steady ε s (laserGuard p l off t) := by
  fun_cases laserGuard p l off t
  · exact .upd <| .of_snd (free_steady h) ‹_›
  · exact sendHealth_steady <| protectNotice_steady <| .upd <| .upd <| .of_snd (free_steady h) ‹_›

theorem execLaserFault_steady {port : BitVec 7} {_lambda : BitVec 4} (h : Steady ε s t) :
    SteadyNext ε s (execLaserFault port _lambda t) := .ite (.next h) <| .next <| .upd (darken_steady h)

theorem assignRight_steady (h : Steady ε s t) : Steady ε s (assignRight t) := by
  refine .ite h ?_
  split
  · exact h.upd
  · exact h

theorem execHostLinkUp_steady {port : BitVec 2} {rate : BitVec 3} {width : BitVec 2} {flit sris : Bool} (h : Steady ε s t) :
    SteadyNext ε s (execHostLinkUp port rate width flit sris t) := by
  fun_cases execHostLinkUp port rate width flit sris t
  · exact .next (lightUp_steady h)
  · exact .next <| assignRight_steady <| .upd <| .upd (lightUp_steady h)

theorem execFabJobJoin_steady {c : Cmd} (h : Steady ε s t) : SteadyNext ε s (execFabJobJoin c t) := by
  refine runCmd_steady h fun _ h => .check h <| readFor_steady h fun _ => .check h <| .check h <| .check h (.check h ?_)
  split
  · exact .done h
  · exact .check h <| .done (sendParts_steady h.upd)

theorem onJob_steady {c : Cmd} {n : Nat} {ok : Bool} {k : Nat → JobSlot → Res} (h : Steady ε s t)
    (hk : ∀ x0 x1, SteadyRes ε s (k x0 x1)) :
    SteadyRes ε s (onJob c n ok t k) := by
  refine .check h ?_
  split
  · dsimp only
    split
    · exact .done h
    · exact hk _ _
  · exact .done h

theorem losePart_steady {acct : Nat} {job : Word} {part cause : Nat} (h : Steady ε s t) :
    Steady ε s (losePart acct job part cause t) := .upd (post_steady h)

theorem execJobFault_steady {src : BitVec 13} {job : Word} (h : Steady ε s t) : SteadyNext ε s (execJobFault src job t) := by
  fun_cases execJobFault src job t
  · exact .next (discardMsg_steady h)
  · exact .next <| losePart_steady (wakeUp_steady h)

theorem execPartLostTimeout_steady {job : Word} {part : BitVec 13} (h : Steady ε s t) :
    SteadyNext ε s (execPartLostTimeout job part t) := by
  fun_cases execPartLostTimeout job part t
  · exact .next h
  · exact .next <| .ite (losePart_steady h) h

theorem execDepositLost_steady {src : BitVec 13} {job : Word} {model : BitVec 16} {_die : BitVec 3} (h : Steady ε s t) :
    SteadyNext ε s (execDepositLost src job model _die t) := by
  fun_cases execDepositLost src job model _die t
  · exact .next (discardMsg_steady h)
  · exact .next <| post_steady <| .upd (wakeUp_steady h)
  · exact .next <| .upd <| post_steady <| .upd (wakeUp_steady h)

theorem landDeposit_steady {acct part model die : Nat} {data : Bytes} (h : Steady ε s t) :
    Steady ε s (landDeposit acct part model die data t) := by
  fun_cases landDeposit acct part model die data t
  case case1 | case2 => exact h
  case case3 | case4 => exact .upd (write_steady h.upd)
  case case5 => exact .upd <| write_steady <| write_steady (write_steady h.upd)

theorem transitFlit_steady {src dst : Nat} {job : Word} {vc level : Nat} {data : Bytes} (h : Steady ε s t) :
    Steady ε s (transitFlit src dst job vc level data t) := .ite (.upd (bumpSomeDie_steady h)) (launch_steady h)

theorem execFabricMessage_steady {src : BitVec 13} {job : Word} {body : FabBody} (h : Steady ε s t) :
    SteadyNext ε s (execFabricMessage src job body t) := by
  have deliver : ∀ f : Nat → JobSlot → State → State, (∀ a j u, Steady ε s u → Steady ε s (f a j u)) →
      Steady ε s (match t.recipient src.toNat job with
        | none => discardMsg t
        | some (acct, js) => f acct js (wakeUp t)) := by
    intro f hf
    split
    · exact discardMsg_steady h
    · exact hf _ _ _ (wakeUp_steady h)
  cases body
  case deposit => exact .next (deliver _ fun _ _ _ h => landDeposit_steady h)
  case transit => exact .next (.ite (deliver _ fun _ _ _ h => h) (whenOn_steady h (transitFlit_steady h)))
  case ackDecision => exact .next (deliver _ fun _ _ _ h => hearAck_steady h)
  case askDecision => exact .next (deliver _ fun _ _ _ h => answerAsk_steady h)
  case reran => exact .next (deliver _ fun _ _ _ h => .upd h.upd)
  case depositRead => exact .next (deliver _ fun _ _ _ h => h.upd)
  case other => exact .next (deliver _ fun _ _ _ h => h)

theorem duplicateAddr_steady (h : Steady ε s t) : Steady ε s (duplicateAddr t) :=
  .ite h <| .upd <| darkenAll_steady <| .upd (postAll_steady h)

theorem onCredits_steady {vault : Bool} {die : Nat} {f : Credits → Credits} (h : Steady ε s t) :
    Steady ε s (t.onCredits vault die f) := .ite h.upd h.upd

theorem granted_steady {vault : Bool} {die quarter acct n : Nat} {p : CreditReq → Bool} (h : Steady ε s t) :
    Steady ε s (granted vault die quarter acct n p t) := .ite h.upd h.upd

theorem grantPeriod_steady {vault : Bool} {die quarter : Nat} {wants : List Wants} {got : List Nat} (h : Steady ε s t) :
    Steady ε s (grantPeriod vault die quarter wants got t) :=
  .foldl (fun _ _ h => .foldl (fun _ _ g => granted_steady g) (onCredits_steady h)) h

theorem hbmPeriod_steady {die quarter : Nat} (h : Steady ε s t) : Steady ε s (hbmPeriod die quarter t) :=
  grantPeriod_steady <| .foldl (fun _ _ h => granted_steady h) (onCredits_steady h)

theorem vaultPeriod_steady {ld : Nat} (h : Steady ε s t) : Steady ε s (vaultPeriod ld t) := by
  fun_cases vaultPeriod ld t
  · exact grantPeriod_steady <| onCredits_steady <| grantPeriod_steady (onCredits_steady h)
  · exact grantPeriod_steady <| onCredits_steady <| grantPeriod_steady (onCredits_steady h)

theorem execCreditPeriod_steady {reqs : List CreditReq} (h : Steady ε s t) : SteadyNext ε s (execCreditPeriod reqs t) := by
  fun_cases execCreditPeriod reqs t
  exact .next <| .foldl (fun _ _ h => vaultPeriod_steady h) <| .foldl (fun _ _ h => .foldl (fun _ _ g => hbmPeriod_steady g)
      h) h.upd

theorem settleOverride_steady (h : Steady ε s t) : Steady ε s (settleOverride t) :=
  .ite h <| sendHealth_steady <| .foldl (fun _ _ h => protectNotice_steady h) h.upd

theorem execDividerStep_steady {die : BitVec 3} (h : Steady ε s t) : SteadyNext ε s (execDividerStep die t) := by
  fun_cases execDividerStep die t
  · exact .next h
  · exact .next h
  · exact .next (settleOverride_steady h.upd)

theorem applyBounds_steady {b : Bounds} (h : Steady ε s t) : Steady ε s (applyBounds b t) := settleOverride_steady h.upd

theorem enterPower_steady {t₀ : Nat} (h : Steady ε s t) : Steady ε s (enterPower t₀ t) :=
  .ite (darkenAll_steady h.upd) (sendHealth_steady h.upd)

theorem execPowerEntryDone_steady (h : Steady ε s t) : SteadyNext ε s (execPowerEntryDone t) := by
  fun_cases execPowerEntryDone t
  · exact .next h
  · exact .next h
  · exact .next <| .ite (wakeUp_steady <| finishWait_steady <|
        .ite (sendHealth_steady (relightAll_steady h.upd)) h.upd) <| finishWait_steady <|
        .ite (sendHealth_steady (relightAll_steady h.upd)) h.upd

theorem resumeHeld_steady (h : Steady ε s t) : Steady ε s (resumeHeld t) := .foldl (fun _ _ h => h.upd) h.upd

theorem execPowerExitDone_steady (h : Steady ε s t) : SteadyNext ε s (execPowerExitDone t) := by
  refine .ite (.next h) <| .next <| resumeHeld_steady <| sendHealth_steady (relightAll_steady ?_)
  split
  · exact applyBounds_steady h.upd
  · exact h.upd

theorem enterOverride_steady {cause : Nat} {dies : List Nat} {f : Override → Override} (h : Steady ε s t) :
    Steady ε s (enterOverride cause dies f t) := .ite h.upd <| sendHealth_steady (protectNotice_steady h.upd)

theorem leaveOverride_steady {cause : Nat} {dies : List Nat} {f : Override → Override} (h : Steady ε s t) :
    Steady ε s (leaveOverride cause dies f t) := settleOverride_steady h.upd

theorem dieHot_steady {d n : Nat} (h : Steady ε s t) : Steady ε s (dieHot d n t) :=
  .ite h.upd <| .ite h.upd <| .upd (enterOverride_steady h)

theorem currentHigh_steady (h : Steady ε s t) : Steady ε s (currentHigh t) :=
  .ite h <| .foldl (fun _ _ h => h.upd) (enterOverride_steady h)

theorem execThermalOverride_steady {what : Sensor} (h : Steady ε s t) : SteadyNext ε s (execThermalOverride what t) := by
  refine .ite (.next h) (.next ?_)
  split
  · exact dieHot_steady h
  · exact .ite h (enterOverride_steady h)
  · exact .ite h (enterOverride_steady h)
  · exact .ite h.upd (enterOverride_steady h)
  · exact currentHigh_steady h
  · exact .ite h (laserGuard_steady h)

theorem laserCool_steady {p : Nat} (h : Steady ε s t) : Steady ε s (laserCool p t) :=
  .ite h.upd <| .ite (.upd (retrain_steady h.upd)) (carriesAgain_steady h.upd)

theorem execOverrideClear_steady {what : Sensor} (h : Steady ε s t) : SteadyNext ε s (execOverrideClear what t) := by
  refine .next ?_
  split
  case h_6 =>
    exact .ite h <| .ite (.ite h.upd (leaveOverride_steady h)) <| laserCool_steady <| .ite h.upd (leaveOverride_steady h)
  all_goals exact .ite h <| .ite h.upd (leaveOverride_steady h)

theorem forwardFrame_steady {b : Bytes} (h : Steady ε s t) : Steady ε s (forwardFrame b t) := .ite h h.upd

theorem actSleep_steady {b : Bytes} (h : Steady ε s t) : Steady ε s (actSleep b t) := .ite h.upd <| .ite h (enterPower_steady h)

theorem ownFrame_steady {b : Bytes} (h : Steady ε s t) : Steady ε s (ownFrame b t) := by
  fun_cases ownFrame b t
  case case1 => exact duplicateAddr_steady h
  case case2 => exact wakeUp_steady h
  case case3 | case5 | case9 => exact h
  case case4 => exact actSleep_steady h
  case case6 | case7 => exact h.upd
  case case8 => exact finishWait_steady h.upd

theorem actEnum_steady {b : Bytes} (h : Steady ε s t) : Steady ε s (actEnum b t).2 := by
  fun_cases actEnum b t
  case case1 | case2 | case3 => exact h.upd

theorem beaconFrame_steady {frame : BitVec 512} (h : Steady ε s t) : Steady ε s (beaconFrame frame t) := by
  fun_cases beaconFrame frame t
  · exact h
  · exact h.upd
  · exact ownFrame_steady h
  · exact .ite_of (p := Prod.snd) (actEnum_steady h) <| .ite_of (p := Prod.snd) h.upd <|
        .ite_of (p := Prod.snd) (wakeUp_steady h) <| .ite_of (p := Prod.snd) (actSleep_steady h) h
  · exact forwardFrame_steady <| .ite_of (p := Prod.snd) (actEnum_steady h) <| .ite_of (p := Prod.snd) h.upd <|
        .ite_of (p := Prod.snd) (wakeUp_steady h) <| .ite_of (p := Prod.snd) (actSleep_steady h) h

theorem latchClear_steady {scope : Nat} {clear : Bool} (h : Steady ε s t) : Steady ε s (latchClear scope clear t) := .ite h.upd h

theorem execSampleLatch_steady {scope : BitVec 4} (h : Steady ε s t) : SteadyNext ε s (execSampleLatch scope t) := by
  fun_cases execSampleLatch scope t
  · exact .next h
  · exact .next h.upd
  · exact .next h
  · exact .next (latchClear_steady h.upd)
  · exact .next <| latchClear_steady <| .upd <| .upd <| .upd (give_steady h.upd)

theorem execNumAmaxRead_steady {c : Cmd} (h : Steady ε s t) : SteadyNext ε s (execNumAmaxRead c t) := by
  refine runCmd_steady h fun _ h => .check h ?_
  split
  · exact .done h
  · exact writeFor_steady h fun _ h => .done (h _)

theorem execNumAmaxSet_steady {c : Cmd} (h : Steady ε s t) : SteadyNext ε s (execNumAmaxSet c t) := by
  refine runCmd_steady h fun _ h => .check h ?_
  split
  · exact .done h
  refine .check h <| .check h (.check h.upd ?_)
  split
  · exact .done h.upd
  · exact .done h

theorem execAmaxRoll_steady {slot : BitVec 6} {tid : Word} {others : List (BitVec 13 × Word)} (h : Steady ε s t) :
    SteadyNext ε s (execAmaxRoll slot tid others t) := by
  fun_cases execAmaxRoll slot tid others t
  · exact .next h
  · exact .next h
  · refine .next (.upd ?_)
    dsimp +zetaDelta only
    split
    · exact sendParts_steady <| .foldl (fun _ _ h => discardMsg_steady h) h
    · exact .foldl (fun _ _ h => discardMsg_steady h) h

end

/-! ## Units, resets and firmware -/

section
variable {ε : Excuse} {s t u : State}

theorem conflict_steady {kind index outcome : Nat} (h : Steady ε s t) : Steady ε s (conflict kind index outcome t) :=
  postAll_steady h

theorem fenceCore_steady {i : Nat} (h : Steady ε s t) : Steady ε s (fenceCore i t) :=
  .foldl (fun _ _ h => beginStop_steady h) h.upd

theorem fenceEffects_steady {kind index : Nat} (h : Steady ε s t) : Steady ε s (fenceEffects kind index t) := by
  fun_cases fenceEffects kind index t
  · exact .foldl (fun _ _ h => fenceCore_steady h) h
  · exact fenceCore_steady h
  · exact h.upd
  · exact unroute_steady h
  · exact h

theorem compareViews_steady {k i : Nat} (h : Steady ε s t) : Steady ε s (compareViews k i t) :=
  .ite h <| conflict_steady (fenceEffects_steady h.upd)

theorem reinitUnit_steady {kind index : Nat} (h : Steady ε s t) : Steady ε s (reinitUnit kind index t) := by
  fun_cases reinitUnit kind index t
  · exact wipeWhere_steady <| wipeWhere_steady <| .foldl (fun _ _ h => h.upd) h
  · exact wipeWhere_steady h.upd
  · exact .foldl (fun _ _ h => .ite (stopWave_steady h) h) h
  · exact wipeWhere_steady <| wipeWhere_steady <| .upd (loseDeposits_steady h)
  · exact wipeWhere_steady (wipeWhere_steady h)
  · exact h

theorem loseUnit_steady {kind index : Nat} (h : Steady ε s t) : Steady ε s (loseUnit kind index t) := by
  fun_cases loseUnit kind index t
  exact sendHealth_steady <| .upd <| .foldl (fun _ _ h => .foldl (fun _ _ g => sendPart_steady g) h) <|
      .foldl (fun _ _ h => .ite (fenceEffects_steady h.upd) h) <| fenceEffects_steady <| .upd (postAll_steady h)

theorem endPartResets_steady (h : Steady ε s t) : Steady ε s (endPartResets t) :=
  .foldl (fun _ _ h => finishWait_steady h.upd) h

theorem execReconciliation_steady {kind index : BitVec 8} {passed : Bool} {data tag : BitVec 8} (h : Steady ε s t) :
    SteadyNext ε s (execReconciliation kind index passed data tag t) := by
  fun_cases execReconciliation kind index passed data tag t
  · exact .next h
  · exact .next h.upd
  · exact .next h
  · exact .next <| endPartResets_steady <| finishWait_steady <| .ite (reroute_steady <| .ite (compareViews_steady <|
        .ite (loseUnit_steady <| conflict_steady <| .upd <| .upd (reinitUnit_steady h)) <| conflict_steady <| .upd <|
        .upd (reinitUnit_steady h)) <| .ite (loseUnit_steady <| conflict_steady <| .upd <|
        .upd (reinitUnit_steady h)) <| conflict_steady <| .upd <| .upd (reinitUnit_steady h)) <|
        .ite (compareViews_steady <| .ite (loseUnit_steady <| conflict_steady <| .upd <| .upd (reinitUnit_steady h)) <|
        conflict_steady <| .upd <| .upd (reinitUnit_steady h)) <| .ite (loseUnit_steady <| conflict_steady <| .upd <|
        .upd (reinitUnit_steady h)) <| conflict_steady <| .upd <| .upd (reinitUnit_steady h)

theorem beforeReset_steady (h : Steady ε s t) : Steady ε s (beforeReset t) := (Steady.upd h).onImages rfl

theorem coordinatorFails_steady {p : Nat} (h : Steady ε s t) : Steady ε s (coordinatorFails p t) := by
  fun_cases coordinatorFails p t
  case case1 | case2 | case4 => exact h
  case case3 => exact decideWith_steady h fun _ _ h => h

theorem abortWaits_steady {accts : List Nat} (h : Steady ε s t) : Steady ε s (abortWaits accts t) :=
  .foldl (fun _ _ h => complete_steady h) h.upd

theorem reconcileAll_steady {n : Nat} (h : Steady ε s t) : Steady ε s (reconcileAll n t) := .foldl (fun _ _ h => .ite h h.upd) h

theorem resetCounters_steady {d : Nat} (h : Steady ε s t) : Steady ε s (resetCounters d t) := .upd (onCounters_steady h)

theorem dropFabricWork_steady {accts : List Nat} (h : Steady ε s t) : Steady ε s (dropFabricWork accts t) := h.upd

theorem resetPartition_steady {n : Nat} (h : Steady ε s t) : Steady ε s (resetPartition n t) := by
  unfold resetPartition
  exact endPartResets_steady <| reconcileAll_steady <| onPower_steady <| .upd <| .upd <| withdrawUnits_steady <|
    .foldl (fun _ _ h => resetCounters_steady (wipeDie_steady h)) <| onGens_steady <| .foldl (fun _ _ h => dropModel_steady h) <|
    dropFabricWork_steady <| abortWaits_steady <| endMoves_steady <| killPkgs_steady <| killPkgs_steady <| loseDeposits_steady <|
    coordinatorFails_steady (beforeReset_steady h)

theorem loseWork_steady (h : Steady ε s t) : Steady ε s (loseWork t) := .upd (withdrawUnits_steady (wipeWhere_steady h))

theorem Firmware.start_fuses (f : Firmware) : f.start.fuses = f.fuses := rfl

theorem coldState_steady (h : Steady ε s t) : Steady ε s (coldState t) :=
  (loseWork_steady h).same rfl (Firmware.start_fuses _)

theorem warmState_steady (h : Steady ε s t) : Steady ε s (warmState t) :=
  (loseWork_steady h).same rfl (Firmware.start_fuses _)

theorem darkenForReset_steady (h : Steady ε s t) : Steady ε s (darkenForReset t) :=
  .upd <| .foldl (fun _ _ h => darken_steady h) h

theorem healthResetting_steady {ms : Nat} (h : Steady ε s t) : Steady ε s (healthResetting ms t) := sendHealth_steady h.upd

theorem announceReset_steady (h : Steady ε s t) : Steady ε s (announceReset t) :=
  loseDeposits_steady <| .foldl (fun _ _ h => coordinatorFails_steady h) h

theorem resetModule_steady {k : ResetKind} (h : Steady ε s t) : Steady ε s (resetModule k t) := by
  fun_cases resetModule k t
  · exact coldState_steady <| healthResetting_steady <| darkenForReset_steady (announceReset_steady h.upd)
  · exact warmState_steady <| healthResetting_steady <| darkenForReset_steady (announceReset_steady h.upd)

theorem coldStart_steady (h : Steady ε s t) (ht : t.chip.power.inputPresent = false → ε.time) : Steady ε s (coldStart t) := by
  unfold coldStart
  refine coldState_steady ?_
  dsimp only
  by_cases lit : t.chip.power.inputPresent = true
  · rw [if_pos lit]
    exact h.upd
  · rw [if_neg lit]
    exact ⟨.inr (ht (eq_false_of_ne_true lit)), h.fuses⟩

theorem execPwrReset_steady {c : Cmd} (h : Steady ε s t) : SteadyNext ε s (execPwrReset c t) := by
  unfold execPwrReset
  dsimp only
  split
  case isTrue tripped =>
    have lit := (Bool.and_eq_true_iff.1 tripped).2
    exact .next <| .ite (coldStart_steady h fun dark => absurd lit (by simp [dark])) h
  case isFalse =>
    exact runCmd_steady h fun _ h => .check h <| .check h <| .ite (.gone (resetModule_steady h)) <|
      .ite (.gone (resetModule_steady h)) <| .check h <| .check h <| .ite (.wait (resetPartition_steady h)) <|
      .done (resetPartition_steady h)

theorem powerOff_steady (h : Steady ε s t) : Steady ε s (powerOff t) := by
  have kept : ∀ {u : State} {ten}, Steady ε s u → Steady ε s { u with ten } := fun h => h.upd
  have forgotten : ∀ {u : State} {ft} {f : Power → Power}, Steady ε s u → Steady ε s (({ u with ft } : State).onPower f) :=
    fun h => h.upd
  unfold powerOff
  exact forgotten (coldState_steady (kept (darkenForReset_steady h)))

theorem execPowerInputEnter_steady (h : Steady ε s t) (ht : t.chip.power.inputPresent = false → ε.time) :
    SteadyNext ε s (execPowerInputEnter t) := .next <| .ite h (coldStart_steady h ht)

/-- The Strongbox is erased where OWNER_LOCK may go. -/
theorem eraseStrongbox_steady (h : Steady ε s t) (hl : ε.lock) : Steady ε s (eraseStrongbox t) :=
  Steady.upd <| h.onFw ⟨le_rfl, le_rfl, id, id, .inl rfl, fun _ => .inr hl⟩

theorem finishWipe_steady (h : Steady ε s t) (hl : t.chip.fw.startFuse = true → t.chip.fw.doneFuse = false → ε.lock) :
    Steady ε s (finishWipe t) := by
  unfold finishWipe
  dsimp only
  split
  case isTrue begun =>
    simp only [Bool.and_eq_true, Bool.not_eq_true'] at begun
    exact (eraseStrongbox_steady h (hl begun.1 begun.2)).onImages rfl
  case isFalse => exact h

theorem readyAll_steady (h : Steady ε s t) : Steady ε s (readyAll t) := h.upd

theorem backToRun_steady (h : Steady ε s t) : Steady ε s (backToRun t) := sendHealth_steady h.upd

theorem fallBack_steady {type : BitVec 2} (h : Steady ε s t) : Steady ε s (fallBack t type) := .ite h (h.onImages rfl)

theorem execMailboxReady_steady (h : Steady ε s t) (hl : t.chip.fw.startFuse = true → t.chip.fw.doneFuse = false → ε.lock) :
    SteadyNext ε s (execMailboxReady t) := by
  unfold execMailboxReady
  exact .ite (.next h) <| .next <| backToRun_steady <| assignRight_steady <| readyAll_steady <| retag_steady <| relightAll_steady <|
    onPower_steady <| .foldl (fun _ _ h => fallBack_steady h) <| finishWipe_steady (free_steady h) hl

theorem darkenGroup_steady {g : Nat} (h : Steady ε s t) : Steady ε s (darkenGroup g t) := darkenAll_steady h.upd

theorem relightGroup_steady {g : Nat} (h : Steady ε s t) : Steady ε s (relightGroup g t) :=
  sendHealth_steady <| .upd <| .foldl (fun _ _ h => h.upd) h

theorem onActivation_steady {f : Activation → Activation} (h : Steady ε s t) : Steady ε s (t.onActivation f) := h.onImages rfl

theorem beginType_steady (h : Steady ε s t) : Steady ε s (beginType t) := by
  fun_cases beginType t
  · exact h
  · exact darkenGroup_steady (onActivation_steady h)
  · exact Steady.upd (onActivation_steady h)
  · exact onActivation_steady h

theorem endActivation_steady {st : Status} {failed : Nat} (h : Steady ε s t) : Steady ε s (endActivation st failed t) :=
  finishWait_steady (backToRun_steady (h.onImages rfl))

theorem onFwType_steady {k : Nat} {f : FwType → FwType} (h : Steady ε s t) : Steady ε s (t.onFwType k f) := h.onImages rfl

theorem typeDone_steady (h : Steady ε s t) : Steady ε s (typeDone t) := by
  fun_cases typeDone t
  · exact h
  · exact endActivation_steady (onActivation_steady (onFwType_steady h))
  · exact beginType_steady (onActivation_steady (onFwType_steady h))

theorem typeFails_steady (h : Steady ε s t) : Steady ε s (typeFails t) := by
  fun_cases typeFails t
  · exact h
  · exact endActivation_steady <| .ite (relightGroup_steady (onFwType_steady h)) (onFwType_steady h)

theorem execFirmwareReady_steady {ok : Bool} (h : Steady ε s t) : SteadyNext ε s (execFirmwareReady ok t) := by
  fun_cases execFirmwareReady ok t
  · exact .next h
  · exact .next <| .ite (typeFails_steady h) <| .ite h (typeDone_steady h)

theorem execOpticsGroupRelit_steady (h : Steady ε s t) : SteadyNext ε s (execOpticsGroupRelit t) := by
  fun_cases execOpticsGroupRelit t
  · exact .next h
  · exact .next h
  · refine .next ?_
    split
    · exact typeDone_steady <| onActivation_steady (relightGroup_steady h)
    · exact darkenGroup_steady <| onActivation_steady (relightGroup_steady h)

theorem execFwFloorRaise_steady {c : Cmd} (h : Steady ε s t) : SteadyNext ε s (execFwFloorRaise c t) := by
  refine runCmd_steady h fun u h => .check h <| .check h <| .check h ?_
  split
  case isTrue => exact .done h
  case isFalse above =>
    have raised : u.chip.fw.floor ≤ cmdU c 0 2 := by simpa using (not_le.1 (of_decide_eq_false (eq_false_of_ne_true above))).le
    exact .check h (.done (h.onFw ⟨raised, le_rfl, id, id, .inl rfl, .inl⟩))

/-- The life cycle moves on from a state that is not final. -/
theorem Steady.onLife {f : Firmware → Firmware} (h : Steady ε s t) (live : s.chip.fw.lifecycle ≠ .decommissioned) (life : ε.life)
    (lock : ε.lock) (floor : ∀ x, (f x).floor = x.floor) (claims : ∀ x, (f x).claims ≤ x.claims)
    (start : ∀ x, (f x).startFuse = true) : Steady ε s (t.onFw f) :=
  ⟨h.time, h.fuses.floor.trans (floor _).ge, (claims _).trans h.fuses.claims, fun _ => start _, fun final => absurd final live,
    .inr life, fun _ => .inr lock⟩

theorem changeLife_steady {act : Nat} {to_ : LifeCycle} {key : Bytes} (h : Steady ε s t)
    (live : s.chip.fw.lifecycle ≠ .decommissioned) (life : ε.life) (lock : ε.lock) : Steady ε s (changeLife act to_ key t) := by
  have announced : Steady ε s (healthResetting 0xFFFF (darkenForReset (((List.range 1024).filter fun fn =>
      (t.mail.waiting.any fun w => cmdA w.cmd == fn) || (t.mail.heldWake.any fun t => cmdA t.cmd == fn) ||
        !((t.func fn).taken ++ (t.func fn).fwQueue).isEmpty).foldl (fun s fn => finishAll fn .functionDisabled s) (announceReset t)))) :=
    healthResetting_steady <| darkenForReset_steady <| .foldl (fun _ _ h => finishAll_steady h) (announceReset_steady h)
  have fewer : ∀ n : Nat, (if act == 2 then n - 1 else n) ≤ n := fun n => by split <;> omega
  unfold changeLife
  refine coldState_steady (eraseStrongbox_steady ?_ lock)
  exact Steady.onLife announced live life lock (fun _ => rfl) (fun x => fewer x.claims) fun _ => rfl

/-- No action leads out of DECOMMISSIONED. -/
theorem transition_decommissioned (act : Nat) (token owner : Bytes) : transition act .decommissioned token owner = none := by
  unfold transition
  split <;> simp_all

theorem execLcChange_steady {c : Cmd} (h : Steady ε s t) (life : ε.life) (lock : ε.lock) :
    SteadyNext ε s (execLcChange c t) := by
  refine runCmd_steady h fun u h => .check h <| .check h <| readHeld_steady h (fun _ g => .done g) (.check h ?_)
  split
  case h_1 => exact .done h
  case h_2 leads =>
    have live : s.chip.fw.lifecycle ≠ .decommissioned := fun final => by
      rw [h.fuses.final final, transition_decommissioned] at leads
      cases leads
    refine .check h <| .check h <| .check h <| .check h <| .ite (.done ?unlocked) (.gone (changeLife_steady h live life lock))
    exact h.onFw ⟨le_rfl, le_rfl, id, id, .inl rfl, fun _ => .inr lock⟩

end

/-! ## Commands of sequences, secure copies and the ledger -/

section
variable {ε : Excuse} {s t u : State}

theorem bindSeq_steady {m : Model} {i : Nat} (h : Steady ε s t) : Steady ε s (bindSeq m i t) := by
  fun_cases bindSeq m i t
  · exact h
  · exact tagSlots_steady (drawPages_steady h.upd)

theorem execWaveStart_steady {slot : BitVec 6} (h : Steady ε s t) : SteadyNext ε s (execWaveStart slot t) := by
  fun_cases execWaveStart slot t
  case case1 | case2 | case3 => exact .next h
  case case4 => exact .next <| .upd <| .foldl (fun _ _ h => bindSeq_steady h) h

theorem commitSeq_steady {slot : Nat} {m : Model} {epoch : Nat} {weights bad : Bool} {i : Nat} {drafts : List (Nat × Word)}
    (h : Steady ε s t) :
    Steady ε s (commitSeq slot m epoch weights bad i drafts t).1 := by
  fun_cases commitSeq slot m epoch weights bad i drafts t
  · exact h
  · exact .of_snd (engineRead_steady h) ‹_›
  · exact .upd <| .of_snd (engineRead_steady h) ‹_›
  · exact .upd <| countConds_steady <| .of_fst (stepTokens_steady <| .of_snd (engineRead_steady h) ‹_›) ‹_›
  · exact .of_fst (commitStep_steady <| .upd <| countConds_steady <| .of_fst (stepTokens_steady <|
        .of_snd (engineRead_steady h) ‹_›) ‹_›) ‹_›

theorem settleSeq_steady {e : StepEnd} (h : Steady ε s t) : Steady ε s (settleSeq e t) := by
  fun_cases settleSeq e t
  · exact endSeq_steady h
  · exact h
  · exact finishWait_steady (setSeqState_steady h.upd)
  · exact h

theorem execWaveCommit_steady {slot : BitVec 6} {bad : List (BitVec 14)} (h : Steady ε s t) :
    SteadyNext ε s (execWaveCommit slot bad t) := by
  fun_cases execWaveCommit slot bad t
  case case1 | case2 | case3 => exact .next h
  case case4 =>
    refine .next <| .foldl (fun _ _ h => settleSeq_steady h) <| writeRing_steady <| .foldl_fst (fun _ _ h => ?_) <|
        .of_snd (engineRead_steady (meterWave_steady h.upd)) ‹_›
    split
    · exact .of_fst (commitSeq_steady h) ‹_›

theorem readPages_steady {acct : Nat} {ps : List Page} (h : Steady ε s t) : Steady ε s (readPages acct ps t).2.2 := by
  induction ps generalizing t with
  | nil => exact h
  | cons p ps ih => exact ih (readPage_steady h)

theorem copyPages_steady {i acct slot n : Nat} {vault : Bool} {ps : List (Page × Bytes)} (h : Steady ε s t)
    (e : copyPages i acct slot vault n ps t = some u) : Steady ε s u := by
  induction ps generalizing t with
  | nil => cases e; exact h
  | cons p ps ih =>
    unfold copyPages at e
    split at e
    · cases e
    · exact ih (writePage_steady (drawFrame_steady h ‹_›)).upd e

inductive SteadyMoved (ε : Excuse) (s : State) : Moved → Prop
  | done {t : State} (h : Steady ε s t) : SteadyMoved ε s (.done t)
  | unread {t : State} (h : Steady ε s t) : SteadyMoved ε s (.unread t)
  | noRoom : SteadyMoved ε s .noRoom

theorem SteadyMoved.of_done {r : Moved} (h : SteadyMoved ε s r) (e : r = .done u) : Steady ε s u := by
  subst e
  cases h
  assumption

theorem SteadyMoved.of_unread {r : Moved} (h : SteadyMoved ε s r) (e : r = .unread u) : Steady ε s u := by
  subst e
  cases h
  assumption

theorem movePages_steady {i n : Nat} {q : Seq} {vault : Bool} (h : Steady ε s t) :
    SteadyMoved ε s (movePages i q vault n t) := by
  fun_cases movePages i q vault n t
  · exact .unread (.of_last (readPages_steady h) ‹_›)
  · exact .noRoom
  · exact .done (copyPages_steady (.of_last (readPages_steady h) ‹_›) ‹_›).upd

theorem execParkDone_steady {seq : BitVec 14} {ok : Bool} (h : Steady ε s t) :
    SteadyNext ε s (execParkDone seq ok t) := by
  fun_cases execParkDone seq ok t
  · exact .next h
  · exact .next h
  · exact .next (finishWait_steady h.upd)
  · exact .next (finishWait_steady (.upd ((movePages_steady h).of_unread ‹_›).upd))
  · exact .next (.ite (finishWait_steady h.upd) (endSeq_steady h.upd))
  · exact .next (finishWait_steady (setSeqState_steady (.upd ((movePages_steady h).of_done ‹_›))))

theorem execRestoreDone_steady {seq : BitVec 14} {ok : Bool} (h : Steady ε s t) :
    SteadyNext ε s (execRestoreDone seq ok t) := by
  have moved : ∀ q, SteadyMoved ε s (if ok then movePages seq.toNat q false q.home t else .noRoom) := by
    intro q
    split
    · exact movePages_steady h
    · exact .noRoom
  fun_cases execRestoreDone seq ok t
  · exact .next h
  · exact .next h
  · exact .next (endSeq_steady h)
  · exact .next (endSeq_steady ((moved _).of_unread ‹_›))
  · exact .next (.upd ((moved _).of_done ‹_›))

theorem execAdmitWaitExpiry_steady {seq : BitVec 14} (h : Steady ε s t) : SteadyNext ε s (execAdmitWaitExpiry seq t) := by
  fun_cases execAdmitWaitExpiry seq t
  · exact .next h
  · exact .next <| .ite (endSeq_steady h) h

theorem execLifetimeExpiry_steady {seq : BitVec 14} (h : Steady ε s t) : SteadyNext ε s (execLifetimeExpiry seq t) := by
  fun_cases execLifetimeExpiry seq t
  · exact .next h
  · exact .next h
  · exact .next (beginStop_steady h.upd)
  · exact .next (endSeq_steady h)

theorem execPauseLimitExpiry_steady {seq : BitVec 14} (h : Steady ε s t) : SteadyNext ε s (execPauseLimitExpiry seq t) := by
  fun_cases execPauseLimitExpiry seq t
  · exact .next h
  · exact .next h
  · exact .next h.upd
  · exact .next (endSeq_steady h)

theorem execParkTtlExpiry_steady {seq : BitVec 14} (h : Steady ε s t) : SteadyNext ε s (execParkTtlExpiry seq t) := by
  fun_cases execParkTtlExpiry seq t
  · exact .next h
  · exact .next <| .ite (endSeq_steady h) h

theorem execEntryAutoRelease_steady {seq : BitVec 14} (h : Steady ε s t) : SteadyNext ε s (execEntryAutoRelease seq t) := by
  fun_cases execEntryAutoRelease seq t
  · exact .next h
  · exact .next (.ite h.upd h)

theorem queueSeq_steady {i slot : Nat} (h : Steady ε s t) : Steady ε s (queueSeq i slot t).1 := by
  fun_cases queueSeq i slot t
  · exact grantSeq_steady h
  · exact notifySeq_steady h
  · exact notifySeq_steady h

theorem execSeqAdmit_steady {c : Cmd} (h : Steady ε s t) :
    SteadyNext ε s (execSeqAdmit c t) := by
  refine runCmd_steady h (fun _ h => .check h (readFor_steady h (fun _ => .check h (.check h ?_))))
  split
  · exact .done h
  split
  · exact .done h
  dsimp only
  refine .check h (readFor_steady h (fun _ => .check h (.check h (.check h ?_))))
  generalize ((List.range 16384).find? _).getD 16384 = i
  exact .check h (.check h (.done (queueSeq_steady (.upd h.upd))))

theorem onHandle_steady {c : Cmd} {n : Nat} {ok : Bool} {k : Nat → Seq → Res} (h : Steady ε s t)
    (hk : ∀ x0 x1, SteadyRes ε s (k x0 x1)) :
    SteadyRes ε s (onHandle c n ok t k) := by
  refine .check h ?_
  split
  · exact .done h
  · exact hk _ _

theorem execSeqCancel_steady {c : Cmd} (h : Steady ε s t) : SteadyNext ε s (execSeqCancel c t) := by
  refine runCmd_steady h fun _ h => onHandle_steady h fun _ _ => .check h ?_
  split
  · exact .wait (beginStop_steady h.upd)
  · exact .done (endSeq_steady h.upd)

theorem execSeqQuery_steady {c : Cmd} (h : Steady ε s t) :
    SteadyNext ε s (execSeqQuery c t) := by
  refine runCmd_steady h (fun _ h => .check h (writeFor_steady h (fun _ written => ?_)))
  split
  · exact .done h
  · exact .done (written _)

theorem execSeqModelSet_steady {c : Cmd} (h : Steady ε s t) : SteadyNext ε s (execSeqModelSet c t) := by
  refine runCmd_steady h fun _ h => .check h ?_
  split
  · exact .done h
  split
  · exact .done h
  · exact .check h <| .check h <| .check h (.done h.upd)

theorem execSeqPrefillSet_steady {c : Cmd} (h : Steady ε s t) : SteadyNext ε s (execSeqPrefillSet c t) := by
  refine runCmd_steady h fun _ h => .check h ?_
  split
  · exact .done h
  split
  · exact .done h
  refine .check h (.check h ?_)
  split
  · exact .done h
  · exact .done (discover_steady h)
  · exact .hold
  refine .check h ?_
  split
  · exact .done h
  · exact .ite (.done (discoverCode_steady h)) (.done h.upd)

theorem execSeqDecodeSet_steady {c : Cmd} (h : Steady ε s t) : SteadyNext ε s (execSeqDecodeSet c t) := by
  refine runCmd_steady h fun _ h => .check h ?_
  split
  · exact .done h
  split
  · exact .done h
  · exact readFor_steady h fun _ => readFor_steady h fun _ => .check h <| .check h (.done h.upd)

theorem riskAccount_steady {xs : List Nat} {a : Nat} (h : Steady ε s t) : Steady ε s (riskAccount xs t a) := by
  refine .ite (.upd (post_steady h.upd)) <| .ite h (.ite h.upd ?_)
  split
  · exact h.upd
  · exact .ite h.upd h

theorem strike_steady {k : Nat} (h : Steady ε s t) : Steady ε s (strike t k) := by
  fun_cases strike t k
  case case1 | case2 | case3 | case4 => exact h.upd
  case case5 => exact h

theorem waveFailed_steady {slot : Nat} (h : Steady ε s t) : Steady ε s (waveFailed slot t) := by
  fun_cases waveFailed slot t
  · exact h
  · exact h
  · exact .foldl (fun _ _ h => endSeq_steady h) (stopWave_steady h)

theorem segmentFailed_steady {slot : Nat} (h : Steady ε s t) : Steady ε s (segmentFailed slot t) := by
  fun_cases segmentFailed slot t
  case case1 => exact segAgain_steady h
  case case2 | case3 | case5 | case6 => exact h
  case case4 => exact segFailed_steady h

theorem flitFailed_steady {x : BitVec 3 × BitVec 3 × LinkUse} (h : Steady ε s t) : Steady ε s (flitFailed t x) := by
  fun_cases flitFailed t x
  case case1 => exact stopWith_steady h.upd fun _ h => h
  case case2 | case3 | case6 => exact h.upd
  case case4 => exact waveFailed_steady h.upd
  case case5 => exact segmentFailed_steady h.upd

theorem ledgerSeen_steady {x : BitVec 2 × Bool} (h : Steady ε s t) : Steady ε s (ledgerSeen t x) := .ite h.upd h.upd

theorem fecSeen_steady {x : BitVec 7 × Nat} (h : Steady ε s t) : Steady ε s (fecSeen t x) := .ite h h.upd

theorem healthSeen_steady {r : RiskIn} (h : Steady ε s t) : Steady ε s (healthSeen r t) := by
  fun_cases healthSeen r t
  exact .upd <| .foldl (fun _ _ h => h.upd) <| .foldl (fun _ _ h => fecSeen_steady h) <|
      .foldl (fun _ _ h => ledgerSeen_steady h) <| .foldl (fun _ _ h => h.upd) <|
      .foldl (fun _ _ h => flitFailed_steady h) <| .foldl (fun _ _ h => strike_steady h) <| .foldl (fun _ _ h => h.upd) h

theorem loseOut_steady (h : Steady ε s t) : Steady ε s (loseOut t) := .foldl (fun _ _ h => loseUnit_steady h) h

theorem execRiskUpdate_steady {r : RiskIn} (h : Steady ε s t) : SteadyNext ε s (execRiskUpdate r t) := by
  fun_cases execRiskUpdate r t
  exact .next <| whenOn_steady h <| .foldl (fun _ _ h => riskAccount_steady h) <| .upd <|
      loseOut_steady (healthSeen_steady h)

theorem execFtExport_steady {c : Cmd} (h : Steady ε s t) : SteadyNext ε s (execFtExport c t) := by
  refine runCmd_steady h fun _ h => onModelCmd_steady h fun _ _ => ?_
  split
  · exact .done h
  · exact .check h <| .ite .hold <| .check h.upd <| .check h <| .done <| .upd (write_steady h)

theorem drainDone_steady {p slot : Nat} {m : Model} {o : MoveOp} {c : CopyJob} (h : Steady ε s t) :
    Steady ε s (drainDone p slot m o c t) := by
  fun_cases drainDone p slot m o c t
  exact finishWait_steady <| .upd <| post_steady <| .ite (setLater_steady <| .upd <| .ite (.upd <|
      .upd (sendDeposit_steady h)) h.upd) <| .upd <| .ite (.upd <| .upd (sendDeposit_steady h)) h.upd

theorem abandonDeposit_steady {m : Model} (h : Steady ε s t) : Steady ε s (abandonDeposit m t) := by
  fun_cases abandonDeposit m t
  · exact h
  · exact .foldl (fun _ _ h => sendPart_steady h) h

theorem drainFailed_steady {p : Nat} {m : Model} {o : MoveOp} {c : CopyJob} {st : Status} (h : Steady ε s t) :
    Steady ε s (drainFailed p m o c st t) := by
  fun_cases drainFailed p m o c st t
  · exact .upd <| .upd <| .ite (abandonDeposit_steady (post_steady h)) (post_steady h)
  · exact finishWait_steady <| .upd <| .ite (abandonDeposit_steady (post_steady h)) (post_steady h)

theorem execDrainCommit_steady {slot : BitVec 6} {result : CopyEnd} (h : Steady ε s t) :
    SteadyNext ε s (execDrainCommit slot result t) := by
  fun_cases execDrainCommit slot result t
  · exact .next (drainFailed_steady h)
  · exact .next h
  · exact .next <| .ite (drainDone_steady <| .of_snd (readLayers_steady h) ‹_›) <| drainFailed_steady <|
        .of_snd (readLayers_steady h) ‹_›
  · exact .next h

theorem laterUnread_steady {m : Model} {layer : Nat} {seqno : Word} (h : Steady ε s t) :
    Steady ε s (laterUnread m layer seqno t) := .ite h.upd h

theorem laterFailed_steady {slot : Nat} {m : Model} {layer : Nat} {seqno : Word} {st : Status} (h : Steady ε s t) :
    Steady ε s (laterFailed slot m layer seqno st t) := post_steady (setLater_steady h)

theorem laterDone_steady {slot : Nat} {m : Model} {layer : Nat} {src : Bytes × Bytes} (h : Steady ε s t) :
    Steady ε s (laterDone slot m layer src t) :=
  post_steady <| setLater_steady <| .upd <| .ite (.upd (write_steady h.upd)) h.upd

theorem execLaterLayerCopy_steady {slot : BitVec 6} {result : CopyEnd} (h : Steady ε s t) :
    SteadyNext ε s (execLaterLayerCopy slot result t) := by
  fun_cases execLaterLayerCopy slot result t
  case case1 | case2 | case3 | case7 => exact .next h
  case case4 => exact .next <| laterFailed_steady <| .ite (laterUnread_steady h) h
  case case5 => exact .next <| laterFailed_steady (laterUnread_steady h)
  case case6 | case8 => exact .next (laterFailed_steady h)
  case case9 => exact .next (laterDone_steady h)

theorem execDrainLimitExpiry_steady {slot : BitVec 6} (h : Steady ε s t) : SteadyNext ε s (execDrainLimitExpiry slot t) := by
  fun_cases execDrainLimitExpiry slot t
  · exact .next h
  · exact .next (drainFailed_steady h)
  · exact .next (laterFailed_steady h)
  · exact .next h

theorem restoreMirrors_steady {slot : Nat} {m : Model} (h : Steady ε s t) : Steady ε s (restoreMirrors slot m t) := by
  fun_cases restoreMirrors slot m t
  exact .foldl (fun _ _ h => .foldl (fun _ _ g => landMirror_steady g) (sendMirrors_steady h)) h

theorem restoreUnread_steady {m : Model} {c : CopyJob} (h : Steady ε s t) : Steady ε s (restoreUnread m c t) := by
  refine .ite h ?_
  split
  · exact h.upd
  · exact h

theorem execCkptRestoreDone_steady {slot : BitVec 6} {data : Option Bytes} {ok : Bool} (h : Steady ε s t) :
    SteadyNext ε s (execCkptRestoreDone slot data ok t) := by
  fun_cases execCkptRestoreDone slot data ok t
  case case1 | case2 | case4 | case6 | case9 => exact .next h
  case case3 | case5 => exact .next <| finishWait_steady <| .upd <| .ite (restoreUnread_steady h) h
  case case7 => exact .next (finishWait_steady h.upd)
  case case8 => exact .next <| tryRestoreEnd_steady <| .upd <| restoreMirrors_steady (restoreCopy_steady h.upd)

theorem restoreUnreached_steady {dst : Nat} {mirrors : Bool} {m : Model} {p : Nat} {o : MoveOp} (h : Steady ε s t) :
    Steady ε s (restoreUnreached dst mirrors m p o t) := by
  fun_cases restoreUnreached dst mirrors m p o t
  · exact finishWait_steady h.upd
  · exact h
  · exact h

theorem copyUnreached_steady {dst : Nat} {waits : List Waiter} {x : Nat × Model} (h : Steady ε s t) :
    Steady ε s (copyUnreached dst waits t x) := by
  have restored : ∀ mirrors : Bool, Steady ε s (match t.runningMove x.1 with
      | some (p, o) => restoreUnreached dst mirrors x.2 p o t
      | none => t) := fun _ => by
    split
    · exact restoreUnreached_steady h
    · exact h
  have stepped : ∀ {u : State} (mirrors : Bool), Steady ε s u → Steady ε s (if mirrors then failStep x.1 u else u) :=
    fun _ h => .ite (failStep_steady h) h
  fun_cases copyUnreached dst waits t x
  case case1 => exact drainFailed_steady (stepped _ (restored _))
  case case3 => exact laterFailed_steady (stepped _ (restored _))
  case case2 | case4 | case5 => exact stepped _ (restored _)

theorem execRouteWaitTimeout_steady {dst : BitVec 13} (h : Steady ε s t) : SteadyNext ε s (execRouteWaitTimeout dst t) := by
  fun_cases execRouteWaitTimeout dst t
  exact .next <| .foldl (fun _ _ h => copyUnreached_steady h) <| .upd <| .foldl (fun _ _ h => structFail_steady h) h

theorem execUpdProgLoad_steady {c : Cmd} (h : Steady ε s t) : SteadyNext ε s (execUpdProgLoad c t) := by
  refine runCmd_steady h fun _ h => .check h <| readFor_steady h fun _ => .check h ?_
  split
  · dsimp only
    split
    · exact .done h
    · exact .done h
  dsimp only
  split
  · exact .done h
  · exact .done h.upd

theorem execUpdGroupRead_steady {c : Cmd} (h : Steady ε s t) : SteadyNext ε s (execUpdGroupRead c t) := by
  refine runCmd_steady h fun _ h => .check h ?_
  split
  · exact .done h
  · exact .check h <| writeFor_steady h fun _ h => .done (h _)

theorem execUpdCommit_steady {c : Cmd} (h : Steady ε s t) : SteadyNext ε s (execUpdCommit c t) := by
  refine runCmd_steady h fun _ h => onModelCmd_steady h fun _ _ => ?_
  split
  · exact .done h
  · exact .check h <| .ite (.done (tryCommit_steady h.upd)) (.wait h.upd)

theorem execUpdAbort_steady {c : Cmd} (h : Steady ε s t) : SteadyNext ε s (execUpdAbort c t) := by
  refine runCmd_steady h fun _ h => onModelCmd_steady h fun _ _ => ?_
  split
  · exact .done h
  · exact .done <| .upd (finishWait_steady h)

theorem execUpdMonRead_steady {c : Cmd} (h : Steady ε s t) : SteadyNext ε s (execUpdMonRead c t) := by
  refine runCmd_steady h fun _ h => onModelCmd_steady h fun _ _ => ?_
  split
  · exact .done h
  · exact .ite (.done h) <| writeFor_steady h fun _ h => .done (h _)

theorem functionReset_steady {fn : Nat} (h : Steady ε s t) : Steady ε s (functionReset fn t) := by
  refine .ite h ?_
  dsimp only
  split
  · exact disableCause_steady h.upd
  · exact disableCause_steady h.upd
  · exact .ite h.upd h.upd
  · exact h.upd

theorem portReset_steady {p : Nat} (h : Steady ε s t) : Steady ε s (portReset p t) :=
  .foldl (fun _ _ h => functionReset_steady h) (beforeReset_steady h)

theorem functionAppears_steady {a : Nat} (h : Steady ε s t) : Steady ε s (functionAppears a t) := by
  fun_cases functionAppears a t
  · exact .upd <| .ite (enterEnabled_steady h.upd) h.upd
  · exact .ite (enterEnabled_steady h.upd) h.upd

end

/-! ## The dispatch and the step -/

/-- What each command has to be excused from: LC_CHANGE from the life cycle and OWNER_LOCK, the end of a wipe at a start-up from
OWNER_LOCK, the return of a lost input from module time (R508, R541, R548, R550). -/
def Excused (ε : Excuse) (s : State) : Instr → Prop
  | .lcChange _ => ε.life ∧ ε.lock
  | .mailboxReady => s.chip.fw.startFuse = true → s.chip.fw.doneFuse = false → ε.lock
  | .powerInputEnter => s.chip.power.inputPresent = false → ε.time
  | _ => True

/-- Every command is steady but for what it is excused from. -/
theorem exec_steady {ε : Excuse} {i : Instr} {s t : State} (h : Steady ε s t) (excused : Excused ε t i) :
    SteadyNext ε s (exec i t) := by
  unfold exec
  cases i
  -- Memory, mailboxes and the course of a command
  case cmdDb =>
    exact .next <| .ite h (ringDoorbell_steady h)
  case commandTake => exact execCommandTake_steady h
  case firmwareAccept => exact execFirmwareAccept_steady h
  case ntfTail =>
    exact .next <| .ite h (moveTail_steady h)
  case negotiate =>
    exact runCmd_steady h fun _ h => .check h <| .check h <| .check h (.done h.upd)
  case identify | fabAddrQuery | pwrQuery | tallyRead | numRead | fwQuery | ftRiskQuery =>
    exact runCmd_steady h fun _ h => .check h (.done h)
  case notifyMask | ftThreshSet =>
    exact runCmd_steady h fun _ h => .check h (.done h.upd)
  case mailboxResumed => exact execMailboxResumed_steady h
  -- Pages, packages and transfers
  case kvModelSet | kvDomainCreate | kvDomainGrant | kvDomainJoin | kvDomainLeave =>
    refine runCmd_steady h fun _ h => .check h ?_
    split
    · exact .done h
    · exact .check h (.done h.upd)
  case kvPoolSet | kvVaultSet =>
    exact runCmd_steady h fun _ h => setPool_steady h
  case kvFlush => exact execKvFlush_steady h
  case kvPoolQuery | wpQuery | memCreditQuery | memErrQuery =>
    refine runCmd_steady h fun _ h => .check h ?_
    split
    · exact .done h
    · exact .done h
  case demotion => exact execDemotion_steady h
  -- Vector programs
  case add | sub | and | or | xor | sll | srl | sra | slt | sltu | min | max | mul =>
    exact intForm_steady h
  case addi | andi | ori | xori | shi | lui | slti | fsqrt | ffma | apset =>
    exact scalarOp_steady h
  case fadd | fsub | fmul | fdiv | fmin | fmax =>
    exact fpForm_steady h
  case feq | flt | fle | funord =>
    exact fpTest_steady h
  case fcvt =>
    exact hartOp_steady h fun _ _ h => .ite (progConds_steady h.upd) h.upd
  case br | semwait =>
    exact hartOp_steady h fun _ _ h => h.upd
  case halt =>
    exact hartOp_steady h fun _ _ h => progEnd_steady h.upd
  case semsignal => exact execSemsignal_steady h
  case xpost => exact execXpost_steady h
  case ld =>
    exact hartOp_steady h fun _ _ h => progReads_steady h fun _ g => g.upd
  case st =>
    exact hartOp_steady h fun _ _ h => write_steady h
  case vadd | vsub | vmul | vmin | vmax | vdiv =>
    exact vecBin_steady h
  case vfma | vsqrt | vcmp | pnot | vsel | vintOp | viota | vfn | vact | vdact | vperm | vbcast | vrot | vlane | vrand | vrclr
    | vrsum | vrdot =>
    exact vectorOp_steady h
  case pand | por | pxor | pandn =>
    exact maskForm_steady h
  case vcvt => exact execVcvt_steady h
  case vmxPack | vmxUnpack =>
    exact hartOp_steady h fun _ _ h => progConds_steady h.upd
  case vrfin => exact execVrfin_steady h
  case vrmax | vrmin =>
    exact reduceMinMax_steady h
  case vrarg => exact execVrarg_steady h
  case vrput =>
    exact hartOp_steady h fun _ _ h => winWrite_steady (unitOffset_steady h)
  case vrget => exact execVrget_steady h
  case vld => exact execVld_steady h
  case vst => exact execVst_steady h
  case vgather => exact execVgather_steady h
  case vscatter => exact execVscatter_steady h
  case vsample => exact execVsample_steady h
  -- Tiles, collectives and the loader
  case tile => exact execTile_steady h
  case tilePassEnd => exact execTilePassEnd_steady h
  case allreduce | reduce | broadcast | allgather | barrier =>
    exact collectRow_steady h
  case roundComplete => exact execRoundComplete_steady h
  case put => exact execPut_steady h
  case putLanded => exact execPutLanded_steady h
  case rerunRequest => exact execRerunRequest_steady h
  case packageStart => exact execPackageStart_steady h
  case descriptorStart => exact execDescriptorStart_steady h
  case vectorProgram => exact execVectorProgram_steady h
  case xfer => exact execXfer_steady h
  case sync => exact execSync_steady h
  case prefetch => exact execPrefetch_steady h
  case descriptorComplete => exact execDescriptorComplete_steady h
  case runLimitExpiry => exact execRunLimitExpiry_steady h
  case vectorTimeLimit => exact execVectorTimeLimit_steady h
  case budgetExhausted => exact execBudgetExhausted_steady h
  case forcedStop => exact execForcedStop_steady h
  case wpCancel => exact execWpCancel_steady h
  case semRead => exact execSemRead_steady h
  case semSet | semSignal =>
    refine runCmd_steady h fun _ h => ?_
    split
    · exact .done h
    · exact .check h (.done h.upd)
  case wpSubmit => exact execWpSubmit_steady h
  -- Sequences, models and accounts
  case admitGrant => exact execAdmitGrant_steady h
  case importDone => exact execImportDone_steady h
  case prefillLaunch => exact execPrefillLaunch_steady h
  case firstTokenCommit => exact execFirstTokenCommit_steady h
  case frameEnd => exact execFrameEnd_steady h
  case frameStart => exact execFrameStart_steady h
  case functionStopDone => exact execFunctionStopDone_steady h
  case acctCreate =>
    exact runCmd_steady h fun _ h => quotaCmd_steady h fun _ _ => .check h <| .check h <| .done <| .ite h.upd
      (enterEnabled_steady h.upd)
  case acctModify =>
    exact runCmd_steady h fun _ h => quotaCmd_steady h fun _ _ => .check h <| .check h <| .check h <| .check h <| .check h <|
      .done <| .upd (.ite h h.upd)
  case acctDisable =>
    exact runCmd_steady h fun _ h => acctCmd_steady h fun _ => .check h <| .check (disableCause_steady h) <| .wait
      (disableCause_steady h)
  case acctEnable =>
    exact runCmd_steady h fun _ h => acctCmd_steady h fun _ => .check h <| .done <| .ite (enterEnabled_steady h.upd) h.upd
  case acctDestroy =>
    exact runCmd_steady h fun _ h => acctCmd_steady h fun _ => .check h <| .check h.upd <| .wait (disableCause_steady h)
  case acctQuery =>
    exact runCmd_steady h fun _ h => .check h <| .check h <| .check h <| .check h <| writeFor_steady h fun _ g => .done (g _)
  case acctMemGrant | acctMemRevoke =>
    refine runCmd_steady h fun _ h => .check h ?_
    split
    · exact .done h
    · exact .check h <| .check h <| .check h <| .done <| .upd (wipeWhere_steady h)
  case partSet =>
    exact runCmd_steady h fun _ h => .check h <| .check h <| .check h <| .check h <| .done <| .upd <| retag_steady <| .foldl
      (fun _ _ g => wipeDie_steady g) h.upd
  case rightSet =>
    exact runCmd_steady h fun _ h => .check h <| .check h <| .check h <| .check h <| .check h.upd (.done h.upd)
  case acctFlagsSet | portBoundsSet | cntSet | numAmaxRoll =>
    exact runCmd_steady h fun _ h => .check h <| .check h (.done h.upd)
  -- Registers, the ledger's operations, copies and weights
  case msixUnmask =>
    exact .next <| .ite h (unmask_steady h)
  case registerWrite => exact execRegisterWrite_steady h
  case mtimeLoRead =>
    exact .next (.ite h h.upd)
  case cntValLowRead | governorEval =>
    exact .ite (.next h) <| .ite (.next h.upd) (.next h.upd)
  case apertureRead => exact execApertureRead_steady h
  case apertureWrite => exact execApertureWrite_steady h
  case ldgMov | ldgAdd | ldgSub | ldgMul | ldgFma | ldgDiv | ldgSqrt | ldgMin | ldgMax | ldgFn | sign | sel | abs | rsum |
    rdot | rmax | gram | qema | mml | mmr | cir | nsnorm | nsstep =>
    exact onLed_steady h
  case wtCreate =>
    exact runCmd_steady h fun _ h => .ite (createEnd_steady h) <| .ite (createEnd_steady h) <| readHeld_steady h (fun _ g =>
      createEnd_steady g) <| .ite (createEnd_steady h) <| .ite (createEnd_steady h) <| Res.after_steady (fun _ g => g.upd)
      <| readTable_steady h fun _ => readTable_steady h fun _ => readTable_steady h fun _ => readTable_steady h fun _ =>
      readTable_steady h fun _ => createModel_steady h
  case wtLoad =>
    exact runCmd_steady h fun _ h => onModelCmd_steady h fun _ _ => .check h <| .check h <| .check h <| .check h <| .check h <|
      .check h <| .check h (requestMove_steady h)
  case wtTurn | wtLearn =>
    exact runCmd_steady h fun _ h => onModelCmd_steady h fun _ _ => .check h (requestMove_steady h)
  case wtRebuild =>
    exact runCmd_steady h fun _ h => onModelCmd_steady h fun _ _ => .ite (.check h (requestMove_steady h)) <| readFor_steady h
      fun _ => .check h <| .check h <| .check h <| .check h (requestMove_steady h)
  case wtQuery =>
    exact runCmd_steady h fun _ h => onModelCmd_steady h fun _ _ => writeFor_steady h fun _ k => .done (k _)
  case wtAnchorSet => exact execWtAnchorSet_steady h
  case wtGenDrop =>
    exact runCmd_steady h fun _ h => onModelCmd_steady h fun _ _ => .check h <| .done (withdrawCopy_steady h)
  case wtUnload =>
    exact runCmd_steady h fun _ h => onModelCmd_steady h fun _ _ => .check h <| .done <| dropModel_steady <| wipeRanges_steady
      <| .upd (finishWait_steady h)
  -- Moving operations and the ledger's passes
  case barrierReport => exact execBarrierReport_steady h
  case barrierDecision => exact execBarrierDecision_steady h
  case movingOpStart => exact execMovingOpStart_steady h
  case loadSegment => exact execLoadSegment_steady h
  case loadLimitExpiry => exact execLoadLimitExpiry_steady h
  case reshardSegment => exact execReshardSegment_steady h
  case mintLayer => exact execMintLayer_steady h
  case turnLimitExpiry => exact execTurnLimitExpiry_steady h
  case inplaceDrainEnd => exact execInplaceDrainEnd_steady h
  case oldEpochFree => exact execOldEpochFree_steady h
  case learnLimitExpiry => exact execLearnLimitExpiry_steady h
  case lfeed => exact execLfeed_steady h
  case layerPass1 => exact execLayerPass1_steady h
  case ledgerCombine => exact execLedgerCombine_steady h
  case layerPass2 => exact execLayerPass2_steady h
  case mirrorTransfer => exact execMirrorTransfer_steady h
  case feedLimitExpiry => exact execFeedLimitExpiry_steady h
  -- Ports, the fabric, power, the Beacon and counters
  case healthSend =>
    exact .next <| .ite (repeatBarriers_steady (sendHealth_steady h)) h
  case portQuery | beaconStatus | tallyReadAll =>
    exact runCmd_steady h fun _ h => .check h <| .check h <| writeFor_steady h fun _ g => .done (g _)
  case portEnable =>
    exact runCmd_steady h fun _ h => .check h <| .check h <| .check h <| .check (.ite (darkenAll_steady h) <| tellLit_steady
      (darken_steady h)) <| .done <| .ite (sendHealth_steady h.upd) (tellLit_steady h.upd)
  case flitCrcFail =>
    exact .next <| .ite h <| .ite (retrain_steady h.upd) h.upd
  case portRetrain =>
    exact .next <| .ite h (retrain_steady h)
  case portTrained => exact execPortTrained_steady h
  case portDown =>
    exact .ite (.next h) <| .next (unroute_steady h.upd)
  case seekingRetry | hostOutageTimeout | beaconFrameDropped | beaconEntryAge =>
    exact .next h.upd
  case laserProtect =>
    exact .ite (.next h) <| .next (laserGuard_steady h)
  case laserFault port colour => exact execLaserFault_steady (_lambda := colour) h
  case hostLinkDown =>
    exact .next (hostDown_steady h.upd)
  case hostLinkUp => exact execHostLinkUp_steady h
  case hostLinkTrainFail =>
    exact .ite (.next (lightUp_steady h)) <| .next <| .upd <| .upd <| .upd (lightUp_steady h)
  case fabOrigin =>
    exact runCmd_steady h fun _ h => .check h <| .check h <| .check h <| .wait (sendFrame_steady h.upd)
  case enumTimeout =>
    exact .ite (.next h) <| .next (finishWait_steady h.upd)
  case fabRouteSet =>
    exact runCmd_steady h fun _ h => .check h <| .check h <| readFor_steady h fun _ => .check h <| .done (routesChanged_steady
      h.upd)
  case fabRouteQuery | cntCatalog =>
    exact runCmd_steady h fun _ h => .check h <| writeFor_steady h fun _ g => .done (g _)
  case fabJobJoin => exact execFabJobJoin_steady h
  case joinMessage =>
    exact .next <| whenOn_steady h <| .upd <| .ite (wakeUp_steady h) h
  case fabJobLeave =>
    exact runCmd_steady h fun _ h => onJob_steady h fun _ _ => .check h (.done h.upd)
  case fabGroupSet =>
    exact runCmd_steady h fun _ h => onJob_steady h fun _ _ => readFor_steady h fun _ => .check h <| .check h (.done h.upd)
  case fabDropSet =>
    exact runCmd_steady h fun _ h => onJob_steady h fun _ _ => .check h <| .check h.upd <| .check h (.done h.upd)
  case fabJobQuery =>
    exact runCmd_steady h fun _ h => onJob_steady h fun _ _ => .done h
  case jobFault => exact execJobFault_steady h
  case partLostTimeout => exact execPartLostTimeout_steady h
  case depositLost src job model die => exact execDepositLost_steady (_die := die) h
  case fabricMessage => exact execFabricMessage_steady h
  case memMapQuery =>
    exact runCmd_steady h fun _ h => .check h <| .ite (.done h) <| writeFor_steady h fun _ g => .done (g _)
  case memCreditSet =>
    exact runCmd_steady h fun _ h => .check h <| .check h <| .check h <| .check h <| .done <| .foldl (fun _ _ g =>
      onCredits_steady g) h
  case creditPeriod => exact execCreditPeriod_steady h
  case dividerStep => exact execDividerStep_steady h
  case pwrStateSet =>
    exact runCmd_steady h fun _ h => .check h <| .check h <| .check h <| .ite (.done h) <| .check h <| .wait (enterPower_steady
      h)
  case powerEntryDone => exact execPowerEntryDone_steady h
  case wake =>
    exact .next (wakeUp_steady h)
  case wakeOnLight =>
    exact .next <| .ite (wakeUp_steady h) h
  case powerExitDone => exact execPowerExitDone_steady h
  case pwrBoundsSet =>
    exact runCmd_steady h fun _ h => .check h <| .check h <| .check h <| .check h <| .check h.upd <| .done (applyBounds_steady
      h)
  case thermalOverride => exact execThermalOverride_steady h
  case currentOverride =>
    exact .next <| .ite h (currentHigh_steady h)
  case overrideClear => exact execOverrideClear_steady h
  case supplyDroop =>
    exact .ite (.next h) <| .next <| .ite (currentHigh_steady h.upd) h.upd
  case beaconEnum | beaconHealth | beaconWake | beaconSleep =>
    exact .next (beaconFrame_steady h)
  case beaconBreak | beaconLightRestored =>
    exact .ite (.next h) <| .next (postAll_steady h.upd)
  case beaconSend =>
    exact runCmd_steady h fun _ h => .check h <| .check h <| .check h <| .done (sendFrame_steady h)
  case tallyCopy =>
    exact .next (whenOn_steady h h.upd)
  case cntSnap =>
    exact runCmd_steady h fun _ h => .check h <| .check h <| writeFor_steady h.upd fun _ g => .done <| latchClear_steady <| .upd
      <| .upd (g _)
  case cntSample =>
    exact runCmd_steady h fun _ h => .check h <| .check h <| .check h.upd <| .check h (.done h.upd)
  case sampleLatch => exact execSampleLatch_steady h
  case numAmaxRead => exact execNumAmaxRead_steady h
  case numAmaxSet => exact execNumAmaxSet_steady h
  case amaxRoll => exact execAmaxRoll_steady h
  -- Units, resets and firmware
  case unitQuery =>
    exact runCmd_steady h fun _ h => .check h <| .check h (.done h)
  case unitFence =>
    exact .ite (.next h) <| .next (compareViews_steady h.upd)
  case unitLost =>
    exact .ite (.next h) <| .next (loseUnit_steady h)
  case reconciliation => exact execReconciliation_steady h
  case unitReconcile =>
    exact runCmd_steady h fun _ h => .check h <| .check h <| .ite (.wait h) <| .ite (.wait h.upd) (.done h)
  case pwrReset => exact execPwrReset_steady h
  case powerInputLoss =>
    exact .ite (.next h) <| .next <| .upd (powerOff_steady h)
  case thermalTrip =>
    exact .ite (.next h) <| .next <| sendHealth_steady <| onBeacon_steady <| onFabric_steady <| onPower_steady (powerOff_steady
      h)
  case powerInputEnter => exact execPowerInputEnter_steady h excused
  case mailboxReady => exact execMailboxReady_steady h excused
  case fwWrite =>
    exact runCmd_steady h fun _ h => .check h <| .check h <| .check h <| .ite .hold <| .check h <| .check h <| .check h <|
      .check h <| .check h <| .check h <| .check h (.done (h.onImages rfl))
  case fwActivate =>
    exact runCmd_steady h fun _ h => .check h <| .check h <| .check h <| .check h <| .check h <| .check h <| .wait <|
      beginType_steady (sendHealth_steady (Steady.upd (h.onImages rfl)))
  case firmwareReady => exact execFirmwareReady_steady h
  case opticsGroupRelit => exact execOpticsGroupRelit_steady h
  case fwFloorRaise => exact execFwFloorRaise_steady h
  case fwLock =>
    exact runCmd_steady h fun _ h => .check h <| .check h <| .check h <| .check h <| .done (h.onFw ⟨le_rfl, le_rfl, id, id, .inl
      rfl, fun _ => .inl rfl⟩)
  case lcNonce =>
    exact runCmd_steady h fun _ h => .check h (.done (h.upd.onImages rfl))
  case lcChange => exact execLcChange_steady h excused.1 excused.2
  -- Commands of sequences, secure copies and the ledger
  case waveStart => exact execWaveStart_steady h
  case waveCommit => exact execWaveCommit_steady h
  case parkDone => exact execParkDone_steady h
  case restoreDone => exact execRestoreDone_steady h
  case admitWaitExpiry => exact execAdmitWaitExpiry_steady h
  case lifetimeExpiry => exact execLifetimeExpiry_steady h
  case pauseLimitExpiry => exact execPauseLimitExpiry_steady h
  case parkTtlExpiry => exact execParkTtlExpiry_steady h
  case entryAutoRelease => exact execEntryAutoRelease_steady h
  case seqAdmit => exact execSeqAdmit_steady h
  case seqCancel => exact execSeqCancel_steady h
  case seqQuery => exact execSeqQuery_steady h
  case seqPause =>
    exact runCmd_steady h fun _ h => onHandle_steady h fun _ _ => .check h <| .ite (.wait h.upd) <| .done (setSeqState_steady
      h.upd)
  case seqResume =>
    exact runCmd_steady h fun _ h => onHandle_steady h fun _ _ => .ite (.done <| enterDecode_steady <| .ite (finishWait_steady
      h.upd) h) <| .ite (.done (queueSeq_steady h.upd)) (.done h)
  case seqPark =>
    exact runCmd_steady h fun _ h => onHandle_steady h fun _ _ => .check h <| .check h (.wait h.upd)
  case seqRelease =>
    exact runCmd_steady h fun _ h => onHandle_steady h fun _ _ => .check h.upd (.done h)
  case seqDraft =>
    exact runCmd_steady h fun _ h => onHandle_steady h fun _ _ => .check h <| .check h <| .check h (.done h.upd)
  case seqModelSet => exact execSeqModelSet_steady h
  case seqPrefillSet => exact execSeqPrefillSet_steady h
  case seqDecodeSet => exact execSeqDecodeSet_steady h
  case riskUpdate => exact execRiskUpdate_steady h
  case ftPlanSet =>
    exact runCmd_steady h fun _ h => onModelCmd_steady h fun _ _ => .ite (.check h <| .done (finishWait_steady h.upd)) <|
      readFor_steady h fun _ => .check h <| .check h <| .check h <| .check h <| .check h (.done h.upd)
  case ftDepositSet =>
    exact runCmd_steady h fun _ h => onModelCmd_steady h fun _ _ => .check h <| .check h <| .check h <| .check h.upd (.done
      h.upd)
  case ftSecure =>
    exact runCmd_steady h fun _ h => onModelCmd_steady h fun _ _ => .check h <| .ite (.wait h.upd) <| .check h <| .check h
      (requestMove_steady h)
  case ftCkptList =>
    exact runCmd_steady h fun _ h => onModelCmd_steady h fun _ _ => .ite (.done h) <| writeFor_steady h fun _ k => .done (k _)
  case ftCkptDrop | updModelSet =>
    exact runCmd_steady h fun _ h => onModelCmd_steady h fun _ _ => .check h <| .check h (.done h.upd)
  case ftExport => exact execFtExport_steady h
  case ftStatus | updStatus =>
    exact runCmd_steady h fun _ h => onModelCmd_steady h fun _ _ => .done h
  case drainCommit => exact execDrainCommit_steady h
  case laterLayerCopy => exact execLaterLayerCopy_steady h
  case drainLimitExpiry => exact execDrainLimitExpiry_steady h
  case ftRestore =>
    exact runCmd_steady h fun _ h => onModelCmd_steady h fun _ _ => .check h <| .ite .hold <| .check h <| .check h <| .check h
      (requestMove_steady h)
  case ckptRestoreDone => exact execCkptRestoreDone_steady h
  case routeWaitTimeout => exact execRouteWaitTimeout_steady h
  case updProgLoad => exact execUpdProgLoad_steady h
  case updProgFree | updGroupFree =>
    refine runCmd_steady h fun _ h => .check h ?_
    split
    · exact .done h
    · exact .check h <| .check h (.done h.upd)
  case updGroupSet =>
    exact runCmd_steady h fun _ h => .check h <| .check h <| readFor_steady h fun _ => .check h <| .check h <| .check h <|
      .check h <| .check h (.done h.upd)
  case updGroupRead => exact execUpdGroupRead_steady h
  case updBegin =>
    exact runCmd_steady h fun _ h => onModelCmd_steady h fun _ _ => .check h <| .check h <| .ite (.wait h.upd) <| .check h
      (.done h.upd)
  case updCommit => exact execUpdCommit_steady h
  case updAbort => exact execUpdAbort_steady h
  case updMonRead => exact execUpdMonRead_steady h
  case functionLevelReset =>
    exact .next <| .ite (functionReset_steady (beforeReset_steady h)) h
  case hotReset =>
    exact .next <| whenOn_steady h (portReset_steady h)
  case linkDisable =>
    exact .next <| whenOn_steady h <| .upd <| hostDown_steady (portReset_steady h)
  case vfDisable =>
    exact .next <| whenOn_steady h <| .foldl (fun _ _ h => .upd (disableCause_steady h)) h.upd
  case vfEnable =>
    exact .next <| whenOn_steady h <| .foldl (fun _ _ h => functionAppears_steady h) h.upd

theorem SteadyNext.of_next {ε : Excuse} {s u : State} {r : Result State} (h : SteadyNext ε s r) (e : r = .next u) :
    Steady ε s u := by
  subst e
  cases h
  assumption

/-! ## Module time and the fuses over a step -/

theorem excused_all {ε : Excuse} (time : ε.time) (life : ε.life) (lock : ε.lock) (s : State) (i : Instr) : Excused ε s i := by
  unfold Excused
  split
  · exact ⟨life, lock⟩
  · exact fun _ _ => lock
  · exact fun _ => time
  · trivial

theorem excused_time {ε : Excuse} (life : ε.life) (lock : ε.lock) (s : State) {i : Instr} (h : i ≠ .powerInputEnter) :
    Excused ε s i := by
  unfold Excused
  split
  · exact ⟨life, lock⟩
  · exact fun _ _ => lock
  · exact absurd rfl h
  · trivial

theorem excused_life {ε : Excuse} (time : ε.time) {s : State} {i : Instr} (h : ∀ c, i ≠ .lcChange c)
    (lock : i = .mailboxReady → s.chip.fw.startFuse = true → s.chip.fw.doneFuse = false → ε.lock) : Excused ε s i := by
  unfold Excused
  split
  · exact absurd rfl (h _)
  · exact lock rfl
  · exact fun _ => time
  · trivial

theorem step_idle {s : State} (empty : s.pending = []) : step s = .next (tick s) := by
  unfold step
  rw [empty]

theorem tick_mtime (s : State) : (tick s).mtime = s.mtime + 10 :=
  (owedVecs_steady (ε := ⟨False, True, True⟩) (pageTime_steady (.refl _))).time.resolve_right id

/-- A start with the input present leaves module time, and one after a loss of the input starts it at 0. -/
theorem coldStart_mtime (s : State) : (coldStart s).mtime = if s.chip.power.inputPresent = true then s.mtime else 0 := by
  unfold coldStart
  dsimp only
  by_cases lit : s.chip.power.inputPresent = true
  · rw [if_pos lit, if_pos lit]
    rfl
  · rw [if_neg lit, if_neg lit]
    rfl

/-- Settles O58: every command but the return of the input is steady in time, and a cold start alone sets module time. -/
theorem moduleTimeRuns : Obligations.ModuleTimeRuns := by
  unfold Obligations.ModuleTimeRuns
  refine ⟨fun s empty => ⟨_, step_idle empty, tick_mtime s⟩, fun i s t ran other => ?_, fun s => ⟨_, rfl, ?_⟩⟩
  · have steady : Steady ⟨False, True, True⟩ s t := (exec_steady (.refl s) (excused_time trivial trivial s other)).of_next ran
    exact steady.time.resolve_right id
  · by_cases stays : (s.chip.power.inputPresent && (!s.chip.power.tripped || !s.chip.power.cool)) = true
    · rw [if_pos stays, if_pos (Bool.and_eq_true_iff.1 stays).1]
    · rw [if_neg stays]
      exact coldStart_mtime s

/-- Settles O59: every command is steady in the fuses, LC_CHANGE is alone excused from the life cycle, and the end of a wipe from
OWNER_LOCK. -/
theorem fusesAndOwnerLockHold : Obligations.FusesAndOwnerLockHold := by
  unfold Obligations.FusesAndOwnerLockHold
  intro i s t ran
  have moved : Steady ⟨True, True, True⟩ s t := (exec_steady (.refl s) (excused_all trivial trivial trivial s i)).of_next ran
  refine ⟨moved.fuses.floor, moved.fuses.claims, moved.fuses.start, moved.fuses.final, fun other => ?_⟩
  have kept : Steady ⟨True, False, i = .mailboxReady ∧ s.chip.fw.startFuse = true ∧ s.chip.fw.doneFuse = false⟩ s t := by
    refine (exec_steady (.refl s) (excused_life trivial other ?_)).of_next ran
    exact fun ready begun going => ⟨ready, begun, going⟩
  exact ⟨kept.fuses.life.resolve_right id, kept.fuses.lock⟩

end Sys2Proof.Machine
end

section
/-!
PROOFS. The queue's front, the reference cycle, the state after a COLD reset, and what a completion writes (O1, O2, O3, O6).
-/
namespace Sys2Proof.Machine

/-! ## The step and its reference cycle -/

/-- Settles O1: it is how `step` is defined. -/
theorem stepRunsFrontCommand : Obligations.StepRunsFrontCommand := fun _ _ _ => rfl

/-- Two states that differ at most in mailboxes, outputs and the accounts' own records. -/
def OnlyMailAndAccounts (s t : State) : Prop :=
  ∃ mail out accts, t = { s with mail := mail, out := out, ten := { s.ten with accts := accts } }

theorem OnlyMailAndAccounts.trans {s t u : State} (h : OnlyMailAndAccounts s t) (g : OnlyMailAndAccounts t u) :
    OnlyMailAndAccounts s u := by
  obtain ⟨m, o, a, rfl⟩ := h
  obtain ⟨m', o', a', rfl⟩ := g
  exact ⟨m', o', a', rfl⟩

theorem OnlyMailAndAccounts.foldl {α : Type} {f : State → α → State} (h : ∀ s x, OnlyMailAndAccounts s (f s x)) (l : List α)
    (s : State) : OnlyMailAndAccounts s (l.foldl f s) := by
  induction l generalizing s with
  | nil => exact ⟨_, _, _, rfl⟩
  | cons x l ih => exact (h s x).trans (ih _)

theorem OnlyMail.withAccounts {s t : State} (h : OnlyMail s t) : OnlyMailAndAccounts s t := by
  obtain ⟨m, o, rfl⟩ := h
  exact ⟨m, o, _, rfl⟩

theorem pageTime_onlyAccounts (ns : Nat) (s : State) : OnlyMailAndAccounts s (pageTime ns s) := by
  unfold pageTime
  split
  · exact ⟨_, _, _, rfl⟩
  · exact .foldl (fun _ _ => ⟨_, _, _, rfl⟩) _ s

theorem owedVecs_onlyMail (s : State) : OnlyMail s (owedVecs s) := .foldl (fun _ _ => raiseNtf_onlyMail ..) _ s

/-- A reference cycle moves module time, page-time meters and what the mailboxes owe. -/
theorem tick_onlyMailAndAccounts (s : State) : OnlyMailAndAccounts { s with mtime := s.mtime + 10 } (tick s) :=
  (pageTime_onlyAccounts ..).trans (owedVecs_onlyMail _).withAccounts

/-- Settles O2: an idle step is a reference cycle, which leaves all but meters and mailboxes. -/
theorem idleStepIsReferenceCycle : Obligations.IdleStepIsReferenceCycle := by
  unfold Obligations.IdleStepIsReferenceCycle
  intro s empty
  obtain ⟨_, _, _, ticked⟩ := tick_onlyMailAndAccounts s
  refine ⟨_, step_idle empty, ?_⟩
  rw [ticked]
  exact ⟨rfl, empty, rfl, rfl, rfl, rfl, rfl, rfl, rfl, rfl, rfl, rfl, rfl, rfl, rfl, rfl⟩

/-! ## The state after a COLD reset -/

theorem getD_replicate_self {α : Type} (n i : Nat) (a : α) : (List.replicate n a).getD i a = a := by
  rw [List.getD_eq_getElem?_getD, List.getElem?_replicate]
  split <;> rfl

theorem acct_reset {a : Nat} (h : a < 1024) : State.reset.acct a =
    if a % 256 = 0 then { Account.fresh with state := .enabled, quota := Quota.default }
    else { Account.fresh with causes := { Causes.clear with absent := true } } := by
  rw [State.acct, State.reset, Tenancy.cold, acctsCold, List.getD_eq_getElem?_getD, List.getElem?_map, List.getElem?_range h]
  simp only [Option.map_some, Option.getD_some, beq_iff_eq]

theorem counter_reset {k : Nat} (i : Nat) (h : k < 9) : State.reset.counter k i = Counter.reset := by
  have listed : State.reset.counter k i =
      ((List.replicate 9 (List.replicate 32 Counter.reset)).getD k []).getD i Counter.reset := rfl
  rw [listed, List.getD_replicate _ h, getD_replicate_self]

/-- Settles O3: each table of the reset state holds the reset value at every index. -/
theorem resetState : Obligations.ResetState := by
  unfold Obligations.ResetState
  refine ⟨rfl, rfl, rfl, rfl, Memory.wf_nil, fun fn _ => ⟨getD_replicate_self .., getD_replicate_self ..⟩, fun a h => ?state,
    fun a h zero => ?quota, fun p _ => ⟨getD_replicate_self .., getD_replicate_self ..⟩, rfl, fun _ _ => getD_replicate_self ..,
    fun _ _ => getD_replicate_self .., fun _ h i _ => counter_reset i h, rfl, rfl, rfl, rfl, rfl⟩
  case state =>
    rw [acct_reset h]
    split <;> rfl
  case quota => rw [acct_reset h, if_pos zero]

/-! ## What a completion writes -/

/-- The answers that a function's mailbox holds. -/
def Func.answers (f : Func) : Tbl Resp × DWord := (f.resp, f.done)

theorem answers_onFunc {f : Func → Func} (keeps : ∀ x, (f x).answers = x.answers) (fn a : Nat) (s : State) :
    ((s.onFunc fn f).func a).answers = (s.func a).answers := by
  rw [State.func_onFunc]
  split
  · exact keeps _
  · rfl

theorem raiseNtf_answers (fn a : Nat) (s : State) : ((raiseNtf fn s).func a).answers = (s.func a).answers := by
  fun_cases raiseNtf fn s
  · rw [raiseVec_func]
    refine answers_onFunc ?_ ..
    exact fun _ => rfl
  · refine answers_onFunc ?_ ..
    exact fun _ => rfl

/-- A notification leaves every answer. -/
theorem post_answers (fn kind a : Nat) (st : Status) (args : Bytes) (s : State) :
    ((post fn kind st args s).func a).answers = (s.func a).answers := by
  fun_cases post fn kind st args s
  · rfl
  · refine answers_onFunc ?_ ..
    exact fun _ => rfl
  all_goals
    refine (raiseNtf_answers ..).trans (answers_onFunc ?_ ..)
    exact fun _ => rfl

theorem tellDone_answers (c : Cmd) (r : Resp) (a : Nat) (s : State) : ((tellDone c r s).func a).answers = (s.func a).answers := by
  unfold tellDone
  split
  · exact post_answers ..
  · rfl

/-- A completion in a function that is not paused writes its slot and sets its DONE bit. -/
theorem complete_answers {c : Cmd} {s : State} (known : cmdA c < s.mail.funcs.length) (awake : (s.func (cmdA c)).paused = false)
    (op : Nat) (st : Status) (p : Bytes) :
    ((complete c op st p s).func (cmdA c)).answers = (tset (s.func (cmdA c)).resp c.slot.toNat (respOf c op st p s.mtime),
      (s.func (cmdA c)).done ||| (1 <<< c.slot.toNat)) := by
  unfold complete
  dsimp only
  rw [awake, if_neg Bool.false_ne_true, tellDone_answers, writeResp, raiseVec_func, State.func_onFunc, if_pos ⟨rfl, known⟩]
  rfl

/-- Settles O6: the slot and the DONE bit are written, and a completion leaves all but its function's mailbox. -/
theorem completionWritesResponse : Obligations.CompletionWritesResponse := by
  unfold Obligations.CompletionWritesResponse
  intro c op st p s known awake t
  obtain ⟨resp, done⟩ := Prod.mk.inj (complete_answers known awake op st p)
  obtain ⟨_, _, mailed⟩ := complete_onlyMail c op st p s
  refine ⟨?slot, done, fun k other => ?_, fun g other => complete_func_ne (Ne.symm other) .., ?rest⟩
  case slot => exact (congrArg (tget · c.slot.toNat) resp).trans (tget_tset_same ..)
  · exact (congrArg (tget · k) resp).trans (tget_tset_ne _ _ other)
  case rest =>
    rw [show t = _ from mailed]
    exact ⟨rfl, rfl, rfl, rfl, rfl, rfl, rfl, rfl⟩

end Sys2Proof.Machine
end

section
/-!
PROOFS. Commands that the checks turn away or hold, and doorbells (O5, O7).
-/
namespace Sys2Proof.Machine

/-! ## Every mailbox command takes the common course (R485) -/

/-- A command of the table runs its own rules in the common course; PWR_RESET does where no trip has to be left. -/
theorem exec_command {i : Instr} {op : Nat} {c : Cmd} (named : i.command = some (op, c)) {s : State}
    (on : (s.chip.power.tripped && s.chip.power.inputPresent) = false) : ∃ body, exec i s = runCmd op c s body := by
  unfold exec
  cases i
  case pwrReset =>
    cases named
    exact ⟨_, if_neg (ne_true_of_eq_false on)⟩
  all_goals cases named <;> exact ⟨_, rfl⟩

/-- No command has its turn with the domains off (R588). -/
theorem on_of_turn {op : Nat} {c : Cmd} {s : State} (turn : outOfTurn op c s = false) : s.off = false :=
  (Bool.or_eq_false_iff.1 turn).1

theorem exec_command_inTurn {i : Instr} {op : Nat} {c : Cmd} (named : i.command = some (op, c)) {s : State}
    (turn : outOfTurn op c s = false) : ∃ body, exec i s = runCmd op c s body := by
  refine exec_command named ?_
  have untripped := (Bool.or_eq_false_iff.1 (on_of_turn turn)).2
  rw [untripped, Bool.false_and]

/-- A gate turns a command away. -/
theorem runCmd_turnedAway {op : Nat} {c : Cmd} {s : State} {st : Status} (body : State → Res) (turn : outOfTurn op c s = false)
    (gate : stateGate (cmdA c) c.abi op (dropTaken c s) = some st ∨
      (stateGate (cmdA c) c.abi op (dropTaken c s) = none ∧ lifeGate op (dropTaken c s) = some st)) :
    runCmd op c s body = .next (complete c op st (gatePayload op st) (turnedAway op c s)) :=
  gate.elim (runCmd_gate body turn) fun ⟨passed, life⟩ => runCmd_life body turn passed life

/-- A command that passes the gates in a low power state waits there for P0 (R515). -/
theorem runCmd_held {op : Nat} {c : Cmd} {s : State} (body : State → Res) (turn : outOfTurn op c s = false)
    (state : stateGate (cmdA c) c.abi op (dropTaken c s) = none) (life : lifeGate op (dropTaken c s) = none)
    (waking : (s.chip.power.low && !quiet op c) = true) :
    runCmd op c s body = .next (wakeUp { dropTaken c s with
      mail := { (dropTaken c s).mail with heldWake := (dropTaken c s).mail.heldWake ++ [⟨c, op⟩] } }) := by
  simp [runCmd, turn, state, life, waking]

theorem turnedAway_eq (op : Nat) (c : Cmd) (s : State) : ∃ f mail, turnedAway op c s = ({ s with mail } : State).onPower f := by
  unfold turnedAway
  split
  · obtain ⟨f, woken⟩ := wakeUp_eq (dropTaken c s)
    exact ⟨f, _, woken⟩
  · exact ⟨id, (dropTaken c s).mail, rfl⟩

theorem stateGate_ne_ok (fn : Nat) (abi : BitVec 8) (op : Nat) (s : State) : stateGate fn abi op s ≠ some .ok := by
  fun_cases stateGate fn abi op s <;> simp

/-- Outside its five commands a DECOMMISSIONED module refuses every command under some status (R547). -/
theorem gate_decommissioned {op : Nat} {s : State} (final : s.chip.fw.lifecycle = .decommissioned)
    (other : op ∉ [0x101, 0x102, 0x125, 0x802, 0x903]) (fn : Nat) (abi : BitVec 8) :
    ∃ st, st ≠ .ok ∧ (stateGate fn abi op s = some st ∨ (stateGate fn abi op s = none ∧ lifeGate op s = some st)) := by
  have refused : lifeGate op s = some .denied := by
    simp only [List.mem_cons, List.not_mem_nil, or_false, not_or] at other
    simp [lifeGate, final, servedInLife, other]
  cases gate : stateGate fn abi op s with
  | none => exact ⟨.denied, by decide, .inr ⟨rfl, refused⟩⟩
  | some st => exact ⟨st, fun ok => stateGate_ne_ok fn abi op s (ok ▸ gate), .inl rfl⟩

/-- Settles O5: a mailbox command takes the common course, whose gates let nothing through but a wake. -/
theorem gatedCommandsChangeNothing : Obligations.GatedCommandsChangeNothing := by
  unfold Obligations.GatedCommandsChangeNothing
  refine ⟨?before, ?gated, ?final, ?held, ?payload⟩
  case before =>
    intro i op c s named early on
    obtain ⟨body, runs⟩ := exec_command named on
    rw [runs, runCmd_turn body early]
  case gated =>
    intro i op c s st named turn gate
    obtain ⟨body, runs⟩ := exec_command_inTurn named turn
    rw [runs, runCmd_turnedAway body turn gate]
  case final =>
    intro i op c s named turn final other
    obtain ⟨st, notOk, gate⟩ := gate_decommissioned (s := dropTaken c s) final other (cmdA c) c.abi
    obtain ⟨body, runs⟩ := exec_command_inTurn named turn
    have ends := runs.trans (runCmd_turnedAway body turn gate)
    refine ⟨st, notOk, ends, fun t ran => ?_⟩
    cases ends.symm.trans ran
    obtain ⟨_, _, mailed⟩ := complete_onlyMail c op st (gatePayload op st) (turnedAway op c s)
    obtain ⟨_, _, away⟩ := turnedAway_eq op c s
    rw [mailed, away]
    exact ⟨rfl, rfl, rfl, rfl, rfl⟩
  case held =>
    intro i op c s u named turn hu state life loud low
    subst hu
    obtain ⟨body, runs⟩ := exec_command_inTurn named turn
    have low : s.chip.power.low = true := by
      rcases low with pstate | target
      · simp [Power.low, show s.chip.power.pstate ≠ 0 from pstate]
      · simp [Power.low, show s.chip.power.target.isSome = true from target]
    rw [runs, runCmd_held body turn state life (by rw [low, loud]; rfl)]
  case payload =>
    intro op st
    by_cases sub : op = 0x301 <;> simp [gatePayload, sub]

/-! ## Doorbells (R482, R569) -/

theorem leNat_leBytes (n v : Nat) : leNat (leBytes n v) = v % 256 ^ n := by
  induction n generalizing v with
  | zero => simp [leBytes, leNat, Nat.mod_one]
  | succ n ih =>
    have split : v % 256 ^ (n + 1) = v % 256 + 256 * (v / 256 % 256 ^ n) := by
      rw [show 256 ^ (n + 1) = 256 * 256 ^ n from Nat.pow_succ']
      exact Nat.mod_mul
    rw [leBytes, leNat, ih, BitVec.toNat_ofNat, split]

theorem wakeFor_awake {s : State} (awake : s.chip.power.low = false) (fn slot : Nat) : wakeFor fn slot s = s := by
  unfold wakeFor
  dsimp only
  rw [awake, Bool.false_and, if_neg Bool.false_ne_true]

/-- A write of a word at offset 0 rings the doorbell (R569). -/
theorem execRegisterWrite_doorbell (fn : BitVec 10) (value : Word) (s : State) :
    execRegisterWrite fn 0 (leBytes 4 value.toNat) s = execCmdDb fn value s := by
  have word : BitVec.ofNat 32 (leNat (leBytes 4 value.toNat)) = value := by
    rw [leNat_leBytes, Nat.mod_eq_of_lt (b := 256 ^ 4) value.isLt, BitVec.ofNat_toNat, BitVec.setWidth_eq]
  unfold execRegisterWrite execCmdDb
  dsimp only
  rw [word, length_leBytes]
  split <;> rfl

/-- Settles O7: a doorbell is queued, or ignored but for CMD_ERR, and a register write at offset 0 rings it too. -/
theorem doorbellsAreQueuedOrIgnored : Obligations.DoorbellsAreQueuedOrIgnored := by
  unfold Obligations.DoorbellsAreQueuedOrIgnored
  intro fn value s i f
  have lit : s.barDark = false → exec (.cmdDb fn value) s = .next (ringDoorbell fn.toNat value s) := fun lit =>
    congrArg _ (if_neg (ne_true_of_eq_false lit))
  refine ⟨fun shown ⟨notQueued, notTaken⟩ => ?_, fun t awake => wakeFor_awake awake .., fun dark => congrArg _ (if_pos dark),
    fun shown busy => ?_, execRegisterWrite_doorbell ..⟩
  · refine (lit shown).trans (congrArg _ (if_neg ?_))
    simp only [Bool.or_eq_true, List.contains_iff_mem, beq_iff_eq, not_or]
    exact ⟨notQueued, notTaken⟩
  · refine (lit shown).trans (congrArg _ (if_pos ?_))
    simp only [Bool.or_eq_true, List.contains_iff_mem, beq_iff_eq]
    exact busy

end Sys2Proof.Machine
end

section
/-!
PROOFS. The taking of commands by the front ends and by Neriv (O8).
-/
namespace Sys2Proof.Machine

/-! ## Taking commands (R483 to R485) -/

/-- A turn at a function that is ready serves that function. -/
theorem nextTurn_at {turn n : Nat} {ready : Nat → Bool} (known : turn < n) (here : ready turn = true) :
    nextTurn turn n ready = some turn := by
  obtain ⟨m, rfl⟩ : ∃ m, n = m + 1 := ⟨n - 1, by omega⟩
  have first : (turn + 0) % (m + 1) = turn := Nat.mod_eq_of_lt known
  rw [nextTurn, List.range_succ_eq_map, List.map_cons, first, List.find?_cons_of_pos here]

/-- The check of the account's state, version and opcode looks at the account, the version and the life cycle. -/
theorem stateGate_congr {fn op : Nat} {abi : BitVec 8} {s t : State} (acct : t.acct fn = s.acct fn)
    (version : (t.func fn).abi = (s.func fn).abi) (life : t.chip.fw.lifecycle = s.chip.fw.lifecycle) :
    stateGate fn abi op t = stateGate fn abi op s := by
  simp only [stateGate, acct, version, life]

/-- A doorbell's wake changes the power state alone, and nothing in P0. -/
theorem wakeFor_eq (fn slot : Nat) (s : State) :
    ∃ f, wakeFor fn slot s = s.onPower f ∧ (s.chip.power.low = false → f = id) := by
  cases low : s.chip.power.low with
  | false => exact ⟨id, wakeFor_awake low .., fun _ => rfl⟩
  | true =>
    obtain ⟨f, woken⟩ : ∃ f, wakeFor fn slot s = s.onPower f := by
      unfold wakeFor
      dsimp only
      split
      · exact wakeUp_eq s
      · exact ⟨id, rfl⟩
    exact ⟨f, woken, nofun⟩

theorem func_onFunc_here {i : Nat} {s : State} (known : i < s.mail.funcs.length) (f : Func → Func) :
    (s.onFunc i f).func i = f (s.func i) := by
  rw [State.func_onFunc, if_pos ⟨rfl, known⟩]

theorem stateGate_onFunc {f : Func → Func} (keeps : ∀ x, (f x).abi = x.abi) (i fn op : Nat) (abi : BitVec 8) (s : State) :
    stateGate fn abi op (s.onFunc i f) = stateGate fn abi op s := by
  refine stateGate_congr rfl ?_ rfl
  rw [State.func_onFunc]
  split
  · exact keeps _
  · rfl

/-- A function that has given up its oldest doorbell, of slot `slot` with command `c` of opcode `op`. -/
def Func.took (op slot : Nat) (c : Cmd) (f : Func) : Func :=
  { f with doorbells := f.doorbells.drop 1, resp := tset f.resp slot ⟨op, c.abi, .ok, c.seqno, 1, 0, 0, []⟩ }

/-- A function whose last SEQNO taken is that of a command (R484). -/
def Func.sequence (c : Cmd) (f : Func) : Func := { f with lastSeq := some c.seqno }

/-- A function that has put a command it has taken on its path. -/
def Func.passOn (op : Nat) (c : Cmd) (f : Func) : Func :=
  if direct op then { f with taken := f.taken ++ [⟨c, op⟩] } else { f with fwQueue := f.fwQueue ++ [⟨c, op⟩] }

theorem passOn_keeps (op : Nat) (c : Cmd) (f : Func) : (f.passOn op c).doorbells = f.doorbells ∧ (f.passOn op c).resp = f.resp ∧
    (f.passOn op c).lastSeq = f.lastSeq := by
  unfold Func.passOn
  split <;> exact ⟨rfl, rfl, rfl⟩

theorem direct_iff (op : Nat) : direct op = true ↔ op / 256 = 3 ∨ op / 256 = 5 := by simp [direct]

theorem passOn_taken (op : Nat) (c : Cmd) (f : Func) :
    (f.passOn op c).taken = if op / 256 = 3 ∨ op / 256 = 5 then f.taken ++ [⟨c, op⟩] else f.taken := by
  simp only [Func.passOn, direct_iff]
  split <;> rfl

theorem passOn_fwQueue (op : Nat) (c : Cmd) (f : Func) :
    (f.passOn op c).fwQueue = if op / 256 = 3 ∨ op / 256 = 5 then f.fwQueue else f.fwQueue ++ [⟨c, op⟩] := by
  simp only [Func.passOn, direct_iff]
  split <;> rfl

theorem execCommandTake_served {port : BitVec 2} {s : State} {i slot : Nat} {rest : List Nat} {bs : Bytes} {c : Cmd} {op : Nat}
    (turn : s.mail.turns.getD port.toNat 0 = i) (few : i < 256) (doorbells : (s.func (256 * port.toNat + i)).doorbells = slot :: rest)
    (awake : (s.func (256 * port.toNat + i)).paused = false) (ready : (s.func (256 * port.toNat + i)).ready = true)
    (bytes : (s.func (256 * port.toNat + i)).slotBytes slot = bs) (spelt : cmdOf (256 * port.toNat + i) slot bs = c)
    (opcode : fieldAt bs 0 2 = op) (header : headerGate bs (s.func (256 * port.toNat + i)).lastSeq = none)
    (named : fieldAt bs 8 2 = 256 * port.toNat + i) (gate : stateGate (256 * port.toNat + i) c.abi op s = none) :
    ∃ mail f, (s.chip.power.low = false → f = id) ∧ mail.funcs = s.mail.funcs ∧
      execCommandTake port s = .next ((((({ s with mail } : State).onPower f).onFunc (256 * port.toNat + i)
        (Func.took op slot c)).onFunc (256 * port.toNat + i) (Func.sequence c)).onFunc (256 * port.toNat + i) (Func.passOn op c)) := by
  generalize fnIs : 256 * port.toNat + i = fn at *
  obtain ⟨f, woken, still⟩ := wakeFor_eq fn slot
    { s with mail := { s.mail with turns := lmod s.mail.turns port.toNat fun _ => (i + 1) % 256 } }
  refine ⟨{ s.mail with turns := lmod s.mail.turns port.toNat fun _ => (i + 1) % 256 }, f, still, rfl, ?_⟩
  unfold execCommandTake
  dsimp only
  rw [turn, nextTurn_at few (by simp [fnIs, doorbells, awake, ready])]
  dsimp only
  rw [fnIs, doorbells, List.headD_cons, bytes, spelt, opcode, woken, header]
  dsimp only
  rw [if_neg (by simp [named])]
  rw [stateGate_onFunc ?seq, stateGate_onFunc ?taken, stateGate_congr (s := s) ?acct ?version ?life, gate]
  case seq => exact fun _ => rfl
  case taken => exact fun _ => rfl
  all_goals rfl

/-- Settles O8: the turn stands at a function that can be served, so that one is. -/
theorem commandTakeMarksTaken : Obligations.CommandTakeMarksTaken := by
  unfold Obligations.CommandTakeMarksTaken
  refine ⟨?take, ?accept⟩
  case take =>
    intro port s i slot rest
    dsimp only
    intro turn few known doorbells awake ready header named gate
    obtain ⟨mail, f, still, funcs, taken⟩ :=
      execCommandTake_served turn few doorbells awake ready rfl rfl rfl header named gate
    refine ⟨_, taken, ?_⟩
    generalize 256 * port.toNat + i = fn at *
    have there {g h k : Func → Func} :
        (((((({ s with mail } : State).onPower f).onFunc fn g).onFunc fn h).onFunc fn k).func fn) = k (h (g (s.func fn))) := by
      rw [func_onFunc_here, func_onFunc_here, func_onFunc_here, State.func, State.func]
      all_goals simp [State.onFunc, State.onPower, length_lmod, funcs, known]
    have keeps := passOn_keeps (fieldAt ((s.func fn).slotBytes slot) 0 2) (cmdOf fn slot ((s.func fn).slotBytes slot))
    refine ⟨?_, ?_, ?_, ?_, ?_, rfl, fun low => by rw [still low]; rfl, rfl⟩
    all_goals rw [there]
    · exact (keeps _).1.trans (congrArg (List.drop 1) doorbells)
    · exact (congrArg (tget · slot) (keeps _).2.1).trans (tget_tset_same ..)
    · exact (keeps _).2.2
    · exact passOn_taken ..
    · exact passOn_fwQueue ..
  case accept =>
    intro s k rest small known queue awake
    refine ⟨_, by
      show execFirmwareAccept s = _
      unfold execFirmwareAccept
      rw [nextTurn_at small (by simp [queue, awake])], ?_⟩
    refine ⟨?_, ?_, rfl, rfl, rfl, rfl⟩
    · refine (congrArg Func.fwQueue (func_onFunc_here ?_ _)).trans (congrArg (List.drop 1) queue)
      exact known
    · refine (congrArg Func.taken (func_onFunc_here ?_ _)).trans (congrArg ((s.func s.mail.fwTurn).taken ++ List.take 1 ·) queue)
      exact known
end Sys2Proof.Machine
end

section
/-!
PROOFS. The mailbox's own commands and the mask (O10).
-/
namespace Sys2Proof.Machine

/-! ## The mailbox's own commands (R488 to R505) -/

section
variable {c : Cmd} {s u : State}

theorem execNotifyMask_ok (h : Runs 0x105 c s u) (tail : cmdTail c 4 = true) (even : cmdU c 0 4 % 2 = 0)
    (low : cmdU c 0 4 < 2 ^ 16) : execNotifyMask c s = .next (complete c 0x105 .ok (leBytes 4 (cmdU c 0 4))
      (u.onFunc (cmdA c) fun f => { f with mask := BitVec.ofNat 32 (cmdU c 0 4) })) :=
  runCmd_ok h (check_passed (by simpa [tail, even] using low) rfl)

theorem execNotifyMask_badArg (h : Runs 0x105 c s u) (reserved : cmdU c 0 4 % 2 = 1 ∨ 2 ^ 16 ≤ cmdU c 0 4) :
    execNotifyMask c s = .next (complete c 0x105 .badArg [] u) := by
  refine runCmd_done h (if_pos ?_)
  rcases reserved with odd | high
  · simp [odd]
  · exact Bool.or_eq_true_iff.2 (.inr (decide_eq_true high))

/-- A notification whose bit is set in the mask is neither posted nor lost (R498). -/
theorem post_masked {fn kind : Nat} {s : State} (few : kind ≤ 15) (masked : (s.func fn).mask.getLsbD kind = true)
    (st : Status) (args : Bytes) : post fn kind st args s = s :=
  if_pos (by simp [few, masked])

theorem execNegotiate_ok (h : Runs 0x101 c s u) (tail : cmdTail c 2 = true) (some_ : 0 < cmdU c 0 1)
    (ordered : cmdU c 0 1 ≤ cmdU c 1 1) (served : cmdU c 0 1 ≤ 3) (alone : otherOutstanding c u = false) :
    execNegotiate c s = .next (complete c 0x101 .ok
      (leBytes 1 (min (cmdU c 1 1) 3) ++ [0x0E] ++ leBytes 2 (cmdA c) ++ leBytes 1 (cmdA c / 256) ++
        leBytes 1 (cmdA c % 256) ++ [64, 0])
      (u.onFunc (cmdA c) fun f => { f with abi := BitVec.ofNat 8 (min (cmdU c 1 1) 3) })) := by
  refine runCmd_ok h (check_passed ?_ (check_passed ?_ (check_passed alone rfl)))
  · simp only [tail, Bool.not_true, Bool.false_or, Bool.or_eq_false_iff, beq_eq_false_iff_ne, decide_eq_false_iff_not]
    omega
  · simp only [decide_eq_false_iff_not]
    omega

theorem execIdentify_ok (h : Runs 0x102 c s u) (tail : cmdTail c 0 = true) :
    execIdentify c s = .next (complete c 0x102 .ok (identity u (cmdA c)) u) :=
  runCmd_ok h (check_passed (by simp [tail]) rfl)

theorem execUnitQuery_ok (h : Runs 0x103 c s u) (tail : cmdTail c 3 = true) (some_ : 0 < cmdU c 2 1) (few : cmdU c 2 1 ≤ 28)
    (exist : cmdU c 1 1 + cmdU c 2 1 ≤ unitCount (cmdU c 0 1))
    (may : u.hasModRight (cmdA c) = true ∨
      ∀ i < cmdU c 2 1, (u.acct (cmdA c)).quota.partition ∈ unitParts u (cmdU c 0 1) (cmdU c 1 1 + i)) :
    execUnitQuery c s = .next (complete c 0x103 .ok
      ((List.range (cmdU c 2 1)).flatMap fun i => unitRecord u (cmdU c 0 1) (cmdU c 1 1 + i)) u) := by
  refine runCmd_ok h (check_passed ?_ (check_passed ?_ rfl))
  · simp only [tail, Bool.not_true, Bool.false_or, Bool.or_eq_false_iff, beq_eq_false_iff_ne, decide_eq_false_iff_not]
    omega
  · rcases may with right | own
    · simp [right]
    · have all : ((List.range (cmdU c 2 1)).all fun i =>
          (unitParts u (cmdU c 0 1) (cmdU c 1 1 + i)).contains (u.acct (cmdA c)).quota.partition) = true := by
        simpa using own
      simp only [all, Bool.not_true, Bool.false_and]

/-- UNIT_RECONCILE of a unit that the caller may name comes to the unit's own state (R505). -/
theorem execUnitReconcile_wait (h : Runs 0x104 c s u) (tail : cmdTail c 2 = true) (exists_ : cmdU c 1 1 < unitCount (cmdU c 0 1))
    (may : u.hasModRight (cmdA c) = true ∨ ∃ p ∈ unitParts u (cmdU c 0 1) (cmdU c 1 1), u.hasPartRight (cmdA c) p = true)
    {v : State} (unit : (if (u.unit (cmdU c 0 1) (cmdU c 1 1)).mgmt == 3 then Res.wait (.unit (cmdU c 0 1) (cmdU c 1 1)) u
      else if (u.unit (cmdU c 0 1) (cmdU c 1 1)).mgmt == 2 then .wait (.unit (cmdU c 0 1) (cmdU c 1 1))
        (u.onUnit (cmdU c 0 1) (cmdU c 1 1) fun r => { r with mgmt := 3 })
      else fail .refusedState u) = .wait (.unit (cmdU c 0 1) (cmdU c 1 1)) v) :
    execUnitReconcile c s = .next (waitsFor c 0x104 (.unit (cmdU c 0 1) (cmdU c 1 1)) v) := by
  have mayBool : (u.hasModRight (cmdA c) || (unitParts u (cmdU c 0 1) (cmdU c 1 1)).any fun p => u.hasPartRight (cmdA c) p) = true := by
    simpa using may
  exact runCmd_wait h (check_passed (by simp [tail, exists_]) (need_met mayBool unit))

end

/-- Settles O10: each command passes its checks one after another. -/
theorem mailboxCommandsComplete : Obligations.MailboxCommandsComplete := by
  unfold Obligations.MailboxCommandsComplete
  refine ⟨?mask, ?suppressed, rfl, ?negotiate, ?identify, ?query, ?reconcile⟩
  case mask =>
    exact fun c s u runs tail => ⟨fun ⟨even, low⟩ => execNotifyMask_ok runs tail even low, execNotifyMask_badArg runs⟩
  case suppressed => exact fun fn kind st args s _ few masked => post_masked few masked st args
  case negotiate => exact fun c s u runs tail some_ ordered served alone => execNegotiate_ok runs tail some_ ordered served alone
  case identify => exact fun c s u runs tail => execIdentify_ok runs tail
  case query => exact fun c s u runs tail some_ few exist may => execUnitQuery_ok runs tail some_ few exist may
  case reconcile =>
    intro c s u runs tail exists_ may
    exact ⟨fun fenced => execUnitReconcile_wait runs tail exists_ may (by rw [fenced]; rfl),
      fun reconciling => execUnitReconcile_wait runs tail exists_ may (by rw [reconciling]; rfl)⟩

end Sys2Proof.Machine
end

section
/-!
PROOFS. Register accesses, latching reads and the aperture (O9).
-/
namespace Sys2Proof.Machine

/-! ## Registers and the aperture (R495, R570 to R580) -/

theorem tailAt_eq (f : Func) : f.tailAt = if (f.head - f.tail).toNat ≤ 1024 then f.tail else f.head := by
  simp only [Func.tailAt, decide_eq_true_eq]

theorem aper_onAper_here {i : Nat} {s : State} (known : i < s.mail.apers.length) (f : Aper → Aper) :
    (s.onAper i f).aper i = f (s.aper i) := by
  simp only [State.aper, State.onAper, getD_lmod, known, and_self, if_true]

theorem aper_onAper_ne {i j : Nat} (h : i ≠ j) (f : Aper → Aper) (s : State) : (s.onAper i f).aper j = s.aper j := by
  simp only [State.aper, State.onAper, getD_lmod, if_neg (fun both : i = j ∧ _ => h both.1)]

section
variable {s : State} {fn : BitVec 10}

theorem execCntValLowRead_right {scope : BitVec 4} (lit : s.barDark = false) (right : s.hasModRight fn.toNat = true)
    (known : scope.toNat ≤ 8) (index : BitVec 5) :
    execCntValLowRead fn scope index s =
      let u := countUnseen scope.toNat s
      let v : DWord := (u.counter scope.toNat index.toNat).value.setWidth 64
      .next ((u.onAper fn.toNat fun a => { a with cntLatch := some v }).emit (.read fn.toNat (leBytes 4 v.toNat))) :=
  check_passed lit (if_pos (by simp [right, known]))

theorem execCntValLowRead_noRight (lit : s.barDark = false) (right : s.hasModRight fn.toNat = false) (scope : BitVec 4)
    (index : BitVec 5) : execCntValLowRead fn scope index s = .next (s.emit (.read fn.toNat (leBytes 4 0))) :=
  check_passed lit (check_passed (by simp [right]) rfl)

/-- A check that can only refuse passes where it finds nothing, and the checks after it pass. -/
theorem none_of_check_iff {α : Type} {b : Bool} {x : α} {r : Option α} :
    (if b = true then some x else r) = none ↔ b = false ∧ r = none := by
  cases b <;> simp

/-- An access of some bytes passes when it meets every condition of R574. -/
theorem apCheck_none_iff {n : Nat} (some_ : 0 < n) (fn off : Nat) (s : State) :
    apCheck s fn off n = none ↔
      ((s.aper fn).en = true ∧ off + n ≤ 2 ^ (30 + (s.aper fn).size.toNat) ∧
        s.inGrants fn ((s.aper fn).base.toNat + off) n = true ∧ (s.acct fn).state = .enabled ∧ s.chip.power.pstate = 0) := by
  rw [apCheck, none_of_check_iff, none_of_check_iff, none_of_check_iff, none_of_check_iff]
  simp [some_, and_assoc]

theorem execApertureRead_passes {off : BitVec 36} {len : Nat} {n : Noc} (lit : s.barDark = false)
    (passes : apCheck s fn.toNat off.toNat len = none)
    (crosses : s.chip.noc.crossAll (readMsgs (2 * (fn.toNat / 256)) [((s.aper fn.toNat).base.toNat + off.toNat, len)]) = some n)
    (whole : s.readFails ((s.aper fn.toNat).base.toNat + off.toNat) len = false) :
    execApertureRead fn off len s =
      .next ((((crossed s n).charge .host fn.toNat [((s.aper fn.toNat).base.toNat + off.toNat, len)]).meter fn.toNat 8 len 0).emit
        (.read fn.toNat (s.read ((s.aper fn.toNat).base.toNat + off.toNat) len))) := by
  refine check_passed lit ?_
  rw [passes]
  refine congrArg Host.Outcome.next ((carry_crosses _ crosses).trans ?_)
  exact check_passed whole rfl

theorem execApertureRead_refused {off : BitVec 36} {len : Nat} {r : ApRefusal} (lit : s.barDark = false)
    (refused : apCheck s fn.toNat off.toNat len = some r) :
    execApertureRead fn off len s = .next ((apRefuse fn.toNat r s).emit (.read fn.toNat (List.replicate len 0))) := by
  refine check_passed lit ?_
  rw [refused]

theorem execApertureWrite_passes {off : BitVec 36} {data : Bytes} {n : Noc} (lit : s.barDark = false)
    (passes : apCheck s fn.toNat off.toNat data.length = none)
    (crosses : s.chip.noc.crossAll (writeMsgs (2 * (fn.toNat / 256)) [((s.aper fn.toNat).base.toNat + off.toNat, data.length)]) =
      some n) :
    let a := (s.aper fn.toNat).base.toNat + off.toNat
    let t := ((crossed s n).charge .host fn.toNat [(a, data.length)]).meter fn.toNat 8 data.length 0
    execApertureWrite fn off data s = .next (if s.rangeFails a data.length then t else t.write a data) := by
  refine check_passed lit ?_
  rw [passes]
  exact congrArg Host.Outcome.next (carry_crosses _ crosses)

theorem execApertureWrite_refused {off : BitVec 36} {data : Bytes} {r : ApRefusal} (lit : s.barDark = false)
    (refused : apCheck s fn.toNat off.toNat data.length = some r) :
    execApertureWrite fn off data s = .next (apRefuse fn.toNat r s) := by
  refine check_passed lit ?_
  rw [refused]

end

/-- An aperture's vectors with one of them unmasked. -/
def Aper.unmasked (vec : Nat) (a : Aper) : Aper :=
  { a with msix := tset a.msix vec { (tgetD a.msix vec ⟨0, 0, true⟩) with masked := false } }

/-- An aperture's vectors with the pending bit of one of them cleared. -/
def Aper.delivered (vec : Nat) (a : Aper) : Aper := { a with msixPend := a.msixPend &&& ~~~((1 : DWord) <<< vec) }

theorem unmask_eq {fn : Nat} {s : State} (known : fn < s.mail.apers.length) (vec : Nat) :
    unmask fn vec s = if (s.aper fn).msixPend.getLsbD vec then
      ((s.onAper fn (Aper.unmasked vec)).onAper fn (Aper.delivered vec)).emit (.msix fn vec)
      else s.onAper fn (Aper.unmasked vec) := by
  have cleared := congrArg Aper.msixPend (aper_onAper_here known (Aper.unmasked vec))
  show (if ((s.onAper fn (Aper.unmasked vec)).aper fn).msixPend.getLsbD vec then _ else _) = _
  rw [cleared]
  rfl

/-- An unmask clears the vector's mask and its pending bit, and sends the message that was pending (R578). -/
theorem unmask_effect {fn vec : Nat} {s : State} (known : fn < s.mail.apers.length) (exists_ : vec < 64) :
    tget ((unmask fn vec s).aper fn).msix vec = some { (tgetD (s.aper fn).msix vec ⟨0, 0, true⟩) with masked := false } ∧
      ((unmask fn vec s).aper fn).msixPend.getLsbD vec = false ∧
      (unmask fn vec s).out = s.out ++ (if (s.aper fn).msixPend.getLsbD vec then [.msix fn vec] else []) := by
  rw [unmask_eq known]
  have cleared := aper_onAper_here known (Aper.unmasked vec)
  cases pending : (s.aper fn).msixPend.getLsbD vec with
  | false =>
    rw [if_neg Bool.false_ne_true, cleared]
    exact ⟨tget_tset_same .., pending, (List.append_nil _).symm⟩
  | true =>
    have still : fn < (s.onAper fn (Aper.unmasked vec)).mail.apers.length := by
      simpa only [State.onAper, length_lmod] using known
    have sent : ((((s.onAper fn (Aper.unmasked vec)).onAper fn (Aper.delivered vec)).emit (.msix fn vec)).aper fn) =
        Aper.delivered vec (Aper.unmasked vec (s.aper fn)) := by
      rw [← cleared]
      exact aper_onAper_here still _
    rw [if_pos rfl, sent]
    refine ⟨tget_tset_same .., ?_, rfl⟩
    simp [Aper.delivered, exists_]

/-- MTIME_HI reads the high word of the latch, or of module time where nothing is latched (R573). -/
theorem funcWord_mtimeHigh (s : State) (fn : Nat) :
    funcWord s fn 0x34 = (((s.aper fn).mtimeLatch.getD s.mtime) >>> 32).setWidth 32 := rfl

/-- Settles O9: each access is the one branch of its operation that its conditions select. -/
theorem registerAccessesTakeEffect : Obligations.RegisterAccessesTakeEffect := by
  unfold Obligations.RegisterAccessesTakeEffect
  refine ⟨?tail, ?dark, tailAt_eq, ?counter, ?read, ?write, ?conditions, ?unmask, ?mtime⟩
  case tail => exact fun fn v s lit => congrArg Host.Outcome.next (if_neg (ne_true_of_eq_false lit))
  case dark =>
    intro fn v scope index off len data vec s dark
    exact ⟨congrArg Host.Outcome.next (if_pos dark), if_pos dark, congrArg Host.Outcome.next (if_pos dark), if_pos dark, if_pos dark,
      congrArg Host.Outcome.next (if_pos dark)⟩
  case counter =>
    exact fun fn scope index s lit => ⟨fun right known => execCntValLowRead_right lit right known index,
      fun right => execCntValLowRead_noRight lit right scope index⟩
  case read =>
    exact fun fn off len s n lit => ⟨fun passes crosses whole => execApertureRead_passes lit passes crosses whole,
      fun r refused => execApertureRead_refused lit refused⟩
  case write =>
    exact fun fn off data s n lit => ⟨fun passes crosses => execApertureWrite_passes lit passes crosses,
      fun r refused => execApertureWrite_refused lit refused⟩
  case conditions => exact fun fn off n s some_ => apCheck_none_iff some_ fn.toNat off s
  case unmask =>
    intro fn v s lit known
    exact ⟨_, congrArg Host.Outcome.next (if_neg (ne_true_of_eq_false lit)), unmask_effect known v.isLt⟩
  case mtime =>
    intro fn s lit known
    refine ⟨_, congrArg Host.Outcome.next (if_neg (ne_true_of_eq_false lit)), rfl, fun m => ?_, fun g other => ?_, rfl, rfl, rfl, rfl⟩
    · rw [funcWord_mtimeHigh]
      have latched := congrArg Aper.mtimeLatch (aper_onAper_here known fun a => { a with mtimeLatch := some s.mtime })
      refine congrArg (fun l : DWord => (l >>> 32).setWidth 32) ?_
      exact congrArg (fun l : Option DWord => l.getD m) latched
    · exact aper_onAper_ne (Ne.symm other) ..

end Sys2Proof.Machine
end

section
/-!
PROOFS. Account commands (O11).
-/
namespace Sys2Proof.Machine

/-! ## Accounts (R456 to R477) -/

section
variable {c : Cmd} {s u v : State}

/-- The course of a command with a quota block, up to what it does with the quota. -/
theorem quotaCmd_done {k : Nat → Quota → Res} {st : Status} {p : Bytes} (right : u.hasModRight (cmdA c) = true) (tail : cmdTail c 16 = true)
    (zero : cmdZ c 2 6 = true) (addr : addrOk (cmdU c 8 8) = true) (known : namedAcct c < 1024)
    (mine : u.inAccount (cmdA c) (cmdU c 8 8) 64 = true) (reads : u.reads (cmdU c 8 8) 64 = true)
    (legal : quotaOk u (u.read (cmdU c 8 8) 64) = true)
    (does : k (namedAcct c) (quotaOf (u.read (cmdU c 8 8) 64)) = .done st p v) :
    quotaCmd c u k = .done st p (v.took (cmdA c) [(cmdU c 8 8, 64)]) := by
  refine need_met right (check_passed (by simp [tail, zero, addr, known]) (readFor_done mine reads ?_))
  exact (if_pos legal).trans does

theorem execAcctCreate_ok (h : Runs 0x120 c s u) (right : u.hasModRight (cmdA c) = true) (tail : cmdTail c 16 = true)
    (zero : cmdZ c 2 6 = true) (addr : addrOk (cmdU c 8 8) = true) (known : namedAcct c < 1024)
    (mine : u.inAccount (cmdA c) (cmdU c 8 8) 64 = true) (reads : u.reads (cmdU c 8 8) 64 = true)
    (legal : quotaOk u (u.read (cmdU c 8 8) 64) = true)
    (pools : poolsCover u (namedAcct c) (quotaOf (u.read (cmdU c 8 8) 64)) = true) (none : (u.acct (namedAcct c)).state = .none) :
    let causes := { Causes.clear with absent := !u.fnExists (namedAcct c) }
    let quota := quotaOf (u.read (cmdU c 8 8) 64)
    let made := u.onAcct (namedAcct c) fun x =>
      { x with state := .disabled, causes := causes, quota := quota, thresh := 0, armed := true, belowSince := Option.none }
    execAcctCreate c s = .next (complete c 0x120 .ok []
      ((if u.fnExists (namedAcct c) then enterEnabled (namedAcct c) made else made).took (cmdA c) [(cmdU c 8 8, 64)])) := by
  refine runCmd_ok h (quotaCmd_done right tail zero addr known mine reads legal ?_)
  refine check_passed (by simp [none]) (need_met pools ?_)
  cases there : u.fnExists (namedAcct c) <;> rfl

theorem execAcctModify_ok (h : Runs 0x121 c s u) (right : u.hasModRight (cmdA c) = true) (tail : cmdTail c 16 = true)
    (zero : cmdZ c 2 6 = true) (addr : addrOk (cmdU c 8 8) = true) (known : namedAcct c < 1024)
    (mine : u.inAccount (cmdA c) (cmdU c 8 8) 64 = true) (reads : u.reads (cmdU c 8 8) 64 = true)
    (legal : quotaOk u (u.read (cmdU c 8 8) 64) = true) {q : Quota} (quota : quotaOf (u.read (cmdU c 8 8) 64) = q)
    (pools : poolsCover u (namedAcct c) q = true) (created : (u.acct (namedAcct c)).state ∈ [AcctState.enabled, .disabled])
    (enough : belowUse u (namedAcct c) q = false) (partition : q.partition = (u.acct (namedAcct c)).quota.partition)
    (cls : q.classB = (u.acct (namedAcct c)).quota.classB) (load : loadFails u (namedAcct c) q = false) :
    execAcctModify c s = .next (complete c 0x121 .ok []
      ((u.onAcct (namedAcct c) fun x => { x with quota := q }).took (cmdA c) [(cmdU c 8 8, 64)])) := by
  refine runCmd_ok h (quotaCmd_done right tail zero addr known mine reads legal ?_)
  rw [quota]
  have some_ : ((u.acct (namedAcct c)).state == .none) = false ∧ ((u.acct (namedAcct c)).state == .stopping) = false := by
    rcases List.mem_cons.1 created with enabled | disabled
    · simp [enabled]
    · simp [List.mem_singleton.1 disabled]
  refine check_passed some_.1 (check_passed some_.2 (need_met pools
    (check_passed (by simp [enough, partition, cls]) (check_passed load ?_))))
  rw [if_pos (by simp [partition])]
  rfl

/-- The course of a command that names a created account. -/
theorem acctCmd_created {k : Nat → Res} (right : u.hasModRight (cmdA c) = true) (tail : cmdTail c 2 = true) (known : namedAcct c < 1024)
    (created : (u.acct (namedAcct c)).state ≠ .none) : acctCmd c u k = k (namedAcct c) :=
  need_met right (check_passed (by simp [tail, known]) (check_passed (by simpa using created) rfl))

section
variable (right : u.hasModRight (cmdA c) = true) (tail : cmdTail c 2 = true) (known : namedAcct c < 1024)
  (other : u.hasModRight (namedAcct c) = false)
include right tail known other

theorem execAcctDisable_enabled (h : Runs 0x122 c s u) (enabled : (u.acct (namedAcct c)).state = .enabled) :
    execAcctDisable c s = .next
      (waitsFor c 0x122 (.acctStop (namedAcct c)) (disableCause (namedAcct c) (fun x => { x with admin := true }) u)) :=
  runCmd_wait h ((acctCmd_created right tail known (by simp [enabled])).trans
    (check_passed other (check_passed (by simp [enabled]) rfl)))

theorem execAcctDisable_disabled (h : Runs 0x122 c s u) (disabled : (u.acct (namedAcct c)).state = .disabled) :
    execAcctDisable c s = .next
      (complete c 0x122 .ok [] (disableCause (namedAcct c) (fun x => { x with admin := true }) u)) :=
  runCmd_ok h ((acctCmd_created right tail known (by simp [disabled])).trans (check_passed other (if_pos (by simp [disabled]))))

theorem execAcctDestroy_enabled (h : Runs 0x124 c s u) (enabled : (u.acct (namedAcct c)).state = .enabled) :
    execAcctDestroy c s = .next
      (waitsFor c 0x124 (.acctStop (namedAcct c)) (disableCause (namedAcct c) (fun x => { x with destroy := true }) u)) :=
  runCmd_wait h ((acctCmd_created right tail known (by simp [enabled])).trans
    (check_passed other (check_passed (by simp [enabled]) rfl)))

theorem execAcctDestroy_disabled (h : Runs 0x124 c s u) (disabled : (u.acct (namedAcct c)).state = .disabled) :
    execAcctDestroy c s = .next (complete c 0x124 .ok [] (releaseAcct (namedAcct c) u)) :=
  runCmd_ok h ((acctCmd_created right tail known (by simp [disabled])).trans (check_passed other (if_pos (by simp [disabled]))))

end

theorem execAcctEnable_ok (h : Runs 0x123 c s u) (right : u.hasModRight (cmdA c) = true) (tail : cmdTail c 2 = true)
    (listed : namedAcct c < u.ten.accts.length) (known : namedAcct c < 1024) (disabled : (u.acct (namedAcct c)).state = .disabled)
    (present : (u.acct (namedAcct c)).causes.absent = false) :
    execAcctEnable c s = .next (complete c 0x123 .ok [] (enterEnabled (namedAcct c)
      (u.onAcct (namedAcct c) fun x => { x with causes := { x.causes with admin := false } }))) := by
  refine runCmd_ok h ((acctCmd_created right tail known (by simp [disabled])).trans (check_passed (by simp [disabled]) ?_))
  dsimp only
  rw [State.acct_onAcct, if_pos (And.intro (Eq.refl (namedAcct c)) listed), if_pos (by simp [disabled, present])]
  rfl

theorem execAcctQuery_ok (h : Runs 0x125 c s u) (tail : cmdTail c 16 = true) (zero : cmdZ c 2 6 = true)
    (addr : addrOk (cmdU c 8 8) = true) (known : namedAcct c < 1024)
    (may : namedAcct c = cmdA c ∨ (u.chip.fw.lifecycle = .owned ∧ u.hasModRight (cmdA c) = true))
    (mine : u.inAccount (cmdA c) (cmdU c 8 8) 128 = true) (writes : u.writes (cmdU c 8 8) 128 = true) :
    execAcctQuery c s = .next (complete c 0x125 .ok
      (leBytes 1 (u.acct (namedAcct c)).state.code ++ leBytes 1 (u.acct (namedAcct c)).causes.bits)
      (u.give (cmdA c) (cmdU c 8 8) ((u.acct (namedAcct c)).quota.bytes ++ (usageOf u (namedAcct c)).bytes))) := by
  have allowed : (namedAcct c != cmdA c && u.chip.fw.lifecycle != .owned) = false ∧
      (namedAcct c != cmdA c && !u.hasModRight (cmdA c)) = false := by
    rcases may with own | ⟨owned, right⟩
    · simp [own]
    · simp [owned, right]
  refine runCmd_ok h (check_passed (by simpa using known) (check_passed allowed.1 (check_passed ?_
    (check_passed (by simp [tail, zero, addr]) (writeFor_ok _ mine writes)))))
  rw [allowed.2, Bool.false_and]

theorem execAcctFlagsSet_ok (h : Runs 0x12A c s u) (tail : cmdTail c 8 = true) (zero : cmdZ c 2 6 = true) (on : cmdU c 0 1 < 8)
    (off : cmdU c 1 1 < 8) (apart : cmdU c 0 1 &&& cmdU c 1 1 = 0) (idle : u.slotsOf (cmdA c) = []) :
    let put := fun (i : Nat) (b : Bool) => (b || (cmdU c 0 1).testBit i) && !(cmdU c 1 1).testBit i
    let v := u.onAcct (cmdA c) fun x =>
      { x with epochPin := put 0 x.epochPin, strictFreeze := put 1 x.strictFreeze, remoteSleep := put 2 x.remoteSleep }
    execAcctFlagsSet c s = .next (complete c 0x12A .ok (leBytes 1 (v.acct (cmdA c)).flags) v) :=
  runCmd_ok h (check_passed (by simp [tail, zero, on, off, apart]) (check_passed (by simp [idle]) rfl))

end

/-- Settles O11: each command passes its checks one after another. -/
theorem accountCommandsComplete : Obligations.AccountCommandsComplete := by
  unfold Obligations.AccountCommandsComplete
  refine ⟨?quota, ?stop, ?enable, ?query, ?flags⟩
  case quota =>
    intro c s u right tail zero addr known mine reads legal q x pools
    exact ⟨fun runs none => execAcctCreate_ok runs right tail zero addr known mine reads legal pools none,
      fun runs created enough partition cls load =>
        execAcctModify_ok runs right tail zero addr known mine reads legal rfl pools created enough partition cls load⟩
  case stop =>
    intro c s u right tail known other
    exact ⟨execAcctDisable_enabled right tail known other, execAcctDisable_disabled right tail known other,
      execAcctDestroy_enabled right tail known other, execAcctDestroy_disabled right tail known other⟩
  case enable =>
    exact fun c s u runs right tail listed known disabled present => execAcctEnable_ok runs right tail listed known disabled present
  case query => exact fun c s u runs tail zero addr known may mine writes => execAcctQuery_ok runs tail zero addr known may mine writes
  case flags => exact fun c s u runs tail zero on off apart idle _ => execAcctFlagsSet_ok runs tail zero on off apart idle

end Sys2Proof.Machine
end

section
/-!
PROOFS. Grants, partitions and rights (O12).
-/
namespace Sys2Proof.Machine

/-! ## Grants, partitions and rights (R458, R461, R465, R466) -/

/-- Stopping no sampler changes nothing. -/
theorem stopSamplers_none {p : Nat → Sampler → Bool} (none : ∀ k x, p k x = false) (s : State) : stopSamplers p s = s := by
  have all : (s.chip.samplers.filter fun x => !p x.1 x.2) = s.chip.samplers := by
    rw [List.filter_eq_self]
    intro x _
    rw [none]
    rfl
  rw [stopSamplers, all]

section
variable {c : Cmd} {s u : State} {gs : List Grant}

theorem execAcctMemGrant_ok (h : Runs 0x126 c s u) (right : u.hasModRight (cmdA c) = true)
    (named : namedUnits c (namedAcct c) = some gs) (created : (u.acct (namedAcct c)).state ≠ .none)
    (dies : ∀ g ∈ gs, g.pool = 3 ∨ g.die ∈ u.acctDies (namedAcct c))
    (unused : ∀ g ∈ gs, u.unitOwner g.pool g.die g.unit = none ∧ (g.pool ≠ 2 ∨ inDecodeGroup u g.die (g.unit / 16) = false)) :
    execAcctMemGrant c s = .next (complete c 0x126 .ok []
      { (u.wipeWhere (inUnits fun x => gs.any fun g => g.isUnit x)) with
        ten := { u.ten with grants := (u.ten.grants ++ gs).mergeSort grantOrder } }) := by
  refine runCmd_ok h (need_met right ?_)
  rw [named]
  refine check_passed (by simpa using created) (check_passed (List.any_eq_false.2 fun g mem => ?_)
    (check_passed (List.any_eq_false.2 fun g mem => ?_) rfl))
  · rcases dies g mem with strongbox | own
    · simp [strongbox]
    · simp [own]
  · obtain ⟨unowned, otherPool | idle⟩ := unused g mem
    · simp [unowned, otherPool]
    · simp [unowned, idle]

theorem execAcctMemRevoke_ok (h : Runs 0x127 c s u) (right : u.hasModRight (cmdA c) = true)
    (named : namedUnits c (namedAcct c) = some gs)
    (held : ∀ g ∈ gs, u.unitOwner g.pool g.die g.unit = some (namedAcct c) ∧ g.pool ≠ 3 ∧
      ∀ r ∈ busyRanges u (namedAcct c), rangeInUnit r g = false) :
    execAcctMemRevoke c s = .next (complete c 0x127 .ok []
      { (u.wipeWhere (inUnits fun x => gs.any fun g => g.isUnit x)) with
        ten := { u.ten with grants := u.ten.grants.filter fun g => !gs.contains g } }) := by
  refine runCmd_ok h (need_met right ?_)
  rw [named]
  refine check_passed (List.any_eq_false.2 fun g mem => ?_) (check_passed (List.any_eq_false.2 fun r busy => ?_)
    (check_passed ?_ rfl))
  · simp [(held g mem).1]
  · rw [Bool.not_eq_true, List.any_eq_false]
    intro g mem
    simp [(held g mem).2.2 r busy]
  · cases gs with
    | nil => rfl
    | cons g rest => simp [(held g List.mem_cons_self).2.1]

theorem execPartSet_ok (h : Runs 0x128 c s u) (right : u.hasModRight (cmdA c) = true) (tail : cmdTail c 2 = true)
    (known : cmdU c 0 1 < 8) {dies : List Nat} (named : ((List.range 8).filter fun d => (cmdU c 1 1).testBit d) = dies)
    (unheld : ∀ d ∈ dies, u.dieOwner d = none ∨ u.dieOwner d = some (cmdU c 0 1)) (stay : ∀ d ∈ u.partDies (cmdU c 0 1), d ∈ dies)
    (some_ : dies ≠ []) :
    execPartSet c s = .next (complete c 0x128 .ok [] (retag
      ((dies.filter fun d => !(u.partDies (cmdU c 0 1)).contains d).foldl (fun s d => wipeDie d s)
        { u with ten := { u.ten with parts := lmod u.ten.parts (cmdU c 0 1) fun _ => dies } }))) := by
  have leaving : ((u.partDies (cmdU c 0 1)).filter fun d => !dies.contains d) = [] := by
    rw [List.filter_eq_nil_iff]
    intro d old
    simp [stay d old]
  refine runCmd_ok h ?_
  dsimp only
  rw [named, leaving]
  refine need_met right (check_passed ?_ (check_passed rfl (check_passed ?_ ?_)))
  · refine Bool.or_eq_false_iff.2 ⟨by simp [tail, known], List.any_eq_false.2 fun d mem => ?_⟩
    rcases unheld d mem with free | own
    · simp [free]
    · simp [own]
  · simp [some_]
  · rw [stopSamplers_none fun _ _ => by simp]
    rfl

theorem execRightSet_module (h : Runs 0x129 c s u) (right : u.hasModRight (cmdA c) = true) (tail : cmdTail c 4 = true)
    (kind : cmdU c 0 1 = 0) (zero : cmdU c 1 1 = 0) (known : cmdU c 2 2 < 1024) (physical : cmdU c 2 2 % 256 = 0)
    (enabled : (u.acct (cmdU c 2 2)).state = .enabled) :
    execRightSet c s = .next (complete c 0x129 .ok []
      (stopSamplers (fun _ x => x.byModule && x.acct != cmdU c 2 2) { u with ten := { u.ten with modRight := some (cmdU c 2 2) } })) := by
  refine runCmd_ok h (need_met right (check_passed ?_ (check_passed (by simp [enabled]) (check_passed (by simp [kind]) (if_pos ?_)))))
  · have named : cmdU c 2 2 ≠ 0xFFFF := by omega
    simp [tail, kind, zero, known, physical, named]
  · simp [kind]

/-- RIGHT_SET of a partition that has dies passes its right to `holder`. -/
theorem execRightSet_partition (h : Runs 0x129 c s u) (right : u.hasModRight (cmdA c) = true) (tail : cmdTail c 4 = true)
    (kind : cmdU c 0 1 = 1) (known : cmdU c 1 1 < 8) (dies : u.partDies (cmdU c 1 1) ≠ []) {holder : Option Nat}
    (account : (cmdU c 2 2 < 1024 ∧ (u.acct (cmdU c 2 2)).state = .enabled ∧ (u.acct (cmdU c 2 2)).quota.partition = cmdU c 1 1 ∧
      holder = some (cmdU c 2 2)) ∨ (cmdU c 2 2 = 0xFFFF ∧ holder = none)) :
    ∃ t, execRightSet c s = .next (complete c 0x129 .ok [] t) ∧
      t.ten = { u.ten with partRights := lmod u.ten.partRights (cmdU c 1 1) fun _ => holder } ∧ t.mem = u.mem := by
  have held : (if (cmdU c 2 2 == 0xFFFF) = true then none else some (cmdU c 2 2)) = holder := by
    rcases account with ⟨small, _, _, rfl⟩ | ⟨nobody, rfl⟩
    · exact if_neg (by simpa using by omega)
    · exact if_pos (by simpa using nobody)
  refine ⟨_, runCmd_ok h (need_met right (check_passed ?fields (check_passed ?enabled (check_passed ?partition
    (check_passed (by simp [kind]) rfl))))), ?_, rfl⟩
  case fields =>
    rcases account with ⟨small, _⟩ | ⟨nobody, _⟩
    · simp [tail, kind, known, dies, small]
    · simp [tail, kind, known, dies, nobody]
  case enabled =>
    rcases account with ⟨_, enabled, _⟩ | ⟨nobody, _⟩
    · simp [enabled]
    · simp [nobody]
  case partition =>
    rcases account with ⟨_, _, own, _⟩ | ⟨nobody, _⟩
    · simp [own]
    · simp [nobody]
  rw [← held]
  rfl

end

/-- Settles O12: each command passes its checks one after another. -/
theorem grantsPartitionsAndRightsComplete : Obligations.GrantsPartitionsAndRightsComplete := by
  unfold Obligations.GrantsPartitionsAndRightsComplete
  refine ⟨?grant, ?revoke, ?partition, ?right⟩
  case grant =>
    exact fun c s u gs runs right named created dies unused => execAcctMemGrant_ok runs right named created dies unused
  case revoke => exact fun c s u gs runs right named held => execAcctMemRevoke_ok runs right named held
  case partition =>
    exact fun c s u runs right tail known unheld stay some_ => execPartSet_ok runs right tail known rfl unheld stay some_
  case right =>
    intro c s u runs right tail p a
    refine ⟨execRightSet_module runs right tail, ?_, ?_⟩
    · exact fun kind known dies small enabled own =>
        execRightSet_partition runs right tail kind known dies (.inl ⟨small, enabled, own, rfl⟩)
    · exact fun kind known dies nobody => execRightSet_partition runs right tail kind known dies (.inr ⟨nobody, rfl⟩)

end Sys2Proof.Machine
end

section
/-!
PROOFS. The Tally and the counters (O14).
-/
namespace Sys2Proof.Machine

/-! ## The Tally and the counters (R475, R476, R553 to R561) -/

section
variable {c : Cmd} {s u : State}

theorem execTallyRead_ok (h : Runs 0xA01 c s u) (tail : cmdTail c 0 = true) :
    execTallyRead c s = .next (complete c 0xA01 .ok (tallyRecord u (cmdA c)) u) :=
  runCmd_ok h (check_passed (by simp [tail]) rfl)

theorem execTallyReadAll_ok (h : Runs 0xA02 c s u) (tail : cmdTail c 16 = true) (zero : cmdZ c 4 4 = true) (some_ : 0 < cmdU c 2 2)
    (within : cmdU c 0 2 + cmdU c 2 2 ≤ 1024) (addr : addrOk (cmdU c 8 8) = true) (right : u.hasModRight (cmdA c) = true)
    (mine : u.inAccount (cmdA c) (cmdU c 8 8) (128 * cmdU c 2 2) = true) (writes : u.writes (cmdU c 8 8) (128 * cmdU c 2 2) = true) :
    execTallyReadAll c s = .next (complete c 0xA02 .ok []
      (u.give (cmdA c) (cmdU c 8 8) ((List.range (cmdU c 2 2)).flatMap fun i => tallyRecord u (cmdU c 0 2 + i)))) := by
  refine runCmd_ok h (check_passed ?_ (need_met right (writeFor_ok _ mine writes)))
  simp only [tail, zero, addr, Bool.not_true, Bool.false_or, Bool.or_false, Bool.or_eq_false_iff, beq_eq_false_iff_ne,
    decide_eq_false_iff_not]
  omega

theorem execCntSet_ok (h : Runs 0xA10 c s u) (tail : cmdTail c 16 = true) (zero : cmdZ c 2 2 = true) (zeros : cmdZ c 9 7 = true)
    {ctl src : Nat} (word : cmdU c 4 4 = ctl) (source : ctl % 2 ^ 12 = src) (scope : cmdU c 0 1 ≤ 8) (index : cmdU c 1 1 ≤ 31)
    (clear : cmdU c 8 1 ≤ 1) (bit29 : ctl.testBit 29 = false) (bit31 : ctl.testBit 31 = false) (group : src / 256 < 12)
    (event : src % 256 < groupEvents (src / 256)) (module_ : cmdU c 0 1 = 8 ∨ moduleOnly (src / 256) = false)
    (unit : ctl.testBit 28 = false ∧ bitField ctl 24 4 = 0 ∨ sourceIndexes src (bitField ctl 24 4) = true)
    (may : mayCount c (cmdU c 0 1) u = true) :
    execCntSet c s = .next (complete c 0xA10 .ok []
      ((countUnseen (cmdU c 0 1) u).onCounters (cmdU c 0 1) fun l => lmod l (cmdU c 1 1) fun k =>
        { k with src := BitVec.ofNat 12 src, en := ctl.testBit 12, afilt := ctl.testBit 13,
                 account := BitVec.ofNat 10 (ctl / 2 ^ 14), unit := BitVec.ofNat 4 (bitField ctl 24 4),
                 ufilt := ctl.testBit 28, ovf := k.ovf && !ctl.testBit 30,
                 value := if cmdU c 8 1 = 1 then 0 else k.value, changed := true, dead := false })) := by
  have known : (decide (12 ≤ src / 256) || decide (groupEvents (src / 256) ≤ src % 256) ||
      (decide (cmdU c 0 1 < 8) && moduleOnly (src / 256))) = false := by
    rcases module_ with module_ | own
    · simp [group, event, module_]
    · simp [group, event, own]
  have unitOk : ((ctl.testBit 28 || bitField ctl 24 4 != 0) && !sourceIndexes src (bitField ctl 24 4)) = false := by
    rcases unit with ⟨unfiltered, noUnit⟩ | indexes
    · simp [unfiltered, noUnit]
    · simp [indexes]
  refine runCmd_ok h ?_
  dsimp only
  rw [word, source, known, unitOk]
  refine check_passed ?_ (need_met may ?_)
  · simp only [tail, zero, zeros, bit29, bit31, Bool.not_true, Bool.false_or, Bool.or_false, Bool.or_eq_false_iff,
      decide_eq_false_iff_not]
    omega
  · simp only [beq_iff_eq]
    rfl

theorem execCntSnap_ok (h : Runs 0xA11 c s u) (tail : cmdTail c 16 = true) (zero : cmdZ c 2 6 = true) (scope : cmdU c 0 1 ≤ 8)
    (clear : cmdU c 1 1 ≤ 1) (addr : addrOk (cmdU c 8 8) = true) (may : mayCount c (cmdU c 0 1) u = true)
    (mine : u.inAccount (cmdA c) (cmdU c 8 8) 320 = true) (writes : u.writes (cmdU c 8 8) 320 = true) :
    let v := countUnseen (cmdU c 0 1) u
    execCntSnap c s = .next (complete c 0xA11 .ok [] (latchClear (cmdU c 0 1) (cmdU c 1 1 == 1)
      (recordWritten (cmdU c 0 1) (v.give (cmdA c) (cmdU c 8 8) (cntRecord v (cmdU c 0 1) (cmdU c 1 1 == 1) 0))))) := by
  refine runCmd_ok h (check_passed ?_ (need_met may ((writeFor_ok (s := countUnseen (cmdU c 0 1) u) _ mine writes).trans rfl)))
  simp only [tail, zero, addr, Bool.not_true, Bool.false_or, Bool.or_false, Bool.or_eq_false_iff, decide_eq_false_iff_not]
  omega

section
variable (h : Runs 0xA12 c s u) (tail : cmdTail c 24 = true) (zero : cmdZ c 2 2 = true) (zeros : cmdZ c 20 4 = true)
  (scope : cmdU c 0 1 ≤ 8) (clear : cmdU c 1 1 ≤ 1) (addr : addrOk (cmdU c 8 8) = true) (may : mayCount c (cmdU c 0 1) u = true)
include h tail zero zeros scope clear addr may

theorem execCntSample_stop (period : cmdU c 4 4 = 0) : execCntSample c s = .next (complete c 0xA12 .ok []
    { u with chip := { u.chip with samplers := terase u.chip.samplers (cmdU c 0 1) } }) := by
  refine runCmd_ok h (check_passed ?_ (need_met may (if_pos (by simp [period]))))
  simp [tail, zero, zeros, scope, clear, addr, period]

omit scope in
theorem execCntSample_start (some_ : 0 < cmdU c 4 4) (most : cmdU c 4 4 ≤ 60000) (records : 0 < cmdU c 16 4)
    (few : cmdU c 16 4 ≤ 65536) (module_ : cmdU c 0 1 = 8)
    (mine : u.inAccount (cmdA c) (cmdU c 8 8) (320 * cmdU c 16 4) = true) :
    let x : Sampler := ⟨cmdA c, cmdU c 1 1 == 1, cmdU c 4 4, cmdU c 8 8, cmdU c 16 4, 0, true⟩
    execCntSample c s = .next (complete c 0xA12 .ok [] { u with chip := { u.chip with samplers := tset u.chip.samplers 8 x } }) := by
  refine runCmd_ok h (check_passed ?_ (need_met may (check_passed (by simpa using by omega) (need_met mine ?_))))
  · simp only [tail, zero, zeros, addr, Bool.not_true, Bool.false_or, Bool.or_false, Bool.or_eq_false_iff, decide_eq_false_iff_not,
      Bool.and_eq_false_iff, beq_eq_false_iff_ne]
    omega
  · dsimp only
    rw [module_]
    rfl

end

/-- Memory that is written mends, and no sampler changes. -/
theorem Chip.mend_samplers (m : Chip) (a n : Nat) : (m.mend a n).samplers = m.samplers := by
  fun_cases Chip.mend m a n <;> rfl

/-- A state whose samplers are those of a list with one put in its scope. -/
def setSampler (k : Nat) (x : Sampler) (l : Tbl Sampler) (s : State) : State :=
  { s with chip := { s.chip with samplers := tset l k x } }

/-- A sampler whose time comes in P0 writes the next record of its ring (R561). -/
theorem execSampleLatch_writes {k : BitVec 4} {x : Sampler} (running : tget s.chip.samplers k.toNat = some x)
    (awake : s.chip.power.pstate = 0) (writes : s.writes (x.base + x.next % x.nrec * 320) 320 = true)
    (mine : s.inAccount x.acct (x.base + x.next % x.nrec * 320) 320 = true) :
    let v := countUnseen k.toNat s
    let w := v.give x.acct (x.base + x.next % x.nrec * 320) (cntRecord v k.toNat x.clear x.next)
    execSampleLatch k s = .next (latchClear k.toNat x.clear (recordWritten k.toNat
      { w with chip := { w.chip with samplers := tset s.chip.samplers k.toNat { x with next := x.next + 1 } } })) := by
  simp only [State.writes, Bool.and_eq_true, Bool.not_eq_true'] at writes
  obtain ⟨⟨linked, alive⟩, whole⟩ := writes
  have samplers := (countUnseen k.toNat s).chip.mend_samplers (x.base + x.next % x.nrec * 320)
    (cntRecord (countUnseen k.toNat s) k.toNat x.clear x.next).length
  unfold execSampleLatch
  dsimp only
  rw [running]
  refine check_passed (by simp [awake]) (check_passed linked (check_passed (by simp [alive, whole, mine]) ?_))
  exact congrArg (fun l => Host.Outcome.next (latchClear k.toNat x.clear (recordWritten k.toNat
    (setSampler k.toNat { x with next := x.next + 1 } l ((countUnseen k.toNat s).give x.acct (x.base + x.next % x.nrec * 320)
      (cntRecord (countUnseen k.toNat s) k.toNat x.clear x.next)))))) samplers

/-- A sampler whose time comes in a low power state counts the sample in MISSED (R561). -/
theorem execSampleLatch_skips {k : BitVec 4} {x : Sampler} (running : tget s.chip.samplers k.toNat = some x)
    (low : s.chip.power.pstate ≠ 0) :
    execSampleLatch k s = .next { s with chip := { s.chip with
      missed := tset s.chip.missed k.toNat (tgetD s.chip.missed k.toNat 0 + 1),
      samplers := tset s.chip.samplers k.toNat { x with next := x.next + 1 } } } := by
  unfold execSampleLatch
  dsimp only
  rw [running]
  exact if_pos (by simpa using low)

theorem execCntCatalog_ok (h : Runs 0xA13 c s u) (tail : cmdTail c 16 = true) (zero : cmdZ c 1 7 = true) (group : cmdU c 0 1 < 12)
    (addr : addrOk (cmdU c 8 8) = true) (mine : u.inAccount (cmdA c) (cmdU c 8 8) (16 * groupEvents (cmdU c 0 1)) = true)
    (writes : u.writes (cmdU c 8 8) (16 * groupEvents (cmdU c 0 1)) = true) :
    execCntCatalog c s = .next (complete c 0xA13 .ok (leBytes 2 (groupEvents (cmdU c 0 1)))
      (u.give (cmdA c) (cmdU c 8 8)
        ((List.range (groupEvents (cmdU c 0 1))).flatMap fun i => catalogBytes (256 * cmdU c 0 1 + i)))) :=
  runCmd_ok h (check_passed (by simp [tail, zero, addr, group]) (writeFor_ok _ mine writes))

end

/-- Settles O14: each command passes its checks one after another. -/
theorem tallyAndCounterCommandsComplete : Obligations.TallyAndCounterCommandsComplete := by
  unfold Obligations.TallyAndCounterCommandsComplete
  refine ⟨?read, ?readAll, ?copy, ?set, ?snap, ?sample, ?latch, ?skip, ?catalog⟩
  case read => exact fun c s u runs tail => execTallyRead_ok runs tail
  case readAll =>
    exact fun c s u runs tail zero some_ within addr right mine writes =>
      execTallyReadAll_ok runs tail zero some_ within addr right mine writes
  case copy => exact fun s on => congrArg Host.Outcome.next (State.whenOn_on _ on)
  case set =>
    intro c s u runs tail zero zeros ctl src scope index clear bit29 bit31 group event module_ unit may
    exact execCntSet_ok runs tail zero zeros rfl rfl scope index clear bit29 bit31 group event module_ unit may
  case snap =>
    exact fun c s u runs tail zero scope clear addr may mine writes => execCntSnap_ok runs tail zero scope clear addr may mine writes
  case sample =>
    exact fun c s u runs tail zero zeros scope clear addr may =>
      ⟨execCntSample_stop runs tail zero zeros scope clear addr may, execCntSample_start runs tail zero zeros clear addr may⟩
  case latch => exact fun k s x running awake writes mine => execSampleLatch_writes running awake writes mine
  case skip => exact fun k s x running low => execSampleLatch_skips running low
  case catalog => exact fun c s u runs tail zero group addr mine writes => execCntCatalog_ok runs tail zero group addr mine writes

end Sys2Proof.Machine
end

section
/-!
PROOFS. PWR_RESET WARM and withdrawn units (O48).
-/
namespace Sys2Proof.Machine

/-! ## A WARM reset and withdrawn units (R355, R528) -/

/-- A unit of HBM of account 0. -/
def failedUnit : Grant := ⟨0, 0, 0, 0⟩

/-- A module in P0 whose account 0 holds the module's right and one unit of HBM, which a failure has marked for withdrawal. -/
def unitMarked : State :=
  { State.reset with
    mail := { Mail.reset with funcs := [{ Func.reset with ready := true, abi := 3 }] }
    ten := { Tenancy.cold with accts := [{ Account.fresh with state := .enabled }], modRight := some 0, grants := [failedUnit] }
    chip := { Chip.cold with
      dieMem := lmod Chip.cold.dieMem 0 (DieMem.withdraw failedUnit)
      power := { Power.cold with resetting := none, mailboxReady := true }
      fw := { Firmware.delivered with lifecycle := .owned } } }

/-- PWR_RESET WARM. -/
def resetWarm : Cmd :=
  ⟨0, 0, 5, 3, false, BitVec.ofNatLT 1 (Nat.one_lt_two_pow (n := 384) (by decide))⟩

theorem resetWarm_runs : Runs 0x804 resetWarm unitMarked (dropTaken resetWarm unitMarked) := by
  refine ⟨rfl, ?_⟩
  decide

theorem resetWarm_legal : cmdTail resetWarm 2 = true ∧ cmdU resetWarm 0 1 = 1 ∧ cmdU resetWarm 1 1 = 0 := by decide

/-- A WARM reset takes the units that are marked for withdrawal from their accounts (R355). -/
theorem resetWarm_withdraws : (resetModule .warm (dropTaken resetWarm unitMarked)).ten.grants = [] := by decide +kernel

/-- Refutes O48: a reset that wipes a unit marked for withdrawal takes it from its account (R355). Account 0 holds such a unit before
a WARM reset and not after it; the statement has every grant stand. -/
theorem not_powerCommandsComplete : ¬ Obligations.PowerCommandsComplete := by
  unfold Obligations.PowerCommandsComplete
  rintro ⟨-, -, -, -, reset, -⟩
  obtain ⟨tail, warm, zero⟩ := resetWarm_legal
  obtain ⟨-, onWarm, -⟩ := reset _ _ _ resetWarm_runs rfl tail (by rw [zero]; decide)
  obtain ⟨_, -, rfl, -, -, -, -, -, grants, -⟩ := onWarm warm zero rfl
  have kept : [] = [failedUnit] := resetWarm_withdraws.symm.trans grants
  exact absurd kept (by decide)

end Sys2Proof.Machine
end

section
/-!
PROOFS. Firmware and life-cycle commands (O49).
-/
namespace Sys2Proof.Machine

/-! ## What messages and darkness leave of the firmware, module time and the Beacon -/

/-- The firmware's record and module time are as before. -/
structure SameFirmware (s t : State) : Prop where
  fw : t.chip.fw = s.chip.fw
  mtime : t.mtime = s.mtime

section
variable {s t u : State}

theorem SameFirmware.refl (s : State) : SameFirmware s s := ⟨rfl, rfl⟩

theorem SameFirmware.trans (h : SameFirmware s t) (g : SameFirmware t u) : SameFirmware s u :=
  ⟨g.fw.trans h.fw, g.mtime.trans h.mtime⟩

theorem SameFirmware.foldl {α : Type} {f : State → α → State} (h : ∀ s x, SameFirmware s (f s x)) (l : List α) (s : State) :
    SameFirmware s (l.foldl f s) := List.foldlRecOn l f (.refl s) fun _ hs x _ => hs.trans (h _ x)

theorem OnlyMail.sameFirmware (h : OnlyMail s t) : SameFirmware s t := by
  obtain ⟨_, _, rfl⟩ := h
  exact ⟨rfl, rfl⟩

theorem OnlyFrames.sameFirmware (h : OnlyFrames s t) : SameFirmware s t := by
  obtain ⟨_, _, rfl⟩ := h
  exact ⟨rfl, rfl⟩

end

theorem launch_sameFirmware (w : Waiter) (s : State) : SameFirmware s (launch w s) := by
  unfold launch
  split <;> exact ⟨rfl, rfl⟩

theorem sendParts_sameFirmware (j : JobSlot) (kind : Nat) (data : Bytes) (s : State) : SameFirmware s (sendParts j kind data s) :=
  .foldl (fun _ _ => launch_sameFirmware ..) _ s

theorem coordinatorFails_sameFirmware (p : Nat) (s : State) : SameFirmware s (coordinatorFails p s) := by
  have decided (d : Decision) (s : State) : SameFirmware s (decideWith (fun _ s => s) d s) := by
    have noted : SameFirmware s (recordDecision d s) := ⟨rfl, rfl⟩
    unfold decideWith
    dsimp only
    split
    · exact noted.trans (sendParts_sameFirmware ..)
    · exact noted
  fun_cases coordinatorFails p s
  case case3 => exact decided _ s
  all_goals exact .refl s

theorem loseDeposits_sameFirmware (p : Deposit → Bool) (s : State) : SameFirmware s (loseDeposits p s) := by
  unfold loseDeposits
  have told : ∀ l : List Deposit, SameFirmware s (l.foldl (fun s d => match depositJob s d with
      | some j => sendPart none j d.src 7 (leBytes 2 d.model ++ leBytes 1 d.die) s
      | none => s) s) := fun l => .foldl (fun s d => by
    split
    · exact launch_sameFirmware ..
    · exact .refl s) l s
  exact ⟨(told _).fw, (told _).mtime⟩

theorem announceReset_sameFirmware (s : State) : SameFirmware s (announceReset s) :=
  .trans (.foldl (fun s p => coordinatorFails_sameFirmware p s) _ s) (loseDeposits_sameFirmware ..)

theorem finishAll_onlyMail (fn : Nat) (st : Status) (s : State) : OnlyMail s (finishAll fn st s) := by
  refine OnlyMail.trans (t := _) ?_ (.foldl (fun _ _ => complete_onlyMail ..) _ _)
  exact ⟨_, _, rfl⟩

theorem healthResetting_sameFirmware (ms : Nat) (s : State) : SameFirmware s (healthResetting ms s) :=
  .trans (t := s.onBeacon _) ⟨rfl, rfl⟩ (sendHealth_onlyFrames _).sameFirmware

theorem darken_beacon (p cause : Nat) (s : State) : (darken p cause s).chip.beacon = s.chip.beacon := by
  have unrouted (s : State) : (unroute p s).chip.beacon = s.chip.beacon := by
    unfold unroute
    dsimp only
    split
    · rfl
    · unfold resendSegments
      split <;> rfl
  have down (n : Nat) (s : State) : (hostDown n s).chip.beacon = s.chip.beacon := by
    unfold hostDown
    split <;> rfl
  fun_cases darken p cause s
  · rfl
  · rfl
  · exact unrouted _
  · exact down _ _

theorem darkenGroup_mstate (g : Nat) (s : State) : (darkenGroup g s).chip.beacon.mstate = s.chip.beacon.mstate := by
  have dark : ∀ (ps : List Nat) (s : State), (ps.foldl (fun s p => darken p 4 s) s).chip.beacon = s.chip.beacon := fun ps s =>
    List.foldlRecOn ps _ (motive := fun t : State => t.chip.beacon = s.chip.beacon) rfl fun _ h p _ => (darken_beacon p 4 _).trans h
  refine (sendHealth_mstate _).trans ?_
  rw [dark]
  rfl

/-! ## Firmware commands (R537 to R546) -/

/-- The start of a type leaves the types that an activation has still to do and those that it has done, and what HEALTH frames say. -/
theorem beginType_begins {s : State} {x : Activation} (running : s.chip.fw.activation = some x) :
    (beginType s).chip.beacon.mstate = s.chip.beacon.mstate ∧
      ∃ y, (beginType s).chip.fw.activation = some y ∧ y.left = x.left ∧ y.done = x.done := by
  have noted (f : Activation → Activation) (keeps : ∀ a, (f a).left = a.left ∧ (f a).done = a.done) :
      ∃ y, (s.onActivation f).chip.fw.activation = some y ∧ y.left = x.left ∧ y.done = x.done :=
    ⟨f x, congrArg (Option.map f) running, keeps x⟩
  unfold beginType
  rw [running]
  dsimp only
  split
  · refine ⟨darkenGroup_mstate .., ?_⟩
    rw [(darkenGroup_sameCore _ _).fw]
    exact noted _ fun _ => ⟨rfl, rfl⟩
  · split
    · exact ⟨rfl, noted _ fun _ => ⟨rfl, rfl⟩⟩
    · exact ⟨rfl, noted _ fun _ => ⟨rfl, rfl⟩⟩

/-- A command that fails a check completes with the check's status and changes nothing. -/
theorem runCmd_refused {op : Nat} {c : Cmd} {s u : State} {body : State → Res} {st : Status} (h : Runs op c s u)
    (refused : body u = fail st u) : runCmd op c s body = .next (complete c op st [] u) := by
  rw [runCmd_done h refused, ite_self]

section
variable {c : Cmd} {s u : State}

section
variable (h : Runs 0x901 c s u) (tail : cmdTail c 12 = true) (addr : addrOk (cmdU c 0 8) = true) (len : 320 ≤ cmdU c 8 4)
  (right : u.hasModRight (cmdA c) = true) (host : inHostSpace (cmdA c) (cmdU c 0 8) (cmdU c 8 4) = true)
  (reads : u.reads (cmdU c 0 8) (cmdU c 8 4) = true) {hd : Bytes} (header : u.read (cmdU c 0 8) 256 = hd)
  (legal : headerOk hd (cmdU c 8 4) = true)
include h tail addr len right host reads header legal

theorem execFwWrite_locked (locked : u.chip.fw.lock = true) : execFwWrite c s = .next (complete c 0x901 .denied [] u) := by
  simp only [State.reads, Bool.and_eq_true, Bool.not_eq_true'] at reads
  refine runCmd_refused h ?_
  dsimp only
  rw [header]
  exact check_passed (by simp [tail, addr, len]) (need_met right (need_met host (check_passed reads.1
    (check_passed (by simp [legal]) (if_pos locked)))))

theorem execFwWrite_ok (unlocked : u.chip.fw.lock = false) (idle : u.chip.fw.busy = false) (calm : u.unsettled = false)
    (digest : Config.sha384 (u.read (cmdU c 0 8 + 256) (cmdU c 8 4 - 256)) = (hd.drop 0x10).take 48)
    (signed : Config.sigVerifies Config.vendorKey (hd.take 128) ((hd.drop 0x80).take 96) = true)
    (floor : u.chip.fw.floor ≤ fieldAt hd 8 2) :
    execFwWrite c s = .next (complete c 0x901 .ok
      (leBytes 1 (fieldAt hd 2 1) ++ [0] ++ leBytes 2 (fieldAt hd 8 2) ++ leBytes 4 (fieldAt hd 4 4))
      (u.onFwType (fieldAt hd 2 1 - 1) (FwType.store · ⟨hd, u.read (cmdU c 0 8 + 256) (cmdU c 8 4 - 256),
        BitVec.ofNat 32 (fieldAt hd 4 4), fieldAt hd 8 2⟩))) := by
  simp only [State.reads, Bool.and_eq_true, Bool.not_eq_true'] at reads
  obtain ⟨linked, whole⟩ := reads
  refine runCmd_ok h ?_
  dsimp only
  rw [header, digest]
  exact check_passed (by simp [tail, addr, len]) (need_met right (need_met host (check_passed linked
    (check_passed (by simp [legal]) (check_passed unlocked (check_passed idle (check_passed calm
    (check_passed (by simp [whole]) (need_met signed (check_passed (by simpa using floor) rfl))))))))))

end

/-- FW_ACTIVATE of legal types by a holder of the module's right comes to the lock (R541, R542). -/
theorem execFwActivate_locked (h : Runs 0x902 c s u) (tail : cmdTail c 1 = true) (some_ : 1 ≤ cmdU c 0 1) (few : cmdU c 0 1 < 8)
    (right : u.hasModRight (cmdA c) = true) (locked : u.chip.fw.lock = true) :
    execFwActivate c s = .next (complete c 0x902 .denied [] u) :=
  runCmd_refused h (check_passed (by simp [tail, few]; omega) (need_met right (if_pos locked)))

theorem execFwActivate_begins (h : Runs 0x902 c s u) (tail : cmdTail c 1 = true) (some_ : 1 ≤ cmdU c 0 1) (few : cmdU c 0 1 < 8)
    (right : u.hasModRight (cmdA c) = true) (unlocked : u.chip.fw.lock = false) (idle : u.chip.fw.busy = false)
    (calm : u.unsettled = false) {left : List Nat}
    (stale : ([1, 2, 0].filter fun t => (cmdU c 0 1).testBit t && (u.fwType t).cur != some (u.fwType t).run) = left)
    (work : left ≠ []) :
    ∃ v, execFwActivate c s = .next (waitsFor c 0x902 .activate v) ∧ v.chip.beacon.mstate = .maintenance ∧
      ∃ x, v.chip.fw.activation = some x ∧ x.left = left ∧ x.done = [] := by
  have told := sendHealth_onlyFrames ((u.onFw fun f => { f with activation := some ⟨left, [], opticsOrder (cmdA c), [], Image.none⟩ }).onBeacon
    fun b => { b with mstate := .maintenance })
  have running := congrArg Firmware.activation told.sameFirmware.fw
  obtain ⟨mstate, x, begun, todo, done⟩ := beginType_begins running
  refine ⟨_, runCmd_wait h ?_, mstate.trans (sendHealth_mstate _), x, begun, todo, done⟩
  dsimp only
  rw [stale]
  exact check_passed (by simp [tail, few]; omega) (need_met right (check_passed unlocked (check_passed idle (check_passed calm
    (check_passed (by simpa using work) rfl)))))

theorem execFwQuery_ok (h : Runs 0x903 c s u) (tail : cmdTail c 0 = true) :
    execFwQuery c s = .next (complete c 0x903 .ok (fwRecord u) u) :=
  runCmd_ok h (check_passed (by simp [tail]) rfl)

section
variable (h : Runs 0x904 c s u) (tail : cmdTail c 2 = true) (some_ : 1 ≤ cmdU c 0 2) (most : cmdU c 0 2 ≤ 64)
  (right : u.hasModRight (cmdA c) = true)
include h tail some_ most right

theorem execFwFloorRaise_locked (locked : u.chip.fw.lock = true) :
    execFwFloorRaise c s = .next (complete c 0x904 .denied [] u) :=
  runCmd_refused h (check_passed (by simp [tail, most]; omega) (need_met right (if_pos locked)))

theorem execFwFloorRaise_below (unlocked : u.chip.fw.lock = false) (below : cmdU c 0 2 ≤ u.chip.fw.floor) :
    execFwFloorRaise c s = .next (complete c 0x904 .alreadyDone [] u) :=
  runCmd_refused h (check_passed (by simp [tail, most]; omega) (need_met right (check_passed unlocked (if_pos (by simpa using below)))))

theorem execFwFloorRaise_ok (unlocked : u.chip.fw.lock = false) (above : u.chip.fw.floor < cmdU c 0 2)
    (images : ∀ t ∈ u.chip.fw.types, cmdU c 0 2 ≤ t.run.svn ∧ ∀ i, t.cur = some i → cmdU c 0 2 ≤ i.svn) :
    execFwFloorRaise c s = .next (complete c 0x904 .ok (leBytes 2 (cmdU c 0 2)) (u.onFw fun f => { f with floor := cmdU c 0 2 })) := by
  refine runCmd_ok h (check_passed (by simp [tail, most]; omega) (need_met right (check_passed unlocked
    (check_passed (by simpa using above) (check_passed (List.any_eq_false.2 fun t mem => ?_) rfl)))))
  obtain ⟨run, current⟩ := images t mem
  cases copy : t.cur with
  | none => simp [run]
  | some i => simp [run, current i copy]

end

section
variable (h : Runs 0x905 c s u) (tail : cmdTail c 0 = true) (right : u.hasModRight (cmdA c) = true)
include h tail right

theorem execFwLock_unowned (life : u.chip.fw.lifecycle ≠ .owned) : execFwLock c s = .next (complete c 0x905 .refusedState [] u) :=
  runCmd_refused h (check_passed (by simp [tail]) (need_met right (if_pos (by simpa using life))))

theorem execFwLock_locked (life : u.chip.fw.lifecycle = .owned) (locked : u.chip.fw.lock = true) :
    execFwLock c s = .next (complete c 0x905 .alreadyDone [] u) :=
  runCmd_refused h (check_passed (by simp [tail]) (need_met right (check_passed (by simp [life]) (if_pos locked))))

theorem execFwLock_ok (life : u.chip.fw.lifecycle = .owned) (unlocked : u.chip.fw.lock = false) :
    execFwLock c s = .next (complete c 0x905 .ok [] (u.onFw fun f => { f with lock := true })) :=
  runCmd_ok h (check_passed (by simp [tail]) (need_met right (check_passed (by simp [life]) (check_passed unlocked rfl))))

end

/-! ## The life cycle (R548 to R551) -/

theorem execLcNonce_ok (h : Runs 0x906 c s u) (tail : cmdTail c 0 = true) :
    execLcNonce c s = .next (complete c 0x906 .ok (leBytes 8 (Config.nonce u.freeCtr).toNat)
      ({ u with freeCtr := u.freeCtr + 1 }.onFw fun f => { f with nonce := some (Config.nonce u.freeCtr) })) :=
  runCmd_ok h (check_passed (by simp [tail]) rfl)

/-- The firmware starts anew after the wipe of the Strongbox. -/
theorem erased_fw (s : State) :
    (coldState (eraseStrongbox s)).chip.fw = Firmware.start { s.chip.fw with lock := false, nonce := none } := rfl

theorem erased_mtime (s : State) : (coldState (eraseStrongbox s)).mtime = s.mtime := rfl

/-- A change of life-cycle state fuses the new state, clears the lock and the nonce, and keeps the floor and module time; a CLAIM spends
one of the claims. -/
theorem changeLife_firmware (act : Nat) (to_ : LifeCycle) (key : Bytes) (s : State) :
    (changeLife act to_ key s).chip.fw.lifecycle = to_ ∧ (changeLife act to_ key s).chip.fw.lock = false ∧
      (changeLife act to_ key s).chip.fw.nonce = none ∧
      (changeLife act to_ key s).chip.fw.claims = (if act == 2 then s.chip.fw.claims - 1 else s.chip.fw.claims) ∧
      (changeLife act to_ key s).chip.fw.floor = s.chip.fw.floor ∧ (changeLife act to_ key s).mtime = s.mtime := by
  have stopped (l : List Nat) (s : State) : SameFirmware s (l.foldl (fun s fn => finishAll fn .functionDisabled s) s) :=
    .foldl (fun _ _ => (finishAll_onlyMail ..).sameFirmware) l s
  have dark (s : State) : SameFirmware s (darkenForReset s) := ⟨(darkenForReset_keeps s).1, (darkenForReset_keeps s).2.1⟩
  unfold changeLife
  dsimp only
  generalize (List.range 1024).filter _ = busy
  have before : SameFirmware s (healthResetting 0xFFFF (darkenForReset
      (busy.foldl (fun s fn => finishAll fn .functionDisabled s) (announceReset s)))) :=
    ((announceReset_sameFirmware s).trans (stopped busy _)).trans ((dark _).trans (healthResetting_sameFirmware 0xFFFF _))
  generalize healthResetting _ _ = t at before ⊢
  rw [erased_fw, ← before.fw]
  exact ⟨rfl, rfl, rfl, rfl, rfl, (erased_mtime _).trans before.mtime⟩

/-- What a change of life-cycle state takes away (R550, R551). -/
theorem changeLife_wipes (act : Nat) (to_ : LifeCycle) (key : Bytes) (s : State) :
    (changeLife act to_ key s).ten.grants = [] ∧ (changeLife act to_ key s).ten.modRight = none ∧
      (changeLife act to_ key s).chip.fabric.addr = none ∧ (changeLife act to_ key s).ft.ckpts = [] ∧
      (changeLife act to_ key s).mail = Mail.reset ∧ (changeLife act to_ key s).ten.gaps = 0 := by
  unfold changeLife
  dsimp only
  generalize healthResetting _ _ = t
  exact ⟨rfl, rfl, rfl, rfl, rfl, rfl⟩

/-- LC_CHANGE with a token that verifies comes to its action (R548, R549). -/
theorem execLcChange_verified {a : Nat} {t : Bytes} {to_ : LifeCycle} {key : Bytes} (tail : cmdTail c 8 = true)
    (at_ : cmdU c 0 8 = a) (addr : addrOk a = true) (host : inHostSpace (cmdA c) a 256 = true) (reads : u.reads a 256 = true)
    (token : u.read a 256 = t) (form : tokenOk t = true)
    (leads : transition (fieldAt t 2 1) u.chip.fw.lifecycle t u.chip.fw.ownerKey = some (to_, key))
    (serial : fieldAt t 8 8 = Config.serial.toNat) (nonce : u.chip.fw.nonce = some (BitVec.ofNat 64 (fieldAt t 0x10 8)))
    (signed : Config.sigVerifies key (t.take 128) ((t.drop 0x80).take 96) = true)
    (claims : fieldAt t 2 1 = 2 → u.chip.fw.claims ≠ 0) (idle : u.chip.fw.busy = false) (still : u.moving = false) :
    ∃ body, execLcChange c s = runCmd 0x907 c s body ∧
      body u = if fieldAt t 2 1 == 5 then fail .ok (u.onFw fun f => { f with lock := false, nonce := none })
        else .gone (changeLife (fieldAt t 2 1) to_ key u) := by
  refine ⟨_, rfl, ?_⟩
  dsimp only
  rw [at_, token, leads]
  refine check_passed (by simp [tail, addr]) (need_met host ((readHeld_ok _ _ reads).trans (need_met form ?_)))
  refine check_passed (by simp [serial, nonce, signed]) (check_passed ?_ (check_passed idle (check_passed still rfl)))
  by_cases claim : fieldAt t 2 1 = 2
  · simp [claims claim]
  · simp [claim]

end

/-- Settles O49: each command passes its checks one after another. -/
theorem firmwareAndLifeCycleCommandsComplete : Obligations.FirmwareAndLifeCycleCommandsComplete := by
  unfold Obligations.FirmwareAndLifeCycleCommandsComplete
  refine ⟨?write, ?activate, ?query, ?floor, ?lock, ?nonce, ?change⟩
  case write =>
    intro c s u runs tail addr len right host reads hd legal
    exact ⟨execFwWrite_locked runs tail addr len right host reads rfl legal,
      execFwWrite_ok runs tail addr len right host reads rfl legal⟩
  case activate =>
    intro c s u runs tail some_ few right left
    exact ⟨execFwActivate_locked runs tail some_ few right, fun unlocked idle calm work =>
      execFwActivate_begins runs tail some_ few right unlocked idle calm rfl work⟩
  case query => exact fun c s u runs tail => execFwQuery_ok runs tail
  case floor =>
    exact fun c s u runs tail some_ most right => ⟨execFwFloorRaise_locked runs tail some_ most right,
      execFwFloorRaise_below runs tail some_ most right, execFwFloorRaise_ok runs tail some_ most right⟩
  case lock =>
    exact fun c s u runs tail right =>
      ⟨execFwLock_unowned runs tail right, execFwLock_locked runs tail right, execFwLock_ok runs tail right⟩
  case nonce => exact fun c s u runs tail => execLcNonce_ok runs tail
  case change =>
    intro c s u to_ key runs tail addr host reads t form leads serial nonce signed claims idle still
    obtain ⟨body, run, answer⟩ :=
      execLcChange_verified (s := s) tail rfl addr host reads rfl form leads serial nonce signed claims idle still
    refine ⟨fun unlock => ?_, fun change => ?_⟩
    · refine run.trans (runCmd_ok runs (answer.trans (if_pos ?_)))
      simpa using unlock
    · obtain ⟨life, lock, noNonce, spent, floor, mtime⟩ := changeLife_firmware (fieldAt t 2 1) to_ key u
      obtain ⟨grants, right, address, ckpts, mail, gaps⟩ := changeLife_wipes (fieldAt t 2 1) to_ key u
      refine ⟨_, run.trans (runCmd_gone runs (answer.trans (if_neg ?_))), life, lock, noNonce, spent.trans ?_, grants, right, address,
        ckpts, mail, floor, mtime, gaps⟩
      · simpa using change
      · by_cases claim : fieldAt t 2 1 = 2 <;> simp [claim]

end Sys2Proof.Machine
end

section
/-!
PROOFS. The risk estimate and HEALTH frames (O43).
-/
namespace Sys2Proof.Machine

/-! ## The components of the risk (R429, R430) -/

theorem ramp_le {a b c : Int} (low : a < b) (high : b < c) (x : Int) : ramp a b c x ≤ 255 := by
  have part {k n d : Int} (some_ : 0 < d) (within : n ≤ d) (pos : 0 ≤ k) : k * n / d ≤ k :=
    Int.ediv_le_of_le_mul some_ (Int.mul_le_mul_of_nonneg_left within pos)
  unfold ramp
  split
  · omega
  split
  · have slope := part (k := 128) (n := x - a) (d := b - a) (by omega) (by omega) (by omega)
    omega
  split
  · have slope := part (k := 127) (n := x - b) (d := c - b) (by omega) (by omega) (by omega)
    omega
  · omega

/-- RISK, as R430 has it, of five components. -/
def riskLevel (c th o l d : Nat) : Nat :=
  min 255 (max c (max th (max o (max l d))) + (c + th + o + l + d - max c (max th (max o (max l d)))) / 4)

theorem maxNat_five (c th o l d : Nat) : maxNat [c, th, o, l, d] = max c (max th (max o (max l d))) := by
  show max (max (max (max (max 0 c) th) o) l) d = _
  rw [Nat.zero_max, max_assoc, max_assoc, max_assoc]

theorem riskOf_eq (r : RiskIn) (s : State) : ∃ c th o l d, riskOf r s = [c, th, o, l, d, riskLevel c th o l d] ∧
    max c (max th (max o (max l d))) ≤ 255 := by
  have lasers : (if (s.recent 86400000000000 s.ft.laserDark.toList).isEmpty then (match r.laser with
      | some m => ramp (-43200) (-10080) (-1440) (-(m : Int))
      | none => 0) else 255) ≤ 255 := by
    split
    · split
      · exact ramp_le (by omega) (by omega) _
      · omega
    · exact le_rfl
  unfold riskOf
  dsimp only
  generalize hc : min 255 _ = c
  generalize (if (s.recent 86400000000000 s.ft.laserDark.toList).isEmpty then (match r.laser with
      | some m => ramp (-43200) (-10080) (-1440) (-(m : Int))
      | none => 0) else 255) = o at lasers ⊢
  have margin := ramp_le (a := -1500) (b := -500) (c := 0) (by omega) (by omega) (-r.margin)
  have links := ramp_le (a := 0) (b := 4) (c := 16) (by omega) (by omega) s.ft.retrains.length
  have droops := ramp_le (a := 0) (b := 2) (c := 8) (by omega) (by omega) (s.recent 60000000000 s.chip.power.droops).length
  refine ⟨c, _, o, _, _, ?_, max_le ?_ (max_le margin (max_le lasers (max_le links droops)))⟩
  · rw [maxNat_five]
    simp only [List.sum_cons, List.sum_nil, List.cons_append, List.nil_append, Nat.add_zero, riskLevel, Nat.add_assoc]
  · omega

/-! ## What the health monitor and the thresholds leave alone (R351, R431) -/

/-- Memory, packages, cores and the record of fault tolerance but for what is counted are as before. -/
structure OnlyWatched (s t : State) : Prop where
  mem : t.mem = s.mem
  pkgs : t.pkgs = s.pkgs
  cores : t.cores = s.cores

section
variable {s t u : State}

theorem OnlyWatched.refl (s : State) : OnlyWatched s s := ⟨rfl, rfl, rfl⟩

theorem OnlyWatched.trans (h : OnlyWatched s t) (g : OnlyWatched t u) : OnlyWatched s u :=
  ⟨g.mem.trans h.mem, g.pkgs.trans h.pkgs, g.cores.trans h.cores⟩

theorem OnlyWatched.foldl {α : Type} {f : State → α → State} (h : ∀ s x, OnlyWatched s (f s x)) (l : List α) (s : State) :
    OnlyWatched s (l.foldl f s) := List.foldlRecOn l f (.refl s) fun _ hs x _ => hs.trans (h _ x)

theorem OnlyMail.onlyWatched (h : OnlyMail s t) : OnlyWatched s t := by
  obtain ⟨_, _, rfl⟩ := h
  exact ⟨rfl, rfl, rfl⟩

end

theorem strike_onlyWatched (s : State) (k : Nat) : OnlyWatched s (strike s k) := by
  unfold strike
  split <;> exact ⟨rfl, rfl, rfl⟩

theorem ledgerSeen_onlyWatched (s : State) (x : BitVec 2 × Bool) : OnlyWatched s (ledgerSeen s x) := by
  unfold ledgerSeen
  dsimp only
  split <;> exact ⟨rfl, rfl, rfl⟩

theorem fecSeen_onlyWatched (s : State) (x : BitVec 7 × Nat) : OnlyWatched s (fecSeen s x) := by
  unfold fecSeen
  split <;> exact ⟨rfl, rfl, rfl⟩

/-- Where no link has failed a flit, what the monitor finds is only noted. -/
theorem healthSeen_onlyWatched {r : RiskIn} (noLink : r.links = []) (s : State) : OnlyWatched s (healthSeen r s) := by
  have ecc : OnlyWatched s (r.ecc.foldl eccSeen s) :=
    .foldl (f := eccSeen) (fun _ _ => ⟨rfl, rfl, rfl⟩) _ _
  have struck := ecc.trans (.foldl strike_onlyWatched r.struck _)
  have ckpts := struck.trans (.foldl (f := ckptStruck) (fun _ _ => ⟨rfl, rfl, rfl⟩) r.ckpts _)
  have ports := (ckpts.trans (.foldl ledgerSeen_onlyWatched r.ledgers _)).trans (.foldl fecSeen_onlyWatched r.fec _)
  have seen := ports.trans (.foldl (f := replaysSeen) (fun _ _ => ⟨rfl, rfl, rfl⟩) r.replays _)
  unfold healthSeen
  rw [noLink]
  exact ⟨seen.mem, seen.pkgs, seen.cores⟩

theorem wantSecuring_keeps (a : Nat) (s : State) : OnlyWatched s (wantSecuring a s) ∧ (wantSecuring a s).ft = s.ft :=
  ⟨⟨rfl, rfl, rfl⟩, rfl⟩

theorem OnlyMail.ft {s t : State} (h : OnlyMail s t) : t.ft = s.ft := by
  obtain ⟨_, _, rfl⟩ := h
  rfl

/-- An account whose threshold meets the risk hears of it, and its models want securing. -/
theorem riskAccount_keeps (xs : List Nat) (s : State) (a : Nat) :
    OnlyWatched s (riskAccount xs s a) ∧ (riskAccount xs s a).ft = s.ft := by
  unfold riskAccount
  dsimp only
  split
  · have told := post_onlyMail a 5 .ok (leBytes 1 (xs.getD 5 0) ++ leBytes 1 (s.acct a).thresh ++ (xs.take 5).flatMap fun v => leBytes 1 v)
      (s.onAcct a fun y => { y with armed := false, belowSince := none })
    have disarmed : OnlyWatched s (s.onAcct a fun y => { y with armed := false, belowSince := none }) := ⟨rfl, rfl, rfl⟩
    exact ⟨(disarmed.trans told.onlyWatched).trans (wantSecuring_keeps a _).1, told.ft⟩
  · repeat' split
    all_goals exact ⟨⟨rfl, rfl, rfl⟩, rfl⟩

theorem riskAccounts_keep (xs : List Nat) (l : List Nat) (s : State) :
    OnlyWatched s (l.foldl (riskAccount xs) s) ∧ (l.foldl (riskAccount xs) s).ft = s.ft :=
  List.foldlRecOn l _ (motive := fun t => OnlyWatched s t ∧ t.ft = s.ft) ⟨.refl s, rfl⟩ fun t ⟨watched, ft⟩ a _ =>
    ⟨watched.trans (riskAccount_keeps xs t a).1, (riskAccount_keeps xs t a).2.trans ft⟩

/-- A RISK_UPDATE with the domains on leaves the risk of what the monitor has found. -/
theorem execRiskUpdate_leaves {s : State} (on : s.off = false) (r : RiskIn) :
    ∃ t, execRiskUpdate r s = .next t ∧ t.ft.risk = riskOf r (loseOut (healthSeen r s)) ∧ OnlyWatched (loseOut (healthSeen r s)) t := by
  refine ⟨_, congrArg Host.Outcome.next (State.whenOn_on _ on), ?_⟩
  generalize loseOut (healthSeen r s) = w
  obtain ⟨watched, ft⟩ := riskAccounts_keep (riskOf r w) w.enabledAll { w with ft := { w.ft with risk := riskOf r w } }
  exact ⟨by rw [ft], watched.mem, watched.pkgs, watched.cores⟩

/-! ## HEALTH frames (R394, R430) -/

theorem length_sealFrame (bs : Bytes) : (sealFrame bs).length = 64 := by
  simp [sealFrame, padTo, length_leBytes]
  omega

/-- Two states of which the second has sent more. -/
def SentMore (s t : State) : Prop := ∃ more, t.out = s.out ++ more

theorem SentMore.refl (s : State) : SentMore s s := ⟨[], (List.append_nil _).symm⟩

theorem SentMore.trans {s t u : State} (h : SentMore s t) (g : SentMore t u) : SentMore s u := by
  obtain ⟨more, sent⟩ := h
  obtain ⟨still, then_⟩ := g
  exact ⟨more ++ still, by rw [then_, sent, List.append_assoc]⟩

theorem SentMore.foldl {α : Type} {f : State → α → State} (h : ∀ s x, SentMore s (f s x)) (l : List α) (s : State) :
    SentMore s (l.foldl f s) := List.foldlRecOn l f (.refl s) fun _ hs x _ => hs.trans (h _ x)

theorem launch_sentMore (w : Waiter) (s : State) : SentMore s (launch w s) := by
  unfold launch
  split
  · exact ⟨_, rfl⟩
  · exact ⟨[], (List.append_nil _).symm⟩

theorem repeatBarriers_sentMore (s : State) : SentMore s (repeatBarriers s) := by
  refine .foldl (fun s b => ?_) _ s
  fun_cases repeatBarrier b s
  case case3 => exact .foldl (fun _ _ => launch_sentMore ..) _ s
  case case5 => exact .foldl (fun _ _ => launch_sentMore ..) _ s
  all_goals exact .refl s

/-- A HEALTH frame of a module with an address carries RISK in its byte 14. -/
theorem sendHealth_risk {s : State} {a : Nat} (addr : s.chip.fabric.addr = some a) (most : s.ft.risk.getD 5 0 ≤ 255) :
    ∃ fr, (sendHealth s).out = s.out ++ [.beacon fr] ∧ fr.length = 64 ∧ fieldAt fr 14 1 = s.ft.risk.getD 5 0 := by
  unfold sendHealth sendHealthAs sendFrame
  rw [addr]
  refine ⟨_, rfl, length_sealFrame _, ?_⟩
  have byte : (BitVec.ofNat 8 (s.ft.risk.getD 5 0)).toNat = s.ft.risk.getD 5 0 := by
    rw [BitVec.toNat_ofNat]
    omega
  exact byte

theorem execFtRiskQuery_ok {c : Cmd} {s u : State} (h : Runs 0x701 c s u) (tail : cmdTail c 0 = true) {x0 x1 x2 x3 x4 risk : Nat}
    (held : u.ft.risk = [x0, x1, x2, x3, x4, risk]) :
    execFtRiskQuery c s = .next (complete c 0x701 .ok (leBytes 1 risk ++ leBytes 1 x0 ++ leBytes 1 x1 ++ leBytes 1 x2 ++
      leBytes 1 x3 ++ leBytes 1 x4 ++ leBytes 1 (u.acct (cmdA c)).thresh ++ [if (u.acct (cmdA c)).armed then 1 else 0]) u) := by
  refine runCmd_ok h (check_passed (by simp [tail]) ?_)
  dsimp only
  rw [held]
  rfl

/-- Settles O43: the components are at most 255 each, and the risk is what R430 makes of them. -/
theorem riskEstimate : Obligations.RiskEstimate := by
  unfold Obligations.RiskEstimate
  refine ⟨fun r s on => ?_, ?_, fun s a addr present most => ?_⟩
  · obtain ⟨t, ran, risk, watched⟩ := execRiskUpdate_leaves on r
    obtain ⟨c, th, o, l, d, components, most⟩ := riskOf_eq r (loseOut (healthSeen r s))
    refine ⟨t, c, th, o, l, d, ran, ⟨risk.trans components, most⟩, risk, fun noLink stands => ?_⟩
    rw [stands] at watched
    obtain ⟨mem, pkgs, cores⟩ := (healthSeen_onlyWatched noLink s).trans watched
    exact ⟨mem, pkgs, cores⟩
  · exact fun c s u x0 x1 x2 x3 x4 risk runs tail held => execFtRiskQuery_ok runs tail held
  · obtain ⟨fr, sent, length, risk⟩ := sendHealth_risk addr most
    obtain ⟨more, then_⟩ := repeatBarriers_sentMore (sendHealth s)
    refine ⟨_, fr, more, congrArg Host.Outcome.next (if_pos present), ?_, length, risk⟩
    rw [then_, sent, List.append_assoc]
    rfl

end Sys2Proof.Machine
end

section
/-!
PROOFS. The two views of a unit: fences, reconciliations and losses (O47).
-/
namespace Sys2Proof.Machine

/-! ## What leaves the records of the units -/

/-- The records of the units and the dies of the partitions are as before. -/
structure SameUnits (s t : State) : Prop where
  units : t.chip.units = s.chip.units
  parts : t.ten.parts = s.ten.parts

section
variable {s t : State}

theorem SameUnits.refl (s : State) : SameUnits s s := ⟨rfl, rfl⟩

theorem SameUnits.ite {c : Prop} [Decidable c] {u : State} (h : SameUnits s t) (g : SameUnits s u) :
    SameUnits s (if c then t else u) := by
  split
  · exact h
  · exact g

theorem SameUnits.foldl {α : Type} {f : State → α → State} {l : List α} (hf : ∀ t x, SameUnits s t → SameUnits s (f t x))
    (h : SameUnits s t) : SameUnits s (l.foldl f t) :=
  List.foldlRecOn l f (motive := fun t : State => SameUnits s t) h fun t h x _ => hf t x h

/-- A change that reaches neither. -/
theorem SameUnits.same {u : State} (h : SameUnits s t) (hu : u.chip.units = t.chip.units) (hp : u.ten.parts = t.ten.parts) :
    SameUnits s u := ⟨hu.trans h.units, hp.trans h.parts⟩

/-- A change of fields that hold neither the units nor the tenants. -/
theorem SameUnits.upd {pending out freeCtr mtime mem mail cores pkgs pkgOrder svcTurn demand models moves moveCtr led gens ft}
    (h : SameUnits s t) : SameUnits s ⟨pending, out, freeCtr, mtime, mem, mail, t.ten, t.chip, cores, pkgs, pkgOrder, svcTurn,
      demand, models, moves, moveCtr, led, gens, ft⟩ := ⟨h.units, h.parts⟩

theorem OnlyMail.units {u : State} (m : OnlyMail t u) (h : SameUnits s t) : SameUnits s u := by
  obtain ⟨_, _, rfl⟩ := m
  exact h.same rfl rfl

theorem SameUnits.unit (h : SameUnits s t) (k i : Nat) : t.unit k i = s.unit k i := by
  unfold State.unit
  rw [h.units]

theorem SameUnits.dieOwner (h : SameUnits s t) (d : Nat) : t.dieOwner d = s.dieOwner d := by
  unfold State.dieOwner State.partDies
  rw [h.parts]

@[simp] theorem unit_onUnit_same (s : State) (k i : Nat) (f : UnitRec → UnitRec) : (s.onUnit k i f).unit k i = f (s.unit k i) :=
  congrArg (Option.getD · _) (tget_tset_same ..)

/-- The record of another key is left; one of the same key is the same record. -/
theorem unit_onUnit_ne (s : State) {k i k' i' : Nat} (f : UnitRec → UnitRec) (h : s.unit k' i' ≠ s.unit k i) :
    (s.onUnit k' i' f).unit k i = s.unit k i := by
  have key : 256 * k + i ≠ 256 * k' + i' := by
    intro e
    exact h (by unfold State.unit; rw [e])
  exact congrArg (Option.getD · _) (tget_tset_ne _ _ key)

/-! ### Memory, messages and packages -/

theorem Chip.mend_units (c : Chip) (a n : Nat) : (c.mend a n).units = c.units := by
  fun_cases Chip.mend c a n <;> rfl

theorem write_sameUnits {a : Nat} {bs : Bytes} (h : SameUnits s t) : SameUnits s (t.write a bs) :=
  h.same (Chip.mend_units ..) rfl

theorem scramble_sameUnits {a n : Nat} (h : SameUnits s t) : SameUnits s (t.scramble a n) := (write_sameUnits h).same rfl rfl

theorem discover_sameUnits {a n : Nat} (h : SameUnits s t) : SameUnits s (t.discover a n) := by
  fun_cases t.discover a n
  case case1 | case2 => exact h
  case case3 | case4 => exact h.same rfl rfl

theorem wipeWhere_sameUnits {p : Nat → Bool} (h : SameUnits s t) : SameUnits s (t.wipeWhere p) := h.same rfl rfl

theorem launch_sameUnits {w : Waiter} (h : SameUnits s t) : SameUnits s (launch w t) := .ite (h.same rfl rfl) (h.same rfl rfl)

theorem flushWaits_sameUnits (h : SameUnits s t) : SameUnits s (flushWaits t) :=
  .foldl (fun _ _ h => launch_sameUnits h) (h.same rfl rfl)

theorem sendPart_sameUnits {die : Option Nat} {j : JobSlot} {part kind : Nat} {data : Bytes} (h : SameUnits s t) :
    SameUnits s (sendPart die j part kind data t) := launch_sameUnits h

theorem sendParts_sameUnits {j : JobSlot} {kind : Nat} {data : Bytes} (h : SameUnits s t) :
    SameUnits s (sendParts j kind data t) := .foldl (fun _ _ h => sendPart_sameUnits h) h

theorem finishWait_sameUnits {key : WaitKey} {st : Status} {p : Bytes} (h : SameUnits s t) :
    SameUnits s (finishWait key st p t) := (finishWait_onlyMail ..).units h

theorem copyRange_sameUnits {acct src dst n : Nat} (h : SameUnits s t) : SameUnits s (copyRange acct src dst n t) :=
  .ite (scramble_sameUnits (discover_sameUnits (h.same rfl rfl))) (write_sameUnits (h.same rfl rfl))

theorem restoreRw_sameUnits {p : Pkg} (h : SameUnits s t) : SameUnits s (restoreRw p t) :=
  .foldl (fun _ _ h => .ite (copyRange_sameUnits h) h) h

theorem scrambleOut_sameUnits {p : Pkg} {forced : Bool} (h : SameUnits s t) : SameUnits s (scrambleOut p forced t) :=
  .foldl (fun _ _ h => .ite (scramble_sameUnits h) h) h

theorem putRecord_sameUnits {acct at_ : Nat} {bs : Bytes} (h : SameUnits s t) : SameUnits s (putRecord acct at_ bs t) :=
  write_sameUnits (h.same rfl rfl)

theorem endPkg_sameUnits {id : PkgId} {st : Status} (h : SameUnits s t) : SameUnits s (endPkg id st t) := by
  fun_cases endPkg id st t
  · exact h
  next p _ _ _ cleared scrambled restored _ _ _ _ metered kept told =>
    have hc : SameUnits s cleared := h.same rfl rfl
    have hs : SameUnits s scrambled := .ite (scrambleOut_sameUnits hc) hc
    have hr : SameUnits s restored := .ite (restoreRw_sameUnits hs) hs
    have hk : SameUnits s kept := hr.same rfl rfl
    exact finishWait_sameUnits <| .ite hk <| (post_onlyMail ..).units (putRecord_sameUnits hk)

theorem tryEndStop_sameUnits {id : PkgId} (h : SameUnits s t) : SameUnits s (tryEndStop id t) := by
  fun_cases tryEndStop id t
  · exact h
  · exact endPkg_sameUnits h
  · exact h

theorem beginStop_sameUnits {id : PkgId} {st : Status} (h : SameUnits s t) : SameUnits s (beginStop id st t) := by
  fun_cases beginStop id st t
  · exact h
  · exact h
  · exact tryEndStop_sameUnits (h.same rfl rfl)

/-! ### Routes and what waits for them -/

theorem sendWides_sameUnits {m : Model} {layer : Nat} {ws : List Wide} {failed : List Nat} (h : SameUnits s t) :
    SameUnits s (sendWides m layer ws failed t) := by
  fun_cases sendWides m layer ws failed t
  · exact h
  · exact sendParts_sameUnits (h.same rfl rfl)

theorem countConds_sameUnits {acct die : Nat} {unit : Option Nat} {c : Conds} (h : SameUnits s t) :
    SameUnits s (countConds acct die unit c t) := by
  have metered : ∀ {u : State} (i n : Nat), SameUnits s u → SameUnits s (if n == 0 then u else u.num acct i n) :=
    fun _ _ h => .ite h (h.same rfl rfl)
  have counted : ∀ {u : State} (src n : Nat), SameUnits s u →
      SameUnits s (if n == 0 then u else u.bump src die (some acct) unit n) := fun _ _ h => .ite h (h.same rfl rfl)
  exact counted _ _ <| counted _ _ <| counted _ _ <| metered _ _ <| metered _ _ <| metered _ _ <| metered _ _ <|
    metered _ _ <| metered _ _ <| metered _ _ h

theorem countOuts_sameUnits {acct : Nat} {os : List LaOut} (h : SameUnits s t) : SameUnits s (countOuts acct os t) :=
  countConds_sameUnits h

theorem tryCommit_sameUnits {slot : Nat} (h : SameUnits s t) : SameUnits s (tryCommit slot t) := by
  fun_cases tryCommit slot t
  case case1 | case2 | case3 => exact h
  case case4 => exact finishWait_sameUnits <| (sendWides_sameUnits (countOuts_sameUnits h)).upd

theorem tryRestoreEnd_sameUnits {p slot : Nat} (h : SameUnits s t) : SameUnits s (tryRestoreEnd p slot t) := by
  fun_cases tryRestoreEnd p slot t
  case case1 | case3 | case4 => exact h
  case case2 => exact finishWait_sameUnits (h.same rfl rfl)

theorem retryCommits_sameUnits (h : SameUnits s t) : SameUnits s (retryCommits t) := by
  refine .foldl (fun _ _ h => ?_) <| .foldl (fun _ _ h => tryCommit_sameUnits h) h
  split
  · exact tryRestoreEnd_sameUnits h
  · exact h

theorem routesChanged_sameUnits (h : SameUnits s t) : SameUnits s (routesChanged t) :=
  retryCommits_sameUnits (flushWaits_sameUnits h)

theorem onFabric_sameUnits {f : Fabric → Fabric} (h : SameUnits s t) : SameUnits s (t.onFabric f) := ⟨h.units, h.parts⟩

theorem reroute_sameUnits {p : Nat} (h : SameUnits s t) : SameUnits s (reroute p t) :=
  routesChanged_sameUnits (onFabric_sameUnits h)

theorem unroute_sameUnits {p : Nat} (h : SameUnits s t) : SameUnits s (unroute p t) :=
  .ite h <| .ite (h.same rfl rfl) (h.same rfl rfl)

/-! ### Fences, wipes and resets -/

theorem fenceCore_sameUnits {i : Nat} (h : SameUnits s t) : SameUnits s (fenceCore i t) :=
  .foldl (fun _ _ h => beginStop_sameUnits h) (h.same rfl rfl)

theorem fenceEffects_sameUnits {kind index : Nat} (h : SameUnits s t) : SameUnits s (fenceEffects kind index t) := by
  fun_cases fenceEffects kind index t
  · exact .foldl (fun _ _ h => fenceCore_sameUnits h) h
  · exact fenceCore_sameUnits h
  · exact h.same rfl rfl
  · exact unroute_sameUnits h
  · exact h

theorem stopWave_sameUnits {slot : Nat} (h : SameUnits s t) : SameUnits s (stopWave slot t) := by
  fun_cases stopWave slot t
  · exact h.same rfl rfl
  · exact h
  · exact h

theorem loseDeposits_sameUnits {p : Deposit → Bool} (h : SameUnits s t) : SameUnits s (loseDeposits p t) := by
  refine SameUnits.same (.foldl (fun _ _ h => ?_) h) rfl rfl
  split
  · exact sendPart_sameUnits h
  · exact h

theorem reinitUnit_sameUnits {kind index : Nat} (h : SameUnits s t) : SameUnits s (reinitUnit kind index t) := by
  fun_cases reinitUnit kind index t
  · exact wipeWhere_sameUnits <| wipeWhere_sameUnits <| .foldl (fun _ _ h => h.same rfl rfl) h
  · exact wipeWhere_sameUnits (h.same rfl rfl)
  · exact .foldl (fun _ _ h => .ite (stopWave_sameUnits h) h) h
  · exact wipeWhere_sameUnits <| wipeWhere_sameUnits <| (loseDeposits_sameUnits h).same rfl rfl
  · exact wipeWhere_sameUnits (wipeWhere_sameUnits h)
  · exact h

theorem endPartResets_sameUnits (h : SameUnits s t) : SameUnits s (endPartResets t) :=
  .foldl (fun _ _ h => finishWait_sameUnits (h.same rfl rfl)) h

theorem conflict_sameUnits {kind index out : Nat} (h : SameUnits s t) : SameUnits s (conflict kind index out t) :=
  (postAll_onlyMail ..).units h

end

/-! ## UNIT_FENCE, RECONCILIATION and UNIT_LOST -/

/-- A unit in service whose views differ is fenced: counted once, and to be reconciled (R501, R502). -/
theorem compareViews_fences {s : State} {k i : Nat} (serves : (s.unit k i).mgmt < 2) (differ : (s.unit k i).disagrees = true) :
    (compareViews k i s).unit k i = { s.unit k i with mgmt := 2, fences := (s.unit k i).fences + 1, auto := true } := by
  have fenced : compareViews k i s = conflict k i 0 (fenceEffects k i
      (s.onUnit k i fun u => { u with mgmt := 2, fences := u.fences + 1, auto := true })) := by
    simp [compareViews, serves, differ]
  rw [fenced, (conflict_sameUnits (fenceEffects_sameUnits (.refl _))).unit, unit_onUnit_same]

/-- A unit whose views agree is left. -/
theorem compareViews_agrees {s : State} {k i : Nat} (agree : (s.unit k i).disagrees = false) : compareViews k i s = s := by
  simp [compareViews, agree]

/-- The fences of a lost unit's partitions leave a unit that is out of service. -/
theorem fenceUnits_leaves {k i : Nat} {u : UnitRec} (gone : u.mgmt ≠ 0) (units : List (Nat × Nat)) {s : State}
    (h : s.unit k i = u) :
    (units.foldl (fun (s : State) (x : Nat × Nat) => if (s.unit x.1 x.2).mgmt == 0 then
        fenceEffects x.1 x.2 (s.onUnit x.1 x.2 fun u => { u with mgmt := 2, fences := u.fences + 1 }) else s) s).unit k i = u := by
  refine List.foldlRecOn units _ (motive := fun t : State => t.unit k i = u) h fun t ht x _ => ?_
  by_cases serving : (t.unit x.1 x.2).mgmt = 0
  · have other : t.unit x.1 x.2 ≠ t.unit k i := by
      rw [ht]
      intro same
      exact gone (same ▸ serving)
    rw [if_pos (by simpa using serving), (fenceEffects_sameUnits (.refl _)).unit, unit_onUnit_ne _ _ other, ht]
  · rw [if_neg (by simpa using serving), ht]

/-- A lost unit is out of service on both views, and the module shows FAULT (R449). -/
theorem loseUnit_loses (k i : Nat) (s : State) :
    (loseUnit k i s).unit k i = { s.unit k i with mgmt := 1, data := 1 } ∧ (loseUnit k i s).chip.beacon.mstate = .fault := by
  unfold loseUnit
  extract_lets parts tag told lost units fence fenced jobs tell
  have heardOf : SameUnits s told := (postAll_onlyMail ..).units (.refl s)
  have outOfService : lost.unit k i = { s.unit k i with mgmt := 1, data := 1 } := by
    rw [← heardOf.unit]
    exact unit_onUnit_same ..
  have fencedUnit : fenced.unit k i = { s.unit k i with mgmt := 1, data := 1 } :=
    fenceUnits_leaves Nat.one_ne_zero units (((fenceEffects_sameUnits (.refl lost)).unit k i).trans outOfService)
  have sent : SameUnits fenced ((jobs.foldl tell fenced).onBeacon fun b => { b with mstate := .fault }) :=
    SameUnits.same (.foldl (fun _ _ h => .foldl (fun _ _ h => sendPart_sameUnits h) h) (.refl _)) rfl rfl
  generalize (jobs.foldl tell fenced) = heard at sent ⊢
  refine ⟨?_, by rw [sendHealth_mstate]; rfl⟩
  obtain ⟨_, _, e⟩ := sendHealth_onlyFrames (heard.onBeacon fun b => { b with mstate := .fault })
  rw [e, ← fencedUnit, ← sent.unit k i]
  rfl

/-- A unit that is RECONCILING, of one die, whose reconciliation ends with the tag of that die's owner: how it ends (R504). -/
theorem reconciliation_ends {s : State} {kind index data tag : BitVec 8} {passed : Bool} {d : Nat} (on : s.off = false)
    (exists_ : index.toNat < unitCount kind.toNat) (reconciling : (s.unit kind.toNat index.toNat).mgmt = 3)
    (oneDie : unitDies kind.toNat index.toNat = [d]) (owned : tag.toNat = (s.dieOwner d).getD 0xFF) :
    ∃ t, exec (.reconciliation kind index passed data tag) s = .next t ∧
      (passed = false → data.toNat ≠ 2 → (t.unit kind.toNat index.toNat).mgmt = 1) ∧
      (passed = true → data = 0 → (t.unit kind.toNat index.toNat).mgmt = 0 ∧ (t.unit kind.toNat index.toNat).data = 0) := by
  generalize hk : kind.toNat = k at *
  generalize hi : index.toNat = i at *
  show ∃ t, execReconciliation kind index passed data tag s = .next t ∧ _
  simp -zeta -zetaHave only [execReconciliation, hk, hi]
  extract_lets u cleared own presented out ended told lost compared back
  have keeps : SameUnits s cleared := reinitUnit_sameUnits (.refl s)
  have owner : own = s.dieOwner d := by
    simp only [own, oneDie, keeps.dieOwner]
  have shown : presented.unit k i = ⟨0, data.toNat, tag.toNat, tag.toNat, (cleared.unit k i).fences, false⟩ := by
    simp only [presented, unit_onUnit_same, owner, owned]
  have after : SameUnits back (endPartResets (finishWait (.unit k i) .ok (leBytes 1 out) back)) :=
    endPartResets_sameUnits (finishWait_sameUnits (.refl back))
  refine ⟨_, by simp [on, u, reconciling, Nat.not_le.2 exists_]; rfl, ?_, ?_⟩
  · intro failed intact
    have retires : out = 2 := by simp [out, failed]
    have toldUnit : told.unit k i = ⟨1, data.toNat, tag.toNat, tag.toNat, (cleared.unit k i).fences, false⟩ := by
      rw [(conflict_sameUnits (.refl ended)).unit]
      simp [ended, shown, retires]
    have lostUnit : ∃ n, n ≠ 2 ∧ lost.unit k i = ⟨1, n, tag.toNat, tag.toNat, (cleared.unit k i).fences, false⟩ := by
      unfold lost
      split
      · exact ⟨1, by decide, by rw [(loseUnit_loses ..).1, toldUnit]⟩
      · exact ⟨_, intact, toldUnit⟩
    obtain ⟨n, notFenced, retired⟩ := lostUnit
    have same : back = lost := by
      simp [back, compared, retires, compareViews_agrees, retired, UnitRec.disagrees, notFenced]
    rw [after.unit, same, retired]
  · intro passes fresh
    have serves : out = 1 := by simp [out, passes, shown, fresh, UnitRec.disagrees]
    have toldUnit : told.unit k i = ⟨0, 0, tag.toNat, tag.toNat, (cleared.unit k i).fences, false⟩ := by
      rw [(conflict_sameUnits (.refl ended)).unit]
      simp [ended, shown, serves, fresh]
    have same : SameUnits told back := by
      simp only [back, compared, lost, serves]
      exact .ite (reroute_sameUnits (.refl told)) (.refl told)
    rw [after.unit, same.unit, toldUnit]
    exact ⟨rfl, rfl⟩

/-- Settles O47: what a fence, a reconciliation and a loss leave of the unit's record, for all else they do leaves it. -/
theorem unitsFenceReconcileAndFail : Obligations.UnitsFenceReconcileAndFail := by
  unfold Obligations.UnitsFenceReconcileAndFail
  refine ⟨?fence, ?begin, ?reconcile, ?lose⟩
  case fence =>
    intro kind index data tag s on exists_ view u u' serves
    have run : exec (.unitFence kind index data tag) s = .next (compareViews kind.toNat index.toNat
        (s.onUnit kind.toNat index.toNat fun u => { u with data := data.toNat, dTag := tag.toNat })) :=
      if_neg (by simp [on, exists_, view])
    have shows : (s.onUnit kind.toNat index.toNat fun u => { u with data := data.toNat, dTag := tag.toNat }).unit
        kind.toNat index.toNat = u' := unit_onUnit_same ..
    refine ⟨fun differ => ⟨_, run, ?_⟩, fun agree => ⟨_, run, ?_⟩⟩
    · rw [compareViews_fences (by rw [shows]; exact serves) (by rw [shows]; exact differ), shows]
    · rw [compareViews_agrees (by rw [shows]; exact agree)]
      exact ⟨shows, rfl, rfl⟩
  case begin =>
    intro kind index data tag passed s on exists_ u fenced own
    refine ⟨s.onUnit kind.toNat index.toNat fun u => { u with mgmt := 3, auto := false }, ?_, unit_onUnit_same ..⟩
    show execReconciliation kind index passed data tag s = _
    simp [execReconciliation, on, Nat.not_le.2 exists_, show (s.unit kind.toNat index.toNat).mgmt = 2 from fenced,
      show (s.unit kind.toNat index.toNat).auto = true from own]
  case reconcile =>
    intro kind index data tag s on exists_ reconciling
    refine ⟨fun d oneDie owned intact => ?_, ?_⟩
    · obtain ⟨t, run, fails, _⟩ := reconciliation_ends (passed := false) on exists_ reconciling oneDie owned
      exact ⟨t, run, fails rfl intact⟩
    · rintro rfl fresh owned
      obtain ⟨t, run, _, passes⟩ := reconciliation_ends (passed := true) on exists_ reconciling rfl owned
      exact ⟨t, run, passes rfl fresh⟩
  case lose =>
    intro kind index s on exists_ kinds
    have run : exec (.unitLost kind index) s = .next (loseUnit kind.toNat index.toNat s) :=
      if_neg (by rcases kinds with rfl | rfl | rfl <;> simpa [on] using exists_)
    obtain ⟨unit, fault⟩ := loseUnit_loses kind.toNat index.toNat s
    exact ⟨_, run, by rw [unit], by rw [unit], fault⟩

end Sys2Proof.Machine
end

section
/-!
PROOFS. The ends of copies, restores, and the loss of deposits and parts (O46).
-/
namespace Sys2Proof.Machine

/-! ## What leaves the checkpoints and the moving operations -/

/-- The checkpoints in the Strongbox and the moving operations are as before. -/
structure SameCopies (s t : State) : Prop where
  ckpts : t.ft.ckpts = s.ft.ckpts
  moves : t.moves = s.moves

section
variable {s t : State}

theorem SameCopies.refl (s : State) : SameCopies s s := ⟨rfl, rfl⟩

/-- A change that reaches neither. -/
theorem SameCopies.same {u : State} (h : SameCopies s t) (hc : u.ft.ckpts = t.ft.ckpts) (hm : u.moves = t.moves) : SameCopies s u :=
  ⟨hc.trans h.ckpts, hm.trans h.moves⟩

theorem SameCopies.ite {c : Prop} [Decidable c] {u : State} (h : SameCopies s t) (g : SameCopies s u) :
    SameCopies s (if c then t else u) := by
  split
  · exact h
  · exact g

theorem OnlyMail.copies {u : State} (m : OnlyMail t u) (h : SameCopies s t) : SameCopies s u := by
  obtain ⟨_, _, rfl⟩ := m
  exact h.same rfl rfl

theorem sendPart_sameCopies {die : Option Nat} {j : JobSlot} {part kind : Nat} {data : Bytes} (h : SameCopies s t) :
    SameCopies s (sendPart die j part kind data t) := .ite (h.same rfl rfl) (h.same rfl rfl)

theorem tellReading_sameCopies {m : Model} {on : Bool} (h : SameCopies s t) : SameCopies s (tellReading m on t) := by
  fun_cases tellReading m on t
  · exact sendPart_sameCopies h
  · exact h

theorem setLater_sameCopies {slot : Nat} {m : Model} {later : List (Nat × Word)} (h : SameCopies s t) :
    SameCopies s (setLater slot m later t) := .ite (h.same rfl rfl) (tellReading_sameCopies (h.same rfl rfl))

/-- A partition whose moving operation ends runs none. -/
theorem running_dropRunning (p : Nat) (s : State) : ((dropRunning p s).movesOf p).running = none := by
  by_cases inRange : p < s.moves.length
  · rw [dropRunning, State.movesOf_onMoves _ _ _ inRange]
  · simp [dropRunning, State.movesOf, State.onMoves, lmod, inRange]

/-- The end of a moving operation: nothing runs in its partition, and the checkpoints stay. -/
theorem endOfCopy_leaves {p : Nat} {key : WaitKey} {st : Status} {bs : Bytes} (h : SameCopies s t) :
    ((finishWait key st bs (dropRunning p t)).movesOf p).running = none ∧
    (finishWait key st bs (dropRunning p t)).ft.ckpts = s.ft.ckpts := by
  obtain ⟨ckpts, moves⟩ := (finishWait_onlyMail key st bs (dropRunning p t)).copies (.refl _)
  refine ⟨?_, ckpts.trans h.ckpts⟩
  rw [State.movesOf, moves]
  exact running_dropRunning p t

/-! ## The commit of a checkpoint -/

/-- A committed checkpoint is held: KEEP keeps one at least. -/
theorem mem_commitCkpt_new (m : Model) (record image : Bytes) (s : State) :
    (⟨m.map.acct, m.map.num, record, image, false, false⟩ : Ckpt) ∈ (commitCkpt m record image s).ft.ckpts := by
  refine List.mem_append_right _ ?_
  rw [List.drop_append_of_le_length (by simp)]
  exact List.mem_append_right _ (List.mem_singleton_self _)

/-- The checkpoints of other models stay. -/
theorem mem_commitCkpt_other {m : Model} {record image : Bytes} {s : State} {k : Ckpt} (held : k ∈ s.ft.ckpts)
    (other : k.acct ≠ m.map.acct ∨ k.model ≠ m.map.num) : k ∈ (commitCkpt m record image s).ft.ckpts := by
  simp only [commitCkpt, List.mem_append, List.mem_filter]
  left
  exact ⟨held, by simpa [← not_and_or] using other⟩

/-- A layer-1 copy to the Strongbox that is done is committed there, and no moving operation runs in its partition. -/
theorem drainDone_commits (p slot : Nat) (m : Model) (o : MoveOp) {c : CopyJob} (toBox : c.kind = 1) (s : State) :
    ((drainDone p slot m o c s).movesOf p).running = none ∧
    (drainDone p slot m o c s).ft.ckpts = (commitCkpt m (stampRecord c.record s.mtime) c.image s).ft.ckpts := by
  unfold drainDone
  extract_lets record kept due next note noted later told
  have committed : kept = commitCkpt m record c.image s := if_neg (by rw [toBox]; decide)
  rw [← committed]
  have same : SameCopies kept noted := ⟨rfl, rfl⟩
  have copied : SameCopies kept later := .ite (setLater_sameCopies same) same
  exact endOfCopy_leaves ((post_onlyMail ..).copies copied)

/-- A layer-1 copy to the Strongbox that fails leaves the checkpoints, and no moving operation runs in its partition. -/
theorem drainFailed_ends (p : Nat) (m : Model) (o : MoveOp) {c : CopyJob} (toBox : c.kind = 1) (st : Status) (s : State) :
    ((drainFailed p m o c st s).movesOf p).running = none ∧ (drainFailed p m o c st s).ft.ckpts = s.ft.ckpts := by
  have ended : drainFailed p m o c st s = finishWait (.move o.id) st [] (dropRunning p
      (post m.map.acct 7 st (copyArgs m 1 c.kind (recSeq c.record) c.step.toNat) s)) := by
    simp [drainFailed, toBox]
  rw [ended]
  exact endOfCopy_leaves ((post_onlyMail ..).copies (.refl s))

/-- A failed read of the Strongbox marks the checkpoints of that SEQNO BAD. -/
theorem markBad_marks {m : ModelMap} {n : Nat} {s : State} {k : Ckpt} (held : k ∈ (markBad m n s).ft.ckpts)
    (acct : k.acct = m.acct) (model : k.model = m.num) (seqno : recSeq k.record = n) : k.bad = true := by
  obtain ⟨x, -, rfl⟩ := List.mem_map.1 held
  split at acct
  · rw [if_pos ‹_›]
  · next unmarked =>
    rw [if_neg unmarked] at model seqno
    simp [acct, model, seqno] at unmarked

end

/-! ## Lost deposits and parts -/

theorem wakeUp_keeps (s : State) : (wakeUp s).ft = s.ft ∧ (wakeUp s).models = s.models ∧ (wakeUp s).mem = s.mem := by
  obtain ⟨f, e⟩ := wakeUp_eq s
  rw [e]
  exact ⟨rfl, rfl, rfl⟩

/-- DEPOSIT_LOST of a joined part: the deposit is forgotten, and the next flip carries a want (R437). -/
theorem depositLost_leaves {s : State} {src : BitVec 13} {job : Word} {a k : Nat} {js : JobSlot} {m : Model} {model : BitVec 16}
    (die : BitVec 3) (heard : s.recipient src.toNat job = some (a, js)) (slot : s.slotOf a model.toNat = some k)
    (created : s.model k = some m) :
    ∃ t x, exec (.depositLost src job model die) s = .next t ∧ t.model k = some x ∧
      t.ft.sent = (s.ft.sent.filter fun x => !(x.acct == a && x.model == model.toNat)) ∧
      (m.ft.plan ≠ none → x.ft.wants = true) ∧ t.mem = s.mem := by
  obtain ⟨ft, models, mem⟩ := wakeUp_keeps s
  let told := post a 8 .ok (leBytes 2 model.toNat ++ leBytes 2 (js.partOf src.toNat)) (dropSent a model.toNat (wakeUp s))
  obtain ⟨mail, out, e⟩ : OnlyMail (dropSent a model.toNat (wakeUp s)) told := post_onlyMail ..
  have same : told.models = s.models := by rw [e]; exact models
  have here : told.model k = some m := by rwa [State.model, same]
  refine ⟨_, _, ?_, model_onModel_same here fun m =>
    { m with ft := { m.ft with deferred := m.ft.deferred || m.ft.plan.isSome } }, ?_, ?_, ?_⟩
  · show execDepositLost src job model die s = _
    simp only [execDepositLost, heard]
    change (match told.slotOf a model.toNat with | none => _ | some k => _) = _
    rw [show told.slotOf a model.toNat = some k by rwa [State.slotOf, same]]
  · show told.ft.sent = _
    rw [e]
    exact congrArg (fun f : FtState => f.sent.filter fun x => !(x.acct == a && x.model == model.toNat)) ft
  · intro planned
    simp [FtModel.wants, Option.isSome_iff_ne_none.2 planned]
  · show told.mem = _
    rw [e]
    exact mem

/-! ## The copies of a plan and restores -/

/-- A restore whose checkpoint of this layout reads well has that checkpoint for its source. -/
theorem restoreSource_held {s : State} {m : Model} {c : CopyJob} {k : Ckpt} (box : c.source = 1)
    (newest : ((s.ckptsOf m.map).filter fun k => recStep k.record == c.step.toNat).getLast? = some k) (reads : k.fails = false)
    (layout : fieldAt k.record 0x28 8 = m.map.layout.toNat) : restoreSource s m c none = .ok (k.record, k.image) := by
  have step : recStep k.record = c.step.toNat := by
    simpa using (List.mem_filter.1 (List.mem_of_getLast? newest)).2
  simp [restoreSource, box, newest, reads, layout, step]

/-- Settles O46: each end of a copy by its row's equation, and what the ends leave by `drainDone_commits` and its like. -/
theorem copiesCommitFailAndRestore : Obligations.CopiesCommitFailAndRestore := by
  unfold Obligations.CopiesCommitFailAndRestore
  refine ⟨?drain, ?later, ?restore, ?restored, ?lost⟩
  case drain =>
    intro slot s m p o c hm hc
    refine ⟨fun u isOpen read => ?_, fun toBox => ?_, fun r failed => ?_, ?_, fun toBox => drainFailed_ends p m o toBox .timeout s⟩
    · show execDrainCommit slot .committed s = _
      have ready : (c.kind == 2 && !depositOpen s m) = false := by
        by_cases deposit : c.kind = 2
        · simp [isOpen deposit]
        · simp [deposit]
      simp [execDrainCommit, hm, hc, ready, read]
    · obtain ⟨idle, ckpts⟩ := drainDone_commits p slot.toNat m o toBox s
      rw [ckpts]
      exact ⟨mem_commitCkpt_new .., idle, fun k held other => mem_commitCkpt_other held other⟩
    · show execDrainCommit slot r s = _
      simp [execDrainCommit, hm, hc, failed]
    · show execDrainLimitExpiry slot s = _
      simp [execDrainLimitExpiry, hm, hc]
  case later =>
    intro slot s m layer q others hm hl
    refine ⟨fun paused r => ?_, fun runs src source room => ?_, fun runs => ⟨?_, ?_⟩, fun box k held acct model seqno => ?_,
      fun idle => ?_⟩
    · show execLaterLayerCopy slot r s = _
      simp [execLaterLayerCopy, hm, hl, paused]
    · show execLaterLayerCopy slot .committed s = _
      by_cases host : m.ft.planU (layer + 1) 1 = 3
      · obtain ⟨fits, here, alive⟩ := room host
        simp [execLaterLayerCopy, hm, hl, runs, source, host, here, alive, Nat.not_lt.2 fits]
      · simp [execLaterLayerCopy, hm, hl, runs, source, host]
    · show execLaterLayerCopy slot .noResource s = _
      simp [execLaterLayerCopy, hm, hl, runs, copyStatus]
    · show execLaterLayerCopy slot .dataError s = _
      simp [execLaterLayerCopy, hm, hl, runs, copyStatus]
    · rw [laterUnread, if_pos (by simp [box])] at held
      exact markBad_marks held acct model seqno
    · show execDrainLimitExpiry slot s = _
      simp [execDrainLimitExpiry, hm, hl, idle]
  case restore =>
    intro slot s m p o c k hm hr hc restores moving box newest reads layout unread writable
    refine ⟨?_, rfl, rfl, rfl, BitVec.toNat_ofNat .., BitVec.toNat_ofNat .., rfl⟩
    show execCkptRestoreDone slot none true s = _
    simp [execCkptRestoreDone, hm, hr, hc, restores, moving, box, restoreSource_held box newest reads layout, unread, writable]
  case restored =>
    intro p slot s m o c hm hr hc restores barrier heard alone
    simp [tryRestoreEnd, hm, hr, hc, restores, barrier, heard, alone]
  case lost =>
    intro src part job s a js
    refine ⟨fun heard => ⟨?_, fun model die k m => depositLost_leaves die heard⟩, fun k found joined other => ⟨fun away ill => ?_, ?_⟩⟩
    · show execJobFault src job s = _
      simp [execJobFault, heard]
    · show execPartLostTimeout job part s = _
      simp [-List.getD_eq_getElem?_getD, execPartLostTimeout, found, joined, other, away, ill]
    · intro e shown known runs
      have well : beaconIll s (js.table.getD part.toNat 8192) = false := by
        simp only [beaconIll, shown, known, runs]
        rfl
      show execPartLostTimeout job part s = _
      simp [-List.getD_eq_getElem?_getD, execPartLostTimeout, found, well]

end Sys2Proof.Machine
end
